-- ==== Sys2Proof/Word.lean ====
section
/-! DEFINITION. The word types of the VQ9: 64-bit words, bytes, and the vector mask of R200. -/

namespace Sys2Proof

/-- A 64-bit scalar register, CSR or 8-byte memory word (R47, R73). -/
abbrev Word := BitVec 64

/-- One byte of memory (R11). -/
abbrev Byte := BitVec 8

/-- A mask register, the execution mask E or a mask-stack entry at the largest grant: MLEN = 32,768
bits (R200). Bit i belongs to element i. -/
abbrev Mask := BitVec 32768

/-- The 32-bit instruction word (R18). -/
abbrev IWord := BitVec 32

end Sys2Proof
end

