-- ==== Sys2Proof/Syntax.lean ====
section
/-! DEFINITION. The instructions and events of the VQ9: one constructor per row of the opcode table, in
the table's order. Field names are the table's: d, a, b register fields; k the mask operand; x, y the chain
bits of va and vb; p the policy; w the .w or width field; i, o, n immediates, offsets and CSR numbers. -/

namespace Sys2Proof

/-- The four coherence policies of the pol field (R25). -/
inductive Policy where
  | self | trk | own | thru
  deriving DecidableEq, Repr

/-- FENCE scopes (R27). -/
inductive Scope where
  | hart | core | dev | sys
  deriving DecidableEq, Repr

/-- FENCE directions (R67). -/
inductive Dir where
  | sv | vs | vv | all
  deriving DecidableEq, Repr

/-- Every row of the opcode table. The first 288 are instruction words; the rest, from `vectorStart` on, are the
events of the device, which carry no word: other agents and units cause them. -/
inductive Instr where
  | add (d a b : Fin 32) (w : Bool)
  | sub (d a b : Fin 32) (w : Bool)
  | and (d a b : Fin 32)
  | or (d a b : Fin 32)
  | xor (d a b : Fin 32)
  | andn (d a b : Fin 32)
  | sll (d a b : Fin 32) (w : Bool)
  | srl (d a b : Fin 32) (w : Bool)
  | sra (d a b : Fin 32) (w : Bool)
  | slt (d a b : Fin 32)
  | sltu (d a b : Fin 32)
  | min (d a b : Fin 32)
  | max (d a b : Fin 32)
  | minu (d a b : Fin 32)
  | maxu (d a b : Fin 32)
  | mul (d a b : Fin 32) (w : Bool)
  | mulh (d a b : Fin 32)
  | mulhu (d a b : Fin 32)
  | div (d a b : Fin 32) (w : Bool)
  | divu (d a b : Fin 32) (w : Bool)
  | rem (d a b : Fin 32) (w : Bool)
  | remu (d a b : Fin 32) (w : Bool)
  | clz (d a : Fin 32)
  | ctz (d a : Fin 32)
  | popc (d a : Fin 32)
  | addi (d a : Fin 32) (i : BitVec 16)
  | andi (d a : Fin 32) (i : BitVec 16)
  | ori (d a : Fin 32) (i : BitVec 16)
  | xori (d a : Fin 32) (i : BitVec 16)
  | slti (d a : Fin 32) (i : BitVec 16)
  | sltiu (d a : Fin 32) (i : BitVec 16)
  | slli (d a : Fin 32) (w : Bool) (s : Fin 64)
  | srli (d a : Fin 32) (w : Bool) (s : Fin 64)
  | srai (d a : Fin 32) (w : Bool) (s : Fin 64)
  | rori (d a : Fin 32) (w : Bool) (s : Fin 64)
  | lui (d : Fin 32) (i : BitVec 21)
  | addpc (d : Fin 32) (i : BitVec 21)
  | jal (d : Fin 32) (o : BitVec 21)
  | jalr (d a : Fin 32) (i : BitVec 16)
  | beq (a b : Fin 32) (o : BitVec 16)
  | bne (a b : Fin 32) (o : BitVec 16)
  | blt (a b : Fin 32) (o : BitVec 16)
  | bge (a b : Fin 32) (o : BitVec 16)
  | bltu (a b : Fin 32) (o : BitVec 16)
  | bgeu (a b : Fin 32) (o : BitVec 16)
  | lb (d a : Fin 32) (p : Policy) (i : BitVec 11)
  | lbu (d a : Fin 32) (p : Policy) (i : BitVec 11)
  | lh (d a : Fin 32) (p : Policy) (i : BitVec 11)
  | lhu (d a : Fin 32) (p : Policy) (i : BitVec 11)
  | lw (d a : Fin 32) (p : Policy) (i : BitVec 11)
  | lwu (d a : Fin 32) (p : Policy) (i : BitVec 11)
  | ld (d a : Fin 32) (p : Policy) (i : BitVec 11)
  | sb (d a : Fin 32) (p : Policy) (i : BitVec 11)
  | sh (d a : Fin 32) (p : Policy) (i : BitVec 11)
  | sw (d a : Fin 32) (p : Policy) (i : BitVec 11)
  | sd (d a : Fin 32) (p : Policy) (i : BitVec 11)
  | amoswap (d a b : Fin 32) (s : Fin 4) (l q f w : Bool)
  | amoadd (d a b : Fin 32) (s : Fin 4) (l q f w : Bool)
  | amoand (d a b : Fin 32) (s : Fin 4) (l q f w : Bool)
  | amoor (d a b : Fin 32) (s : Fin 4) (l q f w : Bool)
  | amoxor (d a b : Fin 32) (s : Fin 4) (l q f w : Bool)
  | amomin (d a b : Fin 32) (s : Fin 4) (l q f w : Bool)
  | amomax (d a b : Fin 32) (s : Fin 4) (l q f w : Bool)
  | amominu (d a b : Fin 32) (s : Fin 4) (l q f w : Bool)
  | amomaxu (d a b : Fin 32) (s : Fin 4) (l q f w : Bool)
  | amocas (d a b : Fin 32) (s : Fin 4) (l q f w : Bool)
  | fence (l q : Bool) (s : Scope) (t : Dir)
  | cinv (a : Fin 32) (i : BitVec 11)
  | cinvI (a : Fin 32) (i : BitVec 11)
  | cwb (a : Fin 32) (i : BitVec 11)
  | czero (a : Fin 32) (i : BitVec 11)
  | pref (a : Fin 32) (p : Policy) (w : Bool) (i : BitVec 11)
  | csrr (d : Fin 32) (n : BitVec 12)
  | csrw (d a : Fin 32) (n : BitVec 12)
  | csrs (d a : Fin 32) (n : BitVec 12)
  | csrc (d a : Fin 32) (n : BitVec 12)
  | csrwi (d : Fin 32) (i : BitVec 5) (n : BitVec 12)
  | csrsi (d : Fin 32) (i : BitVec 5) (n : BitVec 12)
  | csrci (d : Fin 32) (i : BitVec 5) (n : BitVec 12)
  | ecall
  | ebreak
  | tret
  | wfi
  | sfence (a b : Fin 32)
  | yield
  | halt
  | thaw (a : Fin 32)
  | ipop (d b : Fin 32)
  | ipopnb (d b : Fin 32)
  | wmbind (a b : Fin 32)
  | wmpub (a b : Fin 32)
  | wmread (d a : Fin 32)
  | pfx (v n : Bool) (p c : Fin 32)
  | vsetl (d a : Fin 32) (g : Fin 4) (e : Fin 8)
  | vadd (d a b : Fin 32) (x y : Bool) (k : Fin 8)
  | vsub (d a b : Fin 32) (x y : Bool) (k : Fin 8)
  | vand (d a b : Fin 32) (x y : Bool) (k : Fin 8)
  | vor (d a b : Fin 32) (x y : Bool) (k : Fin 8)
  | vxor (d a b : Fin 32) (x y : Bool) (k : Fin 8)
  | vandn (d a b : Fin 32) (x y : Bool) (k : Fin 8)
  | vsll (d a b : Fin 32) (x y : Bool) (k : Fin 8)
  | vsrl (d a b : Fin 32) (x y : Bool) (k : Fin 8)
  | vsra (d a b : Fin 32) (x y : Bool) (k : Fin 8)
  | vmin (d a b : Fin 32) (x y : Bool) (k : Fin 8)
  | vmax (d a b : Fin 32) (x y : Bool) (k : Fin 8)
  | vminu (d a b : Fin 32) (x y : Bool) (k : Fin 8)
  | vmaxu (d a b : Fin 32) (x y : Bool) (k : Fin 8)
  | vmul (d a b : Fin 32) (x y : Bool) (k : Fin 8)
  | vmulh (d a b : Fin 32) (x y : Bool) (k : Fin 8)
  | vmulhu (d a b : Fin 32) (x y : Bool) (k : Fin 8)
  | vdiv (d a b : Fin 32) (x y : Bool) (k : Fin 8)
  | vdivu (d a b : Fin 32) (x y : Bool) (k : Fin 8)
  | vrem (d a b : Fin 32) (x y : Bool) (k : Fin 8)
  | vremu (d a b : Fin 32) (x y : Bool) (k : Fin 8)
  | vmacc (d a b : Fin 32) (x y : Bool) (k : Fin 8)
  | vsadd (d a b : Fin 32) (x y : Bool) (k : Fin 8)
  | vsaddu (d a b : Fin 32) (x y : Bool) (k : Fin 8)
  | vssub (d a b : Fin 32) (x y : Bool) (k : Fin 8)
  | vssubu (d a b : Fin 32) (x y : Bool) (k : Fin 8)
  | vabsd (d a b : Fin 32) (x y : Bool) (k : Fin 8)
  | vclz (d a : Fin 32) (x : Bool) (k : Fin 8)
  | vctz (d a : Fin 32) (x : Bool) (k : Fin 8)
  | vpopc (d a : Fin 32) (x : Bool) (k : Fin 8)
  | vmv (d a : Fin 32) (x : Bool) (k : Fin 8)
  | vaddX (d a b : Fin 32) (x : Bool) (k : Fin 8)
  | vsubX (d a b : Fin 32) (x : Bool) (k : Fin 8)
  | vandX (d a b : Fin 32) (x : Bool) (k : Fin 8)
  | vorX (d a b : Fin 32) (x : Bool) (k : Fin 8)
  | vxorX (d a b : Fin 32) (x : Bool) (k : Fin 8)
  | vandnX (d a b : Fin 32) (x : Bool) (k : Fin 8)
  | vsllX (d a b : Fin 32) (x : Bool) (k : Fin 8)
  | vsrlX (d a b : Fin 32) (x : Bool) (k : Fin 8)
  | vsraX (d a b : Fin 32) (x : Bool) (k : Fin 8)
  | vminX (d a b : Fin 32) (x : Bool) (k : Fin 8)
  | vmaxX (d a b : Fin 32) (x : Bool) (k : Fin 8)
  | vminuX (d a b : Fin 32) (x : Bool) (k : Fin 8)
  | vmaxuX (d a b : Fin 32) (x : Bool) (k : Fin 8)
  | vmulX (d a b : Fin 32) (x : Bool) (k : Fin 8)
  | vmulhX (d a b : Fin 32) (x : Bool) (k : Fin 8)
  | vmulhuX (d a b : Fin 32) (x : Bool) (k : Fin 8)
  | vdivX (d a b : Fin 32) (x : Bool) (k : Fin 8)
  | vdivuX (d a b : Fin 32) (x : Bool) (k : Fin 8)
  | vremX (d a b : Fin 32) (x : Bool) (k : Fin 8)
  | vremuX (d a b : Fin 32) (x : Bool) (k : Fin 8)
  | vmaccX (d a b : Fin 32) (x : Bool) (k : Fin 8)
  | vsaddX (d a b : Fin 32) (x : Bool) (k : Fin 8)
  | vsadduX (d a b : Fin 32) (x : Bool) (k : Fin 8)
  | vssubX (d a b : Fin 32) (x : Bool) (k : Fin 8)
  | vssubuX (d a b : Fin 32) (x : Bool) (k : Fin 8)
  | vabsdX (d a b : Fin 32) (x : Bool) (k : Fin 8)
  | vmvX (d b : Fin 32) (k : Fin 8)
  | vfadd (d a b : Fin 32) (x y : Bool) (k : Fin 8)
  | vfsub (d a b : Fin 32) (x y : Bool) (k : Fin 8)
  | vfmul (d a b : Fin 32) (x y : Bool) (k : Fin 8)
  | vfdiv (d a b : Fin 32) (x y : Bool) (k : Fin 8)
  | vfmin (d a b : Fin 32) (x y : Bool) (k : Fin 8)
  | vfmax (d a b : Fin 32) (x y : Bool) (k : Fin 8)
  | vfmadd (d a b : Fin 32) (x y : Bool) (k : Fin 8)
  | vfmsub (d a b : Fin 32) (x y : Bool) (k : Fin 8)
  | vfnmadd (d a b : Fin 32) (x y : Bool) (k : Fin 8)
  | vfnmsub (d a b : Fin 32) (x y : Bool) (k : Fin 8)
  | vfsgnj (d a b : Fin 32) (x y : Bool) (k : Fin 8)
  | vfsgnjn (d a b : Fin 32) (x y : Bool) (k : Fin 8)
  | vfsqrt (d a : Fin 32) (x : Bool) (k : Fin 8)
  | vfrcp (d a : Fin 32) (x : Bool) (k : Fin 8)
  | vfrsq (d a : Fin 32) (x : Bool) (k : Fin 8)
  | vfexp2 (d a : Fin 32) (x : Bool) (k : Fin 8)
  | vflog2 (d a : Fin 32) (x : Bool) (k : Fin 8)
  | vfsin (d a : Fin 32) (x : Bool) (k : Fin 8)
  | vfcos (d a : Fin 32) (x : Bool) (k : Fin 8)
  | vfabs (d a : Fin 32) (x : Bool) (k : Fin 8)
  | vfneg (d a : Fin 32) (x : Bool) (k : Fin 8)
  | vfclass (d a : Fin 32) (x : Bool) (k : Fin 8)
  | vfaddX (d a b : Fin 32) (x : Bool) (k : Fin 8)
  | vfsubX (d a b : Fin 32) (x : Bool) (k : Fin 8)
  | vfmulX (d a b : Fin 32) (x : Bool) (k : Fin 8)
  | vfdivX (d a b : Fin 32) (x : Bool) (k : Fin 8)
  | vfminX (d a b : Fin 32) (x : Bool) (k : Fin 8)
  | vfmaxX (d a b : Fin 32) (x : Bool) (k : Fin 8)
  | vfmaddX (d a b : Fin 32) (x : Bool) (k : Fin 8)
  | vfmsubX (d a b : Fin 32) (x : Bool) (k : Fin 8)
  | vfnmaddX (d a b : Fin 32) (x : Bool) (k : Fin 8)
  | vfnmsubX (d a b : Fin 32) (x : Bool) (k : Fin 8)
  | vfsgnjX (d a b : Fin 32) (x : Bool) (k : Fin 8)
  | vfsgnjnX (d a b : Fin 32) (x : Bool) (k : Fin 8)
  | vseq (d : Fin 8) (a b : Fin 32) (x y : Bool) (k : Fin 8) (z : Bool)
  | vsne (d : Fin 8) (a b : Fin 32) (x y : Bool) (k : Fin 8) (z : Bool)
  | vslt (d : Fin 8) (a b : Fin 32) (x y : Bool) (k : Fin 8) (z : Bool)
  | vsltu (d : Fin 8) (a b : Fin 32) (x y : Bool) (k : Fin 8) (z : Bool)
  | vsle (d : Fin 8) (a b : Fin 32) (x y : Bool) (k : Fin 8) (z : Bool)
  | vsleu (d : Fin 8) (a b : Fin 32) (x y : Bool) (k : Fin 8) (z : Bool)
  | vsgt (d : Fin 8) (a b : Fin 32) (x y : Bool) (k : Fin 8) (z : Bool)
  | vsgtu (d : Fin 8) (a b : Fin 32) (x y : Bool) (k : Fin 8) (z : Bool)
  | vfeq (d : Fin 8) (a b : Fin 32) (x y : Bool) (k : Fin 8) (z : Bool)
  | vfne (d : Fin 8) (a b : Fin 32) (x y : Bool) (k : Fin 8) (z : Bool)
  | vflt (d : Fin 8) (a b : Fin 32) (x y : Bool) (k : Fin 8) (z : Bool)
  | vfle (d : Fin 8) (a b : Fin 32) (x y : Bool) (k : Fin 8) (z : Bool)
  | vfunord (d : Fin 8) (a b : Fin 32) (x y : Bool) (k : Fin 8) (z : Bool)
  | kand (d a b k : Fin 8)
  | kor (d a b k : Fin 8)
  | kxor (d a b k : Fin 8)
  | kandn (d a b k : Fin 8)
  | knot (d a k : Fin 8)
  | kmov (d a k : Fin 8)
  | kset (d k : Fin 8)
  | kclr (d k : Fin 8)
  | kpopc (d : Fin 32) (a k : Fin 8)
  | kfirst (d : Fin 32) (a k : Fin 8)
  | ksbf (d a k : Fin 8)
  | ksif (d a k : Fin 8)
  | ksof (d a k : Fin 8)
  | pushm (k : Fin 8)
  | elsem (k : Fin 8)
  | popm
  | kbreak (k : Fin 8)
  | region (k : Fin 8) (o : BitVec 16)
  | vgather (d a b : Fin 32) (x y : Bool) (k : Fin 8)
  | vslideup (d a b : Fin 32) (x : Bool) (k : Fin 8)
  | vslidedn (d a b : Fin 32) (x : Bool) (k : Fin 8)
  | vslide1up (d a b : Fin 32) (x : Bool) (k : Fin 8)
  | vslide1dn (d a b : Fin 32) (x : Bool) (k : Fin 8)
  | vcompress (d a : Fin 32) (x : Bool) (k : Fin 8)
  | vexpand (d a : Fin 32) (x : Bool) (k : Fin 8)
  | viota (d : Fin 32) (k : Fin 8)
  | vbcast (d a b : Fin 32) (x : Bool) (k : Fin 8)
  | vext (d a b : Fin 32) (x : Bool)
  | vins (d a b : Fin 32) (k : Fin 8)
  | vconflict (d a : Fin 32) (x : Bool) (k : Fin 8)
  | vredSum (d a b : Fin 32) (x y : Bool) (k : Fin 8)
  | vredMin (d a b : Fin 32) (x y : Bool) (k : Fin 8)
  | vredMax (d a b : Fin 32) (x y : Bool) (k : Fin 8)
  | vredMinu (d a b : Fin 32) (x y : Bool) (k : Fin 8)
  | vredMaxu (d a b : Fin 32) (x y : Bool) (k : Fin 8)
  | vredAnd (d a b : Fin 32) (x y : Bool) (k : Fin 8)
  | vredOr (d a b : Fin 32) (x y : Bool) (k : Fin 8)
  | vredXor (d a b : Fin 32) (x y : Bool) (k : Fin 8)
  | vredFsum (d a b : Fin 32) (x y : Bool) (k : Fin 8)
  | vredFmin (d a b : Fin 32) (x y : Bool) (k : Fin 8)
  | vredFmax (d a b : Fin 32) (x y : Bool) (k : Fin 8)
  | vscanSum (d a : Fin 32) (x : Bool) (k : Fin 8)
  | vscanFsum (d a : Fin 32) (x : Bool) (k : Fin 8)
  | vcvt (d a : Fin 32) (x : Bool) (k : Fin 8) (u : Bool) (t : Fin 16)
  | vldUnit (d a : Fin 32) (k : Fin 8) (p : Policy) (w : Fin 4)
  | vldStrided (d a b : Fin 32) (k : Fin 8) (p : Policy) (w : Fin 4)
  | vldIndexed (d a b : Fin 32) (y : Bool) (k : Fin 8) (p : Policy) (w : Fin 4)
  | vldSegment (d a f : Fin 32) (k : Fin 8) (p : Policy) (w : Fin 4)
  | vstUnit (d a : Fin 32) (k : Fin 8) (p : Policy) (w : Fin 4)
  | vstStrided (d a b : Fin 32) (k : Fin 8) (p : Policy) (w : Fin 4)
  | vstIndexed (d a b : Fin 32) (y : Bool) (k : Fin 8) (p : Policy) (w : Fin 4)
  | vstSegment (d a f : Fin 32) (k : Fin 8) (p : Policy) (w : Fin 4)
  | vldff (d a : Fin 32) (k : Fin 8) (p : Policy) (w : Fin 4)
  | vldw (d a : Fin 32) (p : Policy)
  | vstw (d a : Fin 32) (p : Policy)
  | vldslide (d a b : Fin 32) (k : Fin 8) (p : Policy) (w : Fin 4)
  | vamoswap (d a b : Fin 32) (y : Bool) (k : Fin 8)
  | vamoadd (d a b : Fin 32) (y : Bool) (k : Fin 8)
  | vamoand (d a b : Fin 32) (y : Bool) (k : Fin 8)
  | vamoor (d a b : Fin 32) (y : Bool) (k : Fin 8)
  | vamoxor (d a b : Fin 32) (y : Bool) (k : Fin 8)
  | vamomin (d a b : Fin 32) (y : Bool) (k : Fin 8)
  | vamomax (d a b : Fin 32) (y : Bool) (k : Fin 8)
  | vamominu (d a b : Fin 32) (y : Bool) (k : Fin 8)
  | vamomaxu (d a b : Fin 32) (y : Bool) (k : Fin 8)
  | vamocas (d a b : Fin 32) (y : Bool) (k : Fin 8)
  | yattach (a : Fin 32)
  | ydetach
  | yzero (a : Fin 32)
  | yldb (a b : Fin 32)
  | ymma (a b : Fin 32)
  | yrot
  | ydrain (d a : Fin 32) (t : Fin 16)
  | ywait
  | sbind (d a : Fin 32) (s : Fin 8)
  | sunbind (s : Fin 8)
  | scopy (d a : Fin 32)
  | savail (d : Fin 32) (s : Fin 8)
  | xall (d a : Fin 32)
  | xred (d a : Fin 32)
  | tex (d a b : Fin 32) (x : Bool) (k : Fin 8)
  | span (d : Fin 32)
  | blend (d a b : Fin 32) (x : Bool) (k : Fin 8)
  | hizq (d : Fin 8) (a b : Fin 32) (x : Bool) (k : Fin 8)
  | gbox (d a b : Fin 32) (x y : Bool) (k : Fin 8)
  | gtri (d a b : Fin 32) (x y : Bool) (k : Fin 8)
  | gwalk (d a b : Fin 32) (x : Bool) (k : Fin 8)
  | ghit (d a b : Fin 32) (x : Bool) (k : Fin 8)
  | vmarch (d a b : Fin 32) (x : Bool) (k : Fin 8)
  | vrand (d a b : Fin 32) (x : Bool) (k : Fin 8)
  | vectorStart (h : Nat)
  | loadDataReturn (h : Nat)
  | wfiWake (h : Nat)
  | interrupt (h : Nat)
  | faultRecordWrite
  | frespReplay (token : Nat)
  | frespToSupervisor (token : Nat)
  | frespEndLaunch (token : Nat)
  | faultServiceTimeout (token : Nat)
  | watchdogExpire (h : Nat)
  | homeSelfFill (core addr : Nat)
  | homeTrkLoad (core addr : Nat)
  | homeOwnership (core addr : Nat)
  | homeThruLoad (core : Option Nat) (addr : Nat)
  | homeTrkStore (core addr : Nat) (mask : BitVec 8) (data : Word)
  | homeThruStore (core : Option Nat) (addr : Nat) (mask : BitVec 8) (data : Word)
  | homeDrain (core addr : Nat)
  | homeFarOperation (core addr : Nat) (op : Fin 10) (wide : Bool) (b cmp : Word)
  | homeWritebackCwb (core addr : Nat)
  | homeEvictNotice (core addr : Nat)
  | homeWritebackEvict (core addr : Nat)
  | homeAcknowledgement (core addr : Nat)
  | l1Invalidation (core addr : Nat)
  | l1Update (core addr : Nat)
  | l1Recall (core addr : Nat)
  | l1Fetch (core addr : Nat)
  | coreAckReceive (core addr : Nat)
  | selfDrainTimeout (core addr : Nat)
  | migrationEntryUpdate (gran die : Nat)
  | migrationForwardComplete (gran : Nat)
  | epochRollover
  | pageRetire (addr : Nat)
  | pageWalk (h : Nat) (va : Word)
  | pteMovingReread (h : Nat)
  | fenceEntryWrite (n : Nat) (reg : Fin 3) (v : Word)
  | mlanemapWrite (n : Nat) (v : Word)
  | laneMapTakeup (core : Nat)
  | mhbeatWrite (n : Nat) (v : Word)
  | mantleSilentReport (n : Nat)
  | fwquiQuiesce
  | fwquiResume
  | mantlePacketBoundaryStop (n : Nat)
  | fwcmdInstall
  | installComplete
  | fwcmdMeasure
  | measureComplete
  | fwcmdSwitch
  | fwcmdIgnored (v : Word)
  | fwstatOoClear
  | heartbeatWindowExpire
  | qnotify (q : Nat) (v : Word)
  | qctlEnable (q : Nat) (v : Word)
  | qctlDisable (q : Nat) (v : Word)
  | launch (q ctxid part : Nat)
  | launchComplete (l : Nat)
  | wait (q : Nat)
  | waitComplete (q : Nat)
  | signal (q : Nat)
  | draw (q ctxid part : Nat)
  | drawComplete (l : Nat)
  | debugHalt (q : Nat)
  | debugInspect (q : Nat)
  | debugResume (q : Nat)
  | traceOn (q : Nat)
  | traceOff (q : Nat)
  | sample (q : Nat)
  | stripBreakpoint (q : Nat)
  | clearBreakpoint (q : Nat)
  | debugStripStop (h : Nat)
  | debugHaltTimeout (h : Nat)
  | traceSampleTick (h : Nat)
  | schedulerTick
  | mantleDecision
  | levelAging (l : Nat)
  | contextSave (l : Nat)
  | watermarkStallEnd (h : Nat)
  | streamPrefetch (h slot : Nat)
  | scopyComplete (h i : Nat)
  | sunbindWriteComplete (h slot : Nat)
  | xallArrivalAdd (h i j : Nat)
  | xallComplete (h i : Nat)
  | xredChunkArrive (h i k : Nat)
  | xredChunkResend (h i k : Nat)
  | xredBusyTimeout (h i : Nat)
  | xredComplete (h i : Nat)
  | yokeRendezvous (quad : Nat)
  | latchSwap (quad : Nat)
  | yokeOpComplete (h : Nat)
  | meshletDispatch (l : Nat)
  | sashNotify (h cluster : Nat)
  | sashSetup (cluster : Nat)
  | spanEmit (cluster : Nat)
  | hemRelease (l px py : Nat)
  | hemTileLoad (l tx ty : Nat)
  | hemTileEvict (l tx ty : Nat)
  | hostCxlMemRead (addr n : Nat)
  | hostCxlMemWrite (addr : Nat) (data : List Byte)
  | hostSnoop (addr : Nat)
  | flitReceive (p : Nat) (flit : BitVec 2048)
  | flitNak (p seq : Nat)
  | portDown (p : Nat)
  | portRetrainComplete (p : Nat)
  | routeDownTimeout (m : Nat)
  | peerRequestArrival (p part : Nat) (kind : Fin 4) (addr : Nat) (mask : BitVec 8) (data cmp : Word) (op : Fin 10)
  | packageReset
  | d3hotEntry
  | d3hotExit
  | throttleRaiseTick (die : Nat)
  | throttleLowerTick (die : Nat)
  | overcurrentThrottle
  | thermalShutdown
  | setPowerCap (watts : Nat) (digest : BitVec 384)
  | raiseSvnRevoke (svn revoke : Nat)
  | getVersion
  | getCapabilities
  | negotiateAlgorithms
  | getDigests
  | getCertificate (off len : Nat)
  | challenge (nonce : Nat)
  | getMeasurements
  | spdmVendorSignature (nonce : Nat)
  | pldmSensorRead (sensor : Nat)
  | registerWrite (reg : Nat) (v : Word)
  | powerLoss
  | configurationRequest
  | cxlCacheResponse (addr : Nat) (data : List Byte)
  | elementGroupComplete (h : Nat)
  | streamDataArrival (h slot : Nat)
  | hostPageMigration (src dst : Nat)
  | bitError (store core addr : Nat) (double : Bool)
  deriving DecidableEq, Repr

end Sys2Proof
end

