-- ==== Sys2Proof/WellFormed.lean ====
section
/-! DEFINITION. The static conditions of R22, R27, R29, R30, R31, R33 that the fields of a word must meet
beyond the fixed bits of its row. Conditions that depend on vcfg, the mode or the hart are checked where the
instruction executes (R35). -/

namespace Sys2Proof

/-- The fields of the instruction hold values that its entry allows. -/
def Instr.WellFormed : Instr → Prop
  | .add _ _ _ _ => True
  | .sub _ _ _ _ => True
  | .and _ _ _ => True
  | .or _ _ _ => True
  | .xor _ _ _ => True
  | .andn _ _ _ => True
  | .sll _ _ _ _ => True
  | .srl _ _ _ _ => True
  | .sra _ _ _ _ => True
  | .slt _ _ _ => True
  | .sltu _ _ _ => True
  | .min _ _ _ => True
  | .max _ _ _ => True
  | .minu _ _ _ => True
  | .maxu _ _ _ => True
  | .mul _ _ _ _ => True
  | .mulh _ _ _ => True
  | .mulhu _ _ _ => True
  | .div _ _ _ _ => True
  | .divu _ _ _ _ => True
  | .rem _ _ _ _ => True
  | .remu _ _ _ _ => True
  | .clz _ _ => True
  | .ctz _ _ => True
  | .popc _ _ => True
  | .addi _ _ _ => True
  | .andi _ _ _ => True
  | .ori _ _ _ => True
  | .xori _ _ _ => True
  | .slti _ _ _ => True
  | .sltiu _ _ _ => True
  | .slli _ _ w s => w = false ∨ s.val < 32
  | .srli _ _ w s => w = false ∨ s.val < 32
  | .srai _ _ w s => w = false ∨ s.val < 32
  | .rori _ _ w s => w = false ∨ s.val < 32
  | .lui _ _ => True
  | .addpc _ _ => True
  | .jal _ _ => True
  | .jalr _ _ _ => True
  | .beq _ _ _ => True
  | .bne _ _ _ => True
  | .blt _ _ _ => True
  | .bge _ _ _ => True
  | .bltu _ _ _ => True
  | .bgeu _ _ _ => True
  | .lb _ _ _ _ => True
  | .lbu _ _ _ _ => True
  | .lh _ _ _ _ => True
  | .lhu _ _ _ _ => True
  | .lw _ _ _ _ => True
  | .lwu _ _ _ _ => True
  | .ld _ _ _ _ => True
  | .sb _ _ _ _ => True
  | .sh _ _ _ _ => True
  | .sw _ _ _ _ => True
  | .sd _ _ _ _ => True
  | .amoswap _ _ _ s _ _ _ _ => s.val < 3
  | .amoadd _ _ _ s _ _ _ _ => s.val < 3
  | .amoand _ _ _ s _ _ _ _ => s.val < 3
  | .amoor _ _ _ s _ _ _ _ => s.val < 3
  | .amoxor _ _ _ s _ _ _ _ => s.val < 3
  | .amomin _ _ _ s _ _ _ _ => s.val < 3
  | .amomax _ _ _ s _ _ _ _ => s.val < 3
  | .amominu _ _ _ s _ _ _ _ => s.val < 3
  | .amomaxu _ _ _ s _ _ _ _ => s.val < 3
  | .amocas _ _ _ s _ _ _ _ => s.val < 3
  | .fence _ _ _ _ => True
  | .cinv _ _ => True
  | .cinvI _ _ => True
  | .cwb _ _ => True
  | .czero _ _ => True
  | .pref _ p _ _ => p ≠ .thru
  | .csrr _ _ => True
  | .csrw _ _ _ => True
  | .csrs _ _ _ => True
  | .csrc _ _ _ => True
  | .csrwi _ _ _ => True
  | .csrsi _ _ _ => True
  | .csrci _ _ _ => True
  | .ecall => True
  | .ebreak => True
  | .tret => True
  | .wfi => True
  | .sfence _ _ => True
  | .yield => True
  | .halt => True
  | .thaw _ => True
  | .ipop d b => d ≠ b ∨ (d.val = 0 ∧ b.val = 0)
  | .ipopnb d b => d ≠ b ∨ (d.val = 0 ∧ b.val = 0)
  | .wmbind _ _ => True
  | .wmpub _ _ => True
  | .wmread _ _ => True
  | .pfx v _ p _ => v = true → p.val < 8
  | .vsetl _ _ _ _ => True
  | .vadd _ _ _ _ _ _ => True
  | .vsub _ _ _ _ _ _ => True
  | .vand _ _ _ _ _ _ => True
  | .vor _ _ _ _ _ _ => True
  | .vxor _ _ _ _ _ _ => True
  | .vandn _ _ _ _ _ _ => True
  | .vsll _ _ _ _ _ _ => True
  | .vsrl _ _ _ _ _ _ => True
  | .vsra _ _ _ _ _ _ => True
  | .vmin _ _ _ _ _ _ => True
  | .vmax _ _ _ _ _ _ => True
  | .vminu _ _ _ _ _ _ => True
  | .vmaxu _ _ _ _ _ _ => True
  | .vmul _ _ _ _ _ _ => True
  | .vmulh _ _ _ _ _ _ => True
  | .vmulhu _ _ _ _ _ _ => True
  | .vdiv _ _ _ _ _ _ => True
  | .vdivu _ _ _ _ _ _ => True
  | .vrem _ _ _ _ _ _ => True
  | .vremu _ _ _ _ _ _ => True
  | .vmacc _ _ _ _ _ _ => True
  | .vsadd _ _ _ _ _ _ => True
  | .vsaddu _ _ _ _ _ _ => True
  | .vssub _ _ _ _ _ _ => True
  | .vssubu _ _ _ _ _ _ => True
  | .vabsd _ _ _ _ _ _ => True
  | .vclz _ _ _ _ => True
  | .vctz _ _ _ _ => True
  | .vpopc _ _ _ _ => True
  | .vmv _ _ _ _ => True
  | .vaddX _ _ _ _ _ => True
  | .vsubX _ _ _ _ _ => True
  | .vandX _ _ _ _ _ => True
  | .vorX _ _ _ _ _ => True
  | .vxorX _ _ _ _ _ => True
  | .vandnX _ _ _ _ _ => True
  | .vsllX _ _ _ _ _ => True
  | .vsrlX _ _ _ _ _ => True
  | .vsraX _ _ _ _ _ => True
  | .vminX _ _ _ _ _ => True
  | .vmaxX _ _ _ _ _ => True
  | .vminuX _ _ _ _ _ => True
  | .vmaxuX _ _ _ _ _ => True
  | .vmulX _ _ _ _ _ => True
  | .vmulhX _ _ _ _ _ => True
  | .vmulhuX _ _ _ _ _ => True
  | .vdivX _ _ _ _ _ => True
  | .vdivuX _ _ _ _ _ => True
  | .vremX _ _ _ _ _ => True
  | .vremuX _ _ _ _ _ => True
  | .vmaccX _ _ _ _ _ => True
  | .vsaddX _ _ _ _ _ => True
  | .vsadduX _ _ _ _ _ => True
  | .vssubX _ _ _ _ _ => True
  | .vssubuX _ _ _ _ _ => True
  | .vabsdX _ _ _ _ _ => True
  | .vmvX _ _ _ => True
  | .vfadd _ _ _ _ _ _ => True
  | .vfsub _ _ _ _ _ _ => True
  | .vfmul _ _ _ _ _ _ => True
  | .vfdiv _ _ _ _ _ _ => True
  | .vfmin _ _ _ _ _ _ => True
  | .vfmax _ _ _ _ _ _ => True
  | .vfmadd _ _ _ _ _ _ => True
  | .vfmsub _ _ _ _ _ _ => True
  | .vfnmadd _ _ _ _ _ _ => True
  | .vfnmsub _ _ _ _ _ _ => True
  | .vfsgnj _ _ _ _ _ _ => True
  | .vfsgnjn _ _ _ _ _ _ => True
  | .vfsqrt _ _ _ _ => True
  | .vfrcp _ _ _ _ => True
  | .vfrsq _ _ _ _ => True
  | .vfexp2 _ _ _ _ => True
  | .vflog2 _ _ _ _ => True
  | .vfsin _ _ _ _ => True
  | .vfcos _ _ _ _ => True
  | .vfabs _ _ _ _ => True
  | .vfneg _ _ _ _ => True
  | .vfclass _ _ _ _ => True
  | .vfaddX _ _ _ _ _ => True
  | .vfsubX _ _ _ _ _ => True
  | .vfmulX _ _ _ _ _ => True
  | .vfdivX _ _ _ _ _ => True
  | .vfminX _ _ _ _ _ => True
  | .vfmaxX _ _ _ _ _ => True
  | .vfmaddX _ _ _ _ _ => True
  | .vfmsubX _ _ _ _ _ => True
  | .vfnmaddX _ _ _ _ _ => True
  | .vfnmsubX _ _ _ _ _ => True
  | .vfsgnjX _ _ _ _ _ => True
  | .vfsgnjnX _ _ _ _ _ => True
  | .vseq d _ _ _ y _ z => d.val ≠ 0 ∧ (z = true → y = false)
  | .vsne d _ _ _ y _ z => d.val ≠ 0 ∧ (z = true → y = false)
  | .vslt d _ _ _ y _ z => d.val ≠ 0 ∧ (z = true → y = false)
  | .vsltu d _ _ _ y _ z => d.val ≠ 0 ∧ (z = true → y = false)
  | .vsle d _ _ _ y _ z => d.val ≠ 0 ∧ (z = true → y = false)
  | .vsleu d _ _ _ y _ z => d.val ≠ 0 ∧ (z = true → y = false)
  | .vsgt d _ _ _ y _ z => d.val ≠ 0 ∧ (z = true → y = false)
  | .vsgtu d _ _ _ y _ z => d.val ≠ 0 ∧ (z = true → y = false)
  | .vfeq d _ _ _ y _ z => d.val ≠ 0 ∧ (z = true → y = false)
  | .vfne d _ _ _ y _ z => d.val ≠ 0 ∧ (z = true → y = false)
  | .vflt d _ _ _ y _ z => d.val ≠ 0 ∧ (z = true → y = false)
  | .vfle d _ _ _ y _ z => d.val ≠ 0 ∧ (z = true → y = false)
  | .vfunord d _ _ _ y _ z => d.val ≠ 0 ∧ (z = true → y = false)
  | .kand d _ _ _ => d.val ≠ 0
  | .kor d _ _ _ => d.val ≠ 0
  | .kxor d _ _ _ => d.val ≠ 0
  | .kandn d _ _ _ => d.val ≠ 0
  | .knot d _ _ => d.val ≠ 0
  | .kmov d _ _ => d.val ≠ 0
  | .kset d _ => d.val ≠ 0
  | .kclr d _ => d.val ≠ 0
  | .kpopc _ _ _ => True
  | .kfirst _ _ _ => True
  | .ksbf d _ _ => d.val ≠ 0
  | .ksif d _ _ => d.val ≠ 0
  | .ksof d _ _ => d.val ≠ 0
  | .pushm _ => True
  | .elsem _ => True
  | .popm => True
  | .kbreak _ => True
  | .region _ o => o.toNat ≠ 0
  | .vgather _ _ _ _ _ _ => True
  | .vslideup _ _ _ _ _ => True
  | .vslidedn _ _ _ _ _ => True
  | .vslide1up _ _ _ _ _ => True
  | .vslide1dn _ _ _ _ _ => True
  | .vcompress _ _ _ _ => True
  | .vexpand _ _ _ _ => True
  | .viota _ _ => True
  | .vbcast _ _ _ _ _ => True
  | .vext _ _ _ _ => True
  | .vins _ _ _ _ => True
  | .vconflict _ _ _ _ => True
  | .vredSum _ _ _ _ _ _ => True
  | .vredMin _ _ _ _ _ _ => True
  | .vredMax _ _ _ _ _ _ => True
  | .vredMinu _ _ _ _ _ _ => True
  | .vredMaxu _ _ _ _ _ _ => True
  | .vredAnd _ _ _ _ _ _ => True
  | .vredOr _ _ _ _ _ _ => True
  | .vredXor _ _ _ _ _ _ => True
  | .vredFsum _ _ _ _ _ _ => True
  | .vredFmin _ _ _ _ _ _ => True
  | .vredFmax _ _ _ _ _ _ => True
  | .vscanSum _ _ _ _ => True
  | .vscanFsum _ _ _ _ => True
  | .vcvt _ _ _ _ _ t => t.val < 14
  | .vldUnit _ _ _ _ _ => True
  | .vldStrided _ _ _ _ _ _ => True
  | .vldIndexed _ _ _ _ _ _ _ => True
  | .vldSegment _ _ f _ _ _ => 1 ≤ f.val ∧ f.val ≤ 7
  | .vstUnit _ _ _ _ _ => True
  | .vstStrided _ _ _ _ _ _ => True
  | .vstIndexed _ _ _ _ _ _ _ => True
  | .vstSegment _ _ f _ _ _ => 1 ≤ f.val ∧ f.val ≤ 7
  | .vldff _ _ _ _ _ => True
  | .vldw _ _ _ => True
  | .vstw _ _ _ => True
  | .vldslide _ _ _ _ _ _ => True
  | .vamoswap _ _ _ _ _ => True
  | .vamoadd _ _ _ _ _ => True
  | .vamoand _ _ _ _ _ => True
  | .vamoor _ _ _ _ _ => True
  | .vamoxor _ _ _ _ _ => True
  | .vamomin _ _ _ _ _ => True
  | .vamomax _ _ _ _ _ => True
  | .vamominu _ _ _ _ _ => True
  | .vamomaxu _ _ _ _ _ => True
  | .vamocas _ _ _ _ _ => True
  | .yattach _ => True
  | .ydetach => True
  | .yzero _ => True
  | .yldb _ _ => True
  | .ymma _ _ => True
  | .yrot => True
  | .ydrain _ _ t => t.val < 10
  | .ywait => True
  | .sbind _ _ _ => True
  | .sunbind _ => True
  | .scopy _ _ => True
  | .savail _ _ => True
  | .xall _ _ => True
  | .xred _ _ => True
  | .tex _ _ _ _ _ => True
  | .span _ => True
  | .blend _ _ _ _ _ => True
  | .hizq d _ _ _ _ => d.val ≠ 0
  | .gbox _ _ _ _ _ _ => True
  | .gtri _ _ _ _ _ _ => True
  | .gwalk _ _ _ _ _ => True
  | .ghit _ _ _ _ _ => True
  | .vmarch _ _ _ _ _ => True
  | .vrand _ _ _ _ _ => True
  | .vectorStart _ => True
  | .loadDataReturn _ => True
  | .wfiWake _ => True
  | .interrupt _ => True
  | .faultRecordWrite => True
  | .frespReplay _ => True
  | .frespToSupervisor _ => True
  | .frespEndLaunch _ => True
  | .faultServiceTimeout _ => True
  | .watchdogExpire _ => True
  | .homeSelfFill _ _ => True
  | .homeTrkLoad _ _ => True
  | .homeOwnership _ _ => True
  | .homeThruLoad _ _ => True
  | .homeTrkStore _ _ _ _ => True
  | .homeThruStore _ _ _ _ => True
  | .homeDrain _ _ => True
  | .homeFarOperation _ _ _ _ _ _ => True
  | .homeWritebackCwb _ _ => True
  | .homeEvictNotice _ _ => True
  | .homeWritebackEvict _ _ => True
  | .homeAcknowledgement _ _ => True
  | .l1Invalidation _ _ => True
  | .l1Update _ _ => True
  | .l1Recall _ _ => True
  | .l1Fetch _ _ => True
  | .coreAckReceive _ _ => True
  | .selfDrainTimeout _ _ => True
  | .migrationEntryUpdate _ _ => True
  | .migrationForwardComplete _ => True
  | .epochRollover => True
  | .pageRetire _ => True
  | .pageWalk _ _ => True
  | .pteMovingReread _ => True
  | .fenceEntryWrite _ _ _ => True
  | .mlanemapWrite _ _ => True
  | .laneMapTakeup _ => True
  | .mhbeatWrite _ _ => True
  | .mantleSilentReport _ => True
  | .fwquiQuiesce => True
  | .fwquiResume => True
  | .mantlePacketBoundaryStop _ => True
  | .fwcmdInstall => True
  | .installComplete => True
  | .fwcmdMeasure => True
  | .measureComplete => True
  | .fwcmdSwitch => True
  | .fwcmdIgnored _ => True
  | .fwstatOoClear => True
  | .heartbeatWindowExpire => True
  | .qnotify _ _ => True
  | .qctlEnable _ _ => True
  | .qctlDisable _ _ => True
  | .launch _ _ _ => True
  | .launchComplete _ => True
  | .wait _ => True
  | .waitComplete _ => True
  | .signal _ => True
  | .draw _ _ _ => True
  | .drawComplete _ => True
  | .debugHalt _ => True
  | .debugInspect _ => True
  | .debugResume _ => True
  | .traceOn _ => True
  | .traceOff _ => True
  | .sample _ => True
  | .stripBreakpoint _ => True
  | .clearBreakpoint _ => True
  | .debugStripStop _ => True
  | .debugHaltTimeout _ => True
  | .traceSampleTick _ => True
  | .schedulerTick => True
  | .mantleDecision => True
  | .levelAging _ => True
  | .contextSave _ => True
  | .watermarkStallEnd _ => True
  | .streamPrefetch _ _ => True
  | .scopyComplete _ _ => True
  | .sunbindWriteComplete _ _ => True
  | .xallArrivalAdd _ _ _ => True
  | .xallComplete _ _ => True
  | .xredChunkArrive _ _ _ => True
  | .xredChunkResend _ _ _ => True
  | .xredBusyTimeout _ _ => True
  | .xredComplete _ _ => True
  | .yokeRendezvous _ => True
  | .latchSwap _ => True
  | .yokeOpComplete _ => True
  | .meshletDispatch _ => True
  | .sashNotify _ _ => True
  | .sashSetup _ => True
  | .spanEmit _ => True
  | .hemRelease _ _ _ => True
  | .hemTileLoad _ _ _ => True
  | .hemTileEvict _ _ _ => True
  | .hostCxlMemRead _ _ => True
  | .hostCxlMemWrite _ _ => True
  | .hostSnoop _ => True
  | .flitReceive _ _ => True
  | .flitNak _ _ => True
  | .portDown _ => True
  | .portRetrainComplete _ => True
  | .routeDownTimeout _ => True
  | .peerRequestArrival _ _ _ _ _ _ _ _ => True
  | .packageReset => True
  | .d3hotEntry => True
  | .d3hotExit => True
  | .throttleRaiseTick _ => True
  | .throttleLowerTick _ => True
  | .overcurrentThrottle => True
  | .thermalShutdown => True
  | .setPowerCap _ _ => True
  | .raiseSvnRevoke _ _ => True
  | .getVersion => True
  | .getCapabilities => True
  | .negotiateAlgorithms => True
  | .getDigests => True
  | .getCertificate _ _ => True
  | .challenge _ => True
  | .getMeasurements => True
  | .spdmVendorSignature _ => True
  | .pldmSensorRead _ => True
  | .registerWrite _ _ => True
  | .powerLoss => True
  | .configurationRequest => True
  | .cxlCacheResponse _ _ => True
  | .elementGroupComplete _ => True
  | .streamDataArrival _ _ => True
  | .hostPageMigration _ _ => True
  | .bitError _ _ _ _ => True

/-- `Instr.WellFormed` as a check that runs. -/
def Instr.wf (i : Instr) : Bool :=
  match i with
  | .slli _ _ w s => decide (w = false ∨ s.val < 32)
  | .srli _ _ w s => decide (w = false ∨ s.val < 32)
  | .srai _ _ w s => decide (w = false ∨ s.val < 32)
  | .rori _ _ w s => decide (w = false ∨ s.val < 32)
  | .amoswap _ _ _ s _ _ _ _ => decide (s.val < 3)
  | .amoadd _ _ _ s _ _ _ _ => decide (s.val < 3)
  | .amoand _ _ _ s _ _ _ _ => decide (s.val < 3)
  | .amoor _ _ _ s _ _ _ _ => decide (s.val < 3)
  | .amoxor _ _ _ s _ _ _ _ => decide (s.val < 3)
  | .amomin _ _ _ s _ _ _ _ => decide (s.val < 3)
  | .amomax _ _ _ s _ _ _ _ => decide (s.val < 3)
  | .amominu _ _ _ s _ _ _ _ => decide (s.val < 3)
  | .amomaxu _ _ _ s _ _ _ _ => decide (s.val < 3)
  | .amocas _ _ _ s _ _ _ _ => decide (s.val < 3)
  | .pref _ p _ _ => decide (p ≠ .thru)
  | .ipop d b => decide (d ≠ b ∨ (d.val = 0 ∧ b.val = 0))
  | .ipopnb d b => decide (d ≠ b ∨ (d.val = 0 ∧ b.val = 0))
  | .pfx v _ p _ => decide (v = true → p.val < 8)
  | .vseq d _ _ _ y _ z => decide (d.val ≠ 0 ∧ (z = true → y = false))
  | .vsne d _ _ _ y _ z => decide (d.val ≠ 0 ∧ (z = true → y = false))
  | .vslt d _ _ _ y _ z => decide (d.val ≠ 0 ∧ (z = true → y = false))
  | .vsltu d _ _ _ y _ z => decide (d.val ≠ 0 ∧ (z = true → y = false))
  | .vsle d _ _ _ y _ z => decide (d.val ≠ 0 ∧ (z = true → y = false))
  | .vsleu d _ _ _ y _ z => decide (d.val ≠ 0 ∧ (z = true → y = false))
  | .vsgt d _ _ _ y _ z => decide (d.val ≠ 0 ∧ (z = true → y = false))
  | .vsgtu d _ _ _ y _ z => decide (d.val ≠ 0 ∧ (z = true → y = false))
  | .vfeq d _ _ _ y _ z => decide (d.val ≠ 0 ∧ (z = true → y = false))
  | .vfne d _ _ _ y _ z => decide (d.val ≠ 0 ∧ (z = true → y = false))
  | .vflt d _ _ _ y _ z => decide (d.val ≠ 0 ∧ (z = true → y = false))
  | .vfle d _ _ _ y _ z => decide (d.val ≠ 0 ∧ (z = true → y = false))
  | .vfunord d _ _ _ y _ z => decide (d.val ≠ 0 ∧ (z = true → y = false))
  | .kand d _ _ _ => decide (d.val ≠ 0)
  | .kor d _ _ _ => decide (d.val ≠ 0)
  | .kxor d _ _ _ => decide (d.val ≠ 0)
  | .kandn d _ _ _ => decide (d.val ≠ 0)
  | .knot d _ _ => decide (d.val ≠ 0)
  | .kmov d _ _ => decide (d.val ≠ 0)
  | .kset d _ => decide (d.val ≠ 0)
  | .kclr d _ => decide (d.val ≠ 0)
  | .ksbf d _ _ => decide (d.val ≠ 0)
  | .ksif d _ _ => decide (d.val ≠ 0)
  | .ksof d _ _ => decide (d.val ≠ 0)
  | .region _ o => decide (o.toNat ≠ 0)
  | .vcvt _ _ _ _ _ t => decide (t.val < 14)
  | .vldSegment _ _ f _ _ _ => decide (1 ≤ f.val ∧ f.val ≤ 7)
  | .vstSegment _ _ f _ _ _ => decide (1 ≤ f.val ∧ f.val ≤ 7)
  | .ydrain _ _ t => decide (t.val < 10)
  | .hizq d _ _ _ _ => decide (d.val ≠ 0)
  | _ => true

end Sys2Proof
end

