-- ==== Sys2Proof/Decode.lean ====
section
/-! DEFINITION. The decoder of R28 to R32 (total; what it refuses, it refuses by name) and the encoder from
the same tables. Words are natural numbers below 2^32; fields are cut out by division, so that both
directions are plain arithmetic. The compiler cannot build a constructor whose number is above 244, so what builds an `Instr`
is for the kernel to evaluate: hence the noncomputable section. -/

namespace Sys2Proof

noncomputable section

/-- Bits lo + n - 1 down to lo of a word. -/
def fld (w lo n : Nat) : Nat := w / 2 ^ lo % 2 ^ n

/-- Bit lo of a word. -/
def bit (w lo : Nat) : Bool := fld w lo 1 == 1

/-- The policy code of R25. -/
def Policy.code : Policy → Nat
  | .self => 0 | .trk => 1 | .own => 2 | .thru => 3

def Policy.ofCode : Nat → Policy
  | 0 => .self | 1 => .trk | 2 => .own | _ => .thru

/-- The FENCE scope code of R27. -/
def Scope.code : Scope → Nat
  | .hart => 0 | .core => 1 | .dev => 2 | .sys => 3

def Scope.ofCode : Nat → Scope
  | 0 => .hart | 1 => .core | 2 => .dev | _ => .sys

/-- The FENCE direction code of R67. -/
def Dir.code : Dir → Nat
  | .sv => 0 | .vs => 1 | .vv => 2 | .all => 3

def Dir.ofCode : Nat → Dir
  | 0 => .sv | 1 => .vs | 2 => .vv | _ => .all

/-- Words of OP 0x01 (R28, R30). -/
def decodeOp01 (w : Nat) : Option Instr :=
  if fld w 0 6 = 0 ∧ fld w 7 4 = 0 then some (.add (Fin.ofNat 32 (fld w 21 5)) (Fin.ofNat 32 (fld w 16 5)) (Fin.ofNat 32 (fld w 11 5)) (bit w 6))
  else if fld w 0 6 = 1 ∧ fld w 7 4 = 0 then some (.sub (Fin.ofNat 32 (fld w 21 5)) (Fin.ofNat 32 (fld w 16 5)) (Fin.ofNat 32 (fld w 11 5)) (bit w 6))
  else if fld w 0 11 = 2 then some (.and (Fin.ofNat 32 (fld w 21 5)) (Fin.ofNat 32 (fld w 16 5)) (Fin.ofNat 32 (fld w 11 5)))
  else if fld w 0 11 = 3 then some (.or (Fin.ofNat 32 (fld w 21 5)) (Fin.ofNat 32 (fld w 16 5)) (Fin.ofNat 32 (fld w 11 5)))
  else if fld w 0 11 = 4 then some (.xor (Fin.ofNat 32 (fld w 21 5)) (Fin.ofNat 32 (fld w 16 5)) (Fin.ofNat 32 (fld w 11 5)))
  else if fld w 0 11 = 5 then some (.andn (Fin.ofNat 32 (fld w 21 5)) (Fin.ofNat 32 (fld w 16 5)) (Fin.ofNat 32 (fld w 11 5)))
  else if fld w 0 6 = 6 ∧ fld w 7 4 = 0 then some (.sll (Fin.ofNat 32 (fld w 21 5)) (Fin.ofNat 32 (fld w 16 5)) (Fin.ofNat 32 (fld w 11 5)) (bit w 6))
  else if fld w 0 6 = 7 ∧ fld w 7 4 = 0 then some (.srl (Fin.ofNat 32 (fld w 21 5)) (Fin.ofNat 32 (fld w 16 5)) (Fin.ofNat 32 (fld w 11 5)) (bit w 6))
  else if fld w 0 6 = 8 ∧ fld w 7 4 = 0 then some (.sra (Fin.ofNat 32 (fld w 21 5)) (Fin.ofNat 32 (fld w 16 5)) (Fin.ofNat 32 (fld w 11 5)) (bit w 6))
  else if fld w 0 11 = 9 then some (.slt (Fin.ofNat 32 (fld w 21 5)) (Fin.ofNat 32 (fld w 16 5)) (Fin.ofNat 32 (fld w 11 5)))
  else if fld w 0 11 = 10 then some (.sltu (Fin.ofNat 32 (fld w 21 5)) (Fin.ofNat 32 (fld w 16 5)) (Fin.ofNat 32 (fld w 11 5)))
  else if fld w 0 11 = 11 then some (.min (Fin.ofNat 32 (fld w 21 5)) (Fin.ofNat 32 (fld w 16 5)) (Fin.ofNat 32 (fld w 11 5)))
  else if fld w 0 11 = 12 then some (.max (Fin.ofNat 32 (fld w 21 5)) (Fin.ofNat 32 (fld w 16 5)) (Fin.ofNat 32 (fld w 11 5)))
  else if fld w 0 11 = 13 then some (.minu (Fin.ofNat 32 (fld w 21 5)) (Fin.ofNat 32 (fld w 16 5)) (Fin.ofNat 32 (fld w 11 5)))
  else if fld w 0 11 = 14 then some (.maxu (Fin.ofNat 32 (fld w 21 5)) (Fin.ofNat 32 (fld w 16 5)) (Fin.ofNat 32 (fld w 11 5)))
  else if fld w 0 6 = 15 ∧ fld w 7 4 = 0 then some (.mul (Fin.ofNat 32 (fld w 21 5)) (Fin.ofNat 32 (fld w 16 5)) (Fin.ofNat 32 (fld w 11 5)) (bit w 6))
  else if fld w 0 11 = 16 then some (.mulh (Fin.ofNat 32 (fld w 21 5)) (Fin.ofNat 32 (fld w 16 5)) (Fin.ofNat 32 (fld w 11 5)))
  else if fld w 0 11 = 17 then some (.mulhu (Fin.ofNat 32 (fld w 21 5)) (Fin.ofNat 32 (fld w 16 5)) (Fin.ofNat 32 (fld w 11 5)))
  else if fld w 0 6 = 18 ∧ fld w 7 4 = 0 then some (.div (Fin.ofNat 32 (fld w 21 5)) (Fin.ofNat 32 (fld w 16 5)) (Fin.ofNat 32 (fld w 11 5)) (bit w 6))
  else if fld w 0 6 = 19 ∧ fld w 7 4 = 0 then some (.divu (Fin.ofNat 32 (fld w 21 5)) (Fin.ofNat 32 (fld w 16 5)) (Fin.ofNat 32 (fld w 11 5)) (bit w 6))
  else if fld w 0 6 = 20 ∧ fld w 7 4 = 0 then some (.rem (Fin.ofNat 32 (fld w 21 5)) (Fin.ofNat 32 (fld w 16 5)) (Fin.ofNat 32 (fld w 11 5)) (bit w 6))
  else if fld w 0 6 = 21 ∧ fld w 7 4 = 0 then some (.remu (Fin.ofNat 32 (fld w 21 5)) (Fin.ofNat 32 (fld w 16 5)) (Fin.ofNat 32 (fld w 11 5)) (bit w 6))
  else if fld w 0 16 = 22 then some (.clz (Fin.ofNat 32 (fld w 21 5)) (Fin.ofNat 32 (fld w 16 5)))
  else if fld w 0 16 = 23 then some (.ctz (Fin.ofNat 32 (fld w 21 5)) (Fin.ofNat 32 (fld w 16 5)))
  else if fld w 0 16 = 24 then some (.popc (Fin.ofNat 32 (fld w 21 5)) (Fin.ofNat 32 (fld w 16 5)))
  else none

/-- Words of OP 0x02 (R28, R30). -/
def decodeOp02 (w : Nat) : Option Instr :=
  some (.addi (Fin.ofNat 32 (fld w 21 5)) (Fin.ofNat 32 (fld w 16 5)) (.ofNat 16 (fld w 0 16)))

/-- Words of OP 0x03 (R28, R30). -/
def decodeOp03 (w : Nat) : Option Instr :=
  some (.andi (Fin.ofNat 32 (fld w 21 5)) (Fin.ofNat 32 (fld w 16 5)) (.ofNat 16 (fld w 0 16)))

/-- Words of OP 0x04 (R28, R30). -/
def decodeOp04 (w : Nat) : Option Instr :=
  some (.ori (Fin.ofNat 32 (fld w 21 5)) (Fin.ofNat 32 (fld w 16 5)) (.ofNat 16 (fld w 0 16)))

/-- Words of OP 0x05 (R28, R30). -/
def decodeOp05 (w : Nat) : Option Instr :=
  some (.xori (Fin.ofNat 32 (fld w 21 5)) (Fin.ofNat 32 (fld w 16 5)) (.ofNat 16 (fld w 0 16)))

/-- Words of OP 0x06 (R28, R30). -/
def decodeOp06 (w : Nat) : Option Instr :=
  some (.slti (Fin.ofNat 32 (fld w 21 5)) (Fin.ofNat 32 (fld w 16 5)) (.ofNat 16 (fld w 0 16)))

/-- Words of OP 0x07 (R28, R30). -/
def decodeOp07 (w : Nat) : Option Instr :=
  some (.sltiu (Fin.ofNat 32 (fld w 21 5)) (Fin.ofNat 32 (fld w 16 5)) (.ofNat 16 (fld w 0 16)))

/-- Words of OP 0x08 (R28, R30). -/
def decodeOp08 (w : Nat) : Option Instr :=
  if fld w 7 9 = 0 then some (.slli (Fin.ofNat 32 (fld w 21 5)) (Fin.ofNat 32 (fld w 16 5)) (bit w 6) (Fin.ofNat 64 (fld w 0 6)))
  else if fld w 7 9 = 128 then some (.srli (Fin.ofNat 32 (fld w 21 5)) (Fin.ofNat 32 (fld w 16 5)) (bit w 6) (Fin.ofNat 64 (fld w 0 6)))
  else if fld w 7 9 = 256 then some (.srai (Fin.ofNat 32 (fld w 21 5)) (Fin.ofNat 32 (fld w 16 5)) (bit w 6) (Fin.ofNat 64 (fld w 0 6)))
  else if fld w 7 9 = 384 then some (.rori (Fin.ofNat 32 (fld w 21 5)) (Fin.ofNat 32 (fld w 16 5)) (bit w 6) (Fin.ofNat 64 (fld w 0 6)))
  else none

/-- Words of OP 0x09 (R28, R30). -/
def decodeOp09 (w : Nat) : Option Instr :=
  some (.lui (Fin.ofNat 32 (fld w 21 5)) (.ofNat 21 (fld w 0 21)))

/-- Words of OP 0x0A (R28, R30). -/
def decodeOp0A (w : Nat) : Option Instr :=
  some (.addpc (Fin.ofNat 32 (fld w 21 5)) (.ofNat 21 (fld w 0 21)))

/-- Words of OP 0x0B (R28, R30). -/
def decodeOp0B (w : Nat) : Option Instr :=
  some (.jal (Fin.ofNat 32 (fld w 21 5)) (.ofNat 21 (fld w 0 21)))

/-- Words of OP 0x0C (R28, R30). -/
def decodeOp0C (w : Nat) : Option Instr :=
  some (.jalr (Fin.ofNat 32 (fld w 21 5)) (Fin.ofNat 32 (fld w 16 5)) (.ofNat 16 (fld w 0 16)))

/-- Words of OP 0x0D (R28, R30). -/
def decodeOp0D (w : Nat) : Option Instr :=
  some (.beq (Fin.ofNat 32 (fld w 21 5)) (Fin.ofNat 32 (fld w 16 5)) (.ofNat 16 (fld w 0 16)))

/-- Words of OP 0x0E (R28, R30). -/
def decodeOp0E (w : Nat) : Option Instr :=
  some (.bne (Fin.ofNat 32 (fld w 21 5)) (Fin.ofNat 32 (fld w 16 5)) (.ofNat 16 (fld w 0 16)))

/-- Words of OP 0x0F (R28, R30). -/
def decodeOp0F (w : Nat) : Option Instr :=
  some (.blt (Fin.ofNat 32 (fld w 21 5)) (Fin.ofNat 32 (fld w 16 5)) (.ofNat 16 (fld w 0 16)))

/-- Words of OP 0x10 (R28, R30). -/
def decodeOp10 (w : Nat) : Option Instr :=
  some (.bge (Fin.ofNat 32 (fld w 21 5)) (Fin.ofNat 32 (fld w 16 5)) (.ofNat 16 (fld w 0 16)))

/-- Words of OP 0x11 (R28, R30). -/
def decodeOp11 (w : Nat) : Option Instr :=
  some (.bltu (Fin.ofNat 32 (fld w 21 5)) (Fin.ofNat 32 (fld w 16 5)) (.ofNat 16 (fld w 0 16)))

/-- Words of OP 0x12 (R28, R30). -/
def decodeOp12 (w : Nat) : Option Instr :=
  some (.bgeu (Fin.ofNat 32 (fld w 21 5)) (Fin.ofNat 32 (fld w 16 5)) (.ofNat 16 (fld w 0 16)))

/-- Words of OP 0x13 (R28, R30). -/
def decodeOp13 (w : Nat) : Option Instr :=
  if fld w 11 3 = 0 then some (.lb (Fin.ofNat 32 (fld w 21 5)) (Fin.ofNat 32 (fld w 16 5)) (.ofCode (fld w 14 2)) (.ofNat 11 (fld w 0 11)))
  else if fld w 11 3 = 1 then some (.lbu (Fin.ofNat 32 (fld w 21 5)) (Fin.ofNat 32 (fld w 16 5)) (.ofCode (fld w 14 2)) (.ofNat 11 (fld w 0 11)))
  else if fld w 11 3 = 2 then some (.lh (Fin.ofNat 32 (fld w 21 5)) (Fin.ofNat 32 (fld w 16 5)) (.ofCode (fld w 14 2)) (.ofNat 11 (fld w 0 11)))
  else if fld w 11 3 = 3 then some (.lhu (Fin.ofNat 32 (fld w 21 5)) (Fin.ofNat 32 (fld w 16 5)) (.ofCode (fld w 14 2)) (.ofNat 11 (fld w 0 11)))
  else if fld w 11 3 = 4 then some (.lw (Fin.ofNat 32 (fld w 21 5)) (Fin.ofNat 32 (fld w 16 5)) (.ofCode (fld w 14 2)) (.ofNat 11 (fld w 0 11)))
  else if fld w 11 3 = 5 then some (.lwu (Fin.ofNat 32 (fld w 21 5)) (Fin.ofNat 32 (fld w 16 5)) (.ofCode (fld w 14 2)) (.ofNat 11 (fld w 0 11)))
  else if fld w 11 3 = 6 then some (.ld (Fin.ofNat 32 (fld w 21 5)) (Fin.ofNat 32 (fld w 16 5)) (.ofCode (fld w 14 2)) (.ofNat 11 (fld w 0 11)))
  else none

/-- Words of OP 0x14 (R28, R30). -/
def decodeOp14 (w : Nat) : Option Instr :=
  if fld w 11 3 = 0 then some (.sb (Fin.ofNat 32 (fld w 21 5)) (Fin.ofNat 32 (fld w 16 5)) (.ofCode (fld w 14 2)) (.ofNat 11 (fld w 0 11)))
  else if fld w 11 3 = 2 then some (.sh (Fin.ofNat 32 (fld w 21 5)) (Fin.ofNat 32 (fld w 16 5)) (.ofCode (fld w 14 2)) (.ofNat 11 (fld w 0 11)))
  else if fld w 11 3 = 4 then some (.sw (Fin.ofNat 32 (fld w 21 5)) (Fin.ofNat 32 (fld w 16 5)) (.ofCode (fld w 14 2)) (.ofNat 11 (fld w 0 11)))
  else if fld w 11 3 = 6 then some (.sd (Fin.ofNat 32 (fld w 21 5)) (Fin.ofNat 32 (fld w 16 5)) (.ofCode (fld w 14 2)) (.ofNat 11 (fld w 0 11)))
  else none

/-- Words of OP 0x15 (R28, R30). -/
def decodeOp15 (w : Nat) : Option Instr :=
  if fld w 0 4 = 0 ∧ fld w 10 1 = 0 then some (.amoswap (Fin.ofNat 32 (fld w 21 5)) (Fin.ofNat 32 (fld w 16 5)) (Fin.ofNat 32 (fld w 11 5)) (Fin.ofNat 4 (fld w 8 2)) (bit w 7) (bit w 6) (bit w 5) (bit w 4))
  else if fld w 0 4 = 1 ∧ fld w 10 1 = 0 then some (.amoadd (Fin.ofNat 32 (fld w 21 5)) (Fin.ofNat 32 (fld w 16 5)) (Fin.ofNat 32 (fld w 11 5)) (Fin.ofNat 4 (fld w 8 2)) (bit w 7) (bit w 6) (bit w 5) (bit w 4))
  else if fld w 0 4 = 2 ∧ fld w 10 1 = 0 then some (.amoand (Fin.ofNat 32 (fld w 21 5)) (Fin.ofNat 32 (fld w 16 5)) (Fin.ofNat 32 (fld w 11 5)) (Fin.ofNat 4 (fld w 8 2)) (bit w 7) (bit w 6) (bit w 5) (bit w 4))
  else if fld w 0 4 = 3 ∧ fld w 10 1 = 0 then some (.amoor (Fin.ofNat 32 (fld w 21 5)) (Fin.ofNat 32 (fld w 16 5)) (Fin.ofNat 32 (fld w 11 5)) (Fin.ofNat 4 (fld w 8 2)) (bit w 7) (bit w 6) (bit w 5) (bit w 4))
  else if fld w 0 4 = 4 ∧ fld w 10 1 = 0 then some (.amoxor (Fin.ofNat 32 (fld w 21 5)) (Fin.ofNat 32 (fld w 16 5)) (Fin.ofNat 32 (fld w 11 5)) (Fin.ofNat 4 (fld w 8 2)) (bit w 7) (bit w 6) (bit w 5) (bit w 4))
  else if fld w 0 4 = 5 ∧ fld w 10 1 = 0 then some (.amomin (Fin.ofNat 32 (fld w 21 5)) (Fin.ofNat 32 (fld w 16 5)) (Fin.ofNat 32 (fld w 11 5)) (Fin.ofNat 4 (fld w 8 2)) (bit w 7) (bit w 6) (bit w 5) (bit w 4))
  else if fld w 0 4 = 6 ∧ fld w 10 1 = 0 then some (.amomax (Fin.ofNat 32 (fld w 21 5)) (Fin.ofNat 32 (fld w 16 5)) (Fin.ofNat 32 (fld w 11 5)) (Fin.ofNat 4 (fld w 8 2)) (bit w 7) (bit w 6) (bit w 5) (bit w 4))
  else if fld w 0 4 = 7 ∧ fld w 10 1 = 0 then some (.amominu (Fin.ofNat 32 (fld w 21 5)) (Fin.ofNat 32 (fld w 16 5)) (Fin.ofNat 32 (fld w 11 5)) (Fin.ofNat 4 (fld w 8 2)) (bit w 7) (bit w 6) (bit w 5) (bit w 4))
  else if fld w 0 4 = 8 ∧ fld w 10 1 = 0 then some (.amomaxu (Fin.ofNat 32 (fld w 21 5)) (Fin.ofNat 32 (fld w 16 5)) (Fin.ofNat 32 (fld w 11 5)) (Fin.ofNat 4 (fld w 8 2)) (bit w 7) (bit w 6) (bit w 5) (bit w 4))
  else if fld w 0 4 = 9 ∧ fld w 10 1 = 0 then some (.amocas (Fin.ofNat 32 (fld w 21 5)) (Fin.ofNat 32 (fld w 16 5)) (Fin.ofNat 32 (fld w 11 5)) (Fin.ofNat 4 (fld w 8 2)) (bit w 7) (bit w 6) (bit w 5) (bit w 4))
  else none

/-- Words of OP 0x16 (R28, R30). -/
def decodeOp16 (w : Nat) : Option Instr :=
  if fld w 6 20 = 0 then some (.fence (bit w 5) (bit w 4) (.ofCode (fld w 2 2)) (.ofCode (fld w 0 2)))
  else none

/-- Words of OP 0x17 (R28, R30). -/
def decodeOp17 (w : Nat) : Option Instr :=
  if fld w 11 5 = 0 ∧ fld w 21 5 = 0 then some (.cinv (Fin.ofNat 32 (fld w 16 5)) (.ofNat 11 (fld w 0 11)))
  else if fld w 11 5 = 1 ∧ fld w 21 5 = 0 then some (.cinvI (Fin.ofNat 32 (fld w 16 5)) (.ofNat 11 (fld w 0 11)))
  else if fld w 11 5 = 0 ∧ fld w 21 5 = 1 then some (.cwb (Fin.ofNat 32 (fld w 16 5)) (.ofNat 11 (fld w 0 11)))
  else if fld w 11 5 = 0 ∧ fld w 21 5 = 2 then some (.czero (Fin.ofNat 32 (fld w 16 5)) (.ofNat 11 (fld w 0 11)))
  else if fld w 12 2 = 0 ∧ fld w 21 5 = 3 then some (.pref (Fin.ofNat 32 (fld w 16 5)) (.ofCode (fld w 14 2)) (bit w 11) (.ofNat 11 (fld w 0 11)))
  else none

/-- Words of OP 0x18 (R28, R30). -/
def decodeOp18 (w : Nat) : Option Instr :=
  if fld w 12 9 = 0 then some (.csrr (Fin.ofNat 32 (fld w 21 5)) (.ofNat 12 (fld w 0 12)))
  else if fld w 12 4 = 1 then some (.csrw (Fin.ofNat 32 (fld w 21 5)) (Fin.ofNat 32 (fld w 16 5)) (.ofNat 12 (fld w 0 12)))
  else if fld w 12 4 = 2 then some (.csrs (Fin.ofNat 32 (fld w 21 5)) (Fin.ofNat 32 (fld w 16 5)) (.ofNat 12 (fld w 0 12)))
  else if fld w 12 4 = 3 then some (.csrc (Fin.ofNat 32 (fld w 21 5)) (Fin.ofNat 32 (fld w 16 5)) (.ofNat 12 (fld w 0 12)))
  else if fld w 12 4 = 4 then some (.csrwi (Fin.ofNat 32 (fld w 21 5)) (.ofNat 5 (fld w 16 5)) (.ofNat 12 (fld w 0 12)))
  else if fld w 12 4 = 5 then some (.csrsi (Fin.ofNat 32 (fld w 21 5)) (.ofNat 5 (fld w 16 5)) (.ofNat 12 (fld w 0 12)))
  else if fld w 12 4 = 6 then some (.csrci (Fin.ofNat 32 (fld w 21 5)) (.ofNat 5 (fld w 16 5)) (.ofNat 12 (fld w 0 12)))
  else none

/-- Words of OP 0x19 (R28, R30). -/
def decodeOp19 (w : Nat) : Option Instr :=
  if fld w 0 26 = 0 then some (.ecall)
  else if fld w 0 26 = 1 then some (.ebreak)
  else if fld w 0 26 = 2 then some (.tret)
  else if fld w 0 26 = 3 then some (.wfi)
  else if fld w 0 11 = 4 ∧ fld w 21 5 = 0 then some (.sfence (Fin.ofNat 32 (fld w 16 5)) (Fin.ofNat 32 (fld w 11 5)))
  else if fld w 0 26 = 5 then some (.yield)
  else if fld w 0 26 = 6 then some (.halt)
  else if fld w 0 16 = 7 ∧ fld w 21 5 = 0 then some (.thaw (Fin.ofNat 32 (fld w 16 5)))
  else none

/-- Words of OP 0x1A (R28, R30). -/
def decodeOp1A (w : Nat) : Option Instr :=
  if fld w 0 11 = 0 ∧ fld w 16 5 = 0 then some (.ipop (Fin.ofNat 32 (fld w 21 5)) (Fin.ofNat 32 (fld w 11 5)))
  else if fld w 0 11 = 1 ∧ fld w 16 5 = 0 then some (.ipopnb (Fin.ofNat 32 (fld w 21 5)) (Fin.ofNat 32 (fld w 11 5)))
  else if fld w 0 11 = 2 ∧ fld w 21 5 = 0 then some (.wmbind (Fin.ofNat 32 (fld w 16 5)) (Fin.ofNat 32 (fld w 11 5)))
  else if fld w 0 11 = 3 ∧ fld w 21 5 = 0 then some (.wmpub (Fin.ofNat 32 (fld w 16 5)) (Fin.ofNat 32 (fld w 11 5)))
  else if fld w 0 16 = 4 then some (.wmread (Fin.ofNat 32 (fld w 21 5)) (Fin.ofNat 32 (fld w 16 5)))
  else none

/-- Words of OP 0x1B (R28, R30). -/
def decodeOp1B (w : Nat) : Option Instr :=
  if fld w 0 14 = 0 then some (.pfx (bit w 25) (bit w 24) (Fin.ofNat 32 (fld w 19 5)) (Fin.ofNat 32 (fld w 14 5)))
  else none

/-- Words of OP 0x20 (R28, R30). -/
def decodeOp20 (w : Nat) : Option Instr :=
  if fld w 5 11 = 0 then some (.vsetl (Fin.ofNat 32 (fld w 21 5)) (Fin.ofNat 32 (fld w 16 5)) (Fin.ofNat 4 (fld w 3 2)) (Fin.ofNat 8 (fld w 0 3)))
  else none

/-- Words of OP 0x21 (R28, R30). -/
def decodeOp21 (w : Nat) : Option Instr :=
  if fld w 0 6 = 0 then some (.vadd (Fin.ofNat 32 (fld w 21 5)) (Fin.ofNat 32 (fld w 16 5)) (Fin.ofNat 32 (fld w 11 5)) (bit w 10) (bit w 9) (Fin.ofNat 8 (fld w 6 3)))
  else if fld w 0 6 = 1 then some (.vsub (Fin.ofNat 32 (fld w 21 5)) (Fin.ofNat 32 (fld w 16 5)) (Fin.ofNat 32 (fld w 11 5)) (bit w 10) (bit w 9) (Fin.ofNat 8 (fld w 6 3)))
  else if fld w 0 6 = 2 then some (.vand (Fin.ofNat 32 (fld w 21 5)) (Fin.ofNat 32 (fld w 16 5)) (Fin.ofNat 32 (fld w 11 5)) (bit w 10) (bit w 9) (Fin.ofNat 8 (fld w 6 3)))
  else if fld w 0 6 = 3 then some (.vor (Fin.ofNat 32 (fld w 21 5)) (Fin.ofNat 32 (fld w 16 5)) (Fin.ofNat 32 (fld w 11 5)) (bit w 10) (bit w 9) (Fin.ofNat 8 (fld w 6 3)))
  else if fld w 0 6 = 4 then some (.vxor (Fin.ofNat 32 (fld w 21 5)) (Fin.ofNat 32 (fld w 16 5)) (Fin.ofNat 32 (fld w 11 5)) (bit w 10) (bit w 9) (Fin.ofNat 8 (fld w 6 3)))
  else if fld w 0 6 = 5 then some (.vandn (Fin.ofNat 32 (fld w 21 5)) (Fin.ofNat 32 (fld w 16 5)) (Fin.ofNat 32 (fld w 11 5)) (bit w 10) (bit w 9) (Fin.ofNat 8 (fld w 6 3)))
  else if fld w 0 6 = 6 then some (.vsll (Fin.ofNat 32 (fld w 21 5)) (Fin.ofNat 32 (fld w 16 5)) (Fin.ofNat 32 (fld w 11 5)) (bit w 10) (bit w 9) (Fin.ofNat 8 (fld w 6 3)))
  else if fld w 0 6 = 7 then some (.vsrl (Fin.ofNat 32 (fld w 21 5)) (Fin.ofNat 32 (fld w 16 5)) (Fin.ofNat 32 (fld w 11 5)) (bit w 10) (bit w 9) (Fin.ofNat 8 (fld w 6 3)))
  else if fld w 0 6 = 8 then some (.vsra (Fin.ofNat 32 (fld w 21 5)) (Fin.ofNat 32 (fld w 16 5)) (Fin.ofNat 32 (fld w 11 5)) (bit w 10) (bit w 9) (Fin.ofNat 8 (fld w 6 3)))
  else if fld w 0 6 = 9 then some (.vmin (Fin.ofNat 32 (fld w 21 5)) (Fin.ofNat 32 (fld w 16 5)) (Fin.ofNat 32 (fld w 11 5)) (bit w 10) (bit w 9) (Fin.ofNat 8 (fld w 6 3)))
  else if fld w 0 6 = 10 then some (.vmax (Fin.ofNat 32 (fld w 21 5)) (Fin.ofNat 32 (fld w 16 5)) (Fin.ofNat 32 (fld w 11 5)) (bit w 10) (bit w 9) (Fin.ofNat 8 (fld w 6 3)))
  else if fld w 0 6 = 11 then some (.vminu (Fin.ofNat 32 (fld w 21 5)) (Fin.ofNat 32 (fld w 16 5)) (Fin.ofNat 32 (fld w 11 5)) (bit w 10) (bit w 9) (Fin.ofNat 8 (fld w 6 3)))
  else if fld w 0 6 = 12 then some (.vmaxu (Fin.ofNat 32 (fld w 21 5)) (Fin.ofNat 32 (fld w 16 5)) (Fin.ofNat 32 (fld w 11 5)) (bit w 10) (bit w 9) (Fin.ofNat 8 (fld w 6 3)))
  else if fld w 0 6 = 13 then some (.vmul (Fin.ofNat 32 (fld w 21 5)) (Fin.ofNat 32 (fld w 16 5)) (Fin.ofNat 32 (fld w 11 5)) (bit w 10) (bit w 9) (Fin.ofNat 8 (fld w 6 3)))
  else if fld w 0 6 = 14 then some (.vmulh (Fin.ofNat 32 (fld w 21 5)) (Fin.ofNat 32 (fld w 16 5)) (Fin.ofNat 32 (fld w 11 5)) (bit w 10) (bit w 9) (Fin.ofNat 8 (fld w 6 3)))
  else if fld w 0 6 = 15 then some (.vmulhu (Fin.ofNat 32 (fld w 21 5)) (Fin.ofNat 32 (fld w 16 5)) (Fin.ofNat 32 (fld w 11 5)) (bit w 10) (bit w 9) (Fin.ofNat 8 (fld w 6 3)))
  else if fld w 0 6 = 16 then some (.vdiv (Fin.ofNat 32 (fld w 21 5)) (Fin.ofNat 32 (fld w 16 5)) (Fin.ofNat 32 (fld w 11 5)) (bit w 10) (bit w 9) (Fin.ofNat 8 (fld w 6 3)))
  else if fld w 0 6 = 17 then some (.vdivu (Fin.ofNat 32 (fld w 21 5)) (Fin.ofNat 32 (fld w 16 5)) (Fin.ofNat 32 (fld w 11 5)) (bit w 10) (bit w 9) (Fin.ofNat 8 (fld w 6 3)))
  else if fld w 0 6 = 18 then some (.vrem (Fin.ofNat 32 (fld w 21 5)) (Fin.ofNat 32 (fld w 16 5)) (Fin.ofNat 32 (fld w 11 5)) (bit w 10) (bit w 9) (Fin.ofNat 8 (fld w 6 3)))
  else if fld w 0 6 = 19 then some (.vremu (Fin.ofNat 32 (fld w 21 5)) (Fin.ofNat 32 (fld w 16 5)) (Fin.ofNat 32 (fld w 11 5)) (bit w 10) (bit w 9) (Fin.ofNat 8 (fld w 6 3)))
  else if fld w 0 6 = 20 then some (.vmacc (Fin.ofNat 32 (fld w 21 5)) (Fin.ofNat 32 (fld w 16 5)) (Fin.ofNat 32 (fld w 11 5)) (bit w 10) (bit w 9) (Fin.ofNat 8 (fld w 6 3)))
  else if fld w 0 6 = 21 then some (.vsadd (Fin.ofNat 32 (fld w 21 5)) (Fin.ofNat 32 (fld w 16 5)) (Fin.ofNat 32 (fld w 11 5)) (bit w 10) (bit w 9) (Fin.ofNat 8 (fld w 6 3)))
  else if fld w 0 6 = 22 then some (.vsaddu (Fin.ofNat 32 (fld w 21 5)) (Fin.ofNat 32 (fld w 16 5)) (Fin.ofNat 32 (fld w 11 5)) (bit w 10) (bit w 9) (Fin.ofNat 8 (fld w 6 3)))
  else if fld w 0 6 = 23 then some (.vssub (Fin.ofNat 32 (fld w 21 5)) (Fin.ofNat 32 (fld w 16 5)) (Fin.ofNat 32 (fld w 11 5)) (bit w 10) (bit w 9) (Fin.ofNat 8 (fld w 6 3)))
  else if fld w 0 6 = 24 then some (.vssubu (Fin.ofNat 32 (fld w 21 5)) (Fin.ofNat 32 (fld w 16 5)) (Fin.ofNat 32 (fld w 11 5)) (bit w 10) (bit w 9) (Fin.ofNat 8 (fld w 6 3)))
  else if fld w 0 6 = 25 then some (.vabsd (Fin.ofNat 32 (fld w 21 5)) (Fin.ofNat 32 (fld w 16 5)) (Fin.ofNat 32 (fld w 11 5)) (bit w 10) (bit w 9) (Fin.ofNat 8 (fld w 6 3)))
  else if fld w 0 6 = 26 ∧ fld w 9 1 = 0 ∧ fld w 11 5 = 0 then some (.vclz (Fin.ofNat 32 (fld w 21 5)) (Fin.ofNat 32 (fld w 16 5)) (bit w 10) (Fin.ofNat 8 (fld w 6 3)))
  else if fld w 0 6 = 27 ∧ fld w 9 1 = 0 ∧ fld w 11 5 = 0 then some (.vctz (Fin.ofNat 32 (fld w 21 5)) (Fin.ofNat 32 (fld w 16 5)) (bit w 10) (Fin.ofNat 8 (fld w 6 3)))
  else if fld w 0 6 = 28 ∧ fld w 9 1 = 0 ∧ fld w 11 5 = 0 then some (.vpopc (Fin.ofNat 32 (fld w 21 5)) (Fin.ofNat 32 (fld w 16 5)) (bit w 10) (Fin.ofNat 8 (fld w 6 3)))
  else if fld w 0 6 = 29 ∧ fld w 9 1 = 0 ∧ fld w 11 5 = 0 then some (.vmv (Fin.ofNat 32 (fld w 21 5)) (Fin.ofNat 32 (fld w 16 5)) (bit w 10) (Fin.ofNat 8 (fld w 6 3)))
  else none

/-- Words of OP 0x22 (R28, R30). -/
def decodeOp22 (w : Nat) : Option Instr :=
  if fld w 0 6 = 0 ∧ fld w 9 1 = 0 then some (.vaddX (Fin.ofNat 32 (fld w 21 5)) (Fin.ofNat 32 (fld w 16 5)) (Fin.ofNat 32 (fld w 11 5)) (bit w 10) (Fin.ofNat 8 (fld w 6 3)))
  else if fld w 0 6 = 1 ∧ fld w 9 1 = 0 then some (.vsubX (Fin.ofNat 32 (fld w 21 5)) (Fin.ofNat 32 (fld w 16 5)) (Fin.ofNat 32 (fld w 11 5)) (bit w 10) (Fin.ofNat 8 (fld w 6 3)))
  else if fld w 0 6 = 2 ∧ fld w 9 1 = 0 then some (.vandX (Fin.ofNat 32 (fld w 21 5)) (Fin.ofNat 32 (fld w 16 5)) (Fin.ofNat 32 (fld w 11 5)) (bit w 10) (Fin.ofNat 8 (fld w 6 3)))
  else if fld w 0 6 = 3 ∧ fld w 9 1 = 0 then some (.vorX (Fin.ofNat 32 (fld w 21 5)) (Fin.ofNat 32 (fld w 16 5)) (Fin.ofNat 32 (fld w 11 5)) (bit w 10) (Fin.ofNat 8 (fld w 6 3)))
  else if fld w 0 6 = 4 ∧ fld w 9 1 = 0 then some (.vxorX (Fin.ofNat 32 (fld w 21 5)) (Fin.ofNat 32 (fld w 16 5)) (Fin.ofNat 32 (fld w 11 5)) (bit w 10) (Fin.ofNat 8 (fld w 6 3)))
  else if fld w 0 6 = 5 ∧ fld w 9 1 = 0 then some (.vandnX (Fin.ofNat 32 (fld w 21 5)) (Fin.ofNat 32 (fld w 16 5)) (Fin.ofNat 32 (fld w 11 5)) (bit w 10) (Fin.ofNat 8 (fld w 6 3)))
  else if fld w 0 6 = 6 ∧ fld w 9 1 = 0 then some (.vsllX (Fin.ofNat 32 (fld w 21 5)) (Fin.ofNat 32 (fld w 16 5)) (Fin.ofNat 32 (fld w 11 5)) (bit w 10) (Fin.ofNat 8 (fld w 6 3)))
  else if fld w 0 6 = 7 ∧ fld w 9 1 = 0 then some (.vsrlX (Fin.ofNat 32 (fld w 21 5)) (Fin.ofNat 32 (fld w 16 5)) (Fin.ofNat 32 (fld w 11 5)) (bit w 10) (Fin.ofNat 8 (fld w 6 3)))
  else if fld w 0 6 = 8 ∧ fld w 9 1 = 0 then some (.vsraX (Fin.ofNat 32 (fld w 21 5)) (Fin.ofNat 32 (fld w 16 5)) (Fin.ofNat 32 (fld w 11 5)) (bit w 10) (Fin.ofNat 8 (fld w 6 3)))
  else if fld w 0 6 = 9 ∧ fld w 9 1 = 0 then some (.vminX (Fin.ofNat 32 (fld w 21 5)) (Fin.ofNat 32 (fld w 16 5)) (Fin.ofNat 32 (fld w 11 5)) (bit w 10) (Fin.ofNat 8 (fld w 6 3)))
  else if fld w 0 6 = 10 ∧ fld w 9 1 = 0 then some (.vmaxX (Fin.ofNat 32 (fld w 21 5)) (Fin.ofNat 32 (fld w 16 5)) (Fin.ofNat 32 (fld w 11 5)) (bit w 10) (Fin.ofNat 8 (fld w 6 3)))
  else if fld w 0 6 = 11 ∧ fld w 9 1 = 0 then some (.vminuX (Fin.ofNat 32 (fld w 21 5)) (Fin.ofNat 32 (fld w 16 5)) (Fin.ofNat 32 (fld w 11 5)) (bit w 10) (Fin.ofNat 8 (fld w 6 3)))
  else if fld w 0 6 = 12 ∧ fld w 9 1 = 0 then some (.vmaxuX (Fin.ofNat 32 (fld w 21 5)) (Fin.ofNat 32 (fld w 16 5)) (Fin.ofNat 32 (fld w 11 5)) (bit w 10) (Fin.ofNat 8 (fld w 6 3)))
  else if fld w 0 6 = 13 ∧ fld w 9 1 = 0 then some (.vmulX (Fin.ofNat 32 (fld w 21 5)) (Fin.ofNat 32 (fld w 16 5)) (Fin.ofNat 32 (fld w 11 5)) (bit w 10) (Fin.ofNat 8 (fld w 6 3)))
  else if fld w 0 6 = 14 ∧ fld w 9 1 = 0 then some (.vmulhX (Fin.ofNat 32 (fld w 21 5)) (Fin.ofNat 32 (fld w 16 5)) (Fin.ofNat 32 (fld w 11 5)) (bit w 10) (Fin.ofNat 8 (fld w 6 3)))
  else if fld w 0 6 = 15 ∧ fld w 9 1 = 0 then some (.vmulhuX (Fin.ofNat 32 (fld w 21 5)) (Fin.ofNat 32 (fld w 16 5)) (Fin.ofNat 32 (fld w 11 5)) (bit w 10) (Fin.ofNat 8 (fld w 6 3)))
  else if fld w 0 6 = 16 ∧ fld w 9 1 = 0 then some (.vdivX (Fin.ofNat 32 (fld w 21 5)) (Fin.ofNat 32 (fld w 16 5)) (Fin.ofNat 32 (fld w 11 5)) (bit w 10) (Fin.ofNat 8 (fld w 6 3)))
  else if fld w 0 6 = 17 ∧ fld w 9 1 = 0 then some (.vdivuX (Fin.ofNat 32 (fld w 21 5)) (Fin.ofNat 32 (fld w 16 5)) (Fin.ofNat 32 (fld w 11 5)) (bit w 10) (Fin.ofNat 8 (fld w 6 3)))
  else if fld w 0 6 = 18 ∧ fld w 9 1 = 0 then some (.vremX (Fin.ofNat 32 (fld w 21 5)) (Fin.ofNat 32 (fld w 16 5)) (Fin.ofNat 32 (fld w 11 5)) (bit w 10) (Fin.ofNat 8 (fld w 6 3)))
  else if fld w 0 6 = 19 ∧ fld w 9 1 = 0 then some (.vremuX (Fin.ofNat 32 (fld w 21 5)) (Fin.ofNat 32 (fld w 16 5)) (Fin.ofNat 32 (fld w 11 5)) (bit w 10) (Fin.ofNat 8 (fld w 6 3)))
  else if fld w 0 6 = 20 ∧ fld w 9 1 = 0 then some (.vmaccX (Fin.ofNat 32 (fld w 21 5)) (Fin.ofNat 32 (fld w 16 5)) (Fin.ofNat 32 (fld w 11 5)) (bit w 10) (Fin.ofNat 8 (fld w 6 3)))
  else if fld w 0 6 = 21 ∧ fld w 9 1 = 0 then some (.vsaddX (Fin.ofNat 32 (fld w 21 5)) (Fin.ofNat 32 (fld w 16 5)) (Fin.ofNat 32 (fld w 11 5)) (bit w 10) (Fin.ofNat 8 (fld w 6 3)))
  else if fld w 0 6 = 22 ∧ fld w 9 1 = 0 then some (.vsadduX (Fin.ofNat 32 (fld w 21 5)) (Fin.ofNat 32 (fld w 16 5)) (Fin.ofNat 32 (fld w 11 5)) (bit w 10) (Fin.ofNat 8 (fld w 6 3)))
  else if fld w 0 6 = 23 ∧ fld w 9 1 = 0 then some (.vssubX (Fin.ofNat 32 (fld w 21 5)) (Fin.ofNat 32 (fld w 16 5)) (Fin.ofNat 32 (fld w 11 5)) (bit w 10) (Fin.ofNat 8 (fld w 6 3)))
  else if fld w 0 6 = 24 ∧ fld w 9 1 = 0 then some (.vssubuX (Fin.ofNat 32 (fld w 21 5)) (Fin.ofNat 32 (fld w 16 5)) (Fin.ofNat 32 (fld w 11 5)) (bit w 10) (Fin.ofNat 8 (fld w 6 3)))
  else if fld w 0 6 = 25 ∧ fld w 9 1 = 0 then some (.vabsdX (Fin.ofNat 32 (fld w 21 5)) (Fin.ofNat 32 (fld w 16 5)) (Fin.ofNat 32 (fld w 11 5)) (bit w 10) (Fin.ofNat 8 (fld w 6 3)))
  else if fld w 0 6 = 29 ∧ fld w 9 2 = 0 ∧ fld w 16 5 = 0 then some (.vmvX (Fin.ofNat 32 (fld w 21 5)) (Fin.ofNat 32 (fld w 11 5)) (Fin.ofNat 8 (fld w 6 3)))
  else none

/-- Words of OP 0x23 (R28, R30). -/
def decodeOp23 (w : Nat) : Option Instr :=
  if fld w 0 6 = 0 then some (.vfadd (Fin.ofNat 32 (fld w 21 5)) (Fin.ofNat 32 (fld w 16 5)) (Fin.ofNat 32 (fld w 11 5)) (bit w 10) (bit w 9) (Fin.ofNat 8 (fld w 6 3)))
  else if fld w 0 6 = 1 then some (.vfsub (Fin.ofNat 32 (fld w 21 5)) (Fin.ofNat 32 (fld w 16 5)) (Fin.ofNat 32 (fld w 11 5)) (bit w 10) (bit w 9) (Fin.ofNat 8 (fld w 6 3)))
  else if fld w 0 6 = 2 then some (.vfmul (Fin.ofNat 32 (fld w 21 5)) (Fin.ofNat 32 (fld w 16 5)) (Fin.ofNat 32 (fld w 11 5)) (bit w 10) (bit w 9) (Fin.ofNat 8 (fld w 6 3)))
  else if fld w 0 6 = 3 then some (.vfdiv (Fin.ofNat 32 (fld w 21 5)) (Fin.ofNat 32 (fld w 16 5)) (Fin.ofNat 32 (fld w 11 5)) (bit w 10) (bit w 9) (Fin.ofNat 8 (fld w 6 3)))
  else if fld w 0 6 = 4 then some (.vfmin (Fin.ofNat 32 (fld w 21 5)) (Fin.ofNat 32 (fld w 16 5)) (Fin.ofNat 32 (fld w 11 5)) (bit w 10) (bit w 9) (Fin.ofNat 8 (fld w 6 3)))
  else if fld w 0 6 = 5 then some (.vfmax (Fin.ofNat 32 (fld w 21 5)) (Fin.ofNat 32 (fld w 16 5)) (Fin.ofNat 32 (fld w 11 5)) (bit w 10) (bit w 9) (Fin.ofNat 8 (fld w 6 3)))
  else if fld w 0 6 = 6 then some (.vfmadd (Fin.ofNat 32 (fld w 21 5)) (Fin.ofNat 32 (fld w 16 5)) (Fin.ofNat 32 (fld w 11 5)) (bit w 10) (bit w 9) (Fin.ofNat 8 (fld w 6 3)))
  else if fld w 0 6 = 7 then some (.vfmsub (Fin.ofNat 32 (fld w 21 5)) (Fin.ofNat 32 (fld w 16 5)) (Fin.ofNat 32 (fld w 11 5)) (bit w 10) (bit w 9) (Fin.ofNat 8 (fld w 6 3)))
  else if fld w 0 6 = 8 then some (.vfnmadd (Fin.ofNat 32 (fld w 21 5)) (Fin.ofNat 32 (fld w 16 5)) (Fin.ofNat 32 (fld w 11 5)) (bit w 10) (bit w 9) (Fin.ofNat 8 (fld w 6 3)))
  else if fld w 0 6 = 9 then some (.vfnmsub (Fin.ofNat 32 (fld w 21 5)) (Fin.ofNat 32 (fld w 16 5)) (Fin.ofNat 32 (fld w 11 5)) (bit w 10) (bit w 9) (Fin.ofNat 8 (fld w 6 3)))
  else if fld w 0 6 = 10 then some (.vfsgnj (Fin.ofNat 32 (fld w 21 5)) (Fin.ofNat 32 (fld w 16 5)) (Fin.ofNat 32 (fld w 11 5)) (bit w 10) (bit w 9) (Fin.ofNat 8 (fld w 6 3)))
  else if fld w 0 6 = 11 then some (.vfsgnjn (Fin.ofNat 32 (fld w 21 5)) (Fin.ofNat 32 (fld w 16 5)) (Fin.ofNat 32 (fld w 11 5)) (bit w 10) (bit w 9) (Fin.ofNat 8 (fld w 6 3)))
  else if fld w 0 6 = 12 ∧ fld w 9 1 = 0 ∧ fld w 11 5 = 0 then some (.vfsqrt (Fin.ofNat 32 (fld w 21 5)) (Fin.ofNat 32 (fld w 16 5)) (bit w 10) (Fin.ofNat 8 (fld w 6 3)))
  else if fld w 0 6 = 13 ∧ fld w 9 1 = 0 ∧ fld w 11 5 = 0 then some (.vfrcp (Fin.ofNat 32 (fld w 21 5)) (Fin.ofNat 32 (fld w 16 5)) (bit w 10) (Fin.ofNat 8 (fld w 6 3)))
  else if fld w 0 6 = 14 ∧ fld w 9 1 = 0 ∧ fld w 11 5 = 0 then some (.vfrsq (Fin.ofNat 32 (fld w 21 5)) (Fin.ofNat 32 (fld w 16 5)) (bit w 10) (Fin.ofNat 8 (fld w 6 3)))
  else if fld w 0 6 = 15 ∧ fld w 9 1 = 0 ∧ fld w 11 5 = 0 then some (.vfexp2 (Fin.ofNat 32 (fld w 21 5)) (Fin.ofNat 32 (fld w 16 5)) (bit w 10) (Fin.ofNat 8 (fld w 6 3)))
  else if fld w 0 6 = 16 ∧ fld w 9 1 = 0 ∧ fld w 11 5 = 0 then some (.vflog2 (Fin.ofNat 32 (fld w 21 5)) (Fin.ofNat 32 (fld w 16 5)) (bit w 10) (Fin.ofNat 8 (fld w 6 3)))
  else if fld w 0 6 = 17 ∧ fld w 9 1 = 0 ∧ fld w 11 5 = 0 then some (.vfsin (Fin.ofNat 32 (fld w 21 5)) (Fin.ofNat 32 (fld w 16 5)) (bit w 10) (Fin.ofNat 8 (fld w 6 3)))
  else if fld w 0 6 = 18 ∧ fld w 9 1 = 0 ∧ fld w 11 5 = 0 then some (.vfcos (Fin.ofNat 32 (fld w 21 5)) (Fin.ofNat 32 (fld w 16 5)) (bit w 10) (Fin.ofNat 8 (fld w 6 3)))
  else if fld w 0 6 = 19 ∧ fld w 9 1 = 0 ∧ fld w 11 5 = 0 then some (.vfabs (Fin.ofNat 32 (fld w 21 5)) (Fin.ofNat 32 (fld w 16 5)) (bit w 10) (Fin.ofNat 8 (fld w 6 3)))
  else if fld w 0 6 = 20 ∧ fld w 9 1 = 0 ∧ fld w 11 5 = 0 then some (.vfneg (Fin.ofNat 32 (fld w 21 5)) (Fin.ofNat 32 (fld w 16 5)) (bit w 10) (Fin.ofNat 8 (fld w 6 3)))
  else if fld w 0 6 = 21 ∧ fld w 9 1 = 0 ∧ fld w 11 5 = 0 then some (.vfclass (Fin.ofNat 32 (fld w 21 5)) (Fin.ofNat 32 (fld w 16 5)) (bit w 10) (Fin.ofNat 8 (fld w 6 3)))
  else none

/-- Words of OP 0x24 (R28, R30). -/
def decodeOp24 (w : Nat) : Option Instr :=
  if fld w 0 6 = 0 ∧ fld w 9 1 = 0 then some (.vfaddX (Fin.ofNat 32 (fld w 21 5)) (Fin.ofNat 32 (fld w 16 5)) (Fin.ofNat 32 (fld w 11 5)) (bit w 10) (Fin.ofNat 8 (fld w 6 3)))
  else if fld w 0 6 = 1 ∧ fld w 9 1 = 0 then some (.vfsubX (Fin.ofNat 32 (fld w 21 5)) (Fin.ofNat 32 (fld w 16 5)) (Fin.ofNat 32 (fld w 11 5)) (bit w 10) (Fin.ofNat 8 (fld w 6 3)))
  else if fld w 0 6 = 2 ∧ fld w 9 1 = 0 then some (.vfmulX (Fin.ofNat 32 (fld w 21 5)) (Fin.ofNat 32 (fld w 16 5)) (Fin.ofNat 32 (fld w 11 5)) (bit w 10) (Fin.ofNat 8 (fld w 6 3)))
  else if fld w 0 6 = 3 ∧ fld w 9 1 = 0 then some (.vfdivX (Fin.ofNat 32 (fld w 21 5)) (Fin.ofNat 32 (fld w 16 5)) (Fin.ofNat 32 (fld w 11 5)) (bit w 10) (Fin.ofNat 8 (fld w 6 3)))
  else if fld w 0 6 = 4 ∧ fld w 9 1 = 0 then some (.vfminX (Fin.ofNat 32 (fld w 21 5)) (Fin.ofNat 32 (fld w 16 5)) (Fin.ofNat 32 (fld w 11 5)) (bit w 10) (Fin.ofNat 8 (fld w 6 3)))
  else if fld w 0 6 = 5 ∧ fld w 9 1 = 0 then some (.vfmaxX (Fin.ofNat 32 (fld w 21 5)) (Fin.ofNat 32 (fld w 16 5)) (Fin.ofNat 32 (fld w 11 5)) (bit w 10) (Fin.ofNat 8 (fld w 6 3)))
  else if fld w 0 6 = 6 ∧ fld w 9 1 = 0 then some (.vfmaddX (Fin.ofNat 32 (fld w 21 5)) (Fin.ofNat 32 (fld w 16 5)) (Fin.ofNat 32 (fld w 11 5)) (bit w 10) (Fin.ofNat 8 (fld w 6 3)))
  else if fld w 0 6 = 7 ∧ fld w 9 1 = 0 then some (.vfmsubX (Fin.ofNat 32 (fld w 21 5)) (Fin.ofNat 32 (fld w 16 5)) (Fin.ofNat 32 (fld w 11 5)) (bit w 10) (Fin.ofNat 8 (fld w 6 3)))
  else if fld w 0 6 = 8 ∧ fld w 9 1 = 0 then some (.vfnmaddX (Fin.ofNat 32 (fld w 21 5)) (Fin.ofNat 32 (fld w 16 5)) (Fin.ofNat 32 (fld w 11 5)) (bit w 10) (Fin.ofNat 8 (fld w 6 3)))
  else if fld w 0 6 = 9 ∧ fld w 9 1 = 0 then some (.vfnmsubX (Fin.ofNat 32 (fld w 21 5)) (Fin.ofNat 32 (fld w 16 5)) (Fin.ofNat 32 (fld w 11 5)) (bit w 10) (Fin.ofNat 8 (fld w 6 3)))
  else if fld w 0 6 = 10 ∧ fld w 9 1 = 0 then some (.vfsgnjX (Fin.ofNat 32 (fld w 21 5)) (Fin.ofNat 32 (fld w 16 5)) (Fin.ofNat 32 (fld w 11 5)) (bit w 10) (Fin.ofNat 8 (fld w 6 3)))
  else if fld w 0 6 = 11 ∧ fld w 9 1 = 0 then some (.vfsgnjnX (Fin.ofNat 32 (fld w 21 5)) (Fin.ofNat 32 (fld w 16 5)) (Fin.ofNat 32 (fld w 11 5)) (bit w 10) (Fin.ofNat 8 (fld w 6 3)))
  else none

/-- Words of OP 0x25 (R28, R30). -/
def decodeOp25 (w : Nat) : Option Instr :=
  if fld w 0 5 = 0 ∧ fld w 24 2 = 0 then some (.vseq (Fin.ofNat 8 (fld w 21 3)) (Fin.ofNat 32 (fld w 16 5)) (Fin.ofNat 32 (fld w 11 5)) (bit w 10) (bit w 9) (Fin.ofNat 8 (fld w 6 3)) (bit w 5))
  else if fld w 0 5 = 1 ∧ fld w 24 2 = 0 then some (.vsne (Fin.ofNat 8 (fld w 21 3)) (Fin.ofNat 32 (fld w 16 5)) (Fin.ofNat 32 (fld w 11 5)) (bit w 10) (bit w 9) (Fin.ofNat 8 (fld w 6 3)) (bit w 5))
  else if fld w 0 5 = 2 ∧ fld w 24 2 = 0 then some (.vslt (Fin.ofNat 8 (fld w 21 3)) (Fin.ofNat 32 (fld w 16 5)) (Fin.ofNat 32 (fld w 11 5)) (bit w 10) (bit w 9) (Fin.ofNat 8 (fld w 6 3)) (bit w 5))
  else if fld w 0 5 = 3 ∧ fld w 24 2 = 0 then some (.vsltu (Fin.ofNat 8 (fld w 21 3)) (Fin.ofNat 32 (fld w 16 5)) (Fin.ofNat 32 (fld w 11 5)) (bit w 10) (bit w 9) (Fin.ofNat 8 (fld w 6 3)) (bit w 5))
  else if fld w 0 5 = 4 ∧ fld w 24 2 = 0 then some (.vsle (Fin.ofNat 8 (fld w 21 3)) (Fin.ofNat 32 (fld w 16 5)) (Fin.ofNat 32 (fld w 11 5)) (bit w 10) (bit w 9) (Fin.ofNat 8 (fld w 6 3)) (bit w 5))
  else if fld w 0 5 = 5 ∧ fld w 24 2 = 0 then some (.vsleu (Fin.ofNat 8 (fld w 21 3)) (Fin.ofNat 32 (fld w 16 5)) (Fin.ofNat 32 (fld w 11 5)) (bit w 10) (bit w 9) (Fin.ofNat 8 (fld w 6 3)) (bit w 5))
  else if fld w 0 5 = 6 ∧ fld w 24 2 = 0 then some (.vsgt (Fin.ofNat 8 (fld w 21 3)) (Fin.ofNat 32 (fld w 16 5)) (Fin.ofNat 32 (fld w 11 5)) (bit w 10) (bit w 9) (Fin.ofNat 8 (fld w 6 3)) (bit w 5))
  else if fld w 0 5 = 7 ∧ fld w 24 2 = 0 then some (.vsgtu (Fin.ofNat 8 (fld w 21 3)) (Fin.ofNat 32 (fld w 16 5)) (Fin.ofNat 32 (fld w 11 5)) (bit w 10) (bit w 9) (Fin.ofNat 8 (fld w 6 3)) (bit w 5))
  else if fld w 0 5 = 8 ∧ fld w 24 2 = 0 then some (.vfeq (Fin.ofNat 8 (fld w 21 3)) (Fin.ofNat 32 (fld w 16 5)) (Fin.ofNat 32 (fld w 11 5)) (bit w 10) (bit w 9) (Fin.ofNat 8 (fld w 6 3)) (bit w 5))
  else if fld w 0 5 = 9 ∧ fld w 24 2 = 0 then some (.vfne (Fin.ofNat 8 (fld w 21 3)) (Fin.ofNat 32 (fld w 16 5)) (Fin.ofNat 32 (fld w 11 5)) (bit w 10) (bit w 9) (Fin.ofNat 8 (fld w 6 3)) (bit w 5))
  else if fld w 0 5 = 10 ∧ fld w 24 2 = 0 then some (.vflt (Fin.ofNat 8 (fld w 21 3)) (Fin.ofNat 32 (fld w 16 5)) (Fin.ofNat 32 (fld w 11 5)) (bit w 10) (bit w 9) (Fin.ofNat 8 (fld w 6 3)) (bit w 5))
  else if fld w 0 5 = 11 ∧ fld w 24 2 = 0 then some (.vfle (Fin.ofNat 8 (fld w 21 3)) (Fin.ofNat 32 (fld w 16 5)) (Fin.ofNat 32 (fld w 11 5)) (bit w 10) (bit w 9) (Fin.ofNat 8 (fld w 6 3)) (bit w 5))
  else if fld w 0 5 = 12 ∧ fld w 24 2 = 0 then some (.vfunord (Fin.ofNat 8 (fld w 21 3)) (Fin.ofNat 32 (fld w 16 5)) (Fin.ofNat 32 (fld w 11 5)) (bit w 10) (bit w 9) (Fin.ofNat 8 (fld w 6 3)) (bit w 5))
  else none

/-- Words of OP 0x26 (R28, R30). -/
def decodeOp26 (w : Nat) : Option Instr :=
  if fld w 0 6 = 0 ∧ fld w 9 2 = 0 ∧ fld w 14 2 = 0 ∧ fld w 19 2 = 0 ∧ fld w 24 2 = 0 then some (.kand (Fin.ofNat 8 (fld w 21 3)) (Fin.ofNat 8 (fld w 16 3)) (Fin.ofNat 8 (fld w 11 3)) (Fin.ofNat 8 (fld w 6 3)))
  else if fld w 0 6 = 1 ∧ fld w 9 2 = 0 ∧ fld w 14 2 = 0 ∧ fld w 19 2 = 0 ∧ fld w 24 2 = 0 then some (.kor (Fin.ofNat 8 (fld w 21 3)) (Fin.ofNat 8 (fld w 16 3)) (Fin.ofNat 8 (fld w 11 3)) (Fin.ofNat 8 (fld w 6 3)))
  else if fld w 0 6 = 2 ∧ fld w 9 2 = 0 ∧ fld w 14 2 = 0 ∧ fld w 19 2 = 0 ∧ fld w 24 2 = 0 then some (.kxor (Fin.ofNat 8 (fld w 21 3)) (Fin.ofNat 8 (fld w 16 3)) (Fin.ofNat 8 (fld w 11 3)) (Fin.ofNat 8 (fld w 6 3)))
  else if fld w 0 6 = 3 ∧ fld w 9 2 = 0 ∧ fld w 14 2 = 0 ∧ fld w 19 2 = 0 ∧ fld w 24 2 = 0 then some (.kandn (Fin.ofNat 8 (fld w 21 3)) (Fin.ofNat 8 (fld w 16 3)) (Fin.ofNat 8 (fld w 11 3)) (Fin.ofNat 8 (fld w 6 3)))
  else if fld w 0 6 = 4 ∧ fld w 9 7 = 0 ∧ fld w 19 2 = 0 ∧ fld w 24 2 = 0 then some (.knot (Fin.ofNat 8 (fld w 21 3)) (Fin.ofNat 8 (fld w 16 3)) (Fin.ofNat 8 (fld w 6 3)))
  else if fld w 0 6 = 5 ∧ fld w 9 7 = 0 ∧ fld w 19 2 = 0 ∧ fld w 24 2 = 0 then some (.kmov (Fin.ofNat 8 (fld w 21 3)) (Fin.ofNat 8 (fld w 16 3)) (Fin.ofNat 8 (fld w 6 3)))
  else if fld w 0 6 = 6 ∧ fld w 9 12 = 0 ∧ fld w 24 2 = 0 then some (.kset (Fin.ofNat 8 (fld w 21 3)) (Fin.ofNat 8 (fld w 6 3)))
  else if fld w 0 6 = 7 ∧ fld w 9 12 = 0 ∧ fld w 24 2 = 0 then some (.kclr (Fin.ofNat 8 (fld w 21 3)) (Fin.ofNat 8 (fld w 6 3)))
  else if fld w 0 6 = 8 ∧ fld w 9 7 = 0 ∧ fld w 19 2 = 0 then some (.kpopc (Fin.ofNat 32 (fld w 21 5)) (Fin.ofNat 8 (fld w 16 3)) (Fin.ofNat 8 (fld w 6 3)))
  else if fld w 0 6 = 9 ∧ fld w 9 7 = 0 ∧ fld w 19 2 = 0 then some (.kfirst (Fin.ofNat 32 (fld w 21 5)) (Fin.ofNat 8 (fld w 16 3)) (Fin.ofNat 8 (fld w 6 3)))
  else if fld w 0 6 = 10 ∧ fld w 9 7 = 0 ∧ fld w 19 2 = 0 ∧ fld w 24 2 = 0 then some (.ksbf (Fin.ofNat 8 (fld w 21 3)) (Fin.ofNat 8 (fld w 16 3)) (Fin.ofNat 8 (fld w 6 3)))
  else if fld w 0 6 = 11 ∧ fld w 9 7 = 0 ∧ fld w 19 2 = 0 ∧ fld w 24 2 = 0 then some (.ksif (Fin.ofNat 8 (fld w 21 3)) (Fin.ofNat 8 (fld w 16 3)) (Fin.ofNat 8 (fld w 6 3)))
  else if fld w 0 6 = 12 ∧ fld w 9 7 = 0 ∧ fld w 19 2 = 0 ∧ fld w 24 2 = 0 then some (.ksof (Fin.ofNat 8 (fld w 21 3)) (Fin.ofNat 8 (fld w 16 3)) (Fin.ofNat 8 (fld w 6 3)))
  else none

/-- Words of OP 0x27 (R28, R30). -/
def decodeOp27 (w : Nat) : Option Instr :=
  if fld w 0 6 = 0 ∧ fld w 9 17 = 0 then some (.pushm (Fin.ofNat 8 (fld w 6 3)))
  else if fld w 0 6 = 1 ∧ fld w 9 17 = 0 then some (.elsem (Fin.ofNat 8 (fld w 6 3)))
  else if fld w 0 26 = 2 then some (.popm)
  else if fld w 0 6 = 3 ∧ fld w 9 17 = 0 then some (.kbreak (Fin.ofNat 8 (fld w 6 3)))
  else none

/-- Words of OP 0x28 (R28, R30). -/
def decodeOp28 (w : Nat) : Option Instr :=
  if fld w 16 5 = 0 ∧ fld w 24 2 = 0 then some (.region (Fin.ofNat 8 (fld w 21 3)) (.ofNat 16 (fld w 0 16)))
  else none

/-- Words of OP 0x29 (R28, R30). -/
def decodeOp29 (w : Nat) : Option Instr :=
  if fld w 0 6 = 0 then some (.vgather (Fin.ofNat 32 (fld w 21 5)) (Fin.ofNat 32 (fld w 16 5)) (Fin.ofNat 32 (fld w 11 5)) (bit w 10) (bit w 9) (Fin.ofNat 8 (fld w 6 3)))
  else if fld w 0 6 = 1 ∧ fld w 9 1 = 0 then some (.vslideup (Fin.ofNat 32 (fld w 21 5)) (Fin.ofNat 32 (fld w 16 5)) (Fin.ofNat 32 (fld w 11 5)) (bit w 10) (Fin.ofNat 8 (fld w 6 3)))
  else if fld w 0 6 = 2 ∧ fld w 9 1 = 0 then some (.vslidedn (Fin.ofNat 32 (fld w 21 5)) (Fin.ofNat 32 (fld w 16 5)) (Fin.ofNat 32 (fld w 11 5)) (bit w 10) (Fin.ofNat 8 (fld w 6 3)))
  else if fld w 0 6 = 3 ∧ fld w 9 1 = 0 then some (.vslide1up (Fin.ofNat 32 (fld w 21 5)) (Fin.ofNat 32 (fld w 16 5)) (Fin.ofNat 32 (fld w 11 5)) (bit w 10) (Fin.ofNat 8 (fld w 6 3)))
  else if fld w 0 6 = 4 ∧ fld w 9 1 = 0 then some (.vslide1dn (Fin.ofNat 32 (fld w 21 5)) (Fin.ofNat 32 (fld w 16 5)) (Fin.ofNat 32 (fld w 11 5)) (bit w 10) (Fin.ofNat 8 (fld w 6 3)))
  else if fld w 0 6 = 5 ∧ fld w 9 1 = 0 ∧ fld w 11 5 = 0 then some (.vcompress (Fin.ofNat 32 (fld w 21 5)) (Fin.ofNat 32 (fld w 16 5)) (bit w 10) (Fin.ofNat 8 (fld w 6 3)))
  else if fld w 0 6 = 6 ∧ fld w 9 1 = 0 ∧ fld w 11 5 = 0 then some (.vexpand (Fin.ofNat 32 (fld w 21 5)) (Fin.ofNat 32 (fld w 16 5)) (bit w 10) (Fin.ofNat 8 (fld w 6 3)))
  else if fld w 0 6 = 7 ∧ fld w 9 12 = 0 then some (.viota (Fin.ofNat 32 (fld w 21 5)) (Fin.ofNat 8 (fld w 6 3)))
  else if fld w 0 6 = 8 ∧ fld w 9 1 = 0 then some (.vbcast (Fin.ofNat 32 (fld w 21 5)) (Fin.ofNat 32 (fld w 16 5)) (Fin.ofNat 32 (fld w 11 5)) (bit w 10) (Fin.ofNat 8 (fld w 6 3)))
  else if fld w 0 10 = 9 then some (.vext (Fin.ofNat 32 (fld w 21 5)) (Fin.ofNat 32 (fld w 16 5)) (Fin.ofNat 32 (fld w 11 5)) (bit w 10))
  else if fld w 0 6 = 10 ∧ fld w 9 2 = 0 then some (.vins (Fin.ofNat 32 (fld w 21 5)) (Fin.ofNat 32 (fld w 16 5)) (Fin.ofNat 32 (fld w 11 5)) (Fin.ofNat 8 (fld w 6 3)))
  else if fld w 0 6 = 11 ∧ fld w 9 1 = 0 ∧ fld w 11 5 = 0 then some (.vconflict (Fin.ofNat 32 (fld w 21 5)) (Fin.ofNat 32 (fld w 16 5)) (bit w 10) (Fin.ofNat 8 (fld w 6 3)))
  else none

/-- Words of OP 0x2A (R28, R30). -/
def decodeOp2A (w : Nat) : Option Instr :=
  if fld w 0 6 = 0 then some (.vredSum (Fin.ofNat 32 (fld w 21 5)) (Fin.ofNat 32 (fld w 16 5)) (Fin.ofNat 32 (fld w 11 5)) (bit w 10) (bit w 9) (Fin.ofNat 8 (fld w 6 3)))
  else if fld w 0 6 = 1 then some (.vredMin (Fin.ofNat 32 (fld w 21 5)) (Fin.ofNat 32 (fld w 16 5)) (Fin.ofNat 32 (fld w 11 5)) (bit w 10) (bit w 9) (Fin.ofNat 8 (fld w 6 3)))
  else if fld w 0 6 = 2 then some (.vredMax (Fin.ofNat 32 (fld w 21 5)) (Fin.ofNat 32 (fld w 16 5)) (Fin.ofNat 32 (fld w 11 5)) (bit w 10) (bit w 9) (Fin.ofNat 8 (fld w 6 3)))
  else if fld w 0 6 = 3 then some (.vredMinu (Fin.ofNat 32 (fld w 21 5)) (Fin.ofNat 32 (fld w 16 5)) (Fin.ofNat 32 (fld w 11 5)) (bit w 10) (bit w 9) (Fin.ofNat 8 (fld w 6 3)))
  else if fld w 0 6 = 4 then some (.vredMaxu (Fin.ofNat 32 (fld w 21 5)) (Fin.ofNat 32 (fld w 16 5)) (Fin.ofNat 32 (fld w 11 5)) (bit w 10) (bit w 9) (Fin.ofNat 8 (fld w 6 3)))
  else if fld w 0 6 = 5 then some (.vredAnd (Fin.ofNat 32 (fld w 21 5)) (Fin.ofNat 32 (fld w 16 5)) (Fin.ofNat 32 (fld w 11 5)) (bit w 10) (bit w 9) (Fin.ofNat 8 (fld w 6 3)))
  else if fld w 0 6 = 6 then some (.vredOr (Fin.ofNat 32 (fld w 21 5)) (Fin.ofNat 32 (fld w 16 5)) (Fin.ofNat 32 (fld w 11 5)) (bit w 10) (bit w 9) (Fin.ofNat 8 (fld w 6 3)))
  else if fld w 0 6 = 7 then some (.vredXor (Fin.ofNat 32 (fld w 21 5)) (Fin.ofNat 32 (fld w 16 5)) (Fin.ofNat 32 (fld w 11 5)) (bit w 10) (bit w 9) (Fin.ofNat 8 (fld w 6 3)))
  else if fld w 0 6 = 8 then some (.vredFsum (Fin.ofNat 32 (fld w 21 5)) (Fin.ofNat 32 (fld w 16 5)) (Fin.ofNat 32 (fld w 11 5)) (bit w 10) (bit w 9) (Fin.ofNat 8 (fld w 6 3)))
  else if fld w 0 6 = 9 then some (.vredFmin (Fin.ofNat 32 (fld w 21 5)) (Fin.ofNat 32 (fld w 16 5)) (Fin.ofNat 32 (fld w 11 5)) (bit w 10) (bit w 9) (Fin.ofNat 8 (fld w 6 3)))
  else if fld w 0 6 = 10 then some (.vredFmax (Fin.ofNat 32 (fld w 21 5)) (Fin.ofNat 32 (fld w 16 5)) (Fin.ofNat 32 (fld w 11 5)) (bit w 10) (bit w 9) (Fin.ofNat 8 (fld w 6 3)))
  else if fld w 0 6 = 11 ∧ fld w 9 1 = 0 ∧ fld w 11 5 = 0 then some (.vscanSum (Fin.ofNat 32 (fld w 21 5)) (Fin.ofNat 32 (fld w 16 5)) (bit w 10) (Fin.ofNat 8 (fld w 6 3)))
  else if fld w 0 6 = 12 ∧ fld w 9 1 = 0 ∧ fld w 11 5 = 0 then some (.vscanFsum (Fin.ofNat 32 (fld w 21 5)) (Fin.ofNat 32 (fld w 16 5)) (bit w 10) (Fin.ofNat 8 (fld w 6 3)))
  else none

/-- Words of OP 0x2B (R28, R30). -/
def decodeOp2B (w : Nat) : Option Instr :=
  if fld w 5 1 = 0 ∧ fld w 9 1 = 0 ∧ fld w 11 5 = 0 then some (.vcvt (Fin.ofNat 32 (fld w 21 5)) (Fin.ofNat 32 (fld w 16 5)) (bit w 10) (Fin.ofNat 8 (fld w 6 3)) (bit w 4) (Fin.ofNat 16 (fld w 0 4)))
  else none

/-- Words of OP 0x2C (R28, R30). -/
def decodeOp2C (w : Nat) : Option Instr :=
  if fld w 0 1 = 0 ∧ fld w 5 2 = 0 ∧ fld w 10 6 = 0 then some (.vldUnit (Fin.ofNat 32 (fld w 21 5)) (Fin.ofNat 32 (fld w 16 5)) (Fin.ofNat 8 (fld w 7 3)) (.ofCode (fld w 3 2)) (Fin.ofNat 4 (fld w 1 2)))
  else if fld w 0 1 = 0 ∧ fld w 5 2 = 1 ∧ fld w 10 1 = 0 then some (.vldStrided (Fin.ofNat 32 (fld w 21 5)) (Fin.ofNat 32 (fld w 16 5)) (Fin.ofNat 32 (fld w 11 5)) (Fin.ofNat 8 (fld w 7 3)) (.ofCode (fld w 3 2)) (Fin.ofNat 4 (fld w 1 2)))
  else if fld w 0 1 = 0 ∧ fld w 5 2 = 2 then some (.vldIndexed (Fin.ofNat 32 (fld w 21 5)) (Fin.ofNat 32 (fld w 16 5)) (Fin.ofNat 32 (fld w 11 5)) (bit w 10) (Fin.ofNat 8 (fld w 7 3)) (.ofCode (fld w 3 2)) (Fin.ofNat 4 (fld w 1 2)))
  else if fld w 0 1 = 0 ∧ fld w 5 2 = 3 ∧ fld w 10 1 = 0 then some (.vldSegment (Fin.ofNat 32 (fld w 21 5)) (Fin.ofNat 32 (fld w 16 5)) (Fin.ofNat 32 (fld w 11 5)) (Fin.ofNat 8 (fld w 7 3)) (.ofCode (fld w 3 2)) (Fin.ofNat 4 (fld w 1 2)))
  else none

/-- Words of OP 0x2D (R28, R30). -/
def decodeOp2D (w : Nat) : Option Instr :=
  if fld w 0 1 = 0 ∧ fld w 5 2 = 0 ∧ fld w 10 6 = 0 then some (.vstUnit (Fin.ofNat 32 (fld w 21 5)) (Fin.ofNat 32 (fld w 16 5)) (Fin.ofNat 8 (fld w 7 3)) (.ofCode (fld w 3 2)) (Fin.ofNat 4 (fld w 1 2)))
  else if fld w 0 1 = 0 ∧ fld w 5 2 = 1 ∧ fld w 10 1 = 0 then some (.vstStrided (Fin.ofNat 32 (fld w 21 5)) (Fin.ofNat 32 (fld w 16 5)) (Fin.ofNat 32 (fld w 11 5)) (Fin.ofNat 8 (fld w 7 3)) (.ofCode (fld w 3 2)) (Fin.ofNat 4 (fld w 1 2)))
  else if fld w 0 1 = 0 ∧ fld w 5 2 = 2 then some (.vstIndexed (Fin.ofNat 32 (fld w 21 5)) (Fin.ofNat 32 (fld w 16 5)) (Fin.ofNat 32 (fld w 11 5)) (bit w 10) (Fin.ofNat 8 (fld w 7 3)) (.ofCode (fld w 3 2)) (Fin.ofNat 4 (fld w 1 2)))
  else if fld w 0 1 = 0 ∧ fld w 5 2 = 3 ∧ fld w 10 1 = 0 then some (.vstSegment (Fin.ofNat 32 (fld w 21 5)) (Fin.ofNat 32 (fld w 16 5)) (Fin.ofNat 32 (fld w 11 5)) (Fin.ofNat 8 (fld w 7 3)) (.ofCode (fld w 3 2)) (Fin.ofNat 4 (fld w 1 2)))
  else none

/-- Words of OP 0x2E (R28, R30). -/
def decodeOp2E (w : Nat) : Option Instr :=
  if fld w 0 1 = 0 ∧ fld w 5 2 = 0 ∧ fld w 10 6 = 0 then some (.vldff (Fin.ofNat 32 (fld w 21 5)) (Fin.ofNat 32 (fld w 16 5)) (Fin.ofNat 8 (fld w 7 3)) (.ofCode (fld w 3 2)) (Fin.ofNat 4 (fld w 1 2)))
  else if fld w 0 3 = 0 ∧ fld w 5 11 = 1 then some (.vldw (Fin.ofNat 32 (fld w 21 5)) (Fin.ofNat 32 (fld w 16 5)) (.ofCode (fld w 3 2)))
  else if fld w 0 3 = 0 ∧ fld w 5 11 = 2 then some (.vstw (Fin.ofNat 32 (fld w 21 5)) (Fin.ofNat 32 (fld w 16 5)) (.ofCode (fld w 3 2)))
  else if fld w 0 1 = 0 ∧ fld w 5 2 = 3 ∧ fld w 10 1 = 0 then some (.vldslide (Fin.ofNat 32 (fld w 21 5)) (Fin.ofNat 32 (fld w 16 5)) (Fin.ofNat 32 (fld w 11 5)) (Fin.ofNat 8 (fld w 7 3)) (.ofCode (fld w 3 2)) (Fin.ofNat 4 (fld w 1 2)))
  else none

/-- Words of OP 0x2F (R28, R30). -/
def decodeOp2F (w : Nat) : Option Instr :=
  if fld w 0 7 = 0 then some (.vamoswap (Fin.ofNat 32 (fld w 21 5)) (Fin.ofNat 32 (fld w 16 5)) (Fin.ofNat 32 (fld w 11 5)) (bit w 10) (Fin.ofNat 8 (fld w 7 3)))
  else if fld w 0 7 = 8 then some (.vamoadd (Fin.ofNat 32 (fld w 21 5)) (Fin.ofNat 32 (fld w 16 5)) (Fin.ofNat 32 (fld w 11 5)) (bit w 10) (Fin.ofNat 8 (fld w 7 3)))
  else if fld w 0 7 = 16 then some (.vamoand (Fin.ofNat 32 (fld w 21 5)) (Fin.ofNat 32 (fld w 16 5)) (Fin.ofNat 32 (fld w 11 5)) (bit w 10) (Fin.ofNat 8 (fld w 7 3)))
  else if fld w 0 7 = 24 then some (.vamoor (Fin.ofNat 32 (fld w 21 5)) (Fin.ofNat 32 (fld w 16 5)) (Fin.ofNat 32 (fld w 11 5)) (bit w 10) (Fin.ofNat 8 (fld w 7 3)))
  else if fld w 0 7 = 32 then some (.vamoxor (Fin.ofNat 32 (fld w 21 5)) (Fin.ofNat 32 (fld w 16 5)) (Fin.ofNat 32 (fld w 11 5)) (bit w 10) (Fin.ofNat 8 (fld w 7 3)))
  else if fld w 0 7 = 40 then some (.vamomin (Fin.ofNat 32 (fld w 21 5)) (Fin.ofNat 32 (fld w 16 5)) (Fin.ofNat 32 (fld w 11 5)) (bit w 10) (Fin.ofNat 8 (fld w 7 3)))
  else if fld w 0 7 = 48 then some (.vamomax (Fin.ofNat 32 (fld w 21 5)) (Fin.ofNat 32 (fld w 16 5)) (Fin.ofNat 32 (fld w 11 5)) (bit w 10) (Fin.ofNat 8 (fld w 7 3)))
  else if fld w 0 7 = 56 then some (.vamominu (Fin.ofNat 32 (fld w 21 5)) (Fin.ofNat 32 (fld w 16 5)) (Fin.ofNat 32 (fld w 11 5)) (bit w 10) (Fin.ofNat 8 (fld w 7 3)))
  else if fld w 0 7 = 64 then some (.vamomaxu (Fin.ofNat 32 (fld w 21 5)) (Fin.ofNat 32 (fld w 16 5)) (Fin.ofNat 32 (fld w 11 5)) (bit w 10) (Fin.ofNat 8 (fld w 7 3)))
  else if fld w 0 7 = 72 then some (.vamocas (Fin.ofNat 32 (fld w 21 5)) (Fin.ofNat 32 (fld w 16 5)) (Fin.ofNat 32 (fld w 11 5)) (bit w 10) (Fin.ofNat 8 (fld w 7 3)))
  else none

/-- Words of OP 0x30 (R28, R30). -/
def decodeOp30 (w : Nat) : Option Instr :=
  if fld w 0 16 = 0 ∧ fld w 21 5 = 0 then some (.yattach (Fin.ofNat 32 (fld w 16 5)))
  else if fld w 0 26 = 1 then some (.ydetach)
  else if fld w 0 16 = 2 ∧ fld w 21 5 = 0 then some (.yzero (Fin.ofNat 32 (fld w 16 5)))
  else if fld w 0 11 = 3 ∧ fld w 21 5 = 0 then some (.yldb (Fin.ofNat 32 (fld w 16 5)) (Fin.ofNat 32 (fld w 11 5)))
  else if fld w 0 11 = 4 ∧ fld w 21 5 = 0 then some (.ymma (Fin.ofNat 32 (fld w 16 5)) (Fin.ofNat 32 (fld w 11 5)))
  else if fld w 0 26 = 5 then some (.yrot)
  else if fld w 0 4 = 6 ∧ fld w 8 8 = 0 then some (.ydrain (Fin.ofNat 32 (fld w 21 5)) (Fin.ofNat 32 (fld w 16 5)) (Fin.ofNat 16 (fld w 4 4)))
  else if fld w 0 26 = 7 then some (.ywait)
  else none

/-- Words of OP 0x31 (R28, R30). -/
def decodeOp31 (w : Nat) : Option Instr :=
  if fld w 0 11 = 0 ∧ fld w 14 2 = 0 then some (.sbind (Fin.ofNat 32 (fld w 21 5)) (Fin.ofNat 32 (fld w 16 5)) (Fin.ofNat 8 (fld w 11 3)))
  else if fld w 0 11 = 1 ∧ fld w 14 12 = 0 then some (.sunbind (Fin.ofNat 8 (fld w 11 3)))
  else if fld w 0 16 = 2 then some (.scopy (Fin.ofNat 32 (fld w 21 5)) (Fin.ofNat 32 (fld w 16 5)))
  else if fld w 0 11 = 3 ∧ fld w 14 7 = 0 then some (.savail (Fin.ofNat 32 (fld w 21 5)) (Fin.ofNat 8 (fld w 11 3)))
  else none

/-- Words of OP 0x32 (R28, R30). -/
def decodeOp32 (w : Nat) : Option Instr :=
  if fld w 0 16 = 0 then some (.xall (Fin.ofNat 32 (fld w 21 5)) (Fin.ofNat 32 (fld w 16 5)))
  else if fld w 0 16 = 1 then some (.xred (Fin.ofNat 32 (fld w 21 5)) (Fin.ofNat 32 (fld w 16 5)))
  else none

/-- Words of OP 0x33 (R28, R30). -/
def decodeOp33 (w : Nat) : Option Instr :=
  if fld w 0 6 = 0 ∧ fld w 9 1 = 0 then some (.tex (Fin.ofNat 32 (fld w 21 5)) (Fin.ofNat 32 (fld w 16 5)) (Fin.ofNat 32 (fld w 11 5)) (bit w 10) (Fin.ofNat 8 (fld w 6 3)))
  else if fld w 0 21 = 1 then some (.span (Fin.ofNat 32 (fld w 21 5)))
  else if fld w 0 6 = 2 ∧ fld w 9 1 = 0 then some (.blend (Fin.ofNat 32 (fld w 21 5)) (Fin.ofNat 32 (fld w 16 5)) (Fin.ofNat 32 (fld w 11 5)) (bit w 10) (Fin.ofNat 8 (fld w 6 3)))
  else if fld w 0 6 = 3 ∧ fld w 9 1 = 0 ∧ fld w 24 2 = 0 then some (.hizq (Fin.ofNat 8 (fld w 21 3)) (Fin.ofNat 32 (fld w 16 5)) (Fin.ofNat 32 (fld w 11 5)) (bit w 10) (Fin.ofNat 8 (fld w 6 3)))
  else none

/-- Words of OP 0x34 (R28, R30). -/
def decodeOp34 (w : Nat) : Option Instr :=
  if fld w 0 6 = 0 then some (.gbox (Fin.ofNat 32 (fld w 21 5)) (Fin.ofNat 32 (fld w 16 5)) (Fin.ofNat 32 (fld w 11 5)) (bit w 10) (bit w 9) (Fin.ofNat 8 (fld w 6 3)))
  else if fld w 0 6 = 1 then some (.gtri (Fin.ofNat 32 (fld w 21 5)) (Fin.ofNat 32 (fld w 16 5)) (Fin.ofNat 32 (fld w 11 5)) (bit w 10) (bit w 9) (Fin.ofNat 8 (fld w 6 3)))
  else if fld w 0 6 = 2 ∧ fld w 9 1 = 0 then some (.gwalk (Fin.ofNat 32 (fld w 21 5)) (Fin.ofNat 32 (fld w 16 5)) (Fin.ofNat 32 (fld w 11 5)) (bit w 10) (Fin.ofNat 8 (fld w 6 3)))
  else if fld w 0 6 = 3 ∧ fld w 9 1 = 0 then some (.ghit (Fin.ofNat 32 (fld w 21 5)) (Fin.ofNat 32 (fld w 16 5)) (Fin.ofNat 32 (fld w 11 5)) (bit w 10) (Fin.ofNat 8 (fld w 6 3)))
  else if fld w 0 6 = 4 ∧ fld w 9 1 = 0 then some (.vmarch (Fin.ofNat 32 (fld w 21 5)) (Fin.ofNat 32 (fld w 16 5)) (Fin.ofNat 32 (fld w 11 5)) (bit w 10) (Fin.ofNat 8 (fld w 6 3)))
  else if fld w 0 6 = 5 ∧ fld w 9 1 = 0 then some (.vrand (Fin.ofNat 32 (fld w 21 5)) (Fin.ofNat 32 (fld w 16 5)) (Fin.ofNat 32 (fld w 11 5)) (bit w 10) (Fin.ofNat 8 (fld w 6 3)))
  else none

/-- The word's instruction by its major opcode; none for a reserved opcode or code (R28, R33). -/
def decodeRaw (w : Nat) : Option Instr :=
  match w / 67108864 with
  | 1 => decodeOp01 w
  | 2 => decodeOp02 w
  | 3 => decodeOp03 w
  | 4 => decodeOp04 w
  | 5 => decodeOp05 w
  | 6 => decodeOp06 w
  | 7 => decodeOp07 w
  | 8 => decodeOp08 w
  | 9 => decodeOp09 w
  | 10 => decodeOp0A w
  | 11 => decodeOp0B w
  | 12 => decodeOp0C w
  | 13 => decodeOp0D w
  | 14 => decodeOp0E w
  | 15 => decodeOp0F w
  | 16 => decodeOp10 w
  | 17 => decodeOp11 w
  | 18 => decodeOp12 w
  | 19 => decodeOp13 w
  | 20 => decodeOp14 w
  | 21 => decodeOp15 w
  | 22 => decodeOp16 w
  | 23 => decodeOp17 w
  | 24 => decodeOp18 w
  | 25 => decodeOp19 w
  | 26 => decodeOp1A w
  | 27 => decodeOp1B w
  | 32 => decodeOp20 w
  | 33 => decodeOp21 w
  | 34 => decodeOp22 w
  | 35 => decodeOp23 w
  | 36 => decodeOp24 w
  | 37 => decodeOp25 w
  | 38 => decodeOp26 w
  | 39 => decodeOp27 w
  | 40 => decodeOp28 w
  | 41 => decodeOp29 w
  | 42 => decodeOp2A w
  | 43 => decodeOp2B w
  | 44 => decodeOp2C w
  | 45 => decodeOp2D w
  | 46 => decodeOp2E w
  | 47 => decodeOp2F w
  | 48 => decodeOp30 w
  | 49 => decodeOp31 w
  | 50 => decodeOp32 w
  | 51 => decodeOp33 w
  | 52 => decodeOp34 w
  | _ => none

/-- Why bytes are no instruction (R33). -/
inductive Reject where
  /-- Fewer than four bytes were given. -/
  | short
  /-- The major opcode is reserved (R28). -/
  | reservedOpcode
  /-- No row of R28 has this function code with these zero fields (R28, R30). -/
  | reservedCode
  /-- A field holds a value that R22, R27, R29, R30 or R31 forbids. -/
  | illegalField
  deriving DecidableEq, Repr

/-- The major opcodes of R28. -/
def opcodeListed (op : Nat) : Bool :=
  (1 ≤ op && op ≤ 0x1B) || (0x20 ≤ op && op ≤ 0x34)

/-- The instruction a word stands for (R28 to R33), or why it is none. -/
def decode (w : Nat) : Except Reject Instr :=
  if opcodeListed (w / 67108864) then
    match decodeRaw w with
    | some i => if i.wf then .ok i else .error .illegalField
    | none => .error .reservedCode
  else .error .reservedOpcode

/-- The word of four bytes, least significant first (R11, R18). -/
def wordOfBytes (b0 b1 b2 b3 : Byte) : Nat :=
  b0.toNat + 256 * (b1.toNat + 256 * (b2.toNat + 256 * b3.toNat))

/-- The instruction that a byte stream begins with, and the rest of the stream (R18). -/
def decodeBytes : List Byte → Except Reject (Instr × List Byte)
  | b0 :: b1 :: b2 :: b3 :: rest => (decode (wordOfBytes b0 b1 b2 b3)).map fun i => (i, rest)
  | _ => .error .short

/-- The instruction this decoder reads from a word given as the opcode table numbers its bits. -/
def decodeTableWord (nbits w : Nat) : Option Instr :=
  let v := w % 2 ^ nbits
  match decodeBytes [.ofNat 8 v, .ofNat 8 (v / 256), .ofNat 8 (v / 65536), .ofNat 8 (v / 16777216)] with
  | .ok (i, _) => some i
  | .error _ => none

/-- The word of an instruction, from the encodings of R20 and R28; none for an event, which has no word. -/
def encode : Instr → Option Nat
  | .add d a b w => some (67108864 + d.val * 2097152 + a.val * 65536 + b.val * 2048 + w.toNat * 64)
  | .sub d a b w => some (67108865 + d.val * 2097152 + a.val * 65536 + b.val * 2048 + w.toNat * 64)
  | .and d a b => some (67108866 + d.val * 2097152 + a.val * 65536 + b.val * 2048)
  | .or d a b => some (67108867 + d.val * 2097152 + a.val * 65536 + b.val * 2048)
  | .xor d a b => some (67108868 + d.val * 2097152 + a.val * 65536 + b.val * 2048)
  | .andn d a b => some (67108869 + d.val * 2097152 + a.val * 65536 + b.val * 2048)
  | .sll d a b w => some (67108870 + d.val * 2097152 + a.val * 65536 + b.val * 2048 + w.toNat * 64)
  | .srl d a b w => some (67108871 + d.val * 2097152 + a.val * 65536 + b.val * 2048 + w.toNat * 64)
  | .sra d a b w => some (67108872 + d.val * 2097152 + a.val * 65536 + b.val * 2048 + w.toNat * 64)
  | .slt d a b => some (67108873 + d.val * 2097152 + a.val * 65536 + b.val * 2048)
  | .sltu d a b => some (67108874 + d.val * 2097152 + a.val * 65536 + b.val * 2048)
  | .min d a b => some (67108875 + d.val * 2097152 + a.val * 65536 + b.val * 2048)
  | .max d a b => some (67108876 + d.val * 2097152 + a.val * 65536 + b.val * 2048)
  | .minu d a b => some (67108877 + d.val * 2097152 + a.val * 65536 + b.val * 2048)
  | .maxu d a b => some (67108878 + d.val * 2097152 + a.val * 65536 + b.val * 2048)
  | .mul d a b w => some (67108879 + d.val * 2097152 + a.val * 65536 + b.val * 2048 + w.toNat * 64)
  | .mulh d a b => some (67108880 + d.val * 2097152 + a.val * 65536 + b.val * 2048)
  | .mulhu d a b => some (67108881 + d.val * 2097152 + a.val * 65536 + b.val * 2048)
  | .div d a b w => some (67108882 + d.val * 2097152 + a.val * 65536 + b.val * 2048 + w.toNat * 64)
  | .divu d a b w => some (67108883 + d.val * 2097152 + a.val * 65536 + b.val * 2048 + w.toNat * 64)
  | .rem d a b w => some (67108884 + d.val * 2097152 + a.val * 65536 + b.val * 2048 + w.toNat * 64)
  | .remu d a b w => some (67108885 + d.val * 2097152 + a.val * 65536 + b.val * 2048 + w.toNat * 64)
  | .clz d a => some (67108886 + d.val * 2097152 + a.val * 65536)
  | .ctz d a => some (67108887 + d.val * 2097152 + a.val * 65536)
  | .popc d a => some (67108888 + d.val * 2097152 + a.val * 65536)
  | .addi d a i => some (134217728 + d.val * 2097152 + a.val * 65536 + i.toNat)
  | .andi d a i => some (201326592 + d.val * 2097152 + a.val * 65536 + i.toNat)
  | .ori d a i => some (268435456 + d.val * 2097152 + a.val * 65536 + i.toNat)
  | .xori d a i => some (335544320 + d.val * 2097152 + a.val * 65536 + i.toNat)
  | .slti d a i => some (402653184 + d.val * 2097152 + a.val * 65536 + i.toNat)
  | .sltiu d a i => some (469762048 + d.val * 2097152 + a.val * 65536 + i.toNat)
  | .slli d a w s => some (536870912 + d.val * 2097152 + a.val * 65536 + w.toNat * 64 + s.val)
  | .srli d a w s => some (536887296 + d.val * 2097152 + a.val * 65536 + w.toNat * 64 + s.val)
  | .srai d a w s => some (536903680 + d.val * 2097152 + a.val * 65536 + w.toNat * 64 + s.val)
  | .rori d a w s => some (536920064 + d.val * 2097152 + a.val * 65536 + w.toNat * 64 + s.val)
  | .lui d i => some (603979776 + d.val * 2097152 + i.toNat)
  | .addpc d i => some (671088640 + d.val * 2097152 + i.toNat)
  | .jal d o => some (738197504 + d.val * 2097152 + o.toNat)
  | .jalr d a i => some (805306368 + d.val * 2097152 + a.val * 65536 + i.toNat)
  | .beq a b o => some (872415232 + a.val * 2097152 + b.val * 65536 + o.toNat)
  | .bne a b o => some (939524096 + a.val * 2097152 + b.val * 65536 + o.toNat)
  | .blt a b o => some (1006632960 + a.val * 2097152 + b.val * 65536 + o.toNat)
  | .bge a b o => some (1073741824 + a.val * 2097152 + b.val * 65536 + o.toNat)
  | .bltu a b o => some (1140850688 + a.val * 2097152 + b.val * 65536 + o.toNat)
  | .bgeu a b o => some (1207959552 + a.val * 2097152 + b.val * 65536 + o.toNat)
  | .lb d a p i => some (1275068416 + d.val * 2097152 + a.val * 65536 + p.code * 16384 + i.toNat)
  | .lbu d a p i => some (1275070464 + d.val * 2097152 + a.val * 65536 + p.code * 16384 + i.toNat)
  | .lh d a p i => some (1275072512 + d.val * 2097152 + a.val * 65536 + p.code * 16384 + i.toNat)
  | .lhu d a p i => some (1275074560 + d.val * 2097152 + a.val * 65536 + p.code * 16384 + i.toNat)
  | .lw d a p i => some (1275076608 + d.val * 2097152 + a.val * 65536 + p.code * 16384 + i.toNat)
  | .lwu d a p i => some (1275078656 + d.val * 2097152 + a.val * 65536 + p.code * 16384 + i.toNat)
  | .ld d a p i => some (1275080704 + d.val * 2097152 + a.val * 65536 + p.code * 16384 + i.toNat)
  | .sb d a p i => some (1342177280 + d.val * 2097152 + a.val * 65536 + p.code * 16384 + i.toNat)
  | .sh d a p i => some (1342181376 + d.val * 2097152 + a.val * 65536 + p.code * 16384 + i.toNat)
  | .sw d a p i => some (1342185472 + d.val * 2097152 + a.val * 65536 + p.code * 16384 + i.toNat)
  | .sd d a p i => some (1342189568 + d.val * 2097152 + a.val * 65536 + p.code * 16384 + i.toNat)
  | .amoswap d a b s l q f w => some (1409286144 + d.val * 2097152 + a.val * 65536 + b.val * 2048 + s.val * 256 + l.toNat * 128 + q.toNat * 64 + f.toNat * 32 + w.toNat * 16)
  | .amoadd d a b s l q f w => some (1409286145 + d.val * 2097152 + a.val * 65536 + b.val * 2048 + s.val * 256 + l.toNat * 128 + q.toNat * 64 + f.toNat * 32 + w.toNat * 16)
  | .amoand d a b s l q f w => some (1409286146 + d.val * 2097152 + a.val * 65536 + b.val * 2048 + s.val * 256 + l.toNat * 128 + q.toNat * 64 + f.toNat * 32 + w.toNat * 16)
  | .amoor d a b s l q f w => some (1409286147 + d.val * 2097152 + a.val * 65536 + b.val * 2048 + s.val * 256 + l.toNat * 128 + q.toNat * 64 + f.toNat * 32 + w.toNat * 16)
  | .amoxor d a b s l q f w => some (1409286148 + d.val * 2097152 + a.val * 65536 + b.val * 2048 + s.val * 256 + l.toNat * 128 + q.toNat * 64 + f.toNat * 32 + w.toNat * 16)
  | .amomin d a b s l q f w => some (1409286149 + d.val * 2097152 + a.val * 65536 + b.val * 2048 + s.val * 256 + l.toNat * 128 + q.toNat * 64 + f.toNat * 32 + w.toNat * 16)
  | .amomax d a b s l q f w => some (1409286150 + d.val * 2097152 + a.val * 65536 + b.val * 2048 + s.val * 256 + l.toNat * 128 + q.toNat * 64 + f.toNat * 32 + w.toNat * 16)
  | .amominu d a b s l q f w => some (1409286151 + d.val * 2097152 + a.val * 65536 + b.val * 2048 + s.val * 256 + l.toNat * 128 + q.toNat * 64 + f.toNat * 32 + w.toNat * 16)
  | .amomaxu d a b s l q f w => some (1409286152 + d.val * 2097152 + a.val * 65536 + b.val * 2048 + s.val * 256 + l.toNat * 128 + q.toNat * 64 + f.toNat * 32 + w.toNat * 16)
  | .amocas d a b s l q f w => some (1409286153 + d.val * 2097152 + a.val * 65536 + b.val * 2048 + s.val * 256 + l.toNat * 128 + q.toNat * 64 + f.toNat * 32 + w.toNat * 16)
  | .fence l q s t => some (1476395008 + l.toNat * 32 + q.toNat * 16 + s.code * 4 + t.code)
  | .cinv a i => some (1543503872 + a.val * 65536 + i.toNat)
  | .cinvI a i => some (1543505920 + a.val * 65536 + i.toNat)
  | .cwb a i => some (1545601024 + a.val * 65536 + i.toNat)
  | .czero a i => some (1547698176 + a.val * 65536 + i.toNat)
  | .pref a p w i => some (1549795328 + a.val * 65536 + p.code * 16384 + w.toNat * 2048 + i.toNat)
  | .csrr d n => some (1610612736 + d.val * 2097152 + n.toNat)
  | .csrw d a n => some (1610616832 + d.val * 2097152 + a.val * 65536 + n.toNat)
  | .csrs d a n => some (1610620928 + d.val * 2097152 + a.val * 65536 + n.toNat)
  | .csrc d a n => some (1610625024 + d.val * 2097152 + a.val * 65536 + n.toNat)
  | .csrwi d i n => some (1610629120 + d.val * 2097152 + i.toNat * 65536 + n.toNat)
  | .csrsi d i n => some (1610633216 + d.val * 2097152 + i.toNat * 65536 + n.toNat)
  | .csrci d i n => some (1610637312 + d.val * 2097152 + i.toNat * 65536 + n.toNat)
  | .ecall => some (1677721600)
  | .ebreak => some (1677721601)
  | .tret => some (1677721602)
  | .wfi => some (1677721603)
  | .sfence a b => some (1677721604 + a.val * 65536 + b.val * 2048)
  | .yield => some (1677721605)
  | .halt => some (1677721606)
  | .thaw a => some (1677721607 + a.val * 65536)
  | .ipop d b => some (1744830464 + d.val * 2097152 + b.val * 2048)
  | .ipopnb d b => some (1744830465 + d.val * 2097152 + b.val * 2048)
  | .wmbind a b => some (1744830466 + a.val * 65536 + b.val * 2048)
  | .wmpub a b => some (1744830467 + a.val * 65536 + b.val * 2048)
  | .wmread d a => some (1744830468 + d.val * 2097152 + a.val * 65536)
  | .pfx v n p c => some (1811939328 + v.toNat * 33554432 + n.toNat * 16777216 + p.val * 524288 + c.val * 16384)
  | .vsetl d a g e => some (2147483648 + d.val * 2097152 + a.val * 65536 + g.val * 8 + e.val)
  | .vadd d a b x y k => some (2214592512 + d.val * 2097152 + a.val * 65536 + b.val * 2048 + x.toNat * 1024 + y.toNat * 512 + k.val * 64)
  | .vsub d a b x y k => some (2214592513 + d.val * 2097152 + a.val * 65536 + b.val * 2048 + x.toNat * 1024 + y.toNat * 512 + k.val * 64)
  | .vand d a b x y k => some (2214592514 + d.val * 2097152 + a.val * 65536 + b.val * 2048 + x.toNat * 1024 + y.toNat * 512 + k.val * 64)
  | .vor d a b x y k => some (2214592515 + d.val * 2097152 + a.val * 65536 + b.val * 2048 + x.toNat * 1024 + y.toNat * 512 + k.val * 64)
  | .vxor d a b x y k => some (2214592516 + d.val * 2097152 + a.val * 65536 + b.val * 2048 + x.toNat * 1024 + y.toNat * 512 + k.val * 64)
  | .vandn d a b x y k => some (2214592517 + d.val * 2097152 + a.val * 65536 + b.val * 2048 + x.toNat * 1024 + y.toNat * 512 + k.val * 64)
  | .vsll d a b x y k => some (2214592518 + d.val * 2097152 + a.val * 65536 + b.val * 2048 + x.toNat * 1024 + y.toNat * 512 + k.val * 64)
  | .vsrl d a b x y k => some (2214592519 + d.val * 2097152 + a.val * 65536 + b.val * 2048 + x.toNat * 1024 + y.toNat * 512 + k.val * 64)
  | .vsra d a b x y k => some (2214592520 + d.val * 2097152 + a.val * 65536 + b.val * 2048 + x.toNat * 1024 + y.toNat * 512 + k.val * 64)
  | .vmin d a b x y k => some (2214592521 + d.val * 2097152 + a.val * 65536 + b.val * 2048 + x.toNat * 1024 + y.toNat * 512 + k.val * 64)
  | .vmax d a b x y k => some (2214592522 + d.val * 2097152 + a.val * 65536 + b.val * 2048 + x.toNat * 1024 + y.toNat * 512 + k.val * 64)
  | .vminu d a b x y k => some (2214592523 + d.val * 2097152 + a.val * 65536 + b.val * 2048 + x.toNat * 1024 + y.toNat * 512 + k.val * 64)
  | .vmaxu d a b x y k => some (2214592524 + d.val * 2097152 + a.val * 65536 + b.val * 2048 + x.toNat * 1024 + y.toNat * 512 + k.val * 64)
  | .vmul d a b x y k => some (2214592525 + d.val * 2097152 + a.val * 65536 + b.val * 2048 + x.toNat * 1024 + y.toNat * 512 + k.val * 64)
  | .vmulh d a b x y k => some (2214592526 + d.val * 2097152 + a.val * 65536 + b.val * 2048 + x.toNat * 1024 + y.toNat * 512 + k.val * 64)
  | .vmulhu d a b x y k => some (2214592527 + d.val * 2097152 + a.val * 65536 + b.val * 2048 + x.toNat * 1024 + y.toNat * 512 + k.val * 64)
  | .vdiv d a b x y k => some (2214592528 + d.val * 2097152 + a.val * 65536 + b.val * 2048 + x.toNat * 1024 + y.toNat * 512 + k.val * 64)
  | .vdivu d a b x y k => some (2214592529 + d.val * 2097152 + a.val * 65536 + b.val * 2048 + x.toNat * 1024 + y.toNat * 512 + k.val * 64)
  | .vrem d a b x y k => some (2214592530 + d.val * 2097152 + a.val * 65536 + b.val * 2048 + x.toNat * 1024 + y.toNat * 512 + k.val * 64)
  | .vremu d a b x y k => some (2214592531 + d.val * 2097152 + a.val * 65536 + b.val * 2048 + x.toNat * 1024 + y.toNat * 512 + k.val * 64)
  | .vmacc d a b x y k => some (2214592532 + d.val * 2097152 + a.val * 65536 + b.val * 2048 + x.toNat * 1024 + y.toNat * 512 + k.val * 64)
  | .vsadd d a b x y k => some (2214592533 + d.val * 2097152 + a.val * 65536 + b.val * 2048 + x.toNat * 1024 + y.toNat * 512 + k.val * 64)
  | .vsaddu d a b x y k => some (2214592534 + d.val * 2097152 + a.val * 65536 + b.val * 2048 + x.toNat * 1024 + y.toNat * 512 + k.val * 64)
  | .vssub d a b x y k => some (2214592535 + d.val * 2097152 + a.val * 65536 + b.val * 2048 + x.toNat * 1024 + y.toNat * 512 + k.val * 64)
  | .vssubu d a b x y k => some (2214592536 + d.val * 2097152 + a.val * 65536 + b.val * 2048 + x.toNat * 1024 + y.toNat * 512 + k.val * 64)
  | .vabsd d a b x y k => some (2214592537 + d.val * 2097152 + a.val * 65536 + b.val * 2048 + x.toNat * 1024 + y.toNat * 512 + k.val * 64)
  | .vclz d a x k => some (2214592538 + d.val * 2097152 + a.val * 65536 + x.toNat * 1024 + k.val * 64)
  | .vctz d a x k => some (2214592539 + d.val * 2097152 + a.val * 65536 + x.toNat * 1024 + k.val * 64)
  | .vpopc d a x k => some (2214592540 + d.val * 2097152 + a.val * 65536 + x.toNat * 1024 + k.val * 64)
  | .vmv d a x k => some (2214592541 + d.val * 2097152 + a.val * 65536 + x.toNat * 1024 + k.val * 64)
  | .vaddX d a b x k => some (2281701376 + d.val * 2097152 + a.val * 65536 + b.val * 2048 + x.toNat * 1024 + k.val * 64)
  | .vsubX d a b x k => some (2281701377 + d.val * 2097152 + a.val * 65536 + b.val * 2048 + x.toNat * 1024 + k.val * 64)
  | .vandX d a b x k => some (2281701378 + d.val * 2097152 + a.val * 65536 + b.val * 2048 + x.toNat * 1024 + k.val * 64)
  | .vorX d a b x k => some (2281701379 + d.val * 2097152 + a.val * 65536 + b.val * 2048 + x.toNat * 1024 + k.val * 64)
  | .vxorX d a b x k => some (2281701380 + d.val * 2097152 + a.val * 65536 + b.val * 2048 + x.toNat * 1024 + k.val * 64)
  | .vandnX d a b x k => some (2281701381 + d.val * 2097152 + a.val * 65536 + b.val * 2048 + x.toNat * 1024 + k.val * 64)
  | .vsllX d a b x k => some (2281701382 + d.val * 2097152 + a.val * 65536 + b.val * 2048 + x.toNat * 1024 + k.val * 64)
  | .vsrlX d a b x k => some (2281701383 + d.val * 2097152 + a.val * 65536 + b.val * 2048 + x.toNat * 1024 + k.val * 64)
  | .vsraX d a b x k => some (2281701384 + d.val * 2097152 + a.val * 65536 + b.val * 2048 + x.toNat * 1024 + k.val * 64)
  | .vminX d a b x k => some (2281701385 + d.val * 2097152 + a.val * 65536 + b.val * 2048 + x.toNat * 1024 + k.val * 64)
  | .vmaxX d a b x k => some (2281701386 + d.val * 2097152 + a.val * 65536 + b.val * 2048 + x.toNat * 1024 + k.val * 64)
  | .vminuX d a b x k => some (2281701387 + d.val * 2097152 + a.val * 65536 + b.val * 2048 + x.toNat * 1024 + k.val * 64)
  | .vmaxuX d a b x k => some (2281701388 + d.val * 2097152 + a.val * 65536 + b.val * 2048 + x.toNat * 1024 + k.val * 64)
  | .vmulX d a b x k => some (2281701389 + d.val * 2097152 + a.val * 65536 + b.val * 2048 + x.toNat * 1024 + k.val * 64)
  | .vmulhX d a b x k => some (2281701390 + d.val * 2097152 + a.val * 65536 + b.val * 2048 + x.toNat * 1024 + k.val * 64)
  | .vmulhuX d a b x k => some (2281701391 + d.val * 2097152 + a.val * 65536 + b.val * 2048 + x.toNat * 1024 + k.val * 64)
  | .vdivX d a b x k => some (2281701392 + d.val * 2097152 + a.val * 65536 + b.val * 2048 + x.toNat * 1024 + k.val * 64)
  | .vdivuX d a b x k => some (2281701393 + d.val * 2097152 + a.val * 65536 + b.val * 2048 + x.toNat * 1024 + k.val * 64)
  | .vremX d a b x k => some (2281701394 + d.val * 2097152 + a.val * 65536 + b.val * 2048 + x.toNat * 1024 + k.val * 64)
  | .vremuX d a b x k => some (2281701395 + d.val * 2097152 + a.val * 65536 + b.val * 2048 + x.toNat * 1024 + k.val * 64)
  | .vmaccX d a b x k => some (2281701396 + d.val * 2097152 + a.val * 65536 + b.val * 2048 + x.toNat * 1024 + k.val * 64)
  | .vsaddX d a b x k => some (2281701397 + d.val * 2097152 + a.val * 65536 + b.val * 2048 + x.toNat * 1024 + k.val * 64)
  | .vsadduX d a b x k => some (2281701398 + d.val * 2097152 + a.val * 65536 + b.val * 2048 + x.toNat * 1024 + k.val * 64)
  | .vssubX d a b x k => some (2281701399 + d.val * 2097152 + a.val * 65536 + b.val * 2048 + x.toNat * 1024 + k.val * 64)
  | .vssubuX d a b x k => some (2281701400 + d.val * 2097152 + a.val * 65536 + b.val * 2048 + x.toNat * 1024 + k.val * 64)
  | .vabsdX d a b x k => some (2281701401 + d.val * 2097152 + a.val * 65536 + b.val * 2048 + x.toNat * 1024 + k.val * 64)
  | .vmvX d b k => some (2281701405 + d.val * 2097152 + b.val * 2048 + k.val * 64)
  | .vfadd d a b x y k => some (2348810240 + d.val * 2097152 + a.val * 65536 + b.val * 2048 + x.toNat * 1024 + y.toNat * 512 + k.val * 64)
  | .vfsub d a b x y k => some (2348810241 + d.val * 2097152 + a.val * 65536 + b.val * 2048 + x.toNat * 1024 + y.toNat * 512 + k.val * 64)
  | .vfmul d a b x y k => some (2348810242 + d.val * 2097152 + a.val * 65536 + b.val * 2048 + x.toNat * 1024 + y.toNat * 512 + k.val * 64)
  | .vfdiv d a b x y k => some (2348810243 + d.val * 2097152 + a.val * 65536 + b.val * 2048 + x.toNat * 1024 + y.toNat * 512 + k.val * 64)
  | .vfmin d a b x y k => some (2348810244 + d.val * 2097152 + a.val * 65536 + b.val * 2048 + x.toNat * 1024 + y.toNat * 512 + k.val * 64)
  | .vfmax d a b x y k => some (2348810245 + d.val * 2097152 + a.val * 65536 + b.val * 2048 + x.toNat * 1024 + y.toNat * 512 + k.val * 64)
  | .vfmadd d a b x y k => some (2348810246 + d.val * 2097152 + a.val * 65536 + b.val * 2048 + x.toNat * 1024 + y.toNat * 512 + k.val * 64)
  | .vfmsub d a b x y k => some (2348810247 + d.val * 2097152 + a.val * 65536 + b.val * 2048 + x.toNat * 1024 + y.toNat * 512 + k.val * 64)
  | .vfnmadd d a b x y k => some (2348810248 + d.val * 2097152 + a.val * 65536 + b.val * 2048 + x.toNat * 1024 + y.toNat * 512 + k.val * 64)
  | .vfnmsub d a b x y k => some (2348810249 + d.val * 2097152 + a.val * 65536 + b.val * 2048 + x.toNat * 1024 + y.toNat * 512 + k.val * 64)
  | .vfsgnj d a b x y k => some (2348810250 + d.val * 2097152 + a.val * 65536 + b.val * 2048 + x.toNat * 1024 + y.toNat * 512 + k.val * 64)
  | .vfsgnjn d a b x y k => some (2348810251 + d.val * 2097152 + a.val * 65536 + b.val * 2048 + x.toNat * 1024 + y.toNat * 512 + k.val * 64)
  | .vfsqrt d a x k => some (2348810252 + d.val * 2097152 + a.val * 65536 + x.toNat * 1024 + k.val * 64)
  | .vfrcp d a x k => some (2348810253 + d.val * 2097152 + a.val * 65536 + x.toNat * 1024 + k.val * 64)
  | .vfrsq d a x k => some (2348810254 + d.val * 2097152 + a.val * 65536 + x.toNat * 1024 + k.val * 64)
  | .vfexp2 d a x k => some (2348810255 + d.val * 2097152 + a.val * 65536 + x.toNat * 1024 + k.val * 64)
  | .vflog2 d a x k => some (2348810256 + d.val * 2097152 + a.val * 65536 + x.toNat * 1024 + k.val * 64)
  | .vfsin d a x k => some (2348810257 + d.val * 2097152 + a.val * 65536 + x.toNat * 1024 + k.val * 64)
  | .vfcos d a x k => some (2348810258 + d.val * 2097152 + a.val * 65536 + x.toNat * 1024 + k.val * 64)
  | .vfabs d a x k => some (2348810259 + d.val * 2097152 + a.val * 65536 + x.toNat * 1024 + k.val * 64)
  | .vfneg d a x k => some (2348810260 + d.val * 2097152 + a.val * 65536 + x.toNat * 1024 + k.val * 64)
  | .vfclass d a x k => some (2348810261 + d.val * 2097152 + a.val * 65536 + x.toNat * 1024 + k.val * 64)
  | .vfaddX d a b x k => some (2415919104 + d.val * 2097152 + a.val * 65536 + b.val * 2048 + x.toNat * 1024 + k.val * 64)
  | .vfsubX d a b x k => some (2415919105 + d.val * 2097152 + a.val * 65536 + b.val * 2048 + x.toNat * 1024 + k.val * 64)
  | .vfmulX d a b x k => some (2415919106 + d.val * 2097152 + a.val * 65536 + b.val * 2048 + x.toNat * 1024 + k.val * 64)
  | .vfdivX d a b x k => some (2415919107 + d.val * 2097152 + a.val * 65536 + b.val * 2048 + x.toNat * 1024 + k.val * 64)
  | .vfminX d a b x k => some (2415919108 + d.val * 2097152 + a.val * 65536 + b.val * 2048 + x.toNat * 1024 + k.val * 64)
  | .vfmaxX d a b x k => some (2415919109 + d.val * 2097152 + a.val * 65536 + b.val * 2048 + x.toNat * 1024 + k.val * 64)
  | .vfmaddX d a b x k => some (2415919110 + d.val * 2097152 + a.val * 65536 + b.val * 2048 + x.toNat * 1024 + k.val * 64)
  | .vfmsubX d a b x k => some (2415919111 + d.val * 2097152 + a.val * 65536 + b.val * 2048 + x.toNat * 1024 + k.val * 64)
  | .vfnmaddX d a b x k => some (2415919112 + d.val * 2097152 + a.val * 65536 + b.val * 2048 + x.toNat * 1024 + k.val * 64)
  | .vfnmsubX d a b x k => some (2415919113 + d.val * 2097152 + a.val * 65536 + b.val * 2048 + x.toNat * 1024 + k.val * 64)
  | .vfsgnjX d a b x k => some (2415919114 + d.val * 2097152 + a.val * 65536 + b.val * 2048 + x.toNat * 1024 + k.val * 64)
  | .vfsgnjnX d a b x k => some (2415919115 + d.val * 2097152 + a.val * 65536 + b.val * 2048 + x.toNat * 1024 + k.val * 64)
  | .vseq d a b x y k z => some (2483027968 + d.val * 2097152 + a.val * 65536 + b.val * 2048 + x.toNat * 1024 + y.toNat * 512 + k.val * 64 + z.toNat * 32)
  | .vsne d a b x y k z => some (2483027969 + d.val * 2097152 + a.val * 65536 + b.val * 2048 + x.toNat * 1024 + y.toNat * 512 + k.val * 64 + z.toNat * 32)
  | .vslt d a b x y k z => some (2483027970 + d.val * 2097152 + a.val * 65536 + b.val * 2048 + x.toNat * 1024 + y.toNat * 512 + k.val * 64 + z.toNat * 32)
  | .vsltu d a b x y k z => some (2483027971 + d.val * 2097152 + a.val * 65536 + b.val * 2048 + x.toNat * 1024 + y.toNat * 512 + k.val * 64 + z.toNat * 32)
  | .vsle d a b x y k z => some (2483027972 + d.val * 2097152 + a.val * 65536 + b.val * 2048 + x.toNat * 1024 + y.toNat * 512 + k.val * 64 + z.toNat * 32)
  | .vsleu d a b x y k z => some (2483027973 + d.val * 2097152 + a.val * 65536 + b.val * 2048 + x.toNat * 1024 + y.toNat * 512 + k.val * 64 + z.toNat * 32)
  | .vsgt d a b x y k z => some (2483027974 + d.val * 2097152 + a.val * 65536 + b.val * 2048 + x.toNat * 1024 + y.toNat * 512 + k.val * 64 + z.toNat * 32)
  | .vsgtu d a b x y k z => some (2483027975 + d.val * 2097152 + a.val * 65536 + b.val * 2048 + x.toNat * 1024 + y.toNat * 512 + k.val * 64 + z.toNat * 32)
  | .vfeq d a b x y k z => some (2483027976 + d.val * 2097152 + a.val * 65536 + b.val * 2048 + x.toNat * 1024 + y.toNat * 512 + k.val * 64 + z.toNat * 32)
  | .vfne d a b x y k z => some (2483027977 + d.val * 2097152 + a.val * 65536 + b.val * 2048 + x.toNat * 1024 + y.toNat * 512 + k.val * 64 + z.toNat * 32)
  | .vflt d a b x y k z => some (2483027978 + d.val * 2097152 + a.val * 65536 + b.val * 2048 + x.toNat * 1024 + y.toNat * 512 + k.val * 64 + z.toNat * 32)
  | .vfle d a b x y k z => some (2483027979 + d.val * 2097152 + a.val * 65536 + b.val * 2048 + x.toNat * 1024 + y.toNat * 512 + k.val * 64 + z.toNat * 32)
  | .vfunord d a b x y k z => some (2483027980 + d.val * 2097152 + a.val * 65536 + b.val * 2048 + x.toNat * 1024 + y.toNat * 512 + k.val * 64 + z.toNat * 32)
  | .kand d a b k => some (2550136832 + d.val * 2097152 + a.val * 65536 + b.val * 2048 + k.val * 64)
  | .kor d a b k => some (2550136833 + d.val * 2097152 + a.val * 65536 + b.val * 2048 + k.val * 64)
  | .kxor d a b k => some (2550136834 + d.val * 2097152 + a.val * 65536 + b.val * 2048 + k.val * 64)
  | .kandn d a b k => some (2550136835 + d.val * 2097152 + a.val * 65536 + b.val * 2048 + k.val * 64)
  | .knot d a k => some (2550136836 + d.val * 2097152 + a.val * 65536 + k.val * 64)
  | .kmov d a k => some (2550136837 + d.val * 2097152 + a.val * 65536 + k.val * 64)
  | .kset d k => some (2550136838 + d.val * 2097152 + k.val * 64)
  | .kclr d k => some (2550136839 + d.val * 2097152 + k.val * 64)
  | .kpopc d a k => some (2550136840 + d.val * 2097152 + a.val * 65536 + k.val * 64)
  | .kfirst d a k => some (2550136841 + d.val * 2097152 + a.val * 65536 + k.val * 64)
  | .ksbf d a k => some (2550136842 + d.val * 2097152 + a.val * 65536 + k.val * 64)
  | .ksif d a k => some (2550136843 + d.val * 2097152 + a.val * 65536 + k.val * 64)
  | .ksof d a k => some (2550136844 + d.val * 2097152 + a.val * 65536 + k.val * 64)
  | .pushm k => some (2617245696 + k.val * 64)
  | .elsem k => some (2617245697 + k.val * 64)
  | .popm => some (2617245698)
  | .kbreak k => some (2617245699 + k.val * 64)
  | .region k o => some (2684354560 + k.val * 2097152 + o.toNat)
  | .vgather d a b x y k => some (2751463424 + d.val * 2097152 + a.val * 65536 + b.val * 2048 + x.toNat * 1024 + y.toNat * 512 + k.val * 64)
  | .vslideup d a b x k => some (2751463425 + d.val * 2097152 + a.val * 65536 + b.val * 2048 + x.toNat * 1024 + k.val * 64)
  | .vslidedn d a b x k => some (2751463426 + d.val * 2097152 + a.val * 65536 + b.val * 2048 + x.toNat * 1024 + k.val * 64)
  | .vslide1up d a b x k => some (2751463427 + d.val * 2097152 + a.val * 65536 + b.val * 2048 + x.toNat * 1024 + k.val * 64)
  | .vslide1dn d a b x k => some (2751463428 + d.val * 2097152 + a.val * 65536 + b.val * 2048 + x.toNat * 1024 + k.val * 64)
  | .vcompress d a x k => some (2751463429 + d.val * 2097152 + a.val * 65536 + x.toNat * 1024 + k.val * 64)
  | .vexpand d a x k => some (2751463430 + d.val * 2097152 + a.val * 65536 + x.toNat * 1024 + k.val * 64)
  | .viota d k => some (2751463431 + d.val * 2097152 + k.val * 64)
  | .vbcast d a b x k => some (2751463432 + d.val * 2097152 + a.val * 65536 + b.val * 2048 + x.toNat * 1024 + k.val * 64)
  | .vext d a b x => some (2751463433 + d.val * 2097152 + a.val * 65536 + b.val * 2048 + x.toNat * 1024)
  | .vins d a b k => some (2751463434 + d.val * 2097152 + a.val * 65536 + b.val * 2048 + k.val * 64)
  | .vconflict d a x k => some (2751463435 + d.val * 2097152 + a.val * 65536 + x.toNat * 1024 + k.val * 64)
  | .vredSum d a b x y k => some (2818572288 + d.val * 2097152 + a.val * 65536 + b.val * 2048 + x.toNat * 1024 + y.toNat * 512 + k.val * 64)
  | .vredMin d a b x y k => some (2818572289 + d.val * 2097152 + a.val * 65536 + b.val * 2048 + x.toNat * 1024 + y.toNat * 512 + k.val * 64)
  | .vredMax d a b x y k => some (2818572290 + d.val * 2097152 + a.val * 65536 + b.val * 2048 + x.toNat * 1024 + y.toNat * 512 + k.val * 64)
  | .vredMinu d a b x y k => some (2818572291 + d.val * 2097152 + a.val * 65536 + b.val * 2048 + x.toNat * 1024 + y.toNat * 512 + k.val * 64)
  | .vredMaxu d a b x y k => some (2818572292 + d.val * 2097152 + a.val * 65536 + b.val * 2048 + x.toNat * 1024 + y.toNat * 512 + k.val * 64)
  | .vredAnd d a b x y k => some (2818572293 + d.val * 2097152 + a.val * 65536 + b.val * 2048 + x.toNat * 1024 + y.toNat * 512 + k.val * 64)
  | .vredOr d a b x y k => some (2818572294 + d.val * 2097152 + a.val * 65536 + b.val * 2048 + x.toNat * 1024 + y.toNat * 512 + k.val * 64)
  | .vredXor d a b x y k => some (2818572295 + d.val * 2097152 + a.val * 65536 + b.val * 2048 + x.toNat * 1024 + y.toNat * 512 + k.val * 64)
  | .vredFsum d a b x y k => some (2818572296 + d.val * 2097152 + a.val * 65536 + b.val * 2048 + x.toNat * 1024 + y.toNat * 512 + k.val * 64)
  | .vredFmin d a b x y k => some (2818572297 + d.val * 2097152 + a.val * 65536 + b.val * 2048 + x.toNat * 1024 + y.toNat * 512 + k.val * 64)
  | .vredFmax d a b x y k => some (2818572298 + d.val * 2097152 + a.val * 65536 + b.val * 2048 + x.toNat * 1024 + y.toNat * 512 + k.val * 64)
  | .vscanSum d a x k => some (2818572299 + d.val * 2097152 + a.val * 65536 + x.toNat * 1024 + k.val * 64)
  | .vscanFsum d a x k => some (2818572300 + d.val * 2097152 + a.val * 65536 + x.toNat * 1024 + k.val * 64)
  | .vcvt d a x k u t => some (2885681152 + d.val * 2097152 + a.val * 65536 + x.toNat * 1024 + k.val * 64 + u.toNat * 16 + t.val)
  | .vldUnit d a k p w => some (2952790016 + d.val * 2097152 + a.val * 65536 + k.val * 128 + p.code * 8 + w.val * 2)
  | .vldStrided d a b k p w => some (2952790048 + d.val * 2097152 + a.val * 65536 + b.val * 2048 + k.val * 128 + p.code * 8 + w.val * 2)
  | .vldIndexed d a b y k p w => some (2952790080 + d.val * 2097152 + a.val * 65536 + b.val * 2048 + y.toNat * 1024 + k.val * 128 + p.code * 8 + w.val * 2)
  | .vldSegment d a f k p w => some (2952790112 + d.val * 2097152 + a.val * 65536 + f.val * 2048 + k.val * 128 + p.code * 8 + w.val * 2)
  | .vstUnit d a k p w => some (3019898880 + d.val * 2097152 + a.val * 65536 + k.val * 128 + p.code * 8 + w.val * 2)
  | .vstStrided d a b k p w => some (3019898912 + d.val * 2097152 + a.val * 65536 + b.val * 2048 + k.val * 128 + p.code * 8 + w.val * 2)
  | .vstIndexed d a b y k p w => some (3019898944 + d.val * 2097152 + a.val * 65536 + b.val * 2048 + y.toNat * 1024 + k.val * 128 + p.code * 8 + w.val * 2)
  | .vstSegment d a f k p w => some (3019898976 + d.val * 2097152 + a.val * 65536 + f.val * 2048 + k.val * 128 + p.code * 8 + w.val * 2)
  | .vldff d a k p w => some (3087007744 + d.val * 2097152 + a.val * 65536 + k.val * 128 + p.code * 8 + w.val * 2)
  | .vldw d a p => some (3087007776 + d.val * 2097152 + a.val * 65536 + p.code * 8)
  | .vstw d a p => some (3087007808 + d.val * 2097152 + a.val * 65536 + p.code * 8)
  | .vldslide d a b k p w => some (3087007840 + d.val * 2097152 + a.val * 65536 + b.val * 2048 + k.val * 128 + p.code * 8 + w.val * 2)
  | .vamoswap d a b y k => some (3154116608 + d.val * 2097152 + a.val * 65536 + b.val * 2048 + y.toNat * 1024 + k.val * 128)
  | .vamoadd d a b y k => some (3154116616 + d.val * 2097152 + a.val * 65536 + b.val * 2048 + y.toNat * 1024 + k.val * 128)
  | .vamoand d a b y k => some (3154116624 + d.val * 2097152 + a.val * 65536 + b.val * 2048 + y.toNat * 1024 + k.val * 128)
  | .vamoor d a b y k => some (3154116632 + d.val * 2097152 + a.val * 65536 + b.val * 2048 + y.toNat * 1024 + k.val * 128)
  | .vamoxor d a b y k => some (3154116640 + d.val * 2097152 + a.val * 65536 + b.val * 2048 + y.toNat * 1024 + k.val * 128)
  | .vamomin d a b y k => some (3154116648 + d.val * 2097152 + a.val * 65536 + b.val * 2048 + y.toNat * 1024 + k.val * 128)
  | .vamomax d a b y k => some (3154116656 + d.val * 2097152 + a.val * 65536 + b.val * 2048 + y.toNat * 1024 + k.val * 128)
  | .vamominu d a b y k => some (3154116664 + d.val * 2097152 + a.val * 65536 + b.val * 2048 + y.toNat * 1024 + k.val * 128)
  | .vamomaxu d a b y k => some (3154116672 + d.val * 2097152 + a.val * 65536 + b.val * 2048 + y.toNat * 1024 + k.val * 128)
  | .vamocas d a b y k => some (3154116680 + d.val * 2097152 + a.val * 65536 + b.val * 2048 + y.toNat * 1024 + k.val * 128)
  | .yattach a => some (3221225472 + a.val * 65536)
  | .ydetach => some (3221225473)
  | .yzero a => some (3221225474 + a.val * 65536)
  | .yldb a b => some (3221225475 + a.val * 65536 + b.val * 2048)
  | .ymma a b => some (3221225476 + a.val * 65536 + b.val * 2048)
  | .yrot => some (3221225477)
  | .ydrain d a t => some (3221225478 + d.val * 2097152 + a.val * 65536 + t.val * 16)
  | .ywait => some (3221225479)
  | .sbind d a s => some (3288334336 + d.val * 2097152 + a.val * 65536 + s.val * 2048)
  | .sunbind s => some (3288334337 + s.val * 2048)
  | .scopy d a => some (3288334338 + d.val * 2097152 + a.val * 65536)
  | .savail d s => some (3288334339 + d.val * 2097152 + s.val * 2048)
  | .xall d a => some (3355443200 + d.val * 2097152 + a.val * 65536)
  | .xred d a => some (3355443201 + d.val * 2097152 + a.val * 65536)
  | .tex d a b x k => some (3422552064 + d.val * 2097152 + a.val * 65536 + b.val * 2048 + x.toNat * 1024 + k.val * 64)
  | .span d => some (3422552065 + d.val * 2097152)
  | .blend d a b x k => some (3422552066 + d.val * 2097152 + a.val * 65536 + b.val * 2048 + x.toNat * 1024 + k.val * 64)
  | .hizq d a b x k => some (3422552067 + d.val * 2097152 + a.val * 65536 + b.val * 2048 + x.toNat * 1024 + k.val * 64)
  | .gbox d a b x y k => some (3489660928 + d.val * 2097152 + a.val * 65536 + b.val * 2048 + x.toNat * 1024 + y.toNat * 512 + k.val * 64)
  | .gtri d a b x y k => some (3489660929 + d.val * 2097152 + a.val * 65536 + b.val * 2048 + x.toNat * 1024 + y.toNat * 512 + k.val * 64)
  | .gwalk d a b x k => some (3489660930 + d.val * 2097152 + a.val * 65536 + b.val * 2048 + x.toNat * 1024 + k.val * 64)
  | .ghit d a b x k => some (3489660931 + d.val * 2097152 + a.val * 65536 + b.val * 2048 + x.toNat * 1024 + k.val * 64)
  | .vmarch d a b x k => some (3489660932 + d.val * 2097152 + a.val * 65536 + b.val * 2048 + x.toNat * 1024 + k.val * 64)
  | .vrand d a b x k => some (3489660933 + d.val * 2097152 + a.val * 65536 + b.val * 2048 + x.toNat * 1024 + k.val * 64)
  | .vectorStart _ => none
  | .loadDataReturn _ => none
  | .wfiWake _ => none
  | .interrupt _ => none
  | .faultRecordWrite => none
  | .frespReplay _ => none
  | .frespToSupervisor _ => none
  | .frespEndLaunch _ => none
  | .faultServiceTimeout _ => none
  | .watchdogExpire _ => none
  | .homeSelfFill _ _ => none
  | .homeTrkLoad _ _ => none
  | .homeOwnership _ _ => none
  | .homeThruLoad _ _ => none
  | .homeTrkStore _ _ _ _ => none
  | .homeThruStore _ _ _ _ => none
  | .homeDrain _ _ => none
  | .homeFarOperation _ _ _ _ _ _ => none
  | .homeWritebackCwb _ _ => none
  | .homeEvictNotice _ _ => none
  | .homeWritebackEvict _ _ => none
  | .homeAcknowledgement _ _ => none
  | .l1Invalidation _ _ => none
  | .l1Update _ _ => none
  | .l1Recall _ _ => none
  | .l1Fetch _ _ => none
  | .coreAckReceive _ _ => none
  | .selfDrainTimeout _ _ => none
  | .migrationEntryUpdate _ _ => none
  | .migrationForwardComplete _ => none
  | .epochRollover => none
  | .pageRetire _ => none
  | .pageWalk _ _ => none
  | .pteMovingReread _ => none
  | .fenceEntryWrite _ _ _ => none
  | .mlanemapWrite _ _ => none
  | .laneMapTakeup _ => none
  | .mhbeatWrite _ _ => none
  | .mantleSilentReport _ => none
  | .fwquiQuiesce => none
  | .fwquiResume => none
  | .mantlePacketBoundaryStop _ => none
  | .fwcmdInstall => none
  | .installComplete => none
  | .fwcmdMeasure => none
  | .measureComplete => none
  | .fwcmdSwitch => none
  | .fwcmdIgnored _ => none
  | .fwstatOoClear => none
  | .heartbeatWindowExpire => none
  | .qnotify _ _ => none
  | .qctlEnable _ _ => none
  | .qctlDisable _ _ => none
  | .launch _ _ _ => none
  | .launchComplete _ => none
  | .wait _ => none
  | .waitComplete _ => none
  | .signal _ => none
  | .draw _ _ _ => none
  | .drawComplete _ => none
  | .debugHalt _ => none
  | .debugInspect _ => none
  | .debugResume _ => none
  | .traceOn _ => none
  | .traceOff _ => none
  | .sample _ => none
  | .stripBreakpoint _ => none
  | .clearBreakpoint _ => none
  | .debugStripStop _ => none
  | .debugHaltTimeout _ => none
  | .traceSampleTick _ => none
  | .schedulerTick => none
  | .mantleDecision => none
  | .levelAging _ => none
  | .contextSave _ => none
  | .watermarkStallEnd _ => none
  | .streamPrefetch _ _ => none
  | .scopyComplete _ _ => none
  | .sunbindWriteComplete _ _ => none
  | .xallArrivalAdd _ _ _ => none
  | .xallComplete _ _ => none
  | .xredChunkArrive _ _ _ => none
  | .xredChunkResend _ _ _ => none
  | .xredBusyTimeout _ _ => none
  | .xredComplete _ _ => none
  | .yokeRendezvous _ => none
  | .latchSwap _ => none
  | .yokeOpComplete _ => none
  | .meshletDispatch _ => none
  | .sashNotify _ _ => none
  | .sashSetup _ => none
  | .spanEmit _ => none
  | .hemRelease _ _ _ => none
  | .hemTileLoad _ _ _ => none
  | .hemTileEvict _ _ _ => none
  | .hostCxlMemRead _ _ => none
  | .hostCxlMemWrite _ _ => none
  | .hostSnoop _ => none
  | .flitReceive _ _ => none
  | .flitNak _ _ => none
  | .portDown _ => none
  | .portRetrainComplete _ => none
  | .routeDownTimeout _ => none
  | .peerRequestArrival _ _ _ _ _ _ _ _ => none
  | .packageReset => none
  | .d3hotEntry => none
  | .d3hotExit => none
  | .throttleRaiseTick _ => none
  | .throttleLowerTick _ => none
  | .overcurrentThrottle => none
  | .thermalShutdown => none
  | .setPowerCap _ _ => none
  | .raiseSvnRevoke _ _ => none
  | .getVersion => none
  | .getCapabilities => none
  | .negotiateAlgorithms => none
  | .getDigests => none
  | .getCertificate _ _ => none
  | .challenge _ => none
  | .getMeasurements => none
  | .spdmVendorSignature _ => none
  | .pldmSensorRead _ => none
  | .registerWrite _ _ => none
  | .powerLoss => none
  | .configurationRequest => none
  | .cxlCacheResponse _ _ => none
  | .elementGroupComplete _ => none
  | .streamDataArrival _ _ => none
  | .hostPageMigration _ _ => none
  | .bitError _ _ _ _ => none

end

end Sys2Proof
end

