-- ==== Sys2Proof/Config.lean ====
section
/-! DEFINITION. The free values: what the manual leaves open, as constants without a body. Nothing can be
proved about a value of theirs. -/

namespace Sys2Proof.Config

/-- Which of two words a hart executes when the steps of R19 were omitted: true for the newer one
(assumption 6). Applied to the state's tick. -/
opaque freshFetch : Nat → Bool

/-- What a read of the cycle CSR returns (R77, R279; assumption 4). Applied to the tick. -/
opaque cycleCount : Nat → Word

/-- The data of an accumulator row that a YMMA wrote after an uncorrectable operand word (R446): the context's draw
(R14), row, element index (assumption 18). -/
opaque accAfterError : Nat → Nat → Nat → Nat

/-- An element of a latch that a Sleeve-fed YLDB asks of a stream that has ended (R358 states none; assumption
27): the context's draw and element number. -/
opaque latchPastEnd : Nat → Nat → Nat

/-- Whether the RSASSA-PSS signature over a message verifies (R174): message, modulus, exponent and signature
bytes (assumption 11). -/
opaque rsaVerifies : List Byte → List Byte → List Byte → List Byte → Bool

/-- Whether the SLH-DSA-SHA2-192s signature verifies (R174): message, public key, signature (assumption 11). -/
opaque slhVerifies : List Byte → List Byte → List Byte → Bool

/-- Whether the SHA-384 of a key equals the fuse digest of its slot (R174): algorithm 0 RSA or 1 SLH-DSA, slot,
digest (assumption 11). -/
opaque fuseMatches : Nat → Nat → BitVec 384 → Bool

/-- The digest that measurement 1 is extended by for a minimum svn and revoke bits, whose encoding the manual does not
give (R178; assumption 11). -/
opaque svnDigest : Nat → Nat → BitVec 384

/-- The slot and version fields of a log entry that concerns no Mantle slot (R147 states none; assumption 11): applied
to the entry's index and 0 for the slot, 1 for the version. -/
opaque logField : Nat → Nat → Nat

/-- Bytes of an SPDM response that the manual does not give (capabilities and certificates, R179): request code
and its argument (assumption 11). -/
opaque spdmBytes : Nat → Nat → List Nat

/-- A signature by the device identity key over a transcript (R179; assumption 11): algorithm 0 RSA or 1 SLH-DSA. -/
opaque spdmSign : Nat → List (List Nat) → List Nat

/-- Which cause a throttle tick concerns (R183): the tick (assumption 19). -/
opaque throttleCause : Nat → Nat

/-- A sensor reading that depends on the physical module (R184): sensor number and tick (assumption 19). -/
opaque sensor : Nat → Nat → Nat

/-- Whether a byte of a render target that the Hem held at a DRAW-FAULT is the one its fragments wrote (R322): the
draw and its tile's number among those held, and byte number (assumption 20). -/
opaque targetByte : Nat → Nat → Bool

/-- The fraction, in 256ths, of a bilinear coordinate that is NaN or infinite (R293 states none): the context's draw and
element with axis (assumption 30). -/
opaque texWeight : Nat → Nat → Nat

/-- The hierarchical depth that HIZQ meets beyond its tile's columns (R290 states none): the context's draw and element
(assumption 31). -/
opaque hizBeyond : Nat → Nat → Nat

/-- Byte i of the 240 B of messages of a flit that carries a request to a peer (R439), whose packing the manual does not
give: the request's address and partition number, and i (assumption 36). -/
opaque flitMessage : Nat → Nat → Nat → Byte

end Sys2Proof.Config
end

