-- ==== Sys2Proof/Machine/State.lean ====
section
/-! DEFINITION. The state of the VQ9 package as plain data, the reasons a step can stop, and the state
right after reset. -/

namespace Sys2Proof.Machine

/-- Memory: (address, byte) cells, addresses strictly rising, no cell equal to what an unlisted address
reads as (`Memory.dflt`). -/
abbrev Memory := List Host.Cell

/-- The first address of the home-lookup table (R134, R176). -/
def tableBase : Nat := 0x1FFFC000000

/-- One past its last address: one byte for each 64 KiB granule of 2^41 bytes. -/
def tableEnd : Nat := 0x1FFFE000000

/-- What an unlisted address reads as: the reset entries of the home-lookup table, granule mod 8 (R121, R134, R172 step
4), and zero everywhere else (R139, R172 step 3; assumption 2). -/
def Memory.dflt (a : Nat) : Byte :=
  if tableBase ≤ a ∧ a < tableEnd then .ofNat 8 ((a - tableBase) % 8) else 0

/-- The modes of R48: user, supervisor, and the Mantle's M mode. -/
inductive Mode where
  | u | s | m
  deriving DecidableEq, Repr

/-! ### One hart -/

/-- One instruction of the hidden chain record (R413): its pc, word, first unprocessed element, captured
operands (R211), vcfg, vl and prefix word. Also an entry of the vector issue queue and the window. -/
structure ChainEntry where
  pc    : Word
  word  : IWord
  start : Nat
  xa    : Word
  xb    : Word
  vcfg  : Word
  vl    : Word
  pfx   : Option IWord
  deriving DecidableEq, Repr

/-- The dirty extent of a vector register (R422): type and group size of the last writer and the count of
positions written. A register without an entry has an empty extent. -/
structure Extent where
  reg   : Nat
  ew    : Nat
  lgrp  : Nat
  count : Nat
  deriving DecidableEq, Repr

/-- The vector half of a hart (R200, R201, R193, R222, R244, R422). `v` holds v0 to v31: byte b of
register r stands at 4,096 × r + b (the layout of R205 and R421). -/
structure VecState where
  v      : Memory
  k      : Vector Mask 8
  e      : Mask
  stack  : List (Mask × Nat)   -- saved execution masks, top first, with the bits written
  kc     : Vector Nat 8        -- bits written of k1 to k7 (highest + 1) and, at 0, of E (R422)
  vcfg   : Word
  vl     : Word
  vrb    : Word
  vstart : Word
  vrnd   : Word
  vsrkey : Word
  vflags : Word
  ext    : List Extent
  deriving DecidableEq, Repr

/-- The trap registers and the prefix and chain state (R73, R75, R406, R407, R412, R413, R170). -/
structure TrapState where
  tvec     : Word
  tcause   : Word
  tval     : Word
  tepc     : Word
  tstatus  : Word
  tscratch : Word
  claimcfg : Word
  pfxstate : Word
  pfxLive  : Bool
  pfxTret  : Bool            -- the live prefix came back through TRET (R75: what an illegal pair's tval holds)
  tchain   : Word
  chain    : List ChainEntry
  fresh    : Option Nat      -- cause code of a trap whose handler has retired nothing yet (R410)
  haltHold : Nat             -- TRETs before a debug halt that arrived with a trap may land (R283, R414)
  deriving DecidableEq, Repr

/-- The CSRs of a Mantle hart (R76) and whether it has beaten since its reset (R145). -/
structure MantleState where
  mpfsel   : Word
  mhbeat   : Word
  mlanesel : Word
  beaten   : Bool
  stopped  : Bool            -- stopped at a packet boundary (R143)
  deriving DecidableEq, Repr

/-- The inbox of R369: posted messages (bytes 7:0, bytes 15:8), oldest first, and the reserved entries
(tag, kind) in issue order. -/
structure Inbox where
  posted : List (Word × Word)
  resv   : List (BitVec 32 × Nat)
  deriving DecidableEq, Repr

/-- A Sleeve binding (R372 to R377, R398, R400). -/
structure Sleeve where
  slot    : Nat
  reg     : Nat
  base    : Word
  stride  : Word
  count   : Nat
  fmt     : Nat
  write   : Bool
  depth   : Nat
  tag     : BitVec 32
  sbase   : Word
  sstride : Word
  user    : Bool              -- bound in U mode, and the sptbase then (R431)
  spt     : Word
  pos     : Nat               -- stream position (R374)
  ahead   : Nat               -- elements prefetched beyond the position (R398)
  held    : Option (Nat × Nat × Word) -- element whose prefetch met a fault, with the fault's status code and address (R400)
  pend    : List (Nat × Nat)  -- appended elements not yet written: (type code, pattern) (R375)
  overf   : Bool              -- elements beyond count were dropped (OVERFLOW)
  failed  : Option Nat        -- status code of a fault met while writing (R400)
  done    : Nat               -- elements written
  closing : Bool              -- unbound by a SUNBIND whose message has not posted (R377)
  deriving DecidableEq, Repr

/-- A failure that a handed-over Yoke operation holds (R446). -/
structure YokeFail where
  code : Nat
  orig : Nat
  tval : Word
  deriving DecidableEq, Repr

/-- A pending entry of a tree walk (R329): its reference, the interval of its box (R344), and for a triangle list
the first triangle not yet tested. -/
structure WalkEnt where
  ref : Nat
  te  : Nat
  tx  : Nat
  k   : Nat
  deriving DecidableEq, Repr

/-- What a saved walk holds beside its state slot (assumption 33): its pending entries, top first, and the pushes that a full slot refused and that have not been reported. `image` is the bytes the walk
wrote to its slot and `slot` the slot's offset: the entry belongs to a slot that holds exactly these bytes, and to another
slot than its own only where no other entry has them. -/
structure WalkMemo where
  slot : Nat
  image : List Byte
  ents : List WalkEnt
  owed : List WalkEnt
  deriving DecidableEq, Repr

/-- A Yoke operation handed over and not completed (R350, R388, R446). -/
structure YokeOp where
  word  : IWord
  xa    : Word
  xb    : Word
  prog  : Nat                 -- p of R362: slices completed; of a Sleeve-fed YLDB the elements taken (R446)
  epoch : Nat                 -- the latch epoch a YMMA reads (R357)
  head  : List Byte           -- its descriptor's 32 bytes, read when it is handed over (R352; assumption 24)
  src   : Option Memory       -- the scratchpad as the operation reads it, once its reads are performed (R110, R352, R446)
  bad   : List (Nat × Nat)    -- the uncorrectable words of the pool as they stood then
  user  : Bool                -- issued in U mode (R431)
  fail  : Option YokeFail
  deriving DecidableEq, Repr

/-- An SCOPY that has not posted (R378, R387) with the mode and sptbase it captured (R431). -/
structure CopyOp where
  tag   : BitVec 32
  desc  : Word
  n     : Nat
  pref  : Nat
  user  : Bool
  spt   : Word
  viol  : Bool                -- the engine context froze on it (R417)
  deriving DecidableEq, Repr

/-- An XALL or XRED that has not posted (R380 to R382). `acked` lists the blocks or chunks done,
`adds` the blocks whose arrival add is still to be performed. -/
structure CollOp where
  red   : Bool
  tag   : BitVec 32
  desc  : Word
  acked : List Nat
  adds  : List Nat
  refused : List Nat          -- dies that have refused a chunk and taken none since (R382)
  user  : Bool
  spt   : Word
  viol  : Bool                -- the engine context froze on it (R417)
  deriving DecidableEq, Repr

/-- Why a hart's slot is not ready (R265). -/
inductive Wait where
  | wfi
  | inboxFull
  | ipop
  | span
  | yoke
  | word (addr : Nat)               -- an access whose word's home transaction is outstanding (R127)
  | moving (pa : Nat)               -- a leaf with M = 1 (R433)
  | watermark (n : Nat) (last : Nat) -- a load stalled on a watermark (R112)
  | sash (cluster : Nat)            -- a notify store whose Sash queue is full (R310)
  | engine (kind : Nat)             -- an operation of a frozen engine context (R417)
  | meshlet                         -- a mesh hart without a meshlet (R309)
  | handback                        -- HALT waiting for its asynchronous operations (R83 step 2)
  deriving DecidableEq, Repr

/-- A synchronous trap or interrupt as tcause and tval report it (R405, R406). -/
structure TrapInfo where
  intr : Bool
  code : Nat
  orig : Nat
  viol : Bool
  tval : Word
  deriving DecidableEq, Repr

/-- The freeze record of a hart (R417): virtual and physical address, access kind (1 read, 2 write,
3 fetch) and element. -/
structure FreezeInfo where
  va   : Word
  pa   : Nat
  kind : Nat
  elem : Nat
  deriving DecidableEq, Repr

/-- What a hart is doing: running, waiting, waiting for the host's service of a fault (R436), frozen
(R417), halted by the debugger (R283), or ended (R83). -/
inductive Status where
  | run
  | wait (w : Wait)
  | hostFault (token : Nat) (t : TrapInfo)
  | frozen (f : FreezeInfo)
  | debugHalt (idle : Bool)         -- it waited for a meshlet
  | stopped (halted idle replay : Bool) -- stopped for a pre-emption (R420); it was halted, waited for a meshlet, or
                                    -- waited for the host's service of an access, which is replayed (R414, R423)
  | ended                           -- HALT of the last work item, or a Mantle hart's HALT (R83)
  deriving DecidableEq, Repr

/-- A span ring entry (R288, R315): the record's scratchpad offset, its tile, row, first column, length
and primitive order, whether SPAN has taken it and whether it is resolved; and the record's words while they are still to be
placed, since the entry's old record is the hart's latest and stays unchanged until its next SPAN. -/
structure Span where
  off   : Nat
  tx    : Nat
  ty    : Nat
  order : Nat
  y     : Nat
  x0    : Nat
  len   : Nat
  taken : Bool
  solved : Bool
  pend  : List Nat
  deriving DecidableEq, Repr

/-- A scalar store that has executed and is not yet performed (R274): its virtual address, its physical address (none:
the local window or an aperture), size in bytes, policy and value. -/
structure HeldStore where
  va   : Word
  pa   : Option Nat
  size : Nat
  pol  : Policy
  val  : Word
  deriving DecidableEq, Repr

/-- A scalar instruction that executed while older vector instructions were not complete (R274): how many of those are
left, what undoing it restores (its pc, the prefix state it found, the old values of the registers it wrote), and its
held store. -/
structure Unconf where
  older   : Nat
  pc      : Word
  pfx     : Word
  pfxLive : Bool
  pfxTret : Bool
  regs    : List (Fin 32 × Word)
  store   : Option HeldStore
  counts  : Bool                 -- it has retired; false for a queued VSETL, whose register alone is written (R203, R211)
  deriving DecidableEq, Repr

/-- The open strip of a hart (R280) and its tracing state (R281 to R283). -/
structure Strip where
  pc    : Word
  vl    : Word
  flags : Nat
  ret   : Word                -- instret once the instruction that opened it has retired
  deriving DecidableEq, Repr

/-- What a launch gives its hart (R156, R159 to R163, R168, R180): launch number, kernel, rank,
coordinates, pool partition, watchdog and partition number. -/
structure LaunchCtx where
  launch  : Option Nat
  ord     : Nat                -- the launch's number among those of its context (R14)
  kind    : Nat                -- 0 compute, 1 mesh, 2 pixel (R159)
  yokeAttr : Bool
  early   : Bool
  rank    : Nat
  entry   : Word
  args    : Word
  levels  : List (Nat × Nat)   -- (kind, trips) of the loop levels, level 0 first
  coords  : List Nat           -- coordinates of the levels
  given   : Option (Nat × Nat) -- x11 and x12 of a draw's harts (R308)
  scratch : Nat                -- scratchpad bytes
  accRows : Nat                -- accumulator rows of 128 B
  regs    : Nat                -- register storage in 16 KiB units
  binds   : List Nat           -- watermarks named in bind
  acq     : List (Nat × Nat)   -- acquired value per watermark (R112)
  wdog    : Nat                -- budget in 2^20 cycles, 0 for none
  part    : Nat                -- partition number (R180)
  preempt : Bool               -- the Mantles have asked the hart to stop (R166)
  haltReq : Bool               -- a debug halt is requested (R283)
  deriving DecidableEq, Repr

/-- A region a hart has entered (R247): the address of its first word, its target and whether it is skipped. -/
structure Region where
  start  : Word
  target : Word
  skip   : Bool
  deriving DecidableEq, Repr

/-- A hart's staging record at a Sash (R310): 64 bytes. -/
structure Staging where
  cluster : Nat
  bytes   : Memory
  deriving DecidableEq, Repr

/-- A latch: 32 columns of 8 slices of 128 B, its scale store, and the format (R355, R358). -/
structure Latch where
  data   : Memory
  scales : Memory
  bad    : List Nat               -- slices 8 × column + slice that hold an uncorrectable word (R415)
  fmt    : Nat
  deriving DecidableEq, Repr

/-- A Yoke of a quad (R354 to R359). -/
structure Yoke where
  quad   : Nat
  broken : Bool
  grants : List (Nat × Nat × Nat) -- (hart, context, rows)
  cur    : Latch
  spare  : Latch
  fill   : Option (List Nat)      -- the spare holds a performed block not yet swapped in: the harts that joined
  epoch  : Nat                    -- swaps done: the epoch of the current latch
  rvs    : List (List Nat × List Nat) -- open rendezvous in order: participants, and those that have joined
  sent   : Bool                   -- the first rendezvous is a YROT that has sent its block
  recv   : Option Latch           -- a block received for the first rendezvous (R359)
  lastCtx : Nat
  deriving DecidableEq, Repr

/-- One hart: compute or Mantle. `id` is the numeric hartid of R74 without the module field. -/
structure Hart where
  id      : Nat
  ctxid   : Nat
  mode    : Mode
  pc      : Word
  ir      : IWord               -- the word being executed (the model's own; R33 reports it in tval)
  x       : Vector Word 32
  instret : Word
  stripord : Word
  ygrant  : Word
  sptbase : Word
  vec     : VecState
  trap    : TrapState
  mant    : MantleState
  scratch : Memory
  acc     : Memory
  inbox   : Inbox
  sleeves : List Sleeve
  yops    : List YokeOp
  yjoin   : Nat                 -- latch instructions issued since attaching (j of R357)
  ybase   : Nat                 -- h of R357
  ysave   : Option Yoke         -- in a saved record: the Yoke of the quad's lowest attached hart (R363)
  copies  : List CopyOp
  colls   : List CollOp
  ncopy   : Nat                 -- N of the latest VSETL or SPAN (R378)
  viq     : List ChainEntry     -- vector issue queue: instructions that have not started (R267, R273)
  window  : List ChainEntry     -- the chain window: instructions that have started (R275), oldest first
  back    : Option Word         -- the scalar half's pc while an instruction of the vector half is carried out (R273)
  cur     : Nat                 -- that instruction's place in the window (0: the oldest)
  chase   : Nat                 -- while the oldest instruction waits to trap: the next younger one to catch up (R276)
  met     : Bool                -- it has met a trap, which is taken once they have come up (R276, R414)
  halting : Bool                -- a debug halt whose time has run out lands once they have (R283)
  ahead   : Bool                -- the scalar half executes ahead of the vector half: its stores are held (R274)
  unconf  : List Unconf         -- scalar instructions not yet confirmed, and confirmed stores not yet performed (R274)
  staging : List Staging        -- the hart's staging records (R310)
  lim     : Option Nat          -- element bound of a partial execution (element groups, R275)
  cap     : Option ChainEntry   -- the entry being run again: its captured operands and prefix (R211, R413)
  region  : List Region         -- regions entered and not ended, innermost first
  status  : Status
  yielded : List Nat            -- slots that must issue before this hart again (R266)
  spans   : List Span            -- the span ring's occupied entries, oldest first (R315)
  ring    : Nat                  -- number of span records written to the ring so far: the next entry (R288, R315)
  draws   : Nat                  -- draws of this context on free values (R14)
  strip   : Strip
  walks   : List WalkMemo         -- saved walks (R329)
  irqs    : List (Nat × Word)   -- pending interrupts: code and tval (R405, R418)
  badPool : List (Nat × Nat)    -- uncorrectable words of the pool (R140, R415): 0 registers, 1 scratchpad,
                                -- 2 accumulators, 3 mask store; word index (mask store: 1 to 7 k, 8 E, 9 and up the stack
                                -- entries, the oldest first)
  weakPool : List (Nat × Nat)   -- words of the pool with a single-bit error that no read has corrected, likewise
  lc      : LaunchCtx
  deriving DecidableEq, Repr

/-! ### Caches, homes and translation -/

/-- State of an 8-byte word in an L1 (R123). -/
inductive L1St where
  | i | v | k | w
  deriving DecidableEq, Repr

/-- A word of an L1 line: its state and copy, dirty bytes of .self stores with their mask, and whether an
error of two bits stands in it (R123, R140). -/
structure L1Word where
  st    : L1St
  data  : Word
  dirty : BitVec 8
  dval  : Word
  bad   : Bool
  deriving DecidableEq, Repr

/-- A line of 128 B in the L1 of a core; `low` marks lowest retention (R69, R87). The list of lines is
kept most recently used first. -/
structure L1Line where
  core  : Nat
  line  : Nat
  low   : Bool
  words : List L1Word
  deriving DecidableEq, Repr

/-- The Seam's state of a word (R126): shared by cores of the home die and by other dies, or owned by a
core or by the Ndel port acting for a peer module, with the data the peer's owner holds (an input, assumption
21). A word without an entry is in U. -/
inductive Seam where
  | t (cores : List Nat) (dies : List Nat)
  | o (core : Nat)
  | port (p : Nat) (data : Word)
  deriving DecidableEq, Repr

/-- The requests a home serves (R128). -/
inductive ReqKind where
  | selfFill | trkLoad | ownership | thruLoad | trkStore | thruStore | drain | far
  | cwb | evictNotice | wbEvict
  deriving DecidableEq, Repr

/-- Far operations (R64, R381). -/
inductive AmoOp where
  | swap | add | and | or | xor | min | max | minu | maxu | cas
  deriving DecidableEq, Repr

/-- A request for one word: kind, requesting core (none: no requester), word address, written bytes and
data, and for a far operation its member, width in bytes, byte offset, operand and comparand. -/
structure Req where
  kind : ReqKind
  core : Option Nat
  addr : Nat
  mask : BitVec 8
  data : Word
  op   : AmoOp
  size : Nat
  off  : Nat
  b    : Word
  cmp  : Word
  bad  : Bool := false         -- a whole word that moves with its error (R141)
  deriving DecidableEq, Repr

/-- Messages from a home to the L1 of a core (R127). -/
inductive L1MsgKind where
  | inv | upd (w : Word) | recall | fetch
  deriving DecidableEq, Repr

structure L1Msg where
  core : Nat
  addr : Nat
  kind : L1MsgKind
  deriving DecidableEq, Repr

/-- A request whose invalidations, updates, recall or fetch are outstanding (R127). -/
structure Txn where
  req  : Req
  left : List Nat              -- cores whose acknowledgement or data has not arrived
  deriving DecidableEq, Repr

/-- A reply on its way to a core: acknowledgement or data of a completed request (R128). -/
structure Reply where
  req  : Req
  data : Word
  bad  : Bool
  deriving DecidableEq, Repr

/-- A line of a core's instruction cache with its 128 bytes as one number (R19, R69). -/
structure ILine where
  core : Nat
  line : Nat
  data : Memory
  deriving DecidableEq, Repr

/-- A home-lookup entry (R134): home die, moving bit, the die it is moving to, dies that have acknowledged
the new entry, and requests queued. A granule without an entry has its reset home (R121). -/
structure HomeEnt where
  gran   : Nat
  die    : Nat
  moving : Bool
  dest   : Nat
  acks   : List Nat
  held   : List Req
  fresh  : Nat                 -- epoch ends before which it is not considered again (R133)
  deriving DecidableEq, Repr

/-- A die's cached home-lookup entry of a granule (R134 steps 3 to 6). -/
structure Lookup where
  die  : Nat
  gran : Nat
  home : Nat
  deriving DecidableEq, Repr

/-- Caches, homes, messages and requests in flight, migration counts and uncorrectable words. -/
structure Coh where
  l1     : List L1Line
  icache : List ILine
  seam   : List (Nat × Seam)
  slices : List Nat            -- resident lines of all slices, most recently used first (R122)
  txns   : List Txn
  msgs   : List L1Msg
  reqs   : List Req            -- requests waiting behind an outstanding transaction
  reps   : List Reply
  homes  : List HomeEnt
  wcount : List (Nat × Nat × Nat)   -- (granule, die, count) of the epoch (R133)
  pcount : List (Nat × Nat)         -- (host page, count) of the epoch (R137)
  bad    : List Nat                 -- uncorrectable word addresses at their homes (R140)
  weak   : List (Nat × Nat × Nat)   -- single-bit errors that no read has corrected (R140): store (0 L1, 1 slice,
                                    -- 3 LPDDR-6), core (for an L1) and word address
  due    : List (Nat × Nat)         -- migrations that R133 has started: (granule, new home), before R134 step 1
  lookup : List Lookup              -- the dies' cached home-lookup entries (R134)
  agent  : List Nat                 -- 64 B host lines that the module's coherence agent holds (R136)
  relDue : List Nat                 -- cores whose harts an ended launch's pre-emption has taken off: their release
                                    -- follows in the same step (R168, R420 step 4)
  deriving DecidableEq, Repr

/-- A TLB entry (R428 to R432): owner (core or cluster), ASID, global, first page, size in 4 KiB pages,
first physical page, PTE rights bits 7:2, and the rights the fences granted (R181). -/
structure Tlb where
  owner : Nat
  asid  : Nat
  g     : Bool
  vpn   : Nat
  pages : Nat
  ppn   : Nat
  bits  : Nat
  part  : Nat
  fence : Nat
  deriving DecidableEq, Repr

/-- A pointer-cache entry: cluster, ASID, level of the table, address prefix, table page (R432). -/
structure Ptr where
  owner : Nat
  asid  : Nat
  level : Nat
  pre   : Nat
  ppn   : Nat
  deriving DecidableEq, Repr

/-- A partition fence entry of a cluster (R180). Entries not listed hold zero. -/
structure FenceEnt where
  cluster : Nat
  idx     : Nat
  base    : Word
  limit   : Word
  attr    : Word
  deriving DecidableEq, Repr

structure Mmu where
  tlb    : List Tlb            -- core TLBs
  tlb2   : List Tlb            -- second-level TLBs
  ptrs   : List Ptr
  fences : List FenceEnt
  deriving DecidableEq, Repr

/-! ### The scheduler: queues, launches, watermarks -/

/-- A command queue (R152 to R154). Queues not listed are disabled with QCTL zero. -/
structure Queue where
  num     : Nat
  qctl    : Word
  enabled : Bool
  ring    : Word
  size    : Nat                -- entries
  space   : Word
  ceiling : Nat
  user    : Bool
  errvec  : Nat
  etag    : BitVec 32          -- tag of the packet taken last (R155)
  head    : Nat
  tail    : Nat
  stopped : Bool
  code    : Nat
  atEnable : Bool              -- stopped at its enable (R153)
  waited  : Bool               -- a WAIT of the queue has completed: the launches after it acquire where they are placed (R157)
  waits   : List (Nat × Nat × Nat) -- WAIT packets taken and not complete (R157): watermark, value, packet count
  notify  : List Nat           -- notifies held while the queues are stopped, oldest first (R149)
  deriving DecidableEq, Repr

/-- The phase of a launch (R160 to R166). -/
inductive Phase where
  | waiting | resident | stopping | done
  deriving DecidableEq, Repr

/-- A context's trace ring (R281): its address, log2 of its size, and the space and rights of the queue whose packet named
it. -/
structure TraceRing where
  base  : Nat
  lg    : Nat
  space : Word
  user  : Bool
  deriving DecidableEq, Repr

/-- A launch or a draw's launch (R156, R159, R164, R165). -/
structure Launch where
  num    : Nat
  ord    : Nat                 -- its number among the launches of its context (R14)
  q      : Nat
  seq    : Nat                 -- packet count in its queue
  tag    : BitVec 32
  base   : Nat
  eff    : Nat
  ctxid  : Nat
  part   : Nat
  phase  : Phase
  kdesc  : List Word           -- the eight words of the kernel descriptor
  args   : Word
  binds  : List Nat
  done   : Option (Nat × Nat)
  wdog   : Nat
  harts  : Nat
  left   : Nat                 -- harts that have not ended their last work item
  ticks  : Nat                 -- 100 µs ticks while resident since it was placed (R165)
  space  : Word                -- the queue's space when the packet was taken (R154)
  draw   : Bool
  trace  : Option TraceRing    -- the trace ring while tracing is on (R281, R282)
  sample : Nat
  brk    : Option (Word × Word)
  haltReq : Bool               -- a debug halt of the context, for harts that are still to be placed (R158)
  ends   : Option Nat          -- the launch is being ended, and the code its queue then stops with (R168)
  deriving DecidableEq, Repr

/-- A watermark (R167). Numbers not listed are unbound. -/
structure Wm where
  num   : Nat
  base  : Nat
  limit : Nat
  value : Nat
  owner : Nat
  deriving DecidableEq, Repr

/-- The record of a hart that was pre-empted, as its bytes stand, little-endian, in the device memory of
partition 0 that no context can access (R423, R424; assumption 34): launch, flat rank and bytes. -/
structure CtxRecord where
  launch : Nat
  rank   : Nat
  bytes  : List Byte
  deriving DecidableEq, Repr

structure Sched where
  queues   : List Queue
  launches : List Launch
  saved    : List Hart          -- the harts that context records restore (R425)
  records  : List CtxRecord     -- those records' bytes (R423, R424)
  wms      : List Wm
  served   : List (Nat × Nat)   -- (level, queue last served) (R165)
  lanes    : List (Nat × Nat × Bool × Bool) -- (core, pleats, oos, a new map waits) (R271, R272)
  live     : List (Nat × Nat)   -- (core, pleats the datapath uses) (R272)
  nlaunch  : Nat
  counts   : List (Nat × Nat)   -- (ctxid, launches of that context so far) (R14)
  deriving DecidableEq, Repr

/-! ### Yokes -/

/-- An open chunk-done bitmap at a home die (R382); `sender` is the module that sends the chunks. -/
structure Bitmap where
  die    : Nat
  sender : Nat
  ctxid  : Nat
  copy   : Nat
  chunks : List Nat
  deriving DecidableEq, Repr

/-! ### Rendering -/

/-- A draw in flight (R307 to R316, R319). -/
structure Draw where
  launch : Nat
  ord    : Nat                   -- the launch's number among those of its context (R14)
  idx    : Word
  ntri   : Nat
  mharts : Nat
  pharts : Nat
  margs  : Word
  pargs  : Word
  space  : Word
  user   : Bool
  colour : Nat
  depth  : Nat
  hiz    : Nat
  width  : Nat
  height : Nat
  format : Nat
  dmode  : Nat
  blend  : Nat
  loadH  : Bool
  cpitch : Nat
  dpitch : Nat
  early  : Bool
  nextTri : Nat                  -- next index-buffer triangle to place in a meshlet
  nextMesh : Nat                 -- number of meshlets formed
  starts : List (Nat × Nat)      -- per meshlet, ascending: first order and triangle count
  doneM  : List Nat              -- meshlets whose work item has halted
  ctxid  : Nat
  part   : Nat
  q      : Nat                   -- its queue
  tag    : BitVec 32             -- its packet's tag (R155)
  ended  : Bool                  -- the launch is ended; the Hem still writes what was released (R315)
  deriving DecidableEq, Repr

/-- A triangle as the Sash sets it up: three vertices of x, y, z in binary32 (R311). -/
structure Tri where
  order : Nat
  flags : Nat
  verts : List Nat               -- nine binary32 patterns
  deriving DecidableEq, Repr

/-- A record pushed by a notify store and queued at a Sash (R310). -/
structure Pushed where
  cluster : Nat
  launch  : Nat
  hart    : Nat
  mesh    : Nat                  -- the hart's meshlet
  words   : List Nat             -- sixteen 32-bit words
  deriving DecidableEq, Repr

/-- A span set up and not yet dealt (R314, R315): the 48-byte record as twelve 32-bit words. -/
structure Emit where
  cluster : Nat
  launch  : Nat
  words   : List Nat
  deriving DecidableEq, Repr

/-- An intent of a pixel (R320): empty until its fragment (colour fields and depth, binary32) or its
discard arrives. -/
inductive Frag where
  | empty | discard | full (c0 c1 c2 c3 z : Nat)
  deriving DecidableEq, Repr

structure Intent where
  launch : Nat
  px     : Nat
  py     : Nat
  order  : Nat
  frag   : Frag
  deriving DecidableEq, Repr

/-- A tile held in a Hem's tile store (R322): its 4,096 colours and depths as they are in memory order. -/
structure Tile where
  launch : Nat
  tx     : Nat
  ty     : Nat
  colour : Memory                -- texel bytes, pixel-major
  depth  : Memory
  deriving DecidableEq, Repr

/-- A recorded hierarchical depth of an 8 × 8 block (R316, R317) with the early updates that lowered it:
(order, value before). Blocks not listed hold +∞. -/
structure HBlock where
  launch : Nat
  tx     : Nat
  ty     : Nat
  b      : Nat
  h      : Nat
  early  : List Nat
  deriving DecidableEq, Repr

structure Gfx where
  draws   : List Draw
  input   : List Pushed
  lastOrd : List (Nat × Nat × Nat)  -- (cluster, launch, last order set up + 1)
  emits   : List Emit
  intents : List Intent
  tiles   : List Tile
  hiz     : List HBlock
  deriving DecidableEq, Repr

/-! ### Firmware, security, host, link and power -/

/-- A measurement-log entry (R147, R178). -/
structure LogEnt where
  index   : Nat
  event   : Nat
  slot    : Nat
  reg     : Nat
  version : BitVec 32
  digest  : BitVec 384
  deriving DecidableEq, Repr

/-- The firmware control block and the slots behind it (R142 to R150, R173 to R177). -/
structure Fw where
  req     : Bool
  src     : Word
  len     : Word
  state   : Nat
  busy    : Bool
  cmd     : Nat                  -- the command that is busy: 1 INSTALL, 2 MEASURE
  oo      : Bool
  slot    : Nat
  ver     : Bool
  rb      : Bool
  arm     : Bool
  hand    : Word
  ver0    : BitVec 32
  ver1    : BitVec 32
  flash0  : Memory
  flash1  : Memory
  len0    : Nat
  len1    : Nat
  flashH  : Memory               -- the host-die firmware in module flash, and its length (R172, R173)
  lenH    : Nat
  dead    : Bool                 -- boot step 2 failed: no security engine runs, and boot goes no further (R172)
  bootSlot : Nat                 -- slot number in flash that boot uses (R175)
  meas    : List (BitVec 384)    -- the four measurement registers (R178)
  log     : List LogEnt
  logStop : Bool
  svnMin  : Nat
  revoke  : Nat                  -- revoke bits: 3:0 RSA slots, 7:4 SLH-DSA slots
  spdmOut : List (List Nat)      -- SPDM responses sent, oldest first (R179)
  spdmIn  : List (List Nat)      -- requests and responses of the SPDM exchange so far, oldest first: the transcript (R179)
  deriving DecidableEq, Repr

/-- A fault record waiting for room in the host's ring (R436). -/
structure FaultRec where
  token  : Nat
  ctxid  : Nat
  tval   : Word
  tepc   : Word
  code   : Nat
  kind   : Nat
  vstart : Nat
  deriving DecidableEq, Repr

/-- An error that stopped a queue, as it is reported (R154, R155): queue, code, and the tag of the packet concerned. -/
structure QueueErr where
  queue : Nat
  code  : Nat
  tag   : Option (BitVec 32)
  deriving DecidableEq, Repr

/-- A frozen engine context (R417): the engine (1 stream, 2 collective, 3 Hem), the context number, and its freeze record:
virtual address, physical address and access kind. -/
structure EngFreeze where
  eng   : Nat
  ctxid : Nat
  va    : Word
  pa    : Nat
  kind  : Nat
  deriving DecidableEq, Repr

/-- A host request that may have to wait (R127, R438): over CXL.mem a read of n bytes from an address or a write of bytes
(R113, R435), or a write of 8 bytes through BAR0 (R153, R436). -/
inductive HostReq where
  | read (addr n : Nat)
  | write (addr : Nat) (data : List Byte)
  | bar (off : Nat) (v : Word)
  deriving DecidableEq, Repr

/-- The host interface: fault queue, interrupts raised, notices and reports (R436, R435, R137, R418). -/
structure HostIf where
  fqbase : Word
  fqsize : Word
  fqtail : Nat
  fqhead : Word
  recs   : List FaultRec         -- records not yet written
  token  : Nat                   -- next token
  timers : List Nat              -- tokens whose fault-service timer runs (R169)
  irqs   : List Nat              -- MSI-X vectors raised, newest first
  notes  : List Word             -- freeze notices given to the host (R418)
  pages  : List Nat              -- host pages reported as migration candidates (R137)
  mail   : List Nat              -- reports over the management interface (R171, R441)
  frozenEng : List EngFreeze     -- frozen engine contexts (R417)
  errs   : List QueueErr         -- queue errors reported, oldest first (R155)
  cfgOk  : Bool                  -- PCIe configuration requests answered normally (R172 step 6)
  reads  : List (Nat × Word)     -- answers to the host, newest first: 0 a value, 1 data error, 2 unsupported
                                 -- request, 3 configuration retry
  reqs   : List HostReq          -- requests that wait for a busy word, oldest first (R127, R438)
  resps  : List (Nat × Nat)      -- responses (token, action) that end a launch and have come while the Mantles end none,
                                 -- oldest first (R149, R436)
  deriving DecidableEq, Repr

/-- A frozen port's freeze record (R417): the physical address and access kind of the violating request, which waits for
its answer (R419, R442). -/
structure PortFreeze where
  pa   : Nat
  kind : Nat
  deriving DecidableEq, Repr

/-- A flit that a port has sent and keeps for replay (R439, R440): its sequence number, its virtual channel (0 REQ, 1 RSP, 2
SNP), the address of the request that it carries and the partition number it carries (R442). -/
structure TxFlit where
  seq  : Nat
  vc   : Nat
  addr : Nat
  part : Nat
  deriving DecidableEq, Repr

/-- An Ndel port (R439 to R441). -/
structure Port where
  num    : Nat
  up     : Bool
  frozen : Option PortFreeze
  tx     : Nat                   -- next sequence number to send
  acked  : Nat                   -- next sequence number the peer has not acknowledged
  rx     : Nat                   -- next sequence number expected
  replay : List TxFlit           -- flits kept for replay, oldest first
  tries  : Nat                   -- replays since the peer last acknowledged a flit
  nak    : Option Nat            -- last good sequence number to NAK
  rxq    : List (Nat × List Nat) -- flits delivered and not consumed: virtual channel and payload
  deriving DecidableEq, Repr

structure Link where
  module : Nat                   -- the module number strap (R74)
  ports  : List Port
  routes : List (Nat × Nat)      -- (module, port mask); a module not listed has an empty mask (R441)
  lost   : Nat                   -- stores discarded for an unreachable module (R441)
  sent   : List (Nat × Nat)      -- answers sent to peers, newest first: (port, 0 done, 1 refused, 2 a chunk refused for want
                                 -- of a bitmap) (R382, R442)
  refused : List Nat             -- words of peers whose next request the peer answers with a refusal (R442)
  unreach : List Nat             -- modules that have had no working port for 10 ms
  deriving DecidableEq, Repr

/-- Power states (R182); `hot`: powered off but for the host die after a thermal shutdown (R183). -/
inductive PState where
  | active | d3hot | hot | off
  deriving DecidableEq, Repr

structure Power where
  state  : PState
  demand : List (List Nat)       -- per compute die, the throttle level each cause demands: temperature, power, current (R183)
  cap    : Nat                   -- watts
  corr   : List (Nat × Nat)      -- corrected errors: (die × 4 + store, count); L1, slice, pool, LPDDR-6 (R184)
  uncorr : List (Nat × Nat)      -- uncorrectable errors, likewise
  retired : List Nat             -- retired 4 KiB pages (R415)
  reports : List (Nat × Nat)     -- uncorrectable errors detected: (cluster whose Mantle learns of it, page) (R141)
  timebase : Word                -- the device timebase (R182)
  silent : List Nat              -- Mantles silent under R171
  deriving DecidableEq, Repr

/-- A chunk of a peer module's XRED (R382, R444): who sends it, its copy and number, the operation and type code, and the
elements with the address of the first. -/
structure PeerChunk where
  sender : Nat
  ctxid  : Nat
  copy   : Nat
  k      : Nat
  op     : Nat
  ty     : Nat
  dst    : Nat
  vals   : List Nat
  deriving DecidableEq, Repr

/-- What comes next: an event of the device, or a turn of the hart with this id (assumption 3). -/
inductive Turn where
  | hart (id : Nat)
  | issue (id : Nat)             -- a turn of its scalar half, running on ahead of the vector half (R273)
  | vector (id : Nat)            -- a turn of its vector half, ahead of older scalar stores that are held (R103)
  | barRead (off size : Nat)     -- a host read through BAR0 (R153, R435)
  | barWrite (off size : Nat) (v : Word) -- a host write through BAR0 (R153, R435, R436)
  | peerChunk (port part : Nat) (c : PeerChunk) -- a chunk of a peer's XRED arrives at a port (R382, R444)
  | refusal (addr : Nat)         -- a peer answers the next request for this word with a refusal (R442)
  | reassign (page : Nat)        -- a physical page passes to another context (R139)
  | fenceDigest (d : BitVec 384) -- the management engine measures the digest of a fence table that it changed (R178)
  | event (i : Instr)
  deriving DecidableEq, Repr

/-- The machine. `h` is the hart whose turn it is and `others` every other resident hart; `agenda` lists
the events and turns that come next, `tick` numbers the draws on free values. -/
structure State where
  h      : Hart
  others : List Hart
  mem    : Memory
  coh    : Coh
  mmu    : Mmu
  sched  : Sched
  yokes  : List Yoke
  maps   : List Bitmap
  gfx    : Gfx
  fw     : Fw
  host   : HostIf
  link   : Link
  pow    : Power
  agenda : List Turn
  tick   : Nat
  deriving DecidableEq, Repr

/-- Why the machine stops with a fault. -/
inductive Fault where
  /-- Raised by `step` alone, when the module is Off (R182: nothing is powered) and no event is on the
  agenda: nothing can happen until a package reset. Safe: the hardware does nothing either. -/
  | powerOff
  deriving DecidableEq, Repr

/-- Why an instruction or event is refused. -/
inductive Refusal where
  /-- Raised by `exec` for a row of the opcode table that has no meaning yet. Safe: nothing is claimed. -/
  | notModelled (mnemonic : String)
  deriving DecidableEq, Repr

/-! ### After reset -/

/-- The vector half with the reset values of R73 and R163: E all ones, everything else zero. -/
def VecState.init : VecState :=
  { v := [], k := Vector.replicate 8 0, e := BitVec.allOnes 32768, stack := [],
    kc := Vector.replicate 8 0, vcfg := 0, vl := 0, vrb := 0,
    vstart := 0, vrnd := 0, vsrkey := 0, vflags := 0, ext := [] }

/-- The reset value of claimcfg (R170): esecall and fstime are 1. -/
def claimReset : Word := 0x1040000

/-- The trap registers of a new context: R73 where it gives a value, zero elsewhere (assumption 1). -/
def TrapState.init : TrapState :=
  { tvec := 0, tcause := 0, tval := 0, tepc := 0, tstatus := 0, tscratch := 0, claimcfg := claimReset,
    pfxstate := 0, pfxLive := false, pfxTret := false, tchain := 0, chain := [], fresh := none, haltHold := 0 }

def MantleState.init : MantleState :=
  { mpfsel := 0, mhbeat := 0, mlanesel := 0, beaten := false, stopped := false }

/-- No launch. -/
def LaunchCtx.init : LaunchCtx :=
  { launch := none, ord := 0, kind := 0, yokeAttr := false, early := false, rank := 0, entry := 0, args := 0, levels := [],
    coords := [], given := none, scratch := 0, accRows := 0, regs := 0, binds := [], acq := [], wdog := 0, part := 0,
    preempt := false, haltReq := false }

/-- A hart with every register at its reset value, at address pc in mode m. -/
def Hart.init (id : Nat) (mode : Mode) (pc : Word) : Hart :=
  { id := id, ctxid := 0, mode := mode, pc := pc, ir := 0, x := Vector.replicate 32 0, instret := 0, stripord := 0,
    ygrant := 0, sptbase := 0, vec := VecState.init, trap := TrapState.init, mant := MantleState.init,
    scratch := [], acc := [], inbox := ⟨[], []⟩, sleeves := [], yops := [], yjoin := 0, ybase := 0, ysave := none, copies := [],
    colls := [], ncopy := 0, viq := [], window := [], back := none, cur := 0, chase := 0, met := false, halting := false, ahead := false, unconf := [], staging := [], lim := none, cap := none, region := [], status := .run,
    yielded := [], spans := [], ring := 0, draws := 0, strip := ⟨pc, 0, 0, 0⟩, walks := [], irqs := [], badPool := [], weakPool := [], lc := LaunchCtx.init }

/-- The hart id of the Mantle of cluster n, n = 6 × die + cluster (R74, R176). -/
def mantleId (n : Nat) : Nat := 4096 + n / 6 * 512 + n % 6 * 64

/-- The base of the mirror of a Mantle slot (R176). -/
def mirrorBase (slot : Nat) : Nat := 0x1FFFE000000 + slot * 0x800000

/-- The handover structure (R176). -/
def handBase : Nat := 0x1FFFF000000

/-- A Mantle hart as step 5 of R172 starts it: M mode, at the base of slot 0's mirror (assumption 10). -/
def Hart.mantleInit (n : Nat) : Hart := Hart.init (mantleId n) .m (.ofNat 64 (mirrorBase 0))

def Coh.init : Coh :=
  { l1 := [], icache := [], seam := [], slices := [], txns := [], msgs := [], reqs := [], reps := [], homes := [],
    wcount := [], pcount := [], bad := [], weak := [], due := [], lookup := [], agent := [], relDue := [] }

def Sched.init : Sched :=
  { queues := [], launches := [], saved := [], records := [], wms := [], served := [], lanes := [], live := [],
    nlaunch := 0, counts := [] }

def Gfx.init : Gfx :=
  { draws := [], input := [], lastOrd := [], emits := [], intents := [], tiles := [], hiz := [] }

/-- The firmware block after boot with slot 0 active and both slots' images unknown (R143; assumption 10). -/
def Fw.init : Fw :=
  { req := false, src := 0, len := 0, state := 0, busy := false, cmd := 0, oo := false, slot := 0, ver := false,
    rb := false, arm := false, hand := .ofNat 64 handBase, ver0 := 0, ver1 := 0, flash0 := [], flash1 := [],
    len0 := 0, len1 := 0, flashH := [], lenH := 0, dead := false, bootSlot := 0, meas := [0, 0, 0, 0], log := [], logStop := false, svnMin := 0,
    revoke := 0, spdmOut := [], spdmIn := [] }

def HostIf.init : HostIf :=
  { fqbase := 0, fqsize := 0, fqtail := 0, fqhead := 0, recs := [], token := 0, timers := [], irqs := [],
    notes := [], pages := [], mail := [], frozenEng := [], errs := [], cfgOk := false, reads := [], reqs := [], resps := [] }

def Port.init (n : Nat) : Port :=
  { num := n, up := true, frozen := none, tx := 0, acked := 0, rx := 0, replay := [], tries := 0, nak := none,
    rxq := [] }

def Link.init : Link :=
  { module := 0, ports := (List.range 16).map Port.init, routes := [], lost := 0, sent := [], refused := [], unreach := [] }

def Power.init : Power :=
  { state := .active, demand := List.replicate 8 [0, 0, 0], cap := 5400, corr := [], uncorr := [], retired := [],
    reports := [], timebase := 0, silent := [] }

/-- The package after step 5 of R172: memory zero with every word in U, the 48 Mantle harts started in M mode,
no compute hart resident, every queue disabled. -/
def State.reset : State :=
  { h := Hart.mantleInit 0, others := (List.range 47).map fun n => Hart.mantleInit (n + 1), mem := [],
    coh := Coh.init, mmu := ⟨[], [], [], []⟩, sched := Sched.init, yokes := [], maps := [], gfx := Gfx.init,
    fw := Fw.init, host := HostIf.init, link := Link.init, pow := Power.init, agenda := [], tick := 0 }

end Sys2Proof.Machine
end

