-- ==== Sys2Proof/Machine/Mem.lean ====
section
/-! DEFINITION. Byte memories in canonical form, and little-endian access to them (R11). Main memory, the
scratchpad, the accumulators, the register file and the other byte stores of the state all use it. -/

namespace Sys2Proof.Machine

/-- The byte at address a. -/
def Memory.get : Memory → Nat → Byte
  | [], a => Memory.dflt a
  | (k, v) :: m, a => if a = k then v else Memory.get m a

/-- The memory without a cell at address a. -/
def Memory.drop (m : Memory) (a : Nat) : Memory := m.filter fun c => c.1 != a

/-- A cell put in its place. -/
def Memory.insert (a : Nat) (v : Byte) : Memory → Memory
  | [] => [(a, v)]
  | c :: m => if a < c.1 then (a, v) :: c :: m else c :: Memory.insert a v m

/-- The memory with byte v at address a. Writing the default removes the cell. -/
def Memory.set (m : Memory) (a : Nat) (v : Byte) : Memory :=
  if v = Memory.dflt a then m.drop a else (m.drop a).insert a v

/-- Whether every address of the list is above a. -/
def Memory.above (a : Nat) : Memory → Bool
  | [] => true
  | (k, _) :: _ => a < k

/-- The canonical form: addresses strictly rising and no cell equal to the default. -/
def Memory.wf : Memory → Bool
  | [] => true
  | (k, v) :: m => v != Memory.dflt k && Memory.above k m && Memory.wf m

/-- n bytes from address a as a number, least significant first (R11). -/
def Memory.read (m : Memory) (a : Nat) : Nat → Nat
  | 0 => 0
  | n + 1 => (m.get a).toNat + 256 * Memory.read m (a + 1) n

/-- The low n bytes of v stored from address a. -/
def Memory.write (m : Memory) (a : Nat) : Nat → Nat → Memory
  | 0, _ => m
  | n + 1, v => Memory.write (m.set a (.ofNat 8 v)) (a + 1) n (v / 256)

/-- n bytes from address a. -/
def Memory.bytes (m : Memory) (a : Nat) : Nat → List Byte
  | 0 => []
  | n + 1 => m.get a :: Memory.bytes m (a + 1) n

/-- A list of bytes stored from address a. -/
def Memory.putBytes (m : Memory) (a : Nat) : List Byte → Memory
  | [] => m
  | b :: bs => Memory.putBytes (m.set a b) (a + 1) bs

/-- The memory with the n bytes from address a at the default. -/
def Memory.clear (m : Memory) (a n : Nat) : Memory :=
  m.filter fun c => c.1 < a || a + n ≤ c.1

/-- A byte string as a number, least significant byte first. -/
def natOfBytes : List Byte → Nat
  | [] => 0
  | b :: bs => b.toNat + 256 * natOfBytes bs

/-- The low n bytes of v, least significant first. -/
def bytesOfNat : Nat → Nat → List Byte
  | 0, _ => []
  | n + 1, v => .ofNat 8 v :: bytesOfNat n (v / 256)

end Sys2Proof.Machine
end

