-- ==== Sys2Proof/Machine/Ops.lean ====
section
/-! DEFINITION. The named operations over registers and harts that every meaning uses: reading and writing
registers, retiring an instruction, taking a trap (R408, R170, R436), returning from one (R411), freezing (R417),
stopping a queue and ending a launch (R154, R168, R169). -/

namespace Sys2Proof.Machine

/-- What one step of the machine answers. -/
abbrev Out := Host.Outcome State Fault Refusal

/-- Why an instruction leaves off before its end: a trap, a fence violation, or a wait. -/
inductive Stop where
  | trap (t : TrapInfo)
  | freeze (f : FreezeInfo)
  | wait (w : Wait)
  deriving DecidableEq, Repr

/-- The result of a part of an instruction: a value and the state, or a stop and the state at the stop. -/
inductive Res (α : Type) where
  | ok (a : α) (s : State)
  | stop (w : Stop) (s : State)

/-- Go on with the value and the state, or pass the stop on. -/
def Res.bind {α β : Type} (r : Res α) (f : α → State → Res β) : Res β :=
  match r with
  | .ok a s => f a s
  | .stop w s => .stop w s

/-! ### Bit fields -/

/-- Bits lo + n - 1 down to lo of a word, as a number. -/
def field {w : Nat} (v : BitVec w) (lo n : Nat) : Nat := v.toNat / 2 ^ lo % 2 ^ n

/-- Bit i of a word. -/
def flag {w : Nat} (v : BitVec w) (i : Nat) : Bool := v.getLsbD i

/-- One for true, zero for false. -/
def b2n (b : Bool) : Nat := if b then 1 else 0

/-- A 64-bit word from a number. -/
def w64 (n : Nat) : Word := .ofNat 64 n

/-- Sign extension of an immediate to 64 bits (R16, R21). -/
def sext {w : Nat} (v : BitVec w) : Word := v.signExtend 64

/-! ### Registers -/

/-- x r; x0 reads as zero (R47). -/
def Hart.get (h : Hart) (r : Fin 32) : Word := if r = 0 then 0 else h.x[r]

/-- x r := v; a write to x0 is discarded (R47). -/
def Hart.set (h : Hart) (r : Fin 32) (v : Word) : Hart := if r = 0 then h else { h with x := h.x.set r v }

/-- x r of the hart whose turn it is. -/
def State.x (s : State) (r : Fin 32) : Word := s.h.get r

/-- The prefix word that is live for the next word of the hart (R75). -/
def Hart.pfx (h : Hart) : Option IWord := if h.trap.pfxLive then some (h.trap.pfxstate.truncate 32) else none

/-- sv of a PFX word (R36). -/
def pfxSv (w : IWord) : Bool := flag w 25

/-- neg of a PFX word (R36). -/
def pfxNeg (w : IWord) : Bool := flag w 24

/-- p of a PFX word (R36). -/
def pfxP (w : IWord) : Nat := field w 19 5

/-- cpy of a PFX word (R36). -/
def pfxCpy (w : IWord) : Nat := field w 14 5

/-- The scalar register that receives a copy of the result under the live prefix (R36, R37); a queued vector
instruction runs under no scalar prefix. -/
def Hart.copyReg (h : Hart) : Option (Fin 32) :=
  if h.cap.isSome then none
  else
    match h.pfx with
    | some w => if pfxSv w then none else some (Fin.ofNat 32 (pfxCpy w))
    | none => none

/-- The instruction's result: x d := v, and x cpy := v under a live scalar prefix (R37, R47). -/
def State.wr (s : State) (d : Fin 32) (v : Word) : State :=
  let h := s.h.set d v
  match s.h.copyReg with
  | some c => { s with h := h.set c v }
  | none => { s with h := h }

/-- Whether the hart is a Mantle hart (R74). -/
def Hart.isMantle (h : Hart) : Bool := 4096 ≤ h.id

/-- The core of a hart, as die, cluster and core number in one key (R74). -/
def Hart.core (h : Hart) : Nat := h.id / 4

/-- The cluster of a hart, as one key; a Mantle hart has the key of the cluster it serves. -/
def Hart.cluster (h : Hart) : Nat := h.id % 4096 / 64

/-- The quad of a hart, as one key (R3, R74). -/
def Hart.quad (h : Hart) : Nat := h.id / 16

/-- The cluster number n = 6 × die + cluster (R176) of a cluster key. -/
def clusterNum (key : Nat) : Nat := key / 8 % 8 * 6 + key % 8

/-- The code of a mode in tstatus.PM (R407). -/
def Mode.code : Mode → Nat
  | .u => 0 | .s => 1 | .m => 3

/-- The mode a return restores from PM (R407, R411): a Mantle hart runs only in M mode and no other hart ever does
(R48; assumption 23). -/
def Hart.modeOf (h : Hart) (pm : Nat) : Mode := if h.isMantle then .m else if pm = 0 then .u else .s

/-! ### Regions (R247) -/

/-- Whether an address lies in a region. -/
def Region.holds (r : Region) (pc : Word) : Bool := r.start.ule pc && pc.ult r.target

/-- The innermost region the hart executes in. -/
def Hart.inRegion (h : Hart) : Option Region :=
  h.region.find? fun r => r.holds h.pc

/-- Whether the hart is passing a skipped region, in which no stop lands (R247). -/
def Hart.skipping (h : Hart) : Bool :=
  match h.inRegion with
  | some r => r.skip
  | none => false

/-- Whether a word is a REGION (R247). -/
def isRegion (w : IWord) : Bool := field w 26 6 == 0x28

/-- The region records without the one, still open, that a REGION at an address is to enter (R247). -/
def closeRegion (pc : Word) (rs : List Region) : List Region := rs.eraseP fun r => r.start == pc + 4 && !r.skip

/-- The vector issue queue emptied; the regions that a queued REGION was to enter go with it. -/
def Hart.dropQueue (h : Hart) : Hart :=
  { h with viq := [], region := h.viq.foldl (fun rs e => if isRegion e.word then closeRegion e.pc rs else rs) h.region }

/-! ### Retiring -/

/-- The scalar instructions after one more older vector instruction is complete (R274). -/
def confirmOne (us : List Unconf) : List Unconf :=
  (us.map fun u => { u with older := u.older - 1 }).filter fun u => u.older != 0 || u.store.isSome

/-- The hart after its instruction retires and goes on at npc: instret counts it (R77), a prefix it ran under is
cleared (R75), and a handler has now retired an instruction (R410). A vector instruction of the window is complete: it
leaves the window (R275), a scalar instruction that was younger than it alone is confirmed (R274), and the scalar half
stands where it was (R273). -/
def Hart.retired (h : Hart) (npc : Word) : Hart :=
  { h with
    pc := h.back.getD npc
    instret := h.instret + 1
    window := if h.back.isSome then h.window.eraseIdx h.cur else h.window
    unconf := if h.back.isSome then confirmOne h.unconf else h.unconf
    back := none
    cur := 0
    chase := 0
    status := .run
    lim := none
    cap := none
    trap := { h.trap with
      pfxstate := if h.back.isNone && h.trap.pfxLive then 0 else h.trap.pfxstate
      pfxLive := h.back.isSome && h.trap.pfxLive
      pfxTret := h.back.isSome && h.trap.pfxTret
      fresh := none } }

/-- Retire and go on at npc. -/
def State.retireAt (s : State) (npc : Word) : State := { s with h := s.h.retired npc }

/-- Retire and go on at the next word. -/
def State.finish (s : State) : State := s.retireAt (s.h.pc + 4)

/-- The instruction wrote v to x d and is done. -/
def State.finishWr (s : State) (d : Fin 32) (v : Word) : State := (s.wr d v).finish

/-! ### Whose turn it is -/

/-- Put a hart into the list of the others, in order of hart id. -/
def insertHart (g : Hart) : List Hart → List Hart
  | [] => [g]
  | k :: ks => if g.id < k.id then g :: k :: ks else k :: insertHart g ks

/-- Whether a hart has left its slot (R83). -/
def Hart.gone (h : Hart) : Bool := h.status == .ended && !h.isMantle

/-- The machine with hart `id` on turn, or none when no such hart is resident. -/
def State.switchTo (s : State) (id : Nat) : Option State :=
  if s.h.id = id then some s
  else
    match s.others.find? (fun g => g.id == id) with
    | none => none
    | some g =>
      let rest := s.others.filter fun k => k.id != id
      some { s with h := g, others := if s.h.gone then rest else insertHart s.h rest }

/-- Apply f with hart `id` on turn, then give the turn back. Unchanged when no such hart is resident. -/
def State.onHart (s : State) (id : Nat) (f : State → State) : State :=
  match s.switchTo id with
  | none => s
  | some t =>
    let u := f t
    match u.switchTo s.h.id with
    | some v => v
    | none => u

/-- Every resident hart. -/
def State.harts (s : State) : List Hart := s.h :: s.others

/-- Apply a function to every resident hart. -/
def State.mapHarts (s : State) (f : Hart → Hart) : State := { s with h := f s.h, others := s.others.map f }

/-- The resident hart with this id. -/
def State.hart? (s : State) (id : Nat) : Option Hart := s.harts.find? fun g => g.id == id

/-! ### Queues and launches -/

/-- Raise an MSI-X vector to the host (R435). -/
def State.raise (s : State) (vec : Nat) : State := { s with host := { s.host with irqs := vec :: s.host.irqs } }

/-- The queue with this number, if it has been enabled. -/
def State.queue? (s : State) (q : Nat) : Option Queue := s.sched.queues.find? fun k => k.num == q

/-- Replace a queue's record, keeping the list in order of queue number. -/
def putQueue (k : Queue) : List Queue → List Queue
  | [] => [k]
  | j :: js => if k.num < j.num then k :: j :: js else if k.num = j.num then k :: js else j :: putQueue k js

def State.setQueue (s : State) (k : Queue) : State :=
  { s with sched := { s.sched with queues := putQueue k s.sched.queues } }

/-- Stop a queue with an error code, report it with a packet's tag, and raise its errvec once (R154, R155). A queue that
is stopped stays so. -/
def State.stopFor (s : State) (q code : Nat) (tag : Option (BitVec 32)) : State :=
  match s.queue? q with
  | none => s
  | some k =>
    if k.stopped || !k.enabled then s
    else
      let t := s.setQueue { k with stopped := true, code := code }
      let t := { t with host := { t.host with errs := t.host.errs ++ [⟨q, code, tag⟩] } }
      if k.errvec < 1024 then t.raise k.errvec else t

/-- Stop a queue for the packet it has just taken, or for a cause without a packet (BAD-NOTIFY) (R154, R155). -/
def State.stopQueue (s : State) (q code : Nat) : State :=
  s.stopFor q code (if code = 5 then none else (s.queue? q).map fun k => k.etag)

def State.launch? (s : State) (l : Nat) : Option Launch := s.sched.launches.find? fun k => k.num == l

def State.setLaunch (s : State) (k : Launch) : State :=
  { s with sched := { s.sched with launches := s.sched.launches.map fun j => if j.num = k.num then k else j } }

/-- A Yoke without what the hart with this id held in it: its grant and its place in every open rendezvous (R355 to
R357). -/
def Yoke.release (y : Yoke) (id : Nat) : Yoke :=
  let rvs := y.rvs.map fun r => (r.1.filter (· != id), r.2.filter (· != id))
  let gone := match rvs with
    | r :: _ => r.1.isEmpty
    | [] => true
  { y with
    grants := y.grants.filter fun g => g.1 != id
    rvs := rvs.filter fun r => !r.1.isEmpty
    sent := y.sent && !gone
    recv := if gone then none else y.recv
    fill := y.fill.map fun js => js.filter (· != id) }

/-- Release the Yoke grants of the harts of a launch. -/
def State.releaseYokes (s : State) (l : Nat) : State :=
  let ids := (s.harts.filter fun g => g.lc.launch == some l).map fun g => g.id
  { s with yokes := s.yokes.map fun y => ids.foldl Yoke.release y }

/-- Take the harts of a launch off their slots. -/
def State.freeSlots (s : State) (l : Nat) : State :=
  { s with
    h := if s.h.lc.launch = some l then { s.h with status := .ended } else s.h
    others := s.others.filter fun g => g.lc.launch != some l }

/-- The cores of a launch's harts release at device scope before the step ends (R420 step 4). -/
def State.releaseLater (s : State) (l : Nat) : State :=
  let cores := (s.harts.filter fun g => g.lc.launch == some l && !g.gone).map Hart.core
  { s with coh := { s.coh with relDue := s.coh.relDue ++ cores.eraseDups } }

/-- Drop a launch's record; with the last launch of its context the context's reduction bitmaps go (R382). -/
def State.dropLaunch (s : State) (k : Launch) : State :=
  let rest := s.sched.launches.filter fun j => j.num != k.num
  { s with
    sched := { s.sched with launches := rest }
    maps := if rest.any fun j => j.ctxid == k.ctxid then s.maps
      else s.maps.filter fun m => m.sender != s.link.module || m.ctxid != k.ctxid }

/-- The draw of an ended launch (R315): spans not yet resolved are resolved as discards, and the Hem goes on to write
what was released. -/
def Gfx.endDraw (g : Gfx) (l : Nat) : Gfx :=
  { g with
    draws := g.draws.map fun d => if d.launch = l then { d with ended := true } else d
    input := g.input.filter fun p => p.launch != l
    emits := g.emits.filter fun e => e.launch != l
    intents := g.intents.map fun i => if i.launch = l ∧ i.frag = .empty then { i with frag := .discard } else i }

/-- The number of a hart's next draw on a free value: a function of its context's own state (the launch by its number
within the context), so that no other context moves what it sees (R14). -/
def Hart.draw (h : Hart) : Nat := Nat.pair (Nat.pair h.ctxid (Nat.pair h.lc.ord h.lc.rank)) h.draws

/-- The state after a draw of the hart on turn. -/
def State.drawn (s : State) : State := { s with h := { s.h with draws := s.h.draws + 1 } }

/-! ### Traps -/

/-- A synchronous trap (R405). -/
def TrapInfo.sync (code : Nat) (tval : Word) : TrapInfo :=
  { intr := false, code := code, orig := 0, viol := false, tval := tval }

def pageNotPresent (va : Word) : TrapInfo := .sync 2 va

def pagePermission (va : Word) : TrapInfo := .sync 3 va

def uncorrectable (va : Word) : TrapInfo := .sync 7 va

/-- tcause as R406 lays it out. -/
def TrapInfo.cause (t : TrapInfo) : Word :=
  w64 (b2n t.intr * 2 ^ 63 + b2n t.viol * 2 ^ 16 + t.orig % 256 * 2 ^ 8 + t.code % 256)

/-- What R410 compares: the cause with its kind. -/
def TrapInfo.key (t : TrapInfo) : Nat := t.code + b2n t.intr * 256

/-- Who takes a trap (R170, R408): 0 the device supervisor, 1 the host, 2 both. A Mantle hart takes its own
traps, and a trap taken in S mode stays with the supervisor except ecall-from-S. -/
def Hart.claim (h : Hart) (t : TrapInfo) : Nat :=
  match h.mode with
  | .m => 0
  | .s => if !t.intr && t.code == 11 then field h.trap.claimcfg 24 2 else 0
  | .u => if t.intr then field h.trap.claimcfg 26 2 else field h.trap.claimcfg (2 * t.code + 2) 2

/-- tchain for the recorded window instructions, oldest first (R412). -/
def tchainOf (es : List ChainEntry) : Word :=
  match es with
  | [] => 0
  | e :: rest =>
    let off (i : Nat) : Nat :=
      match rest[i]? with
      | some f => ((f.pc - e.pc).sshiftRight 2).toNat % 2 ^ 15
      | none => 0
    let start (i : Nat) : Nat :=
      match rest[i]? with
      | some f => f.start % 2 ^ 15
      | none => 0
    w64 (2 ^ 63 + rest.length % 4 * 2 ^ 61 + off 0 * 2 ^ 46 + start 0 * 2 ^ 31 + off 1 * 2 ^ 16 + start 1 * 2)

/-- The vector instructions that a stop leaves unfinished: those that have started (R275, R276). -/
def Hart.pending (h : Hart) : List ChainEntry := h.window

/-- The registers with a list of old values put back, and the count of an instruction that had retired. -/
def Hart.restore (h : Hart) (u : Unconf) : Hart :=
  { h with
    x := u.regs.foldl (fun x e => x.set e.1 e.2) h.x
    instret := if u.counts then h.instret - 1 else h.instret
    trap := { h.trap with pfxstate := u.pfx, pfxLive := u.pfxLive, pfxTret := u.pfxTret } }

/-- The prefix of an instruction, pending again for it (R39). -/
def ChainEntry.pending (e : ChainEntry) (t : TrapState) : TrapState :=
  match e.pfx with
  | some p => { t with pfxstate := w64 (2 ^ 63 + p.toNat), pfxLive := true }
  | none => t

/-- Whether a stop with n started vector instructions undoes a record: a scalar instruction behind n of them or more, or the
register of a queued VSETL that has not started. -/
def Unconf.goes (n : Nat) (u : Unconf) : Bool :=
  u.older != 0 && (if u.counts then decide (n ≤ u.older) else decide (n < u.older))

/-- The scalar instructions that stand behind `n` vector instructions or more are undone, youngest first, the vector
instructions that have not started leave the queue, and the others are confirmed (R274, R276): the scalar half stands
after the youngest instruction that is left. Since no stop falls between the halves of a queued pair (R278), its PFX is
undone with it also where it was confirmed. -/
def Hart.undo (h : Hart) (n : Nat) : Hart :=
  if h.unconf.isEmpty && h.viq.isEmpty then h
  else
    let gone := h.unconf.filter (Unconf.goes n)
    let keep := h.unconf.filter fun u => !u.goes n && u.store.isSome
    let g := gone.foldr (fun u g => g.restore u) h
    let g := match gone.find? (fun u => u.counts && u.older == n), h.viq with
      | some u, _ => { g with pc := u.pc }
      | none, e :: _ => if e.pfx.isSome then { g with pc := e.pc - 4, instret := g.instret - 1 } else { g with pc := e.pc }
      | none, [] => g
    { g.dropQueue with unconf := keep.map fun u => { u with older := 0 } }

/-- The hart at a trap or stop of its vector half: everything younger than the youngest started instruction is undone
(R274, R276). -/
def Hart.settle (h : Hart) : Hart := h.undo h.window.length

/-- The same while an instruction of the window may be under way: what is younger than the window is undone and what is
older is confirmed, so that no store of the hart is left unconfirmed. -/
def Hart.settleHeld (h : Hart) : Hart :=
  match h.back with
  | none => h.settle
  | some pc =>
    let g := { h with pc := pc, back := none }.settle
    { g with pc := h.pc, back := some g.pc }

/-- Whether an instruction of this word goes through its element groups one by one behind older ones (R275): the
element-wise classes, VCVT, VLD and VST, VAMO, GBOX, GTRI and VRAND. The others stand in the window and run once they are its
oldest, which changes no result (assumption 73). -/
def lockstep (w : IWord) : Bool :=
  [0x21, 0x22, 0x23, 0x24, 0x25, 0x2B, 0x2C, 0x2D, 0x2F].contains (field w 26 6) ||
  (field w 26 6 == 0x34 && [0, 1, 5].contains (field w 0 6))

/-- The next younger instruction of the window to come up before the oldest stops (R276). -/
def Hart.nextUp (h : Hart) : Option Nat :=
  (List.range h.window.length).find? fun k =>
    max 1 h.chase ≤ k && (match h.window[k]? with | some e => lockstep e.word | none => false)

/-- Whether the younger instructions of the window have come as far as a stop of the oldest lets them (R276). -/
def Hart.caughtUp (h : Hart) : Bool := h.nextUp.isNone

/-- What a stop records that is no trap: a pre-emption or a debug stop (R276, R412). The window's oldest instruction
stands in tepc and vstart and the window in tchain; between the halves of a pair the successor stands in tepc and PP is
set (R39). -/
def Hart.recordStop (h : Hart) : Hart :=
  match h.window with
  | e :: _ =>
    { h with
      vec := { h.vec with vstart := w64 e.start }
      trap := { h.trap with tepc := e.pc, tchain := tchainOf h.window, chain := h.window } }
  | [] =>
    if h.trap.pfxLive then { h with trap := { h.trap with tepc := h.pc, tstatus := h.trap.tstatus ||| 64 } } else h

/-- The hart goes on after such a stop: as TRET, it runs the recorded window again (R277, R425). -/
def Hart.rerun (h : Hart) : Hart :=
  if h.window.isEmpty then h else { h with trap := { h.trap with tchain := 0, chain := [] } }

/-- Stop a hart with the status given: unconfirmed scalar instructions are undone, and the window is recorded (R276,
R420). -/
def Hart.stopNow (h : Hart) (st : Status) : Hart :=
  { h.settle.recordStop with status := st, chase := 0, halting := false, lim := none, cap := none }

/-- The hart goes on with the younger instructions of its window before it stops (R276). -/
def Hart.bringUp (h : Hart) : Hart := { h with status := .run, chase := max 1 h.chase, met := h.met && h.chase != 0 }

/-- Stop a hart where a pre-emption may land. While younger instructions of the window have to come up first, it goes on
with them (R276). -/
def Hart.stopAt (h : Hart) (st : Status) : Hart :=
  if h.caughtUp then h.stopNow st else h.bringUp

/-- Whether the window's oldest instruction has met a trap that waits for the younger ones to come up (R276): it is taken
before any stop (R409, R414). -/
def Hart.trapMet (h : Hart) : Bool := h.met && h.chase != 0

/-! ### Pre-emption and the end of a launch (R166, R168, R420) -/

/-- A hart asked to stop (R420): WFI is retired, an access that waits on the host is cancelled, HALT and the passing of a
skipped region complete first, and a trap that it has met is taken first (R414). A hart whose window's younger instructions
have to come up first stops on its own turn. -/
def Hart.preempt (h : Hart) : Hart :=
  let h := { h with lc := { h.lc with preempt := true }, strip := { h.strip with flags := h.strip.flags ||| 2 } }
  if h.skipping || h.trapMet then h
  else
    match h.status with
    | .wait .handback | .ended | .stopped _ _ _ | .frozen _ => h
    | .wait .wfi => (h.retired (h.pc + 4)).stopAt (.stopped false false false)
    | .wait .meshlet => { h with status := .stopped false true false }
    | .debugHalt i => { h with status := .stopped true i false }
    | .hostFault _ _ => h.stopNow (.stopped false false true)
    | _ => h.stopAt (.stopped false false false)

/-- Take a token's service timer away: its access was cancelled (R414, R436). -/
def State.cancelTokens (s : State) (l : Nat) : State :=
  let toks := s.harts.filterMap fun h =>
    match h.status with
    | .hostFault t _ => if h.lc.launch = some l then some t else none
    | _ => none
  { s with host := { s.host with timers := s.host.timers.filter fun t => !toks.contains t } }

/-- Ask the harts of a launch to stop, and note why (R166, R168). -/
def State.stopLaunch (s : State) (l : Nat) (ends : Option Nat) : State :=
  let s := s.cancelTokens l
  let s := s.mapHarts fun h => if h.lc.launch = some l then h.preempt else h
  match s.launch? l with
  | some k => s.setLaunch { k with phase := .stopping, ends := ends }
  | none => s

/-- Pre-empt a launch (R166). -/
def State.preemptLaunch (s : State) (l : Nat) : State := s.stopLaunch l none

/-- Whether nothing of a hart holds up the end of its launch: it has stopped with every confirmed store performed, has
ended or waits in HALT, or is frozen. -/
def Hart.quiet (h : Hart) : Bool :=
  h.unconf.isEmpty &&
  match h.status with
  | .ended | .stopped _ _ _ | .frozen _ | .wait .handback => true
  | _ => false

/-- The end of a launch whose harts have stopped (R168): they are taken off, its records discarded, nothing is published;
its queue stops with the code, reported with the launch's tag (R155, R168, R169, R410, R436). -/
def State.finishEnd (s : State) (k : Launch) (code : Nat) : State :=
  let l := k.num
  let t := (((s.releaseLater l).releaseYokes l).freeSlots l).dropLaunch k
  let t := { t with
    sched := { t.sched with
      saved := t.sched.saved.filter fun g => g.lc.launch != some l
      records := t.sched.records.filter fun r => r.launch != l }
    gfx := t.gfx.endDraw l }
  t.stopFor k.q code (some k.tag)

/-- End a launch as R168 does: its harts are pre-empted, and once every one of them is quiet the launch ends, at once
where they all are. -/
def State.endLaunch (s : State) (l code : Nat) : State :=
  match s.launch? l with
  | none => s
  | some k =>
    if k.ends.isSome then s
    else
      let t := s.stopLaunch l (some code)
      if (t.harts.filter fun g => g.lc.launch == some l).all Hart.quiet then t.finishEnd k code else t

/-- Whether the Mantles may take packets, place, pre-empt and end launches: FWQUI.req is 0 and no heartbeat window is open
(R149). -/
def State.queuesRun (s : State) : Bool := !s.fw.req && !s.fw.arm

/-- The hart after the device supervisor's handler is entered (R408, R409, R412, R413). -/
def Hart.enter (h : Hart) (t : TrapInfo) : Hart :=
  let pend := h.pending
  let ch := !pend.isEmpty
  { h with
    mode := if h.isMantle then .m else .s
    pc := h.trap.tvec
    status := .run
    lim := none
    cap := none
    window := []
    viq := []
    back := none
    cur := 0
    chase := 0
    halting := false
    vec := { h.vec with vstart := match pend with | e :: _ => w64 e.start | [] => h.vec.vstart }
    trap := { h.trap with
      tepc := match pend with | e :: _ => e.pc | [] => h.pc
      tcause := t.cause
      tval := t.tval
      tstatus := w64 (h.mode.code + b2n (flag h.trap.tstatus 3) * 16 + b2n ch * 32 + b2n h.trap.pfxLive * 64)
      pfxLive := false
      pfxTret := false
      tchain := if ch then tchainOf pend else h.trap.tchain
      chain := if ch then pend else h.trap.chain
      fresh := some t.key
      haltHold := if h.lc.haltReq ∨ h.trap.haltHold ≠ 0 then h.trap.haltHold + 1 else 0 } }

/-- Enter the handler; a second trap of the same cause before the handler retires an instruction ends the launch
with FAULT-ENDED (R410). While the queues are stopped the Mantles end no launch (R149), and the hart stays where it is and
meets the trap again. -/
def State.deliver (s : State) (t : TrapInfo) : State :=
  match s.h.lc.launch with
  | some l =>
    if s.h.trap.fresh = some t.key then (if s.queuesRun then s.endLaunch l 8 else s) else { s with h := s.h.enter t }
  | none => { s with h := s.h.enter t }

/-- The pc that a fault record or a trap names: that of the oldest unfinished window instruction, else the pc. -/
def Hart.stopPc (h : Hart) : Word :=
  match h.pending with
  | e :: _ => e.pc
  | [] => h.pc

/-- Queue a fault record for the host (R436): kind 1 fault, 3 observe notice. A token has 4 bytes. -/
def State.addRecord (s : State) (t : TrapInfo) (kind : Nat) : State :=
  let r : FaultRec :=
    { token := s.host.token, ctxid := s.h.ctxid, tval := t.tval, tepc := s.h.stopPc, code := t.code, kind := kind,
      vstart := match s.h.pending with | e :: _ => e.start | [] => s.h.vec.vstart.toNat }
  { s with host := { s.host with recs := s.host.recs ++ [r], token := (s.host.token + 1) % 2 ^ 32 } }

/-- Take a trap on the hart whose turn it is: by its claim the supervisor's handler is entered, the hart waits on
the host, or both are told (R170, R408, R436). -/
def State.takeTrap (s : State) (t : TrapInfo) : State :=
  match s.h.claim t with
  | 1 =>
    let tok := s.host.token
    let s := s.addRecord t 1
    { s with
      h := { s.h with status := .hostFault tok t, lim := none }
      host := { s.host with timers := s.host.timers ++ [tok] } }
  | 2 => (s.addRecord t 3).deliver t
  | _ => s.deliver t

/-- Trap as the answer of an instruction. -/
def State.trap (s : State) (t : TrapInfo) : Out := .next (s.takeTrap t)

/-- A queued vector instruction traps without having started (R33, R35; assumption 49): its prefix is pending again (R39), and
everything younger is undone. A younger instruction of the window waits until it is the oldest (R276). -/
def Hart.unstart (h : Hart) : Hart :=
  match h.back with
  | none => h
  | some _ =>
    let g := { h.dropQueue.undo 1 with
      pc := h.pc, back := none, cur := 0, chase := 0, cap := none, lim := none, window := [], viq := [] }
    match h.cap with
    | some e => { g with trap := e.pending g.trap }
    | none => g

/-- The illegal-instruction trap for the word being executed (R33). -/
def State.illegal (s : State) : State :=
  match s.h.back with
  | some pc =>
    if s.h.cur = 0 then { s with h := s.h.unstart }.takeTrap (.sync 0 (s.h.ir.setWidth 64))
    else { s with h := { s.h with pc := pc, back := none, cur := 0, cap := none, lim := none } }
  | none => s.takeTrap (.sync 0 (s.h.ir.setWidth 64))

/-- Return from a trap (R411): the mode and IE come back, PIE becomes 1, a pending prefix is applied when PP is
set, and with CH and a valid tchain the recorded window runs again before the word after its youngest. -/
def Hart.tret (h : Hart) : Hart :=
  let st := h.trap.tstatus
  let pp := flag st 6
  let ch := flag st 5
  let tst := w64 (field st 0 2 + b2n (flag st 4) * 8 + 16 + b2n ch * 32 + b2n pp * 64)
  let rerun := ch && flag h.trap.tchain 63
  let npc := if rerun then
      (match h.trap.chain.getLast? with
       | some e => e.pc + 4
       | none => h.trap.tepc)
    else h.trap.tepc
  { h with
    mode := h.modeOf (field st 0 2)
    pc := npc
    instret := h.instret + 1
    status := .run
    window := if rerun then h.trap.chain else []
    viq := []
    trap := { h.trap with
      tstatus := tst
      pfxLive := pp && flag h.trap.pfxstate 63
      pfxTret := pp && flag h.trap.pfxstate 63
      tchain := if rerun then 0 else h.trap.tchain
      chain := if rerun then [] else h.trap.chain
      fresh := none
      haltHold := h.trap.haltHold - 1 } }

/-! ### Freezing and notices -/

/-- The hart field of a master identifier of kind 0: hartid bits 25:0 (R416, R74). -/
def State.hartMaster (s : State) (id : Nat) : Word := w64 (s.link.module * 65536 + id)

/-- The identifier of an engine context (R416). -/
def engineMaster (engine ctxid : Nat) : Word := w64 (2 ^ 62 + engine * 2 ^ 36 + ctxid)

/-- The master identifier of a link port (R416). -/
def State.portMaster (s : State) (port : Nat) : Word := w64 (2 ^ 63 + s.link.module * 65536 + port)

/-- Whether a hart is frozen. -/
def Hart.isFrozen (h : Hart) : Bool :=
  match h.status with
  | .frozen _ => true
  | _ => false

/-- Of a list of harts, the one of lowest rank (R418). -/
def lowestRank : List Hart → Option Hart
  | [] => none
  | h :: hs =>
    match lowestRank hs with
    | none => some h
    | some g => if g.lc.rank < h.lc.rank then some g else some h

/-- Give an interrupt to a context: on its lowest-ranked resident hart that is not frozen, or to the host when
there is none (R405, R418). A hart that has left its slot is not resident. -/
def State.notice (s : State) (ctxid code : Nat) (tval : Word) : State :=
  match lowestRank (s.harts.filter fun g => g.ctxid == ctxid && !g.isMantle && !g.isFrozen && !g.gone) with
  | some g => s.mapHarts fun k => if k.id = g.id then { k with irqs := k.irqs ++ [(code, tval)] } else k
  | none => { s with host := { s.host with notes := s.host.notes ++ [tval] } }

/-- Freeze the hart whose turn it is after a violation (R417) and raise the freeze notice (R418). -/
def State.freeze (s : State) (f : FreezeInfo) : State :=
  let t := { s with h := { s.h with status := .frozen f, lim := none } }
  t.notice t.h.ctxid 0 (t.hartMaster t.h.id)

/-- Leave off an instruction: take the trap, freeze, or wait with the pc where it is. -/
def State.stopWith (s : State) (w : Stop) : State :=
  match w with
  | .trap t => s.takeTrap t
  | .freeze f => s.freeze f
  | .wait r => { s with h := { s.h with status := .wait r } }

/-- Leave off a vector instruction that has no place in the window. One of the queue that waits is again the queue's oldest;
one that traps or freezes has not started (R273, R350). -/
def State.qstop (s : State) (w : Stop) : State :=
  match s.h.back, w with
  | some pc, .wait r =>
    { s with h := { s.h with
        viq := s.h.cap.toList ++ s.h.viq, window := [], pc := pc, back := none, cur := 0, cap := none, lim := none
        status := .wait r } }
  | some _, w => { s with h := s.h.unstart }.stopWith w
  | none, w => s.stopWith w

/-- Finish an instruction whose last part answers r: f on a value, its stop otherwise. -/
def Res.done {α : Type} (r : Res α) (f : α → State → State) : Out :=
  match r with
  | .ok a s => .next (f a s)
  | .stop w s => .next (s.stopWith w)

end Sys2Proof.Machine
end

