-- ==== Sys2Proof/Machine/Coherence.lean ====
section
/-! DEFINITION. The homes and the Seam (R121 to R135) and the L1 data caches (R87, R123 to R125). A request is
served at its home in one step: the messages of R127 that it causes are delivered and acknowledged with it
(assumption 3); the staged events of the table use the same functions. -/

namespace Sys2Proof.Machine

/-! ### Places and homes -/

/-- The places of the physical map (R426). -/
inductive Place where
  | lpddr
  | control
  | notify
  | host
  | pod (m : Nat)
  | hole
  deriving DecidableEq, Repr

/-- The place of a physical address (R426). -/
def placeOf (pa : Nat) : Place :=
  if pa < 0x20000000000 then .lpddr
  else if 0x3FE00000000 ≤ pa ∧ pa < 0x3FE03000000 then .control
  else if 0x3FF00000000 ≤ pa ∧ pa < 0x3FF00800000 then .notify
  else if 0x4000000000000 ≤ pa ∧ pa < 0x8000000000000 then .host
  else if 0x8000000000000 ≤ pa ∧ pa < 0x10000000000000 then .pod (pa / 2 ^ 41 % 1024)
  else .hole

/-- A pod-global address of this module is read as the local address (R426). -/
def State.normPa (s : State) (pa : Nat) : Nat :=
  match placeOf pa with
  | .pod m => if m = s.link.module then pa % 2 ^ 41 else pa
  | _ => pa

/-- The address of the aligned 8-byte word that holds pa. -/
def wordAddr (pa : Nat) : Nat := pa / 8 * 8

/-- The compute die of a core key (R74). -/
def coreDie (core : Nat) : Nat := core / 128 % 8

/-- The home-lookup entry of a granule, if it differs from its reset home. -/
def Coh.home? (c : Coh) (gran : Nat) : Option HomeEnt := c.homes.find? fun e => e.gran == gran

/-- The address of a granule's byte in the home-lookup table's master copy (R134). -/
def tableByte (gran : Nat) : Nat := tableBase + gran

/-- The home die of a word: bits 2:0 of its granule's master entry (R121, R134). Host memory has the host die's agent as
its home (8, R136), a peer's memory this module's Ndel port (9, R93). -/
def State.homeDie (s : State) (a : Nat) : Nat :=
  match placeOf a with
  | .lpddr => (s.mem.get (tableByte (a / 65536))).toNat % 8
  | .host => 8
  | _ => 9

/-- Whether a granule is moving (R134). -/
def State.moving (s : State) (a : Nat) : Bool :=
  match s.coh.home? (a / 65536) with
  | some e => e.moving
  | none => false

/-- The port that carries requests for an address to module m (R441): chosen from the mask's ports by PA[15:12]. A port that
is down keeps its traffic until its replay buffer has drained, then the next of them has it. -/
def Link.portFor (l : Link) (m a : Nat) : Option Port :=
  let mask := match l.routes.find? (fun e => e.1 == m) with | some e => e.2 | none => 0
  let ps := l.ports.filter fun p => mask.testBit p.num
  let k := a / 4096 % 16 % ps.length
  (ps.drop k ++ ps.take k).find? fun p => p.up || !p.replay.isEmpty

/-- Whether the peer module of an address has had no working port for 10 ms (R441). -/
def State.lostPeer (s : State) (pa : Nat) : Bool :=
  match placeOf pa with
  | .pod m => s.link.unreach.contains m
  | _ => false

/-- A store to a module with no working port is discarded, counted and reported (R441). -/
def State.lostStore (s : State) : State :=
  { s with link := { s.link with lost := s.link.lost + 1 }, host := { s.host with mail := s.host.mail ++ [441] } }

/-- Whether a request to a peer cannot leave now: its port is down, none of the module's ports works and the 10 ms are not
over (R441), or the port's replay buffer holds its 256 flits (R440). -/
def State.linkBusy (s : State) (a : Nat) : Bool :=
  match placeOf a with
  | .pod m =>
    m != s.link.module && !s.link.unreach.contains m &&
    (match s.link.portFor m a with
     | some p => !p.up || decide (256 ≤ p.replay.length)
     | none => true)
  | _ => false

/-- Whether requests for the word wait: a transaction for it is outstanding (R127), an answer to one is on its way
(assumption 3), its granule is moving (R134), or no flit can take the request to its peer (R440, R441). -/
def State.wordBusy (s : State) (a : Nat) : Bool :=
  s.coh.txns.any (fun t => t.req.addr == a) || s.coh.reps.any (fun r => r.req.addr == a) || s.moving a || s.linkBusy a

/-- The first word of a list that is busy. -/
def State.firstBusy (s : State) (as : List Nat) : Option Nat := as.find? s.wordBusy

/-- Queue a request at the old home of a moving granule (R134 step 1). -/
def State.holdReq (s : State) (r : Req) : State :=
  { s with coh := { s.coh with homes := s.coh.homes.map fun e =>
      if e.gran = r.addr / 65536 ∧ e.moving then { e with held := e.held ++ [r] } else e } }

/-- Every request that has been sent and not answered (R127, R134). -/
def Coh.inFlight (c : Coh) : List Req :=
  c.txns.map (fun t => t.req) ++ c.reqs ++ c.reps.map (fun r => r.req) ++ c.homes.flatMap fun e => e.held

/-! ### Errors (R140, R141, R184) -/

/-- Count an error for a die and a kind of store, saturating at 32 bits (R184). -/
def bump (l : List (Nat × Nat)) (key : Nat) : List (Nat × Nat) :=
  let n := match l.find? (fun e => e.1 == key) with | some e => e.2 | none => 0
  (key, min (n + 1) (2 ^ 32 - 1)) :: l.filter fun e => e.1 != key

/-- The slice that holds an address: PA[12:7] ^ PA[20:15] (R121). -/
def sliceOf (a : Nat) : Nat := (a / 128 % 64) ^^^ (a / 32768 % 64)

/-- The cluster, as one key, that the home slice of an address belongs to, and whose Mantle owns it: floor(6 × s ÷ 64)
of the home die (R121). -/
def State.sliceCluster (s : State) (a : Nat) : Nat := s.homeDie a * 8 + 6 * sliceOf a / 64

/-- A home or an L1 detects an uncorrectable word: its page is reported to the Mantle of the cluster that owns the home
slice (R141). -/
def State.detect (s : State) (a : Nat) : State :=
  let e := (s.sliceCluster a, a / 4096)
  if placeOf a = .lpddr ∧ ¬ s.pow.reports.contains e then
    { s with pow := { s.pow with reports := s.pow.reports ++ [e] } }
  else s

/-- The die that counts the errors of a store (R184): the core's for an L1 (0) and a pool (2), the home die of a slice
(1), and for LPDDR-6 (3) the memory-and-link die, 8 to 11, of the address (assumption 60). -/
def State.errorDie (s : State) (store core a : Nat) : Nat :=
  if store = 0 ∨ store = 2 then coreDie core else if store = 1 then s.homeDie a % 8 else 8 + a / 65536 % 8 / 2

/-- A read corrects the single-bit errors of a word in an L1 or behind its home, and they are counted (R140, R184). A mark of
a word that has left an L1 goes with the next fill of the word. -/
def State.correct (s : State) (l1 : Bool) (core a : Nat) : State :=
  let hit (e : Nat × Nat × Nat) : Bool := e.2.2 == a && (if l1 then e.1 == 0 && e.2.1 == core else e.1 != 0)
  if s.coh.weak.any hit then
    { s with
      coh := { s.coh with weak := s.coh.weak.filter fun e => !hit e }
      pow := { s.pow with corr := (s.coh.weak.filter hit).foldl (fun c e => bump c (s.errorDie e.1 core a * 4 + e.1)) s.pow.corr } }
  else s

/-! ### Words -/

/-- The bits of the bytes that a byte mask names. -/
def maskBits (m : BitVec 8) : Word :=
  (List.range 8).foldl (fun w j => if m.getLsbD j then w ||| (255#64 <<< (8 * j)) else w) 0

/-- Merge the bytes a mask names into a word (R131). -/
def mergeBytes (old : Word) (m : BitVec 8) (new : Word) : Word :=
  (old &&& ~~~ maskBits m) ||| (new &&& maskBits m)

/-- The mask of n bytes from byte off of a word. -/
def byteMask (off n : Nat) : BitVec 8 := .ofNat 8 ((2 ^ n - 1) * 2 ^ off)

/-- The far operations on n-byte patterns (R64, R381). -/
def AmoOp.apply (op : AmoOp) (n : Nat) (old b cmp : Nat) : Nat :=
  let m := 2 ^ (8 * n)
  let sgn (v : Nat) : Int := if v < m / 2 then v else (v : Int) - m
  match op with
  | .swap => b
  | .add => (old + b) % m
  | .and => old &&& b
  | .or => old ||| b
  | .xor => old ^^^ b
  | .min => if sgn b < sgn old then b else old
  | .max => if sgn old < sgn b then b else old
  | .minu => if b < old then b else old
  | .maxu => if old < b then b else old
  | .cas => if old = cmp then b else old

/-- The n-byte field at byte off of a word. -/
def wordField (w : Word) (off n : Nat) : Nat := field w (8 * off) (8 * n)

/-- The word with its n-byte field at byte off replaced. -/
def setField (w : Word) (off n v : Nat) : Word := mergeBytes w (byteMask off n) (w64 (v * 2 ^ (8 * off)))

/-! ### The L1 data cache -/

/-- A word in I without dirty bytes. -/
def L1Word.none : L1Word := { st := .i, data := 0, dirty := 0, dval := 0, bad := false }

/-- The state of a word in a core's L1. -/
def State.l1 (s : State) (core a : Nat) : L1Word :=
  match s.coh.l1.find? (fun l => l.core == core && l.line == a / 128) with
  | some l => l.words.getD (a / 8 % 16) L1Word.none
  | none => L1Word.none

/-- Replace a word of a line that the core's L1 holds. -/
def State.setL1 (s : State) (core a : Nat) (w : L1Word) : State :=
  { s with coh := { s.coh with l1 := s.coh.l1.map fun l =>
      if l.core = core ∧ l.line = a / 128 then { l with words := l.words.set (a / 8 % 16) w } else l } }

/-- A word arrives in a core's L1: a single-bit error of the copy that stood there before is no longer there (R140). -/
def State.fillL1 (s : State) (core a : Nat) (w : L1Word) : State :=
  let t := s.setL1 core a w
  { t with coh := { t.coh with weak := t.coh.weak.filter (· != (0, core, a)) } }

/-- Whether a core's L1 holds anything of a word. -/
def State.holdsL1 (s : State) (core a : Nat) : Bool := (s.l1 core a).st != .i || (s.l1 core a).dirty != 0

/-- A read of what an L1 holds of a word corrects it. -/
def State.correctL1 (s : State) (core a : Nat) : State := if s.holdsL1 core a then s.correct true core a else s

/-- The value of a word as its core reads it: dirty bytes in preference to the copy (R123). -/
def L1Word.view (w : L1Word) : Word := mergeBytes w.data w.dirty w.dval

/-- What an invalidation leaves of a word: in K the clean bytes are dropped, the dirty bytes stay (R125). -/
def L1Word.inv (w : L1Word) : L1Word :=
  match w.st with
  | .k => { w with st := .i, data := 0, bad := w.bad && w.dirty != 0 }
  | _ => w

/-- What an update leaves: in K the new word stands beneath the dirty bytes (R125). -/
def L1Word.upd (w : L1Word) (v : Word) : L1Word :=
  match w.st with
  | .k => { w with data := v }
  | _ => w

/-- The Seam state of a word; none is U (R126). -/
def State.seam (s : State) (a : Nat) : Option Seam := (s.coh.seam.find? fun e => e.1 == a).map fun e => e.2

/-- Set the Seam state of a word. -/
def State.setSeam (s : State) (a : Nat) (v : Option Seam) : State :=
  let rest := s.coh.seam.filter fun e => e.1 != a
  { s with coh := { s.coh with seam := match v with | some t => rest ++ [(a, t)] | none => rest } }

/-- The Seam state with these sharers: U when there are none. -/
def sharers (cores dies : List Nat) : Option Seam :=
  if cores.isEmpty && dies.isEmpty then none else some (.t cores dies)

/-- T({c}): the core itself on the home die, else the bit of its die (R128). -/
def tOnly (home core : Nat) : Option Seam :=
  if coreDie core = home then some (.t [core] []) else some (.t [] [coreDie core])

/-- T(S ∪ {c}). -/
def tAdd (home core : Nat) (cores dies : List Nat) : Option Seam :=
  if coreDie core = home then some (.t (core :: cores.filter (· != core)) dies)
  else some (.t cores (coreDie core :: dies.filter (· != coreDie core)))

/-- c ∈ S. -/
def tHas (home core : Nat) (cores dies : List Nat) : Bool :=
  if coreDie core = home then cores.contains core else dies.contains (coreDie core)

/-- Whether a message to the sharers S∖c reaches a core: listed itself, or on a die whose bit is set (R127). -/
def reaches (cores dies : List Nat) (c : Option Nat) (core : Nat) : Bool :=
  c != some core && (cores.contains core || dies.contains (coreDie core))

/-- Apply f to the word in every L1 that a message to S∖c reaches. -/
def State.toSharers (s : State) (a : Nat) (cores dies : List Nat) (c : Option Nat) (f : L1Word → L1Word) : State :=
  { s with coh := { s.coh with l1 := s.coh.l1.map fun l =>
      if l.line = a / 128 ∧ reaches cores dies c l.core then { l with words := l.words.modify (a / 8 % 16) f }
      else l } }

/-! ### Memory behind the homes -/

/-- The word of memory at a. -/
def State.memWord (s : State) (a : Nat) : Word := w64 (s.mem.read a 8)

/-- The value of a word as its home has it: the owner's data, else memory's. -/
def State.homeView (s : State) (a : Nat) : Word :=
  match s.seam a with
  | some (.o c) => (s.l1 c a).data
  | some (.port _ d) => d
  | _ => s.memWord a

/-- Store a word of memory. -/
def State.setMem (s : State) (a : Nat) (v : Word) : State := { s with mem := s.mem.write a 8 v.toNat }

/-- Whether the word at a home is uncorrectable (R140). -/
def State.isBad (s : State) (a : Nat) : Bool := s.coh.bad.contains a

def State.setBad (s : State) (a : Nat) (b : Bool) : State :=
  let rest := s.coh.bad.filter (· != a)
  { s with coh := { s.coh with
      bad := if b then a :: rest else rest
      weak := if b then s.coh.weak else s.coh.weak.filter fun e => !(e.1 != 0 && e.2.2 == a) } }

/-- A whole word arrives at the home as it was stored (R128 data replaced; R141). -/
def State.putHome (s : State) (a : Nat) (v : Word) (bad : Bool) : State := (s.setMem a v).setBad a bad

/-- Merge bytes at the home; a write of fewer than 8 bytes to an uncorrectable word is discarded, one of 8 bytes
ends the error (R131, R141). -/
def State.mergeHome (s : State) (a : Nat) (m : BitVec 8) (v : Word) : State :=
  if m = 255 then s.putHome a v false
  else if s.isBad a then s
  else s.setMem a (mergeBytes (s.memWord a) m v)

/-- The owner's data comes back to the home and its copy goes to I (R127 recall), as it is stored: an uncorrectable word
stays so (R141). -/
def State.recall (s : State) (a : Nat) : State :=
  match s.seam a with
  | some (.o c) =>
    let s := s.correctL1 c a
    let w := s.l1 c a
    ((s.putHome a w.data w.bad).setL1 c a { w with st := .i, data := 0, bad := false }).setSeam a none
  | some (.port _ d) => (s.putHome a d (s.isBad a)).setSeam a none
  | _ => s

/-- Invalidate the sharers S∖c (R127). -/
def State.invalidate (s : State) (a : Nat) (c : Option Nat) : State :=
  match s.seam a with
  | some (.t cores dies) => s.toSharers a cores dies c L1Word.inv
  | _ => s

/-- Bring a word to U: invalidate tracked copies or recall the owner (R122, R127). -/
def State.toU (s : State) (a : Nat) : State := ((s.invalidate a none).recall a).setSeam a none

/-! ### The staged messages of R127 -/

/-- A requester's side of an answer (R125): the L1 takes the word in the state of the request. -/
def State.accept (s : State) (r : Reply) : State :=
  let a := r.req.addr
  let s := { s with coh := { s.coh with reps := s.coh.reps.erase r } }
  match r.req.core with
  | none => s
  | some c =>
    let w := s.l1 c a
    let take (st : L1St) (w : L1Word) : State := s.fillL1 c a { w with st := st, data := r.data, bad := r.bad }
    match r.req.kind with
    | .selfFill => if w.st = .i then take .v w else s
    | .trkLoad => if w.st = .w then s else take .k w
    | .ownership =>
      s.fillL1 c a { st := .w, data := mergeBytes r.data w.dirty w.dval, dirty := 0, dval := 0, bad := r.bad }
    | .trkStore => if w.st = .w then s else take .k w
    | .thruStore => if w.st = .i then s else s.setL1 c a { w with data := mergeBytes w.data r.req.mask r.req.data }
    | _ => s

/-! ### Slices -/

/-- The slice set a line competes in: home die, slice (R121) and set (R122). -/
def State.sliceSet (s : State) (line : Nat) : Nat × Nat × Nat :=
  let pa := line * 128
  (s.homeDie pa, sliceOf pa, pa / 8192 % 6144)

/-- The addresses of the sixteen words of a line. -/
def lineWords (line : Nat) : List Nat := (List.range 16).map fun i => line * 128 + 8 * i

/-- Whether every word of a line is in U. -/
def State.lineU (s : State) (line : Nat) : Bool := (lineWords line).all fun a => (s.seam a).isNone

/-- The line enters its slice or becomes its most recently used; a full set of 16 ways gives up its least
recently used line, one with every word in U first, after bringing its words to U (R122). An answer that is on its
way to a core has been given before that, and arrives. -/
def State.touchSlice (s : State) (a : Nat) : State :=
  if placeOf a = .lpddr then
    let line := a / 128
    if s.coh.slices.contains line then
      { s with coh := { s.coh with slices := line :: s.coh.slices.filter (· != line) } }
    else
      let k := s.sliceSet line
      let set := s.coh.slices.filter fun l => s.sliceSet l == k
      let s :=
        if set.length < 16 then s
        else
          match (set.filter s.lineU).getLast? with
          | some v => { s with coh := { s.coh with slices := s.coh.slices.filter (· != v) } }
          | none =>
            match set.getLast? with
            | some v =>
              let t := (s.coh.reps.filter fun r => r.req.addr / 128 == v).foldl State.accept s
              let t := (lineWords v).foldl State.toU t
              { t with coh := { t.coh with slices := t.coh.slices.filter (· != v) } }
            | none => s
      { s with coh := { s.coh with slices := line :: s.coh.slices } }
  else s

/-! ### Counts and migration -/

/-- The count of writes of a die to a granule in this epoch (R133). -/
def Coh.count (c : Coh) (gran die : Nat) : Nat :=
  match c.wcount.find? (fun e => e.1 == gran && e.2.1 == die) with
  | some e => e.2.2
  | none => 0

/-- The compute die with the largest excess over the home die's count, if it is 4,096 or more (R133). -/
def Coh.mover (c : Coh) (gran home : Nat) : Option Nat :=
  let base := c.count gran home
  let best := (List.range 8).foldl (fun (b : Option Nat) d =>
    let n := c.count gran d
    match b with
    | some e => if c.count gran e < n then some d else b
    | none => if base + 4096 ≤ n then some d else none) none
  best

/-- Write a granule's master entry: the home die, and the moving bit 7 (R134). -/
def State.setTable (s : State) (gran die : Nat) (moving : Bool) : State :=
  { s with mem := s.mem.set (tableByte gran) (.ofNat 8 (die + 128 * b2n moving)) }

/-- Start moving a granule (R134 steps 1 and 2): the moving bit is set, its words come to U and its resident
lines leave the slices. An answer that is on its way has been given before the move, and arrives. -/
def State.startMove (s : State) (gran dest : Nat) : State :=
  let s := (s.coh.reps.filter fun r => r.req.addr / 65536 == gran).foldl State.accept s
  let lines := s.coh.slices.filter fun l => l / 512 == gran
  let words := (s.coh.seam.filter fun e => e.1 / 65536 == gran).map fun e => e.1
  let die := s.homeDie (gran * 65536)
  let t := (words.foldl State.toU s).setTable gran die true
  { t with coh := { t.coh with
      due := t.coh.due.filter fun e => e.1 != gran
      slices := t.coh.slices.filter fun l => !lines.contains l
      homes := { gran := gran, die := die, moving := true, dest := dest, acks := [], held := [], fresh := 0 } ::
        t.coh.homes.filter fun e => e.gran != gran } }

/-- Start the migrations that are due (R133, R134): after the accesses of the step in which their counts qualified. -/
def State.startMoves (s : State) : State := s.coh.due.foldl (fun t e => t.startMove e.1 e.2) s

/-- Count one written word for the writer's die and name a migration it causes (R133). A write without an issuing core
(of the Hem, the host or a peer) counts for no die: R133 excludes the host and peers, and its list names no die for the
Hem (assumption 61). -/
def State.countWrite (s : State) (core : Option Nat) (a : Nat) : State :=
  match core, placeOf a with
  | some c, .lpddr =>
    let gran := a / 65536
    let die := coreDie c
    let n := s.coh.count gran die + 1
    let s := { s with coh := { s.coh with
      wcount := (gran, die, n) :: s.coh.wcount.filter fun e => !(e.1 == gran && e.2.1 == die) } }
    let home := s.homeDie a
    let settled := (match s.coh.home? gran with
      | some e => !e.moving && e.fresh == 0
      | none => true) && !s.coh.due.any fun e => e.1 == gran
    let flying := (s.coh.homes.filter fun e => e.moving && e.die == home).length +
      (s.coh.due.filter fun e => s.homeDie (e.1 * 65536) == home).length
    if settled && flying < 4 then
      match s.coh.mover gran home with
      | some d => { s with coh := { s.coh with due := s.coh.due ++ [(gran, d)] } }
      | none => s
    else s
  | _, _ => s

/-- Count a request that reaches host memory; a page that reaches 2,048 is reported (R137). A full cache of 16,384 counts
drops the least recently counted page: the spec names none (assumption 62). -/
def State.countHost (s : State) (a : Nat) : State :=
  if placeOf a = .host then
    let page := a / 4096
    let n := (match s.coh.pcount.find? (fun e => e.1 == page) with | some e => e.2 | none => 0) + 1
    let s := { s with coh := { s.coh with
      pcount := ((page, n) :: s.coh.pcount.filter fun e => e.1 != page).take 16384 } }
    if n = 2048 then { s with host := { s.host with pages := s.host.pages ++ [page * 4096 - 2 ^ 50] } } else s
  else s

/-! ### Serving a request at its home (R128) -/

/-- What the home answers: the state, the word returned (for a far operation the old word), and whether the word
is uncorrectable, and whether the request wrote it. -/
structure Ans where
  s    : State
  data : Word
  bad  : Bool
  wrote : Bool := false

/-- The word at the home with the state of it. -/
def State.answer (s : State) (a : Nat) : Ans := { s := s, data := s.memWord a, bad := s.isBad a }

/-- Whether a request is a stale one of the word's owner, which is discarded (R128): only a .thru access and a far
operation of the owner arise. -/
def State.isStale (s : State) (r : Req) : Bool :=
  match s.seam r.addr, r.kind with
  | some (.o _), .thruLoad | some (.o _), .thruStore | some (.o _), .far => false
  | some (.o o), _ => r.core == some o
  | _, _ => false

/-- A request that reads (R128): .self fill, .trk load, ownership, .thru load. -/
def State.serveRead (s : State) (r : Req) : Ans :=
  let a := r.addr
  let home := s.homeDie a
  if s.isStale r then s.answer a else
  match r.kind, r.core with
  | .trkLoad, some c =>
    match s.seam a with
    | none => (s.setSeam a (tOnly home c)).answer a
    | some (.t cs ds) => (s.setSeam a (tAdd home c cs ds)).answer a
    | _ => ((s.recall a).setSeam a (tOnly home c)).answer a
  | .ownership, some c =>
    match s.seam a with
    | none => (s.setSeam a (some (.o c))).answer a
    | some (.t _ _) => ((s.invalidate a (some c)).setSeam a (some (.o c))).answer a
    | _ => ((s.recall a).setSeam a (some (.o c))).answer a
  | _, _ =>
    match s.seam a with
    | some (.o _) | some (.port _ _) => (s.recall a).answer a
    | _ => s.answer a

/-- A request that writes bytes (R128): .trk store, .thru store, drain. -/
def State.serveWrite (s : State) (r : Req) : Ans :=
  let a := r.addr
  let home := s.homeDie a
  if s.isStale r then s.answer a else
  let took (t u : State) : Ans := { u.answer a with wrote := r.mask == 255 || !t.isBad a }
  let apply (t : State) : State := if r.bad then t.putHome a r.data true else t.mergeHome a r.mask r.data
  match s.seam a with
  | none =>
    let t := apply s
    took s (match r.kind, r.core with
     | .trkStore, some c => t.setSeam a (tOnly home c)
     | _, _ => t)
  | some (.t cs ds) =>
    let t := apply (s.invalidate a r.core)
    took s (match r.kind, r.core with
     | .trkStore, some c => t.setSeam a (tOnly home c)
     | _, some c => t.setSeam a (if tHas home c cs ds then tOnly home c else none)
     | _, none => t.setSeam a none)
  | _ =>
    let u := s.recall a
    let t := apply u
    took u (match r.kind, r.core with
     | .trkStore, some c => t.setSeam a (tOnly home c)
     | _, _ => t)

/-- What a far operation makes of a word (R64, R381). -/
def Req.result (r : Req) (w : Word) : Word :=
  let m := 2 ^ (8 * r.size)
  setField w r.off r.size (r.op.apply r.size (wordField w r.off r.size) (r.b.toNat % m) (r.cmp.toNat % m))

/-- A far operation (R64, R65, R128): executed at the home on the current word, the copies updated. -/
def State.serveFar (s : State) (r : Req) : Ans :=
  let a := r.addr
  let new (w : Word) : Word := r.result w
  match s.seam a with
  | some (.o o) =>
    let s := s.correctL1 o a
    let w := s.l1 o a
    if w.bad then { s := s.setBad a true, data := w.data, bad := true }
    else { s := (s.setMem a (new w.data)).setL1 o a { w with data := new w.data }, data := w.data, bad := false, wrote := true }
  | some (.port p d) =>
    if s.isBad a then { s := s, data := d, bad := true }
    else { s := (s.setMem a (new d)).setSeam a (some (.port p (new d))), data := d, bad := false, wrote := true }
  | some (.t cs ds) =>
    let w := s.memWord a
    if s.isBad a then s.answer a
    else { s := (s.setMem a (new w)).toSharers a cs ds none (fun l => l.upd (new w)), data := w, bad := false, wrote := true }
  | none =>
    let w := s.memWord a
    if s.isBad a then s.answer a else { s := s.setMem a (new w), data := w, bad := false, wrote := true }

/-- An evict notice or an owner's write-back (R128). A stale one is discarded. -/
def State.serveEvict (s : State) (r : Req) : Ans :=
  let a := r.addr
  match r.kind, s.seam a, r.core with
  | .evictNotice, some (.t cs ds), some c => (s.setSeam a (sharers (cs.filter (· != c)) ds)).answer a
  | .cwb, some (.o o), some c =>
    if o = c then { (s.putHome a (s.l1 c a).data (s.l1 c a).bad).answer a with wrote := true } else s.answer a
  | .wbEvict, some (.o o), some c =>
    if o = c then { ((s.putHome a (s.l1 c a).data (s.l1 c a).bad).setSeam a none).answer a with wrote := true }
    else s.answer a
  | _, _, _ => s.answer a

/-- A request to a peer takes a flit of its port on REQ (R439, R440): numbered modulo 4,096 and kept for replay until
acknowledged, with the partition number of the hart that makes it (R442; assumption 36). -/
def State.sendFlit (s : State) (a : Nat) : State :=
  match placeOf a with
  | .pod m =>
    match s.link.portFor m a with
    | some p =>
      let f : TxFlit := { seq := p.tx, vc := 0, addr := a, part := s.h.lc.part }
      let q := { p with tx := (p.tx + 1) % 4096, replay := p.replay ++ [f] }
      { s with link := { s.link with ports := s.link.ports.map fun k => if k.num = p.num then q else k } }
    | none => s
  | _ => s

/-- The peer words that this module's cores own and whose requests a port carries, oldest first (R443). -/
def State.portOwned (s : State) (n : Nat) : List Nat :=
  (s.coh.seam.filter fun e =>
    match placeOf e.1, e.2 with
    | .pod m, .o _ => (s.link.portFor m e.1).any fun p => p.num == n
    | _, _ => false).map fun e => e.1

/-- Each port's table of peer words that this module's cores own holds 16,384: a request for ownership of a word that is not
in it and would overflow it first recalls the oldest (R443). -/
def State.portRoom (s : State) (r : Req) : State :=
  match placeOf r.addr with
  | .pod m =>
    match r.kind, s.link.portFor m r.addr with
    | .ownership, some p =>
      let held := s.portOwned p.num
      if 16384 ≤ held.length && !held.contains r.addr then
        match held with
        | a :: _ => s.recall a
        | [] => s
      else s
    | _, _ => s
  | _ => s

/-- Whether a request is one of those that R137 counts: not an owner's write-back or an evict notice. -/
def ReqKind.hostCounts : ReqKind → Bool
  | .cwb | .evictNotice | .wbEvict => false
  | _ => true

/-- The requester's die caches the granule's home-lookup entry (R134). -/
def State.noteLookup (s : State) (r : Req) : State :=
  match r.core, placeOf r.addr with
  | some c, .lpddr =>
    let e : Lookup := { die := coreDie c, gran := r.addr / 65536, home := s.homeDie r.addr }
    if s.coh.lookup.contains e then s
    else { s with coh := { s.coh with
      lookup := e :: s.coh.lookup.filter fun k => !(k.die == e.die && k.gran == e.gran) } }
  | _, _ => s

/-- The host die's coherence agent takes the 64 B line of a host word under CXL.cache, or holds it already (R136). -/
def State.takeHostLine (s : State) (a : Nat) : State :=
  if placeOf a = .host ∧ ¬ s.coh.agent.contains (a / 64) then
    { s with coh := { s.coh with agent := a / 64 :: s.coh.agent } }
  else s

/-- What a request does on its way to the home: the slice and the host agent take the line, the counts of R137, the
flit to a peer, the cached home-lookup entry, and a single-bit error that the read corrects (R140). -/
def State.reach (s : State) (r : Req) : State :=
  let s := (s.touchSlice r.addr).takeHostLine r.addr
  let s := if r.kind.hostCounts then s.countHost r.addr else s
  (((s.sendFlit r.addr).portRoom r).noteLookup r).correct false 0 r.addr

/-- A request to a module with no working port (R441): what it would write is discarded, counted and reported, and what it
would read comes back uncorrectable. -/
def State.serveLost (s : State) (r : Req) : Ans :=
  match r.kind with
  | .trkStore | .thruStore | .drain | .cwb | .wbEvict => { s := s.lostStore, data := 0, bad := false }
  | .evictNotice => { s := s, data := 0, bad := false }
  | _ => { s := s, data := 0, bad := true }

/-- Serve one request at its home (R128), with the counts of R133 and the reports of R141. -/
def State.serve (s : State) (r : Req) : Ans :=
  if s.lostPeer r.addr then s.serveLost r else
  let s := s.reach r
  let ans := match r.kind with
    | .selfFill | .trkLoad | .ownership | .thruLoad => s.serveRead r
    | .trkStore | .thruStore | .drain => s.serveWrite r
    | .far => s.serveFar r
    | .cwb | .evictNotice | .wbEvict => s.serveEvict r
  let t := if ans.bad then ans.s.detect r.addr else ans.s
  { ans with s := if ans.wrote then t.countWrite r.core r.addr else t }

/-- Send a request that its core does not wait for: it waits at the home of a moving granule (R134) or behind a word's
outstanding transaction (R127). -/
def State.send (s : State) (r : Req) : State :=
  if s.moving r.addr then s.holdReq r
  else if s.wordBusy r.addr then { s with coh := { s.coh with reqs := s.coh.reqs ++ [r] } }
  else (s.serve r).s

/-- A request of a kind for a word. -/
def Req.of (kind : ReqKind) (core : Option Nat) (a : Nat) : Req :=
  { kind := kind, core := core, addr := a, mask := 0, data := 0, op := .swap, size := 8, off := 0, b := 0, cmp := 0 }

/-! ### A core's accesses (R124, R125) -/

/-- Drain the dirty bytes of a word (R125): in V and K they stay as clean bytes of the copy. An uncorrectable
dirty word travels whole (R141). A drain to a busy word or a moving granule waits at its home (R127, R134). -/
def State.drainWord (s : State) (core a : Nat) : State :=
  let w := s.l1 core a
  if w.dirty = 0 then s
  else
    let clean : L1Word :=
      match w.st with
      | .v | .k => { w with data := w.view, dirty := 0, dval := 0 }
      | _ => { w with dirty := 0, dval := 0, bad := false }
    let s := (s.correctL1 core a).setL1 core a clean
    if w.bad then s.send { Req.of .drain (some core) a with mask := 255, data := w.view, bad := true }
    else s.send { Req.of .drain (some core) a with mask := w.dirty, data := w.dval }

/-- Give up what the L1 holds of a word: drain, evict notice (home die only), write-back (R125, R127). A write-back that
crosses a recall is the data message that arrives first. -/
def State.evictWord (s : State) (core a : Nat) : State :=
  let s := (s.drainWord core a).correctL1 core a
  match (s.l1 core a).st with
  | .k => if coreDie core = s.homeDie a then s.send (Req.of .evictNotice (some core) a) else s
  | .w => (s.serve (Req.of .wbEvict (some core) a)).s
  | _ => s

/-- Drop a line from a core's L1 after giving up its words. -/
def State.dropLine (s : State) (core line : Nat) : State :=
  if s.coh.l1.any (fun l => l.core == core && l.line == line) then
    let s := (lineWords line).foldl (fun t a => t.evictWord core a) s
    { s with coh := { s.coh with l1 := s.coh.l1.filter fun l => !(l.core == core && l.line == line) } }
  else s

/-- The words of a line for which the core has a request, a drain or a write-back in flight: the line may not be replaced
(R87). -/
def State.lineReqs (s : State) (core line : Nat) : List Nat :=
  (s.coh.inFlight.filter fun r => r.core == some core && r.addr / 128 == line).map fun r => r.addr

/-- Whether a line has one in flight. -/
def State.lineInFlight (s : State) (core line : Nat) : Bool := !(s.lineReqs core line).isEmpty

/-- The line a full set gives up: a line of lowest retention first, else the least recently used (R87). A line stays in use as
a way until it is replaced or invalidated by CINV, also when an acquire has left each of its words in I without dirty bytes:
R87 does not say whether such a line still is (assumption 81). -/
def State.victim (s : State) (core line : Nat) : Option Nat :=
  let set := s.coh.l1.filter fun l => l.core == core && l.line % 256 == line % 256
  if set.length < 8 then none
  else
    let free := set.filter fun l => !s.lineInFlight core l.line
    match (free.filter fun l => l.low).getLast? with
    | some l => some l.line
    | none => (free.getLast?).map fun l => l.line

/-- The word that an install of a line waits for: every line of its full set has a request in flight (R87). -/
def State.installWait (s : State) (core a : Nat) : Option Nat :=
  let line := a / 128
  let set := s.coh.l1.filter fun l => l.core == core && l.line % 256 == line % 256
  if set.length < 8 || set.any (fun l => l.line == line || !s.lineInFlight core l.line) then none
  else (set.flatMap fun l => s.lineReqs core l.line).head?

/-- The word whose home transaction an access of a word waits for: its own (R127), or one that its install waits for
(R87). A .thru access installs no line. -/
def State.accessWait (s : State) (core a : Nat) (pol : Policy) : Option Nat :=
  if s.wordBusy a then some a
  else
    match pol with
    | .thru => none
    | _ => s.installWait core a

/-- The line stands in the core's L1 and is its most recently used; `low` marks one a PREF brought in. What counts as a
use is an access that the L1 serves or installs for: a .thru access, a CWB, and a PREF that finds its words present use
no line and touch none of lowest retention (assumption 63). -/
def State.touchLine (s : State) (core a : Nat) (low : Bool) : State :=
  let line := a / 128
  match s.coh.l1.find? (fun l => l.core == core && l.line == line) with
  | some l =>
    { s with coh := { s.coh with
        l1 := { l with low := l.low && low } :: s.coh.l1.filter fun k => !(k.core == core && k.line == line) } }
  | none =>
    let s := match s.victim core line with
      | some v => s.dropLine core v
      | none => s
    { s with coh := { s.coh with
        l1 := { core := core, line := line, low := low, words := List.replicate 16 L1Word.none } :: s.coh.l1 } }

/-- Write an owned word back before a .thru access; the copy stays in V (R125). -/
def State.unown (s : State) (core a : Nat) : State :=
  let w := s.l1 core a
  if w.st = .w then ((s.serve (Req.of .wbEvict (some core) a)).s).setL1 core a { w with st := .v } else s

/-- An uncorrectable clean copy in V or K is dropped and the access goes on as a miss (R141). -/
def State.dropBad (s : State) (core a : Nat) : State :=
  let w := s.l1 core a
  if w.bad && w.dirty == 0 && (w.st == .v || w.st == .k) then ((s.detect a).evictWord core a).setL1 core a L1Word.none
  else s

/-- Fetch a word into the L1 in state st by the given request (R125). -/
def State.fillWord (s : State) (core a : Nat) (kind : ReqKind) (st : L1St) (low : Bool) : Ans :=
  let s := s.touchLine core a low
  let s := if kind = .selfFill then s else s.drainWord core a
  let ans := s.serve (Req.of kind (some core) a)
  let w := ans.s.l1 core a
  let w' : L1Word := { w with st := st, data := ans.data, bad := ans.bad }
  { s := ans.s.fillL1 core a w', data := w'.view, bad := ans.bad && w.dirty != 255 }

/-- A core meets an uncorrectable word in its L1: the L1 reports it (R141). -/
def Ans.report (x : Ans) (a : Nat) : Ans := if x.bad then { x with s := x.s.detect a } else x

/-- A load of the bytes that `m` names under a policy (R125 load rows). -/
def State.coreLoad (s : State) (core : Nat) (pol : Policy) (a : Nat) (m : BitVec 8) : Ans :=
  let s := (s.dropBad core a).correctL1 core a
  let w := s.l1 core a
  let hit : Ans := { s := s.touchLine core a false, data := w.view, bad := w.bad && w.st != .i }
  match pol, w.st with
  | .self, .i =>
    if m &&& w.dirty = m then { hit with bad := w.bad }.report a else s.fillWord core a .selfFill .v false
  | .self, _ => hit.report a
  | .trk, .k | .trk, .w => hit.report a
  | .trk, _ => s.fillWord core a .trkLoad .k false
  | .own, .w => hit.report a
  | .own, _ => s.fillWord core a .ownership .w false
  | .thru, _ => ((s.drainWord core a).unown core a).serve (Req.of .thruLoad (some core) a)

/-- A store of the bytes that `m` names under a policy (R125 store rows). -/
def State.coreStore (s : State) (core : Nat) (pol : Policy) (a : Nat) (m : BitVec 8) (v : Word) : State :=
  let w := s.l1 core a
  let inWord (s : State) : State :=
    let s := s.touchLine core a false
    let w := s.l1 core a
    s.setL1 core a { w with data := mergeBytes w.data m v, bad := w.bad && m != 255 }
  match pol, w.st with
  | .self, .w | .trk, .w | .own, .w => inWord s
  | .self, _ =>
    let s := s.touchLine core a false
    let w := s.l1 core a
    s.setL1 core a { w with dirty := w.dirty ||| m, dval := mergeBytes w.dval m v }
  | .own, _ => inWord (s.fillWord core a .ownership .w false).s
  | .trk, st =>
    let s := (s.touchLine core a false).drainWord core a
    let ans := s.serve { Req.of .trkStore (some core) a with mask := m, data := v }
    let w := ans.s.l1 core a
    if st = .k then ans.s.setL1 core a { w with data := mergeBytes w.data m v }
    else ans.s.fillL1 core a { w with st := .k, data := ans.data, bad := ans.bad }
  | .thru, _ =>
    let s := (s.drainWord core a).unown core a
    let ans := s.serve { Req.of .thruStore (some core) a with mask := m, data := v }
    let w := ans.s.l1 core a
    if w.st = .i then ans.s else ans.s.setL1 core a { w with data := mergeBytes w.data m v }

/-- A near atomic (R65): the word is owned, then combined in the core. The answer's data is the old word. -/
def State.coreNear (s : State) (core a : Nat) (f : Word → Word) : Ans :=
  let w := s.l1 core a
  let ans : Ans := if w.st = .w then
      ({ s := (s.correctL1 core a).touchLine core a false, data := w.data, bad := w.bad } : Ans).report a
    else s.fillWord core a .ownership .w false
  if ans.bad then ans
  else
    let w := ans.s.l1 core a
    { ans with s := ans.s.setL1 core a { w with data := f ans.data } }

/-- A core's self-valid copy of a word leaves its L1. R87 does not list a far operation among what a copy leaves by; R65 and
R107 say that one never leaves an L1 copy, and keep other cores' copies alone, and R98 has the core's later loads return
its result (assumption 80). -/
def State.dropSelf (s : State) (core a : Nat) : State :=
  let w := s.l1 core a
  if w.st = .v then s.setL1 core a { w with st := .i, data := 0, bad := w.bad && w.dirty != 0 } else s

/-- A far atomic of a core (R65, R107, R124): its dirty bytes drain first, and its own self-valid copy does not stay. -/
def State.coreFar (s : State) (core : Nat) (r : Req) : Ans := ((s.drainWord core r.addr).dropSelf core r.addr).serve r

/-- A read at the home without a requester (R129). -/
def State.homeRead (s : State) (a : Nat) : Ans := s.serve (Req.of .thruLoad none a)

/-- A write at the home without a requester (R129). -/
def State.homeWrite (s : State) (a : Nat) (m : BitVec 8) (v : Word) : State :=
  (s.serve { Req.of .thruStore none a with mask := m, data := v }).s

/-! ### Releases and acquires (R68) -/

/-- The addresses of the words of a core's L1. -/
def State.coreWords (s : State) (core : Nat) : List Nat :=
  (s.coh.l1.filter fun l => l.core == core).flatMap fun l => lineWords l.line

/-- The word that a release of a core waits for: one whose dirty bytes cannot drain yet, or one with a write of the core
on its way (R68, R127, R134). -/
def State.releaseWait (s : State) (core : Nat) : Option Nat :=
  match (s.coreWords core).find? fun a => (s.l1 core a).dirty != 0 && s.wordBusy a with
  | some a => some a
  | none => (s.coh.inFlight.find? fun r => r.core == some core && r.mask != 0).map fun r => r.addr

/-- The L1 action of a release at device or system scope: every dirty byte drains (R68). -/
def State.release (s : State) (core : Nat) : State := (s.coreWords core).foldl (fun t a => t.drainWord core a) s

/-- The L1 action of an acquire at device or system scope: every word in V is dropped but for its dirty bytes
(R68, R100). -/
def State.acquire (s : State) (core : Nat) : State :=
  { s with coh := { s.coh with l1 := s.coh.l1.map fun l =>
      if l.core = core then
        { l with words := l.words.map fun w =>
            if w.st = .v then { w with st := .i, data := 0, bad := w.bad && w.dirty != 0 } else w }
      else l } }

end Sys2Proof.Machine
end

