-- ==== Sys2Proof/Machine/Translate.lean ====
section
/-! DEFINITION. Address translation (R426 to R434): the page walk, the TLBs, the pointer cache, the partition
fences (R180, R181) and the refusals of the physical map (R426, R445). -/

namespace Sys2Proof.Machine

/-- Who makes an access: core and cluster, U mode or not, the root and ASID it translates under, its partition,
and whether it uses physical addresses (M mode, R427). -/
structure Who where
  core    : Nat
  cluster : Nat
  user    : Bool
  spt     : Word
  part    : Nat
  phys    : Bool
  deriving DecidableEq, Repr

/-- The hart as a maker of accesses. -/
def Hart.who (h : Hart) : Who :=
  { core := h.core, cluster := h.cluster, user := h.mode == .u, spt := h.sptbase, part := h.lc.part,
    phys := h.mode == .m }

/-- The hart's engines and units under a captured mode and sptbase (R431). -/
def Hart.whoAs (h : Hart) (user : Bool) (spt : Word) : Who := { h.who with user := user, spt := spt }

/-- The rights an access needs (R431): read, write (with D), execute. -/
structure Need where
  r : Bool
  w : Bool
  x : Bool
  deriving DecidableEq, Repr

def Need.read : Need := ⟨true, false, false⟩
def Need.write : Need := ⟨false, true, false⟩
def Need.both : Need := ⟨true, true, false⟩
def Need.exec : Need := ⟨false, false, true⟩

/-- The access kind of a freeze record (R423). -/
def Need.kind (n : Need) : Nat := if n.x then 3 else if n.w then 2 else 1

/-- The rights as fence bits r, w, x (R180). -/
def Need.bits (n : Need) : Nat := b2n n.r + 2 * b2n n.w + 4 * b2n n.x

/-- Why an access does not reach its place. -/
inductive XFault where
  | notPresent
  | permission
  | window
  | violation (pa : Nat)
  | moving (pa : Nat)
  | busy (addr : Nat)
  | refused
  | bad
  deriving DecidableEq, Repr

/-- Whether the access is to be tried again: a moving page (R433), or a word whose home transaction is outstanding (R127).
-/
def XFault.waits : XFault → Bool
  | .moving _ | .busy _ => true
  | _ => false

/-- The answer of a translation, with the state. -/
abbrev Xl (α : Type) := Except XFault α × State

/-! ### Fences -/

/-- The fence entries of a cluster that grant partition p (R180). -/
def State.fencesOf (s : State) (cluster p : Nat) : List FenceEnt :=
  s.mmu.fences.filter fun e => e.cluster == cluster && flag e.attr 63 && field e.attr 32 8 == p

/-- Whether a fence entry covers n bytes from pa. -/
def FenceEnt.covers (e : FenceEnt) (pa n : Nat) : Bool := e.base.toNat ≤ pa && pa + n ≤ e.limit.toNat

/-- Whether a fence entry touches n bytes from pa. -/
def FenceEnt.touches (e : FenceEnt) (pa n : Nat) : Bool := e.base.toNat < pa + n && pa < e.limit.toNat

/-- The reserved top 64 MiB of LPDDR-6 (R176, R445). -/
def isReserved (pa : Nat) : Bool := 0x1FFFC000000 ≤ pa && pa < 0x20000000000

/-- The set of right combinations that entries covering n bytes from pa grant, one bit for each combination
(R181: one entry must grant every right of the access). -/
def State.fenceSet (s : State) (cluster p pa n : Nat) : Nat :=
  if p = 0 then 255
  else if isReserved pa then 0
  else ((s.fencesOf cluster p).filter fun e => e.covers pa n).foldl (fun acc e => acc ||| 2 ^ field e.attr 0 3) 0

/-- Whether some combination of the set has every right needed. -/
def fenceGrants (set : Nat) (n : Need) : Bool :=
  (List.range 8).any fun k => set.testBit k && k &&& n.bits == n.bits

/-- Whether one check over n bytes is permitted (R181). -/
def State.fenceOk (s : State) (cluster p pa n : Nat) (need : Need) : Bool :=
  fenceGrants (s.fenceSet cluster p pa n) need

/-! ### The walk -/

/-- Whether the map and the routes reach a physical address (R426, R441). -/
def State.reachable (s : State) (pa : Nat) : Bool :=
  match placeOf pa with
  | .hole => false
  | .pod m => m == s.link.module ||
      (match s.link.routes.find? (fun e => e.1 == m) with
       | some e => e.2 != 0
       | none => false)
  | _ => true

/-- The base of the local window (R58). -/
def localBase : Nat := 0x7F0000000000

/-- The base of the aperture region (R58, R310). -/
def apertureBase : Nat := 0x7F0100000000

/-- Whether an address lies in the local window region (R58). -/
def isLocal (va : Nat) : Bool := localBase ≤ va && va < apertureBase

/-- Whether an address lies in the aperture region (R58). -/
def isAperture (va : Nat) : Bool := apertureBase ≤ va && va < 0x7F0200000000

/-- Whether an address reaches memory by translation alone: 48 bits, outside the local window and the apertures (R58, R427,
R445). -/
def isMapped (va : Nat) : Bool := decide (va < 2 ^ 48) && !isLocal va && !isAperture va

/-- Whether a physical address is in a device window (R445; the Sash apertures are virtual). -/
def isWindow (pa : Nat) : Bool := placeOf pa == .control || placeOf pa == .notify

/-- The walker's read of a page-table entry (R432): a coherent home read without a requester, that needs r of the
fences (R181) and reaches no device window (R445). -/
def State.readPte (s : State) (w : Who) (pa : Nat) : Xl Word :=
  let pa := s.normPa pa
  if isWindow pa then (.error .permission, s)
  else if !s.fenceOk w.cluster w.part pa 8 .read then (.error (.violation pa), s)
  else if !s.reachable pa then (.error .permission, s)
  else if s.lostPeer pa then (.error .bad, s)
  else if s.wordBusy pa then (.error (.busy pa), s)
  else
    let a := s.homeRead pa
    if a.bad then (.error .bad, a.s) else (.ok a.data, a.s)

/-- ppn of an entry. -/
def ptePpn (e : Word) : Nat := field e 12 40

/-- A pointer to the next level (R429). -/
def ptePointer (e : Word) : Bool := flag e 0 && field e 2 3 == 0

/-- Whether the walker treats an entry found at this level as not present (R429), A = 0 of a leaf included. -/
def pteAbsent (e : Word) (level : Nat) : Bool :=
  !flag e 0 || field e 56 8 != 0 || field e 10 2 != 0 || (flag e 3 && !flag e 2) ||
  (flag e 9 && level != 0) ||
  (if ptePointer e then level == 0
   else level == 3 || !flag e 6 ||
     (level == 2 && ptePpn e % 2 ^ 18 != 0) || (level == 1 && ptePpn e % 2 ^ 9 != 0))

/-- Read n entries from pa on. -/
def State.readPtes (s : State) (w : Who) (pa : Nat) : Nat → Xl (List Word)
  | 0 => (.ok [], s)
  | n + 1 =>
    match s.readPte w pa with
    | (.error e, t) => (.error e, t)
    | (.ok v, t) =>
      match t.readPtes w (pa + 8) n with
      | (.error e, u) => (.error e, u)
      | (.ok vs, u) => (.ok (v :: vs), u)

/-- Whether sixteen entries form a 64 KiB page (R430). -/
def isGroup (es : List Word) : Bool :=
  match es with
  | [] => false
  | e :: _ =>
    ptePpn e % 16 == 0 &&
    (es.zipIdx.all fun (v, i) =>
      flag v 9 && !ptePointer v && !pteAbsent v 0 && field v 0 12 == field e 0 12 && ptePpn v == ptePpn e + i)

/-- The leaf a walk ends in: pages of 4 KiB, first page number, first physical page, the entry's low bits. -/
structure Leaf where
  pages : Nat
  vpn   : Nat
  ppn   : Nat
  bits  : Nat
  deriving DecidableEq, Repr

/-- The walk from a level's table down (R427, R429, R430). A group with an entry that cannot be read installs the 4 KiB
entry: no access faults because of the group. The pointers met are collected: (level, table page). -/
def State.walk (s : State) (w : Who) (va : Nat) : Nat → Nat → List (Nat × Nat) → Xl (Leaf × List (Nat × Nat))
  | level, table, ptrs =>
    let pa := table * 4096 + va / 2 ^ (12 + 9 * level) % 512 * 8
    match s.readPte w pa with
    | (.error e, t) => (.error e, t)
    | (.ok e, t) =>
      if pteAbsent e level then (.error .notPresent, t)
      else
        match level with
        | 0 =>
          let vpn := va / 4096
          if flag e 9 then
            match t.readPtes w (pa / 128 * 128) 16 with
            | (.error x, u) =>
              if x.waits then (.error x, u) else (.ok (⟨1, vpn, ptePpn e, field e 0 9⟩, ptrs), u)
            | (.ok es, u) =>
              if isGroup es then
                (.ok (⟨16, vpn / 16 * 16, ptePpn e / 16 * 16, field e 0 9⟩, ptrs), u)
              else (.ok (⟨1, vpn, ptePpn e, field e 0 9⟩, ptrs), u)
          else (.ok (⟨1, vpn, ptePpn e, field e 0 9⟩, ptrs), t)
        | k + 1 =>
          if ptePointer e then t.walk w va k (ptePpn e) ((k, ptePpn e) :: ptrs)
          else
            let n := 2 ^ (9 * (k + 1))
            (.ok (⟨n, va / 4096 / n * n, ptePpn e, field e 0 9⟩, ptrs), t)

/-! ### TLBs -/

/-- The ASID of an sptbase value (R428). -/
def sptAsid (spt : Word) : Nat := field spt 48 16

/-- The root table of an sptbase value (R428). -/
def sptRoot (spt : Word) : Nat := field spt 0 40

/-- Whether a TLB entry translates this page for this master. -/
def Tlb.hits (t : Tlb) (owner asid part vpn : Nat) : Bool :=
  t.owner == owner && (t.g || t.asid == asid) && t.part == part && t.vpn ≤ vpn && vpn < t.vpn + t.pages

/-- The set of a second-level entry (R432). -/
def Tlb.set2 (t : Tlb) : Nat :=
  (if t.pages = 1 then t.vpn else if t.pages = 16 then t.vpn / 16 else t.vpn / t.pages) % 1024

/-- Put an entry first in a core's TLB of 256 entries, the least recently used leaving (R432; assumption 7). -/
def Mmu.putTlb (m : Mmu) (t : Tlb) : Mmu :=
  let mine := (m.tlb.filter fun u => u.owner == t.owner && u != t).take 255
  { m with tlb := t :: mine ++ m.tlb.filter fun u => u.owner != t.owner }

/-- Put an entry first in its set of eight ways of the second-level TLB (R432). -/
def Mmu.putTlb2 (m : Mmu) (t : Tlb) : Mmu :=
  let same (u : Tlb) : Bool := u.owner == t.owner && u.set2 == t.set2
  let mine := (m.tlb2.filter fun u => same u && u != t).take 7
  { m with tlb2 := t :: mine ++ m.tlb2.filter fun u => !same u }

/-- Put a pointer entry first in a cluster's cache of 512 (R432; assumption 7). -/
def Mmu.putPtr (m : Mmu) (p : Ptr) : Mmu :=
  let mine := (m.ptrs.filter fun q => q.owner == p.owner && q != p).take 511
  { m with ptrs := p :: mine ++ m.ptrs.filter fun q => q.owner != p.owner }

/-- The cached pointer nearest the leaf for an address (R432): the table page of a level and the level. -/
def Mmu.findPtr (m : Mmu) (owner asid va : Nat) : Option (Nat × Nat) :=
  let at' (l : Nat) : Option (Nat × Nat) :=
    (m.ptrs.find? fun p =>
      p.owner == owner && p.asid == asid && p.level == l && p.pre == va / 2 ^ (12 + 9 * (l + 1))).map
      fun p => (l, p.ppn)
  match at' 0 with
  | some r => some r
  | none =>
    match at' 1 with
    | some r => some r
    | none => at' 2

/-- The TLB entry that a walk installs (R181): the whole page when a fence entry of the partition covers it and none
covers only a part of it, else the 4 KiB piece that the access touches, with what the fences grant at the address that
the page's own reaches (R426). -/
def State.mkTlb (s : State) (w : Who) (va : Nat) (l : Leaf) : Tlb :=
  let base := s.normPa (l.ppn * 4096)
  let fs := s.fencesOf w.cluster w.part
  let whole := w.part == 0 || l.pages == 1 ||
    ((fs.any fun e => e.covers base (l.pages * 4096)) &&
     fs.all fun e => e.covers base (l.pages * 4096) || !e.touches base (l.pages * 4096))
  let vpn := if whole then l.vpn else va / 4096
  let pages := if whole then l.pages else 1
  let ppn := if whole then l.ppn else l.ppn + (va / 4096 - l.vpn)
  { owner := w.core, asid := sptAsid w.spt, g := l.bits.testBit 8, vpn := vpn, pages := pages, ppn := ppn,
    bits := l.bits, part := w.part, fence := s.fenceSet w.cluster w.part (s.normPa (ppn * 4096)) (pages * 4096) }

/-- The TLB entry for an address: from the core's TLB, the second-level TLB, or a walk (R432). A leaf with M = 1
installs nothing and makes the access wait (R433). -/
def State.tlbFor (s : State) (w : Who) (va : Nat) : Xl Tlb :=
  let asid := sptAsid w.spt
  let vpn := va / 4096
  match s.mmu.tlb.find? (fun t => t.hits w.core asid w.part vpn) with
  | some t => (.ok t, { s with mmu := s.mmu.putTlb t })
  | none =>
    match s.mmu.tlb2.find? (fun t => t.hits w.cluster asid w.part vpn) with
    | some t =>
      let m := s.mmu.putTlb2 t
      (.ok { t with owner := w.core }, { s with mmu := m.putTlb { t with owner := w.core } })
    | none =>
      let start := match s.mmu.findPtr w.cluster asid va with
        | some r => r
        | none => (3, sptRoot w.spt)
      match s.walk w va start.1 start.2 [] with
      | (.error e, t) => (.error e, t)
      | (.ok (l, ptrs), t) =>
        if l.bits / 2 % 2 = 1 then (.error (.moving (l.ppn * 4096)), t)
        else
          let ent := t.mkTlb w va l
          let m := ptrs.foldr (fun p m => m.putPtr
            { owner := w.cluster, asid := asid, level := p.1, pre := va / 2 ^ (12 + 9 * (p.1 + 1)), ppn := p.2 }) t.mmu
          (.ok ent, { t with mmu := (m.putTlb2 { ent with owner := w.cluster }).putTlb ent })

/-- Whether a leaf's rights allow an access (R431): bits 5:2 are U, X, W, R and bit 7 is D. -/
def leafAllows (bits : Nat) (user : Bool) (n : Need) : Bool :=
  (!n.r || bits.testBit 2) && (!n.w || (bits.testBit 3 && bits.testBit 7)) && (!n.x || bits.testBit 4) &&
  (!user || bits.testBit 5) && !(n.x && !user && bits.testBit 5)

/-- Whether a peer answers the request for a word with a refusal, which then is over (R442). -/
def State.peerAnswer (s : State) (pa : Nat) : Xl Nat :=
  if s.link.refused.contains (wordAddr pa) then
    (.error .refused, { s with link := { s.link with refused := s.link.refused.erase (wordAddr pa) } })
  else (.ok pa, s)

/-- Translate an address and check the windows, the fences, the rights and the map. An access that may not reach a device
window is refused there whatever its fences hold (R142, R445); else a violation comes before every trap of the same access
(R181, R414, R426, R431). `dev` says that the access may reach a device window; a compute hart never reaches a control
window (R142). -/
def State.translate (s : State) (w : Who) (va : Nat) (n : Need) (dev : Bool) : Xl Nat :=
  if w.phys then
    let pa := s.normPa va
    if !s.reachable pa then (.error .permission, s)
    else if isWindow pa && !dev then (.error .window, s)
    else s.peerAnswer pa
  else
    match s.tlbFor w va with
    | (.error e, t) => (.error e, t)
    | (.ok ent, t) =>
      let pa := t.normPa (ent.ppn * 4096 + (va - ent.vpn * 4096))
      if isWindow pa && (!dev || placeOf pa == .control) then (.error .window, t)
      else if w.part != 0 && (isReserved pa || !fenceGrants ent.fence n) then (.error (.violation pa), t)
      else if !leafAllows ent.bits w.user n then (.error .permission, t)
      else if !t.reachable pa then (.error .permission, t)
      else t.peerAnswer pa

/-- Invalidate translations (R81, R434): of one page or all, of one ASID or all; a G entry only when `g` holds,
that is when no ASID register is named. Pointer entries of the ASID go whatever the page. -/
def Mmu.sfence (m : Mmu) (page asid : Option Nat) (g : Bool) : Mmu :=
  let hit (t : Tlb) : Bool :=
    (match page with
     | some p => t.vpn ≤ p && p < t.vpn + t.pages
     | none => true) &&
    (if t.g then g
     else match asid with
       | some a => t.asid == a
       | none => true)
  { m with
    tlb := m.tlb.filter fun t => !hit t
    tlb2 := m.tlb2.filter fun t => !hit t
    ptrs := m.ptrs.filter fun p => match asid with
      | some a => p.asid != a
      | none => false }

/-- A fence write invalidates every TLB entry of its cluster (R181). -/
def Mmu.dropCluster (m : Mmu) (cluster : Nat) : Mmu :=
  { m with
    tlb := m.tlb.filter fun t => t.owner / 16 != cluster
    tlb2 := m.tlb2.filter fun t => t.owner != cluster }

end Sys2Proof.Machine
end

