-- ==== Sys2Proof/Machine/Queue.lean ====
section
/-! DEFINITION. The command queues and their registers (R152 to R154), the watermarks (R167), and the notify
window as the host and the harts reach it (R153, R435). -/

namespace Sys2Proof.Machine

/-! ### Reading memory for the Mantles and the engines -/

/-- The physical addresses of n bytes at a virtual address, page piece by page piece, are read coherently at the
home, word by word (R129, R154); an address that no translation reaches is not present (R427, R445). `k` bounds the number of words. -/
def State.fetchWords (s : State) (w : Who) (va : Nat) : Nat → Xl (List Word)
  | 0 => (.ok [], s)
  | k + 1 =>
    if !isMapped va then (.error .notPresent, s) else
    match s.translate w va .read false with
    | (.error e, t) => (.error e, t)
    | (.ok pa, t) =>
      if t.lostPeer pa then (.error .bad, t)
      else if t.wordBusy (wordAddr pa) then (.error (.busy (wordAddr pa)), t)
      else
        let a := t.homeRead (wordAddr pa)
        if a.bad then (.error .bad, a.s)
        else
          match a.s.fetchWords w (va + 8) k with
          | (.error e, u) => (.error e, u)
          | (.ok ws, u) => (.ok (a.data :: ws), u)

/-- n words at a physical address, read by a Mantle at their home (R153, R129). -/
def State.readPhysWords (s : State) (pa : Nat) : Nat → Xl (List Word)
  | 0 => (.ok [], s)
  | k + 1 =>
    let pa := s.normPa pa
    if !s.reachable pa || isWindow pa || pa % 8 != 0 then (.error .permission, s)
    else if s.lostPeer pa then (.error .bad, s)
    else if s.wordBusy pa then (.error (.busy pa), s)
    else
      let a := s.homeRead pa
      if a.bad then (.error .bad, a.s)
      else
        match a.s.readPhysWords (pa + 8) k with
        | (.error e, u) => (.error e, u)
        | (.ok ws, u) => (.ok (a.data :: ws), u)

/-! ### Queues -/

/-- A queue that has never been enabled. -/
def Queue.init (q : Nat) : Queue :=
  { num := q, qctl := 0, enabled := false, ring := 0, size := 16, space := 0, ceiling := 0, user := false, errvec := 0,
    etag := 0, head := 0, tail := 0, stopped := false, code := 0, atEnable := false, waited := false, waits := [], notify := [] }

/-- The first word with an outstanding home transaction among the n bytes from a physical address. -/
def State.rangeBusy (s : State) (lo n : Nat) : Option Nat :=
  let lo := s.normPa lo
  match s.coh.inFlight.find? (fun r => lo ≤ r.addr && r.addr < lo + n) with
  | some r => some r.addr
  | none =>
    (s.coh.homes.find? fun e => e.moving && decide (e.gran * 65536 < lo + n) && decide (lo < e.gran * 65536 + 65536)).map
      fun e => max lo (e.gran * 65536) / 8 * 8

/-- Whether a queue descriptor keeps R152. Bits 7:6 of the level field, to which R152 gives no meaning, must be zero like
the bits it calls zero (assumption 64). -/
def queueDescOk (d : List Word) : Bool :=
  let g (i : Nat) : Nat := (d.getD i 0).toNat
  g 0 % 4096 == 0 && g 1 ≤ 12 && g 3 % 256 ≤ 47 && g 3 / 512 == 0 && g 4 ≤ 1023 && g 5 == 0 && g 6 == 0 && g 7 == 0

/-- Judge a notified tail T against head H and the tail last written (R154); all counts are modulo 2^32. -/
def Queue.accepts (k : Queue) (t : Nat) : Bool :=
  let d := (t + 2 ^ 32 - k.head) % 2 ^ 32
  let d0 := (k.tail + 2 ^ 32 - k.head) % 2 ^ 32
  d ≤ k.size && d0 ≤ d

/-- A notify takes effect: the new tail, or BAD-NOTIFY (R154). -/
def State.applyNotify (s : State) (q t : Nat) : State :=
  match s.queue? q with
  | none => s
  | some k =>
    if !k.enabled then s
    else if k.accepts t then s.setQueue { k with tail := t } else s.stopQueue q 5

/-- A write of QNOTIFY (R153, R154): ignored on a disabled queue, held while the queues are stopped (R149). -/
def State.qnotify (s : State) (q : Nat) (v : Word) : State :=
  let t := v.toNat % 2 ^ 32
  match s.queue? q with
  | none => s
  | some k =>
    if !k.enabled then s
    else if s.queuesRun then s.applyNotify q t
    else s.setQueue { k with notify := k.notify ++ [t] }

/-- Whether boot step 2 failed or step 5 found no slot that passes (R172): the host gets retry status until a package
reset. -/
def State.bootFailed (s : State) : Bool := s.fw.dead || s.host.mail.contains 172

/-- Enable a disabled queue (R153): the descriptor is read at its home, and a bad one leaves the queue enabled and
stopped; FETCH-FAULT at an enable raises no interrupt, whichever word of the descriptor the fault lies in, since no errvec
has been taken from it: R153 names none for it (assumption 82). The WAITs that the queue has taken go on (R153). The first
enable ends boot step 6 (R172), where boot has come so far. -/
def State.enableQueue (s : State) (q : Nat) (v : Word) : State :=
  let s := { s with host := { s.host with cfgOk := s.host.cfgOk || !s.bootFailed } }
  let old := s.queue? q
  let fresh : Queue := { Queue.init q with
    qctl := v, enabled := true
    waits := match old with | some k => k.waits | none => []
    waited := match old with | some k => k.waited | none => false }
  let stopped (s : State) (code vec : Nat) : State :=
    let t := s.setQueue { fresh with stopped := true, code := code, atEnable := true, errvec := vec }
    if vec < 1024 then t.raise vec else t
  match s.readPhysWords (v.toNat / 64 * 64) 8 with
  | (.error _, t) => stopped t 6 1024
  | (.ok d, t) =>
    let g (i : Nat) : Word := d.getD i 0
    if queueDescOk d then
      let user := flag (g 3) 8
      let ceil := field (g 3) 0 6
      t.setQueue { fresh with
        ring := g 0, size := 2 ^ ((g 1).toNat + 4), space := g 2 &&& 0xFFFF00FFFFFFFFFF, ceiling := if user && ceil > 39 then 39 else ceil,
        user := user, errvec := (g 4).toNat }
    else stopped t 2 (g 4).toNat

/-- A write of QCTL with enable = 1 (R153). A running queue is left unchanged but for the address that QCTL reads back,
which is the one written last (assumption 65). -/
def State.qctlOn (s : State) (q : Nat) (v : Word) : State :=
  let v := v &&& ~~~ 0x3E#64
  match s.queue? q with
  | some k =>
    if k.enabled then
      if k.stopped && !k.atEnable then s.setQueue { k with qctl := v, stopped := false, code := 0 }
      else s.setQueue { k with qctl := v }
    else s.enableQueue q v
  | none => s.enableQueue q v

/-- A write of QCTL with enable = 0: packets not yet taken are discarded (R153). -/
def State.qctlOff (s : State) (q : Nat) (v : Word) : State :=
  let v := v &&& ~~~ 0x3E#64
  match s.queue? q with
  | some k => s.setQueue { k with qctl := v, enabled := false, tail := k.head, notify := [] }
  | none => s.setQueue { Queue.init q with qctl := v }

/-- The word of the descriptor for which an enable of a disabled queue waits: its home transaction is outstanding
(R127). -/
def State.qctlWait (s : State) (q : Nat) (v : Word) : Option Nat :=
  let disabled := match s.queue? q with
    | some k => !k.enabled
    | none => true
  if flag v 0 && disabled then s.rangeBusy (v.toNat / 64 * 64) 64 else none

/-- A write of QCTL (R153). -/
def State.qctlWrite (s : State) (q : Nat) (v : Word) : State := if flag v 0 then s.qctlOn q v else s.qctlOff q v

/-- A read of QSTAT (R153). -/
def State.qstat (s : State) (q : Nat) : Word :=
  match s.queue? q with
  | some k => w64 (k.head % 2 ^ 32 * 2 ^ 32 + b2n k.stopped * 256 + k.code % 256)
  | none => 0

/-- What stands at an offset of the 8 MiB of the notify window and control region (R153). -/
inductive NotifyReg where
  | qnotify (q : Nat)
  | qstat (q : Nat)
  | qctl (q : Nat)
  | faultQueue (off : Nat)
  | hole
  deriving DecidableEq, Repr

def notifyReg (off : Nat) : NotifyReg :=
  if off < 0x400000 then
    if off % 4096 = 0 then .qnotify (off / 4096) else if off % 4096 = 8 then .qstat (off / 4096) else .hole
  else if 0x402000 ≤ off ∧ off < 0x404000 then .qctl ((off - 0x402000) / 8)
  else if 0x404000 ≤ off ∧ off < 0x405000 then .faultQueue (off - 0x404000)
  else .hole

/-! ### Watermarks (R167) -/

def State.wm? (s : State) (n : Nat) : Option Wm := s.sched.wms.find? fun w => w.num == n

/-- Replace a watermark, keeping the list in order of number. -/
def putWm (w : Wm) : List Wm → List Wm
  | [] => [w]
  | v :: vs => if w.num < v.num then w :: v :: vs else if w.num = v.num then w :: vs else v :: putWm w vs

def State.setWm (s : State) (w : Wm) : State :=
  { s with sched := { s.sched with wms := putWm w s.sched.wms } }

/-- The value of a watermark after v is published (R167). -/
def Wm.publish (w : Wm) (v : Nat) : Wm := { w with value := max w.value (min v (w.limit - w.base)) }

/-- Publish v on watermark n (R167). -/
def State.publish (s : State) (n v : Nat) : State :=
  match s.wm? n with
  | some w => s.setWm (w.publish v)
  | none => s

end Sys2Proof.Machine
end

