-- ==== Sys2Proof/Machine/Sha.lean ====
section
/-! DEFINITION. SHA-384 (FIPS 180-4), which R147, R174 and R178 name, over byte strings, and the CRC-64 of
R439. Both come from the public standards that the manual names (assumption 11). -/

namespace Sys2Proof.Machine

/-- The first n primes' search: whether p has no divisor from d up, by trial over fuel. -/
def noDivisor (p : Nat) : Nat → Nat → Bool
  | 0, _ => true
  | k + 1, d => if p < d * d then true else if p % d = 0 then false else noDivisor p k (d + 1)

/-- The primes below 410: eighty of them. -/
def shaPrimes : List Nat := (List.range 410).filter fun p => 2 ≤ p && noDivisor p 25 2

/-- The largest r with r ^ e ≤ n, from its bits b down. -/
def rootBits (e n : Nat) : Nat → Nat → Nat
  | 0, r => r
  | b + 1, r => let t := r + 2 ^ b; if t ^ e ≤ n then rootBits e n b t else rootBits e n b r

/-- The first 64 bits of the fraction of the e-th root of p. -/
def rootFrac (e p : Nat) : Nat := rootBits e (p * 2 ^ (64 * e)) 70 0 % 2 ^ 64

/-- The round constants: the cube roots of the first eighty primes. -/
def shaK : List Nat := shaPrimes.map (rootFrac 3)

/-- The initial hash of SHA-384: the square roots of the ninth to sixteenth primes. -/
def sha384Init : List Nat := ((shaPrimes.drop 8).take 8).map (rootFrac 2)

def rotr64 (n x : Nat) : Nat := x / 2 ^ n + x % 2 ^ n * 2 ^ (64 - n)

/-- The message schedule, newest word first. -/
def shaExtend : Nat → List Nat → List Nat
  | 0, ws => ws
  | k + 1, ws =>
    let w (i : Nat) : Nat := ws.getD (i - 1) 0
    let s0 := rotr64 1 (w 15) ^^^ rotr64 8 (w 15) ^^^ (w 15 / 2 ^ 7)
    let s1 := rotr64 19 (w 2) ^^^ rotr64 61 (w 2) ^^^ (w 2 / 2 ^ 6)
    shaExtend k ((w 16 + s0 + w 7 + s1) % 2 ^ 64 :: ws)

/-- One round. -/
def shaRound (st : List Nat) (kw : Nat) : List Nat :=
  match st with
  | [a, b, c, d, e, f, g, h] =>
    let s1 := rotr64 14 e ^^^ rotr64 18 e ^^^ rotr64 41 e
    let ch := (e &&& f) ^^^ ((2 ^ 64 - 1 - e) &&& g)
    let t1 := h + s1 + ch + kw
    let s0 := rotr64 28 a ^^^ rotr64 34 a ^^^ rotr64 39 a
    let maj := (a &&& b) ^^^ (a &&& c) ^^^ (b &&& c)
    [(t1 + s0 + maj) % 2 ^ 64, a, b, c, (d + t1) % 2 ^ 64, e, f, g]
  | _ => st

/-- A number from bytes, most significant first. -/
def natOfBE (bs : List Byte) : Nat := bs.foldl (fun n b => n * 256 + b.toNat) 0

/-- Process the blocks of 128 bytes. -/
def shaBlocks : Nat → List Byte → List Nat → List Nat
  | 0, _, st => st
  | k + 1, bs, st =>
    let ws := (List.range 16).map fun i => natOfBE ((bs.drop (8 * i)).take 8)
    let sched := (shaExtend 64 ws.reverse).reverse
    let out := (sched.zip shaK).foldl (fun t p => shaRound t (p.1 + p.2)) st
    shaBlocks k (bs.drop 128) ((st.zip out).map fun p => (p.1 + p.2) % 2 ^ 64)

/-- SHA-384 of a byte string. -/
def sha384 (bs : List Byte) : BitVec 384 :=
  let n := bs.length
  let zeros := (239 - n % 128) % 128
  let tail : List Byte := (0x80#8 :: List.replicate zeros 0) ++ (bytesOfNat 16 (8 * n)).reverse
  let msg := bs ++ tail
  let st := shaBlocks (msg.length / 128) msg sha384Init
  .ofNat 384 ((st.take 6).foldl (fun a x => a * 2 ^ 64 + x) 0)

/-- The bytes of a digest, first byte first. -/
def digestBytes (d : BitVec 384) : List Byte := (bytesOfNat 48 d.toNat).reverse

/-- One byte into the CRC-64 with the ECMA-182 polynomial, most significant bit first. -/
def crcByte (c : Nat) (b : Byte) : Nat :=
  (List.range 8).foldl (fun c _ =>
    if c.testBit 63 then ((c * 2) % 2 ^ 64) ^^^ 0x42F0E1EBA9EA3693 else c * 2) (c ^^^ (b.toNat * 2 ^ 56))

/-- The CRC-64 of R439 over a byte string. -/
def crc64 (bs : List Byte) : Nat := bs.foldl crcByte 0

end Sys2Proof.Machine
end

