-- ==== Sys2Proof/Machine/Firmware.lean ====
section
/-! DEFINITION. The firmware control block (R142 to R149), image checks (R173, R174), measurement and its log
(R147, R178), and the resets of the Mantle harts (R148). -/

namespace Sys2Proof.Machine

/-! ### Measurement (R147, R178) -/

/-- Extend measurement register i by digest d and append the log entry (R178). Past entry 4,095 the register
becomes all ones and the log stops. -/
def State.extendMeas (s : State) (i event slot : Nat) (version : BitVec 32) (d : BitVec 384) : State :=
  let old := s.fw.meas.getD i 0
  let n := s.fw.log.length
  if s.fw.logStop || 4096 ≤ n then
    { s with fw := { s.fw with meas := s.fw.meas.set i (BitVec.allOnes 384), logStop := true } }
  else
    let e : LogEnt := { index := n, event := event, slot := slot, reg := i, version := version, digest := d }
    { s with fw := { s.fw with
        meas := s.fw.meas.set i (sha384 (digestBytes old ++ digestBytes d)), log := s.fw.log ++ [e] } }

/-- The bytes of a slot's image (R175). -/
def Fw.image (f : Fw) (slot : Nat) : List Byte :=
  if slot = 0 then f.flash0.bytes 0 f.len0 else f.flash1.bytes 0 f.len1

/-- The version word of a slot (R143 FWVER). -/
def Fw.version (f : Fw) (slot : Nat) : BitVec 32 := if slot = 0 then f.ver0 else f.ver1

/-! ### Image checks (R173, R174) -/

/-- The verdict on an image: it passes, or the state code it gives (R146, R174). -/
inductive ImageVerdict where
  | pass (version : BitVec 32)
  | fail (code : Nat)
  deriving DecidableEq, Repr

/-- Check an image of L bytes of a kind (1 host-die firmware, 2 Mantle firmware) under R173 and R174. -/
def checkImage (f : Fw) (img : Memory) (len kind : Nat) : ImageVerdict :=
  let g (o n : Nat) : Nat := img.read o n
  let zero (o n : Nat) : Bool := (img.bytes o n).all (· == 0)
  let rkey := g 0x20 1
  let skey := g 0x21 1
  let modulus := img.bytes 0x40 384
  let expo := img.bytes 0x1C0 4
  let pub := img.bytes 0x1C4 48
  let msg := img.bytes 0 (len - 16608)
  let headerOk :=
    g 0 4 == 0x51414746 && g 4 4 == kind && g 8 4 != 0 && g 0x10 8 == len && g 0x18 8 % 4 == 0 && decide (g 0x18 8 < len) &&
    decide (rkey ≤ 3) && decide (skey ≤ 3) && zero 0x22 30 && zero 0x1F4 12 && decide (0x200 + 16608 ≤ len)
  let keysOk := Config.fuseMatches 0 rkey (sha384 (modulus ++ expo)) && Config.fuseMatches 1 skey (sha384 pub) &&
    !f.revoke.testBit rkey && !f.revoke.testBit (4 + skey)
  let svnOk := f.svnMin ≤ g 0xC 4
  let signed := Config.rsaVerifies msg modulus expo (img.bytes (len - 16608) 384) &&
    Config.slhVerifies msg pub (img.bytes (len - 16224) 16224)
  if !(headerOk && keysOk && svnOk) then .fail 0x82
  else if !signed then .fail 0x81
  else .pass (.ofNat 32 (g 8 4))

/-! ### Mantle resets (R148) -/

/-- One Mantle hart after the reset into a slot (R148). -/
def Hart.mantleReset (h : Hart) (pc : Word) (req : Bool) : Hart :=
  if h.isMantle then
    { h with
      x := Vector.replicate 32 0, mode := .m, pc := pc, inbox := ⟨[], []⟩, status := .run, yielded := [], lim := none,
      cap := none,
      trap := { h.trap with pfxLive := false, pfxTret := false, fresh := none }
      mant := { h.mant with mhbeat := 0, beaten := false, stopped := req } }
  else h

/-- Whether a request is an access of a Mantle hart, which has an L1 of its own (assumption 8): no drain of dirty bytes, no
notice and no write-back, which belong to accesses that are performed. -/
def Req.ofMantle (r : Req) : Bool :=
  (match r.core with | some c => decide (1024 ≤ c) | none => false) &&
  (match r.kind with
   | .selfFill | .trkLoad | .ownership | .thruLoad | .trkStore | .thruStore | .far => true
   | .drain | .cwb | .evictNotice | .wbEvict => false)

/-- The Mantle harts' accesses that have not been performed are discarded (R148): those that wait go, and one whose
messages are still outstanding takes no effect once they are acknowledged. A far operation whose updates are on their way
has been performed. -/
def Coh.dropMantle (c : Coh) : Coh :=
  { c with
    reqs := c.reqs.filter fun r => !r.ofMantle
    homes := c.homes.map fun e => { e with held := e.held.filter fun r => !r.ofMantle }
    txns := c.txns.map fun t =>
      if t.req.ofMantle ∧ t.req.kind ≠ .far then
        { t with req := { t.req with kind := .thruLoad, core := none } }
      else t }

/-- Reset every Mantle hart into a slot in one step (R148): pc at the slot's mirror plus the header's entry
offset, the accesses not yet performed discarded, and the Mantles' instruction caches empty. -/
def State.resetMantles (s : State) (slot : Nat) : State :=
  let pc := w64 (mirrorBase slot + s.mem.read (mirrorBase slot + 0x18) 8)
  let s := s.mapHarts fun h => h.mantleReset pc s.fw.req
  { s with coh := { s.coh.dropMantle with icache := s.coh.icache.filter fun l => l.core < 1024 } }

/-- The queues resume: every held notify takes effect in order (R149). -/
def State.resumeQueues (s : State) : State :=
  if s.queuesRun then
    s.sched.queues.foldl (fun t k =>
      k.notify.foldl (fun t v => t.applyNotify k.num v)
        (match t.queue? k.num with
         | some j => t.setQueue { j with notify := [] }
         | none => t)) s
  else s

/-- An accepted SWITCH (R145, R148): reset into the inactive slot, state ARMED, a heartbeat window opens. -/
def State.switchSlot (s : State) : State :=
  let slot := 1 - s.fw.slot
  let s := { s with fw := { s.fw with slot := slot, ver := false, rb := false, arm := true, state := 4 } }
  s.resetMantles slot

/-- Whether every Mantle hart has beaten since its last reset (R145). -/
def State.allBeaten (s : State) : Bool := s.harts.all fun h => !h.isMantle || h.mant.beaten

/-- What all hearts having beaten does (R145): the window closes; ARMED becomes COMMITTED, and the running slot is
the one that boot uses (R175). -/
def State.beatCheck (s : State) : State :=
  if s.fw.arm && s.allBeaten then
    let fw := { s.fw with arm := false }
    let fw := if fw.state = 4 then { fw with state := 5, bootSlot := fw.slot } else fw
    { s with fw := fw }.resumeQueues
  else s

/-- The heartbeat window expires (R145, R148): roll back from ARMED, or halt every Mantle hart when the rolled-back
image has not beaten either, which the host learns through the management interface. -/
def State.windowExpire (s : State) : State :=
  if !s.fw.arm then s
  else if s.fw.state = 4 then
    let slot := 1 - s.fw.slot
    let s := { s with fw := { s.fw with slot := slot, ver := false, rb := true, arm := true, state := 6 } }
    let s := s.extendMeas 2 2 slot (s.fw.version slot) (sha384 (s.fw.image slot))
    s.resetMantles slot
  else
    let s := s.mapHarts fun h => if h.isMantle then { h with status := .ended } else h
    { s with fw := { s.fw with arm := false, state := 0x85 }, host := { s.host with mail := s.host.mail ++ [145] } }.resumeQueues

/-! ### Commands (R145, R146, R147) -/

/-- Whether a state of FWSTAT is one of the rest states of R145, or VERIFIED or MEASURED, which accept INSTALL. -/
def Fw.takesInstall (f : Fw) : Bool :=
  [0, 5, 0x81, 0x82, 2, 3].contains f.state || (f.state == 6 && !f.arm)

/-- FWQUI.done: every Mantle has stopped with no packet half consumed (R143). -/
def State.quiesced (s : State) : Bool := s.fw.req && s.harts.all fun h => !h.isMantle || h.mant.stopped

/-- A command is ignored and sets oo (R143). -/
def State.cmdIgnored (s : State) : State := { s with fw := { s.fw with oo := true } }

/-- INSTALL is accepted: busy until it completes (R145). -/
def State.cmdInstall (s : State) : State :=
  if !s.fw.busy && s.fw.takesInstall then { s with fw := { s.fw with busy := true, cmd := 1 } } else s.cmdIgnored

/-- MEASURE is accepted in VERIFIED (R145). -/
def State.cmdMeasure (s : State) : State :=
  if !s.fw.busy && s.fw.state == 2 then { s with fw := { s.fw with busy := true, cmd := 2 } } else s.cmdIgnored

/-- SWITCH is accepted in MEASURED with FWQUI.done = 1 (R145). -/
def State.cmdSwitch (s : State) : State :=
  if !s.fw.busy && s.fw.state == 3 && s.quiesced then s.switchSlot else s.cmdIgnored

/-- A store to FWCMD (R143). -/
def State.fwCommand (s : State) (v : Word) : State :=
  match v.toNat with
  | 1 => s.cmdInstall
  | 2 => s.cmdMeasure
  | 3 => s.cmdSwitch
  | _ => s.cmdIgnored

/-- Copy n words of the staged image into a slot: flash and mirror (R146 step 1, R175). none when a read fails. -/
def State.copyImage (s : State) (src slot : Nat) : Nat → Nat → Option State
  | 0, _ => some s
  | n + 1, i =>
    match s.readPhysWords (src + 8 * i) 1 with
    | (.ok [v], t) =>
      let t := t.homeWrite (mirrorBase slot + 8 * i) 255 v
      let fw := if slot = 0 then { t.fw with flash0 := t.fw.flash0.write (8 * i) 8 v.toNat }
        else { t.fw with flash1 := t.fw.flash1.write (8 * i) 8 v.toNat }
      { t with fw := fw }.copyImage src slot n (i + 1)
    | _ => none

/-- Set a slot's version word and length. -/
def Fw.setSlot (f : Fw) (slot : Nat) (version : BitVec 32) (len : Nat) : Fw :=
  if slot = 0 then { f with ver0 := version, len0 := len } else { f with ver1 := version, len1 := len }

/-- Whether a word of the staged image or of the slot's mirror has an outstanding home transaction (R127). -/
def State.installBusy (s : State) : Bool :=
  (s.rangeBusy s.fw.src.toNat s.fw.len.toNat).isSome ||
  (s.rangeBusy (mirrorBase (1 - s.fw.slot)) s.fw.len.toNat).isSome

/-- INSTALL completes (R146): VERIFIED, or BAD-SIGNATURE or BAD-IMAGE with the slot's version word and ver 0. FWSRC and
FWLEN are taken as they stand now (assumption 66). Where they break R143, or a read fails, the slot keeps the bytes it
held and only its length becomes FWLEN (assumption 67). -/
def State.installDone (s : State) : State :=
  if s.installBusy then s
  else
  let slot := 1 - s.fw.slot
  let len := s.fw.len.toNat
  let failed (t : State) (code : Nat) : State :=
    { t with fw := { (t.fw.setSlot slot 0 len) with ver := false, state := code, busy := false, cmd := 0 } }
  if s.fw.src.toNat % 4096 ≠ 0 ∨ len % 4096 ≠ 0 ∨ len < 0x10000 ∨ 0x800000 < len then failed s 0x82
  else
    match s.copyImage s.fw.src.toNat slot (len / 8) 0 with
    | none => failed s 0x82
    | some t =>
      match checkImage t.fw (if slot = 0 then t.fw.flash0 else t.fw.flash1) len 2 with
      | .fail code => failed t code
      | .pass v => { t with fw := { (t.fw.setSlot slot v len) with ver := true, state := 2, busy := false, cmd := 0 } }

/-- MEASURE completes (R147). -/
def State.measureDone (s : State) : State :=
  let slot := 1 - s.fw.slot
  let s := s.extendMeas 2 1 slot (s.fw.version slot) (sha384 (s.fw.image slot))
  { s with fw := { s.fw with state := 3, busy := false, cmd := 0 } }

/-! ### The registers (R143, R144) -/

/-- A load from the block at offset off. -/
def State.fwLoad (s : State) (off : Nat) : Word :=
  match off with
  | 0x00 => w64 (b2n s.fw.req + 2 * b2n s.quiesced)
  | 0x08 => s.fw.src
  | 0x10 => s.fw.len
  | 0x20 => w64 (s.fw.state + 256 * b2n s.fw.busy + 512 * b2n s.fw.oo)
  | 0x28 => w64 (s.fw.slot + 2 * b2n s.fw.arm + 4 * b2n s.fw.ver + 8 * b2n s.fw.rb)
  | 0x30 => s.fw.hand
  | 0x38 => w64 (s.fw.ver1.toNat * 2 ^ 32 + s.fw.ver0.toNat)
  | _ => 0

/-- FWQUI.req := 1: the Mantles stop at their next packet boundary (R143). -/
def State.quiesce (s : State) : State := { s with fw := { s.fw with req := true } }

/-- FWQUI.req := 0: the Mantles and the queues resume (R143, R149). -/
def State.unquiesce (s : State) : State :=
  let s := { s with fw := { s.fw with req := false } }
  (s.mapHarts fun h => { h with mant := { h.mant with stopped := false } }).resumeQueues

/-- A store to the block at offset off by the lead Mantle hart. -/
def State.fwStore (s : State) (off : Nat) (v : Word) : State :=
  match off with
  | 0x00 => if flag v 0 then s.quiesce else s.unquiesce
  | 0x08 => { s with fw := { s.fw with src := v } }
  | 0x10 => { s with fw := { s.fw with len := v } }
  | 0x18 => s.fwCommand v
  | 0x20 => if flag v 9 then { s with fw := { s.fw with oo := false } } else s
  | _ => s

/-- Whether a store to the block at offset off resets the Mantle harts: an accepted SWITCH (R148). -/
def State.fwStoreResets (s : State) (off : Nat) (v : Word) : Bool :=
  off == 0x18 && v == 3 && !s.fw.busy && s.fw.state == 3 && s.quiesced

/-- A Mantle hart writes mhbeat (R145, R171): a nonzero value is a beat. -/
def State.writeBeat (s : State) (v : Word) : State :=
  let h := s.h
  let h := { h with mant := { h.mant with mhbeat := v, beaten := h.mant.beaten || v != 0 } }
  let silent := if v = 0 then s.pow.silent else s.pow.silent.filter (· != clusterNum h.cluster)
  { s with h := h, pow := { s.pow with silent := silent } }.beatCheck

end Sys2Proof.Machine
end

