-- ==== Sys2Proof/Machine/Access.lean ====
section
/-! DEFINITION. The memory accesses of a hart (R58 to R66, R112, R252): address checks, the local window, the
Sash apertures, the device windows, loads, stores and atomics. -/

namespace Sys2Proof.Machine

/-- What an access fault means for the hart that made it (R58, R405, R417, R433, R442). -/
def XFault.stop (e : XFault) (va : Word) (n : Need) (elem : Nat) : Stop :=
  match e with
  | .notPresent => .trap (pageNotPresent va)
  | .permission | .window | .refused => .trap (pagePermission va)
  | .violation pa => .freeze { va := va, pa := pa, kind := n.kind, elem := elem }
  | .moving pa => .wait (.moving pa)
  | .busy a => .wait (.word a)
  | .bad => .trap (uncorrectable va)

/-- Where a checked access goes: the scratchpad at an offset, or a physical address. -/
inductive Loc where
  | scratch (off : Nat)
  | phys (pa : Nat)
  deriving DecidableEq, Repr

/-- The misaligned trap (R58). -/
def misaligned (va : Word) : Stop := .trap (.sync 1 va)

/-- The checks of R58 in its order: the 48-bit range, the local window, the apertures, alignment, translation. A
misaligned access that reaches a device window takes page-permission (R142, R153; assumption 22). -/
def State.locate (s : State) (ea : Word) (size : Nat) (aligned : Bool) (n : Need) (dev : Bool) (elem : Nat) :
    Res Loc :=
  let va := ea.toNat
  let off := aligned && va % size != 0
  if 2 ^ 48 ≤ va then .stop (.trap (pageNotPresent ea)) s
  else if isLocal va then
    if s.h.lc.scratch < va - localBase + size then .stop (.trap (pagePermission ea)) s
    else if off then .stop (misaligned ea) s
    else .ok (.scratch (va - localBase)) s
  else if isAperture va then .stop (.trap (pagePermission ea)) s
  else
    match s.translate s.h.who va n dev with
    | (.error e, t) => if off && e != .window then .stop (misaligned ea) s else .stop (e.stop ea n elem) t
    | (.ok pa, t) =>
      if off then (if isWindow pa then .stop (.trap (pagePermission ea)) t else .stop (misaligned ea) s)
      else .ok (.phys pa) t

/-! ### Watermarks (R112) -/

/-- The acquired value of a watermark for a hart. -/
def LaunchCtx.acquired (c : LaunchCtx) (n : Nat) : Nat :=
  match c.acq.find? (fun e => e.1 == n) with
  | some e => e.2
  | none => 0

/-- Record an acquired value. -/
def LaunchCtx.setAcquired (c : LaunchCtx) (n v : Nat) : LaunchCtx :=
  { c with acq := (n, v) :: c.acq.filter fun e => e.1 != n }

/-- The wait and the acquire of a load whose last byte is `last`, for each watermark the launch names (R112). -/
def State.wmGate (s : State) (last : Nat) : List Nat → Except Wait State
  | [] => .ok s
  | n :: ns =>
    match s.wm? n with
    | none => s.wmGate last ns
    | some w =>
      if w.base + s.h.lc.acquired n ≤ last ∧ last < w.limit then
        if last < w.base + w.value then
          let t := { s.acquire s.h.core with h := { s.h with lc := s.h.lc.setAcquired n w.value } }
          t.wmGate last ns
        else .error (.watermark n last)
      else s.wmGate last ns

/-! ### Loads and stores at a place -/

/-- A read of n bytes from byte `off` of a region of the pool corrects its single-bit errors, which are counted (R140,
R184). Regions as in `Hart.badPool`; in the mask store `off` is 8 × the register's number. -/
def State.readPool (s : State) (kind off n : Nat) : State :=
  let hit (e : Nat × Nat) : Bool := e.1 == kind && decide (off < 8 * e.2 + 8) && decide (8 * e.2 < off + n)
  if s.h.weakPool.any hit then
    { s with
      h := { s.h with weakPool := s.h.weakPool.filter fun e => !hit e }
      pow := { s.pow with corr := (s.h.weakPool.filter hit).foldl (fun c _ => bump c (coreDie s.h.core * 4 + 2)) s.pow.corr } }
  else s

/-- Read n bytes (within one aligned word) at a place under a policy; `last` is the last byte of the whole access, for
the watermarks, which stand over the local window like over memory (R112). -/
def State.readLocTo (s : State) (last : Nat) (l : Loc) (ea : Word) (n : Nat) (pol : Policy) : Res Nat :=
  match l with
  | .scratch off =>
    match s.wmGate last s.h.lc.binds with
    | .error w => .stop (.wait w) s
    | .ok s =>
      if s.h.badPool.contains (1, off / 8) then .stop (.trap (uncorrectable ea)) s
      else .ok (s.h.scratch.read off n) (s.readPool 1 off n)
  | .phys pa =>
    if s.lostPeer pa then .stop (.trap (uncorrectable ea)) s
    else
      match s.accessWait s.h.core (wordAddr pa) pol with
      | some a => .stop (.wait (.word a)) s
      | none =>
        match s.wmGate last s.h.lc.binds with
        | .error w => .stop (.wait w) s
        | .ok t =>
          let a := t.coreLoad t.h.core pol (wordAddr pa) (byteMask (pa % 8) n)
          if a.bad then .stop (.trap (uncorrectable ea)) a.s else .ok (wordField a.data (pa % 8) n) a.s

/-- Read n bytes (within one aligned word), a whole access. -/
def State.readLoc (s : State) (l : Loc) (ea : Word) (n : Nat) (pol : Policy) : Res Nat :=
  s.readLocTo (ea.toNat + n - 1) l ea n pol

/-- Words of the pool written in full lose their error (R140, R141). -/
def Hart.cleanPool (h : Hart) (kind off n : Nat) : Hart :=
  let keep (e : Nat × Nat) : Bool := !(e.1 == kind && off ≤ 8 * e.2 && 8 * e.2 + 8 ≤ off + n)
  if h.badPool.isEmpty && h.weakPool.isEmpty then h
  else { h with badPool := h.badPool.filter keep, weakPool := h.weakPool.filter keep }

/-- Write the low n bytes of v (within one aligned word) at a place under a policy. -/
def State.writeLoc (s : State) (l : Loc) (n : Nat) (pol : Policy) (v : Nat) : Res Unit :=
  match l with
  | .scratch off => .ok () { s with h := { (s.h.cleanPool 1 off n) with scratch := s.h.scratch.write off n v } }
  | .phys pa =>
    if s.lostPeer pa then .ok () s.lostStore
    else
      match s.accessWait s.h.core (wordAddr pa) pol with
      | some a => .stop (.wait (.word a)) s
      | none =>
        .ok () (s.coreStore s.h.core pol (wordAddr pa) (byteMask (pa % 8) n)
          (w64 (v % 2 ^ (8 * n) * 2 ^ (8 * (pa % 8)))))

/-! ### Device windows (R142, R153) -/

/-- A scalar load from a device window; none where no access is accepted. -/
def State.devLoad (s : State) (pa n : Nat) (pol : Policy) : Option Word :=
  if placeOf pa = .control then
    let off := pa % 0x100000
    if n = 8 ∧ pol = .thru ∧ 0x4000 ≤ off ∧ off < 0x4040 then some (s.fwLoad (off - 0x4000)) else none
  else if n = 8 then
    match notifyReg (pa - 0x3FF00000000) with
    | .qnotify _ => some 0
    | .qstat q => some (s.qstat q)
    | .qctl q => some (match s.queue? q with | some k => k.qctl | none => 0)
    | .faultQueue _ => some 0
    | .hole => none
  else none

/-- A scalar store to a device window; none where no access is accepted. -/
def State.devStore (s : State) (pa n : Nat) (pol : Policy) (v : Word) : Option State :=
  if placeOf pa = .control then
    let off := pa % 0x100000
    if n = 8 ∧ pol = .thru ∧ 0x4000 ≤ off ∧ off < 0x4040 then
      some (if s.h.id = mantleId 0 then s.fwStore (off - 0x4000) v else s)
    else none
  else if n = 8 then
    match notifyReg (pa - 0x3FF00000000) with
    | .qnotify q => some (s.qnotify q v)
    | .qstat _ => some s
    | .qctl q => some (s.qctlWrite q v)
    | .faultQueue _ => some s
    | .hole => none
  else none

/-- The word for which a store to a device window waits: an enabled queue's descriptor (R127, R153). -/
def State.devWait (s : State) (pa : Nat) (v : Word) : Option Nat :=
  if placeOf pa = .notify then
    match notifyReg (pa - 0x3FF00000000) with
    | .qctl q => s.qctlWait q v
    | _ => none
  else none

/-- A scalar store to a device window: page-permission where it accepts none (R142, R153). -/
def State.storeWindow (s : State) (ea : Word) (pa n : Nat) (pol : Policy) (v : Word) : Res Unit :=
  match s.devWait pa v with
  | some a => .stop (.wait (.word a)) s
  | none =>
    match s.devStore pa n pol v with
    | some u => .ok () u
    | none => .stop (.trap (pagePermission ea)) s

/-- Whether a scalar store resets the Mantle harts: the lead's accepted SWITCH (R148). -/
def State.storeResets (s : State) (pa : Nat) (v : Word) : Bool :=
  placeOf pa == .control && s.h.id == mantleId 0 && pa % 0x100000 / 0x40 == 0x100 && s.fwStoreResets (pa % 0x100000 - 0x4000) v

/-! ### The Sash apertures (R310) -/

/-- The hart's staging record at the Sash of a cluster. -/
def Hart.stage (h : Hart) (cluster : Nat) : Memory :=
  match h.staging.find? (fun e => e.cluster == cluster) with
  | some e => e.bytes
  | none => []

/-- The records of a mesh hart that stand in a Sash's input queue. -/
def State.stagedBy (s : State) (h : Hart) (cluster : Nat) : Nat :=
  (s.gfx.input.filter fun p => some p.launch == h.lc.launch && p.hart == h.lc.rank && p.cluster == cluster).length

/-- Whether the aperture region accepts an SD.thru of the hart to this address (R310). -/
def Hart.sashTakes (h : Hart) (va : Nat) : Bool :=
  h.lc.kind == 1 && h.lc.launch.isSome && decide ((va - apertureBase) / 4096 < 48) && va % 8 == 0 &&
  decide ((va - apertureBase) % 4096 ≤ 0x40)

/-- An accepted SD.thru of a mesh hart to an aperture (R310). The notify store waits while the input queue for the hart
holds four records. -/
def State.sashStore (s : State) (va : Nat) (v : Word) : Res Unit :=
  let n := (va - apertureBase) / 4096
  let off := (va - apertureBase) % 4096
  if off < 0x40 then
    let e : Staging := { cluster := n, bytes := (s.h.stage n).write off 8 v.toNat }
    .ok () { s with h := { s.h with staging := e :: s.h.staging.filter fun k => k.cluster != n } }
  else if 4 ≤ s.stagedBy s.h n then .stop (.wait (.sash n)) s
  else
    let p : Pushed := { cluster := n, launch := s.h.lc.launch.getD 0, hart := s.h.lc.rank,
                        mesh := s.h.lc.coords.headD 0,
                        words := (List.range 16).map fun i => (s.h.stage n).read (4 * i) 4 }
    .ok () { s with gfx := { s.gfx with input := s.gfx.input ++ [p] } }

/-! ### Stores that are held until they are confirmed (R274) -/

/-- Whether the byte ranges of n bytes from a and k bytes from b share a byte. -/
def sharesByte (a n b k : Nat) : Bool := decide (a < b + k) && decide (b < a + n)

/-- Whether a held store of the hart shares a byte with an access of n bytes: the access waits for it (R102). -/
def Hart.heldAt (h : Hart) (va : Nat) (l : Loc) (n : Nat) : Bool :=
  h.unconf.any fun u =>
    match u.store, l with
    | some st, .phys pa => (match st.pa with | some p => sharesByte p st.size pa n | none => false)
    | some st, .scratch _ => st.pa.isNone && sharesByte st.va.toNat st.size va n
    | none, _ => false

/-- The store stands with the youngest unconfirmed instruction. -/
def Hart.hold (h : Hart) (st : HeldStore) : Hart :=
  { h with unconf := h.unconf.modify (h.unconf.length - 1) fun u => { u with store := some st } }

/-- Perform a held store (R274). -/
def State.performHeld (s : State) (st : HeldStore) : Res Unit :=
  match st.pa with
  | some pa =>
    if isWindow pa then s.storeWindow st.va pa st.size st.pol st.val
    else s.writeLoc (.phys pa) st.size st.pol st.val.toNat
  | none =>
    if isAperture st.va.toNat then s.sashStore st.va.toNat st.val
    else s.writeLoc (.scratch (st.va.toNat - localBase)) st.size st.pol st.val.toNat

/-- Perform the hart's oldest confirmed stores, up to n of them (R274). -/
def State.flushHeld (s : State) : Nat → Res Unit
  | 0 => .ok () s
  | n + 1 =>
    match s.h.unconf with
    | u :: us =>
      if u.older ≠ 0 then .ok () s
      else
        let r : Res Unit := match u.store with
          | some st => s.performHeld st
          | none => .ok () s
        r.bind fun _ t => { t with h := { t.h with unconf := us } }.flushHeld n
    | [] => .ok () s

/-- A hart's held stores come to an end: what is unconfirmed is undone, and the confirmed stores are performed as far as none
has to wait. -/
def State.discharge (s : State) (id : Nat) : State :=
  s.onHart id fun t =>
    if t.h.unconf.isEmpty then t
    else
      match { t with h := t.h.settleHeld }.flushHeld t.h.unconf.length with
      | .ok _ u => u
      | .stop _ u => u

/-- Every store that another hart holds, and that has translated already, is performed (R138, R434). -/
def State.dischargeOthers (s : State) : State :=
  ((s.others.filter fun g => !g.unconf.isEmpty).map fun g => g.id).foldl State.discharge s

/-- Whether another hart still holds one, which has to wait. -/
def State.holdsStores (s : State) : Bool := s.others.any fun g => !g.unconf.isEmpty

/-! ### The hart's accesses -/

/-- A scalar load of n bytes (R58, R59). Ahead of the vector half it waits for a held store to the same bytes. -/
def State.scalarLoad (s : State) (ea : Word) (n : Nat) (pol : Policy) : Res Nat :=
  (s.locate ea n true .read true 0).bind fun l t =>
    if t.h.heldAt ea.toNat l n then .stop (.wait .yoke) t
    else
      match l with
      | .phys pa =>
        if isWindow pa then
          match t.devLoad pa n pol with
          | some v =>
            match t.wmGate (ea.toNat + n - 1) t.h.lc.binds with
            | .error w => .stop (.wait w) t
            | .ok u => .ok v.toNat u
          | none => .stop (.trap (pagePermission ea)) t
        else t.readLoc l ea n pol
      | .scratch _ => t.readLoc l ea n pol

/-- A scalar store of n bytes at its checked place (R60); ahead of the vector half it is held (R274). The value is true
when the store reset the Mantle harts. -/
def State.storeAt (s : State) (l : Loc) (ea : Word) (n : Nat) (pol : Policy) (v : Word) : Res Bool :=
  let held (pa : Option Nat) : Res Bool := .ok false { s with h := s.h.hold ⟨ea, pa, n, pol, v⟩ }
  match l with
  | .phys pa =>
    if isWindow pa then
      if s.h.ahead then
        match s.devStore pa n pol v with
        | some _ => held (some pa)
        | none => .stop (.trap (pagePermission ea)) s
      else (s.storeWindow ea pa n pol v).bind fun _ u => .ok (s.storeResets pa v) u
    else if s.h.ahead then held (some pa)
    else (s.writeLoc l n pol v.toNat).bind fun _ u => .ok false u
  | .scratch _ =>
    if s.h.ahead then held none else (s.writeLoc l n pol v.toNat).bind fun _ u => .ok false u

/-- A scalar store of n bytes (R58, R60). The value is true when the store reset the Mantle harts. -/
def State.scalarStore (s : State) (ea : Word) (n : Nat) (pol : Policy) (v : Word) : Res Bool :=
  if isAperture ea.toNat ∧ n = 8 ∧ pol = .thru then
    if s.h.sashTakes ea.toNat then
      if s.h.ahead then .ok false { s with h := s.h.hold ⟨ea, none, n, pol, v⟩ }
      else (s.sashStore ea.toNat v).bind fun _ u => .ok false u
    else .stop (.trap (pagePermission ea)) s
  else (s.locate ea n true .write true 0).bind fun l t => t.storeAt l ea n pol v

/-- The atomic step of R64 on n bytes at a place: in the scratchpad, far at the home or near in the core (R65). The value is
the old pattern. -/
def State.amoLoc (s : State) (l : Loc) (ea : Word) (n : Nat) (far : Bool) (op : AmoOp) (b cmp : Nat) : Res Nat :=
  match l with
  | .scratch off =>
    match s.wmGate (ea.toNat + n - 1) s.h.lc.binds with
    | .error w => .stop (.wait w) s
    | .ok s =>
      if s.h.badPool.contains (1, off / 8) then .stop (.trap (uncorrectable ea)) s
      else
        let s := s.readPool 1 off n
        let old := s.h.scratch.read off n
        .ok old { s with h := { s.h with scratch := s.h.scratch.write off n (op.apply n old b cmp) } }
  | .phys pa =>
    let a := wordAddr pa
    let o := pa % 8
    if s.lostPeer pa then .stop (.trap (uncorrectable ea)) s
    else
      match s.accessWait s.h.core a (if far then .thru else .own) with
      | some x => .stop (.wait (.word x)) s
      | none =>
        match s.wmGate (ea.toNat + n - 1) s.h.lc.binds with
        | .error w => .stop (.wait w) s
        | .ok s =>
          let ans :=
            if far then
              s.coreFar s.h.core { Req.of .far (some s.h.core) a with
                op := op, size := n, off := o, b := w64 b, cmp := w64 cmp }
            else s.coreNear s.h.core a fun w => setField w o n (op.apply n (wordField w o n) b cmp)
          if ans.bad then .stop (.trap (uncorrectable ea)) ans.s else .ok (wordField ans.data o n) ans.s

/-- Whether an AMO executes at the home: far, and not in host memory, where it executes as near (R65). -/
def Loc.atHome (l : Loc) (far : Bool) : Bool :=
  match l with
  | .phys pa => far && placeOf pa != .host
  | .scratch _ => far

/-- The reads that the open Yoke operations have still to make of the scratchpad are performed now, ahead of what follows
(R67, R110): each reads the scratchpad, and its uncorrectable words, as they stand. -/
def Hart.pinOps (h : Hart) : Hart :=
  if h.yops.all fun o => o.src.isSome then h
  else { h with yops := h.yops.map fun o => if o.src.isNone then { o with src := some h.scratch, bad := h.badPool } else o }

/-- A VAMO element of n bytes (R32, R58, R64): it executes far, at the home, in host memory too; the apertures and windows
refuse it. -/
def State.elemAmo (s : State) (ea : Word) (n : Nat) (op : AmoOp) (b cmp : Nat) (elem : Nat) : Res Nat :=
  (s.locate ea n true .both false elem).bind fun l t => { t with h := t.h.pinOps }.amoLoc l ea n true op b cmp

/-- A vector element's load of n bytes (R250, R252). -/
def State.elemLoad (s : State) (ea : Word) (n : Nat) (pol : Policy) (elem : Nat) : Res Nat :=
  (s.locate ea n true .read false elem).bind fun l t => t.readLoc l ea n pol

/-- A vector element's store of n bytes (R250, R252); the scratchpad reads of Yoke operations before it are performed first
(R110). -/
def State.elemStore (s : State) (ea : Word) (n : Nat) (pol : Policy) (v elem : Nat) : Res Unit :=
  (s.locate ea n true .write false elem).bind fun l t => { t with h := t.h.pinOps }.writeLoc l n pol v

/-- The checks of an element's access without performing it (R251, R257). -/
def State.elemCheck (s : State) (ea : Word) (n : Nat) (need : Need) (elem : Nat) : Res Unit :=
  (s.locate ea n true need false elem).bind fun _ t => .ok () t

/-- The pieces, within one word each, of a read by a unit: `last` is the last byte of the whole access. -/
def State.unitPieces (s : State) (last : Nat) (ea : Word) (elem : Nat) : Nat → Nat → Res Nat
  | 0, _ => .ok 0 s
  | fuel + 1, n =>
    if n = 0 then .ok 0 s
    else
      let k := min n (8 - ea.toNat % 8)
      (s.locate ea k false .read false elem).bind fun l t =>
        let one : Res Nat :=
          match l with
          | .scratch _ => t.readLocTo last l ea k .thru
          | .phys pa =>
            if t.lostPeer pa then .stop (.trap (uncorrectable ea)) t
            else if t.wordBusy (wordAddr pa) then .stop (.wait (.word (wordAddr pa))) t
            else
              match t.wmGate last t.h.lc.binds with
              | .error w => .stop (.wait w) t
              | .ok u =>
                let a := u.homeRead (wordAddr pa)
                if a.bad then .stop (.trap (uncorrectable ea)) a.s else .ok (wordField a.data (pa % 8) k) a.s
        one.bind fun v t =>
          (t.unitPieces last (ea + w64 k) elem fuel (n - k)).bind fun hi u => .ok (v + 2 ^ (8 * k) * hi) u

/-- A read of n bytes by a unit on behalf of the hart (R111, R129): at the home without a requester, byte pieces
word by word; the local window reaches the scratchpad. The watermarks see it as one access (R112). -/
def State.unitRead (s : State) (ea : Word) (elem fuel n : Nat) : Res Nat :=
  s.unitPieces (ea.toNat + n - 1) ea elem fuel n

end Sys2Proof.Machine
end

