-- ==== Sys2Proof/Machine/Alu.lean ====
section
/-! DEFINITION. The ALU class (OP 0x01, R50 to R52), the immediate ALU classes (R53), SHI (R54), LUI and ADDPC
(R55). None of them traps. -/

namespace Sys2Proof.Machine

/-- The sign extension of bits 31:0 (R51). -/
def sext32 (v : Word) : Word := (v.setWidth 32).signExtend 64

/-- The zero extension of bits 31:0 (R51). -/
def zext32 (v : Word) : Word := (v.setWidth 32).setWidth 64

/-- The result of a member with its .w form: sext of bits 31:0 under .w (R51). -/
def narrow (w : Bool) (v : Word) : Word := if w then sext32 v else v

/-- The shift amount: b[5:0], or b[4:0] under .w (R50, R51). -/
def shamt (w : Bool) (b : Word) : Nat := if w then b.toNat % 32 else b.toNat % 64

def aluAdd (w : Bool) (a b : Word) : Word := narrow w (a + b)
def aluSub (w : Bool) (a b : Word) : Word := narrow w (a - b)
def aluMul (w : Bool) (a b : Word) : Word := narrow w (a * b)

/-- SLL by n (R50, R51). -/
def aluSll (w : Bool) (a : Word) (n : Nat) : Word := narrow w (a <<< n)

/-- SRL by n: .w shifts the zero-extended low half (R51). -/
def aluSrl (w : Bool) (a : Word) (n : Nat) : Word := narrow w ((if w then zext32 a else a) >>> n)

/-- SRA by n: .w shifts the sign-extended low half (R51). -/
def aluSra (w : Bool) (a : Word) (n : Nat) : Word := narrow w ((if w then sext32 a else a).sshiftRight n)

/-- RORI by n (R54): .w rotates a[31:0]. -/
def aluRor (w : Bool) (a : Word) (n : Nat) : Word :=
  if w then ((a.setWidth 32).rotateRight n).signExtend 64 else a.rotateRight n

/-- One or zero. -/
def boolWord (b : Bool) : Word := if b then 1 else 0

/-- MULH (R50): bits 127:64 of the signed product. -/
def aluMulh (a b : Word) : Word := ((a.signExtend 128 * b.signExtend 128) >>> 64).setWidth 64

/-- MULHU (R50): bits 127:64 of the unsigned product. -/
def aluMulhu (a b : Word) : Word := ((a.setWidth 128 * b.setWidth 128) >>> 64).setWidth 64

/-- Signed quotient of n-bit patterns with the special cases of R52. -/
def divS {n : Nat} (a b : BitVec n) : BitVec n := if b = 0 then BitVec.allOnes n else a.sdiv b

/-- Signed remainder of n-bit patterns with the special cases of R52. -/
def remS {n : Nat} (a b : BitVec n) : BitVec n := if b = 0 then a else a.srem b

/-- Unsigned quotient of n-bit patterns with the special cases of R52. -/
def divU {n : Nat} (a b : BitVec n) : BitVec n := if b = 0 then BitVec.allOnes n else a.udiv b

/-- Unsigned remainder of n-bit patterns with the special cases of R52. -/
def remU {n : Nat} (a b : BitVec n) : BitVec n := if b = 0 then a else a.umod b

/-- A divide on the full registers, or on their low halves with the result sign-extended (R51). -/
def divForm (w : Bool) (f : (n : Nat) → BitVec n → BitVec n → BitVec n) (a b : Word) : Word :=
  if w then (f 32 (a.setWidth 32) (b.setWidth 32)).signExtend 64 else f 64 a b

/-- The number of zero bits above the highest one bit, of v as an n-bit pattern (R50). -/
def clzNat (n v : Nat) : Nat := if v = 0 then n else n - 1 - Nat.log2 v

/-- The number of zero bits below the lowest one bit, of an n-bit pattern, searched from bit i (R50). -/
def ctzFrom (v : Nat) : Nat → Nat → Nat
  | 0, i => i
  | k + 1, i => if v.testBit i then i else ctzFrom v k (i + 1)

def ctzNat (n v : Nat) : Nat := ctzFrom v n 0

/-- The number of one bits of an n-bit pattern (R50). -/
def popNat (n v : Nat) : Nat := (List.range n).foldl (fun c i => c + b2n (v.testBit i)) 0


/-- ADD (R50, R51). -/
def execAdd (d a b : Fin 32) (w : Bool) (s : State) : Out :=
  .next (s.finishWr d (aluAdd w (s.x a) (s.x b)))

/-- SUB (R50, R51). -/
def execSub (d a b : Fin 32) (w : Bool) (s : State) : Out :=
  .next (s.finishWr d (aluSub w (s.x a) (s.x b)))

/-- AND (R50). -/
def execAnd (d a b : Fin 32) (s : State) : Out :=
  .next (s.finishWr d (s.x a &&& s.x b))

/-- OR (R50). -/
def execOr (d a b : Fin 32) (s : State) : Out :=
  .next (s.finishWr d (s.x a ||| s.x b))

/-- XOR (R50). -/
def execXor (d a b : Fin 32) (s : State) : Out :=
  .next (s.finishWr d (s.x a ^^^ s.x b))

/-- ANDN (R50). -/
def execAndn (d a b : Fin 32) (s : State) : Out :=
  .next (s.finishWr d (s.x a &&& ~~~ s.x b))

/-- SLL (R50, R51). -/
def execSll (d a b : Fin 32) (w : Bool) (s : State) : Out :=
  .next (s.finishWr d (aluSll w (s.x a) (shamt w (s.x b))))

/-- SRL (R50, R51). -/
def execSrl (d a b : Fin 32) (w : Bool) (s : State) : Out :=
  .next (s.finishWr d (aluSrl w (s.x a) (shamt w (s.x b))))

/-- SRA (R50, R51). -/
def execSra (d a b : Fin 32) (w : Bool) (s : State) : Out :=
  .next (s.finishWr d (aluSra w (s.x a) (shamt w (s.x b))))

/-- SLT (R50). -/
def execSlt (d a b : Fin 32) (s : State) : Out :=
  .next (s.finishWr d (boolWord ((s.x a).slt (s.x b))))

/-- SLTU (R50). -/
def execSltu (d a b : Fin 32) (s : State) : Out :=
  .next (s.finishWr d (boolWord ((s.x a).ult (s.x b))))

/-- MIN (R50). -/
def execMin (d a b : Fin 32) (s : State) : Out :=
  .next (s.finishWr d (if (s.x b).slt (s.x a) then s.x b else s.x a))

/-- MAX (R50). -/
def execMax (d a b : Fin 32) (s : State) : Out :=
  .next (s.finishWr d (if (s.x a).slt (s.x b) then s.x b else s.x a))

/-- MINU (R50). -/
def execMinu (d a b : Fin 32) (s : State) : Out :=
  .next (s.finishWr d (if (s.x b).ult (s.x a) then s.x b else s.x a))

/-- MAXU (R50). -/
def execMaxu (d a b : Fin 32) (s : State) : Out :=
  .next (s.finishWr d (if (s.x a).ult (s.x b) then s.x b else s.x a))

/-- MUL (R50, R51). -/
def execMul (d a b : Fin 32) (w : Bool) (s : State) : Out :=
  .next (s.finishWr d (aluMul w (s.x a) (s.x b)))

/-- MULH (R50). -/
def execMulh (d a b : Fin 32) (s : State) : Out :=
  .next (s.finishWr d (aluMulh (s.x a) (s.x b)))

/-- MULHU (R50). -/
def execMulhu (d a b : Fin 32) (s : State) : Out :=
  .next (s.finishWr d (aluMulhu (s.x a) (s.x b)))

/-- DIV (R50, R51, R52). -/
def execDiv (d a b : Fin 32) (w : Bool) (s : State) : Out :=
  .next (s.finishWr d (divForm w (fun _ => divS) (s.x a) (s.x b)))

/-- DIVU (R50, R51, R52). -/
def execDivu (d a b : Fin 32) (w : Bool) (s : State) : Out :=
  .next (s.finishWr d (divForm w (fun _ => divU) (s.x a) (s.x b)))

/-- REM (R50, R51, R52). -/
def execRem (d a b : Fin 32) (w : Bool) (s : State) : Out :=
  .next (s.finishWr d (divForm w (fun _ => remS) (s.x a) (s.x b)))

/-- REMU (R50, R51, R52). -/
def execRemu (d a b : Fin 32) (w : Bool) (s : State) : Out :=
  .next (s.finishWr d (divForm w (fun _ => remU) (s.x a) (s.x b)))

/-- CLZ (R50). -/
def execClz (d a : Fin 32) (s : State) : Out :=
  .next (s.finishWr d (w64 (clzNat 64 (s.x a).toNat)))

/-- CTZ (R50). -/
def execCtz (d a : Fin 32) (s : State) : Out :=
  .next (s.finishWr d (w64 (ctzNat 64 (s.x a).toNat)))

/-- POPC (R50). -/
def execPopc (d a : Fin 32) (s : State) : Out :=
  .next (s.finishWr d (w64 (popNat 64 (s.x a).toNat)))

/-- ADDI (R53). -/
def execAddi (d a : Fin 32) (i : BitVec 16) (s : State) : Out :=
  .next (s.finishWr d (s.x a + sext i))

/-- ANDI (R53). -/
def execAndi (d a : Fin 32) (i : BitVec 16) (s : State) : Out :=
  .next (s.finishWr d (s.x a &&& sext i))

/-- ORI (R53). -/
def execOri (d a : Fin 32) (i : BitVec 16) (s : State) : Out :=
  .next (s.finishWr d (s.x a ||| sext i))

/-- XORI (R53). -/
def execXori (d a : Fin 32) (i : BitVec 16) (s : State) : Out :=
  .next (s.finishWr d (s.x a ^^^ sext i))

/-- SLTI (R53). -/
def execSlti (d a : Fin 32) (i : BitVec 16) (s : State) : Out :=
  .next (s.finishWr d (boolWord ((s.x a).slt (sext i))))

/-- SLTIU (R53). -/
def execSltiu (d a : Fin 32) (i : BitVec 16) (s : State) : Out :=
  .next (s.finishWr d (boolWord ((s.x a).ult (sext i))))

/-- SLLI (R54). -/
def execSlli (d a : Fin 32) (w : Bool) (n : Fin 64) (s : State) : Out :=
  .next (s.finishWr d (aluSll w (s.x a) n.val))

/-- SRLI (R54). -/
def execSrli (d a : Fin 32) (w : Bool) (n : Fin 64) (s : State) : Out :=
  .next (s.finishWr d (aluSrl w (s.x a) n.val))

/-- SRAI (R54). -/
def execSrai (d a : Fin 32) (w : Bool) (n : Fin 64) (s : State) : Out :=
  .next (s.finishWr d (aluSra w (s.x a) n.val))

/-- RORI (R54). -/
def execRori (d a : Fin 32) (w : Bool) (n : Fin 64) (s : State) : Out :=
  .next (s.finishWr d (aluRor w (s.x a) n.val))

/-- LUI (R55). -/
def execLui (d : Fin 32) (i : BitVec 21) (s : State) : Out :=
  .next (s.finishWr d (sext i <<< 16))

/-- ADDPC (R55). -/
def execAddpc (d : Fin 32) (i : BitVec 21) (s : State) : Out :=
  .next (s.finishWr d (s.h.pc + (sext i <<< 16)))

end Sys2Proof.Machine
end

