-- ==== Sys2Proof/Machine/Astc.lean ====
section
/-! DEFINITION. Texels of ASTC blocks (R294): the LDR profile of the Khronos Data Format Specification in decode_unorm8 mode,
which the manual names and does not print (assumption 12). A block is its sixteen bytes as one number. -/

namespace Sys2Proof.Machine

/-- n bits of a number from bit lo. -/
def bitsOf (v lo n : Nat) : Nat := v / 2 ^ lo % 2 ^ n

/-! ### Integer sequences -/

/-- A range of values of an integer sequence: its plain bits, and 1 with a trit, 2 with a quint. -/
structure IseRange where
  bits : Nat
  kind : Nat
  deriving DecidableEq, Repr

/-- The bits of a sequence of n values. -/
def IseRange.size (r : IseRange) (n : Nat) : Nat :=
  n * r.bits + (match r.kind with | 1 => (8 * n + 4) / 5 | 2 => (7 * n + 2) / 3 | _ => 0)

/-- The five trits of eight bits, the first one first. -/
def trits (t : Nat) : List Nat :=
  let a : Nat × Nat × Nat :=
    if bitsOf t 2 3 = 7 then (bitsOf t 5 3 * 4 + bitsOf t 0 2, 2, 2)
    else if bitsOf t 5 2 = 3 then (bitsOf t 0 5, bitsOf t 7 1, 2)
    else (bitsOf t 0 5, bitsOf t 5 2, bitsOf t 7 1)
  let c := a.1
  let low : List Nat :=
    if bitsOf c 0 2 = 3 then [bitsOf c 3 1 * 2 + bitsOf c 2 1 * (1 - bitsOf c 3 1), bitsOf c 4 1, 2]
    else if bitsOf c 2 2 = 3 then [bitsOf c 0 2, 2, 2]
    else [bitsOf c 1 1 * 2 + bitsOf c 0 1 * (1 - bitsOf c 1 1), bitsOf c 2 2, bitsOf c 4 1]
  low ++ [a.2.1, a.2.2]

/-- The three quints of seven bits, the first one first. -/
def quints (q : Nat) : List Nat :=
  if bitsOf q 1 2 = 3 ∧ bitsOf q 5 2 = 0 then
    let n := 1 - bitsOf q 0 1
    [4, 4, bitsOf q 0 1 * 4 + bitsOf q 4 1 * n * 2 + bitsOf q 3 1 * n]
  else
    let a : Nat × Nat :=
      if bitsOf q 1 2 = 3 then (bitsOf q 3 2 * 8 + (3 - bitsOf q 5 2) * 2 + bitsOf q 0 1, 4) else (bitsOf q 0 5, bitsOf q 5 2)
    if bitsOf a.1 0 3 = 5 then [bitsOf a.1 3 2, 4, a.2] else [bitsOf a.1 0 3, bitsOf a.1 3 2, a.2]

/-- Value i of a sequence of n values: its plain bits, and its trit or quint. What lies beyond the sequence reads as 0. -/
def IseRange.value (r : IseRange) (v n i : Nat) : Nat × Nat :=
  let v := v % 2 ^ r.size n
  let b := r.bits
  match r.kind with
  | 1 =>
    let g := v / 2 ^ (i / 5 * (5 * b + 8))
    let t := bitsOf g b 2 + bitsOf g (2 * b + 2) 2 * 4 + bitsOf g (3 * b + 4) 1 * 16 + bitsOf g (4 * b + 5) 2 * 32 +
      bitsOf g (5 * b + 7) 1 * 128
    (bitsOf g ([0, b + 2, 2 * b + 4, 3 * b + 5, 4 * b + 7].getD (i % 5) 0) b, (trits t).getD (i % 5) 0)
  | 2 =>
    let g := v / 2 ^ (i / 3 * (3 * b + 7))
    let q := bitsOf g b 3 + bitsOf g (2 * b + 3) 2 * 8 + bitsOf g (3 * b + 5) 2 * 32
    (bitsOf g ([0, b + 3, 2 * b + 5].getD (i % 3) 0) b, (quints q).getD (i % 3) 0)
  | _ => (bitsOf v (i * b) b, 0)

/-- A value of b bits repeated into n bits. -/
def spread (b v n : Nat) : Nat :=
  if b = 0 then 0 else v * ((2 ^ (8 * b) - 1) / (2 ^ b - 1)) / 2 ^ (8 * b - n)

/-- A colour value as 8 bits. -/
def IseRange.colour (r : IseRange) (m d : Nat) : Nat :=
  let x := m / 2
  let a := m % 2 * 511
  let top (bb c : Nat) : Nat := let t := (d * c + bb) ^^^ a; (a &&& 128) ||| t / 4
  match r.kind, r.bits with
  | 1, 1 => top 0 204
  | 1, 2 => top (x * 278) 93
  | 1, 3 => top (x * 128 + x * 4 + x) 44
  | 1, 4 => top (x * 64 + x) 22
  | 1, 5 => top (x * 32 + x / 4) 11
  | 1, _ => top (x * 16 + x / 16) 5
  | 2, 1 => top 0 113
  | 2, 2 => top (x * 268) 54
  | 2, 3 => top (x * 128 + x * 2 + x / 2) 26
  | 2, 4 => top (x * 64 + x / 2) 13
  | 2, _ => top (x * 32 + x / 8) 6
  | _, b => spread b m 8

/-- A weight from 0 to 64. -/
def IseRange.weight (r : IseRange) (m d : Nat) : Nat :=
  let x := m / 2
  let a := m % 2 * 127
  let top (bb c : Nat) : Nat := let t := (d * c + bb) ^^^ a; (a &&& 32) ||| t / 4
  let w := match r.kind, r.bits with
    | 1, 0 => [0, 32, 63].getD d 0
    | 1, 1 => top 0 50
    | 1, 2 => top (x * 69) 23
    | 1, _ => top (x * 32 + x) 11
    | 2, 0 => [0, 16, 32, 47, 63].getD d 0
    | 2, 1 => top 0 28
    | 2, _ => top (x * 66) 13
    | _, b => spread b m 6
  if 32 < w then w + 1 else w

/-! ### The block mode -/

/-- The weights of a block: the grid, whether there are two planes, and the range. -/
structure AstcMode where
  w    : Nat
  h    : Nat
  dual : Bool
  rng  : IseRange
  deriving DecidableEq, Repr

/-- The weight range of code r with the precision bit. -/
def weightRange (fine : Bool) (r : Nat) : IseRange :=
  let t : List (Nat × Nat) :=
    if fine then [(1, 2), (2, 1), (4, 0), (2, 2), (3, 1), (5, 0)] else [(1, 0), (0, 1), (2, 0), (0, 2), (1, 1), (3, 0)]
  let e := t.getD (r - 2) (1, 0)
  ⟨e.1, e.2⟩

/-- The mode of the low 11 bits; none where they are reserved. -/
def astcMode (m : Nat) : Option AstcMode :=
  let a := bitsOf m 5 2
  let b := bitsOf m 7 2
  let fine := bitsOf m 9 1 = 1
  let dual := bitsOf m 10 1 = 1
  if m % 4 ≠ 0 then
    let r := weightRange fine (m % 4 * 2 + bitsOf m 4 1)
    let d : Nat × Nat := match bitsOf m 2 2 with
      | 0 => (b + 4, a + 2)
      | 1 => (b + 8, a + 2)
      | 2 => (a + 2, b + 8)
      | _ => if b < 2 then (a + 2, b + 6) else (b % 2 + 2, a + 2)
    some ⟨d.1, d.2, dual, r⟩
  else if bitsOf m 2 2 = 0 then none
  else
    let r := bitsOf m 2 2 * 2 + bitsOf m 4 1
    match b with
    | 0 => some ⟨12, a + 2, dual, weightRange fine r⟩
    | 1 => some ⟨a + 2, 12, dual, weightRange fine r⟩
    | 2 => some ⟨a + 6, bitsOf m 9 2 + 6, false, weightRange false r⟩
    | _ =>
      if a = 0 then some ⟨6, 10, dual, weightRange fine r⟩
      else if a = 1 then some ⟨10, 6, dual, weightRange fine r⟩
      else none

/-- The number of weights. -/
def AstcMode.count (m : AstcMode) : Nat := m.w * m.h * (if m.dual then 2 else 1)

/-! ### Partitions -/

/-- The hash of a partition seed, on 32 bits. -/
def hash52 (p : BitVec 32) : BitVec 32 :=
  let p := p ^^^ (p >>> 15)
  let p := p - (p <<< 17)
  let p := p + (p <<< 7)
  let p := p + (p <<< 4)
  let p := p ^^^ (p >>> 5)
  let p := p + (p <<< 16)
  let p := p ^^^ (p >>> 7)
  let p := p ^^^ (p >>> 3)
  let p := p ^^^ (p <<< 6)
  p ^^^ (p >>> 17)

/-- The partition of a texel among n, from the 10-bit seed; in a block of fewer than 31 texels coordinates count double. -/
def astcPartition (seed n : Nat) (small : Bool) (x y : Nat) : Nat :=
  if n ≤ 1 then 0
  else
    let x := if small then 2 * x else x
    let y := if small then 2 * y else y
    let r := (hash52 (.ofNat 32 (seed + (n - 1) * 1024))).toNat
    let sh1 := if seed % 2 = 1 then (if bitsOf seed 1 1 = 1 then 4 else 5) else (if n = 3 then 6 else 5)
    let sh2 := if seed % 2 = 1 then (if n = 3 then 6 else 5) else (if bitsOf seed 1 1 = 1 then 4 else 5)
    let s (k sh : Nat) : Nat := let e := bitsOf r (4 * k) 4; e * e / 2 ^ sh
    let a := (s 0 sh1 * x + s 1 sh2 * y + r / 2 ^ 14) % 64
    let b := (s 2 sh1 * x + s 3 sh2 * y + r / 2 ^ 10) % 64
    let c := if n < 3 then 0 else (s 4 sh1 * x + s 5 sh2 * y + r / 2 ^ 6) % 64
    let d := if n < 4 then 0 else (s 6 sh1 * x + s 7 sh2 * y + r / 2 ^ 2) % 64
    if b ≤ a ∧ c ≤ a ∧ d ≤ a then 0 else if c ≤ b ∧ d ≤ b then 1 else if d ≤ c then 2 else 3

/-! ### Colour endpoints -/

/-- The colour of an illegal block in the LDR profile: opaque magenta. -/
def astcError : List Nat := [255, 0, 255, 255]

/-- An offset and a base from two values: a bit of the offset goes to the base. -/
def bitTransfer (a b : Nat) : Int × Int :=
  let o := a / 2 % 64
  ((if 32 ≤ o then (o : Int) - 64 else o), (b / 2 + a / 128 * 128 : Nat))

/-- A colour as four bytes. -/
def clamp8 (c : List Int) : List Nat := c.map fun v => (max 0 (min 255 v)).toNat

/-- Blue contraction. -/
def blueContract (r g b a : Int) : List Int := [(r + b) / 2, (g + b) / 2, b, a]

/-- The endpoints that a colour endpoint mode makes of its values; a mode of high dynamic range, which the profile does not
have, gives the error colour for its partition. -/
def astcEnds (mode : Nat) (v : List Nat) : List Nat × List Nat :=
  let g (i : Nat) : Int := (v.getD i 0 : Nat)
  let n (i : Nat) : Nat := v.getD i 0
  let rgb (a0 a1 : Int) : List Nat × List Nat :=
    if g 0 + g 2 + g 4 ≤ g 1 + g 3 + g 5 then (clamp8 [g 0, g 2, g 4, a0], clamp8 [g 1, g 3, g 5, a1])
    else (clamp8 (blueContract (g 1) (g 3) (g 5) a1), clamp8 (blueContract (g 0) (g 2) (g 4) a0))
  let offs (a0 a1 : Int) : List Nat × List Nat :=
    let r := bitTransfer (n 1) (n 0)
    let q := bitTransfer (n 3) (n 2)
    let b := bitTransfer (n 5) (n 4)
    if 0 ≤ r.1 + q.1 + b.1 then (clamp8 [r.2, q.2, b.2, a0], clamp8 [r.2 + r.1, q.2 + q.1, b.2 + b.1, a1])
    else (clamp8 (blueContract (r.2 + r.1) (q.2 + q.1) (b.2 + b.1) a1), clamp8 (blueContract r.2 q.2 b.2 a0))
  let scaled (a0 a1 : Int) : List Nat × List Nat :=
    (clamp8 [g 0 * g 3 / 256, g 1 * g 3 / 256, g 2 * g 3 / 256, a0], clamp8 [g 0, g 1, g 2, a1])
  match mode with
  | 0 => (clamp8 [g 0, g 0, g 0, 255], clamp8 [g 1, g 1, g 1, 255])
  | 1 =>
    let l : Int := (n 0 / 4 + n 1 / 64 * 64 : Nat)
    let l1 : Int := l + (n 1 % 64 : Nat)
    (clamp8 [l, l, l, 255], clamp8 [l1, l1, l1, 255])
  | 4 => (clamp8 [g 0, g 0, g 0, g 2], clamp8 [g 1, g 1, g 1, g 3])
  | 5 =>
    let l := bitTransfer (n 1) (n 0)
    let a := bitTransfer (n 3) (n 2)
    (clamp8 [l.2, l.2, l.2, a.2], clamp8 [l.2 + l.1, l.2 + l.1, l.2 + l.1, a.2 + a.1])
  | 6 => scaled 255 255
  | 8 => rgb 255 255
  | 9 => offs 255 255
  | 10 => scaled (g 4) (g 5)
  | 12 => rgb (g 6) (g 7)
  | 13 => let a := bitTransfer (n 7) (n 6); offs a.2 (a.2 + a.1)
  | _ => (astcError, astcError)

/-- The largest colour range whose sequence of n values fits into some bits; none where not even the smallest does. -/
def colourRange (n bits : Nat) : Option IseRange :=
  [(⟨8, 0⟩ : IseRange), ⟨6, 1⟩, ⟨5, 2⟩, ⟨7, 0⟩, ⟨5, 1⟩, ⟨4, 2⟩, ⟨6, 0⟩, ⟨4, 1⟩, ⟨3, 2⟩, ⟨5, 0⟩, ⟨3, 1⟩, ⟨2, 2⟩, ⟨4, 0⟩,
   ⟨2, 1⟩, ⟨1, 2⟩, ⟨3, 0⟩, ⟨1, 1⟩].find? fun r => r.size n ≤ bits

/-- The endpoint modes of n partitions, and how many bits of them stand below the weights. -/
def astcModes (v n wbits : Nat) : List Nat × Nat :=
  if n = 1 then ([bitsOf v 13 4], 0)
  else if bitsOf v 23 2 = 0 then (List.replicate n (bitsOf v 25 4), 0)
  else
    let extra := 3 * n - 4
    let e := bitsOf v 23 6 + bitsOf v (128 - wbits - extra) extra * 64
    ((List.range n).map fun i => (e % 4 - 1 + bitsOf e (2 + i) 1) * 4 + bitsOf e (2 + n + 2 * i) 2, extra)

/-! ### Texels -/

/-- The bits of a block in reverse. -/
def reverse128 (v : Nat) : Nat := (List.range 128).foldl (fun r i => r * 2 + bitsOf v i 1) 0

/-- The weight of a texel in a plane, from the grid of weights (bilinear infill). -/
def AstcMode.at (m : AstcMode) (rv bw bh x y plane : Nat) : Nat :=
  let planes := if m.dual then 2 else 1
  let w (k : Nat) : Nat :=
    if k < m.w * m.h then let e := m.rng.value rv m.count (k * planes + plane); m.rng.weight e.1 e.2 else 0
  let gs := ((1024 + bw / 2) / (bw - 1) * x * (m.w - 1) + 32) / 64
  let gt := ((1024 + bh / 2) / (bh - 1) * y * (m.h - 1) + 32) / 64
  let fs := gs % 16
  let ft := gt % 16
  let k := gs / 16 + gt / 16 * m.w
  let w11 := (fs * ft + 8) / 16
  (w k * (16 + w11 - fs - ft) + w (k + 1) * (fs - w11) + w (k + m.w) * (ft - w11) + w (k + m.w + 1) * w11 + 8) / 16

/-- A void-extent block: its constant colour, or the error colour. -/
def astcVoid (v : Nat) : List Nat :=
  let f (i : Nat) : Nat := bitsOf v (12 + 13 * i) 13
  let plain := (List.range 4).all fun i => f i == 8191
  if bitsOf v 9 1 = 1 ∨ bitsOf v 10 2 ≠ 3 ∨ (plain = false ∧ (f 1 ≤ f 0 ∨ f 3 ≤ f 2)) then astcError
  else (List.range 4).map fun c => bitsOf v (72 + 16 * c) 8

/-- The four 8-bit channels of texel (x, y) of a block of bw × bh texels. -/
def astcTexel (bw bh v x y : Nat) : List Nat :=
  if bitsOf v 0 9 = 0x1FC then astcVoid v
  else
    match astcMode (bitsOf v 0 11) with
    | none => astcError
    | some m =>
      let wbits := m.rng.size m.count
      let n := bitsOf v 11 2 + 1
      let cem := astcModes v n wbits
      let vals := cem.1.foldl (fun k c => k + (c / 4 + 1) * 2) 0
      let start := if n = 1 then 17 else 29
      let used := start + wbits + cem.2 + if m.dual then 2 else 0
      if bw < m.w ∨ bh < m.h ∨ 64 < m.count ∨ wbits < 24 ∨ 96 < wbits ∨ (m.dual ∧ n = 4) ∨ 18 < vals ∨ 128 < used then astcError
      else
        match colourRange vals (128 - used) with
        | none => astcError
        | some r =>
          let p := astcPartition (bitsOf v 13 10) n (bw * bh < 31) x y
          let from' := (cem.1.take p).foldl (fun k c => k + (c / 4 + 1) * 2) 0
          let mode := cem.1.getD p 0
          let ends := astcEnds mode ((List.range ((mode / 4 + 1) * 2)).map fun i =>
            let e := r.value (v / 2 ^ start) vals (from' + i); r.colour e.1 e.2)
          let ccs := bitsOf v (128 - wbits - cem.2 - 2) 2
          let rv := reverse128 v
          (List.range 4).map fun c =>
            let i := m.at rv bw bh x y (if m.dual ∧ c = ccs then 1 else 0)
            ((ends.1.getD c 0 * 256 + 128) * (64 - i) + (ends.2.getD c 0 * 256 + 128) * i + 32) / 64 / 256

end Sys2Proof.Machine
end

