-- ==== Sys2Proof/Machine/Flags.lean ====
section
/-! DEFINITION. Floating point: the formats of R187, exact values, rounding under a mode with its flags (R193 to
R195, R223), and the arithmetic of R226 to R229. Flags are the bits of vflags: NV 16, DZ 8, OF 4, UF 2, NX 1. -/

namespace Sys2Proof.Machine

/-- How a format uses its largest exponent (R187). -/
inductive FKind where
  | ieee | e4m3 | e2m1
  deriving DecidableEq, Repr

/-- A format of R187. -/
structure FFmt where
  ebits : Nat
  fbits : Nat
  kind  : FKind
  deriving DecidableEq, Repr

def fmt64 : FFmt := ⟨11, 52, .ieee⟩
def fmt32 : FFmt := ⟨8, 23, .ieee⟩
def fmtBf16 : FFmt := ⟨8, 7, .ieee⟩
def fmt16 : FFmt := ⟨5, 10, .ieee⟩
def fmtE5M2 : FFmt := ⟨5, 2, .ieee⟩
def fmtE4M3 : FFmt := ⟨4, 3, .e4m3⟩
def fmtE2M1 : FFmt := ⟨2, 1, .e2m1⟩

/-- The exponent bias (R187). -/
def FFmt.bias (f : FFmt) : Nat := 2 ^ (f.ebits - 1) - 1

/-- The bits of a pattern below its sign. -/
def FFmt.magBits (f : FFmt) : Nat := f.ebits + f.fbits

/-- The magnitude of the largest finite value (R187). -/
def FFmt.maxMag (f : FFmt) : Nat :=
  match f.kind with
  | .ieee => (2 ^ f.ebits - 1) * 2 ^ f.fbits - 1
  | .e4m3 => 0x7E
  | .e2m1 => 7

/-- The magnitude of infinity where the format has one (R187). -/
def FFmt.infMag (f : FFmt) : Nat := (2 ^ f.ebits - 1) * 2 ^ f.fbits

/-- The canonical NaN (R187, R188). E2M1 has none; nothing converts a NaN to it but the encoder of R192. -/
def FFmt.nan (f : FFmt) : Nat :=
  match f.kind with
  | .ieee => f.infMag + 2 ^ (f.fbits - 1)
  | .e4m3 => 0x7F
  | .e2m1 => 0

/-- The sign bit of a pattern. -/
def FFmt.sign (f : FFmt) (p : Nat) : Bool := p.testBit f.magBits

/-- A magnitude with a sign. -/
def FFmt.signed (f : FFmt) (neg : Bool) (mag : Nat) : Nat := b2n neg * 2 ^ f.magBits + mag

/-- An exact number: (-1)^neg × (m + δ) × 2^e, where δ is 0, or strictly between 0 and 1 when st holds. -/
structure Ex where
  neg : Bool
  m   : Nat
  e   : Int
  st  : Bool
  deriving DecidableEq, Repr

/-- The value of a pattern: a NaN (signalling or not), an infinity, or a number. -/
inductive FV where
  | nan (sig : Bool)
  | inf (neg : Bool)
  | num (x : Ex)
  deriving DecidableEq, Repr

/-- The value of a pattern (R187); sNaN as R217 defines it. -/
def FFmt.decode (f : FFmt) (p : Nat) : FV :=
  let neg := f.sign p
  let mag := p % 2 ^ f.magBits
  let ex := mag / 2 ^ f.fbits
  let fr := mag % 2 ^ f.fbits
  if f.kind = .ieee ∧ ex = 2 ^ f.ebits - 1 then
    if fr = 0 then .inf neg else .nan (!fr.testBit (f.fbits - 1))
  else if f.kind = .e4m3 ∧ mag = 0x7F then .nan false
  else if ex = 0 then .num ⟨neg, fr, 1 - (f.bias + f.fbits : Nat), false⟩
  else .num ⟨neg, 2 ^ f.fbits + fr, (ex : Int) - (f.bias + f.fbits : Nat), false⟩

/-- A pattern and the flags it sets. -/
structure FR where
  bits  : Nat
  flags : Nat
  deriving DecidableEq, Repr

/-! ### Rounding -/

/-- The architected random generator (R198). -/
def randomOut (key ctr : Word) : Nat :=
  let z := ctr + key * 0x8F3D5A7C1E2B4D69
  let z := (z ^^^ (z >>> 31)) * 0xE4C1B7295D3A0F8B
  let z := (z ^^^ (z >>> 29)) * 0x6B2F9D4E8A1C3757
  ((z ^^^ (z >>> 32)) >>> 32).toNat

/-- The uniform draw of R199 as a numerator over 2^25. -/
def drawOf (out : Nat) : Nat := 2 * (out / 256) + 1

/-- A rounding mode with the draw that SRD takes: code of R193, numerator over 2^25. -/
structure Rnd where
  mode : Nat
  draw : Nat
  deriving DecidableEq, Repr

/-- Round to nearest, ties to even (R194). -/
def Rnd.rne : Rnd := ⟨0, 0⟩

/-- Whether the magnitude n + (r + δ) / 2^d rounds up to n + 1 (R194). -/
def Rnd.up (k : Rnd) (neg st : Bool) (n r d : Nat) : Bool :=
  let inexact := r != 0 || st
  let half := 2 ^ d / 2
  match k.mode with
  | 0 => decide (half < r) || (r == half && d != 0 && (st || n % 2 == 1))
  | 1 => false
  | 2 => neg && inexact
  | 3 => !neg && inexact
  | 4 => decide (half ≤ r) && d != 0
  | _ =>
    let p := r * 2 ^ 25
    if neg then inexact && decide ((2 ^ 25 - k.draw) * 2 ^ d ≤ p)
    else decide (k.draw * 2 ^ d < p) || (st && k.draw * 2 ^ d == p)

/-- |x| rounded to a multiple of 2^q: the multiple and whether it is inexact. -/
def Ex.roundAt (x : Ex) (k : Rnd) (q : Int) : Nat × Bool :=
  if q ≤ x.e then (x.m * 2 ^ (x.e - q).toNat, x.st)
  else
    let d := (q - x.e).toNat
    let n := x.m / 2 ^ d
    let r := x.m % 2 ^ d
    (n + b2n (k.up x.neg x.st n r d), r != 0 || x.st)

/-- floor(log2 |x|) of a nonzero number. -/
def Ex.log (x : Ex) : Int := x.e + Nat.log2 x.m

/-- The magnitude that an overflow delivers (R194, IEEE 754-2019 clause 7.4; saturation in E4M3 and E2M1). -/
def FFmt.over (f : FFmt) (k : Rnd) (neg : Bool) : Nat :=
  if f.kind != .ieee then f.maxMag
  else
    match k.mode with
    | 1 => f.maxMag
    | 2 => if neg then f.infMag else f.maxMag
    | 3 => if neg then f.maxMag else f.infMag
    | _ => f.infMag

/-- Round an exact number into a format (R194) with OF, UF and NX of R223. -/
def FFmt.round (f : FFmt) (k : Rnd) (x : Ex) : FR :=
  if x.m = 0 then ⟨f.signed x.neg 0, 0⟩
  else
    let emin : Int := 1 - f.bias
    let q := x.log - f.fbits
    let low := emin - f.fbits
    let qb := max q low
    let (n, inexact) := x.roundAt k qb
    let mag := (qb - low).toNat * 2 ^ f.fbits + n
    if f.maxMag < mag then ⟨f.signed x.neg (f.over k x.neg), 5⟩
    else
      let tiny := decide (x.log < emin) && !(x.log == emin - 1 && (x.roundAt k q).1 == 2 ^ (f.fbits + 1))
      ⟨f.signed x.neg mag, if inexact then (if tiny then 3 else 1) else 0⟩

/-- Deliver an exact value with the flags its member names (R225, R188). -/
def FFmt.deliver (f : FFmt) (k : Rnd) (v : FV) (flags : Nat) : FR :=
  match v with
  | .nan _ => ⟨f.nan, flags⟩
  | .inf neg => ⟨f.signed neg f.infMag, flags⟩
  | .num x => let r := f.round k x; ⟨r.bits, r.flags ||| flags⟩

/-! ### Exact arithmetic -/

/-- Whether a value is a NaN. -/
def FV.isNan : FV → Bool
  | .nan _ => true
  | _ => false

/-- Whether a value is a signalling NaN. -/
def FV.isSig : FV → Bool
  | .nan s => s
  | _ => false

/-- The sign of a value. -/
def FV.neg : FV → Bool
  | .nan _ => false
  | .inf n => n
  | .num x => x.neg

/-- The value with its sign inverted. -/
def FV.negate : FV → FV
  | .nan s => .nan s
  | .inf n => .inf (!n)
  | .num x => .num { x with neg := !x.neg }

/-- NV when one of the values is a signalling NaN. -/
def nvSig (vs : List FV) : Nat := if vs.any FV.isSig then 16 else 0

/-- An exact number as an integer multiple of 2^e0, e0 ≤ e. -/
def Ex.scaled (x : Ex) (e0 : Int) : Int :=
  let v : Int := x.m * 2 ^ (x.e - e0).toNat
  if x.neg then -v else v

/-- The exact sum of two numbers, with the sign of zero of R227. -/
def Ex.add (k : Rnd) (x y : Ex) : Ex :=
  let e0 := min x.e y.e
  let v := x.scaled e0 + y.scaled e0
  if v = 0 then ⟨if x.m == 0 && y.m == 0 && x.neg == y.neg then x.neg else k.mode == 2, 0, 0, false⟩
  else ⟨v < 0, v.natAbs, e0, false⟩

/-- The exact sum and NV (R226). -/
def FV.add (k : Rnd) (a b : FV) : FV × Nat :=
  match a, b with
  | .nan _, _ => (.nan false, 0)
  | _, .nan _ => (.nan false, 0)
  | .inf n, .inf m => if n = m then (.inf n, 0) else (.nan false, 16)
  | .inf n, _ => (.inf n, 0)
  | _, .inf m => (.inf m, 0)
  | .num x, .num y => (.num (x.add k y), 0)

/-- The exact product and NV (R226). -/
def FV.mul (a b : FV) : FV × Nat :=
  let neg := a.neg != b.neg
  match a, b with
  | .nan _, _ => (.nan false, 0)
  | _, .nan _ => (.nan false, 0)
  | .inf _, .num y => if y.m = 0 then (.nan false, 16) else (.inf neg, 0)
  | .num x, .inf _ => if x.m = 0 then (.nan false, 16) else (.inf neg, 0)
  | .inf _, .inf _ => (.inf neg, 0)
  | .num x, .num y => (.num ⟨neg, x.m * y.m, x.e + y.e, false⟩, 0)

/-- The quotient of two nonzero numbers to 200 bits and a sticky bit. -/
def Ex.div (x y : Ex) : Ex :=
  let k := 200 + Nat.log2 y.m
  let n := x.m * 2 ^ k
  ⟨x.neg != y.neg, n / y.m, x.e - y.e - k, n % y.m != 0⟩

/-- The exact quotient with NV and DZ (R226). -/
def FV.div (a b : FV) : FV × Nat :=
  let neg := a.neg != b.neg
  match a, b with
  | .nan _, _ => (.nan false, 0)
  | _, .nan _ => (.nan false, 0)
  | .inf _, .inf _ => (.nan false, 16)
  | .inf _, .num _ => (.inf neg, 0)
  | .num _, .inf _ => (.num ⟨neg, 0, 0, false⟩, 0)
  | .num x, .num y =>
    if y.m = 0 then (if x.m = 0 then (.nan false, 16) else (.inf neg, 8))
    else if x.m = 0 then (.num ⟨neg, 0, 0, false⟩, 0)
    else (.num (x.div y), 0)

/-- The integer square root, found bit by bit below 2^b. -/
def isqrtFrom (n : Nat) : Nat → Nat → Nat
  | 0, r => r
  | b + 1, r => isqrtFrom n b (if (r + 2 ^ b) * (r + 2 ^ b) ≤ n then r + 2 ^ b else r)

/-- The integer square root. -/
def isqrt (n : Nat) : Nat := isqrtFrom n (Nat.log2 n / 2 + 1) 0

/-- The exact square root with NV (R226). -/
def FV.sqrt (a : FV) : FV × Nat :=
  match a with
  | .nan _ => (.nan false, 0)
  | .inf n => if n then (.nan false, 16) else (.inf false, 0)
  | .num x =>
    if x.m = 0 then (.num x, 0)
    else if x.neg then (.nan false, 16)
    else
      let odd := x.e % 2 = 1
      let m := (if odd then 2 * x.m else x.m) * 2 ^ 400
      let e := (if odd then x.e - 1 else x.e) - 400
      let r := isqrt m
      (.num ⟨false, r, e / 2, r * r != m⟩, 0)

/-! ### Comparisons -/

/-- a < b as numbers; false when either is a NaN (R217). -/
def FV.lt (a b : FV) : Bool :=
  match a, b with
  | .nan _, _ => false
  | _, .nan _ => false
  | .inf n, .inf m => n && !m
  | .inf n, .num _ => n
  | .num _, .inf m => !m
  | .num x, .num y => decide (x.scaled (min x.e y.e) < y.scaled (min x.e y.e))

/-- a and b are equal numbers; −0 equals +0 (R217). -/
def FV.eq (a b : FV) : Bool := !a.isNan && !b.isNan && !a.lt b && !b.lt a

/-- The order of VFMIN and VFMAX on numbers: −0 below +0 (R228). -/
def FV.below (a b : FV) : Bool := a.lt b || (a.eq b && a.neg && !b.neg)

/-! ### The members of VF (R226 to R229) on patterns of a format -/

/-- VFADD. -/
def FFmt.add (f : FFmt) (k : Rnd) (p q : Nat) : FR :=
  let r := (f.decode p).add k (f.decode q)
  f.deliver k r.1 (r.2 ||| nvSig [f.decode p, f.decode q])

/-- VFSUB. -/
def FFmt.sub (f : FFmt) (k : Rnd) (p q : Nat) : FR :=
  let r := (f.decode p).add k (f.decode q).negate
  f.deliver k r.1 (r.2 ||| nvSig [f.decode p, f.decode q])

/-- VFMUL. -/
def FFmt.mul (f : FFmt) (k : Rnd) (p q : Nat) : FR :=
  let r := (f.decode p).mul (f.decode q)
  f.deliver k r.1 (r.2 ||| nvSig [f.decode p, f.decode q])

/-- VFDIV. -/
def FFmt.div (f : FFmt) (k : Rnd) (p q : Nat) : FR :=
  let r := (f.decode p).div (f.decode q)
  f.deliver k r.1 (r.2 ||| nvSig [f.decode p, f.decode q])

/-- VFSQRT. -/
def FFmt.sqrt (f : FFmt) (k : Rnd) (p : Nat) : FR :=
  let r := (f.decode p).sqrt
  f.deliver k r.1 (r.2 ||| nvSig [f.decode p])

/-- VFMADD, VFMSUB, VFNMADD and VFNMSUB: the product and the addend, each with its sign inverted or not. -/
def FFmt.fma (f : FFmt) (k : Rnd) (negP negC : Bool) (p q c : Nat) : FR :=
  let a := f.decode p
  let s := f.decode q
  let c := f.decode c
  let m := a.mul s
  let m' := if negP then m.1.negate else m.1
  let r := m'.add k (if negC then c.negate else c)
  f.deliver k r.1 (m.2 ||| r.2 ||| nvSig [a, s, c])

/-- VFMIN (`hi` false) and VFMAX (R228). -/
def FFmt.minmax (f : FFmt) (hi : Bool) (p q : Nat) : FR :=
  let a := f.decode p
  let s := f.decode q
  let bits :=
    if a.isNan then (if s.isNan then f.nan else q)
    else if s.isNan then p
    else if hi then (if a.below s then q else p)
    else (if s.below a then q else p)
  ⟨bits, nvSig [a, s]⟩

/-- A magnitude operation of R229: the magnitude of a with this sign, the canonical NaN for a NaN. -/
def FFmt.withSign (f : FFmt) (neg : Bool) (p : Nat) : FR :=
  if (f.decode p).isNan then ⟨f.nan, 0⟩ else ⟨f.signed neg (p % 2 ^ f.magBits), 0⟩

/-- VFCLASS (R229): 2^j. -/
def FFmt.classify (f : FFmt) (p : Nat) : FR :=
  let j : Nat :=
    match f.decode p with
    | .nan sig => if sig then 8 else 9
    | .inf neg => if neg then 0 else 7
    | .num x =>
      if x.m = 0 then (if x.neg then 3 else 4)
      else if p % 2 ^ f.magBits < 2 ^ f.fbits then (if x.neg then 2 else 5)
      else (if x.neg then 1 else 6)
  f.round .rne ⟨false, 1, j, false⟩

/-! ### binary32, as the graphics and traversal units use it (RNE, no flags) -/

/-- a + b in binary32. -/
def add32 (p q : Nat) : Nat := (fmt32.add .rne p q).bits

/-- a − b in binary32. -/
def sub32 (p q : Nat) : Nat := (fmt32.sub .rne p q).bits

/-- a × b in binary32. -/
def mul32 (p q : Nat) : Nat := (fmt32.mul .rne p q).bits

/-- a ÷ b in binary32. -/
def div32 (p q : Nat) : Nat := (fmt32.div .rne p q).bits

/-- a × b + c in binary32, rounded once. -/
def fma32 (p q c : Nat) : Nat := (fmt32.fma .rne false false p q c).bits

/-- The smaller and the larger in binary32 (R228). -/
def min32 (p q : Nat) : Nat := (fmt32.minmax false p q).bits
def max32 (p q : Nat) : Nat := (fmt32.minmax true p q).bits

/-- a < b in binary32. -/
def lt32 (p q : Nat) : Bool := (fmt32.decode p).lt (fmt32.decode q)

/-- a ≤ b in binary32. -/
def le32 (p q : Nat) : Bool :=
  let a := fmt32.decode p
  let b := fmt32.decode q
  a.lt b || a.eq b

/-- −a as a pattern. -/
def neg32 (p : Nat) : Nat := p ^^^ 0x80000000

/-- Whether a binary32 pattern is a NaN. -/
def nan32 (p : Nat) : Bool := (fmt32.decode p).isNan

/-- Whether a binary32 pattern is finite. -/
def finite32 (p : Nat) : Bool :=
  match fmt32.decode p with
  | .num _ => true
  | _ => false

/-- An integer as the nearest binary32 pattern. -/
def ofInt32 (n : Int) : Nat := (fmt32.round .rne ⟨n < 0, n.natAbs, 0, false⟩).bits

/-- floor of a finite binary32 value; 0 for the others. -/
def floor32 (p : Nat) : Int :=
  match fmt32.decode p with
  | .num x =>
    let r := (x.roundAt ⟨2, 0⟩ 0).1
    if x.neg then -(r : Int) else r
  | _ => 0

/-- The canonical binary32 NaN, one, and the infinities. -/
def nanOf32 : Nat := 0x7FC00000
def one32 : Nat := 0x3F800000
def inf32 : Nat := 0x7F800000

end Sys2Proof.Machine
end

