-- ==== Sys2Proof/Machine/Float.lean ====
section
/-! DEFINITION. The special functions of R196 and R230: VFRCP, VFRSQ, VFEXP2, VFLOG2, VFSIN and VFCOS, evaluated
in fixed point of 400 fraction bits and rounded RNE (assumption 13). -/

namespace Sys2Proof.Machine

/-- The fraction bits of the fixed-point numbers. -/
def fxBits : Nat := 400

/-- One in fixed point. -/
def fxOne : Nat := 2 ^ fxBits

/-- Σ over i of z^(2i+1) / (2i+1), with alternating signs or not: the sum of `n` terms from index i on, where t
is z^(2i+1) in fixed point. -/
def oddSeries (alt : Bool) (z2 : Nat) : Nat → Nat → Nat → Int → Int
  | 0, _, _, acc => acc
  | n + 1, i, t, acc =>
    let term : Int := (t / (2 * i + 1) : Nat)
    oddSeries alt z2 n (i + 1) (t * z2 / fxOne) (if alt && i % 2 == 1 then acc - term else acc + term)

/-- atanh of z (fixed point), z at most 1/3. -/
def fxAtanh (z : Nat) : Nat := (oddSeries false (z * z / fxOne) 130 0 z 0).toNat

/-- atan of z (fixed point), z at most 1/5. -/
def fxAtan (z : Nat) : Nat := (oddSeries true (z * z / fxOne) 90 0 z 0).toNat

/-- The natural logarithm of 2. -/
def fxLn2 : Nat := 2 * fxAtanh (fxOne / 3)

/-- π, by Machin's formula. -/
def fxPi : Nat := 16 * fxAtan (fxOne / 5) - 4 * fxAtan (fxOne / 239)

/-- Σ t^i / i! from index i on: `term` is t^i / i!. -/
def expSeries (t : Nat) : Nat → Nat → Nat → Nat → Nat
  | 0, _, _, acc => acc
  | n + 1, i, term, acc => expSeries t n (i + 1) (term * t / fxOne / (i + 1)) (acc + term)

/-- sin of t (fixed point, at most π / 2): the series from the term of degree 2i + 1 on. -/
def sinSeries (t2 : Nat) : Nat → Nat → Nat → Int → Int
  | 0, _, _, acc => acc
  | n + 1, i, term, acc =>
    sinSeries t2 n (i + 1) (term * t2 / fxOne / ((2 * i + 2) * (2 * i + 3)))
      (if i % 2 == 1 then acc - (term : Int) else acc + (term : Int))

/-- x in fixed point modulo 2^w, exact when x.e ≥ −400. -/
def Ex.fixMod (x : Ex) (w : Nat) : Nat :=
  let m := 2 ^ (fxBits + w)
  if 0 ≤ x.e + fxBits then x.m * 2 ^ (x.e + fxBits).toNat % m else x.m / 2 ^ (-(x.e + fxBits)).toNat % m

/-- 2^x of a number. -/
def Ex.exp2 (x : Ex) : Ex :=
  if x.m = 0 then ⟨false, 1, 0, false⟩
  else if 12 ≤ x.log then ⟨false, fxOne, (if x.neg then -8192 else 8192) - fxBits, true⟩
  else if x.log < -150 then
    (if x.neg then ⟨false, fxOne - 1, -fxBits, true⟩ else ⟨false, fxOne, -fxBits, true⟩)
  else
    let v : Int := (x.fixMod 12 : Nat)
    let v := if x.neg then -v else v
    let n := v / fxOne
    let fr := (v % fxOne).toNat
    if fr = 0 then ⟨false, 1, n, false⟩
    else ⟨false, expSeries (fr * fxLn2 / fxOne) 110 0 fxOne 0, n - fxBits, true⟩

/-- log2 x of a positive number. -/
def Ex.log2 (x : Ex) : Ex :=
  let l := Nat.log2 x.m
  let y := x.m * 2 ^ fxBits / 2 ^ l
  if x.m = 2 ^ l then ⟨x.log < 0, x.log.natAbs, 0, false⟩
  else
    let z := (y - fxOne) * fxOne / (y + fxOne)
    let v : Int := x.log * fxOne + (2 * fxAtanh z * fxOne / fxLn2 : Nat)
    ⟨v < 0, v.natAbs, -fxBits, true⟩

/-- sin(π r) for r in fixed point modulo 2; `neg` inverts the sign, `zneg` is the sign of a zero. -/
def sinPi (r : Nat) (neg zneg : Bool) : Ex :=
  let neg := neg != decide (fxOne ≤ r)
  let r := r % fxOne
  if r = 0 then ⟨zneg, 0, 0, false⟩
  else if 2 * r = fxOne then ⟨neg, 1, 0, false⟩
  else
    let r := if fxOne < 2 * r then fxOne - r else r
    let t := r * fxPi / fxOne
    ⟨neg, (sinSeries (t * t / fxOne) 70 0 t 0).toNat, -fxBits, true⟩

/-- sin(π x) (R196). -/
def Ex.sin (x : Ex) : Ex :=
  if x.m = 0 then x
  else if x.log < -150 then ⟨x.neg, x.m * fxPi, x.e - fxBits, true⟩
  else sinPi (x.fixMod 1) x.neg x.neg

/-- cos(π x) (R196), as sin(π (|x| + ½)). -/
def Ex.cos (x : Ex) : Ex :=
  if x.m = 0 then ⟨false, 1, 0, false⟩
  else if x.log < -150 then ⟨false, fxOne - 1, -fxBits, true⟩
  else sinPi ((x.fixMod 1 + fxOne / 2) % (2 * fxOne)) false false

/-- 1 ÷ √x of a positive number. -/
def Ex.rsqrt (x : Ex) : Ex :=
  let odd := x.e % 2 = 1
  let m := if odd then 2 * x.m else x.m
  let e := if odd then x.e - 1 else x.e
  let r := isqrt (2 ^ 600 / m)
  ⟨false, r, -(e / 2) - 300, r * r * m != 2 ^ 600⟩

/-- VFRCP. -/
def FFmt.rcp (f : FFmt) (p : Nat) : FR := f.div .rne (f.round .rne ⟨false, 1, 0, false⟩).bits p

/-- VFRSQ. -/
def FFmt.rsq (f : FFmt) (p : Nat) : FR :=
  match f.decode p with
  | .nan sig => ⟨f.nan, if sig then 16 else 0⟩
  | .inf neg => if neg then ⟨f.nan, 16⟩ else ⟨0, 0⟩
  | .num x =>
    if x.m = 0 then ⟨f.signed x.neg f.infMag, 8⟩
    else if x.neg then ⟨f.nan, 16⟩
    else f.round .rne x.rsqrt

/-- VFEXP2. -/
def FFmt.exp2 (f : FFmt) (p : Nat) : FR :=
  match f.decode p with
  | .nan sig => ⟨f.nan, if sig then 16 else 0⟩
  | .inf neg => if neg then ⟨0, 0⟩ else ⟨f.infMag, 0⟩
  | .num x => f.round .rne x.exp2

/-- VFLOG2. -/
def FFmt.log2 (f : FFmt) (p : Nat) : FR :=
  match f.decode p with
  | .nan sig => ⟨f.nan, if sig then 16 else 0⟩
  | .inf neg => if neg then ⟨f.nan, 16⟩ else ⟨f.infMag, 0⟩
  | .num x =>
    if x.m = 0 then ⟨f.signed true f.infMag, 8⟩
    else if x.neg then ⟨f.nan, 16⟩
    else f.round .rne x.log2

/-- VFSIN. -/
def FFmt.sin (f : FFmt) (p : Nat) : FR :=
  match f.decode p with
  | .nan sig => ⟨f.nan, if sig then 16 else 0⟩
  | .inf _ => ⟨f.nan, 16⟩
  | .num x => f.round .rne x.sin

/-- VFCOS. -/
def FFmt.cos (f : FFmt) (p : Nat) : FR :=
  match f.decode p with
  | .nan sig => ⟨f.nan, if sig then 16 else 0⟩
  | .inf _ => ⟨f.nan, 16⟩
  | .num x => f.round .rne x.cos

end Sys2Proof.Machine
end

