-- ==== Sys2Proof/Machine/LoadStore.lean ====
section
/-! DEFINITION. LOAD (R59), STORE (R60), AMO (R63 to R66), FENCE (R67, R68) and CACHE (R69). -/

namespace Sys2Proof.Machine

/-! ### LOAD and STORE -/

/-- The effective address of format M (R58). -/
def State.eaM (s : State) (a : Fin 32) (i : BitVec 11) : Word := s.x a + sext i

/-- The extension of n bytes into a register: signed or zero (R59). -/
def extBytes (signed : Bool) (n v : Nat) : Word :=
  if signed then (BitVec.ofNat (8 * n) v).signExtend 64 else w64 v

/-- A LOAD member: n bytes, extended into x d (R59). -/
def State.load (s : State) (d a : Fin 32) (p : Policy) (i : BitVec 11) (n : Nat) (signed : Bool) : Out :=
  (s.scalarLoad (s.eaM a i) n p).done fun v t => t.finishWr d (extBytes signed n v)

/-- A STORE member: the low n bytes of x d (R60). A store that resets the Mantle harts leaves nothing to retire
(R148). -/
def State.store (s : State) (d a : Fin 32) (p : Policy) (i : BitVec 11) (n : Nat) : Out :=
  (s.scalarStore (s.eaM a i) n p (s.x d)).done fun reset t => if reset then t else t.finish

/-- LB (R59). -/
def execLb (d a : Fin 32) (p : Policy) (i : BitVec 11) (s : State) : Out :=
  s.load d a p i 1 true

/-- LBU (R59). -/
def execLbu (d a : Fin 32) (p : Policy) (i : BitVec 11) (s : State) : Out :=
  s.load d a p i 1 false

/-- LH (R59). -/
def execLh (d a : Fin 32) (p : Policy) (i : BitVec 11) (s : State) : Out :=
  s.load d a p i 2 true

/-- LHU (R59). -/
def execLhu (d a : Fin 32) (p : Policy) (i : BitVec 11) (s : State) : Out :=
  s.load d a p i 2 false

/-- LW (R59). -/
def execLw (d a : Fin 32) (p : Policy) (i : BitVec 11) (s : State) : Out :=
  s.load d a p i 4 true

/-- LWU (R59). -/
def execLwu (d a : Fin 32) (p : Policy) (i : BitVec 11) (s : State) : Out :=
  s.load d a p i 4 false

/-- LD (R59). -/
def execLd (d a : Fin 32) (p : Policy) (i : BitVec 11) (s : State) : Out :=
  s.load d a p i 8 false

/-- SB (R60). -/
def execSb (d a : Fin 32) (p : Policy) (i : BitVec 11) (s : State) : Out :=
  s.store d a p i 1

/-- SH (R60). -/
def execSh (d a : Fin 32) (p : Policy) (i : BitVec 11) (s : State) : Out :=
  s.store d a p i 2

/-- SW (R60). -/
def execSw (d a : Fin 32) (p : Policy) (i : BitVec 11) (s : State) : Out :=
  s.store d a p i 4

/-- SD (R60). -/
def execSd (d a : Fin 32) (p : Policy) (i : BitVec 11) (s : State) : Out :=
  s.store d a p i 8

/-! ### AMO -/

/-- The L1 action of a release at device or system scope, which waits for drains that cannot be made yet (R68, R127). -/
def State.releaseRes (s : State) : Res Unit :=
  match s.releaseWait s.h.core with
  | some a => .stop (.wait (.word a)) s
  | none => .ok () (s.release s.h.core)

/-- An AMO (R63 to R66): scope code c (0 core, 1 device, 2 system), rl, aq, far, .D. The L1 actions of rl and aq at
device and system scope stand before and after the atomic step (R66, R68), and both order the vector agent's accesses, the scratchpad reads of Yoke operations among them. -/
def State.execAmo (s : State) (op : AmoOp) (d a b : Fin 32) (c : Fin 4) (rl aq far wide : Bool) : Out :=
  let n := if wide then 8 else 4
  let ea := s.x a
  let m := 2 ^ (8 * n)
  let wideScope := c.val != 0
  let r := (s.locate ea n true .both false 0).bind fun l t =>
    (if rl && wideScope then t.releaseRes else .ok () t).bind fun _ t =>
      { t with h := if rl || aq then t.h.pinOps else t.h }.amoLoc l ea n (l.atHome far) op ((s.x b).toNat % m) ((s.x d).toNat % m)
  r.done fun old t =>
    let t := if aq && wideScope then t.acquire t.h.core else t
    t.finishWr d (extBytes true n old)

/-- AMOSWAP (R64). -/
def execAmoswap (d a b : Fin 32) (c : Fin 4) (l q f w : Bool) (s : State) : Out :=
  s.execAmo .swap d a b c l q f w

/-- AMOADD (R64). -/
def execAmoadd (d a b : Fin 32) (c : Fin 4) (l q f w : Bool) (s : State) : Out :=
  s.execAmo .add d a b c l q f w

/-- AMOAND (R64). -/
def execAmoand (d a b : Fin 32) (c : Fin 4) (l q f w : Bool) (s : State) : Out :=
  s.execAmo .and d a b c l q f w

/-- AMOOR (R64). -/
def execAmoor (d a b : Fin 32) (c : Fin 4) (l q f w : Bool) (s : State) : Out :=
  s.execAmo .or d a b c l q f w

/-- AMOXOR (R64). -/
def execAmoxor (d a b : Fin 32) (c : Fin 4) (l q f w : Bool) (s : State) : Out :=
  s.execAmo .xor d a b c l q f w

/-- AMOMIN (R64). -/
def execAmomin (d a b : Fin 32) (c : Fin 4) (l q f w : Bool) (s : State) : Out :=
  s.execAmo .min d a b c l q f w

/-- AMOMAX (R64). -/
def execAmomax (d a b : Fin 32) (c : Fin 4) (l q f w : Bool) (s : State) : Out :=
  s.execAmo .max d a b c l q f w

/-- AMOMINU (R64). -/
def execAmominu (d a b : Fin 32) (c : Fin 4) (l q f w : Bool) (s : State) : Out :=
  s.execAmo .minu d a b c l q f w

/-- AMOMAXU (R64). -/
def execAmomaxu (d a b : Fin 32) (c : Fin 4) (l q f w : Bool) (s : State) : Out :=
  s.execAmo .maxu d a b c l q f w

/-- AMOCAS (R64). -/
def execAmocas (d a b : Fin 32) (c : Fin 4) (l q f w : Bool) (s : State) : Out :=
  s.execAmo .cas d a b c l q f w

/-! ### FENCE -/

/-- Whether a scope reaches beyond the core (R68). -/
def scopeWide : Scope → Bool
  | .dev | .sys => true
  | _ => false

/-- Whether a fence's before-set holds the vector agent's accesses (R67). -/
def dirVector : Dir → Bool
  | .sv => false
  | .vs | .vv | .all => true

/-- FENCE (R67, R68). Every access before it has been performed but the scratchpad reads of open Yoke operations, which are
performed now where the before-set holds them; the release drains and the acquire drops self-valid words at device and
system scope. -/
def execFence (l q : Bool) (c : Scope) (t : Dir) (s : State) : Out :=
  (if l && scopeWide c then s.releaseRes else .ok () s).done fun _ s =>
    let s := if l || dirVector t then { s with h := s.h.pinOps } else s
    (if q && scopeWide c then s.acquire s.h.core else s).finish

/-! ### CACHE -/

/-- The checks of a CACHE operation: R58 with size 1 and no alignment (R69). -/
def State.locateLine (s : State) (ea : Word) (n : Need) : Res Loc := s.locate ea 1 false n false 0

/-- The word of a line that a CACHE operation waits for: one with an outstanding home transaction (R127), or one for which
the core has a request or an answer in flight. -/
def State.lineWait (s : State) (core line : Nat) : Option Nat :=
  match s.firstBusy (lineWords line) with
  | some a => some a
  | none => (s.lineReqs core line).head?

/-- Carry out a CACHE operation on a line of memory once nothing of the line is in flight; in the local window it has no
effect (R69). -/
def State.onLine (s : State) (l : Loc) (f : State → Nat → State) : Res Unit :=
  match l with
  | .phys pa =>
    match s.lineWait s.h.core (pa / 128) with
    | some a => .stop (.wait (.word a)) s
    | none => .ok () (f s (pa / 128))
  | .scratch _ => .ok () s

/-- CINV (R69, R125): everything the L1 holds of the line is given up and the line dropped. -/
def execCinv (a : Fin 32) (i : BitVec 11) (s : State) : Out :=
  ((s.locateLine (s.eaM a i) .read).bind fun l t => t.onLine l fun u n => u.dropLine u.h.core n).done
    fun _ t => t.finish

/-- CINV.I (R69): the line leaves the core's instruction cache. -/
def execCinvI (a : Fin 32) (i : BitVec 11) (s : State) : Out :=
  (s.locateLine (s.eaM a i) .exec).done fun l t =>
    match l with
    | .phys pa =>
      { t with coh := { t.coh with
          icache := t.coh.icache.filter fun e => !(e.core == t.h.core && e.line == pa / 128) } }.finish
    | .scratch _ => t.finish

/-- Write back a word as CWB does: dirty bytes drain, an owned word is written back and stays owned (R69, R125). -/
def State.cwbWord (s : State) (core a : Nat) : State :=
  let s := s.drainWord core a
  if (s.l1 core a).st = .w then (s.serve (Req.of .cwb (some core) a)).s else s

/-- CWB (R69). -/
def execCwb (a : Fin 32) (i : BitVec 11) (s : State) : Out :=
  ((s.locateLine (s.eaM a i) .read).bind fun l t => t.onLine l fun u n =>
    (lineWords n).foldl (fun u w => u.cwbWord u.h.core w) u).done fun _ t => t.finish

/-- CZERO (R69): the line's 128 bytes become zero as dirty .self bytes, owned words in place; in the local window
the block becomes zero. -/
def execCzero (a : Fin 32) (i : BitVec 11) (s : State) : Out :=
  ((s.locateLine (s.eaM a i) .write).bind fun l t =>
    match l with
    | .phys pa =>
      if t.lostPeer pa then .ok () t.lostStore
      else
        match t.installWait t.h.core pa with
        | some x => .stop (.wait (.word x)) t
        | none => .ok () ((lineWords (pa / 128)).foldl (fun u w => u.coreStore u.h.core .self w 255 0) t)
    | .scratch off =>
      let base := off / 128 * 128
      .ok () { t with h := { (t.h.cleanPool 1 base 128) with scratch := t.h.scratch.clear base 128 } }).done
    fun _ t => t.finish

/-- The home request that a PREF makes for a word, and the state the word comes to (R69, R125): words in I are filled, or
registered or owned like the others; a word that is present already is left alone. -/
def State.prefKind (s : State) (core : Nat) (pol : Policy) (a : Nat) : Option (ReqKind × L1St) :=
  match pol, (s.l1 core a).st with
  | .self, .i => some (.selfFill, .v)
  | .trk, .i | .trk, .v => some (.trkLoad, .k)
  | .own, .i | .own, .v | .own, .k => some (.ownership, .w)
  | _, _ => none

/-- Prefetch one word. -/
def State.prefWord (s : State) (core : Nat) (pol : Policy) (low : Bool) (a : Nat) : State :=
  match s.prefKind core pol a with
  | some k => (s.fillWord core a k.1 k.2 low).s
  | none => s

/-- The word that a PREF of a line waits for: one it would request whose home transaction is outstanding (R127), or one
that its install waits for (R87). -/
def State.prefWait (s : State) (core : Nat) (pol : Policy) (line : Nat) : Option Nat :=
  match (lineWords line).filter fun a => (s.prefKind core pol a).isSome with
  | [] => none
  | as =>
    match s.firstBusy as with
    | some a => some a
    | none => s.installWait core (line * 128)

/-- PREF and PREF.W (R69): a prefetch that would fault, that reaches a device window or the local window, is
dropped; PREF gives the line lowest retention, PREF.W normal retention. A moving page and a busy word make it wait
(R127, R433): R69's list of dropped prefetches has neither. -/
def execPref (a : Fin 32) (p : Policy) (w : Bool) (i : BitVec 11) (s : State) : Out :=
  match s.locateLine (s.eaM a i) .read with
  | .ok (.phys pa) t =>
    if t.lostPeer pa then .next s.finish
    else
      let core := t.h.core
      match t.prefWait core p (pa / 128) with
      | some x => .next (t.stopWith (.wait (.word x)))
      | none =>
        let present := t.coh.l1.any fun l => l.core == core && l.line == pa / 128
        let t := (lineWords (pa / 128)).foldl (fun u x => u.prefWord core p (!w) x) t
        .next (if present && w then t.touchLine core pa false else t).finish
  | .ok _ t => .next t.finish
  | .stop (.wait x) t => .next (t.stopWith (.wait x))
  | .stop _ _ => .next s.finish

end Sys2Proof.Machine
end

