-- ==== Sys2Proof/Machine/Csr.lean ====
section
/-! DEFINITION. The control and status registers (R70 to R77) and the CSR instructions (R71). -/

namespace Sys2Proof.Machine

/-- Whether a handed-over Yoke operation is not completed; one whose failure is held is completed except a latch
operation that waits for its stream (R446). -/
def YokeOp.isOpen (o : YokeOp) : Bool :=
  match o.fail with
  | none => true
  | some f => f.code == 4

/-- Whether the hart has Yoke operations in flight. -/
def Hart.yokeBusy (h : Hart) : Bool := h.yops.any YokeOp.isOpen

/-- The CSRs that do not exist on a Mantle hart (R70). -/
def csrVectorHalf (n : Nat) : Bool :=
  [0x000, 0x001, 0x002, 0x104, 0x105, 0x106, 0x107, 0x108, 0x109, 0x200, 0x202, 0x407].contains n

/-- The CSRs that are vector state: an instruction that names one waits for the vector half (R72). -/
def csrWaits (n : Nat) : Bool :=
  [0x000, 0x001, 0x002, 0x104, 0x105, 0x106, 0x107, 0x108, 0x109, 0x200, 0x202].contains n

/-- The numbers that R73 lists. -/
def csrHart (n : Nat) : Bool :=
  [0x000, 0x001, 0x002, 0x100, 0x101, 0x102, 0x103, 0x104, 0x105, 0x106, 0x107, 0x108, 0x109, 0x10A, 0x200, 0x201,
   0x202, 0x400, 0x401, 0x402, 0x403, 0x404, 0x405, 0x406, 0x407].contains n

/-- The numbers that R76 lists. -/
def csrMantle (n : Nat) : Bool :=
  [0xC00, 0xC01, 0xC02, 0xC03, 0xC04, 0xC05, 0xC06, 0xD00, 0xD01].contains n

/-- Whether a CSR exists on the hart (R70, R73, R76). -/
def Hart.csrExists (h : Hart) (n : Nat) : Bool :=
  if h.isMantle then (csrHart n && !csrVectorHalf n) || csrMantle n else csrHart n

/-- The level of a mode against bits 11:10 of a CSR number (R70). -/
def Mode.level : Mode → Nat
  | .u => 0 | .s => 1 | .m => 3

/-- Whether the hart may access a CSR at all (R70, R71). -/
def Hart.csrReadable (h : Hart) (n : Nat) : Bool := h.csrExists n && decide (n / 1024 ≤ h.mode.level)

/-- Whether the CSR is writable in this mode: bits 9:8 of its number (R70). -/
def Hart.csrWritable (h : Hart) (n : Nat) : Bool :=
  match n / 256 % 4 with
  | 0 => true
  | 2 => h.mode != .u
  | _ => false

/-- The fence entry that mpfsel selects on a Mantle hart (R76, R180). -/
def State.fenceEnt (s : State) (cluster idx : Nat) : FenceEnt :=
  match s.mmu.fences.find? (fun e => e.cluster == cluster && e.idx == idx) with
  | some e => e
  | none => { cluster := cluster, idx := idx, base := 0, limit := 0, attr := 0 }

/-- Write a fence entry; every TLB entry of the cluster goes (R181). -/
def State.setFence (s : State) (e : FenceEnt) : State :=
  let m := { s.mmu with
    fences := e :: s.mmu.fences.filter fun f => !(f.cluster == e.cluster && f.idx == e.idx) }
  { s with mmu := m.dropCluster e.cluster }

/-- The core key that mlanesel selects on a Mantle hart (R76, R271). -/
def Hart.laneCore (h : Hart) : Nat := h.cluster * 16 + field h.mant.mlanesel 0 4

/-- The lane map of a core: pleats and out of service (R271). -/
def State.laneMap (s : State) (core : Nat) : Nat × Bool :=
  match s.sched.lanes.find? (fun e => e.1 == core) with
  | some e => (e.2.1, e.2.2.1)
  | none => (15, false)

/-- The Pleats that a core's datapath uses (R272). -/
def State.livePleats (s : State) (core : Nat) : Nat :=
  match s.sched.live.find? (fun e => e.1 == core) with
  | some e => e.2
  | none => 15

/-- The number of working lanes of a core: 32, or 24 with one Pleat retired (R270). -/
def State.lanes (s : State) (core : Nat) : Nat := if s.livePleats core = 15 then 32 else 24

/-- The core's last resident hart has left it, or none is there: the datapath takes up the map (R272). -/
def State.takeLaneMap (s : State) (core : Nat) : State :=
  if s.harts.any (fun h => h.core == core && !h.isMantle && !h.gone) then s
  else
    let pl := (s.laneMap core).1
    { s with sched := { s.sched with
        live := (core, pl) :: s.sched.live.filter fun e => e.1 != core
        lanes := s.sched.lanes.map fun e => if e.1 = core then (e.1, e.2.1, e.2.2.1, false) else e } }

/-- Whether at most one of four Pleat bits is zero (R271). -/
def pleatsOk (p : Nat) : Bool := [15, 14, 13, 11, 7].contains p

/-- A write of mlanemap for a core (R271, R272): pleats with two or more zero bits leave the field unchanged. -/
def State.setLaneMap (s : State) (core : Nat) (v : Word) : State :=
  let old := s.laneMap core
  let p := if pleatsOk (field v 0 4) then field v 0 4 else old.1
  let waits := p != s.livePleats core
  let s := { s with sched := { s.sched with
    lanes := (core, p, flag v 8, waits) :: s.sched.lanes.filter fun e => e.1 != core } }
  s.takeLaneMap core

/-- The value a CSR reads as (R73 to R77). -/
def State.csrRead (s : State) (n : Nat) : Word :=
  let h := s.h
  match n with
  | 0x000 => h.vec.vrnd
  | 0x001 => h.vec.vsrkey
  | 0x002 => h.vec.vflags
  | 0x100 => Config.cycleCount s.tick
  | 0x101 => h.instret
  | 0x102 => w64 (s.link.module * 65536 + h.id)
  | 0x103 => w64 h.ctxid
  | 0x104 => h.vec.vcfg
  | 0x105 => h.vec.vl
  | 0x106 => h.vec.vrb
  | 0x107 => w64 h.vec.stack.length
  | 0x108 => h.stripord
  | 0x109 => h.ygrant
  | 0x10A => w64 (h.inbox.resv.length * 256 + h.inbox.posted.length)
  | 0x200 => h.vec.vstart
  | 0x201 => h.trap.pfxstate
  | 0x202 => h.trap.tchain
  | 0x400 => h.trap.tvec
  | 0x401 => h.trap.tcause
  | 0x402 => h.trap.tval
  | 0x403 => h.trap.tepc
  | 0x404 => h.trap.tstatus
  | 0x405 => h.trap.tscratch
  | 0x406 => h.sptbase
  | 0x407 => h.trap.claimcfg
  | 0xC00 => h.mant.mpfsel
  | 0xC01 => (s.fenceEnt h.cluster (field h.mant.mpfsel 0 6)).base
  | 0xC02 => (s.fenceEnt h.cluster (field h.mant.mpfsel 0 6)).limit
  | 0xC03 => (s.fenceEnt h.cluster (field h.mant.mpfsel 0 6)).attr
  | 0xC04 => h.mant.mhbeat
  | 0xC05 => h.mant.mlanesel
  | 0xC06 => w64 ((s.laneMap h.laneCore).1 + 256 * b2n (s.laneMap h.laneCore).2)
  | 0xD00 => w64 (0x3FE00000000 + clusterNum h.cluster * 0x100000)
  | 0xD01 => w64 (s.fw.slot * 2 ^ 32 + (s.fw.version s.fw.slot).toNat)
  | _ => 0

/-- A write of claimcfg: each two-bit field of bits 27:2 takes the new value unless that is 3 (R170, R71). -/
def claimWrite (old v : Word) : Word :=
  w64 ((List.range 13).foldl (fun acc i =>
    let f := field v (2 * i + 2) 2
    acc + (if f = 3 then field old (2 * i + 2) 2 else f) * 2 ^ (2 * i + 2)) 0)

/-- A write of tstatus: the fields of R407; PM takes 3 only on a Mantle hart and never 2 (R71). -/
def Hart.tstatusWrite (h : Hart) (v : Word) : Word :=
  let pm := field v 0 2
  let pm := if pm = 2 ∨ (pm = 3 ∧ !h.isMantle) then field h.trap.tstatus 0 2 else pm
  w64 (pm + field v 3 4 * 8)

/-- Bits 63:2 of an address, bits 1:0 zero (R407). -/
def align4 (v : Word) : Word := v &&& ~~~ 3#64

/-- A write reaches a CSR's fields under their maps (R71, R15). Read-only registers are never written. -/
def State.csrWrite (s : State) (n : Nat) (v : Word) : State :=
  let h := s.h
  let vec (f : VecState) : State := { s with h := { h with vec := f } }
  let trap (f : TrapState) : State := { s with h := { h with trap := f } }
  let mant (f : MantleState) : State := { s with h := { h with mant := f } }
  match n with
  | 0x000 => if field v 0 3 < 6 then vec { h.vec with vrnd := v &&& 7 } else s
  | 0x001 => vec { h.vec with vsrkey := v }
  | 0x002 => vec { h.vec with vflags := v &&& 31 }
  | 0x200 => vec { h.vec with vstart := v &&& 0x7FFF }
  | 0x201 => trap { h.trap with pfxstate := v &&& 0x80000000FFFFFFFF }
  | 0x400 => trap { h.trap with tvec := align4 v }
  | 0x401 => trap { h.trap with tcause := v &&& 0x800000000001FFFF }
  | 0x402 => trap { h.trap with tval := v }
  | 0x403 => trap { h.trap with tepc := align4 v }
  | 0x404 => trap { h.trap with tstatus := h.tstatusWrite v }
  | 0x405 => trap { h.trap with tscratch := v }
  | 0x406 => { s with h := { h with sptbase := v &&& 0xFFFF00FFFFFFFFFF } }
  | 0x407 => trap { h.trap with claimcfg := claimWrite h.trap.claimcfg v }
  | 0xC00 => mant { h.mant with mpfsel := v &&& 63 }
  | 0xC01 => s.setFence { s.fenceEnt h.cluster (field h.mant.mpfsel 0 6) with base := v &&& ~~~ 0xFFF#64 }
  | 0xC02 => s.setFence { s.fenceEnt h.cluster (field h.mant.mpfsel 0 6) with limit := v &&& ~~~ 0xFFF#64 }
  | 0xC03 => s.setFence { s.fenceEnt h.cluster (field h.mant.mpfsel 0 6) with attr := v &&& 0x800000FF00000007 }
  | 0xC04 => s.writeBeat v
  | 0xC05 => mant { h.mant with mlanesel := v &&& 15 }
  | 0xC06 => s.setLaneMap h.laneCore v
  | _ => s

/-- The core of every CSR instruction (R71, R72): the access checks, the wait, the write of f old when `writes`,
and x d := old. -/
def State.csrOp (s : State) (d : Fin 32) (n : BitVec 12) (writes : Bool) (f : Word → Word) : Out :=
  let n := n.toNat
  if !s.h.csrReadable n || (writes && !s.h.csrWritable n) then .next s.illegal
  else if csrWaits n && s.h.yokeBusy then .next (s.stopWith (.wait .yoke))
  else
    let old := s.csrRead n
    let s := if n = 0x100 then { s with tick := s.tick + 1 } else s
    let s := if writes then s.csrWrite n (f old) else s
    .next (s.finishWr d old)

/-- CSRR (R71). -/
def execCsrr (d : Fin 32) (n : BitVec 12) (s : State) : Out := s.csrOp d n false id

/-- CSRW (R71). -/
def execCsrw (d a : Fin 32) (n : BitVec 12) (s : State) : Out := s.csrOp d n true fun _ => s.x a

/-- CSRS (R71): writes unless a = 0. -/
def execCsrs (d a : Fin 32) (n : BitVec 12) (s : State) : Out := s.csrOp d n (a != 0) fun old => old ||| s.x a

/-- CSRC (R71): writes unless a = 0. -/
def execCsrc (d a : Fin 32) (n : BitVec 12) (s : State) : Out := s.csrOp d n (a != 0) fun old => old &&& ~~~ s.x a

/-- CSRWI (R71). -/
def execCsrwi (d : Fin 32) (i : BitVec 5) (n : BitVec 12) (s : State) : Out :=
  s.csrOp d n true fun _ => i.setWidth 64

/-- CSRSI (R71): writes unless the immediate field is 0. -/
def execCsrsi (d : Fin 32) (i : BitVec 5) (n : BitVec 12) (s : State) : Out :=
  s.csrOp d n (i != 0) fun old => old ||| i.setWidth 64

/-- CSRCI (R71): writes unless the immediate field is 0. -/
def execCsrci (d : Fin 32) (i : BitVec 5) (n : BitVec 12) (s : State) : Out :=
  s.csrOp d n (i != 0) fun old => old &&& ~~~ (i.setWidth 64)

end Sys2Proof.Machine
end

