-- ==== Sys2Proof/Machine/Format.lean ====
section
/-! DEFINITION. Element types and storage formats (R26, R186 to R192), the conversions of VCVT (R234) and of
streams and copies (R374, R378), and the encoding of block formats (R192). -/

namespace Sys2Proof.Machine

/-- The floating-point format of a type code of R26; none for an integer type. -/
def codeFmt (c : Nat) : Option FFmt :=
  match c with
  | 4 => some fmt16
  | 5 => some fmtBf16
  | 6 => some fmt32
  | 7 => some fmt64
  | 8 => some fmtE4M3
  | 9 => some fmtE5M2
  | _ => none

/-- The bytes of an element of a type code (R204, R232). -/
def codeBytes (c : Nat) : Nat :=
  match c with
  | 1 | 4 | 5 | 11 => 2
  | 2 | 6 | 12 => 4
  | 3 | 7 | 13 => 8
  | _ => 1

/-- Whether an integer code is two's complement (R26); INT4 is (R186). -/
def codeSigned (c : Nat) : Bool := c < 4 || c == 16

/-- A w-bit pattern as a signed integer. -/
def signedOf (w p : Nat) : Int := if p % 2 ^ w < 2 ^ (w - 1) then (p % 2 ^ w : Nat) else ((p % 2 ^ w : Nat) : Int) - 2 ^ w

/-- An integer as a w-bit pattern. -/
def patOf (w : Nat) (v : Int) : Nat := (v % 2 ^ w).toNat

/-- A w-bit pattern as an integer, signed or not. -/
def intOf (sgn : Bool) (w p : Nat) : Int := if sgn then signedOf w p else (p % 2 ^ w : Nat)

/-- An integer clamped to the range of w bits, signed or not. -/
def clampInt (sgn : Bool) (w : Nat) (v : Int) : Int :=
  if sgn then max (-(2 ^ (w - 1))) (min v (2 ^ (w - 1) - 1)) else max 0 (min v (2 ^ w - 1))

/-- A number rounded to an integer, and whether it is inexact. -/
def Ex.toInt (x : Ex) (k : Rnd) : Int × Bool :=
  let r := x.roundAt k 0
  (if x.neg then -(r.1 : Int) else r.1, r.2)

/-! ### VCVT (R234) -/

/-- A floating-point value to an integer type (R234). -/
def floatToInt (k : Rnd) (sgn : Bool) (w : Nat) (v : FV) : FR :=
  match v with
  | .nan _ => ⟨0, 16⟩
  | .inf neg => ⟨patOf w (clampInt sgn w (if neg then -(2 ^ 64) else 2 ^ 64)), 16⟩
  | .num x =>
    let r := x.toInt k
    let c := clampInt sgn w r.1
    if c = r.1 then ⟨patOf w c, b2n r.2⟩ else ⟨patOf w c, 16⟩

/-- A floating-point value to a floating-point format (R234). -/
def floatToFloat (k : Rnd) (f : FFmt) (v : FV) : FR :=
  match v with
  | .nan sig => ⟨f.nan, if sig then 16 else 0⟩
  | .inf neg => if f.kind = .ieee then ⟨f.signed neg f.infMag, 0⟩ else ⟨f.signed neg f.maxMag, 16⟩
  | .num x => f.round k x

/-- One conversion of VCVT: source type, source read unsigned, destination code (R234). -/
def convert (k : Rnd) (src : Nat) (us : Bool) (dst p : Nat) : FR :=
  let w := 8 * codeBytes src
  let dw := 8 * codeBytes dst
  match codeFmt src, codeFmt dst with
  | none, none => ⟨patOf dw (clampInt (codeSigned dst) dw (intOf (codeSigned src && !us) w p)), 0⟩
  | none, some f =>
    let v := intOf (codeSigned src && !us) w p
    f.round k ⟨v < 0, v.natAbs, 0, false⟩
  | some f, none => floatToInt k (codeSigned dst) dw (f.decode p)
  | some f, some g => floatToFloat k g (f.decode p)

/-! ### Storage formats (R191) -/

/-- Whether a storage code is not reserved (R191). -/
def storeOk (c : Nat) : Bool := c ≤ 13 || (16 ≤ c && c ≤ 21)

/-- Whether a storage code names a block format (R191). -/
def isBlock (c : Nat) : Bool := 17 ≤ c && c ≤ 21

/-- Element bits of a storage code (R191). -/
def storeBits (c : Nat) : Nat :=
  match c with
  | 16 | 17 | 20 => 4
  | 18 | 19 | 21 => 8
  | _ => 8 * codeBytes c

/-- Elements of a block (R191). -/
def blockElems (c : Nat) : Nat := if c < 20 then 32 else 16

/-- Bytes of a scale record (R191). -/
def scaleBytes (c : Nat) : Nat := if c < 20 then 1 else 2

/-- Whether a storage code holds integers (R374). -/
def storeInt (c : Nat) : Bool := c ≤ 3 || (10 ≤ c && c ≤ 13) || c == 16

/-- A stored element's value: an integer or a floating-point value. -/
inductive EV where
  | int (v : Int)
  | fl (v : FV)
  deriving DecidableEq, Repr

/-- A value times 2^n. -/
def FV.scale (v : FV) (n : Int) : FV :=
  match v with
  | .num x => .num { x with e := x.e + n }
  | w => w

/-- An element of an MX block (R189). -/
def mxValue (f : FFmt) (x p : Nat) : FV := if x = 255 then .nan false else (f.decode p).scale ((x : Int) - 127)

/-- An element of a BX block (R190): q, scale record, element number in the block. -/
def bxValue (q rec' k p : Nat) : FV :=
  let e := rec' / 256
  let m := p % 2 ^ (q + 1)
  let mu := b2n (rec'.testBit (k / 2))
  if e = 255 then .nan false
  else .num ⟨p.testBit (q + 1) && m != 0, m, (e : Int) - 127 - mu - q, false⟩

/-- The value of element k (within its block for a block format) with its scale record (R186 to R191). -/
def storeValue (c scale k p : Nat) : EV :=
  match c with
  | 17 => .fl (mxValue fmtE2M1 scale p)
  | 18 => .fl (mxValue fmtE4M3 scale p)
  | 19 => .fl (mxValue fmtE5M2 scale p)
  | 20 => .fl (bxValue 2 scale k p)
  | 21 => .fl (bxValue 6 scale k p)
  | _ =>
    match codeFmt c with
    | some f => .fl (f.decode p)
    | none => .int (intOf (codeSigned c) (storeBits c) p)

/-- A value in a type or storage code without blocks, RNE and without flags (R374). -/
def EV.encode (v : EV) (c : Nat) : Nat :=
  match v, codeFmt c with
  | .int n, _ => patOf (storeBits c) (clampInt (codeSigned c) (storeBits c) n)
  | .fl x, some f => (floatToFloat .rne f x).bits
  | .fl _, none => 0

/-! ### Encoding a block (R192) -/

/-- |x| ÷ 2^n rounded to the nearest integer, ties to even. -/
def Ex.rneAt (x : Ex) (n : Int) : Nat := ({ x with neg := false }.roundAt .rne n).1

/-- The numbers of a block: none when a value is a NaN or an infinity. -/
def blockNums : List FV → Option (List Ex)
  | [] => some []
  | v :: vs =>
    match v, blockNums vs with
    | .num x, some xs => some (x :: xs)
    | _, _ => none

/-- Whether |x| < |y|. -/
def Ex.magLt (x y : Ex) : Bool :=
  let e := min x.e y.e
  decide (x.m * 2 ^ (x.e - e).toNat < y.m * 2 ^ (y.e - e).toNat)

/-- The number of largest magnitude. -/
def largest : List Ex → Ex
  | [] => ⟨false, 0, 0, false⟩
  | x :: xs => let y := largest xs; if x.magLt y then y else x

/-- An MX element: rounded RNE in the element format and saturated (R192). -/
def mxElem (f : FFmt) (n : Int) (x : Ex) : Nat :=
  let r := (f.round .rne { x with e := x.e - n }).bits
  let mag := r % 2 ^ f.magBits
  f.signed x.neg (min mag f.maxMag)

/-- An MX block: the scale and the elements (R192). -/
def mxEncode (f : FFmt) (emax : Nat) (vs : List FV) : Nat × List Nat :=
  match blockNums vs with
  | none => (0xFF, vs.map fun _ => 0)
  | some xs =>
    let a := largest xs
    if a.m = 0 then (0, vs.map fun _ => 0)
    else
      let s := min (max (a.log - emax + 127) 0) 254
      (s.toNat, xs.map (mxElem f (s - 127)))

/-- A BX block: the scale record and the elements (R192). -/
def bxEncode (q : Nat) (vs : List FV) : Nat × List Nat :=
  match blockNums vs with
  | none => (0xFF00, vs.map fun _ => 0)
  | some xs =>
    let a := largest xs
    if a.m = 0 then (0, vs.map fun _ => 0)
    else
      let mmax := 2 ^ (q + 1) - 1
      let e := a.log + 127
      let e := if a.rneAt (e - 127 - q) = 2 ^ (q + 1) then e + 1 else e
      let e := min (max e 0) 254
      let pair (j : Nat) : Ex := largest ((xs.drop (2 * j)).take 2)
      let mu (j : Nat) : Nat := if (pair j).rneAt (e - 128 - q) ≤ mmax then 1 else 0
      let mus := (List.range 8).map mu
      let elem (k : Nat) (x : Ex) : Nat :=
        let m := min (x.rneAt (e - 127 - (mus.getD (k / 2) 0 : Nat) - q)) mmax
        b2n (x.neg && m != 0) * 2 ^ (q + 1) + m
      (e.toNat * 256 + mus.zipIdx.foldl (fun acc b => acc + b.1 * 2 ^ b.2) 0, xs.zipIdx.map fun b => elem b.2 b.1)

/-- A block of a storage code from its values (R192). -/
def blockEncode (c : Nat) (vs : List FV) : Nat × List Nat :=
  match c with
  | 17 => mxEncode fmtE2M1 2 vs
  | 18 => mxEncode fmtE4M3 8 vs
  | 19 => mxEncode fmtE5M2 15 vs
  | 20 => bxEncode 2 vs
  | _ => bxEncode 6 vs

/-- Packed patterns of `bits` bits as one number, the first lowest (R186). -/
def packBits (bits : Nat) : List Nat → Nat
  | [] => 0
  | p :: ps => p + 2 ^ bits * packBits bits ps

end Sys2Proof.Machine
end

