-- ==== Sys2Proof/Machine/Engine.lean ====
section
/-! DEFINITION. The accesses of the stream, copy and collective engines (R108, R129, R431), and the streams of
stored elements they read and write (R191, R372, R378). -/

namespace Sys2Proof.Machine

/-- The engine contexts of R416. -/
def engStream : Nat := 0
def engCopy : Nat := 1
def engCollective : Nat := 2
def engHem : Nat := 3

/-- Whether an engine context is frozen (R417). -/
def State.engFrozen (s : State) (kind ctxid : Nat) : Bool :=
  s.host.frozenEng.any fun f => f.eng == kind && f.ctxid == ctxid

/-- Freeze an engine context, with its freeze record, and raise its notice (R417, R418). -/
def State.freezeEngine (s : State) (f : EngFreeze) : State :=
  if s.engFrozen f.eng f.ctxid then s
  else
    let t := { s with host := { s.host with frozenEng := s.host.frozenEng ++ [f] } }
    t.notice f.ctxid 0 (engineMaster f.eng f.ctxid)

/-- What an access fault means for an engine of the hart on turn: a cause to report, a frozen engine context, or a
wait. -/
def State.engFault (s : State) (kind : Nat) (e : XFault) (ea : Word) (n : Need) : Stop × State :=
  match e with
  | .violation pa => (.wait (.engine kind), s.freezeEngine ⟨kind, s.h.ctxid, ea, pa, n.kind⟩)
  | .refused => (.trap { pagePermission ea with viol := true }, s)
  | x => (x.stop ea n 0, s)

/-- The status that a message gives for a fault (R369): LINK is marked by orig 6, a peer's refusal, which posts VIOLATION,
by viol (R442). -/
def engStatus (t : TrapInfo) : Nat := if t.viol then 3 else if t.code = 7 then (if t.orig = 6 then 6 else 2) else 1

/-- Where an engine's access of n bytes goes (R58, R108, R445): no device window, no alignment. -/
def State.engLocate (s : State) (kind : Nat) (w : Who) (ea : Word) (n : Nat) (need : Need) : Res Loc :=
  let va := ea.toNat
  let no (t : State) (e : XFault) : Res Loc := let r := t.engFault kind e ea need; .stop r.1 r.2
  if s.engFrozen kind s.h.ctxid then .stop (.wait (.engine kind)) s
  else if 2 ^ 48 ≤ va then no s .notPresent
  else if isLocal va then
    if s.h.lc.scratch < va - localBase + n then no s .permission else .ok (.scratch (va - localBase)) s
  else if isAperture va then no s .permission
  else
    match s.translate w va need false with
    | (.error e, t) => no t e
    | (.ok pa, t) =>
      if t.lostPeer pa then .stop (.trap { uncorrectable ea with orig := 6 }) t else .ok (.phys pa) t

/-- The pieces, within one word each, of an engine's read: `last` is the last byte of the whole access. -/
def State.engPieces (s : State) (kind : Nat) (w : Who) (last : Nat) : Nat → Word → Nat → Res Nat
  | 0, _, _ => .ok 0 s
  | fuel + 1, ea, n =>
    if n = 0 then .ok 0 s
    else
      let k := min n (8 - ea.toNat % 8)
      ((s.engLocate kind w ea k .read).bind fun l t => t.readLocTo last l ea k .thru).bind fun v t =>
        (t.engPieces kind w last fuel (ea + w64 k) (n - k)).bind fun hi u => .ok (v + 2 ^ (8 * k) * hi) u

/-- A read of n bytes by an engine, word piece by word piece, as .thru loads of the issuing core (R108). The watermarks
see it as one access (R112). -/
def State.engRead (s : State) (kind : Nat) (w : Who) (fuel : Nat) (ea : Word) (n : Nat) : Res Nat :=
  s.engPieces kind w (ea.toNat + n - 1) fuel ea n

/-- A write of the low n bytes of v by an engine, as .thru stores of the issuing core (R108). -/
def State.engWrite (s : State) (kind : Nat) (w : Who) : Nat → Word → Nat → Nat → Res Unit
  | 0, _, _, _ => .ok () s
  | fuel + 1, ea, n, v =>
    if n = 0 then .ok () s
    else
      let k := min n (8 - ea.toNat % 8)
      ((s.engLocate kind w ea k .write).bind fun l t => t.writeLoc l k .thru v).bind fun _ t =>
        t.engWrite kind w fuel (ea + w64 k) (n - k) (v / 2 ^ (8 * k))

/-! ### Streams of stored elements -/

/-- A stream: storage code, address of element 0, bytes between elements, and for a block format its scale stream
(R191, R372, R378). -/
structure Strm where
  fmt     : Nat
  base    : Word
  stride  : Word
  sbase   : Word
  sstride : Word
  deriving DecidableEq, Repr

/-- The bytes of a block's packed elements (R191). -/
def blockBytes (c : Nat) : Nat := blockElems c * storeBits c / 8

/-- The address of the scale record of block j. -/
def Strm.scaleAddr (m : Strm) (j : Nat) : Word :=
  m.sbase + (if m.sstride = 0 then w64 (scaleBytes m.fmt) else m.sstride) * w64 j

/-- The address of element k of a stream without blocks. -/
def Strm.addr (m : Strm) (k : Nat) : Word :=
  if m.fmt = 16 then m.base + w64 (k / 2)
  else m.base + (if m.stride = 0 then w64 (storeBits m.fmt / 8) else m.stride) * w64 k

/-- Read element k of a stream as stored: its pattern, and for a block format its scale record (R191). -/
def State.strmRaw (s : State) (kind : Nat) (w : Who) (m : Strm) (k : Nat) : Res (Nat × Nat) :=
  if isBlock m.fmt then
    let b := blockElems m.fmt
    let bit := k % b * storeBits m.fmt
    let ea := m.base + w64 (k / b * blockBytes m.fmt + bit / 8)
    (s.engRead kind w 8 ea 1).bind fun v t =>
      (t.engRead kind w 8 (m.scaleAddr (k / b)) (scaleBytes m.fmt)).bind fun sc u =>
        .ok (v / 2 ^ (bit % 8) % 2 ^ storeBits m.fmt, sc) u
  else if m.fmt = 16 then
    (s.engRead kind w 8 (m.addr k) 1).bind fun v t => .ok (v / 2 ^ (k % 2 * 4) % 16, 0) t
  else (s.engRead kind w 16 (m.addr k) (storeBits m.fmt / 8)).bind fun v t => .ok (v, 0) t

/-- Read the value of element k of a stream (R189 to R191). -/
def State.strmRead (s : State) (kind : Nat) (w : Who) (m : Strm) (k : Nat) : Res EV :=
  (s.strmRaw kind w m k).bind fun v t => .ok (storeValue m.fmt v.2 (k % blockElems m.fmt) v.1) t

/-- Read elements k on: the values before the first stop, and the stop. -/
def State.strmReads (s : State) (kind : Nat) (w : Who) (m : Strm) (k : Nat) : Nat → List EV × Option Stop × State
  | 0 => ([], none, s)
  | n + 1 =>
    match s.strmRead kind w m k with
    | .stop e t => ([], some e, t)
    | .ok v t =>
      let r := t.strmReads kind w m (k + 1) n
      (v :: r.1, r.2)

/-- The floating-point value of an element, for a block encoder. -/
def EV.toFV : EV → FV
  | .fl v => v
  | .int n => .num ⟨n < 0, n.natAbs, 0, false⟩

/-- Write one block, padded with zeros when partial (R192, R375). -/
def State.strmBlock (s : State) (kind : Nat) (w : Who) (m : Strm) (j : Nat) (vs : List EV) : Res Unit :=
  let b := blockElems m.fmt
  let fvs := vs.map EV.toFV ++ List.replicate (b - vs.length) (.num ⟨false, 0, 0, false⟩)
  let e := blockEncode m.fmt fvs
  (s.engWrite kind w 16 (m.base + w64 (j * blockBytes m.fmt)) (blockBytes m.fmt) (packBits (storeBits m.fmt) e.2)).bind
    fun _ t => t.engWrite kind w 8 (m.scaleAddr j) (scaleBytes m.fmt) e.1

/-- Write elements from k on (k at the start of a block or of a byte): how many were written before the first stop.
-/
def State.strmWrites (s : State) (kind : Nat) (w : Who) (m : Strm) : Nat → Nat → List EV → Nat × Option Stop × State
  | 0, _, _ => (0, none, s)
  | _, _, [] => (0, none, s)
  | fuel + 1, k, v :: vs =>
    let n := if isBlock m.fmt then min (blockElems m.fmt) (vs.length + 1)
      else if m.fmt = 16 then min 2 (vs.length + 1) else 1
    let unit := (v :: vs).take n
    let r :=
      if isBlock m.fmt then s.strmBlock kind w m (k / blockElems m.fmt) unit
      else if m.fmt = 16 then s.engWrite kind w 8 (m.addr k) 1 (packBits 4 (unit.map fun e => e.encode 16))
      else s.engWrite kind w 16 (m.addr k) (storeBits m.fmt / 8) (v.encode m.fmt)
    match r with
    | .stop e t => (0, some e, t)
    | .ok _ t =>
      let rest := t.strmWrites kind w m fuel (k + n) ((v :: vs).drop n)
      (n + rest.1, rest.2)

end Sys2Proof.Machine
end

