-- ==== Sys2Proof/Machine/Operands.lean ====
section
/-! DEFINITION. The operands of vector instructions: element types, groups and elements (R23, R204, R421), active
elements (R207), captured scalars (R211), the prefix copy (R37), bound registers (R374 to R376), and how a vector
instruction completes or stops (R207, R251, R276, R413). -/

namespace Sys2Proof.Machine

/-! ### vcfg, vl and groups -/

/-- The element type of vcfg (R201). -/
def Hart.ew (h : Hart) : Nat := field h.vec.vcfg 0 3

/-- log2 of the group size (R201). -/
def Hart.lgrp (h : Hart) : Nat := field h.vec.vcfg 3 2

/-- The group size (R201). -/
def Hart.grp (h : Hart) : Nat := 2 ^ h.lgrp

/-- The element bytes of the vcfg type (R204). -/
def Hart.eb (h : Hart) : Nat := codeBytes h.ew

/-- The element bits of the vcfg type (R204). -/
def Hart.ewBits (h : Hart) : Nat := 8 * h.eb

/-- VL. -/
def Hart.vl (h : Hart) : Nat := h.vec.vl.toNat

/-- The granted register length (R201). -/
def Hart.vrb (h : Hart) : Nat := h.vec.vrb.toNat

/-- VLMAX for a type and group size (R203, R204). -/
def Hart.vlmax (h : Hart) (ew grp : Nat) : Nat := h.vrb * grp / codeBytes ew

/-- Whether a run of n groups of grp registers may start at register r (R23). -/
def runOk (r grp n : Nat) : Bool := r % grp == 0 && r + grp * n ≤ 32

/-! ### The captured operands of a vector instruction (R211) -/

/-- x r as the instruction sees it in its a field: captured when it is run again. -/
def Hart.xa (h : Hart) (r : Fin 32) : Word :=
  match h.cap with
  | some e => e.xa
  | none => h.get r

/-- x r as the instruction sees it in its b field. -/
def Hart.xb (h : Hart) (r : Fin 32) : Word :=
  match h.cap with
  | some e => e.xb
  | none => h.get r

/-- The vector prefix the instruction runs under (R36, R278). -/
def Hart.vpfx (h : Hart) : Option IWord :=
  match h.cap with
  | some e => e.pfx
  | none =>
    match h.pfx with
    | some w => if pfxSv w then some w else none
    | none => none

/-- The vector register that receives a copy of the result; 0 for none (R36, R37). -/
def Hart.vcpy (h : Hart) : Nat :=
  match h.vpfx with
  | some w => pfxCpy w
  | none => 0

/-! ### Active elements -/

/-- Bit i of a mask register; k0 reads as all ones (R200). -/
def Hart.kbit (h : Hart) (k : Fin 8) (i : Nat) : Bool := k == 0 || (h.vec.k[k]).getLsbD i

/-- The prefix predicate for element i (R37). -/
def Hart.pred (h : Hart) (i : Nat) : Bool :=
  match h.vpfx with
  | some w => h.kbit (Fin.ofNat 8 (pfxP w)) i != pfxNeg w
  | none => true

/-- active(i) (R207, R37). -/
def Hart.active (h : Hart) (k : Fin 8) (i : Nat) : Bool :=
  decide (i < h.vl) && h.vec.e.getLsbD i && h.kbit k i && h.pred i

/-- Where an element-wise instruction begins: vstart, and the end of its elements (R208, R275). -/
def Hart.first (h : Hart) : Nat := h.vec.vstart.toNat

def Hart.last (h : Hart) : Nat :=
  match h.lim with
  | some n => min n h.vl
  | none => h.vl

/-- The active elements that this execution of an element-wise instruction processes, ascending. -/
def Hart.elems (h : Hart) (k : Fin 8) : List Nat :=
  (List.range' h.first (h.last - h.first)).filter (h.active k)

/-- All active elements, for an instruction that ignores vstart (R208, R237). -/
def Hart.actives (h : Hart) (k : Fin 8) : List Nat := (List.range h.vl).filter (h.active k)

/-! ### Elements (R421) -/

/-- The address in the register file of element i of eb bytes of the group at register b. -/
def elemAddr (vrb eb b i : Nat) : Nat := let c := vrb / eb; 4096 * (b + i / c) + i % c * eb

/-- Element i of the group at b. -/
def VecState.elem (v : VecState) (b eb i : Nat) : Nat := v.v.read (elemAddr v.vrb.toNat eb b i) eb

/-- Element i of the group at b under the vcfg type. -/
def Hart.velem (h : Hart) (b i : Nat) : Nat := h.vec.elem b h.eb i

/-- The extent of a register after a write of position `pos` (R422). -/
def Extent.note (e : Extent) (ew lgrp pos : Nat) : Extent :=
  if e.ew = ew ∧ e.lgrp = lgrp then { e with count := max e.count (pos + 1) }
  else { e with ew := ew, lgrp := lgrp, count := pos + 1 }

/-- Record a write of a position of a register (R422). -/
def noteExtent (r ew lgrp pos : Nat) (es : List Extent) : List Extent :=
  if es.any (fun e => e.reg == r) then es.map fun e => if e.reg = r then e.note ew lgrp pos else e
  else ⟨r, ew, lgrp, pos + 1⟩ :: es

/-- Write element i of the group at b under type ew. -/
def VecState.put (v : VecState) (b ew lgrp i x : Nat) : VecState :=
  let eb := codeBytes ew
  let c := v.vrb.toNat / eb
  { v with
    v := v.v.write (elemAddr v.vrb.toNat eb b i) eb x
    ext := noteExtent (b + i / c) ew lgrp (i % c) v.ext }

/-- log2 of a group size. -/
def lgrpOf (grp : Nat) : Nat := Nat.log2 grp

/-- Write element i of one group; a 64-bit element rewrites a whole word and ends an error in it (R140). -/
def Hart.putOne (h : Hart) (d ew lgrp i x : Nat) : Hart :=
  let h := if codeBytes ew = 8 then h.cleanPool 0 (elemAddr h.vrb 8 d i) 8 else h
  { h with vec := h.vec.put d ew lgrp i x }

/-- Write element i of a destination group under type ew with lgrp, and of the copy group (R37). -/
def Hart.putElem (h : Hart) (d ew lgrp i x : Nat) (cpy : Nat) : Hart :=
  let g := h.putOne d ew lgrp i x
  if cpy = 0 then g else g.putOne cpy ew lgrp i x

/-- Write the listed elements of the destination and its copy under the vcfg type. -/
def Hart.putAll (h : Hart) (d ew lgrp : Nat) (xs : List (Nat × Nat)) : Hart :=
  let c := h.vcpy
  xs.foldl (fun g e => g.putElem d ew lgrp e.1 e.2 c) h

/-- A mask with the listed bits replaced. -/
def maskPut (m : Mask) (xs : List (Nat × Bool)) : Mask :=
  let on := xs.foldl (fun n e => if e.2 then n ||| 2 ^ e.1 else n) 0
  let all := xs.foldl (fun n e => n ||| 2 ^ e.1) 0
  (m &&& ~~~ (BitVec.ofNat 32768 all)) ||| BitVec.ofNat 32768 on

/-- Write the listed bits of mask register k (R200, R422); k0 is never a destination. -/
def Hart.writeK (h : Hart) (k : Fin 8) (xs : List (Nat × Bool)) : Hart :=
  { h with vec := { h.vec with
      k := h.vec.k.set k (maskPut h.vec.k[k] xs)
      kc := h.vec.kc.set k (xs.foldl (fun n e => max n (e.1 + 1)) h.vec.kc[k]) } }

/-! ### Stops -/

/-- The record of the instruction being executed, from element i on (R413). -/
def Hart.entry (h : Hart) (i : Nat) : ChainEntry :=
  match h.cap with
  | some e => { e with start := i, vl := h.vec.vl }
  | none =>
    { pc := h.pc, word := h.ir, start := i, xa := h.get (Fin.ofNat 32 (field h.ir 16 5)),
      xb := h.get (Fin.ofNat 32 (field h.ir 11 5)), vcfg := h.vec.vcfg, vl := h.vec.vl, pfx := h.vpfx }

/-- The hart without a live prefix: the entry carries it from now on (R278). -/
def Hart.dropPfx (h : Hart) : Hart :=
  { h with trap := { h.trap with
      pfxstate := if h.trap.pfxLive then 0 else h.trap.pfxstate, pfxLive := false, pfxTret := false } }

/-- The instruction being executed stands in the window as `e` describes it, and the scalar half behind it: where it stood
already, or, for an instruction that the scalar half has just issued, at the next word (R273, R275). -/
def Hart.parkAt (h : Hart) (e : ChainEntry) : Hart :=
  let h := { h with lim := none, cap := none, vec := { h.vec with vstart := w64 e.start } }
  match h.back with
  | some pc =>
    { h with
      pc := pc, back := none, cur := 0, window := h.window.set h.cur e
      chase := if h.chase = 0 ∨ h.cur = 0 then 0 else h.cur + 1 }
  | none => { h.dropPfx with pc := h.pc + 4, window := [e] }

/-- A vector instruction stops at element i (R251, R276) and stands in the window from there. A younger one discards its
stop, which arises again once it is the oldest. The oldest waits; or, when every younger one has come as far as it
may, it traps or freezes, and everything younger than the youngest started instruction is undone (R274). -/
def State.vstop (s : State) (i : Nat) (w : Stop) : State :=
  let h := s.h.parkAt (s.h.entry i)
  if s.h.cur != 0 then { s with h := h }
  else
    match w with
    | .wait r => { s with h := { h with status := .wait r } }
    | w =>
      if !h.caughtUp ∧ s.h.chase = 0 then { s with h := { h with chase := 1, met := true } }
      else { s with h := h.settle }.stopWith w

/-- A vector instruction is complete: vstart becomes 0 (R208). -/
def State.vdone (s : State) : State := { s with h := { s.h with vec := { s.h.vec with vstart := 0 } } }.finish

/-- An element-wise instruction has processed its elements below the bound of a partial execution (R275): it goes on
from there later. -/
def State.vpart (s : State) (n : Nat) : State := { s with h := s.h.parkAt (s.h.entry n) }

/-- The end of an element-wise instruction: part of it or all of it, with `f` applied when it is complete. -/
def State.vend (s : State) (f : State → State) : State :=
  match s.h.lim with
  | some n => if n < s.h.vl then s.vpart n else (f s).vdone
  | none => (f s).vdone

/-! ### Bound registers (R374 to R376) -/

/-- The open binding of a register. -/
def Hart.bound (h : Hart) (r : Nat) : Option Sleeve := h.sleeves.find? fun b => b.reg == r && !b.closing

/-- The open binding of a slot. -/
def Hart.slot? (h : Hart) (n : Nat) : Option Sleeve := h.sleeves.find? fun b => b.slot == n && !b.closing

/-- Replace the open binding of a slot. -/
def Hart.setSleeve (h : Hart) (b : Sleeve) : Hart :=
  { h with sleeves := h.sleeves.map fun c => if c.slot = b.slot ∧ c.closing = false then b else c }

/-- Whether a storage format pairs with an element type: integers with integers (R374). -/
def pairs (fmt ew : Nat) : Bool := storeInt fmt == (codeFmt ew).isNone

/-- Whether the group of grp registers at r may be a vector source of type ew (R374): a write-bound register is never
read. -/
def Hart.srcOk (h : Hart) (ew r grp : Nat) : Bool :=
  (match h.bound r with
   | none => true
   | some b => !b.write && pairs b.fmt ew) &&
  (List.range' (r + 1) (grp - 1)).all fun i => (h.bound i).all fun b => !b.write

/-- Whether the group of grp registers at r may be a destination of type ew (R374): a read-bound register is never
written. -/
def Hart.dstOk (h : Hart) (ew r grp : Nat) : Bool :=
  (match h.bound r with
   | none => true
   | some b => b.write && pairs b.fmt ew) &&
  (List.range' (r + 1) (grp - 1)).all fun i => (h.bound i).all fun b => b.write

/-- Whether no register of a run is bound (R374). -/
def Hart.runFree (h : Hart) (r n : Nat) : Bool := (List.range' r n).all fun i => (h.bound i).isNone

/-- The stream of a binding (R372). -/
def Sleeve.strm (b : Sleeve) : Strm :=
  { fmt := b.fmt, base := b.base, stride := b.stride, sbase := b.sbase, sstride := b.sstride }

/-- The accesses of a binding (R431). -/
def Sleeve.who (b : Sleeve) (h : Hart) : Who := h.whoAs b.user b.spt

/-- The scratchpad as a handed-over Yoke operation reads it: as it stood at the operation's start, or as it stands (R110,
R446). -/
def Hart.opMem (h : Hart) (o : YokeOp) : Memory := o.src.getD h.scratch

/-- The uncorrectable words of the pool as they stood when it read the scratchpad. -/
def Hart.opBad (h : Hart) (o : YokeOp) : List (Nat × Nat) := if o.src.isSome then o.bad else h.badPool

/-- Whether a Sleeve-fed YLDB handed over before takes the next elements of a slot (R350, R358). -/
def Hart.feeding (h : Hart) (slot : Nat) : Bool :=
  h.yops.any fun o =>
    let d := natOfBytes (o.head.take 4)
    field o.word 0 4 == 3 && d.testBit 8 && d / 2 ^ 16 % 8 == slot

/-- The bindings that a list of source registers consumes, each once, in order (R374). -/
def Hart.feeds (h : Hart) (srcs : List Nat) : List Sleeve :=
  (srcs.eraseDups.filterMap h.bound).filter fun b => !b.write

/-- Read up to n elements of each binding at its position: the values and the first fault of each (R376). An element is
read when it is consumed, also where its line was prefetched earlier: the spec leaves open at which moment between the
SBIND and the consuming instruction it is read (R110; assumption 69). -/
def State.readFeeds (s : State) (n : Nat) : List Sleeve → List (Sleeve × List EV × Option Stop) × State
  | [] => ([], s)
  | b :: bs =>
    let r := s.strmReads engStream (b.who s.h) b.strm b.pos n
    let rest := r.2.2.readFeeds n bs
    ((b, r.1, r.2.1) :: rest.1, rest.2)

/-- A stop of a feed that makes the instruction wait. -/
def Stop.isWait : Stop → Bool
  | .wait _ => true
  | _ => false

/-- The first stop of the feeds that satisfies p. -/
def firstStop (p : List EV → Stop → Bool) : List (Sleeve × List EV × Option Stop) → Option Stop
  | [] => none
  | (_, vs, some w) :: gs => if p vs w then some w else firstStop p gs
  | (_, _, none) :: gs => firstStop p gs

/-- stream-fault for an access fault of a stream (R376, R405): its own cause stands in tcause.orig. -/
def streamFault (t : TrapInfo) : TrapInfo := { t with code := 4, orig := t.code }

/-- Deliver n elements of a binding into its register and advance the position (R374). A fault that its prefetch holds
stands until a consumer reaches the element (R400). -/
def State.deliverFeed (s : State) (n : Nat) (b : Sleeve) (vs : List EV) : State :=
  let h := s.h
  let xs := (vs.take n).zipIdx.map fun e => (e.2, e.1.encode h.ew)
  let v := xs.foldl (fun v e => v.put b.reg h.ew h.lgrp e.1 e.2) h.vec
  let b' := { b with
    pos := b.pos + n, ahead := b.ahead - n
    held := b.held.filter fun f => decide (b.pos + n ≤ f.1) }
  { s with h := { h with vec := v }.setSleeve b' }

/-- Trim vl and mark the strip (R376, R280 flag 48). -/
def State.trimTo (s : State) (n : Nat) : State :=
  let f := s.h.strip.flags
  { s with h := { s.h with
      vec := { s.h.vec with vl := w64 n }
      strip := { s.h.strip with flags := if f % 2 = 1 then f else f + 1 } } }

/-- Consume the bound sources (R374, R376): at vstart = 0 the next elements are delivered, vl is trimmed, or the
instruction stops. -/
def State.consume (s : State) (srcs : List Nat) : Res Unit :=
  let feeds := s.h.feeds srcs
  let vl := s.h.vl
  if feeds.isEmpty || s.h.vec.vstart != 0 || vl == 0 then .ok () s
  else if feeds.any (fun b => s.h.feeding b.slot) then .stop (.wait .yoke) s
  else
    let r := feeds.foldl (fun n b => min n (b.count - b.pos)) vl
    let got := s.readFeeds r feeds
    let t := got.2
    let n := got.1.foldl (fun n g => min n g.2.1.length) r
    match firstStop (fun _ w => w.isWait) got.1 with
    | some w => .stop w t
    | none =>
      if n = 0 ∧ r ≠ 0 then
        match firstStop (fun vs _ => vs.isEmpty) got.1 with
        | some (.trap f) =>
          -- the held fault is discarded, and prefetch starts again from the element after TRET (R400)
          let h := got.1.foldl (fun h g => if g.2.1.isEmpty then h.setSleeve { g.1 with held := none, ahead := 0 } else h) t.h
          .stop (.trap (streamFault f)) { t with h := h }
        | some w => .stop w t
        | none => .ok () t
      else
        let t := got.1.foldl (fun u g => u.deliverFeed n g.1 g.2.1) t
        .ok () (if n < vl then t.trimTo n else t)

/-- The elements of a binding that are written as one piece: as many as fill whole 128 B lines, for a block format in
whole blocks (R375, R398). -/
def Sleeve.piece (b : Sleeve) : Nat :=
  if isBlock b.fmt then blockElems b.fmt * (128 / Nat.gcd 128 (blockBytes b.fmt)) else 1024 / storeBits b.fmt

/-- The values that a binding holds and has not written. -/
def Sleeve.values (b : Sleeve) : List EV := b.pend.map fun p => storeValue p.1 0 0 p.2

/-- Write whole pieces of a binding, or all of it when `all`: the binding afterwards (R375, R398, R400). -/
def State.flushFeed (s : State) (b : Sleeve) (all : Bool) : Sleeve × State :=
  let n := if all then b.pend.length else b.pend.length / b.piece * b.piece
  if n = 0 ∨ b.failed.isSome then (b, s)
  else
    let r := s.strmWrites engStream (b.who s.h) b.strm (n + 1) b.done (b.values.take n)
    let b' := { b with done := b.done + r.1, pend := b.pend.drop r.1 }
    match r.2.1 with
    | some (.trap t) => ({ b' with failed := some (engStatus t) }, r.2.2)
    | some (.wait (.engine _)) =>
      if s.engFrozen engStream s.h.ctxid then (b', r.2.2) else ({ b' with failed := some 3 }, r.2.2)
    | _ => (b', r.2.2)

/-- The bytes of the slot's 16 KiB of the stream buffer that a binding's unwritten elements take (R398). -/
def Sleeve.bufBytes (b : Sleeve) : Nat := b.pend.length * storeBits b.fmt / 8

/-- An instruction that would append to a full buffer waits for room (R398): the lines that are full are written first. Whether
the elements that it is to append can be written does not hang on their values: where their writes are held up, what stays
unwritten must fit into the slot's 16 KiB. -/
def State.bufferRoom (s : State) (r : Nat) : Res Unit :=
  match s.h.bound r with
  | none => .ok () s
  | some b =>
    if !b.write || b.failed.isSome then .ok () s
    else
      let w := s.flushFeed b false
      let t := { w.2 with h := w.2.h.setSleeve w.1 }
      let n := min s.h.vl (b.count - b.pos)
      let trial := (t.flushFeed { w.1 with pend := w.1.pend ++ List.replicate n (s.h.ew, 0) } false).1
      if w.1.failed.isNone && trial.failed.isNone && 16384 < trial.bufBytes then .stop (.wait (.engine engStream)) t
      else .ok () t

/-- Append elements 0 to VL − 1 of a write-bound destination (R375). -/
def State.appendTo (s : State) (r ew : Nat) : State :=
  match s.h.bound r with
  | none => s
  | some b =>
    if b.write then
      let vl := s.h.vl
      let room := b.count - b.pos
      let n := min vl room
      let xs := (List.range n).map fun i => (ew, s.h.vec.elem r (codeBytes ew) i)
      let b := { b with pos := b.pos + n, pend := b.pend ++ xs, overf := b.overf || decide (room < vl) }
      let w := s.flushFeed b false
      { w.2 with h := w.2.h.setSleeve w.1 }
    else s

/-- Append to the destination and its copy (R375, R37). -/
def State.appends (s : State) (d ew : Nat) : State :=
  let c := s.h.vcpy
  let t := s.appendTo d ew
  if c = 0 ∨ c = d then t else t.appendTo c ew

/-! ### The start of a vector instruction -/

/-- Whether a mask register is uncorrectable (R415). -/
def Hart.badMask (h : Hart) (k : Nat) : Bool := k != 0 && h.badPool.contains (3, k)

/-- What an instruction names: legality; source registers that may be bound; the groups it reads, each a register and the
bytes of its elements; groups of which it reads one element (register, bytes, element); the masks it reads (9 and above: entries of the mask stack); whether it reads E; whether it ignores
vstart; whether it may read every element of its groups; whether it reads its masks whatever VL is; the mask operand
under which elements are active; and the destinations that may be bound. -/
structure VUse where
  ok    : Bool
  srcs  : List Nat
  reads : List (Nat × Nat)
  masks : List Nat
  only  : List (Nat × Nat × Nat) := []
  useE  : Bool := true
  whole : Bool := false
  gather : Bool := false
  always : Bool := false
  act   : Option (Fin 8) := none
  dsts  : List Nat := []
  deriving DecidableEq, Repr

/-- The elements that an instruction reads: the active ones from vstart (R207, R208), or every one of its groups where it
picks them by an index (assumption 70), and none with VL = 0 (R209). -/
def Hart.readElems (h : Hart) (u : VUse) (eb : Nat) : List Nat :=
  if u.gather then (if h.vl = 0 then [] else List.range (h.vrb * h.grp / eb))
  else
    let k := u.act.getD 0
    let lo := if u.whole then 0 else h.first
    (List.range' lo (h.last - lo)).filter fun i => (!u.useE || h.vec.e.getLsbD i) && h.kbit k i && h.pred i

/-- Whether an instruction processes an element at all. -/
def Hart.processes (h : Hart) (u : VUse) : Bool :=
  u.always || (if u.whole || u.gather then h.vl != 0 else decide (h.first < h.vl))

/-- Whether an element of a group that an instruction reads, E or a mask that it reads is uncorrectable (R415). With no
element to process it reads nothing that can trap (R208, R209). -/
def Hart.badUse (h : Hart) (u : VUse) : Bool :=
  !h.badPool.isEmpty && h.processes u &&
  ((u.reads.any fun r => (h.readElems u r.2).any fun i => h.badPool.contains (0, elemAddr h.vrb r.2 r.1 i / 8)) ||
   (u.only.any fun r => h.badPool.contains (0, elemAddr h.vrb r.2.1 r.1 r.2.2 / 8)) || (u.masks.any h.badMask) ||
   (u.useE && h.badPool.contains (3, 8)) ||
   (match h.vpfx with
    | some w => h.badMask (pfxP w)
    | none => false))

/-- Reading corrects the single-bit errors of the words an instruction reads (R140). -/
def State.readUse (s : State) (u : VUse) : State :=
  if s.h.weakPool.isEmpty || !s.h.processes u then s
  else
    let t := u.reads.foldl (fun t r =>
      (s.h.readElems u r.2).foldl (fun t i => t.readPool 0 (elemAddr s.h.vrb r.2 r.1 i) r.2) t) s
    let t := u.only.foldl (fun t r => t.readPool 0 (elemAddr s.h.vrb r.2.1 r.1 r.2.2) r.2.1) t
    let t := u.masks.foldl (fun t k => if k = 0 then t else t.readPool 3 (8 * k) 8) t
    if u.useE then t.readPool 3 64 8 else t

/-- Whether the machine's vector half accepts the instruction at all: a compute hart without a valid tchain (R34,
R412). -/
def Hart.vectorOk (h : Hart) : Bool := !h.isMantle && !flag h.trap.tchain 63

/-- The buffers of the bound destinations have room (R398). -/
def State.rooms (s : State) : List Nat → Res Unit
  | [] => .ok () s
  | r :: rs => (s.bufferRoom r).bind fun _ t => t.rooms rs

/-- Begin a vector instruction (R35, R415, R374): illegal-instruction, the uncorrectable sources, the room of bound
destinations, the consumption of bound sources, then the instruction's own part. -/
def State.vbegin (s : State) (u : VUse) (body : State → State) : Out :=
  if !(s.h.vectorOk && u.ok) then .next s.illegal
  else if s.h.badUse u then .next (s.vstop s.h.first (.trap (uncorrectable (BitVec.allOnes 64))))
  else
    match (s.readUse u).rooms u.dsts with
    | .stop w t => .next (t.vstop t.h.first w)
    | .ok _ t =>
      match t.consume u.srcs with
      | .stop w t => .next (t.vstop t.h.first w)
      | .ok _ t => .next (body t)

/-- Perform an element-wise memory instruction on the listed elements, ascending (R251): the element at which it
stops, and the state. -/
def State.vloop (s : State) (f : Nat → State → Res Unit) : List Nat → Option (Nat × Stop) × State
  | [] => (none, s)
  | i :: is =>
    match f i s with
    | .ok _ t => t.vloop f is
    | .stop w t => (some (i, w), t)

/-- The bindings, the registers with their extents, vl and the strip's flags as they stood in `old`, before an instruction that stops at its first element:
what it consumed is given back, so that running it again consumes it once (R17, R277, R374). -/
def State.giveBack (s : State) (old : Hart) (i : Nat) : State :=
  if i = 0 then { s with h := { s.h with
    sleeves := old.sleeves, vec := { s.h.vec with vl := old.vec.vl, v := old.vec.v, ext := old.vec.ext }
    strip := old.strip } } else s

/-- The body of an element-wise memory instruction: f on each element, then `fin` when it completes (R251). -/
def State.velems (s : State) (old : Hart) (k : Fin 8) (f : Nat → State → Res Unit) (fin : State → State) :
    State :=
  match s.vloop f (s.h.elems k) with
  | (none, t) => t.vend fin
  | (some (i, w), t) => (t.giveBack old i).vstop i w

/-! ### Element-wise instructions without traps (R207, R210) -/

/-- A second operand: a vector group, a scalar, or none. -/
inductive VB where
  | vec (r : Fin 32)
  | sca (v : Word)
  | no
  deriving DecidableEq, Repr

/-- The registers that an operand names. -/
def VB.regs : VB → List Nat
  | .vec r => [r.val]
  | _ => []

/-- Element i of an operand of eb bytes. -/
def Hart.bElem (h : Hart) (b : VB) (i : Nat) : Nat :=
  match b with
  | .vec r => h.velem r i
  | .sca v => v.toNat % 2 ^ h.ewBits
  | .no => 0

/-- Whether register runs of m and n registers overlap. -/
def overlap (r m q n : Nat) : Bool := decide (r < q + n) && decide (q < r + m)

/-- Whether a destination group and the group of the prefix copy are legal for a type and group size (R23, R37,
R374). The copy keeps the rules of a destination for bound registers (assumption 26); it may be the destination itself,
since R37 asks only the runs of a segment load to be disjoint. -/
def Hart.destsOk (h : Hart) (d ew grp : Nat) : Bool :=
  let c := h.vcpy
  runOk d grp 1 && h.dstOk ew d grp && (c == 0 || (runOk c grp 1 && h.dstOk ew c grp))

/-- Whether source groups of the vcfg size are legal (R23, R374). -/
def Hart.srcsOk (h : Hart) (rs : List Nat) : Bool := rs.all fun r => runOk r h.grp 1 && h.srcOk h.ew r h.grp

/-- The destinations that may be bound: the register and the prefix copy (R374, R375). -/
def Hart.dests (h : Hart) (d : Nat) : List Nat := if h.vcpy = 0 ∨ h.vcpy = d then [d] else [d, h.vcpy]

/-- What an element-wise instruction of vector result uses: sources `rs`, the destination also read when `acc`
(R207, R374). -/
def Hart.use (h : Hart) (ok : Bool) (d : Nat) (rs : List Nat) (k : Fin 8) (acc : Bool) : VUse :=
  { ok := ok && h.srcsOk rs && h.destsOk d h.ew h.grp && (!acc || (h.bound d).isNone)
    srcs := rs
    reads := (if acc then d :: rs else rs).map fun r => (r, h.eb)
    masks := [k.val]
    act := some k
    dsts := h.dests d }

/-- An element-wise instruction with vector result: f gives the pattern and the flags of element i (R207, R223). -/
def State.vmap (s : State) (u : VUse) (d k : Nat) (f : Hart → Nat → FR) : Out :=
  s.vbegin u fun t =>
    let h := t.h
    let rs := (h.elems (Fin.ofNat 8 k)).map fun i => (i, f h i)
    let flags := rs.foldl (fun n r => n ||| r.2.flags) 0
    let h := h.putAll d h.ew h.lgrp (rs.map fun r => (r.1, r.2.bits))
    let h := { h with vec := { h.vec with vflags := h.vec.vflags ||| w64 flags } }
    { t with h := h }.vend fun t => t.appends d t.h.ew

end Sys2Proof.Machine
end

