-- ==== Sys2Proof/Machine/Strip.lean ====
section
/-! DEFINITION. VSETL (R203) and strips: their records, the trace ring, and the debug stops at strip boundaries
(R280 to R283). -/

namespace Sys2Proof.Machine

/-- The accesses to a trace ring: the hart's, in the ring's address space (R281). -/
def TraceRing.who (r : TraceRing) (h : Hart) : Who := { h.whoAs r.user r.space with phys := false }

/-- Where an 8-byte access to a trace ring goes (R281); a stop that is no wait is a fault. -/
def State.ringAt (s : State) (r : TraceRing) (ea : Word) (n : Need) : Res Nat :=
  if 2 ^ 48 ≤ ea.toNat || isLocal ea.toNat || isAperture ea.toNat then .stop (.trap (pageNotPresent ea)) s
  else
    match s.translate (r.who s.h) ea.toNat n false with
    | (.error e, t) => .stop (e.stop ea n 0) t
    | (.ok pa, t) =>
      if t.lostPeer pa then .stop (.trap (uncorrectable ea)) t
      else if t.wordBusy (wordAddr pa) then .stop (.wait (.word (wordAddr pa))) t
      else .ok pa t

/-- Write words at ascending addresses of a ring, by .thru stores. -/
def State.ringWrites (s : State) (r : TraceRing) (ea : Word) : List Word → Res Unit
  | [] => .ok () s
  | v :: vs =>
    (s.ringAt r ea .write).bind fun pa t =>
      (t.coreStore t.h.core .thru (wordAddr pa) 255 v).ringWrites r (ea + 8) vs

/-- Read a word of a ring. -/
def State.ringRead (s : State) (r : TraceRing) (ea : Word) : Res Word :=
  (s.ringAt r ea .read).bind fun pa t =>
    let a := t.coreLoad t.h.core .thru (wordAddr pa) 255
    if a.bad then .stop (.trap (uncorrectable ea)) a.s else .ok a.data a.s

/-- Go on after a part of a ring access: a wait is passed on, and a fault takes the other way, from the state before. -/
def Res.orFault {α : Type} (r : Res α) (other : Res Unit) (f : α → State → Res Unit) : Res Unit :=
  match r with
  | .ok a t => f a t
  | .stop (.wait w) t => .stop (.wait w) t
  | .stop _ _ => other

/-- Count a dropped record (R281); a count that cannot be written either is lost. -/
def State.dropRecord (s : State) (r : TraceRing) : Res Unit :=
  (s.ringRead r (w64 r.base + 8)).orFault (.ok () s) fun n t =>
    (t.ringWrites r (w64 r.base + 8) [n + 1]).orFault (.ok () t) fun _ u => .ok () u

/-- Put a record into a trace ring (R281): the record, then the count as a release at device scope. A write that would
fault is dropped and counted as dropped; a busy word or a moving page makes the record wait. -/
def State.putRecord (s : State) (r : TraceRing) (rec' : List Word) : Res Unit :=
  let base := w64 r.base
  (s.ringRead r base).orFault (s.dropRecord r) fun n t =>
    let slots := (2 ^ r.lg - 64) / 32
    (t.ringWrites r (base + w64 (0x40 + 32 * (n.toNat % slots))) rec').orFault (t.dropRecord r) fun _ u =>
      u.releaseRes.bind fun _ u => (u.ringWrites r base [n + 1]).orFault (u.dropRecord r) fun _ v => .ok () v

/-- The four words of the record of the open strip with these flags (R280). The counts are free values (assumption
4); each saturates, and flag 50 says that one did. -/
def State.stripRecord (s : State) (flags : Nat) : List Word :=
  let h := s.h
  let c (i : Nat) : Nat := (Config.cycleCount (s.tick + i)).toNat
  let n (i : Nat) : Nat := min (c i) (2 ^ 32 - 1)
  let flags := if (List.range 4).any (fun i => decide (2 ^ 32 ≤ c i)) then flags ||| 4 else flags
  [ w64 (h.strip.vl.toNat % 2 ^ 16 * 2 ^ 48 + h.strip.pc.toNat % 2 ^ 48),
    w64 (flags % 2 ^ 16 * 2 ^ 48 + h.stripord.toNat % 2 ^ 48),
    w64 (n 0 + n 1 * 2 ^ 32), w64 (n 2 + n 3 * 2 ^ 32) ]

/-- The launch of the hart on turn. -/
def State.myLaunch (s : State) : Option Launch :=
  match s.h.lc.launch with
  | some l => s.launch? l
  | none => none

/-- Form the record of the open strip and, while tracing is on, write it (R280, R281). `extra` adds flags 51 to 53 as
bits 3 to 5. -/
def State.traceStrip (s : State) (extra : Nat) : Res Unit :=
  match s.myLaunch with
  | some l =>
    match l.trace with
    | some r =>
      (s.putRecord r (s.stripRecord (s.h.strip.flags ||| extra))).bind fun _ t => .ok () { t with tick := t.tick + 4 }
    | none => .ok () s
  | none => .ok () s

/-- Whether the VSETL or SPAN being executed hits the context's breakpoint, with the new stripord (R282). -/
def State.breakHit (s : State) (ord : Word) : Bool :=
  match s.myLaunch with
  | some l =>
    match l.brk with
    | some (pc, o) => pc == s.h.pc && (o == BitVec.allOnes 64 || o == ord)
    | none => false
  | none => false

/-- A debug halt is requested of a hart of the context. -/
def Hart.asked (h : Hart) (ctxid : Nat) : Hart :=
  if h.ctxid = ctxid ∧ !h.isMantle then { h with lc := { h.lc with haltReq := true } } else h

/-- Close the open strip and open the next at this instruction with vl = g (R203, R280, R289). A breakpoint hit asks every
hart of the context to halt, those saved too (R282, R283). -/
def State.nextStrip (s : State) (g : Nat) : Res Unit :=
  let ord := s.h.stripord + 1
  let hit := s.breakHit ord
  (s.traceStrip (if hit then 16 else 0)).bind fun _ t =>
    let h := t.h
    let h := { h with
      stripord := ord, ncopy := g, strip := { pc := h.pc, vl := w64 g, flags := 0, ret := h.instret + 1 }
      vec := { h.vec with vl := w64 g, vstart := 0 }
      lc := { h.lc with haltReq := h.lc.haltReq || hit } }
    let t := { t with h := h }
    .ok () (if hit then
      { t with
        others := t.others.map fun k => k.asked h.ctxid
        sched := { t.sched with
          saved := t.sched.saved.map fun k => k.asked h.ctxid
          launches := t.sched.launches.map fun l => if l.ctxid = h.ctxid then { l with haltReq := true } else l } }
    else t)

/-- Whether a debug halt lands at the hart's next strip boundary: one that arrived with a trap waits for the handler's
TRET (R283, R414). -/
def Hart.haltDue (h : Hart) : Bool := h.lc.haltReq && h.trap.haltHold == 0

/-- Everything younger than the queued instruction that is about to complete is undone: a stop after it leaves the pc at
the word after it (R274, R283). -/
def Hart.stopAfter (h : Hart) : Hart :=
  match h.back with
  | some _ => { (h.undo 1) with pc := h.pc, back := some (h.pc + 4) }
  | none => h

/-- The strip boundary after a VSETL or SPAN: a requested debug halt is taken here (R283). -/
def State.boundary (s : State) : State :=
  if s.h.haltDue then { s with h := { s.h with status := .debugHalt false } } else s

/-- VL that a VSETL grants (R203). -/
def Hart.granted (h : Hart) (avl : Word) (e g : Nat) : Nat := min avl.toNat (h.vlmax e (2 ^ g))

/-- VSETL (R203). One that waits for its strip's record in the window has written x d. -/
def execVsetl (d a : Fin 32) (g : Fin 4) (e : Fin 8) (s : State) : Out :=
  if s.h.vectorOk then
    let n := s.h.granted (s.h.xa a) e g
    let wrote (h : Hart) : Hart := if h.back.isSome then h else h.set d (w64 n)
    match s.nextStrip n with
    | .stop w t => .next ({ t with h := wrote t.h }.vstop 0 w)
    | .ok _ t =>
      let h := wrote { t.h with vec := { t.h.vec with vcfg := w64 (g.val * 8 + e.val) } }
      .next ({ t with h := if h.haltDue then h.stopAfter else h }.vdone.boundary)
  else .next s.illegal

end Sys2Proof.Machine
end

