-- ==== Sys2Proof/Machine/Gfx.lean ====
section
/-! DEFINITION. The GFX class (R284 to R294): field runs, TEX, and the span instructions SPAN, HIZQ and BLEND with the
Hem's intents as BLEND fills them (R315, R317, R320). -/

namespace Sys2Proof.Machine

/-! ### Field runs (R284 to R286) -/

/-- A run of n groups from register r, with a field of two groups or not. -/
structure Run where
  r    : Nat
  n    : Nat
  wide : Bool
  deriving DecidableEq, Repr

/-- Whether a run is legal for a group size and names no bound register (R285, R374). -/
def Hart.runLegal (h : Hart) (g : Nat) (u : Run) : Bool :=
  u.r % (if u.wide then 2 * g else g) == 0 && u.r + u.n * g ≤ 32 && h.runFree u.r (u.n * g)

/-- What an instruction of this chapter with destination run `d` and source runs uses. -/
def Hart.runUse (h : Hart) (ok : Bool) (d : Option Run) (srcs : List Run) (k : Fin 8) : VUse :=
  let g := h.grp
  let rs := match d with | some u => u :: srcs | none => srcs
  { ok := ok && (rs.all fun u => h.runLegal g u) &&
      (match d with
       | some u => srcs.all fun v => !overlap u.r (u.n * g) v.r (v.n * g)
       | none => true)
    srcs := []
    reads := srcs.flatMap fun u => (List.range u.n).map fun f => (u.r + f * g, 4)
    masks := [k.val]
    act := some k }

/-- Field f of element i of a run: 32 bits. -/
def Hart.fld (h : Hart) (r f i : Nat) : Nat := h.vec.elem (r + f * h.grp) 4 i

/-- The I64 field that starts at field f of a run. -/
def Hart.fld64 (h : Hart) (r f i : Nat) : Nat := h.vec.elem (r + f * h.grp) 8 i

/-- Write a binary32 field. -/
def Hart.putF (h : Hart) (d f i v : Nat) : Hart := h.putOne (d + f * h.grp) 6 h.lgrp i v

/-- Write an I32 field. -/
def Hart.putI (h : Hart) (d f i v : Nat) : Hart := h.putOne (d + f * h.grp) 2 h.lgrp i v

/-- Write an I64 field. -/
def Hart.putL (h : Hart) (d f i v : Nat) : Hart := h.putOne (d + f * h.grp) 3 (h.lgrp + 1) i v

/-- Write binary32 fields from field f on. -/
def Hart.putFs (h : Hart) (d f i : Nat) : List Nat → Hart
  | [] => h
  | v :: vs => (h.putF d f i v).putFs d (f + 1) i vs

/-- Read n bytes for a unit (R287). -/
def State.unitBytes (s : State) (ea : Word) (n elem : Nat) : Res Nat := s.unitRead ea elem (n / 8 + 2) n

/-- An element-wise instruction of this chapter: `pre` reads what all elements share at the first active element
(R286), f performs one element. -/
def State.vunit {α : Type} (s : State) (u : VUse) (k : Fin 8) (pre : Nat → State → Res α)
    (f : α → Nat → State → Res Unit) (fin : State → State) : Out :=
  s.vbegin u fun t =>
    match t.h.elems k with
    | [] => t.vend fin
    | i :: _ =>
      match pre i t with
      | .stop w v => v.vstop i w
      | .ok a v => v.velems v.h k (f a) fin

/-- Read a descriptor of n bytes at an alignment, which is checked where R58 checks it (R287). -/
def State.descRead (s : State) (ea : Word) (align n elem : Nat) : Res Nat :=
  if ea.toNat % align = 0 then s.unitBytes ea n elem
  else (s.locate ea align true .read false elem).bind fun _ t => .stop (misaligned ea) t

/-- n bytes at offset o of a block of bytes held as a number. -/
def sub' (v o n : Nat) : Nat := v / 2 ^ (8 * o) % 2 ^ (8 * n)

/-! ### TEX (R292 to R294) -/

/-- A texture and its sampler (R292). -/
structure Tex where
  base : Nat
  w    : Nat
  h    : Nat
  lev  : Nat
  fmt  : Nat
  bw   : Nat
  bh   : Nat
  filt : Nat
  au   : Nat
  av   : Nat
  bias : Nat
  lo   : Nat
  hi   : Nat
  deriving DecidableEq, Repr

/-- The ASTC block size of a code (R292). -/
def astcDim (c : Nat) : Nat := [4, 5, 6, 8, 10, 12].getD c 4

/-- The two descriptors of TEX; none when they break R292. -/
def texOf (v : Nat) : Option Tex :=
  let d1 := sub' v 8 8
  let w := d1 % 2 ^ 14 + 1
  let h := d1 / 2 ^ 16 % 2 ^ 14 + 1
  let lev := d1 / 2 ^ 32 % 16
  let fmt := d1 / 2 ^ 40 % 8
  let cw := d1 / 2 ^ 48 % 8
  let ch := d1 / 2 ^ 52 % 8
  let s0 := sub' v 64 4
  let lo := sub' v 72 4
  let hi := sub' v 76 4
  let ok :=
    sub' v 0 8 % 128 == 0 && (d1 &&& 0x0077070F3FFF3FFF) == d1 && 1 ≤ lev && lev ≤ 1 + Nat.log2 (max w h) && fmt ≤ 3 &&
    cw ≤ 5 && ch ≤ 5 && sub' v 16 48 == 0 && s0 / 64 == 0 && s0 % 4 ≤ 2 && s0 / 4 % 4 ≤ 2 && s0 / 16 % 4 ≤ 2 &&
    finite32 (sub' v 68 4) && finite32 lo && finite32 hi && le32 lo hi && sub' v 80 16 == 0
  if ok then
    some { base := sub' v 0 8, w := w, h := h, lev := lev, fmt := fmt, bw := astcDim cw, bh := astcDim ch,
           filt := s0 % 4, au := s0 / 4 % 4, av := s0 / 16 % 4, bias := sub' v 68 4, lo := lo, hi := hi }
  else none

/-- The width and height of level d. -/
def Tex.dims (t : Tex) (d : Nat) : Nat × Nat := (max 1 (t.w / 2 ^ d), max 1 (t.h / 2 ^ d))

/-- The bytes of a texel, of a block for ASTC. -/
def Tex.unit (t : Tex) : Nat := [4, 8, 4, 16].getD t.fmt 4

/-- The pitch and the rows of level d (R292). -/
def Tex.level (t : Tex) (d : Nat) : Nat × Nat :=
  let z := t.dims d
  let n := if t.fmt = 3 then ((z.1 + t.bw - 1) / t.bw, (z.2 + t.bh - 1) / t.bh) else z
  ((n.1 * t.unit + 127) / 128 * 128, n.2)

/-- The address of level d. -/
def Tex.start (t : Tex) (d : Nat) : Nat := (List.range d).foldl (fun a j => let l := t.level j; a + l.1 * l.2) t.base

/-- An 8-bit channel as binary32: n ÷ 255, rounded (R294). -/
def unorm8 (n : Nat) : Nat := div32 (ofInt32 n) (ofInt32 255)

/-- The channels of a texel from its bytes (R294); a NaN is delivered as the canonical one (R188). -/
def texChannels (t : Tex) (v x y : Nat) : List Nat :=
  match t.fmt with
  | 0 => (List.range 4).map fun c => unorm8 (sub' v c 1)
  | 1 => (List.range 4).map fun c => (floatToFloat .rne fmt32 (fmt16.decode (sub' v (2 * c) 2))).bits
  | 2 => [if nan32 v then nanOf32 else v, 0, 0, one32]
  | _ => (astcTexel t.bw t.bh v x y).map unorm8

/-- Read texel (i, j) of level d. -/
def State.texel (s : State) (t : Tex) (d i j elem : Nat) : Res (List Nat) :=
  let l := t.level d
  let at' : Nat := if t.fmt = 3 then j / t.bh * l.1 + i / t.bw * 16 else j * l.1 + i * t.unit
  (s.unitBytes (w64 (t.start d + at')) t.unit elem).bind fun v u => .ok (texChannels t v (i % t.bw) (j % t.bh)) u

/-- Address an index under wrap, clamp or mirror (R293). -/
def texAddr (mode n : Nat) (i : Int) : Nat :=
  let i := max (-(2 ^ 31 : Int)) (min i (2 ^ 31 - 1))
  match mode with
  | 0 => (i % n).toNat
  | 1 => (max 0 (min i (n - 1 : Nat))).toNat
  | _ =>
    let m := (i % (2 * n : Nat)).toNat
    if m < n then m else 2 * n - 1 - m

/-- A fraction in 256ths: floor(x × 256) of a binary32 x (R293). -/
def frac256 (x : Nat) : Nat := (floor32 (mul32 x (ofInt32 256))).toNat

/-- k ÷ 2^b as an exact value. -/
def dyadic (k b : Nat) : FV := .num ⟨false, k, -(b : Int), false⟩

/-- w × t + c for an exact weight, rounded once; without c the product is rounded. -/
def weigh (w : FV) (t : Nat) (c : Option Nat) : Nat :=
  let p := (w.mul (fmt32.decode t)).1
  let r := match c with
    | some c => (p.add .rne (fmt32.decode c)).1
    | none => p
  (fmt32.deliver .rne r 0).bits

/-- The lower index of a bilinear axis and its fraction in 256ths (R293): a coordinate that is not finite gives index 0
twice and a free fraction. -/
def bilinAxis (u n free : Nat) : Int × Int × Nat :=
  let x := sub32 (mul32 u (ofInt32 n)) 0x3F000000
  if finite32 x then
    let i := floor32 x
    (i, i + 1, frac256 (sub32 x (ofInt32 i)))
  else (0, 0, free % 256)

/-- Sample one level bilinearly (R293). -/
def State.bilinear (s : State) (t : Tex) (d u v elem : Nat) : Res (List Nat) :=
  let z := t.dims d
  let a := bilinAxis u z.1 (Config.texWeight s.h.draw (2 * elem))
  let b := bilinAxis v z.2 (Config.texWeight s.h.draw (2 * elem + 1))
  let i0 := texAddr t.au z.1 a.1
  let i1 := texAddr t.au z.1 a.2.1
  let j0 := texAddr t.av z.2 b.1
  let j1 := texAddr t.av z.2 b.2.1
  let x := a.2.2
  let y := b.2.2
  (s.texel t d i0 j0 elem).bind fun t00 s => (s.texel t d i1 j0 elem).bind fun t10 s =>
    (s.texel t d i0 j1 elem).bind fun t01 s => (s.texel t d i1 j1 elem).bind fun t11 s =>
      .ok ((List.range 4).map fun c =>
        let p := weigh (dyadic ((256 - x) * (256 - y)) 16) (t00.getD c 0) none
        let p := weigh (dyadic (x * (256 - y)) 16) (t10.getD c 0) (some p)
        let p := weigh (dyadic ((256 - x) * y) 16) (t01.getD c 0) (some p)
        weigh (dyadic (x * y) 16) (t11.getD c 0) (some p)) s

/-- Sample one level at its nearest texel (R293). -/
def State.nearest (s : State) (t : Tex) (d u v elem : Nat) : Res (List Nat) :=
  let z := t.dims d
  let i := texAddr t.au z.1 (floor32 (mul32 u (ofInt32 z.1)))
  let j := texAddr t.av z.2 (floor32 (mul32 v (ofInt32 z.2)))
  s.texel t d i j elem

/-- |x| of a binary32 pattern. -/
def abs32 (p : Nat) : Nat := p % 2 ^ 31

/-- The level of detail (R293) from the four gradients; max is that of R228 (assumption 32). -/
def texLod (t : Tex) (ux vx uy vy : Nat) : Nat :=
  let w := ofInt32 t.w
  let h := ofInt32 t.h
  let rho := max32 (max32 (mul32 (abs32 ux) w) (mul32 (abs32 vx) h)) (max32 (mul32 (abs32 uy) w) (mul32 (abs32 vy) h))
  let l := if nan32 rho then t.lo else min32 (max32 (add32 (fmt32.log2 rho).bits t.bias) t.lo) t.hi
  min32 (max32 l 0) (ofInt32 (t.lev - 1 : Nat))

/-- Sample a texture (R293). -/
def State.sampleTex (s : State) (t : Tex) (u v lod elem : Nat) : Res (List Nat) :=
  if t.filt = 2 then
    let d0 := (floor32 lod).toNat
    let d1 := min (d0 + 1) (t.lev - 1)
    let f := frac256 (sub32 lod (ofInt32 d0))
    (s.bilinear t d0 u v elem).bind fun c0 s => (s.bilinear t d1 u v elem).bind fun c1 s =>
      .ok ((List.range 4).map fun c =>
        weigh (dyadic f 8) (c1.getD c 0) (some (weigh (dyadic (256 - f) 8) (c0.getD c 0) none))) s
  else
    let d := (floor32 (add32 lod 0x3F000000)).toNat
    if t.filt = 1 then s.bilinear t d u v elem else s.nearest t d u v elem

/-- The x gradient of a coordinate field at element i (R292): by position, whatever the masks hold. -/
def Hart.gradX (h : Hart) (a f i : Nat) : Nat :=
  if i + 1 < h.vl then sub32 (h.fld a f (i + 1)) (h.fld a f i)
  else if 1 ≤ i then sub32 (h.fld a f i) (h.fld a f (i - 1))
  else 0

/-- One element of TEX. -/
def State.texElem (s : State) (d a : Nat) (t : Option Tex) (i : Nat) : Res Unit :=
  match t with
  | none => .ok () { s with h := s.h.putFs d 0 i [0, 0, 0, 0] }
  | some t =>
    let h := s.h
    let lod := texLod t (h.gradX a 0 i) (h.gradX a 1 i) (h.fld a 2 i) (h.fld a 3 i)
    (s.sampleTex t (h.fld a 0 i) (h.fld a 1 i) lod i).bind fun c s => .ok () { s with h := s.h.putFs d 0 i c }

/-- TEX (R292 to R294). -/
def execTex (d a b : Fin 32) (_x : Bool) (k : Fin 8) (s : State) : Out :=
  let ea := s.h.xb b
  s.vunit (s.h.runUse (s.h.ew == 6) (some ⟨d, 4, false⟩) [⟨a, 4, false⟩] k) k
    (fun i s => (s.descRead ea 64 96 i).bind fun v s => .ok (texOf v) s.drawn)
    (fun t i s => s.texElem d a t i) id

/-! ### Span records and the Hem's intents (R288, R315, R320) -/

/-- The record that the hart's latest SPAN returned. -/
def Hart.lastSpan (h : Hart) : Option Span := (h.spans.filter fun p => p.taken).getLast?

/-- The record of the hart's latest SPAN, if it is not resolved. -/
def Hart.latest (h : Hart) : Option Span := h.lastSpan.filter fun p => !p.solved

/-- The address of a span record. -/
def Span.addr (p : Span) : Word := w64 (localBase + p.off)

/-- Mark the record at an offset resolved (R291). -/
def Hart.solve (h : Hart) (off : Nat) : Hart :=
  { h with spans := h.spans.map fun p => if p.off = off ∧ p.taken then { p with solved := true } else p }

/-- A fragment or a discard reaches the Hem, for an intent that is empty (R320). -/
def State.push (s : State) (launch px py order : Nat) (f : Frag) : State :=
  { s with gfx := { s.gfx with intents := s.gfx.intents.map fun i =>
      if i.launch = launch ∧ i.px = px ∧ i.py = py ∧ i.order = order ∧ i.frag = .empty then { i with frag := f } else i } }

/-- The launch number of the hart on turn. -/
def Hart.launchNum (h : Hart) : Nat := h.lc.launch.getD 0

/-- Push what f gives for each pixel of a span (R291). -/
def State.pushAll (s : State) (p : Span) (f : Nat → Frag) : State :=
  (List.range p.len).foldl
    (fun t i => t.push s.h.launchNum (64 * p.tx + p.x0 + i) (64 * p.ty + p.y) p.order (f i)) s

/-- Push what f gives for each pixel of a span and mark its record resolved (R291). -/
def State.pushSpan (s : State) (p : Span) (f : Nat → Frag) : State :=
  let t := s.pushAll p f
  { t with h := t.h.solve p.off }

/-- Resolve the hart's latest record, if unresolved, with discards (R315). -/
def State.resolveLatest (s : State) : State :=
  match s.h.latest with
  | some p => s.pushSpan p fun _ => .discard
  | none => s

/-! ### SPAN (R289) -/

/-- The draw of a launch. -/
def State.draw? (s : State) (l : Nat) : Option Draw := s.gfx.draws.find? fun d => d.launch == l

/-- Whether the draw is drained for a pixel hart (R315). -/
def State.drained (s : State) (h : Hart) : Bool :=
  match s.draw? h.launchNum with
  | none => true
  | some d =>
    d.nextTri == d.ntri && (List.range d.nextMesh).all d.doneM.contains &&
    !(s.gfx.input.any fun p => p.launch == d.launch) && !(s.gfx.emits.any fun e => e.launch == d.launch) &&
    h.spans.all fun p => p.taken

/-- Write a block of the scratchpad. -/
def Hart.putScratch (h : Hart) (off n v : Nat) : Hart :=
  { (h.cleanPool 1 off n) with scratch := h.scratch.write off n v }

/-- Write a span record's words into its entry of the ring (R288). -/
def Hart.putSpan (h : Hart) (off : Nat) (ws : List Nat) : Hart :=
  ws.zipIdx.foldl (fun h w => h.putScratch (off + 4 * w.2) 4 w.1) h

/-- Records that waited for the hart's latest record to end are placed in their entries (R288, R315). -/
def Hart.placeSpans (h : Hart) : Hart :=
  let g := h.spans.foldl (fun (g : Hart) (p : Span) => g.putSpan p.off p.pend) h
  { g with spans := g.spans.map fun (p : Span) => { p with pend := [] } }

/-- Close the strip, open the next with vl = g, take the record at offset `p` of the ring, and write its address to x d
(R289). While the closed strip's record waits, SPAN waits and has taken no span. -/
def State.spanDone (s : State) (d : Fin 32) (g : Nat) (p : Option Span) : State :=
  match s.nextStrip g with
  | .stop w t => t.stopWith w
  | .ok _ t =>
    let h := match p with
      | some p =>
        let h := { t.h with spans := t.h.spans.filter fun (q : Span) => !q.solved }.placeSpans
        { h with spans := h.spans.map fun (q : Span) => if q.off = p.off then { q with taken := true } else q }
      | none => t.h
    ({ t with h := h.set d ((p.map Span.addr).getD 0) }).vdone.boundary

/-- SPAN (R289, R315): legal where VLMAX is at least 64 (R285). -/
def execSpan (d : Fin 32) (s : State) : Out :=
  if !(s.h.vectorOk && 64 ≤ s.h.vlmax s.h.ew s.h.grp) then .next s.illegal
  else
    let s := s.resolveLatest
    if s.h.lc.kind ≠ 2 ∨ s.h.lc.launch = none then .next (s.spanDone d 0 none)
    else
      match s.h.spans.find? fun p => !p.taken with
      | some p => .next (s.spanDone d p.len (some p))
      | none => if s.drained s.h then .next (s.spanDone d 0 none) else .next (s.stopWith (.wait .span))

/-! ### HIZQ and BLEND (R290, R291) -/

/-- pipeline-contract with tval = x b (R291). -/
def contract (ea : Word) : Stop := .trap (.sync 6 ea)

/-- The record that x b names: the latest SPAN's, unresolved (R291). -/
def Hart.spanAt (h : Hart) (ea : Word) : Option Span :=
  match h.latest with
  | some p => if p.addr = ea then some p else none
  | none => none

/-- The value of a plane at column xc and row yc of the tile (R288): A × xc + (B × yc + C), each step fused. -/
def planeAt (a b c x y : Nat) : Nat :=
  let xc := (fmt32.round .rne ⟨false, 2 * x + 1, -1, false⟩).bits
  let yc := (fmt32.round .rne ⟨false, 2 * y + 1, -1, false⟩).bits
  fma32 a xc (fma32 b yc c)

/-- A span record as it stands in the scratchpad (R288): where it places the span, and its depth plane. -/
structure SpanRec where
  span : Span
  zA   : Nat
  zB   : Nat
  zC   : Nat
  deriving DecidableEq, Repr

/-- Read the record at an entry of the hart's ring (R287, R288): uncorrectable-data at the first uncorrectable word. -/
def State.readSpan (s : State) (p : Span) : Res SpanRec :=
  let bad (i : Nat) : Bool := s.h.badPool.contains (1, p.off / 8 + i)
  match (List.range 6).find? bad with
  | some i => .stop (.trap (uncorrectable (p.addr + w64 (8 * i)))) s
  | none =>
    let w (o n : Nat) : Nat := s.h.scratch.read (p.off + o) n
    .ok { span := { p with tx := w 0 2, ty := w 2 2, order := w 4 4, y := w 8 1, x0 := w 9 1, len := w 0xA 1 }
          zA := w 0xC 4, zB := w 0x10 4, zC := w 0x14 4 } (s.readPool 1 p.off 48)

/-- The value of the depth plane of a record at element i (R288). -/
def SpanRec.depthAt (q : SpanRec) (i : Nat) : Nat := planeAt q.zA q.zB q.zC (q.span.x0 + i) q.span.y

/-- The recorded hierarchical depth of block b of a tile; +∞ where nothing is recorded (R316). -/
def State.hizAt (s : State) (launch tx ty b : Nat) : Nat :=
  match s.gfx.hiz.find? (fun k => k.launch == launch && k.tx == tx && k.ty == ty && k.b == b) with
  | some k => k.h
  | none => inf32

/-- The hierarchical depth that element i of a span meets (R290). -/
def State.hizFor (s : State) (p : Span) (i : Nat) : Nat :=
  let x := p.x0 + i
  if x < 64 ∧ p.y < 64 then s.hizAt s.h.launchNum p.tx p.ty (8 * (p.y / 8) + x / 8) else Config.hizBeyond s.h.draw i

/-- HIZQ (R290). A stop gives back what it has consumed. R290 and R291 name no element for its pipeline-contract trap: vstart
stays what it was (DESIGN CHOICE, assumption 84). HIZQ stands in the chain window while it waits and takes no element out of
order (R302). -/
def execHizq (d : Fin 8) (a b : Fin 32) (_x : Bool) (k : Fin 8) (s : State) : Out :=
  let ea := s.h.xb b
  let u : VUse := { ok := s.h.ew == 6 && d != 0 && s.h.srcsOk [a.val], srcs := [a.val], reads := [(a.val, s.h.eb)],
                    masks := [k.val], act := some k }
  s.vbegin u fun t =>
    match t.h.elems k with
    | [] => t.vend id
    | e :: _ =>
      if ea = 0 then t.vend id
      else
        match t.h.spanAt ea with
        | none => (t.giveBack s.h t.h.first).vstop t.h.first (contract ea)
        | some p =>
          match t.readSpan p with
          | .stop w v => (v.giveBack s.h e).vstop e w
          | .ok q v =>
            let h := v.h
            let bits := (h.elems k).map fun i => (i, lt32 (h.velem a i) (v.hizFor q.span i))
            { v with h := { h.writeK d bits with draws := h.draws + 1 } }.vend id

/-- Raise the blocks that early updates of a primitive lowered back to +∞ (R317). What lowered a block stays known, so
that a contract trap of another such primitive raises it too. -/
def State.resetHiz (s : State) (launch order : Nat) : State :=
  { s with gfx := { s.gfx with hiz := s.gfx.hiz.map fun k =>
      if k.launch = launch ∧ k.early.contains order then { k with h := inf32 } else k } }

/-- pipeline-contract in BLEND: the blocks that the span's primitive lowered are reset, where x b names the latest SPAN's
record, resolved or not (R291, R317). -/
def State.blendContract (s : State) (ea : Word) : State :=
  let t := match s.h.lastSpan with
    | some p => if p.addr = ea then s.resetHiz s.h.launchNum p.order else s
    | none => s
  t.vstop 0 (contract ea)

/-- Whether an early-final kernel hands over every pixel at its plane depth (R291). -/
def Hart.earlyOk (h : Hart) (q : SpanRec) (d : Nat) (k : Fin 8) : Bool :=
  (List.range q.span.len).all fun i => h.active k i && h.velem d i == q.depthAt i

/-- What BLEND uses: it reads its vd field, which is a run as a destination is (R284, R285), and ignores vstart (R286). -/
def Hart.blendUse (h : Hart) (d a : Fin 32) (k : Fin 8) : VUse :=
  let u := h.runUse (h.ew == 6) (some ⟨d, 1, false⟩) [⟨a, 4, false⟩] k
  { u with reads := (d.val, 4) :: u.reads, whole := true }

/-- BLEND (R291). The fragments stand where the record in the scratchpad says; whatever of the span's intents they do not
reach is resolved as a discard. -/
def execBlend (d a b : Fin 32) (_x : Bool) (k : Fin 8) (s : State) : Out :=
  let ea := s.h.xb b
  s.vbegin (s.h.blendUse d a k) fun t =>
    if ea = 0 then t.vdone
    else
      match t.h.spanAt ea with
      | none => t.blendContract ea
      | some p =>
        match t.readSpan p with
        | .stop w v => v.vstop 0 w
        | .ok q v =>
          let h := v.h
          if h.lc.early && !h.earlyOk q d k then v.blendContract ea
          else
            let v := v.pushAll q.span fun i =>
              if h.active k i then .full (h.fld a 0 i) (h.fld a 1 i) (h.fld a 2 i) (h.fld a 3 i) (h.velem d i)
              else .discard
            (v.pushSpan p fun _ => .discard).vdone

end Sys2Proof.Machine
end

