-- ==== Sys2Proof/Machine/Msg.lean ====
section
/-! DEFINITION. The MSG class: the inbox (R369 to R371) and the watermark instructions (R383, R384). -/

namespace Sys2Proof.Machine

/-- A message of R369: tag, kind, status and count. -/
def message (tag : BitVec 32) (kind status count : Nat) : Word × Word :=
  (w64 (tag.toNat + kind * 2 ^ 32 + status * 2 ^ 40), w64 count)

/-- Post a message into the entry that the operation with this tag and kind reserved (R369). -/
def Inbox.post (b : Inbox) (tag : BitVec 32) (kind status count : Nat) : Inbox :=
  { posted := b.posted ++ [message tag kind status count], resv := b.resv.erase (tag, kind) }

/-- Whether an operation can reserve an entry (R369). -/
def Inbox.hasRoom (b : Inbox) : Bool := b.posted.length + b.resv.length < 32

/-- Reserve an entry (R369). -/
def Inbox.reserve (b : Inbox) (tag : BitVec 32) (kind : Nat) : Inbox := { b with resv := b.resv ++ [(tag, kind)] }

/-- Dequeue the oldest posted message into x d and x b (R370). -/
def State.pop (s : State) (d b : Fin 32) (m : Word × Word) (rest : List (Word × Word)) : State :=
  let s := { s with h := { s.h with inbox := { s.h.inbox with posted := rest } } }
  ((s.wr d m.1).wr b m.2).finish

/-- IPOP (R370): with nothing posted it waits while an entry is reserved, and else writes zeros. -/
def execIpop (d b : Fin 32) (s : State) : Out :=
  match s.h.inbox.posted with
  | m :: rest => .next (s.pop d b m rest)
  | [] => if s.h.inbox.resv.isEmpty then .next ((s.wr d 0).wr b 0).finish else .next (s.stopWith (.wait .ipop))

/-- IPOPNB (R370): with nothing posted it writes zeros. -/
def execIpopnb (d b : Fin 32) (s : State) : Out :=
  match s.h.inbox.posted with
  | m :: rest => .next (s.pop d b m rest)
  | [] => .next ((s.wr d 0).wr b 0).finish

/-- The ASID under which the hart acts. -/
def Hart.asid (h : Hart) : Nat := sptAsid h.sptbase

/-- Whether watermark n is bound by another ASID (R383). -/
def State.wmForeign (s : State) (n : Nat) : Bool :=
  match s.wm? n with
  | some w => w.owner != s.h.asid
  | none => false

/-- Read 8 bytes of a record for a MSG instruction, with the traps of a load (R383; assumption 25). -/
def State.recordWord (s : State) (ea : Word) : Res Nat := s.scalarLoad ea 8 .thru

/-- WMBIND (R383): in S mode x b = 0 releases ownership; otherwise the checks in its order. -/
def execWmbind (a b : Fin 32) (s : State) : Out :=
  let n := (s.x a).toNat
  let rec' := s.x b
  if s.h.mode = .s ∧ rec' = 0 then
    .next { s with sched := { s.sched with wms := s.sched.wms.filter fun w => w.num != n } }.finish
  else if 4096 ≤ n ∨ s.wmForeign n then s.trap (pagePermission (s.x a))
  else if rec'.toNat % 8 ≠ 0 then s.trap (.sync 1 rec')
  else
    let r := (s.recordWord rec').bind fun base t =>
      (t.recordWord (rec' + 8)).bind fun limit u =>
        if limit < base then .stop (.trap (pagePermission (s.x a))) u else .ok (base, limit) u
    r.done fun bl t => (t.setWm { num := n, base := bl.1, limit := bl.2, value := 0, owner := t.h.asid }).finish

/-- Whether the hart may publish on or read watermark n (R384). -/
def State.wmMine (s : State) (n : Nat) : Bool :=
  decide (n < 4096) &&
  match s.wm? n with
  | some w => w.owner == s.h.asid
  | none => false

/-- WMPUB (R384): a release at device scope, ahead of which every read of the hart is performed (R104), then the publish. -/
def execWmpub (a b : Fin 32) (s : State) : Out :=
  let n := (s.x a).toNat
  if s.wmMine n then { s with h := s.h.pinOps }.releaseRes.done fun _ t => (t.publish n (t.x b).toNat).finish
  else s.trap (pagePermission (s.x a))

/-- WMREAD (R384). -/
def execWmread (d a : Fin 32) (s : State) : Out :=
  let n := (s.x a).toNat
  if s.wmMine n then .next (s.finishWr d (match s.wm? n with | some w => w64 w.value | none => 0))
  else s.trap (pagePermission (s.x a))

end Sys2Proof.Machine
end

