-- ==== Sys2Proof/Machine/VFloat.lean ====
section
/-! DEFINITION. VF and VFX (R224 to R230): floating-point arithmetic on elements. -/

namespace Sys2Proof.Machine

/-- The format of the vcfg type; binary32 stands in for an integer type, under which VF words are illegal (R224). -/
def Hart.fmt (h : Hart) : FFmt := (codeFmt h.ew).getD fmt32

/-- The counter of an SRD draw (R195). -/
def Hart.srdCounter (h : Hart) (i : Nat) : Word := h.stripord * 2 ^ 32 + w64 (field h.pc 2 16 * 2 ^ 16) + w64 i

/-- The rounding of element i under vrnd, with its SRD draw (R193, R195). -/
def Hart.rnd (h : Hart) (i : Nat) : Rnd :=
  let mode := field h.vec.vrnd 0 3
  ⟨mode, if mode = 5 then drawOf (randomOut h.vec.vsrkey (h.srdCounter i)) else 0⟩

/-- Whether the vcfg type is a floating-point type. -/
def Hart.isFloat (h : Hart) : Bool := 4 ≤ h.ew

/-- A binary member of VF or VFX: format, rounding, a and s (R225). -/
def State.vfloat (s : State) (d a : Fin 32) (b : VB) (k : Fin 8) (f : FFmt → Rnd → Nat → Nat → FR) : Out :=
  s.vmap (s.h.use s.h.isFloat d (a.val :: b.regs) k false) d k fun h i => f h.fmt (h.rnd i) (h.velem a i) (h.bElem b i)

/-- A fused member: vd[i] is read as c (R225). -/
def State.vfused (s : State) (d a : Fin 32) (b : VB) (k : Fin 8) (negP negC : Bool) : Out :=
  s.vmap (s.h.use s.h.isFloat d (a.val :: b.regs) k true) d k fun h i =>
    h.fmt.fma (h.rnd i) negP negC (h.velem a i) (h.bElem b i) (h.velem d i)

/-- A unary member (R226). -/
def State.vfloat1 (s : State) (d a : Fin 32) (k : Fin 8) (f : FFmt → Rnd → Nat → FR) : Out :=
  s.vmap (s.h.use s.h.isFloat d [a.val] k false) d k fun h i => f h.fmt (h.rnd i) (h.velem a i)

/-- VFADD (R226). -/
def execVfadd (d a b : Fin 32) (_x _y : Bool) (k : Fin 8) (s : State) : Out :=
  s.vfloat d a (.vec b) k fun f r p q => f.add r p q

/-- VFSUB (R226). -/
def execVfsub (d a b : Fin 32) (_x _y : Bool) (k : Fin 8) (s : State) : Out :=
  s.vfloat d a (.vec b) k fun f r p q => f.sub r p q

/-- VFMUL (R226). -/
def execVfmul (d a b : Fin 32) (_x _y : Bool) (k : Fin 8) (s : State) : Out :=
  s.vfloat d a (.vec b) k fun f r p q => f.mul r p q

/-- VFDIV (R226). -/
def execVfdiv (d a b : Fin 32) (_x _y : Bool) (k : Fin 8) (s : State) : Out :=
  s.vfloat d a (.vec b) k fun f r p q => f.div r p q

/-- VFMIN (R228). -/
def execVfmin (d a b : Fin 32) (_x _y : Bool) (k : Fin 8) (s : State) : Out :=
  s.vfloat d a (.vec b) k fun f _ p q => f.minmax false p q

/-- VFMAX (R228). -/
def execVfmax (d a b : Fin 32) (_x _y : Bool) (k : Fin 8) (s : State) : Out :=
  s.vfloat d a (.vec b) k fun f _ p q => f.minmax true p q

/-- VFMADD (R226). -/
def execVfmadd (d a b : Fin 32) (_x _y : Bool) (k : Fin 8) (s : State) : Out :=
  s.vfused d a (.vec b) k false false

/-- VFMSUB (R226). -/
def execVfmsub (d a b : Fin 32) (_x _y : Bool) (k : Fin 8) (s : State) : Out :=
  s.vfused d a (.vec b) k false true

/-- VFNMADD (R226). -/
def execVfnmadd (d a b : Fin 32) (_x _y : Bool) (k : Fin 8) (s : State) : Out :=
  s.vfused d a (.vec b) k true true

/-- VFNMSUB (R226). -/
def execVfnmsub (d a b : Fin 32) (_x _y : Bool) (k : Fin 8) (s : State) : Out :=
  s.vfused d a (.vec b) k true false

/-- VFSGNJ (R229). -/
def execVfsgnj (d a b : Fin 32) (_x _y : Bool) (k : Fin 8) (s : State) : Out :=
  s.vfloat d a (.vec b) k fun f _ p q => f.withSign (f.sign q) p

/-- VFSGNJN (R229). -/
def execVfsgnjn (d a b : Fin 32) (_x _y : Bool) (k : Fin 8) (s : State) : Out :=
  s.vfloat d a (.vec b) k fun f _ p q => f.withSign (!f.sign q) p

/-- VFSQRT (R226). -/
def execVfsqrt (d a : Fin 32) (_x : Bool) (k : Fin 8) (s : State) : Out := s.vfloat1 d a k fun f r p => f.sqrt r p

/-- VFRCP (R196). -/
def execVfrcp (d a : Fin 32) (_x : Bool) (k : Fin 8) (s : State) : Out := s.vfloat1 d a k fun f _ p => f.rcp p

/-- VFRSQ (R196). -/
def execVfrsq (d a : Fin 32) (_x : Bool) (k : Fin 8) (s : State) : Out := s.vfloat1 d a k fun f _ p => f.rsq p

/-- VFEXP2 (R196). -/
def execVfexp2 (d a : Fin 32) (_x : Bool) (k : Fin 8) (s : State) : Out := s.vfloat1 d a k fun f _ p => f.exp2 p

/-- VFLOG2 (R196). -/
def execVflog2 (d a : Fin 32) (_x : Bool) (k : Fin 8) (s : State) : Out := s.vfloat1 d a k fun f _ p => f.log2 p

/-- VFSIN (R196). -/
def execVfsin (d a : Fin 32) (_x : Bool) (k : Fin 8) (s : State) : Out := s.vfloat1 d a k fun f _ p => f.sin p

/-- VFCOS (R196). -/
def execVfcos (d a : Fin 32) (_x : Bool) (k : Fin 8) (s : State) : Out := s.vfloat1 d a k fun f _ p => f.cos p

/-- VFABS (R229). -/
def execVfabs (d a : Fin 32) (_x : Bool) (k : Fin 8) (s : State) : Out := s.vfloat1 d a k fun f _ p => f.withSign false p

/-- VFNEG (R229). -/
def execVfneg (d a : Fin 32) (_x : Bool) (k : Fin 8) (s : State) : Out := s.vfloat1 d a k fun f _ p => f.withSign (!f.sign p) p

/-- VFCLASS (R229). -/
def execVfclass (d a : Fin 32) (_x : Bool) (k : Fin 8) (s : State) : Out := s.vfloat1 d a k fun f _ p => f.classify p

/-- VFADD (R226), .X form. -/
def execVfaddX (d a b : Fin 32) (_x : Bool) (k : Fin 8) (s : State) : Out :=
  s.vfloat d a (.sca (s.h.xb b)) k fun f r p q => f.add r p q

/-- VFSUB (R226), .X form. -/
def execVfsubX (d a b : Fin 32) (_x : Bool) (k : Fin 8) (s : State) : Out :=
  s.vfloat d a (.sca (s.h.xb b)) k fun f r p q => f.sub r p q

/-- VFMUL (R226), .X form. -/
def execVfmulX (d a b : Fin 32) (_x : Bool) (k : Fin 8) (s : State) : Out :=
  s.vfloat d a (.sca (s.h.xb b)) k fun f r p q => f.mul r p q

/-- VFDIV (R226), .X form. -/
def execVfdivX (d a b : Fin 32) (_x : Bool) (k : Fin 8) (s : State) : Out :=
  s.vfloat d a (.sca (s.h.xb b)) k fun f r p q => f.div r p q

/-- VFMIN (R228), .X form. -/
def execVfminX (d a b : Fin 32) (_x : Bool) (k : Fin 8) (s : State) : Out :=
  s.vfloat d a (.sca (s.h.xb b)) k fun f _ p q => f.minmax false p q

/-- VFMAX (R228), .X form. -/
def execVfmaxX (d a b : Fin 32) (_x : Bool) (k : Fin 8) (s : State) : Out :=
  s.vfloat d a (.sca (s.h.xb b)) k fun f _ p q => f.minmax true p q

/-- VFMADD.X (R226). -/
def execVfmaddX (d a b : Fin 32) (_x : Bool) (k : Fin 8) (s : State) : Out :=
  s.vfused d a (.sca (s.h.xb b)) k false false

/-- VFMSUB.X (R226). -/
def execVfmsubX (d a b : Fin 32) (_x : Bool) (k : Fin 8) (s : State) : Out :=
  s.vfused d a (.sca (s.h.xb b)) k false true

/-- VFNMADD.X (R226). -/
def execVfnmaddX (d a b : Fin 32) (_x : Bool) (k : Fin 8) (s : State) : Out :=
  s.vfused d a (.sca (s.h.xb b)) k true true

/-- VFNMSUB.X (R226). -/
def execVfnmsubX (d a b : Fin 32) (_x : Bool) (k : Fin 8) (s : State) : Out :=
  s.vfused d a (.sca (s.h.xb b)) k true false

/-- VFSGNJ.X (R229). -/
def execVfsgnjX (d a b : Fin 32) (_x : Bool) (k : Fin 8) (s : State) : Out :=
  s.vfloat d a (.sca (s.h.xb b)) k fun f _ p q => f.withSign (f.sign q) p

/-- VFSGNJN.X (R229). -/
def execVfsgnjnX (d a b : Fin 32) (_x : Bool) (k : Fin 8) (s : State) : Out :=
  s.vfloat d a (.sca (s.h.xb b)) k fun f _ p q => f.withSign (!f.sign q) p

/-! ### VCVT (R231 to R234) -/

/-- The type under which a VCVT destination is written (R233). -/
def cvtEw (t : Nat) : Nat :=
  match t with
  | 8 | 9 | 10 => 0
  | 11 => 1
  | 12 => 2
  | 13 => 3
  | c => c

/-- The destination group size of a conversion (R232). -/
def cvtGrp (grp sb db : Nat) : Nat := max 1 (grp * db / sb)

/-- VCVT (R231 to R234). -/
def execVcvt (d a : Fin 32) (_x : Bool) (k : Fin 8) (u : Bool) (t : Fin 16) (s : State) : Out :=
  let h := s.h
  let gd := cvtGrp h.grp h.eb (codeBytes t)
  let ew := cvtEw t
  let ok := t.val < 14 && !(u && h.isFloat) && gd ≤ 8 &&
    (if gd = h.grp then d == a || !overlap d gd a h.grp else !overlap d gd a h.grp) &&
    h.srcsOk [a.val] && (h.destsOk d ew gd) &&
    (gd ≤ h.grp || (h.runFree d gd && (h.vcpy == 0 || h.runFree h.vcpy gd)))
  let use : VUse := { ok := ok, srcs := [a.val], reads := [(a.val, h.eb)], masks := [k.val], act := some k,
                      dsts := h.dests d }
  s.vbegin use fun t' =>
    let h := t'.h
    let rs := (h.elems k).map fun i => (i, convert (h.rnd i) h.ew u t (h.velem a i))
    let flags := rs.foldl (fun n r => n ||| r.2.flags) 0
    let h := h.putAll d ew (lgrpOf gd) (rs.map fun r => (r.1, r.2.bits))
    let h := { h with vec := { h.vec with vflags := h.vec.vflags ||| w64 flags } }
    { t' with h := h }.vend fun t' => t'.appends d ew

/-! ### VCMP (R216, R217) -/

/-- An element-wise comparison: p gives the bit and the flags of element i. -/
def State.vcmp (s : State) (d : Fin 8) (a : Fin 32) (b : VB) (k : Fin 8) (isF : Bool) (p : Hart → Nat → Nat → Bool × Nat) :
    Out :=
  let h := s.h
  let rs := a.val :: b.regs
  let use : VUse :=
    { ok := d != 0 && isF == h.isFloat && h.srcsOk rs, srcs := rs, reads := rs.map fun r => (r, h.eb), masks := [k.val],
      act := some k }
  s.vbegin use fun t =>
    let h := t.h
    let rs := (h.elems k).map fun i => (i, p h (h.velem a i) (h.bElem b i))
    let flags := rs.foldl (fun n r => n ||| r.2.2) 0
    let h := h.writeK d (rs.map fun r => (r.1, r.2.1))
    { t with h := { h with vec := { h.vec with vflags := h.vec.vflags ||| w64 flags } } }.vend id

/-- The second operand of VCMP: a group, or x b with .X (R216). -/
def State.cmpB (s : State) (b : Fin 32) (z : Bool) : VB := if z then .sca (s.h.xb b) else .vec b

/-- An integer predicate (R217). -/
def State.vcmpInt (s : State) (d : Fin 8) (a b : Fin 32) (k : Fin 8) (z : Bool) (p : Nat → Nat → Nat → Bool) : Out :=
  s.vcmp d a (s.cmpB b z) k false fun h p1 p2 => (p h.ewBits p1 p2, 0)

/-- A floating-point predicate: `any` sets NV for every NaN, else for a signalling one (R217). -/
def State.vcmpFlt (s : State) (d : Fin 8) (a b : Fin 32) (k : Fin 8) (z any : Bool) (p : FV → FV → Bool) : Out :=
  s.vcmp d a (s.cmpB b z) k true fun h p1 p2 =>
    let v := h.fmt.decode p1
    let w := h.fmt.decode p2
    (p v w, if any then (if v.isNan || w.isNan then 16 else 0) else nvSig [v, w])

/-- VSEQ (R217). -/
def execVseq (d : Fin 8) (a b : Fin 32) (_x _y : Bool) (k : Fin 8) (z : Bool) (s : State) : Out :=
  s.vcmpInt d a b k z fun _ p q => p == q

/-- VSNE (R217). -/
def execVsne (d : Fin 8) (a b : Fin 32) (_x _y : Bool) (k : Fin 8) (z : Bool) (s : State) : Out :=
  s.vcmpInt d a b k z fun _ p q => p != q

/-- VSLT (R217). -/
def execVslt (d : Fin 8) (a b : Fin 32) (_x _y : Bool) (k : Fin 8) (z : Bool) (s : State) : Out :=
  s.vcmpInt d a b k z fun w p q => signedOf w p < signedOf w q

/-- VSLTU (R217). -/
def execVsltu (d : Fin 8) (a b : Fin 32) (_x _y : Bool) (k : Fin 8) (z : Bool) (s : State) : Out :=
  s.vcmpInt d a b k z fun _ p q => p < q

/-- VSLE (R217). -/
def execVsle (d : Fin 8) (a b : Fin 32) (_x _y : Bool) (k : Fin 8) (z : Bool) (s : State) : Out :=
  s.vcmpInt d a b k z fun w p q => signedOf w p ≤ signedOf w q

/-- VSLEU (R217). -/
def execVsleu (d : Fin 8) (a b : Fin 32) (_x _y : Bool) (k : Fin 8) (z : Bool) (s : State) : Out :=
  s.vcmpInt d a b k z fun _ p q => p ≤ q

/-- VSGT (R217). -/
def execVsgt (d : Fin 8) (a b : Fin 32) (_x _y : Bool) (k : Fin 8) (z : Bool) (s : State) : Out :=
  s.vcmpInt d a b k z fun w p q => signedOf w q < signedOf w p

/-- VSGTU (R217). -/
def execVsgtu (d : Fin 8) (a b : Fin 32) (_x _y : Bool) (k : Fin 8) (z : Bool) (s : State) : Out :=
  s.vcmpInt d a b k z fun _ p q => q < p

/-- VFEQ (R217). -/
def execVfeq (d : Fin 8) (a b : Fin 32) (_x _y : Bool) (k : Fin 8) (z : Bool) (s : State) : Out :=
  s.vcmpFlt d a b k z false fun v w => v.eq w

/-- VFNE (R217). -/
def execVfne (d : Fin 8) (a b : Fin 32) (_x _y : Bool) (k : Fin 8) (z : Bool) (s : State) : Out :=
  s.vcmpFlt d a b k z false fun v w => !v.eq w

/-- VFLT (R217). -/
def execVflt (d : Fin 8) (a b : Fin 32) (_x _y : Bool) (k : Fin 8) (z : Bool) (s : State) : Out :=
  s.vcmpFlt d a b k z true fun v w => v.lt w

/-- VFLE (R217). -/
def execVfle (d : Fin 8) (a b : Fin 32) (_x _y : Bool) (k : Fin 8) (z : Bool) (s : State) : Out :=
  s.vcmpFlt d a b k z true fun v w => v.lt w || v.eq w

/-- VFUNORD (R217). -/
def execVfunord (d : Fin 8) (a b : Fin 32) (_x _y : Bool) (k : Fin 8) (z : Bool) (s : State) : Out :=
  s.vcmpFlt d a b k z false fun v w => v.isNan || w.isNan

end Sys2Proof.Machine
end

