-- ==== Sys2Proof/Machine/Yoke.lean ====
section
/-! DEFINITION. The Yoke (R349 to R367, R446): grants, the latch pair and its rendezvous, the YOKE class, the sum of
R197, and the steps by which handed-over operations complete. -/

namespace Sys2Proof.Machine

/-! ### Yokes -/

/-- A latch of zeros. Code 31 (reserved in R191) says that no operation has given it a format; it reads as zeros
under every format (R359). -/
def Latch.zero : Latch := { data := [], scales := [], bad := [], fmt := 31 }

/-- A Yoke that nothing has used. -/
def Yoke.init (quad : Nat) : Yoke :=
  { quad := quad, broken := false, grants := [], cur := .zero, spare := .zero, fill := none, epoch := 0, rvs := [],
    sent := false, recv := none, lastCtx := 0 }

/-- The Yoke of a quad. -/
def State.yoke (s : State) (quad : Nat) : Yoke := (s.yokes.find? fun y => y.quad == quad).getD (Yoke.init quad)

/-- Replace the Yoke of a quad. -/
def State.setYoke (s : State) (y : Yoke) : State := { s with yokes := y :: s.yokes.filter fun z => z.quad != y.quad }

/-- The kind of a handed-over operation: fn[3:0] of its word (R349). -/
def YokeOp.kind (o : YokeOp) : Nat := field o.word 0 4

/-- Whether an operation is a latch operation: YLDB or YROT (R355). -/
def YokeOp.latch (o : YokeOp) : Bool := o.kind == 3 || o.kind == 5

/-- The n-byte field of an operation's descriptor (R358, R360). -/
def YokeOp.desc (o : YokeOp) (off n : Nat) : Nat := natOfBytes ((o.head.drop off).take n)

/-- The accumulator rows that an operation writes: first and count (R360, R364). -/
def YokeOp.rows (o : YokeOp) : Nat × Nat :=
  if o.kind = 2 then (field o.xa 0 13, field o.xa 16 13 + 1)
  else if o.kind = 4 then (field o.xb 32 13, o.desc 1 1 + 1)
  else (0, 0)

/-- Whether an operation writes one of n rows from r. -/
def YokeOp.touches (o : YokeOp) (r n : Nat) : Bool := overlap o.rows.1 o.rows.2 r n

/-- The context of the hart on turn for its Yoke. -/
def Yoke.ctx (y : Yoke) : Option Nat := y.grants.head?.map fun g => g.2.1

/-! ### Reporting failures and waiting (R446, R366) -/

/-- The trap of a held failure. -/
def YokeFail.trap (f : YokeFail) : TrapInfo := { intr := false, code := f.code, orig := f.orig, viol := false, tval := f.tval }

/-- The first held failure among operations that satisfy p, and the operations once it is reported: completed, or
for a stream fault handed over still (R446). -/
def takeFail (p : YokeOp → Bool) : List YokeOp → Option (YokeFail × List YokeOp)
  | [] => none
  | o :: os =>
    match o.fail, p o with
    | some f, true => some (f, if f.code = 4 then { o with fail := none } :: os else os)
    | _, _ => (takeFail p os).map fun r => (r.1, o :: r.2)

/-- Wait for the operations that satisfy p: a held failure traps, an open operation makes the hart wait (R446). -/
def State.yokeWait (s : State) (p : YokeOp → Bool) : Res Unit :=
  match takeFail p s.h.yops with
  | some (f, os) => .stop (.trap f.trap) { s with h := { s.h with yops := os } }
  | none => if s.h.yops.any (fun o => p o && o.isOpen) then .stop (.wait .yoke) s else .ok () s

/-- A Yoke instruction without a place in the window: legality, then its part (R350). -/
def State.yokeOp (s : State) (ok : Bool) (body : State → State) : Out :=
  if s.h.vectorOk && ok then .next (body s) else .next s.illegal

/-! ### Grants (R353, R354) -/

/-- Release the grant of the hart on turn (R354). -/
def State.ungrant (s : State) : State :=
  let t := s.setYoke ((s.yoke s.h.quad).release s.h.id)
  { t with h := { t.h with ygrant := 0, yjoin := 0, ybase := 0 } }

/-- The grant for a request of n rows (R354). -/
def State.grantFor (s : State) (n : Nat) : Nat :=
  let y := s.yoke s.h.quad
  let used := y.grants.foldl (fun acc g => acc + g.2.2) 0
  if !s.h.lc.yokeAttr || y.broken || y.grants.any (fun g => g.2.1 != s.h.ctxid) then 0
  else
    let m := min n (16 - used)
    if 16 ≤ m then 16 else if 8 ≤ m then 8 else if 4 ≤ m then 4 else 0

/-- Give the hart a grant of g rows; the latches are zeroed and nothing of the former context is left when the Yoke passes
to another (R354, R359, R139). -/
def State.grant (s : State) (g : Nat) : State :=
  if g = 0 then { s with h := { s.h with ygrant := 0 } }
  else
    let h := s.h
    let y := s.yoke h.quad
    let y := if y.lastCtx = h.ctxid then y
      else { y with cur := .zero, spare := .zero, fill := none, rvs := [], sent := false, recv := none, lastCtx := h.ctxid }
    let t := s.setYoke { y with grants := y.grants ++ [(h.id, h.ctxid, g)] }
    { t with h := { h with
        ygrant := w64 (h.id / 16 % 4 * 256 + g), yjoin := 0, ybase := y.epoch + b2n y.fill.isSome + y.rvs.length } }

/-- YATTACH (R354). -/
def execYattach (a : Fin 32) (s : State) : Out :=
  s.yokeOp true fun s =>
    match s.yokeWait fun _ => true with
    | .stop w t => t.qstop w
    | .ok _ t => let u := t.ungrant; (u.grant (u.grantFor (u.h.xa a).toNat)).vdone

/-- YDETACH (R354). -/
def execYdetach (s : State) : Out :=
  s.yokeOp true fun s =>
    match s.yokeWait fun _ => true with
    | .stop w t => t.qstop w
    | .ok _ t => t.ungrant.vdone

/-- YWAIT (R366). -/
def execYwait (s : State) : Out :=
  s.yokeOp true fun s =>
    match s.yokeWait fun _ => true with
    | .stop w t => t.qstop w
    | .ok _ t => t.vdone

/-! ### Handing operations over (R350, R352) -/

/-- The scratchpad trap of R352 for the first byte of [a, b) that lies beyond the scratchpad. -/
def Hart.padFault (h : Hart) (a b : Nat) : Option TrapInfo :=
  if b ≤ h.lc.scratch then none else some (pagePermission (w64 (localBase + max a h.lc.scratch)))

/-- The scratchpad trap of n rows of [a, b) apart by `stride`, ascending. -/
def Hart.padRows (h : Hart) (a b stride : Nat) : Nat → Nat → Option TrapInfo
  | 0, _ => none
  | n + 1, r =>
    match h.padFault (a + r * stride) (b + r * stride) with
    | some t => some t
    | none => h.padRows a b stride n (r + 1)

/-- The trap of a descriptor offset (R352). -/
def Hart.descFault (h : Hart) (a : Fin 32) : Option TrapInfo :=
  let off := (h.xa a).toNat
  if h.lc.scratch < off + 32 then some (pagePermission (w64 (localBase + max off h.lc.scratch)))
  else if off % 32 ≠ 0 then some (.sync 1 (w64 (localBase + off)))
  else none

/-- The n-byte field of the descriptor at scratchpad offset x a. -/
def Hart.desc (h : Hart) (a : Fin 32) (off n : Nat) : Nat := h.scratch.read ((h.xa a).toNat + off) n

/-- The operation being handed over. Its descriptor is read now, since its traps are precise at the instruction; the rows
that it names are read when the operation starts (R352; assumption 24). -/
def State.newOp (s : State) (a b : Fin 32) (epoch : Nat) : YokeOp :=
  { word := s.h.ir, xa := s.h.xa a, xb := s.h.xb b, prog := 0, epoch := epoch
    head := s.h.scratch.bytes (s.h.xa a).toNat 32, src := none, bad := [], user := s.h.mode == .u, fail := none }

/-- The latch epoch that the hart's instructions use: h + j (R357). -/
def Hart.epochNow (h : Hart) : Nat := h.ybase + h.yjoin

/-- The number of operations handed over and not completed (R350). -/
def Hart.openOps (h : Hart) : Nat := (h.yops.filter YokeOp.isOpen).length

/-- Hand an operation over; a ninth waits (R350). -/
def State.handOver (s : State) (o : YokeOp) : State :=
  if 8 ≤ s.h.openOps then s.qstop (.wait .yoke) else { s with h := { s.h with yops := s.h.yops ++ [o] } }.vdone

/-- A latch instruction joins the first open rendezvous that waits for the hart, or opens one among the harts
attached (R356). -/
def Yoke.join (y : Yoke) (id : Nat) : Yoke :=
  let waits (r : List Nat × List Nat) : Bool := r.1.contains id && !r.2.contains id
  if y.rvs.any waits then
    let k := y.rvs.findIdx waits
    { y with rvs := y.rvs.modify k fun r => (r.1, id :: r.2) }
  else { y with rvs := y.rvs ++ [(y.grants.map fun g => g.1, [id])] }

/-- Hand a latch operation over: its epoch is the one that its rendezvous produces (R356, R357). -/
def State.handLatch (s : State) (o : YokeOp) : State :=
  if 8 ≤ s.h.openOps then s.qstop (.wait .yoke)
  else
    let t := s.setYoke ((s.yoke s.h.quad).join s.h.id)
    { t with h := { t.h with yjoin := t.h.yjoin + 1, yops := t.h.yops ++ [o] } }.vdone

/-- Whether a stored format may be a Yoke operand (R361). -/
def yokeClass (c : Nat) : Option Nat :=
  match c with
  | 17 | 20 => some 0
  | 8 | 9 | 18 | 19 | 21 => some 1
  | 0 | 10 => some 2
  | 4 | 5 => some 3
  | 6 => some 4
  | 7 => some 5
  | _ => none

/-- K: elements of a 128-byte slice (R361). -/
def sliceK (c : Nat) : Nat := 1024 / storeBits c

/-- Blocks of a slice (R358). -/
def sliceBlocks (c : Nat) : Nat := if isBlock c then sliceK c / blockElems c else 0

/-- The trap of the data and scale rows of an operand: slices k0 to k0 + n − 1 of `rows` rows (R352). -/
def Hart.operandFault (h : Hart) (fmt base stride sbase sstride k0 n rows : Nat) : Option TrapInfo :=
  match h.padRows (base + 128 * k0) (base + 128 * (k0 + n)) stride rows 0 with
  | some t => some t
  | none =>
    if isBlock fmt then
      let q := sliceBlocks fmt * scaleBytes fmt
      h.padRows (sbase + k0 * q) (sbase + (k0 + n) * q) sstride rows 0
    else none

/-- YZERO (R364). -/
def execYzero (a : Fin 32) (s : State) : Out :=
  let v := s.h.xa a
  s.yokeOp (v &&& 0x1FFF1FFF == v) fun s =>
    if s.h.lc.accRows < field v 0 13 + field v 16 13 + 1 then s.qstop (.trap (pagePermission v))
    else s.handOver (s.newOp a 0 0)

/-- Whether a latch descriptor keeps R358. -/
def Hart.latchOk (h : Hart) (a b : Fin 32) : Bool :=
  let w0 := h.desc a 0 4
  let fmt := w0 % 32
  let n := w0 / 2 ^ 24 % 16
  let zero := (w0 &&& 0x0F07011F) == w0 && 1 ≤ n && n ≤ 8 && (yokeClass fmt).isSome && h.desc a 0x14 12 == 0
  zero &&
    (if w0.testBit 8 then
       h.desc a 4 16 == 0 &&
         (match h.slot? (w0 / 2 ^ 16 % 8) with
          | some b => !b.write && b.fmt == fmt
          | none => false)
     else
       h.desc a 4 4 % 128 == 0 && h.desc a 8 4 % 128 == 0 && (!isBlock fmt || h.desc a 12 4 % scaleBytes fmt == 0) &&
         (h.xb b).toNat < 65536)

/-- The rows of a grant. -/
def Hart.grantRows (h : Hart) : Nat := field h.ygrant 0 5

/-- YLDB (R358). -/
def execYldb (a b : Fin 32) (s : State) : Out :=
  s.yokeOp (s.h.grantRows != 0) fun s =>
    let h := s.h
    match h.descFault a with
    | some t => s.qstop (.trap t)
    | none =>
      if h.latchOk a b then
        let w0 := h.desc a 0 4
        let k0 := (h.xb b).toNat
        match (if w0.testBit 8 then none
               else h.operandFault (w0 % 32) (h.desc a 4 4) (h.desc a 8 4) (h.desc a 12 4) (h.desc a 16 4) k0
                 (w0 / 2 ^ 24 % 16) 32) with
        | some t => s.qstop (.trap t)
        | none => s.handLatch (s.newOp a b (h.epochNow + 1))
      else s.illegal

/-- YROT (R359). -/
def execYrot (s : State) : Out := s.yokeOp (s.h.grantRows != 0) fun s => s.handLatch (s.newOp 0 0 (s.h.epochNow + 1))

/-- Whether a position word keeps R360. -/
def posOk (v : Word) : Bool := (v &&& 0x00771FFF0000FFFF) == v && field v 52 3 + 1 + field v 48 3 ≤ 8

/-- Whether an A descriptor keeps R360. A format of no class is no matter of the descriptor: the pair fails at the start
(R361, R446). -/
def Hart.aDescOk (h : Hart) (a : Fin 32) : Bool :=
  let w0 := h.desc a 0 4
  (w0 &&& 0xFF1F) == w0 && h.desc a 4 4 % 128 == 0 && h.desc a 8 4 % 128 == 0 &&
    h.desc a 0x14 12 == 0

/-- YMMA (R360, R361): handed over for the epoch h + j (R357). -/
def execYmma (a b : Fin 32) (s : State) : Out :=
  s.yokeOp (s.h.grantRows != 0 && posOk (s.h.xb b)) fun s =>
    let h := s.h
    let v := h.xb b
    match h.descFault a with
    | some t => s.qstop (.trap t)
    | none =>
      if h.aDescOk a then
        let w0 := h.desc a 0 4
        let m := w0 / 256 + 1
        if h.lc.accRows < field v 32 13 + m then s.qstop (.trap (pagePermission v))
        else
          match h.operandFault (w0 % 32) (h.desc a 4 4) (h.desc a 8 4) (h.desc a 12 4) (h.desc a 16 4) (field v 0 16)
              (field v 52 3 + 1) m with
          | some t => s.qstop (.trap t)
          | none => s.handOver (s.newOp a b h.epochNow)
      else s.illegal

/-! ### The sum of R197 -/

/-- |x| ÷ 2^q truncated, with the sign of x. -/
def Ex.truncAt (x : Ex) (q : Int) : Int :=
  let n : Nat := if q ≤ x.e then x.m * 2 ^ (x.e - q).toNat else x.m / 2 ^ (q - x.e).toNat
  if x.neg then -(n : Int) else n

/-- The numbers of a list of values. -/
def numsOf (vs : List FV) : List Ex := vs.filterMap fun v => match v with | .num x => some x | _ => none

/-- Whether a value is the infinity of a sign. -/
def FV.isInf (neg : Bool) : FV → Bool
  | .inf n => n == neg
  | _ => false

/-- One K-slice on a binary32 accumulator element (R197): c and the products. -/
def yokeSum (c : Nat) (ps : List FV) : Nat :=
  let ts := fmt32.decode c :: ps
  if ts.any FV.isNan || (ts.any (FV.isInf false) && ts.any (FV.isInf true)) then nanOf32
  else if ts.any (FV.isInf false) then inf32
  else if ts.any (FV.isInf true) then 0x80000000 + inf32
  else
    let xs := numsOf ts
    match xs.filter fun x => x.m != 0 with
    | [] => if xs.all fun x => x.neg then 0x80000000 else 0
    | x :: rest =>
      let emax := rest.foldl (fun e y => max e y.log) x.log
      let sum := xs.foldl (fun acc y => acc + y.truncAt (emax - 60)) 0
      (fmt32.round .rne ⟨sum < 0, sum.natAbs, emax - 60, false⟩).bits

/-- The product of two operand elements as an exact value (R197). -/
def evMul (a b : EV) : FV := (a.toFV.mul b.toFV).1

/-- The integer value of an operand element. -/
def EV.toIntV : EV → Int
  | .int n => n
  | .fl _ => 0

/-- One K-slice on an accumulator element (R197). -/
def sliceUpdate (isInt : Bool) (c : Nat) (as bs : List EV) : Nat :=
  if isInt then patOf 32 ((as.zip bs).foldl (fun acc p => acc + p.1.toIntV * p.2.toIntV) (c : Int))
  else yokeSum c ((as.zip bs).map fun p => evMul p.1 p.2)

/-- The elements of a 128-byte slice at doff with its scales at soff. -/
def sliceVals (data scales : Memory) (fmt doff soff : Nat) : List EV :=
  let bits := storeBits fmt
  (List.range (sliceK fmt)).map fun i =>
    let p := data.read (doff + i * bits / 8) (max 1 (bits / 8)) / 2 ^ (i * bits % 8) % 2 ^ bits
    if isBlock fmt then
      storeValue fmt (scales.read (soff + i / blockElems fmt * scaleBytes fmt) (scaleBytes fmt)) (i % blockElems fmt) p
    else storeValue fmt 0 0 p

/-- A row m, slice k of a YMMA, in the scratchpad as the operation reads it (R362). -/
def YokeOp.aRow (o : YokeOp) (pad : Memory) (m k : Nat) : List EV :=
  let fmt := o.desc 0 4 % 32
  let q := sliceBlocks fmt * scaleBytes fmt
  sliceVals pad pad fmt (o.desc 4 4 + m * o.desc 8 4 + 128 * k) (o.desc 12 4 + m * o.desc 16 4 + k * q)

/-- Column c, slice j of a latch. -/
def Latch.column (l : Latch) (c j : Nat) : List EV := sliceVals l.data l.scales l.fmt ((c * 8 + j) * 128) ((c * 8 + j) * 32)

/-- One K-slice of a YMMA over all its rows and columns (R362). -/
def YokeOp.slice (o : YokeOp) (pad : Memory) (l : Latch) (acc : Memory) (j : Nat) : Memory :=
  let isInt := yokeClass (o.desc 0 4 % 32) == some 2
  let m := o.rows.2
  let acc0 := o.rows.1
  let cols := (List.range 32).map fun c => l.column c (field o.xb 48 3 + j)
  (List.range m).foldl (fun acc r =>
    let a := o.aRow pad r (field o.xb 0 16 + j)
    cols.zipIdx.foldl (fun acc c =>
      let at' := (acc0 + r) * 128 + 4 * c.2
      acc.write at' 4 (sliceUpdate isInt (acc.read at' 4) a c.1)) acc) acc

/-- The K-slices of a YMMA (R360). -/
def YokeOp.slices (o : YokeOp) : Nat := field o.xb 52 3 + 1

/-- The K-slices of a YMMA from p on (R362). -/
def YokeOp.run (o : YokeOp) (pad : Memory) (l : Latch) (acc : Memory) : Memory :=
  (List.range' o.prog (o.slices - o.prog)).foldl (fun acc j => o.slice pad l acc j) acc

/-! ### Completing operations -/

/-- Whether a byte of n from a scratchpad offset on lies in an uncorrectable word, as a handed-over operation reads it. -/
def Hart.badPad (h : Hart) (o : YokeOp) (a n : Nat) : Bool :=
  (h.opBad o).any fun e => e.1 == 1 && decide (a < 8 * e.2 + 8) && decide (8 * e.2 < a + n)

/-- Whether slices k to k + n − 1 of a row of a scratchpad operand, or their scales, hold an uncorrectable word. -/
def Hart.badSlices (h : Hart) (o : YokeOp) (row k n : Nat) : Bool :=
  let fmt := o.desc 0 4 % 32
  let q := sliceBlocks fmt * scaleBytes fmt
  h.badPad o (o.desc 4 4 + row * o.desc 8 4 + 128 * k) (128 * n) ||
  (isBlock fmt && h.badPad o (o.desc 12 4 + row * o.desc 16 4 + k * q) (n * q))

/-- Whether a YMMA reads an uncorrectable word from slice p on: its descriptor, an A row with its scales, an accumulator
row, or the latch (R415, R446). -/
def Hart.badMma (h : Hart) (o : YokeOp) (l : Latch) : Bool :=
  let n := o.slices
  let s0 := field o.xb 48 3
  h.badPad o o.xa.toNat 32 ||
  ((List.range o.rows.2).any fun m => h.badSlices o m (field o.xb 0 16 + o.prog) (n - o.prog)) ||
  (h.badPool.any fun e => e.1 == 2 && o.rows.1 * 16 ≤ e.2 && e.2 < (o.rows.1 + o.rows.2) * 16) ||
  (l.bad.any fun b => s0 + o.prog ≤ b % 8 && b % 8 < s0 + n)

/-- Reading corrects the single-bit errors of the words that n slices from k of `rows` rows of a scratchpad operand
take, with their scales (R140). -/
def State.readSlices (s : State) (o : YokeOp) (rows k n : Nat) : State :=
  if s.h.weakPool.isEmpty then s
  else
    let fmt := o.desc 0 4 % 32
    let q := sliceBlocks fmt * scaleBytes fmt
    (List.range rows).foldl (fun s m =>
      let t := s.readPool 1 (o.desc 4 4 + m * o.desc 8 4 + 128 * k) (128 * n)
      if isBlock fmt then t.readPool 1 (o.desc 12 4 + m * o.desc 16 4 + k * q) (n * q) else t) s

/-- Rows after an uncorrectable operand: free values (R446; assumption 18). -/
def garbleRows (draw r n : Nat) (acc : Memory) : Memory :=
  (List.range (32 * n)).foldl (fun acc i => acc.write (r * 128 + 4 * i) 4 (Config.accAfterError draw (r + i / 32) (i % 32))) acc

/-- What advancing an operation gives: it goes on as the operation given, it is completed, or it holds a failure. -/
inductive OpEnd where
  | more (o : YokeOp)
  | done
  | fail (f : YokeFail)
  deriving DecidableEq, Repr

/-- Whether the formats of A and of the latch form a pair of R361; a latch of zeros has every format (R359). -/
def pairOk (fmt latch : Nat) : Bool := (yokeClass fmt).isSome && (latch == 31 || yokeClass fmt == yokeClass latch)

/-- Advance an operation of the hart on turn that is not a latch operation: a YZERO completes; a YMMA whose epoch is
current starts (R361, R446), or goes on by one K-slice for all its rows (R362, R363). `none` while it cannot start. -/
def State.advanceOp (s : State) (o : YokeOp) : Option (OpEnd × State) :=
  let h := s.h
  if o.kind = 2 then
    some (.done, { s with h := { (h.cleanPool 2 (o.rows.1 * 128) (o.rows.2 * 128)) with
      acc := h.acc.clear (o.rows.1 * 128) (o.rows.2 * 128) } })
  else
    let y := s.yoke h.quad
    let fmt := o.desc 0 4 % 32
    if y.epoch ≠ o.epoch then none
    else if !pairOk fmt y.cur.fmt then some (.fail { code := 0, orig := 0, tval := o.word.setWidth 64 }, s)
    else if h.badMma o y.cur then
      let h := h.cleanPool 2 (o.rows.1 * 128) (o.rows.2 * 128)
      some (.fail { code := 7, orig := 0, tval := BitVec.allOnes 64 },
        { s with h := { h with acc := garbleRows h.draw o.rows.1 o.rows.2 h.acc } }.drawn)
    else
      let pad := h.opMem o
      let l := if y.cur.fmt = 31 then { y.cur with fmt := fmt } else y.cur
      let o' := { o with src := some pad, bad := h.opBad o, prog := o.prog + 1 }
      let t := (s.readSlices o o.rows.2 (field o.xb 0 16 + o.prog) 1).readPool 2 (o.rows.1 * 128) (o.rows.2 * 128)
      some (if o'.prog < o.slices then .more o' else .done,
        { t with h := { t.h with acc := o.slice pad l t.h.acc o.prog } })

/-- The first open operation that is no latch operation, with the operations before and after it. -/
def splitOps : List YokeOp → Option (List YokeOp × YokeOp × List YokeOp)
  | [] => none
  | o :: os =>
    if !o.latch && o.fail.isNone then some ([], o, os) else (splitOps os).map fun r => (o :: r.1, r.2)

/-- Whether a hart has stopped for a pre-emption (R420). -/
def Hart.hasStopped (h : Hart) : Bool :=
  match h.status with
  | .stopped _ _ _ => true
  | _ => false

/-- The oldest YZERO or YMMA of the hart on turn advances: it completes, by its last K-slice or with its failure held, or
has one K-slice more behind it (R351, R362, R446). Nothing starts or goes on in a hart that has stopped (R363). -/
def State.yokeComplete (s : State) : State :=
  if s.h.hasStopped then s
  else
    match splitOps s.h.yops with
    | none => s
    | some (pre, o, post) =>
      match s.advanceOp o with
      | none => s
      | some (.more o', t) => { t with h := { t.h with yops := pre ++ o' :: post } }
      | some (.done, t) => { t with h := { t.h with yops := pre ++ post } }
      | some (.fail f, t) => { t with h := { t.h with yops := pre ++ { o with fail := some f } :: post } }

/-- YOKE_OP_COMPLETE (R362). -/
def execYokeOpComplete (h : Nat) (s : State) : Out := .next (s.onHart h State.yokeComplete)

/-! ### Rendezvous and swaps (R356 to R359) -/

/-- The oldest latch operation of a hart that no swap has completed. -/
def Hart.latchOp (h : Hart) : Option YokeOp := h.yops.find? YokeOp.latch

/-- The lowest hartid of a list. -/
def leadOf : List Nat → Option Nat
  | [] => none
  | i :: is =>
    match leadOf is with
    | none => some i
    | some j => some (min i j)

/-- The latch that a YLDB from the scratchpad fills (R358). -/
def YokeOp.latchOf (o : YokeOp) (pad : Memory) : Latch :=
  let w0 := o.desc 0 4
  let fmt := w0 % 32
  let n := w0 / 2 ^ 24 % 16
  let k0 := field o.xb 0 16
  let q := sliceBlocks fmt * scaleBytes fmt
  let cells := (List.range 32).flatMap fun c => (List.range n).map fun s => (c, s)
  { fmt := fmt
    bad := []
    data := cells.foldl (fun m cs =>
      m.putBytes ((cs.1 * 8 + cs.2) * 128) (pad.bytes (o.desc 4 4 + cs.1 * o.desc 8 4 + 128 * (k0 + cs.2)) 128)) []
    scales := cells.foldl (fun m cs =>
      m.putBytes ((cs.1 * 8 + cs.2) * 32) (pad.bytes (o.desc 12 4 + cs.1 * o.desc 16 4 + (k0 + cs.2) * q) q)) [] }

/-- The slices that a YLDB fills from an uncorrectable word of its hart's scratchpad: they travel as stored (R141,
R415). -/
def Hart.badLatch (h : Hart) (o : YokeOp) : List Nat :=
  if (h.opBad o).isEmpty then []
  else
    ((List.range 32).flatMap fun c => (List.range (o.desc 0 4 / 2 ^ 24 % 16)).map fun j => (c, j)).filterMap fun cs =>
      if h.badSlices o cs.1 (field o.xb 0 16 + cs.2) 1 then some (cs.1 * 8 + cs.2) else none

/-- Put a stored element into a latch that a Sleeve fills: element e of the stream, column by column (R358). -/
def Latch.putElem (l : Latch) (n e : Nat) (v : Nat × Nat) : Latch :=
  let k := sliceK l.fmt
  let col := e / (n * k)
  let sl := e / k % n
  let i := e % k
  let bits := storeBits l.fmt
  let at' := (col * 8 + sl) * 128 + i * bits / 8
  let old := l.data.read at' 1
  let data :=
    if bits = 4 then l.data.write at' 1 (old + v.1 * 2 ^ (i % 2 * 4)) else l.data.write at' (bits / 8) v.1
  let scales :=
    if isBlock l.fmt then
      l.scales.write ((col * 8 + sl) * 32 + i / blockElems l.fmt * scaleBytes l.fmt) (scaleBytes l.fmt) v.2
    else l.scales
  { l with data := data, scales := scales }

/-- Fill `left` elements of a latch from element e on from a Sleeve at position p (R358): the latch, the next element, what
stopped it, and the state. -/
def State.sleeveLatch (s : State) (b : Sleeve) (n : Nat) : Nat → Nat → Nat → Latch → (Latch × Nat × Option Stop) × State
  | 0, e, _, l => ((l, e, none), s)
  | left + 1, e, p, l =>
    if b.count ≤ p then
      let x := Config.latchPastEnd s.h.draw e
      s.sleeveLatch b n left (e + 1) (p + 1) (l.putElem n e (x % 2 ^ storeBits l.fmt, x % 2 ^ (8 * scaleBytes l.fmt)))
    else
      match s.strmRaw engStream (b.who s.h) b.strm p with
      | .ok v t => t.sleeveLatch b n left (e + 1) (p + 1) (l.putElem n e v)
      | .stop w t => ((l, e, some w), t)

/-- The oldest latch operation of a list replaced. -/
def putLatchOp (o : YokeOp) (os : List YokeOp) : List YokeOp := os.modify (os.findIdx YokeOp.latch) fun _ => o

/-- Perform the lead's YLDB, which may have filled part of the spare latch before: the lead is on turn. The latch, and
whether the operation is performed; it is not while it waits for an element or has met a stream fault, and goes on from
that element (R358, R400, R446). -/
def State.performLdb (s : State) (spare : Latch) (o : YokeOp) : (Latch × Bool) × State :=
  let w0 := o.desc 0 4
  let n := w0 / 2 ^ 24 % 16
  if w0.testBit 8 then
    match s.h.slot? (w0 / 2 ^ 16 % 8) with
    | none => (({ Latch.zero with fmt := w0 % 32 }, true), s)
    | some b =>
      let l := if o.prog = 0 then { Latch.zero with fmt := b.fmt } else spare
      let total := 32 * n * sliceK b.fmt
      let r := s.sleeveLatch b n (total - o.prog) o.prog b.pos l
      let e := r.1.2.1
      let pos := min b.count (b.pos + (e - o.prog))
      let b' := { b with pos := pos, ahead := b.ahead - (e - o.prog), held := b.held.filter fun f => decide (pos ≤ f.1) }
      let t := { r.2 with h := r.2.h.setSleeve b' }
      match r.1.2.2 with
      | none => ((r.1.1, true), t.drawn)
      | some (.trap f) =>
        -- the fault is reported by the operation and no longer held by the prefetch, which starts again there (R400)
        let h := t.h.setSleeve { b' with ahead := 0, held := none }
        let f' : YokeFail := { code := 4, orig := f.code, tval := f.tval }
        ((r.1.1, false), { t with h := { h with yops := putLatchOp { o with prog := e, fail := some f' } h.yops } })
      | some _ => ((r.1.1, false), { t with h := { t.h with yops := putLatchOp { o with prog := e } t.h.yops } })
  else
    let t := s.readSlices o 32 (field o.xb 0 16) n
    (({ o.latchOf (s.h.opMem o) with bad := s.h.badLatch o }, true), t)

/-- The next and the previous Yoke of the cluster's ring (R359). -/
def ringNext (q : Nat) : Nat := q / 4 * 4 + (q + 1) % 4
def ringPrev (q : Nat) : Nat := q / 4 * 4 + (q + 3) % 4

/-- The kind of the operation that leads the first rendezvous of a Yoke; none until its participant of lowest hartid
has joined (R356). -/
def State.leadKind (s : State) (y : Yoke) : Option Nat :=
  match y.rvs with
  | [] => none
  | r :: _ =>
    match leadOf r.1 with
    | none => none
    | some id => if r.2.contains id then ((s.hart? id).bind Hart.latchOp).map YokeOp.kind else none

/-- Send the current latch of a Yoke whose rendezvous is a YROT (R359): unchanged while the successor cannot take
it. -/
def State.sendLatch (s : State) (y : Yoke) : State :=
  let next := s.yoke (ringNext y.quad)
  if y.sent then s
  else if next.ctx != y.ctx then s.setYoke { y with sent := true }
  else if next.fill.isSome || next.recv.isSome || s.leadKind next != some 5 then s
  else (s.setYoke { y with sent := true }).setYoke { next with recv := some y.cur }

/-- Install the received latch of a YROT when its own has been sent: the block that has come, or zeros where the
predecessor serves no hart of the context (R359, R404). -/
def State.receiveLatch (s : State) (y : Yoke) (joined : List Nat) : State :=
  let prev := s.yoke (ringPrev y.quad)
  if !y.sent then s
  else
    match (match y.recv with | some l => some l | none => if prev.ctx != y.ctx then some Latch.zero else none) with
    | none => s
    | some l => s.setYoke { y with spare := l, fill := some joined, rvs := y.rvs.drop 1, sent := false, recv := none }

/-- The first rendezvous of a Yoke is performed when every participant has joined and the spare is free (R356); not while
one of them has stopped for a pre-emption (R363). -/
def State.rendezvous (s : State) (quad : Nat) : State :=
  let y := s.yoke quad
  match y.rvs with
  | [] => s
  | r :: rest =>
    if y.fill.isSome || !(r.1.all fun p => r.2.contains p) || (r.1.any fun p => (s.hart? p).any Hart.hasStopped) then s
    else
      match leadOf r.2 with
      | none => s
      | some lead =>
        match (s.hart? lead).bind Hart.latchOp with
        | none => s
        | some o =>
          if o.fail.isSome then s
          else if o.kind = 5 then
            let t := s.sendLatch y
            t.receiveLatch (t.yoke quad) r.2
          else
            match s.switchTo lead with
            | none => s
            | some t =>
              let p := t.performLdb y.spare o
              let u := (p.2.switchTo s.h.id).getD p.2
              let y' := { u.yoke quad with spare := p.1.1 }
              u.setYoke (if p.1.2 then { y' with fill := some r.2, rvs := rest } else y')

/-- YOKE_RENDEZVOUS (R356). -/
def execYokeRendezvous (quad : Nat) (s : State) : Out := .next (s.rendezvous quad)

/-- Remove the oldest latch operation of a hart. -/
def Hart.dropLatch (h : Hart) : Hart :=
  let k := h.yops.findIdx YokeOp.latch
  { h with yops := h.yops.eraseIdx k }

/-- Whether a hart has a YMMA of an epoch that has not completed. -/
def Hart.usesEpoch (h : Hart) (e : Nat) : Bool := h.yops.any fun o => o.kind == 4 && o.fail.isNone && o.epoch == e

/-- The swap (R357): the spare becomes current once no YMMA of the current epoch is left. -/
def State.latchSwap (s : State) (quad : Nat) : State :=
  let y := s.yoke quad
  match y.fill with
  | none => s
  | some joined =>
    if s.harts.any fun h => h.quad == quad && (y.grants.any fun g => g.1 == h.id) && h.usesEpoch y.epoch then s
    else
      let t := s.setYoke { y with cur := y.spare, spare := y.cur, fill := none, epoch := y.epoch + 1 }
      t.mapHarts fun h => if joined.contains h.id then h.dropLatch else h

/-- LATCH_SWAP (R357). -/
def execLatchSwap (quad : Nat) (s : State) : Out := .next (s.latchSwap quad)

/-! ### YDRAIN (R365) -/

/-- Whether a YDRAIN waits for an operation: it writes one of the rows, or is a latch operation whose epoch, or a later
one, such a YMMA waits for (R446). -/
def Hart.drainWaits (h : Hart) (r n : Nat) (o : YokeOp) : Bool :=
  o.touches r n ||
  (o.latch && o.fail.isSome && h.yops.any fun q => q.kind == 4 && q.isOpen && decide (o.epoch ≤ q.epoch) && q.touches r n)

/-- An element of a YDRAIN: the trap of a row beyond the partition or of an uncorrectable word, or the converted
element (R365, R351, R415). -/
def State.drainElem (s : State) (d : Nat) (v : Word) (t i : Nat) : Res Unit :=
  let h := s.h
  let row := field v 0 13 + i / 32
  if h.lc.accRows ≤ row then .stop (.trap (pagePermission v)) s
  else if h.badPool.contains (2, row * 16 + i % 32 / 2) then .stop (.trap (uncorrectable (BitVec.allOnes 64))) s
  else
    let x := h.acc.read (row * 128 + 4 * (i % 32)) 4
    let p := (convert .rne (if flag v 15 then 2 else 6) false t x).bits
    let u := s.readPool 2 (row * 128 + 4 * (i % 32)) 4
    .ok () { u with h := u.h.putElem d h.ew h.lgrp i p 0 }

/-- YDRAIN (R365). -/
def execYdrain (d a : Fin 32) (t : Fin 16) (s : State) : Out :=
  let v := s.h.xa a
  let ok := t.val ≤ 9 && (if t.val < 8 then s.h.ew == t.val else s.h.ew == 0) && (v &&& 0x9FFF) == v
  s.vbegin (s.h.use ok d [] 0 false) fun s =>
    let h := s.h
    match h.elems 0 with
    | [] => s.vend fun s => s.appends d s.h.ew
    | i :: is =>
      -- the rows that its active elements read (R446)
      let rows := ((i :: is).map fun i => field v 0 13 + i / 32).eraseDups
      match s.yokeWait (fun o => rows.any fun r => h.drainWaits r 1 o) with
      | .stop w u => u.vstop u.h.first w
      | .ok _ u => u.velems u.h 0 (fun i u => u.drainElem d v t i) fun s => s.appends d s.h.ew

end Sys2Proof.Machine
end

