-- ==== Sys2Proof/Machine/Stream.lean ====
section
/-! DEFINITION. Sleeves, copies and collectives (R368 to R382, R387, R398 to R401): the STRM and XCOL classes and the
steps by which their operations complete. -/

namespace Sys2Proof.Machine

/-- A STRM or XCOL instruction: legality, then its part. -/
def State.streamOp (s : State) (body : State → State) : Out :=
  if s.h.vectorOk then .next (body s) else .next s.illegal

/-- The context record and inbox entry of an instruction that reserves one (R369): it waits for a free entry. -/
def State.withRoom (s : State) (body : State → State) : State :=
  if s.h.inbox.hasRoom then body s else s.stopWith (.wait .inboxFull)

/-- The hart with an entry of its inbox reserved. -/
def Hart.reserve (h : Hart) (tag : BitVec 32) (kind : Nat) : Hart := { h with inbox := h.inbox.reserve tag kind }

/-- The hart with a message posted (R369). -/
def Hart.post (h : Hart) (tag : BitVec 32) (kind status count : Nat) : Hart :=
  if h.inbox.resv.contains (tag, kind) then { h with inbox := h.inbox.post tag kind status count } else h

/-! ### Sleeves (R372 to R377) -/

/-- Whether a binding record keeps R372. -/
def bindingOk (w : List Word) : Bool :=
  let g (i : Nat) : Nat := (w.getD i 0).toNat
  let c := g 3
  let fmt := c % 32
  let depth := c / 2 ^ 16 % 128
  (c &&& 0xFF80FEE0) == 0 && storeOk fmt && 1 ≤ depth && depth ≤ 64 && 1 ≤ g 2 && g 2 < 2 ^ 48 && g 6 == 0 && g 7 == 0 &&
  (g 1 == 0 || !(isBlock fmt || fmt == 16))

/-- The binding that a record asks for. -/
def sleeveOf (w : List Word) (slot reg : Nat) (user : Bool) (spt : Word) : Sleeve :=
  let g (i : Nat) : Word := w.getD i 0
  { slot := slot, reg := reg, base := g 0, stride := g 1, count := (g 2).toNat, fmt := field (g 3) 0 5,
    write := flag (g 3) 8, depth := field (g 3) 16 7, tag := (g 3).extractLsb' 32 32, sbase := g 4, sstride := g 5,
    user := user, spt := spt, pos := 0, ahead := 0, held := none, pend := [], overf := false, failed := none, done := 0,
    closing := false }

/-- Close the open binding of a slot (R377): a read binding goes, a write binding stays until its writes are
performed. -/
def Hart.closeSlot (h : Hart) (n : Nat) : Hart :=
  { h with sleeves := h.sleeves.filterMap fun b =>
      if b.slot = n ∧ b.closing = false then (if b.write then some { b with closing := true } else none) else some b }

/-- SUNBIND of a slot with its reservation, or none while the inbox is full (R377, R369). -/
def Hart.unbind (h : Hart) (n : Nat) : Option Hart :=
  match h.slot? n with
  | none => some h
  | some b =>
    if b.write then (if h.inbox.hasRoom then some ((h.reserve b.tag 2).closeSlot n) else none)
    else some (h.closeSlot n)

/-- Read n words of a record as loads of the hart. -/
def State.recordWords (s : State) (ea : Word) : Nat → Res (List Word)
  | 0 => .ok [] s
  | n + 1 =>
    (s.elemLoad ea 8 .thru 0).bind fun v t => (t.recordWords (ea + 8) n).bind fun vs u => .ok (w64 v :: vs) u

/-- SBIND (R373). Its SUNBIND comes first: with a full inbox it does not issue (R369). A trap leaves the old binding as it
was (R17). A slot whose elements a YLDB still takes makes it wait (assumption 39). -/
def execSbind (d a : Fin 32) (n : Fin 8) (s : State) : Out :=
  s.streamOp fun s =>
    let ea := s.h.xa a
    if s.h.feeding n then s.qstop (.wait .yoke)
    else if (s.h.unbind n).isNone then s.qstop (.wait .inboxFull)
    else if ea.toNat % 64 ≠ 0 then s.qstop (.trap (.sync 1 ea))
    else
      match s.recordWords ea 8 with
      | .stop w t => t.qstop w
      | .ok ws t =>
        let taken := match t.h.bound d with
          | some b => b.slot != n.val
          | none => false
        if !bindingOk ws || taken then t.qstop (.trap (.sync 4 ea))
        else
          match t.h.unbind n with
          | none => t.qstop (.wait .inboxFull)
          | some h =>
            let b := sleeveOf ws n d (h.mode == .u) h.sptbase
            { t with h := { h with sleeves := h.sleeves ++ [b] } }.vdone

/-- SUNBIND (R377). -/
def execSunbind (n : Fin 8) (s : State) : Out :=
  s.streamOp fun s =>
    if s.h.feeding n then s.qstop (.wait .yoke)
    else
      match s.h.unbind n with
      | none => s.qstop (.wait .inboxFull)
      | some h => { s with h := h }.vdone

/-- SAVAIL (R377). -/
def execSavail (d : Fin 32) (n : Fin 8) (s : State) : Out :=
  s.streamOp fun s =>
    if s.h.feeding n then s.qstop (.wait .yoke)
    else
      let v := match s.h.slot? n with
        | some b => b.count - b.pos
        | none => 0
      { s with h := s.h.set d (w64 v) }.vdone

/-- The first closing binding of a slot, with the bindings without it. -/
def takeClosing (n : Nat) : List Sleeve → Option (Sleeve × List Sleeve)
  | [] => none
  | b :: bs => if b.slot = n ∧ b.closing then some (b, bs) else (takeClosing n bs).map fun r => (r.1, b :: r.2)

/-- Perform the writes of a closed write binding and post its message (R377, R400); it stays while a write waits. -/
def State.closeWrites (s : State) (n : Nat) : State :=
  match takeClosing n s.h.sleeves with
  | none => s
  | some (b, rest) =>
    if s.engFrozen engStream s.h.ctxid then s
    else
      let w := s.flushFeed b true
      let b := w.1
      let t := w.2
      if (b.pend.isEmpty || b.failed.isSome) && !t.engFrozen engStream t.h.ctxid then
        let status := match b.failed with
          | some c => c
          | none => if b.overf then 5 else 0
        { t with h := { t.h with sleeves := rest }.post b.tag 2 status b.done }
      else { t with h := { t.h with sleeves := b :: rest } }

/-- SUNBIND_WRITE_COMPLETE (R377). -/
def execSunbindWriteComplete (h slot : Nat) (s : State) : Out := .next (s.onHart h fun s => s.closeWrites slot)

/-- The elements that may stand ahead of a read binding's position: depth × 256 B of stored data (R373). -/
def Sleeve.reachAhead (b : Sleeve) : Nat := b.depth * 2048 / storeBits b.fmt

/-- STREAM_PREFETCH (R398): a line request for a read binding below its depth, never past count nor past the depth. -/
def Sleeve.prefetch (b : Sleeve) : Sleeve :=
  let n := if isBlock b.fmt then blockElems b.fmt else 1024 / storeBits b.fmt
  if b.write || b.closing || b.held.isSome then b
  else { b with ahead := max b.ahead (min (b.ahead + n) (min (b.count - b.pos) b.reachAhead)) }

/-- Apply f to the open binding of a slot. -/
def Hart.onSlot (h : Hart) (n : Nat) (f : Sleeve → Sleeve) : Hart :=
  match h.slot? n with
  | some b => h.setSleeve (f b)
  | none => h

/-- STREAM_PREFETCH (R398). -/
def execStreamPrefetch (h slot : Nat) (s : State) : Out :=
  .next (s.onHart h fun s => { s with h := s.h.onSlot slot Sleeve.prefetch })

/-- The prefetched lines of a slot arrive (R398, R400): a fault is held at its element with its cause. -/
def State.linesArrive (s : State) (n : Nat) : State :=
  match s.h.slot? n with
  | none => s
  | some b =>
    if b.write then s
    else
      let r := s.strmReads engStream (b.who s.h) b.strm b.pos b.ahead
      match r.2.1 with
      | some (.trap f) =>
        let e := b.pos + r.1.length
        { r.2.2 with h := r.2.2.h.setSleeve { b with ahead := r.1.length, held := some (e, f.code, f.tval) } }
      | _ => r.2.2

/-- STREAM_DATA_ARRIVAL (R398). -/
def execStreamDataArrival (h slot : Nat) (s : State) : Out := .next (s.onHart h fun s => s.linesArrive slot)

/-! ### Copies (R378, R379, R387) -/

/-- SCOPY (R378): with a full inbox it does not issue; a misaligned descriptor traps when it issues; else the inbox entry
is reserved and the copy starts. -/
def execScopy (d a : Fin 32) (s : State) : Out :=
  s.streamOp fun s =>
    let ea := s.x a
    s.withRoom fun s =>
      let h := s.h
      let tag := (h.get d).truncate 32
      let c : CopyOp :=
        { tag := tag, desc := ea, n := h.ncopy, pref := 0, user := h.mode == .u, spt := h.sptbase, viol := false }
      if ea.toNat % 64 ≠ 0 then s.takeTrap (.sync 1 ea)
      else { s with h := { (h.reserve tag 1) with copies := h.copies ++ [c] } }.vdone

/-- A copy descriptor (R378). -/
structure CopyDesc where
  src : Strm
  dst : Strm
  nf  : Nat
  ss  : Word
  ds  : Word
  deriving DecidableEq, Repr

/-- Read a copy descriptor; none when it breaks R378. -/
def copyDesc (w : List Word) (count : Nat) : Option CopyDesc :=
  let g (i : Nat) : Word := w.getD i 0
  let c := (g 4).toNat
  let sf := c % 32
  let df := c / 256 % 32
  let nf := c / 2 ^ 16 % 8 + 1
  let packed := isBlock sf || isBlock df || sf == 16 || df == 16
  let ok := c < 2 ^ 19 && c / 32 % 8 == 0 && c / 2 ^ 13 % 8 == 0 &&
    storeOk sf && storeOk df && storeInt sf == storeInt df && g 7 == 0 && (!packed || (g 2 == 0 && g 3 == 0 && nf == 1))
  if ok then
    let seb := storeBits sf / 8
    let deb := storeBits df / 8
    some {
      src := { fmt := sf, base := g 0, stride := g 2, sbase := g 5, sstride := 0 }
      dst := { fmt := df, base := g 1, stride := g 3, sbase := g 6, sstride := 0 }
      nf := nf, ss := if g 2 = 0 then w64 (nf * seb) else g 2, ds := if g 3 = 0 then w64 (count * deb) else g 3 }
  else none

/-- Move field f on of record i (R378). -/
def State.copyFields (s : State) (w : Who) (c : CopyDesc) (i : Nat) : Nat → Nat → Res Unit
  | 0, _ => .ok () s
  | left + 1, f =>
    let sn := storeBits c.src.fmt / 8
    let dn := storeBits c.dst.fmt / 8
    (s.engRead engCopy w 16 (c.src.base + w64 i * c.ss + w64 (f * sn)) sn).bind fun v t =>
      (t.engWrite engCopy w 16 (c.dst.base + w64 f * c.ds + w64 (i * dn)) dn
        ((storeValue c.src.fmt 0 0 v).encode c.dst.fmt)).bind fun _ u => u.copyFields w c i left (f + 1)

/-- The elements that a copy writes as one piece. -/
def CopyDesc.piece (c : CopyDesc) : Nat :=
  if isBlock c.dst.fmt then blockElems c.dst.fmt else if c.dst.fmt = 16 then 2 else 1

/-- Copy records i to n − 1 in ascending order (R378, R379; assumption 17): how far it came, and the stop. -/
def State.copyRun (s : State) (w : Who) (c : CopyDesc) (n : Nat) : Nat → Nat → Nat × Option Stop × State
  | 0, i => (i, none, s)
  | fuel + 1, i =>
    if n ≤ i then (n, none, s)
    else if c.nf = 1 then
      let k := min c.piece (n - i)
      let r := s.strmReads engCopy w c.src i k
      match r.2.1 with
      | some e => (i, some e, r.2.2)
      | none =>
        let u := r.2.2.strmWrites engCopy w c.dst (k + 1) i r.1
        match u.2.1 with
        | some e => (i, some e, u.2.2)
        | none => u.2.2.copyRun w c n fuel (i + k)
    else
      match s.copyFields w c i c.nf 0 with
      | .stop e t => (i, some e, t)
      | .ok _ t => t.copyRun w c n fuel (i + 1)

/-- Read n words of a descriptor by an engine. -/
def State.engWords (s : State) (kind : Nat) (w : Who) (ea : Word) : Nat → Res (List Word)
  | 0 => .ok [] s
  | n + 1 =>
    (s.engRead kind w 2 ea 8).bind fun v t => (t.engWords kind w (ea + 8) n).bind fun vs u => .ok (w64 v :: vs) u

/-- Copy i of the hart on turn ends with a status and a count (R369). -/
def State.copyPost (s : State) (i status count : Nat) : State :=
  match s.h.copies[i]? with
  | none => s
  | some c => { s with h := ({ s.h with copies := s.h.copies.eraseIdx i }).post c.tag 1 status count }

/-- Copy i stops: it reports a fault, or keeps its prefix and waits; a violation marks it (R369, R417). -/
def State.copyStop (s : State) (i : Nat) (c : CopyOp) (w : Stop) (count : Nat) : State :=
  let keep (v : Bool) : State :=
    { s with h := { s.h with copies := s.h.copies.set i { c with pref := count, viol := v } } }
  match w with
  | .trap t => s.copyPost i (engStatus t) count
  | .wait (.engine _) => keep true
  | _ => keep c.viol

/-- Run copy i of the hart on turn (R378, R379, R387). -/
def State.copyStep (s : State) (i : Nat) : State :=
  match s.h.copies[i]? with
  | none => s
  | some c =>
    if s.engFrozen engCopy s.h.ctxid || c.viol then s
    else
      let w := s.h.whoAs c.user c.spt
      match s.engWords engCopy w c.desc 8 with
      | .stop e t => t.copyStop i c e c.pref
      | .ok ws t =>
        match copyDesc ws c.n with
        | none => t.copyPost i 4 0
        | some d =>
          let r := t.copyRun w d c.n (c.n + 1) (c.pref / d.piece * d.piece)
          match r.2.1 with
          | none => r.2.2.copyPost i 0 c.n
          | some e => r.2.2.copyStop i c e r.1

/-- SCOPY_COMPLETE (R379). -/
def execScopyComplete (h i : Nat) (s : State) : Out := .next (s.onHart h fun s => s.copyStep i)

/-! ### Collectives (R380 to R382) -/

/-- XALL and XRED (R380, R381): the inbox entry is reserved and the operation starts. A misaligned descriptor traps as
R378 says of SCOPY's (assumption 28). -/
def State.collective (s : State) (red : Bool) (d a : Fin 32) : Out :=
  s.streamOp fun s =>
    let ea := s.x a
    s.withRoom fun s =>
      let h := s.h
      let tag := (h.get d).truncate 32
      let c : CollOp :=
        { red := red, tag := tag, desc := ea, acked := [], adds := [], refused := [], user := h.mode == .u,
          spt := h.sptbase, viol := false }
      if ea.toNat % 32 ≠ 0 then s.takeTrap (.sync 1 ea)
      else { s with h := { (h.reserve tag (if red then 4 else 3)) with colls := h.colls ++ [c] } }.vdone

/-- XALL (R380). -/
def execXall (d a : Fin 32) (s : State) : Out := s.collective false d a

/-- XRED (R381). -/
def execXred (d a : Fin 32) (s : State) : Out := s.collective true d a

/-- Apply f with a hart on turn that is resident, or that stands in a saved record: its collectives go on while its
context is pre-empted (R371). -/
def State.onColl (s : State) (id : Nat) (f : State → State) : State :=
  if s.harts.any fun g => g.id == id && !g.colls.isEmpty then s.onHart id f
  else
    match s.sched.saved.find? (fun g => g.id == id && !g.colls.isEmpty) with
    | none => s
    | some g =>
      let rest := s.sched.saved.filter (· != g)
      let me := s.h
      let u := f { s with h := g, others := insertHart me s.others, sched := { s.sched with saved := rest } }
      { u with
        h := (u.others.find? fun k => k.id == me.id).getD me
        others := u.others.filter fun k => k.id != me.id
        sched := { u.sched with saved := u.h :: u.sched.saved } }

/-- Collective i of the hart on turn ends with a status and a count. -/
def State.collPost (s : State) (i status count : Nat) : State :=
  match s.h.colls[i]? with
  | none => s
  | some c =>
    { s with h := ({ s.h with colls := s.h.colls.eraseIdx i }).post c.tag (if c.red then 4 else 3) status count }

/-- Replace collective i. -/
def State.setColl (s : State) (i : Nat) (c : CollOp) : State := { s with h := { s.h with colls := s.h.colls.set i c } }

/-- The length of the completed prefix 0, 1, 2 … of a list of numbers. -/
def prefixOf (done : List Nat) : Nat := ((List.range done.length).find? fun j => !done.contains j).getD done.length

/-- The count of a collective's message: an XRED's chunks acknowledged, an XALL's completed prefix of blocks (R369, R380,
R382). -/
def CollOp.count (c : CollOp) : Nat := if c.red then c.acked.length else prefixOf c.acked

/-- Collective i stops: it reports a fault with what it has completed, or waits; a violation marks it (R417). -/
def State.collStop (s : State) (i : Nat) (c : CollOp) (w : Stop) : State :=
  match w with
  | .trap t => s.collPost i (engStatus t) c.count
  | .wait (.engine _) => s.setColl i { c with viol := true }
  | _ => s

/-- Whether an XALL descriptor keeps R380. -/
def xallOk (w : List Word) : Bool :=
  let g (i : Nat) : Nat := (w.getD i 0).toNat
  let p := g 3 % 65536
  g 2 % 128 == 0 && 128 ≤ g 2 && g 2 ≤ 2 ^ 32 - 128 && 2 ≤ p && g 3 / 65536 < p

/-- Run a step of collective i with its descriptor's four words; a bad descriptor ends it. -/
def State.withDesc (s : State) (i : Nat) (red : Bool) (ok : List Word → Bool) (f : CollOp → Who → List Word → State → State) :
    State :=
  match s.h.colls[i]? with
  | none => s
  | some c =>
    if s.engFrozen engCollective s.h.ctxid || c.viol || c.red != red then s
    else
      let w := s.h.whoAs c.user c.spt
      match s.engWords engCollective w c.desc 4 with
      | .stop e t => t.collStop i c e
      | .ok ws t => if ok ws then f c w ws t else t.collPost i 4 0

/-- Copy n words from one address to another by the collective engine. -/
def State.moveWords (s : State) (w : Who) (src dst : Word) : Nat → Res Unit
  | 0 => .ok () s
  | n + 1 =>
    (s.engRead engCollective w 9 src 8).bind fun v t =>
      (t.engWrite engCollective w 9 dst 8 v).bind fun _ u => u.moveWords w (src + 8) (dst + 8) n

/-- A far operation of an engine (R65, R380, R381): it needs R, W and D (R431). As an AMO's, it is executed near in host
memory, waits where an access of its core waits, and reports an uncorrectable word; the watermarks see its read. -/
def State.engFar (s : State) (w : Who) (ea : Word) (n : Nat) (f : Nat → Nat) : Res Unit :=
  (s.engLocate engCollective w ea n .both).bind fun l t =>
    match l with
    | .scratch off =>
      match t.wmGate (ea.toNat + n - 1) t.h.lc.binds with
      | .error e => .stop (.wait e) t
      | .ok t =>
        if t.h.badPool.contains (1, off / 8) then .stop (.trap (uncorrectable ea)) t
        else
        let t := t.readPool 1 off n
        let old := t.h.scratch.read off n
        .ok () { t with h := { t.h with scratch := t.h.scratch.write off n (f old) } }
    | .phys pa =>
      let a := wordAddr pa
      let atHome := placeOf pa != .host
      match t.accessWait t.h.core a (if atHome then .thru else .own) with
      | some x => .stop (.wait (.word x)) t
      | none =>
        match t.wmGate (ea.toNat + n - 1) t.h.lc.binds with
        | .error e => .stop (.wait e) t
        | .ok t =>
          let ans :=
            if atHome then
              let t := t.drainWord t.h.core a
              t.coreFar t.h.core { Req.of .far (some t.h.core) a with
                op := .swap, size := n, off := pa % 8, b := w64 (f (wordField (t.homeView a) (pa % 8) n)) }
            else t.coreNear t.h.core a fun w => setField w (pa % 8) n (f (wordField w (pa % 8) n))
          if ans.bad then .stop (.trap (uncorrectable ea)) ans.s else .ok () ans.s

/-- Block j of an XALL is written and the arrival add that follows it is performed (R380). -/
def State.xallBlock (s : State) (i j : Nat) : State :=
  s.withDesc i false xallOk fun c w ws s =>
    let g (k : Nat) : Word := ws.getD k 0
    let p := field (g 3) 0 16
    let me := field (g 3) 16 16
    if p ≤ j ∨ c.acked.contains j then s
    else
      match s.engRead engCollective w 9 (g 1 + w64 (8 * j)) 8 with
      | .stop e t => t.collStop i c e
      | .ok recv t =>
        let r : Res Unit :=
          if c.adds.contains j then .ok () t
          else t.moveWords w (g 0 + w64 j * g 2) (w64 recv + w64 me * g 2) ((g 2).toNat / 8)
        match r with
        | .stop e t => t.collStop i c e
        | .ok _ t =>
          let c := { c with adds := if c.adds.contains j then c.adds else c.adds ++ [j] }
          let t := t.setColl i c
          let word := w64 recv + w64 p * g 2
          if word.toNat % 8 ≠ 0 then t.collPost i 4 c.count
          else
            match t.engFar w word 8 fun v => (v + 1) % 2 ^ 64 with
            | .stop e t => t.collStop i c e
            | .ok _ t => t.setColl i { c with acked := c.acked ++ [j], adds := c.adds.erase j }

/-- XALL_ARRIVAL_ADD (R380). -/
def execXallArrivalAdd (h i j : Nat) (s : State) : Out := .next (s.onColl h fun s => s.xallBlock i j)

/-- The message of an XALL posts when every block and every arrival add is performed (R380). -/
def State.xallEnd (s : State) (i : Nat) : State :=
  s.withDesc i false xallOk fun c _ ws s =>
    let p := field (ws.getD 3 0) 0 16
    if (List.range p).all c.acked.contains then s.collPost i 0 p else s

/-- XALL_COMPLETE (R380). -/
def execXallComplete (h i : Nat) (s : State) : Out := .next (s.onColl h fun s => s.xallEnd i)

/-- Whether an XRED descriptor keeps R381. -/
def xredOk (w : List Word) : Bool :=
  let g (i : Nat) : Nat := (w.getD i 0).toNat
  let op := g 3 % 4
  let ty := g 3 / 16 % 16
  g 1 % 512 == 0 && g 2 ≤ 2 ^ 25 &&
  ((op == 0 && [2, 3, 5, 6].contains ty) || ((op == 1 || op == 2) && [2, 3, 5, 6, 12, 13].contains ty)) &&
  g 2 % codeBytes ty == 0

/-- The chunks of an XRED. -/
def xredChunks (w : List Word) : Nat := ((w.getD 2 0).toNat + 511) / 512

/-- What an XRED makes of an element at the destination (R381, R228). -/
def xredOp (op ty old new : Nat) : Nat :=
  let bits := 8 * codeBytes ty
  match codeFmt ty with
  | none =>
    if op = 0 then (old + new) % 2 ^ bits
    else
      let lt := intOf (codeSigned ty) bits new < intOf (codeSigned ty) bits old
      if op = 1 then (if lt then new else old) else (if lt then old else new)
  | some f =>
    if op = 0 then (f.add .rne old new).bits
    else (f.minmax (op == 2) old new).bits

/-- Apply the elements of a chunk in ascending order (R381). -/
def State.xredElems (s : State) (w : Who) (op ty : Nat) (src dst : Word) : Nat → Res Unit
  | 0 => .ok () s
  | n + 1 =>
    let eb := codeBytes ty
    (s.engRead engCollective w 9 src eb).bind fun v t =>
      (t.engFar w dst eb fun old => xredOp op ty old v).bind fun _ u =>
        u.xredElems w op ty (src + w64 eb) (dst + w64 eb) n

/-- Whether a bitmap is the one of a copy: its sender's module, context and copy number (R382). -/
def Bitmap.isOf (m : Bitmap) (sender ctxid copy : Nat) : Bool :=
  m.sender == sender && m.ctxid == ctxid && m.copy == copy

/-- Whether a chunk's bit is set: a chunk is applied once, also where its granule has moved to another home since
(R382; assumption 29). -/
def State.chunkDone (s : State) (sender ctxid copy k : Nat) : Bool :=
  s.maps.any fun m => m.isOf sender ctxid copy && m.chunks.contains k

/-- Set a chunk's bit in the bitmap of its copy at a die, or none when the die has no bitmap free (R382). -/
def State.markChunk (s : State) (die sender ctxid copy k : Nat) : Option State :=
  match s.maps.find? fun m => m.die == die && m.isOf sender ctxid copy with
  | some m => some { s with maps := { m with chunks := m.chunks ++ [k] } :: s.maps.filter (· != m) }
  | none =>
    if (s.maps.filter fun m => m.die == die).length < 64 then
      some { s with maps := { die := die, sender := sender, ctxid := ctxid, copy := copy, chunks := [k] } :: s.maps }
    else none

/-- An XRED with chunk k acknowledged; the die refuses nothing any more. -/
def CollOp.take (c : CollOp) (die k : Nat) : CollOp :=
  { c with acked := c.acked ++ [k], refused := c.refused.filter (· != die) }

/-- The key of the die whose engine keeps a chunk's bitmap (R382): the home die of the destination; for a peer's memory that
module and the die that its granule has after reset; for a destination in the local window, which has no home die, the
issuing core's die (assumption 29). -/
def State.chunkDie (s : State) (l : Loc) : Nat :=
  match l with
  | .scratch _ => coreDie s.h.core
  | .phys pa =>
    match placeOf pa with
    | .pod m => 16 + 8 * m + pa / 65536 % 8
    | _ => s.homeDie pa

/-- A chunk reaches its destination: applied, acknowledged and discarded, or refused (R382). The acknowledgement of a peer
leaves only after the chunk is applied and may be lost: the chunk then arrives again, and its bit shows that it has been
applied (R444). A chunk that stops is applied in none of its elements. -/
def State.xredChunk (s : State) (i k : Nat) : State :=
  s.withDesc i true xredOk fun c w ws s =>
    if xredChunks ws ≤ k ∨ c.acked.contains k then s
    else
      let g (j : Nat) : Word := ws.getD j 0
      let ty := field (g 3) 4 4
      let eb := codeBytes ty
      let src := g 0 + w64 (512 * k)
      let dst := g 1 + w64 (512 * k)
      let n := (min 512 ((g 2).toNat - 512 * k)) / eb
      match s.engLocate engCollective w dst eb .both with
      | .stop e t => t.collStop i c e
      | .ok l t =>
        let die := t.chunkDie l
        let copy := field (g 3) 32 32
        let me := t.link.module
        if t.chunkDone me t.h.ctxid copy k then t.setColl i (c.take die k)
        else
          match t.markChunk die me t.h.ctxid copy k with
          | none => t.setColl i { c with refused := if c.refused.contains die then c.refused else die :: c.refused }
          | some u =>
            match u.xredElems w (field (g 3) 0 2) ty src dst n with
            | .stop (.wait (.engine _)) v =>
              match v.host.frozenEng.find? fun f => f.eng == engCollective && f.ctxid == t.h.ctxid with
              | some f => (t.freezeEngine f).setColl i { c with viol := true }
              | none => t
            | .stop e v => ({ t with pow := v.pow }.collStop i c e)
            | .ok _ v => if 16 ≤ die then v else v.setColl i (c.take die k)

/-- XRED_CHUNK_ARRIVE (R382). -/
def execXredChunkArrive (h i k : Nat) (s : State) : Out := .next (s.onColl h fun s => s.xredChunk i k)

/-- XRED_CHUNK_RESEND (R382): a refused chunk is sent again. -/
def execXredChunkResend (h i k : Nat) (s : State) : Out :=
  .next (s.onColl h fun s =>
    match s.h.colls[i]? with
    | some c => if c.refused.isEmpty then s else s.xredChunk i k
    | none => s)

/-- XRED_BUSY_TIMEOUT (R382): BUSY with the chunks acknowledged; the copy stays open. -/
def execXredBusyTimeout (h i : Nat) (s : State) : Out :=
  .next (s.onColl h fun s =>
    match s.h.colls[i]? with
    | some c => if c.red && !c.refused.isEmpty && !c.viol then s.collPost i 7 c.count else s
    | none => s)

/-- The message of an XRED posts when every chunk is acknowledged; the copy closes (R382). -/
def State.xredEnd (s : State) (i : Nat) : State :=
  s.withDesc i true xredOk fun c _ ws s =>
    let n := xredChunks ws
    if (List.range n).all c.acked.contains then
      let copy := field (ws.getD 3 0) 32 32
      let t := { s with maps := s.maps.filter fun m => !m.isOf s.link.module s.h.ctxid copy }
      t.collPost i 0 n
    else s

/-- XRED_COMPLETE (R382). -/
def execXredComplete (h i : Nat) (s : State) : Out := .next (s.onColl h fun s => s.xredEnd i)

end Sys2Proof.Machine
end

