-- ==== Sys2Proof/Machine/Halt.lean ====
section
/-! DEFINITION. HALT and the work items of a hart (R83, R160, R163, R308, R309), and THAW (R84, R416, R419). -/

namespace Sys2Proof.Machine

/-! ### Work items (R160, R163) -/

/-- The coordinates with every temporal level at 0. -/
def firstItem : List (Nat × Nat) → List Nat → List Nat
  | l :: ls, c :: cs => (if l.1 = 0 then 0 else c) :: firstItem ls cs
  | _, cs => cs

/-- The next point of the temporal levels, the first level most significant (R160); none after the last. -/
def nextItem : List (Nat × Nat) → List Nat → Option (List Nat)
  | l :: ls, c :: cs =>
    match nextItem ls cs with
    | some cs' => some (c :: cs')
    | none => if l.1 = 0 ∧ c + 1 < l.2 then some ((c + 1) :: firstItem ls cs) else none
  | _, _ => none

/-- The x registers at the start of a work item (R163, R308). -/
def LaunchCtx.xregs (c : LaunchCtx) : Vector Word 32 :=
  let co (i : Nat) : Word := w64 (c.coords.getD i 0)
  let x : Vector Word 32 := Vector.replicate 32 0
  let x := ((x.set 10 c.args).set 13 (co 2)).set 14 (co 3)
  let x := x.set 15 (w64 c.rank)
  match c.given with
  | some g => (x.set 11 (w64 g.1)).set 12 (w64 g.2)
  | none => (x.set 11 (co 0)).set 12 (co 1)

/-- The hart at the start of a work item that is not its first (R163). -/
def Hart.startItem (h : Hart) : Hart :=
  { h with
    mode := .u, pc := h.lc.entry, x := h.lc.xregs, status := if h.lc.preempt then .stopped false false false else .run
    vec := { h.vec with vcfg := 0, vl := 0, vstart := 0, stack := [], e := BitVec.allOnes 32768 }
    inbox := ⟨[], []⟩, sleeves := [], region := [], viq := [], window := [], back := none, cur := 0, chase := 0
    lim := none, cap := none
    strip := ⟨h.lc.entry, 0, 0, 0⟩ }

/-! ### HALT (R83) -/

/-- Step 1: every binding is closed; a write binding stays until its writes are performed, without a reservation. -/
def Hart.unbindAll (h : Hart) : Hart :=
  { h with sleeves := h.sleeves.filterMap fun b => if b.write || b.closing then some { b with closing := true } else none }

/-- Whether step 2 holds the hart back. -/
def Hart.handback (h : Hart) : Bool := !h.sleeves.isEmpty || !h.copies.isEmpty || !h.colls.isEmpty

/-- A hart of the launch leaves its slot (R160). -/
def State.leaveSlot (s : State) : State :=
  let core := s.h.core
  let s := { s with h := { s.h with status := .ended } }
  let s := match s.myLaunch with
    | some l => s.setLaunch { l with left := l.left - 1 }
    | none => s
  s.takeLaneMap core

/-- A mesh hart goes on to its next meshlet: it waits for the distributor, or leaves when none is left (R309). -/
def State.awaitMeshlet (s : State) (d : Draw) : State :=
  if d.nextTri = d.ntri then s.leaveSlot else { s with h := { s.h with status := if s.h.lc.preempt then .stopped false true false else .wait .meshlet } }

/-- Note that the meshlet of the hart on turn is done (R309). -/
def State.meshletDone (s : State) (d : Draw) : State :=
  { s with gfx := { s.gfx with draws := s.gfx.draws.map fun e =>
      if e.launch = d.launch then { e with doneM := e.doneM ++ [s.h.lc.coords.headD 0] } else e } }

/-- After HALT: the next work item, the next meshlet, or the slot is freed. -/
def State.nextWork (s : State) : State :=
  let h := s.h
  match (if h.lc.kind = 1 then s.draw? h.launchNum else none) with
  | some d => (s.meshletDone d).awaitMeshlet d
  | none =>
    match nextItem h.lc.levels h.lc.coords with
    | some cs => { s with h := { h with lc := { h.lc with coords := cs } }.startItem }
    | none => s.leaveSlot

/-- HALT (R83): a failure that a Yoke operation holds traps first (R446); the latest span record is resolved
(R315). While its release or its strip's record waits, the instruction waits. -/
def execHalt (s : State) : Out :=
  if s.h.mode = .m then
    let t := s.finish
    .next { t with h := { t.h with status := .ended } }
  else
    match s.yokeWait fun _ => true with
    | .stop w t => .next (t.stopWith w)
    | .ok _ t =>
      let t := t.resolveLatest
      let t := { t with h := t.h.unbindAll }
      if t.h.handback then .next (t.stopWith (.wait .handback))
      else
        (t.releaseRes.bind fun _ u => u.ungrant.traceStrip 32).done fun _ u =>
          let v := u.finish
          { v with h := { v.h with inbox := ⟨[], []⟩ } }.nextWork

/-! ### THAW (R84, R419) -/

/-- Release a frozen hart: it takes page-permission with viol = 1 (R419). -/
def State.thawHart (s : State) : State :=
  match s.h.status with
  | .frozen f => s.takeTrap { intr := false, code := 3, orig := 0, viol := true, tval := f.va }
  | _ => s

/-- Post VIOLATION for the violating copies and collectives of the hart on turn (R419, R369). -/
def Hart.postViolations (h : Hart) (kind : Nat) : Hart :=
  if kind = engCopy then
    let bad := h.copies.filter fun c => c.viol
    bad.foldl (fun h c => h.post c.tag 1 3 c.pref) { h with copies := h.copies.filter fun c => !c.viol }
  else if kind = engCollective then
    let bad := h.colls.filter fun c => c.viol
    bad.foldl (fun h c => h.post c.tag (if c.red then 4 else 3) 3 c.count)
      { h with colls := h.colls.filter fun c => !c.viol }
  else h

/-- Release a frozen engine context (R419). -/
def State.thawEngine (s : State) (kind ctxid : Nat) : State :=
  if s.engFrozen kind ctxid then
    let f (h : Hart) : Hart := if h.ctxid = ctxid ∧ !h.isMantle then h.postViolations kind else h
    let s := s.mapHarts f
    { s with
      host := { s.host with frozenEng := s.host.frozenEng.filter fun e => !(e.eng == kind && e.ctxid == ctxid) }
      sched := { s.sched with saved := s.sched.saved.map f } }
  else s

/-- Release a frozen link port: its violating request is answered with a refusal (R419, R442). -/
def State.thawPort (s : State) (p : Nat) : State :=
  if s.link.ports.any fun q => q.num == p && q.frozen.isSome then
    { s with link := { s.link with
        ports := s.link.ports.map fun q => if q.num = p then { q with frozen := none } else q
        sent := (p, 1) :: s.link.sent } }
  else s

/-- Release the master that an identifier names, within the reach of the hart on turn (R84, R416): in S mode the masters
of its own context. What the Mantle's reach is stands nowhere in the spec; here it is every master of the module
(assumption 71). -/
def State.thaw (s : State) (v : Word) : State :=
  let kind := field v 62 2
  let rest := field v 0 62
  let id := rest % 2 ^ 32
  let engine := rest / 2 ^ 36 % 16
  let own (ctxid : Nat) : Bool := s.h.mode == .m || s.h.ctxid == ctxid
  match kind with
  | 0 =>
    if rest < 2 ^ 26 ∧ id / 2 ^ 16 = s.link.module then
      match s.hart? (id % 2 ^ 16) with
      | some g => if own g.ctxid then s.onHart g.id State.thawHart else s
      | none => s
    else s
  | 1 => if rest = engine * 2 ^ 36 + id ∧ engine < 4 ∧ own id then s.thawEngine engine id else s
  | 2 => if rest = s.link.module * 2 ^ 16 + id % 16 ∧ s.h.mode = .m then s.thawPort (id % 16) else s
  | _ => s

/-- THAW (R84); illegal in U mode (R48). -/
def execThaw (a : Fin 32) (s : State) : Out := if s.h.mode = .u then .next s.illegal else .next (s.thaw (s.x a)).finish

end Sys2Proof.Machine
end

