-- ==== Sys2Proof/Machine/Record.lean ====
section
/-! DEFINITION. The context record of a hart: its header and its sections (R423, R424). -/

namespace Sys2Proof.Machine

/-! ### The context record (R423, R424) -/

/-- Little-endian words of a number of n bytes, padded to whole words. -/
def wordsOf (n v : Nat) : List Word := (List.range ((n + 7) / 8)).map fun i => w64 (v / 2 ^ (64 * i))

/-- The bytes of words, little-endian. -/
def leBytes (ws : List Word) : List Byte := ws.flatMap fun w => (List.range 8).map fun i => w.extractLsb' (8 * i) 8

/-- A section: its header and its body padded to 64 bytes. -/
def recSection (kind : Nat) (body : List Word) : List Word :=
  [w64 kind, w64 (8 * body.length)] ++ body ++ List.replicate ((8 - body.length % 8) % 8) 0

/-- The window of a hart as the record holds it: what its stop left to be run again, else the chain record. -/
def Hart.recorded (h : Hart) : List ChainEntry := if h.pending.isEmpty then h.trap.chain else h.pending

/-- Section 1: the scalar registers and CSRs. -/
def Hart.scalarSection (h : Hart) : List Word :=
  (h.x.toList.drop 1) ++
  [h.instret, h.vec.vrnd, h.vec.vsrkey, h.vec.vflags, h.vec.vcfg, h.vec.vl, h.vec.vstart, w64 h.vec.stack.length,
   h.stripord, h.ygrant, h.trap.pfxstate, if h.pending.isEmpty then h.trap.tchain else tchainOf h.pending, h.trap.tvec,
   h.trap.tcause, h.trap.tval, h.trap.tepc, h.trap.tstatus, h.trap.tscratch, h.sptbase, h.trap.claimcfg]

/-- Section 2: each register's extent word and its positions. -/
def Hart.vectorSection (h : Hart) : List Word :=
  (List.range 32).flatMap fun r =>
    match h.vec.ext.find? fun e => e.reg == r with
    | some e => w64 (e.count * 2 ^ 16 + e.lgrp * 8 + e.ew) ::
        wordsOf (e.count * codeBytes e.ew) (h.vec.v.read (4096 * r) (e.count * codeBytes e.ew))
    | none => [0]

/-- A mask with its bit count. -/
def maskWords (n : Nat) (m : Mask) : List Word :=
  w64 n :: (List.range ((n + 63) / 64)).map fun i => w64 (m.toNat % 2 ^ n / 2 ^ (64 * i))

/-- Section 3: k1 to k7, E and the mask stack from the bottom. -/
def Hart.maskSection (h : Hart) : List Word :=
  ((List.range 7).flatMap fun i => maskWords (h.vec.kc.toList.getD (i + 1) 0) (h.vec.k.toList.getD (i + 1) 0)) ++
  maskWords (h.vec.kc.toList.getD 0 0) h.vec.e ++ (h.vec.stack.reverse.flatMap fun e => maskWords e.2 e.1)

/-- Section 4: the chain record. -/
def Hart.chainSection (h : Hart) : List Word :=
  h.recorded.flatMap fun e =>
    [e.pc, e.word.setWidth 64, w64 e.start, e.xa, e.xb, e.vcfg, e.vl,
     match e.pfx with | some p => p.setWidth 64 | none => 0]

/-- Section 7: the operations handed over, each with the failure that it holds (R446), and for the quad's lowest attached hart the latches, the epoch and the open
rendezvous (assumption 34). -/
def State.yokeSection (s : State) (h : Hart) : List Word :=
  let y := s.yoke h.quad
  let latch (l : Latch) : List Word := wordsOf 32768 (l.data.read 0 32768) ++ wordsOf 8192 (l.scales.read 0 8192)
  let fail (o : YokeOp) : List Word :=
    match o.fail with
    | some f => [w64 (1 + f.code * 2 ^ 8 + f.orig * 2 ^ 16), f.tval]
    | none => [0, 0]
  (h.yops.flatMap fun o => [o.word.setWidth 64, o.xa, o.xb, w64 o.prog] ++ fail o) ++
  (if leadOf (y.grants.map fun g => g.1) = some h.id then
     latch y.cur ++ latch y.spare ++ [w64 (y.cur.fmt + y.spare.fmt * 2 ^ 8), w64 y.epoch] ++
     y.rvs.map fun r => w64 ((r.1.foldl (fun n i => n ||| 2 ^ (i % 16)) 0) + (r.2.foldl (fun n i => n ||| 2 ^ (i % 16)) 0) * 2 ^ 16)
   else [])

/-- The elements that a write binding has appended and not written, as its format encodes them; a filled block as its
element patterns and its scale record. A block that has not filled has no encoding yet, since its scale hangs on all of its
elements: they keep their register patterns (R192, R375; assumption 34). -/
def Sleeve.encoded (b : Sleeve) : List Word :=
  if isBlock b.fmt then
    let n := blockElems b.fmt
    let full := b.pend.length / n
    let block (j : Nat) : List Word :=
      let e := blockEncode b.fmt (((b.values.drop (j * n)).take n).map EV.toFV)
      e.2.map w64 ++ [w64 e.1]
    ((List.range full).flatMap block) ++ (b.pend.drop (full * n)).map fun p => w64 p.2
  else b.values.map fun v => w64 (v.encode b.fmt)

/-- Section 8: the bindings. -/
def Hart.streamSection (h : Hart) : List Word :=
  h.sleeves.flatMap fun b =>
    [b.base, b.stride, w64 b.count, w64 (b.fmt + b2n b.write * 256 + b.depth * 2 ^ 16 + b.tag.toNat * 2 ^ 32), b.sbase,
     b.sstride, w64 b.slot, w64 b.reg, w64 b.pos, w64 b.pend.length] ++ b.encoded

/-- Section 9: the copies. -/
def Hart.copySection (h : Hart) : List Word :=
  h.copies.flatMap fun c => [c.tag.setWidth 64, c.desc, w64 c.n, w64 c.pref]

/-- Section 10: the inbox; an inbox that is not used has length 0. -/
def Hart.inboxSection (h : Hart) : List Word :=
  if h.inbox.resv.isEmpty && h.inbox.posted.isEmpty then []
  else w64 h.inbox.resv.length :: ((h.inbox.posted.flatMap fun m => [m.1, m.2]) ++
    h.inbox.resv.map fun r => w64 (r.1.toNat + r.2 * 2 ^ 32))

/-- The freeze fields of a record's header. -/
def Hart.freezeWords (h : Hart) : Word × Word :=
  match h.status with
  | .frozen f => (w64 f.pa, w64 (f.kind + f.elem * 2 ^ 32))
  | _ => (0, 0)

/-- The flags at 0x29 of the header. -/
def Hart.recordFlags (h : Hart) : Nat :=
  match h.status with
  | .hostFault _ _ | .stopped _ _ true => 1
  | .frozen _ => 2
  | _ => 0

/-- A hart's record (R423, R424): reason 0 a pre-emption, 1 a debug inspect. -/
def State.contextRecord (s : State) (reason : Nat) (h : Hart) : List Word :=
  let body :=
    recSection 1 h.scalarSection ++ recSection 2 h.vectorSection ++ recSection 3 h.maskSection ++ recSection 4 h.chainSection ++
    recSection 5 (wordsOf h.lc.scratch (h.scratch.read 0 h.lc.scratch)) ++
    recSection 6 (wordsOf (h.lc.accRows * 128) (h.acc.read 0 (h.lc.accRows * 128))) ++
    recSection 7 (s.yokeSection h) ++ recSection 8 h.streamSection ++ recSection 9 h.copySection ++ recSection 10 h.inboxSection
  let irqs := h.irqs.foldl (fun n i => n ||| 2 ^ i.1) 0
  [w64 (1 + h.ctxid * 2 ^ 32), w64 (128 + 8 * body.length), w64 (s.link.module * 65536 + h.id),
   w64 (h.lc.rank + h.vrb * 2 ^ 32 + s.livePleats h.core * 2 ^ 48 + reason * 2 ^ 56), h.stopPc,
   w64 (h.mode.code + h.recordFlags * 2 ^ 8 + irqs * 2 ^ 16), h.freezeWords.1, h.freezeWords.2] ++
  List.replicate 8 0 ++ body

end Sys2Proof.Machine
end

