-- ==== Sys2Proof/Machine/Sched.lean ====
section
/-! DEFINITION. Kernel descriptors, the placement of launches, pre-emption, the saving and resumption of contexts, and
the decisions of the Mantles (R159 to R166, R420 to R425). -/

namespace Sys2Proof.Machine

/-! ### Kernel descriptors (R159) -/

/-- A kernel descriptor: entry, storage in 16 KiB units, VRB bounds in bytes, attributes and loop levels. -/
structure Kernel where
  entry   : Word
  regs    : Nat
  scratch : Nat
  acc     : Nat
  vmin    : Nat
  vpref   : Nat
  kind    : Nat
  yoke    : Bool
  early   : Bool
  levels  : List (Nat × Nat)
  deriving DecidableEq, Repr

/-- The bytes of a VRB code. -/
def vrbBytes (c : Nat) : Nat := [256, 512, 1024, 2048, 3072, 4096].getD c 256

/-- A loop entry as (kind, trips). -/
def loopLevel (w : Word) : Nat × Nat := (field w 32 2, field w 0 32)

/-- The kernel of eight words; none when they break R159. Every pc is a multiple of 4 (R18), and R159 does not refuse
another entry: bits 1:0 of it are taken as 0, as a handler's address is (assumption 72). -/
def kernelOf (w : List Word) : Option Kernel :=
  let g (i : Nat) : Word := w.getD i 0
  let n := field (g 3) 4 3
  let used := (w.drop 4).take n
  let k : Kernel :=
    { entry := g 0 &&& ~~~3, regs := field (g 1) 0 7, scratch := field (g 1) 7 7, acc := field (g 1) 14 7,
      vmin := vrbBytes (field (g 2) 0 3), vpref := vrbBytes (field (g 2) 4 3), kind := field (g 3) 0 2,
      yoke := flag (g 3) 2, early := flag (g 3) 3, levels := used.map loopLevel }
  let ok :=
    (g 1).toNat < 2 ^ 21 && k.regs + k.scratch + k.acc ≤ 64 && 32 * k.vmin ≤ k.regs * 16384 &&
    (g 2 &&& 0x77) == g 2 && field (g 2) 0 3 ≤ field (g 2) 4 3 && field (g 2) 4 3 ≤ 5 && (g 3).toNat < 128 &&
    k.kind != 3 && 1 ≤ n && n ≤ 4 && (!k.early || k.kind == 2) &&
    (used.all fun e => (e &&& 0x80000003FFFFFFFF) == e && flag e 63 && field e 32 2 != 3 && field e 0 32 != 0) &&
    ((w.drop (4 + n)).take (4 - n)).all (· == 0)
  if ok then some k else none

/-- The harts of a launch: the points of the spatial levels (R160). -/
def Kernel.harts (k : Kernel) : Nat := k.levels.foldl (fun n l => if l.1 = 0 then n else n * l.2) 1

/-- The pool that a hart takes, in 16 KiB units. -/
def Kernel.units (k : Kernel) : Nat := k.regs + k.scratch + k.acc

/-- The coordinates of a flat rank, the last spatial level least significant; temporal levels are at 0 (R160). -/
def coordsOf : List (Nat × Nat) → Nat → List Nat × Nat
  | [], r => ([], r)
  | l :: ls, r =>
    let t := coordsOf ls r
    if l.1 = 0 then (0 :: t.1, t.2) else (t.2 % l.2 :: t.1, t.2 / l.2)

/-- The flattened spatial-over-dies value of coordinates, or none without such a level (R161). -/
def dieOf (levels : List (Nat × Nat)) (coords : List Nat) : Option Nat :=
  let ds := (levels.zip coords).filter fun p => p.1.1 == 2
  if ds.isEmpty then none else some (ds.foldl (fun n p => n * p.1.2 + p.2) 0 % 8)

/-! ### Cores and slots (R161, R162) -/

/-- What placement knows of a core: its key, resident harts by slot, free pool units, and the former quad whose Yoke the
core's quad is to take over in the plan (R363). -/
structure CoreUse where
  core  : Nat
  slots : List Nat
  free  : Nat
  yoke  : Option Nat := none
  deriving DecidableEq, Repr

/-- The core keys of the device, in order of die, cluster and core. -/
def coreKeys : List Nat :=
  (List.range 8).flatMap fun d => (List.range 6).flatMap fun c => (List.range 16).map fun k => d * 128 + c * 16 + k

/-- The pool units of a hart. -/
def Hart.units (h : Hart) : Nat := h.lc.regs + h.lc.scratch / 16384 + h.lc.accRows / 128

/-- The compute harts on their slots. -/
def State.residents (s : State) : List Hart := s.harts.filter fun h => !h.isMantle && !h.gone

/-- A core as its residents leave it; `gone` says which launches to leave out of account. -/
def coreUse (hs : List Hart) (core : Nat) : CoreUse :=
  let mine := hs.filter fun h => h.core == core
  { core := core, slots := mine.map fun h => h.id % 4, free := 64 - mine.foldl (fun n h => n + h.units) 0 }

/-- The cores without the harts of the listed launches. -/
def State.cores (s : State) (without : List Nat) : List CoreUse :=
  let hs := s.residents.filter fun h => !(match h.lc.launch with | some l => without.contains l | none => false)
  coreKeys.map (coreUse hs)

/-- Every core empty (the test of TOO-LARGE). -/
def emptyCores : List CoreUse := coreKeys.map fun c => { core := c, slots := [], free := 64 }

/-- Whether a core takes part in placement (R271). -/
def State.coreWorks (s : State) (core : Nat) : Bool := !(s.laneMap core).2

/-- Whether the Yoke of a core works (R161). -/
def State.yokeWorks (s : State) (core : Nat) : Bool := !(s.yoke (core / 4)).broken

/-- What a hart asks of a slot: units, storage, VRB bounds, the Yoke, and where it must stand; for a hart to be
resumed also the record. -/
structure Ask where
  rank  : Nat
  units : Nat
  regs  : Nat
  vmin  : Nat
  vpref : Nat
  yoke  : Bool
  die   : Option Nat
  clus  : Option Nat            -- cluster key
  quad  : Option Nat            -- quad number in its cluster (R363)
  saved : Option Hart
  deriving DecidableEq, Repr

/-- Whether a saved hart may resume under a grant (R425). -/
def Hart.resumesAt (h : Hart) (vrb : Nat) : Bool :=
  decide (h.vl ≤ vrb * h.grp / h.eb) &&
  (h.vec.ext.all fun e => decide (e.count ≤ vrb / codeBytes e.ew) &&
    (vrb == h.vrb || e.count == 0 || e.lgrp == 0 || e.reg % 2 ^ e.lgrp == 0)) &&
  (h.vec.kc.toList.all fun n => decide (n ≤ 8 * vrb)) && (h.vec.stack.all fun e => decide (e.2 ≤ 8 * vrb))

/-- The lanes that a core's written map lets work: it governs placement from the next decision (R271, R272). -/
def State.mapLanes (s : State) (core : Nat) : Nat := if (s.laneMap core).1 = 15 then 32 else 24

/-- The grant of a hart on a core: the largest code value within the bounds of R162, and for a hart to be resumed one
under which it resumes (R425); none when there is none at or above the minimum. -/
def State.vrbGrant (s : State) (a : Ask) (core : Nat) : Option Nat :=
  let bound := min (min a.vpref (a.regs * 512)) (128 * s.mapLanes core)
  [4096, 3072, 2048, 1024, 512, 256].find? fun v =>
    decide (v ≤ bound) && decide (a.vmin ≤ v) && (match a.saved with | some h => h.resumesAt v | none => true)

/-- Whether the quad of a core can take the Yoke grants of resumed harts: nobody else is attached there (R363). -/
def State.quadFree (s : State) (without : List Nat) (quad : Nat) : Bool :=
  (s.yoke quad).grants.all fun g =>
    match s.hart? g.1 with
    | some h => (match h.lc.launch with | some l => without.contains l | none => false)
    | none => true

/-- Whether a core fits a hart (R161, R363). -/
def State.fits (s : State) (without : List Nat) (a : Ask) (c : CoreUse) : Bool :=
  (match a.die with | some d => c.core / 128 == d | none => true) &&
  (match a.clus with | some k => c.core / 16 == k | none => true) &&
  c.slots.length < 4 && a.units ≤ c.free && s.coreWorks c.core && (s.vrbGrant a c.core).isSome &&
  (!a.yoke || s.yokeWorks c.core) &&
  (match a.quad, a.saved with
   | some q, some h => c.core / 4 % 4 == q && s.quadFree without (c.core / 4) && (c.yoke.isNone || c.yoke == some h.quad)
   | _, _ => true)

/-- The fitting core with the fewest residents, ties to the first (R161). -/
def bestCore : List CoreUse → Option CoreUse
  | [] => none
  | c :: cs =>
    match bestCore cs with
    | some d => if d.slots.length < c.slots.length then some d else some c
    | none => some c

/-- The lowest free slot of a core (assumption 16). -/
def CoreUse.slot (c : CoreUse) : Nat := ((List.range 4).find? fun n => !c.slots.contains n).getD 0

/-- A core after core `k` takes a hart; with a grant the hart brings its Yoke's state into the quad. -/
def CoreUse.take (c : CoreUse) (k : Nat) (a : Ask) : CoreUse :=
  let c := if c.core = k then { c with slots := c.slot :: c.slots, free := c.free - a.units } else c
  match a.quad, a.saved with
  | some _, some h => if c.core / 4 = k / 4 then { c with yoke := some h.quad } else c
  | _, _ => c

/-- Place harts in order (R161): the slot of each, or none when one does not fit. -/
def State.plan (s : State) (without : List Nat) : List Ask → List CoreUse → Option (List (Ask × Nat) × List CoreUse)
  | [], cs => some ([], cs)
  | a :: as, cs =>
    match bestCore (cs.filter (s.fits without a)) with
    | none => none
    | some c =>
      let cs := cs.map fun d => d.take c.core a
      match s.plan without as cs with
      | none => none
      | some r => some ((a, c.core * 4 + c.slot) :: r.1, r.2)

/-! ### What a launch asks for -/

/-- Split the asks of a draw or a launch by kernel. -/
def Kernel.ask (k : Kernel) (rank : Nat) (die clus : Option Nat) : Ask :=
  { rank := rank, units := k.units, regs := k.regs, vmin := k.vmin, vpref := k.vpref, yoke := k.yoke, die := die,
    clus := clus, quad := none, saved := none }

/-- The cluster key of cluster number n (R176). -/
def clusterKey (n : Nat) : Nat := n / 6 * 8 + n % 6

/-- The asks of a launch that has not run (R161). -/
def Kernel.asks (k : Kernel) : List Ask :=
  (List.range k.harts).map fun r => k.ask r (dieOf k.levels (coordsOf k.levels r).1) none

/-- The asks of a draw (R308). -/
def drawAsks (mesh pixel : Kernel) (mharts pharts : Nat) : List Ask :=
  ((List.range mharts).map fun r => mesh.ask r none none) ++
  ((List.range 48).flatMap fun n => (List.range pharts).map fun j =>
    pixel.ask (mharts + pharts * n + j) none (some (clusterKey n)))

/-- The kernel or kernels of a launch. -/
def Launch.kernel (l : Launch) : Option Kernel := kernelOf l.kdesc
def Launch.pixelKernel (l : Launch) : Option Kernel := kernelOf (l.kdesc.drop 8)

/-- The kernel of a rank: that of the pixel harts for a draw's later ranks. -/
def Launch.kernelAt (l : Launch) (mharts rank : Nat) : Option Kernel :=
  if l.draw ∧ mharts ≤ rank then l.pixelKernel else l.kernel

/-- The mesh and pixel harts of a launch's draw. -/
def State.drawShape (s : State) (l : Launch) : Nat × Nat :=
  match s.draw? l.num with
  | some d => (d.mharts, d.pharts)
  | none => (0, 0)

/-- The asks of a launch that has not run. -/
def State.freshAsks (s : State) (l : Launch) : Option (List Ask) :=
  match l.kernel with
  | none => none
  | some k =>
    if l.draw then
      l.pixelKernel.map fun p => drawAsks k p (s.drawShape l).1 (s.drawShape l).2
    else some k.asks

/-- The records of a launch, in ascending rank. -/
def insertRank (h : Hart) : List Hart → List Hart
  | [] => [h]
  | g :: gs => if h.lc.rank < g.lc.rank then h :: g :: gs else g :: insertRank h gs

def State.records (s : State) (l : Nat) : List Hart :=
  (s.sched.saved.filter fun h => h.lc.launch == some l).foldl (fun hs h => insertRank h hs) []

/-- The ask of a record (R161, R363, R425): its die stays where the launch has a spatial-over-dies level, a pixel hart's
cluster stays, and a hart with a grant keeps its quad number. -/
def State.recordAsk (s : State) (l : Launch) (h : Hart) (clus : Option Nat) : Option Ask :=
  (l.kernelAt (s.drawShape l).1 h.lc.rank).map fun k =>
    let pixel := l.draw && h.lc.kind == 2
    { k.ask h.lc.rank (if l.draw then none else dieOf k.levels h.lc.coords)
        (if pixel then some h.cluster else clus) with
      quad := if h.ygrant = 0 then none else some (h.quad % 4), saved := some h }

/-- The clusters whose Yokes the records held grants of (R363). -/
def grantClusters (hs : List Hart) : List Nat := ((hs.filter fun h => h.ygrant != 0).map Hart.cluster).eraseDups

/-- For each cluster of `olds`, the first cluster that takes its harts together, after those before it (R363). -/
def State.planGroups (s : State) (l : Launch) (without : List Nat) (hs : List Hart) :
    List Nat → List CoreUse → Option (List (Ask × Nat) × List CoreUse)
  | [], cs => some ([], cs)
  | o :: os, cs =>
    let group := hs.filter fun h => h.ygrant != 0 && h.cluster == o
    let try' (n : Nat) : Option (List (Ask × Nat) × List CoreUse) :=
      match group.mapM fun h => s.recordAsk l h (some (clusterKey n)) with
      | none => none
      | some as => s.plan without as cs
    match (List.range 48).findSome? try' with
    | none => none
    | some r =>
      match s.planGroups l without hs os r.2 with
      | none => none
      | some q => some (r.1 ++ q.1, q.2)

/-- Where the harts of a waiting launch go, once the listed launches are off their cores; none where it does not fit. -/
def State.planLaunch (s : State) (l : Launch) (without : List Nat) : Option (List (Ask × Nat)) :=
  let cs := s.cores without
  if l.left = 0 then
    match s.freshAsks l with
    | none => none
    | some as => (s.plan without as cs).map fun r => r.1
  else
    let hs := s.records l.num
    match s.planGroups l without hs (grantClusters hs) cs with
    | none => none
    | some r =>
      match (hs.filter fun h => h.ygrant == 0).mapM fun h => s.recordAsk l h none with
      | none => none
      | some as => (s.plan without as r.2).map fun q => r.1 ++ q.1

/-- Whether a launch could never be placed (R161). -/
def State.tooLarge (s : State) (asks : List Ask) : Bool :=
  3072 < asks.length || (s.plan (s.sched.launches.map fun l => l.num) asks emptyCores).isNone

/-! ### Placing (R163) -/

/-- The hart of a rank at its first work item (R163, R308). -/
def State.freshHart (s : State) (l : Launch) (k : Kernel) (rank id vrb : Nat) : Hart :=
  let shape := s.drawShape l
  let coords := if l.draw then k.levels.map fun _ => 0 else (coordsOf k.levels rank).1
  let given := if !l.draw then none
    else if rank < shape.1 then some (0, localBase) else some ((rank - shape.1) / shape.2, 0)
  let pixel := l.draw && shape.1 ≤ rank
  let args := match s.draw? l.num with
    | some d => if pixel then d.pargs else d.margs
    | none => l.args
  let lc : LaunchCtx :=
    { launch := some l.num, ord := l.ord, kind := k.kind, yokeAttr := k.yoke, early := k.early, rank := rank, entry := k.entry,
      args := args, levels := k.levels, coords := coords, given := given, scratch := k.scratch * 16384,
      accRows := k.acc * 128, regs := k.regs, binds := l.binds, acq := [], wdog := l.wdog, part := l.part,
      preempt := false, haltReq := l.haltReq }
  let h := Hart.init id .u k.entry
  { h with
    ctxid := l.ctxid, sptbase := l.space, x := lc.xregs, lc := lc, vec := { h.vec with vrb := w64 vrb }
    status := if l.draw && !pixel then .wait .meshlet else .run }

/-- The vector registers that a restore writes: the positions below each extent's count, zero elsewhere (R425). -/
def keptCells (ext : List Extent) (v : Memory) : Memory :=
  v.filter fun c =>
    match ext.find? fun e => e.reg == c.1 / 4096 with
    | some e => decide (c.1 % 4096 < e.count * codeBytes e.ew)
    | none => false

/-- The status in which a record resumes. -/
def Status.resumed : Status → Status
  | .stopped true i _ => .debugHalt i
  | .stopped false true _ => .wait .meshlet
  | _ => .run

/-- Whether a restore leaves a word of the pool as the record has it: a register word beyond its extent's count becomes
zero, and an error in it ends (R140, R425). -/
def keptWord (ext : List Extent) (e : Nat × Nat) : Bool :=
  e.1 != 0 ||
  match ext.find? fun x => x.reg == e.2 * 8 / 4096 with
  | some x => decide (e.2 * 8 % 4096 < x.count * codeBytes x.ew)
  | none => false

/-- A record restored into slot `id` under a grant (R425): it resumes as TRET resumes a recorded window. -/
def Hart.restored (h : Hart) (id vrb : Nat) : Hart :=
  { h.rerun with
    id := id, status := h.status.resumed, ysave := none
    badPool := h.badPool.filter (keptWord h.vec.ext), weakPool := h.weakPool.filter (keptWord h.vec.ext)
    vec := { h.vec with vrb := w64 vrb, v := keptCells h.vec.ext h.vec.v }
    lc := { h.lc with preempt := false } }

/-- A hart number after a move. -/
def moved (ids : List (Nat × Nat)) (id : Nat) : Nat :=
  match ids.find? fun p => p.1 == id with
  | some p => p.2
  | none => id

/-- The Yoke that a record keeps, put into the quad where its harts stand now (R363, R388). -/
def State.restoreYoke (s : State) (ids : List (Nat × Nat)) (h : Hart) : State :=
  match h.ysave with
  | none => s
  | some y =>
    let quad := moved ids h.id / 16
    let old := s.yoke quad
    let f := moved ids
    s.setYoke { y with
      quad := quad, broken := old.broken
      grants := y.grants.map fun g => (f g.1, g.2)
      rvs := y.rvs.map fun r => (r.1.map f, r.2.map f)
      fill := y.fill.map fun js => js.map f }

/-- Put a hart on its slot. A hart that has left the slot gives way to it, also as the hart on turn. -/
def State.seat (s : State) (h : Hart) : State :=
  if s.h.id = h.id then { s with h := h }
  else { s with others := insertHart h (s.others.filter fun g => g.id != h.id) }

/-- The acquire at device scope on the core of a hart that is placed: when it resumes (R105, R425), and when a WAIT of its
queue has completed before (R157). Another placement acquires nothing (R87). -/
def State.seatAcquire (s : State) (l : Launch) (resumed : Bool) (core : Nat) : State :=
  if resumed || (s.queue? l.q).any Queue.waited then s.acquire core else s

/-- Seat the harts of a plan. -/
def State.seatAll (s : State) (l : Launch) (ids : List (Nat × Nat)) : List (Ask × Nat) → State
  | [] => s
  | (a, id) :: rest =>
    let vrb := (s.vrbGrant a (id / 4)).getD a.vmin
    match a.saved with
    | some h => (((s.restoreYoke ids h).seat (h.restored id vrb)).seatAcquire l true (id / 4)).seatAll l ids rest
    | none =>
      match l.kernelAt (s.drawShape l).1 a.rank with
      | some k => ((s.seat (s.freshHart l k a.rank id vrb)).seatAcquire l false (id / 4)).seatAll l ids rest
      | none => s.seatAll l ids rest

/-- Note the queue served at a level (R165). -/
def State.serveLevel (s : State) (level q : Nat) : State :=
  { s with sched := { s.sched with served := (level, q) :: s.sched.served.filter fun e => e.1 != level } }

/-- The launches that wait to be placed. -/
def State.waiting (s : State) : List Launch := s.sched.launches.filter fun l => l.phase == .waiting

/-- The highest effective level among the launches that wait (R165). -/
def State.topLevel (s : State) : Nat := s.waiting.foldl (fun m l => max m l.eff) 0

/-- Move a launch to the end of the launches, the order of placement. -/
def State.lastPlaced (s : State) (l : Launch) : State :=
  { s with sched := { s.sched with launches := (s.sched.launches.filter fun j => j.num != l.num) ++ [l] } }

/-- Place a launch (R161, R163, R164, R425). Its queue has been served at the top level (R165). -/
def State.place (s : State) (l : Launch) (p : List (Ask × Nat)) : State :=
  let ids := p.filterMap fun a => a.1.saved.map fun h => (h.id, a.2)
  let left := if l.left = 0 then l.harts else l.left
  let s := s.serveLevel s.topLevel l.q
  let s := { s with
    sched := { s.sched with
      saved := s.sched.saved.filter fun h => h.lc.launch != some l.num
      records := s.sched.records.filter fun r => r.launch != l.num } }
  (s.seatAll l ids p).lastPlaced { l with phase := .resident, eff := l.base, left := left, ticks := 0 }

/-! ### Pre-emption (R166, R420) and saving (R420 to R424) -/

/-- The record of a hart: prefetched stream data is not kept (R424), and the lowest attached hart of a quad keeps the
Yoke (R363). -/
def State.record (s : State) (h : Hart) : Hart :=
  let y := s.yoke h.quad
  let lowest := leadOf (y.grants.map fun g => g.1)
  { h with
    sleeves := h.sleeves.map fun b => { b with ahead := 0, held := none }
    ysave := if lowest = some h.id then some y else none }

/-- The confirmed stores of a hart that has stopped are performed, as far as they need not wait (R420 step 2). -/
def State.settleStores (s : State) : State :=
  match s.flushHeld s.h.unconf.length with
  | .ok _ t => t
  | .stop _ _ => s

/-- The bytes of the records of stopped harts (R423, R424). -/
def State.recordsOf (s : State) (l : Nat) (hs : List Hart) : List CtxRecord :=
  hs.map fun h => { launch := l, rank := h.lc.rank, bytes := leBytes (s.contextRecord 0 h) }

/-- The resident harts of a launch. -/
def State.hartsOf (s : State) (l : Nat) : List Hart := s.residents.filter fun h => h.lc.launch == some l

/-- The confirmed stores of a launch's harts are performed, as far as they need not wait (R420 step 2). -/
def State.settleLaunch (s : State) (l : Nat) : State :=
  (s.hartsOf l).foldl (fun t h => t.onHart h.id State.settleStores) s

/-- CONTEXT_SAVE (R420): once every hart of a launch that is being pre-empted has stopped, the confirmed stores are
performed, the records are written, the cores release at device scope and the slots are freed; the launch waits again at
its base level (R164). A store or a release that has to wait holds it back. A launch that is being ended ends here instead,
once its harts are quiet (R168). -/
def State.contextSave (s : State) (l : Nat) : State :=
  match s.launch? l with
  | none => s
  | some k =>
    match k.ends with
    | some code =>
      let t := s.settleLaunch l
      if (t.hartsOf l).all Hart.quiet then t.finishEnd k code else t
    | none =>
    if k.phase = .stopping ∧ (s.hartsOf l).all Hart.hasStopped then
      let s := s.settleLaunch l
      let mine := s.hartsOf l
      if mine.any fun h => !h.unconf.isEmpty || (s.releaseWait h.core).isSome then s
      else
        let recs := mine.map s.record
        let bytes := s.recordsOf l mine
        let s := mine.foldl (fun s h => s.release h.core) s
        let s := (s.releaseYokes l).freeSlots l
        let s := { s with sched := { s.sched with saved := s.sched.saved ++ recs, records := s.sched.records ++ bytes } }
        s.setLaunch { k with phase := if k.left = 0 then .resident else .waiting, eff := k.base }
    else s

/-- CONTEXT_SAVE. -/
def execContextSave (l : Nat) (s : State) : Out := .next (s.contextSave l)

/-! ### Decisions (R165) -/

/-- The oldest of a list of launches. -/
def oldest : List Launch → Option Launch
  | [] => none
  | l :: ls =>
    match oldest ls with
    | some m => if m.num < l.num then some m else some l
    | none => some l

/-- Of queue numbers, the first after `last` in round-robin order. -/
def nextQueue (qs : List Nat) (last : Option Nat) : Option Nat :=
  let least (l : List Nat) : Option Nat := l.foldl (fun m q => some (match m with | some n => min n q | none => q)) none
  match last with
  | none => least qs
  | some n =>
    match least (qs.filter (n < ·)) with
    | some q => some q
    | none => least qs

/-- Step 1 of R165: the launch to place. -/
def State.chosen (s : State) : Option Launch :=
  let ws := s.waiting
  let top := s.topLevel
  let qs := (ws.filter fun l => l.eff == top).map fun l => l.q
  match nextQueue qs ((s.sched.served.find? fun e => e.1 == top).map fun e => e.2) with
  | none => none
  | some q => oldest (ws.filter fun l => l.q == q)

/-- Whether a resident launch may be pre-empted for a waiting one (R165, R414): none of its harts is frozen. -/
def State.mayPreempt (s : State) (w v : Launch) : Bool :=
  v.phase == .resident && (v.base < w.eff || (v.base == w.eff && v.q != w.q && 20 ≤ v.ticks)) &&
  !(s.residents.any fun h => h.lc.launch == some v.num && h.isFrozen)

/-- Victims in order: lowest level first, longest resident first within a level; launches stand in order of placement. -/
def insertVictim (v : Launch) : List Launch → List Launch
  | [] => [v]
  | u :: us => if v.base < u.base ∨ (v.base = u.base ∧ u.ticks < v.ticks) then v :: u :: us else u :: insertVictim v us

/-- The launches that are being pre-empted. -/
def State.stopping (s : State) : List Nat := (s.sched.launches.filter fun l => l.phase == .stopping).map fun l => l.num

/-- Step 3 of R165: take victims until the launch fits; none where no set makes room. -/
def State.victims (s : State) (w : Launch) (off : List Nat) : List Launch → Option (List Nat)
  | [] => none
  | v :: vs =>
    let off := v.num :: off
    if (s.planLaunch w off).isSome then some off else s.victims w off vs

/-- The resident launches that have a hart on a core whose new lane map waits, and that may be pre-empted (R272, R414). -/
def State.laneVictims (s : State) : List Launch :=
  s.sched.launches.filter fun l => l.phase == .resident &&
    ((s.hartsOf l.num).any fun h => s.sched.lanes.any fun e => e.1 == h.core && e.2.2.2) &&
    !((s.hartsOf l.num).any Hart.isFrozen)

/-- One decision (R165): the launches on a core whose new lane map waits are pre-empted (R272), then the oldest launch of the
next queue at the top level is placed, or what makes room for it is pre-empted. None is taken while the queues are stopped
(R149). -/
def State.decision (s : State) : State :=
  if !s.queuesRun then s
  else
    let s := s.laneVictims.foldl (fun t l => t.preemptLaunch l.num) s
    match s.chosen with
    | none => s
    | some w =>
      match s.planLaunch w [] with
      | some p => s.place w p
      | none =>
        let off := s.stopping
        if (s.planLaunch w off).isSome then s
        else
          let vs := (s.sched.launches.filter (s.mayPreempt w)).foldl (fun l v => insertVictim v l) []
          match s.victims w off vs with
          | none => s
          | some ls => (ls.filter fun l => !off.contains l).foldl State.preemptLaunch s

/-- MANTLE_DECISION (R165). -/
def execMantleDecision (s : State) : Out := .next s.decision

/-- SCHEDULER_TICK (R165): 100 µs pass for every resident launch, and a decision follows. -/
def execSchedulerTick (s : State) : Out :=
  let tick (l : Launch) : Launch := if l.phase = .resident then { l with ticks := l.ticks + 1 } else l
  .next { s with sched := { s.sched with launches := s.sched.launches.map tick } }.decision

/-- LEVEL_AGING (R164): 8 ms pass for a waiting launch. -/
def execLevelAging (l : Nat) (s : State) : Out :=
  match s.launch? l with
  | none => .next s
  | some k =>
    if k.phase = .waiting then
      let ceil := match s.queue? k.q with | some q => q.ceiling | none => k.eff
      .next (s.setLaunch { k with eff := if k.eff < ceil then k.eff + 1 else k.eff })
    else .next s

/-- Whether a hart's watchdog counts (R168): it is not halted by the debugger, nor stalled on a page fault that waits for
service. -/
def Hart.wdogCounts (h : Hart) : Bool :=
  match h.status with
  | .debugHalt _ | .ended | .stopped _ _ _ => false
  | .hostFault _ t => t.code != 2 && t.code != 3
  | _ => true

/-- WATCHDOG_EXPIRE (R168): a hart of a launch with a budget reaches it. The Mantle pre-empts nothing while the queues are
stopped (R149). -/
def execWatchdogExpire (h : Nat) (s : State) : Out :=
  match s.hart? h with
  | none => .next s
  | some g =>
    match g.lc.launch with
    | some l => .next (if g.lc.wdog ≠ 0 && g.wdogCounts && s.queuesRun then s.endLaunch l 7 else s)
    | none => .next s

end Sys2Proof.Machine
end

