-- ==== Sys2Proof/Machine/Packet.lean ====
section
/-! DEFINITION. The command packets LAUNCH, WAIT, SIGNAL and DEBUG and what completes them (R154 to R158, R282, R283),
the registers of the queues as events (R153), and the context record that a debug inspect writes (R423, R424). -/

namespace Sys2Proof.Machine

/-! ### Taking a packet (R154, R155) -/

/-- The Mantles reading in a queue's space with the rights its user bit gives (R154). -/
def Queue.who (k : Queue) : Who :=
  { core := 1024, cluster := 0, user := k.user, spt := k.space, part := 0, phys := false }

/-- The ASID of a queue's space. -/
def Queue.asid (k : Queue) : Nat := sptAsid k.space

/-- The packet at head, with first word w, counts as taken: its tag is reported with errors (R154, R155). -/
def State.advance (s : State) (k : Queue) (w : Word) : State :=
  s.setQueue { k with head := (k.head + 1) % 2 ^ 32, etag := w.extractLsb' 32 32 }

/-- Whether the header keeps R155. -/
def headerOk (w : Word) : Bool := 1 ≤ field w 0 8 && field w 0 8 ≤ 5 && field w 8 8 ≤ 1 && field w 24 8 == 0

/-- Whether every earlier packet of a queue has completed. -/
def State.queueIdle (s : State) (k : Queue) : Bool := k.waits.isEmpty && !(s.sched.launches.any fun l => l.q == k.num)

/-- Whether a queue takes its next packet now: enabled, running, with a packet announced, and no launch of it that has
yet to start (R154, R155). -/
def State.mayTake (s : State) (k : Queue) : Bool :=
  s.queuesRun && k.enabled && !k.stopped && k.head != k.tail &&
  !(s.sched.launches.any fun l => l.q == k.num && l.phase == .waiting && l.left == 0)

/-- Take the packet at head of a queue when its kind is `kind`. A fault on reading it or a bad header stops the queue;
`body` answers none where the packet holds back the queue. -/
def State.takePacket (s : State) (q kind : Nat) (body : Queue → List Word → State → Option State) : State :=
  match s.queue? q with
  | none => s
  | some k =>
    if !s.mayTake k then s
    else
      match s.fetchWords k.who (k.ring.toNat + 64 * (k.head % k.size)) 8 with
      | (.error e, t) => if e.waits then s else (t.advance k 0).stopFor q 6 none
      | (.ok ws, t) =>
        let w := ws.getD 0 0
        if !headerOk w then (t.advance k w).stopQueue q 1
        else if field w 0 8 ≠ kind then s
        else if flag w 8 && !s.queueIdle k then s
        else (body k ws (t.advance k w)).getD s

/-- The base level of a packet (R155). -/
def Queue.level (k : Queue) (w : Word) : Nat := min (field w 16 8) k.ceiling

/-- Whether a watermark may be named by a queue (R154, R167): none of a number of 4,096 or above is bound. -/
def State.wmOk (s : State) (k : Queue) (n : Nat) : Bool :=
  match s.wm? n with
  | some w => w.owner == k.asid
  | none => false

/-! ### LAUNCH (R156) -/

/-- The watermarks that a bind word names; a number of 4,096 or above has one of bits 14:12 set (R154). -/
def bindList (w : Word) : List Nat :=
  (List.range 4).filterMap fun i => if flag w (16 * i + 15) then some (field w (16 * i) 15) else none

/-- Whether a LAUNCH packet's reserved bits are zero: those of an entry that names no watermark among them. -/
def launchOk (ws : List Word) : Bool :=
  let g (i : Nat) : Word := ws.getD i 0
  ((List.range 4).all fun i => flag (g 3) (16 * i + 15) || field (g 3) (16 * i + 12) 3 == 0) &&
  (flag (g 4) 15 || field (g 4) 12 3 == 0) && (g 4).toNat < 2 ^ 16 && (g 6).toNat < 2 ^ 32 && g 7 == 0

/-- The launch that has the same context, for the debug settings that a new launch of the context takes over. -/
def State.sibling (s : State) (ctxid : Nat) : Option Launch := s.sched.launches.find? fun l => l.ctxid == ctxid

/-- How many launches a context has had (R14). -/
def State.ordOf (s : State) (ctxid : Nat) : Nat :=
  match s.sched.counts.find? fun e => e.1 == ctxid with
  | some e => e.2
  | none => 0

/-- A new launch of a queue. A debug halt of its context holds for it too (R158). -/
def State.newLaunch (s : State) (k : Queue) (w : Word) (ctxid part : Nat) (kdesc : List Word) (harts : Nat) : Launch :=
  let sib := s.sibling ctxid
  { num := s.sched.nlaunch, ord := s.ordOf (ctxid % 2 ^ 32), q := k.num, seq := k.head, tag := w.extractLsb' 32 32, base := k.level w, eff := k.level w,
    ctxid := ctxid % 2 ^ 32, part := part % 256, phase := .waiting, kdesc := kdesc, args := 0, binds := [], done := none,
    wdog := 0, harts := harts, left := 0, ticks := 0, space := k.space, draw := false,
    trace := sib.bind fun l => l.trace
    sample := match sib with | some l => l.sample | none => 0
    brk := sib.bind fun l => l.brk
    haltReq := s.sched.launches.any fun l => l.ctxid == ctxid && l.haltReq
    ends := none }

/-- Add a launch that waits to be placed. -/
def State.addLaunch (s : State) (l : Launch) : State :=
  { s with sched := { s.sched with
      launches := s.sched.launches ++ [l], nlaunch := s.sched.nlaunch + 1
      counts := (l.ctxid, s.ordOf l.ctxid + 1) :: s.sched.counts.filter fun e => e.1 != l.ctxid } }

/-- LAUNCH (R156): context and partition are the Mantles' choice (assumption 16). -/
def State.takeLaunch (ctxid part : Nat) (k : Queue) (ws : List Word) (s : State) : Option State :=
  let g (i : Nat) : Word := ws.getD i 0
  if !launchOk ws then some (s.stopQueue k.num 1)
  else if (g 1).toNat % 64 ≠ 0 then some (s.stopQueue k.num 2)
  else
    match s.fetchWords k.who (g 1).toNat 8 with
    | (.error e, t) => if e.waits then none else some (t.stopQueue k.num 6)
    | (.ok kd, t) =>
      match kernelOf kd with
      | none => some (t.stopQueue k.num 2)
      | some kn =>
        let binds := bindList (g 3)
        let done := if flag (g 4) 15 then some (field (g 4) 0 15, (g 5).toNat) else none
        let named := binds ++ (match done with | some d => [d.1] | none => [])
        if kn.harts > 3072 || t.tooLarge kn.asks then some (t.stopQueue k.num 3)
        else if !(named.all (t.wmOk k)) then some (t.stopQueue k.num 4)
        else
          some (t.addLaunch { t.newLaunch k (g 0) ctxid part kd kn.harts with
            args := g 2, binds := binds, done := done, wdog := field (g 6) 0 32 })

/-- LAUNCH. -/
def execLaunch (q ctxid part : Nat) (s : State) : Out :=
  .next (s.takePacket q 1 fun k ws t => t.takeLaunch ctxid part k ws)

/-- Every hart of a launch has halted in its last work item (R156): done is published and the launch is gone. The owner of the
watermark was checked when the LAUNCH was taken (R154); R167 does not say that it is checked again, and a watermark that has
passed to another ASID since is published on all the same (DESIGN CHOICE, assumption 84). -/
def State.launchDone (s : State) (l : Nat) : State :=
  match s.launch? l with
  | none => s
  | some k =>
    if k.left = 0 ∧ k.phase = .resident ∧ k.draw = false then
      let s := match k.done with
        | some d => s.publish d.1 d.2
        | none => s
      s.dropLaunch k
    else s

/-- LAUNCH_COMPLETE (R156). -/
def execLaunchComplete (l : Nat) (s : State) : Out := .next (s.launchDone l)

/-! ### WAIT and SIGNAL (R157) -/

/-- Whether a WAIT is satisfied. -/
def State.reached (s : State) (e : Nat × Nat × Nat) : Bool :=
  match s.wm? e.1 with
  | some w => e.2.1 ≤ w.value
  | none => false

/-- A WAIT of a queue has completed: the launches after it acquire where they are placed (R157). -/
def State.noteWaited (s : State) (q : Nat) : State :=
  match s.queue? q with
  | some j => s.setQueue { j with waited := true }
  | none => s

/-- WAIT. -/
def State.takeWait (k : Queue) (ws : List Word) (s : State) : State :=
  let g (i : Nat) : Word := ws.getD i 0
  let n := field (g 1) 0 16
  if (g 1).toNat ≥ 2 ^ 16 || !((ws.drop 3).all (· == 0)) then s.stopQueue k.num 1
  else if 4096 ≤ n ∨ s.wmOk k n = false then s.stopQueue k.num 4
  else
    let e := (n, (g 2).toNat, k.head)
    if s.reached e then s.noteWaited k.num
    else match s.queue? k.num with
      | some j => s.setQueue { j with waits := j.waits ++ [e] }
      | none => s

/-- WAIT (R157). -/
def execWait (q : Nat) (s : State) : Out := .next (s.takePacket q 2 fun k ws t => some (t.takeWait k ws))

/-- Whether a packet of count m comes after one of count n in the ring (R154: counts are modulo 2^32). -/
def later (m n : Nat) : Bool := let d := (m + 2 ^ 32 - n) % 2 ^ 32; d != 0 && decide (d < 2 ^ 31)

/-- The cores on which launches of a queue after packet n stand. -/
def State.coresAfter (s : State) (q n : Nat) : List Nat :=
  (s.residents.filter fun h =>
    s.sched.launches.any fun l => h.lc.launch == some l.num && l.q == q && later l.seq n).map Hart.core

/-- The WAITs of a queue whose watermark has reached their value complete. The completion acquires at device scope for
the packets after it (R157): on the cores of later launches that stand already, and for the others where they are
placed. -/
def State.waitsDone (s : State) (q : Nat) : State :=
  match s.queue? q with
  | none => s
  | some k =>
    let t := ((k.waits.filter s.reached).flatMap fun e => s.coresAfter q e.2.2).eraseDups.foldl State.acquire s
    t.setQueue { k with waits := k.waits.filter fun e => !s.reached e, waited := k.waited || k.waits.any s.reached }

/-- WAIT_COMPLETE (R157). -/
def execWaitComplete (q : Nat) (s : State) : Out := .next (s.waitsDone q)

/-- SIGNAL: publish, and the interrupt when bit 0 of byte 10 is set (R157). Two points R157 leaves open (DESIGN CHOICE,
assumption 84): with the bit set, a vector of 1,024 or above raises nothing and the packet completes; with the bit clear,
bytes 15:12 are not among the bytes that must be zero. -/
def State.takeSignal (k : Queue) (ws : List Word) (s : State) : State :=
  let g (i : Nat) : Word := ws.getD i 0
  let n := field (g 1) 0 16
  let vec := field (g 1) 32 32
  if field (g 1) 17 15 ≠ 0 || !((ws.drop 3).all (· == 0)) then s.stopQueue k.num 1
  else if 4096 ≤ n ∨ s.wmOk k n = false then s.stopQueue k.num 4
  else
    let s := s.publish n (g 2).toNat
    if flag (g 1) 16 && vec < 1024 then s.raise vec else s

/-- SIGNAL (R157). -/
def execSignal (q : Nat) (s : State) : Out := .next (s.takePacket q 3 fun k ws t => some (t.takeSignal k ws))

/-! ### Writing in a queue's space -/

/-- Write the low n bytes of v within one word, in a queue's space, at its home. An address of more than 48 bits, of a local
window or of an aperture has no translation (R58, R427, R445). -/
def State.spacePiece (s : State) (k : Queue) (va n v : Nat) : Except XFault State :=
  if !isMapped va then .error .notPresent
  else match s.translate k.who va .write false with
  | (.error e, _) => .error e
  | (.ok pa, t) =>
    if t.lostPeer pa then .error .bad
    else if t.wordBusy (wordAddr pa) then .error (.busy (wordAddr pa))
    else .ok (t.homeWrite (wordAddr pa) (byteMask (pa % 8) n) (w64 (v % 2 ^ (8 * n) * 2 ^ (8 * (pa % 8)))))

/-- Write words in a queue's space from any byte address on; a fault, or what it waits for. -/
def State.spaceWrite (s : State) (k : Queue) (va : Nat) : List Word → Except XFault State
  | [] => .ok s
  | v :: vs =>
    let n := 8 - va % 8
    match s.spacePiece k va n v.toNat with
    | .error e => .error e
    | .ok t =>
      match (if n = 8 then .ok t else t.spacePiece k (va + n) (8 - n) (v.toNat / 2 ^ (8 * n))) with
      | .error e => .error e
      | .ok u => u.spaceWrite k (va + 8) vs

/-! ### DEBUG (R158, R282) -/

/-- Apply a function to every hart of a context, resident or saved. -/
def State.mapContext (s : State) (ctxid : Nat) (f : Hart → Hart) : State :=
  let g (h : Hart) : Hart := if h.ctxid = ctxid ∧ !h.isMantle then f h else h
  { s.mapHarts g with sched := { s.sched with saved := s.sched.saved.map g } }

/-- Apply a function to every launch of a context. -/
def State.mapLaunches (s : State) (ctxid : Nat) (f : Launch → Launch) : State :=
  { s with sched := { s.sched with launches := s.sched.launches.map fun l => if l.ctxid = ctxid then f l else l } }

/-- Whether a packet may name a context: launched from a queue with the same ASID (R158). -/
def State.inReach (s : State) (k : Queue) (ctxid : Nat) : Bool :=
  s.sched.launches.any fun l => l.ctxid == ctxid && sptAsid l.space == k.asid

/-- Whether the bytes of a DEBUG packet keep R158 and R282: operation op, word at 16 and word at 24. -/
def debugArgsOk (op : Nat) (a b : Word) : Bool :=
  match op with
  | 1 | 2 | 3 => b == 0
  | 4 => a.toNat % 4096 == 0 && 12 ≤ b.toNat && b.toNat ≤ 30
  | 5 | 8 => a == 0 && b == 0
  | 6 => a == 0 && (b == 0 || 4096 ≤ b.toNat)
  | 7 => true
  | _ => false

/-- Take a DEBUG packet of operation op; one whose operation or arguments break the rules stops the queue whichever
event finds it. `f` answers none where the packet has to wait. -/
def State.takeDebug (s : State) (q op : Nat) (f : Queue → Nat → Word → Word → State → Option State) : State :=
  s.takePacket q 5 fun k ws t =>
    let g (i : Nat) : Word := ws.getD i 0
    let ctxid := field (g 1) 0 32
    let found := field (g 1) 32 32
    if (g 1).toNat ≥ 2 ^ 40 || !((ws.drop 4).all (· == 0)) || !debugArgsOk found (g 2) (g 3) then some (t.stopQueue q 1)
    else if found ≠ op then none
    else if !t.inReach k ctxid then some (t.stopQueue q 9)
    else f k ctxid (g 2) (g 3) t

/-- DEBUG_HALT (R158, R283): the context's harts, and those of its launches that are still to be placed. -/
def execDebugHalt (q : Nat) (s : State) : Out :=
  .next (s.takeDebug q 1 fun _ c _ _ t =>
    some ((t.mapContext c fun h => { h with lc := { h.lc with haltReq := true } }).mapLaunches c fun l =>
      { l with haltReq := true }))

/-- Whether a hart is halted by the debugger. -/
def Hart.halted (h : Hart) : Bool :=
  match h.status with
  | .debugHalt _ | .stopped true _ _ => true
  | _ => false

/-- Write the records of the halted and the frozen harts of a context, one after another in ascending rank (R158, R417;
assumption 34). Where some of the harts have halted and others not yet, R158 does not say whether the context is halted: the
records of those that have are written (DESIGN CHOICE, assumption 84). A buffer page that is moving, or a busy word, makes the packet wait (R433). -/
def State.inspect (s : State) (k : Queue) (c : Nat) (buf : Word) : Option State :=
  let hs := (s.residents ++ s.sched.saved).filter fun h => h.ctxid == c && (h.halted || h.isFrozen)
  let recs := (hs.foldl (fun l h => insertRank h l) []).flatMap (s.contextRecord 1)
  match s.spaceWrite k buf.toNat recs with
  | .ok t => some t
  | .error e => if e.waits then none else some (s.stopQueue k.num 6)

/-- DEBUG_INSPECT (R158). -/
def execDebugInspect (q : Nat) (s : State) : Out := .next (s.takeDebug q 2 fun k c a _ t => t.inspect k c a)

/-- A halted hart goes on, with its recorded window if it was stopped in one (R277, R283). -/
def Hart.resume (h : Hart) : Hart :=
  let g := match h.status with | .debugHalt _ => h.rerun | _ => h
  { g with
    lc := { h.lc with haltReq := false }
    halting := false
    status := match h.status with
      | .debugHalt false => .run
      | .debugHalt true => .wait .meshlet
      | .stopped true i p => .stopped false i p
      | w => w }

/-- DEBUG_RESUME (R158). -/
def execDebugResume (q : Nat) (s : State) : Out := .next (s.takeDebug q 3 fun _ c _ _ t => 
    some ((t.mapContext c Hart.resume).mapLaunches c fun l => { l with haltReq := false }))

/-- TRACE_ON (R282): both counts of the ring become 0; a count that cannot be written is left (R281). The ring's address
space is that of the queue whose packet names it. -/
def execTraceOn (q : Nat) (s : State) : Out :=
  .next (s.takeDebug q 4 fun k c a b t =>
    let on (u : State) : State := u.mapLaunches c fun l =>
      { l with trace := some { base := a.toNat, lg := b.toNat, space := k.space, user := k.user } }
    match t.spaceWrite k a.toNat [0, 0] with
    | .ok u => some (on u)
    | .error e => if e.waits then none else some (on t))

/-- TRACE_OFF (R282). -/
def execTraceOff (q : Nat) (s : State) : Out :=
  .next (s.takeDebug q 5 fun _ c _ _ t => some (t.mapLaunches c fun l => { l with trace := none }))

/-- SAMPLE (R282). -/
def execSample (q : Nat) (s : State) : Out :=
  .next (s.takeDebug q 6 fun _ c _ b t => some (t.mapLaunches c fun l => { l with sample := b.toNat }))

/-- STRIP_BREAKPOINT (R282). -/
def execStripBreakpoint (q : Nat) (s : State) : Out :=
  .next (s.takeDebug q 7 fun _ c a b t => some (t.mapLaunches c fun l => { l with brk := some (a, b) }))

/-- CLEAR_BREAKPOINT (R282). -/
def execClearBreakpoint (q : Nat) (s : State) : Out :=
  .next (s.takeDebug q 8 fun _ c _ _ t => some (t.mapLaunches c fun l => { l with brk := none }))

/-- Whether the hart stands at a strip boundary (R283): the instruction that opened its strip was the last to retire, and
nothing of either half is under way. -/
def Hart.atBoundary (h : Hart) : Bool :=
  h.status == .run && h.pending.isEmpty && h.viq.isEmpty && h.unconf.isEmpty && h.instret == h.strip.ret &&
  h.pc == h.strip.pc + 4

/-- DEBUG_STRIP_STOP (R283). -/
def execDebugStripStop (h : Nat) (s : State) : Out :=
  .next (s.onHart h fun s =>
    if s.h.haltDue && s.h.atBoundary then { s with h := { s.h with status := .debugHalt false } } else s)

/-- The hart stops where a pre-emption may land, halted by the debugger (R283): flag 49 marks its open strip. HALT
and the passing of a skipped region complete first, a trap that has been met is taken first (R414), and an access that waits
on the host is cancelled and replayed (R420). -/
def Hart.haltHere (h : Hart) : Hart :=
  let marked := { h with strip := { h.strip with flags := h.strip.flags ||| 2 } }
  match h.status with
  | .wait .handback | .ended | .stopped _ _ _ | .frozen _ | .debugHalt _ => h
  | .wait .wfi => (marked.retired (h.pc + 4)).stopAt (.debugHalt false)
  | .wait .meshlet => { marked with status := .debugHalt true }
  | .hostFault _ _ => marked.stopNow (.debugHalt false)
  | _ => if h.skipping || h.trapMet then { marked with halting := true } else { marked with halting := true }.stopAt (.debugHalt false)

/-- A hart's service timer goes with the access that is cancelled (R414, R436). -/
def State.cancelToken (s : State) : State :=
  match s.h.status with
  | .hostFault t _ => { s with host := { s.host with timers := s.host.timers.filter (· != t) } }
  | _ => s

/-- DEBUG_HALT_TIMEOUT (R283). -/
def execDebugHaltTimeout (h : Nat) (s : State) : Out :=
  .next (s.onHart h fun s =>
    if s.h.lc.haltReq then { s.cancelToken with h := s.h.haltHere } else s)

/-- TRACE_SAMPLE_TICK (R282): with sampling and tracing on, a record of the open strip with flag 51. A record that has to
wait is written when the event comes again. -/
def execTraceSampleTick (h : Nat) (s : State) : Out :=
  .next (s.onHart h fun s =>
    match s.myLaunch with
    | some l =>
      if l.sample = 0 then s
      else
        match s.traceStrip 8 with
        | .ok _ t => t
        | .stop _ _ => s
    | none => s)

/-! ### Queue registers (R153) -/

/-- QNOTIFY (R153, R154). -/
def execQnotify (q : Nat) (v : Word) (s : State) : Out := .next (if q < 1024 then s.qnotify q v else s)

/-- QCTL_ENABLE (R153): a write of QCTL with enable = 1. It waits while a word of the descriptor that it would read has an
outstanding home transaction (R127). -/
def execQctlEnable (q : Nat) (v : Word) (s : State) : Out :=
  .next (if q < 1024 ∧ (s.qctlWait q (v ||| 1)).isNone then s.qctlOn q (v ||| 1) else s)

/-- QCTL_DISABLE (R153): a write of QCTL with enable = 0. -/
def execQctlDisable (q : Nat) (v : Word) (s : State) : Out := .next (if q < 1024 then s.qctlOff q (v &&& ~~~ 1#64) else s)

end Sys2Proof.Machine
end

