-- ==== Sys2Proof/Machine/Trav.lean ====
section
/-! DEFINITION. The TRAV class (R295 to R301): the box and triangle tests, the volume march (R336 to R343), hardware
walks (R323 to R330, R344 to R348), shader-table lookup and random numbers. -/

namespace Sys2Proof.Machine

/-! ### Rays and exact steps -/

/-- A ray: origin and direction, and its interval, in binary32 (R295). -/
structure Ray where
  o    : List Nat
  d    : List Nat
  tmin : Nat
  tmax : Nat
  deriving DecidableEq, Repr

/-- The ray of element i of a run. -/
def Hart.ray (h : Hart) (a i : Nat) : Ray :=
  { o := (List.range 3).map fun f => h.fld a f i, d := (List.range 3).map fun f => h.fld a (3 + f) i,
    tmin := h.fld a 6 i, tmax := h.fld a 7 i }

/-- n binary32 values at offset o of a block of bytes. -/
def floatsAt (v o n : Nat) : List Nat := (List.range n).map fun j => sub' v (o + 4 * j) 4

/-- The exact value of a pattern. -/
def fv (p : Nat) : FV := fmt32.decode p

/-- An exact sum. -/
def FV.plus (a b : FV) : FV := (a.add .rne b).1

/-- An exact product. -/
def FV.times (a b : FV) : FV := (a.mul b).1

/-- An exact difference. -/
def FV.minus (a b : FV) : FV := a.plus b.negate

/-- A value rounded to binary32. -/
def r32 (v : FV) : Nat := (fmt32.deliver .rne v 0).bits

/-- An integer as a value. -/
def intFV (n : Int) : FV := .num ⟨n < 0, n.natAbs, 0, false⟩

/-- The next binary32 value toward +∞; an infinity and a NaN stay (R295). -/
def up32 (p : Nat) : Nat :=
  if nan32 p || p % 2 ^ 31 = inf32 then p
  else if p % 2 ^ 31 = 0 then 1
  else if p < 2 ^ 31 then p + 1
  else p - 1

/-- A value as a unit delivers it: a NaN is the canonical one (R188). -/
def canon32 (p : Nat) : Nat := if nan32 p then nanOf32 else p

/-- −∞. -/
def ninf32 : Nat := inf32 + 2 ^ 31

/-! ### The box test and GBOX (R295) -/

/-- max and min of the box test: NaN when an operand is NaN. -/
def boxMax (p q : Nat) : Nat := if nan32 p || nan32 q then nanOf32 else max32 p q
def boxMin (p q : Nat) : Nat := if nan32 p || nan32 q then nanOf32 else min32 p q

/-- tl and th of an axis. -/
def slab (r : Ray) (lo hi : List Nat) (a : Nat) : Nat × Nat :=
  let id := (fmt32.rcp (r.d.getD a 0)).bits
  let t1 := mul32 (sub32 (lo.getD a 0) (r.o.getD a 0)) id
  let t2 := mul32 (sub32 (hi.getD a 0) (r.o.getD a 0)) id
  if nan32 t1 || nan32 t2 then (ninf32, inf32) else (min32 t1 t2, max32 t1 t2)

/-- The outcome of the box test: hit, entry and exit. -/
structure BoxHit where
  hit : Bool
  te  : Nat
  tx  : Nat
  deriving DecidableEq, Repr

/-- Whether lo ≤ hi on every axis. -/
def boxFull (lo hi : List Nat) : Bool := (List.range 3).all fun a => le32 (lo.getD a 0) (hi.getD a 0)

/-- The test of a box. -/
def boxTest (r : Ray) (lo hi : List Nat) : BoxHit :=
  let x := slab r lo hi 0
  let y := slab r lo hi 1
  let z := slab r lo hi 2
  let te := boxMax (boxMax (boxMax r.tmin x.1) y.1) z.1
  let tx := up32 (up32 (boxMin (boxMin (boxMin r.tmax x.2) y.2) z.2))
  { hit := le32 te tx && boxFull lo hi, te := te, tx := tx }

/-- One element of GBOX. The reference's alignment is checked where R58 checks it (R287). -/
def State.gboxElem (s : State) (d a b : Nat) (i : Nat) : Res Unit :=
  (s.descRead (w64 (s.h.fld64 b 0 i)) 64 64 i).bind fun v s =>
    let r := s.h.ray a i
    let c0 := boxTest r (floatsAt v 0 3) (floatsAt v 12 3)
    let c1 := boxTest r (floatsAt v 24 3) (floatsAt v 36 3)
    let e (c : BoxHit) : Nat := if c.hit then c.te else inf32
    let ref (c : BoxHit) (o : Nat) : Nat := if c.hit then sub' v o 8 else 0
    let first := lt32 (e c1) (e c0)
    let h := s.h.putFs d 0 i (if first then [e c1, e c0] else [e c0, e c1])
    let h := h.putL d 2 i (if first then ref c1 0x38 else ref c0 0x30)
    let h := h.putL d 4 i (if first then ref c0 0x30 else ref c1 0x38)
    .ok () { s with h := h }

/-- GBOX (R295). -/
def execGbox (d a b : Fin 32) (_x _y : Bool) (k : Fin 8) (s : State) : Out :=
  s.vunit (s.h.runUse (s.h.ew == 6) (some ⟨d, 6, true⟩) [⟨a, 8, false⟩, ⟨b, 2, true⟩] k) k
    (fun _ s => .ok () s) (fun _ i s => s.gboxElem d a b i) id

/-! ### The triangle test and GTRI (R296) -/

/-- The outcome of the triangle test before the interval is compared. -/
structure TriHit where
  t   : Nat
  b1  : Nat
  b2  : Nat
  pos : Bool
  deriving DecidableEq, Repr

/-- Whether a value is above zero. -/
def FV.isPos (v : FV) : Bool := (intFV 0).lt v

/-- Whether a value is below zero. -/
def FV.isNeg (v : FV) : Bool := v.lt (intFV 0)

/-- The test of a triangle of nine values; none for a miss whatever the interval. -/
def triTest (r : Ray) (tri : List Nat) : Option TriHit :=
  let dir (a : Nat) : Nat := r.d.getD a 0
  let kz := if lt32 (abs32 (dir 2)) (abs32 (dir 1)) then 1 else 2
  let kz := if lt32 (abs32 (dir kz)) (abs32 (dir 0)) then 0 else kz
  let kx := (kz + 1) % 3
  let ky := (kx + 1) % 3
  let back := (fv (dir kz)).isNeg
  let kx' := if back then ky else kx
  let ky' := if back then kx else ky
  let sx := div32 (dir kx') (dir kz)
  let sy := div32 (dir ky') (dir kz)
  let sz := div32 one32 (dir kz)
  let q (p a : Nat) : Nat := sub32 (tri.getD (3 * p + a) 0) (r.o.getD a 0)
  let x (p : Nat) : FV := fv (fma32 (neg32 sx) (q p kz) (q p kx'))
  let y (p : Nat) : FV := fv (fma32 (neg32 sy) (q p kz) (q p ky'))
  let z (p : Nat) : FV := fv (mul32 sz (q p kz))
  let u := ((x 2).times (y 1)).minus ((y 2).times (x 1))
  let v := ((x 0).times (y 2)).minus ((y 0).times (x 2))
  let w := ((x 1).times (y 0)).minus ((y 1).times (x 0))
  let zero (e : FV) : Bool := r32 e % 2 ^ 31 == 0
  let f := if zero u || zero v || zero w then fmt64 else fmt32
  let rnd (e : FV) : FV := f.decode (f.deliver .rne e 0).bits
  let u := rnd u
  let v := rnd v
  let w := rnd w
  if (u.isNeg || v.isNeg || w.isNeg) && (u.isPos || v.isPos || w.isPos) then none
  else
    let det := rnd ((u.plus v).plus w)
    let t := rnd (((u.times (z 0)).plus (v.times (z 1))).plus (w.times (z 2)))
    if det.eq (intFV 0) then none
    else
      let ratio (n : FV) : Nat := r32 (n.div det).1
      some { t := ratio t, b1 := ratio v, b2 := ratio w, pos := det.isPos }

/-- Whether a time lies in an interval. -/
def inRange (tmin t tmax : Nat) : Bool := le32 tmin t && le32 t tmax

/-- The four fields of GTRI. -/
def triFields (r : Ray) (tri : List Nat) : List Nat :=
  match triTest r tri with
  | some h => if inRange r.tmin h.t r.tmax then [h.t, h.b1, h.b2, if h.pos then one32 else neg32 one32] else [inf32, 0, 0, 0]
  | none => [inf32, 0, 0, 0]

/-- One element of GTRI. The reference's alignment is checked where R58 checks it (R287). -/
def State.gtriElem (s : State) (d a b : Nat) (i : Nat) : Res Unit :=
  (s.descRead (w64 (s.h.fld64 b 0 i)) 4 36 i).bind fun v s =>
    .ok () { s with h := s.h.putFs d 0 i (triFields (s.h.ray a i) (floatsAt v 0 9)) }

/-- GTRI (R296). -/
def execGtri (d a b : Fin 32) (_x _y : Bool) (k : Fin 8) (s : State) : Out :=
  s.vunit (s.h.runUse (s.h.ew == 6) (some ⟨d, 4, false⟩) [⟨a, 8, false⟩, ⟨b, 2, true⟩] k) k
    (fun _ s => .ok () s) (fun _ i s => s.gtriElem d a b i) id

/-! ### Grid space and the DDA (R339, R340) -/

/-- A row (M0, M1, M2, T) applied to a vector, exactly and then rounded; T counts only for a point. -/
def affine (row v : List Nat) (point : Bool) : Nat :=
  let p (j : Nat) : FV := (fv (row.getD j 0)).times (fv (v.getD j 0))
  let e := ((p 0).plus (p 1)).plus (p 2)
  r32 (if point then e.plus (fv (row.getD 3 0)) else e)

/-- Three rows of a matrix of twelve values. -/
def matRow (m : List Nat) (r : Nat) : List Nat := (m.drop (4 * r)).take 4

/-- A ray in grid space: p, d′, the interval, and the cells of each axis. -/
structure GRay where
  p    : List Nat
  d    : List Nat
  tmin : Nat
  tmax : Nat
  n    : List Nat
  deriving DecidableEq, Repr

/-- Whether an axis crosses boundaries. -/
def GRay.moves (g : GRay) (a : Nat) : Bool := g.d.getD a 0 % 2 ^ 31 != 0

/-- Whether an axis runs toward lower cells. -/
def GRay.down (g : GRay) (a : Nat) : Bool := (fv (g.d.getD a 0)).isNeg

/-- The crossing time of boundary b on axis a. -/
def GRay.cross (g : GRay) (a : Nat) (b : Int) : Nat :=
  r32 (((intFV b).minus (fv (g.p.getD a 0))).div (fv (g.d.getD a 0))).1

/-- The entry and exit crossings of cells lo to hi − 1 of an axis. -/
def GRay.entry (g : GRay) (a : Nat) (lo hi : Int) : Nat := g.cross a (if g.down a then hi else lo)
def GRay.exit (g : GRay) (a : Nat) (lo hi : Int) : Nat := g.cross a (if g.down a then lo else hi)

/-- The axes that move. -/
def GRay.axes (g : GRay) : List Nat := (List.range 3).filter g.moves

/-- Where a march starts: nowhere for a faulty ray, nowhere for one that never enters, or a time and its cell. -/
inductive GStart where
  | faulty
  | never
  | at (t : Nat) (c : List Int)
  deriving DecidableEq, Repr

/-- The cell of an axis that holds t. -/
def GRay.cellOf (g : GRay) (t a : Nat) : Int :=
  if g.moves a then
    match (List.range (g.n.getD a 1)).find? fun (c : Nat) => le32 (g.entry a c (c + 1)) t && lt32 t (g.exit a c (c + 1)) with
    | some c => c
    | none => 0
  else floor32 (g.p.getD a 0)

/-- The start of a march (R340). -/
def GRay.start (g : GRay) : GStart :=
  let t0 := g.axes.foldl (fun m a => max32 m (g.entry a 0 (g.n.getD a 1))) g.tmin
  let t1 := g.axes.foldl (fun m a => min32 m (g.exit a 0 (g.n.getD a 1))) g.tmax
  let bad := (g.p.any fun p => !finite32 p) || (g.d.any fun p => !finite32 p) || nan32 g.tmin || nan32 g.tmax ||
    !le32 g.tmin g.tmax || !finite32 t0
  let outside (a : Nat) : Bool :=
    !g.moves a && (let c := floor32 (g.p.getD a 0); c < 0 || (g.n.getD a 1 : Int) ≤ c)
  if bad then .faulty
  else if le32 t1 t0 || (List.range 3).any outside then .never
  else .at t0 ((List.range 3).map (g.cellOf t0))

/-- The exit time of a cell; +∞ when no axis moves. -/
def GRay.exitOf (g : GRay) (c : List Int) : Nat :=
  g.axes.foldl (fun m a => min32 m (g.exit a (c.getD a 0) (c.getD a 0 + 1))) inf32

/-- Step an axis from cell x while the crossing by which it leaves the cell falls at time t. -/
def GRay.stepPast (g : GRay) (a t : Nat) : Nat → Int → Int
  | 0, x => x
  | fuel + 1, x =>
    if 0 ≤ x && decide (x < (g.n.getD a 1 : Int)) && (fv (g.exit a x (x + 1))).eq (fv t) then
      g.stepPast a t fuel (if g.down a then x - 1 else x + 1)
    else x

/-- The next cell: every axis whose exit crossing equals the exit time steps (R339). Where rounding makes the next crossing
of the axis fall at that time too, the cell between them holds no time and is passed: a march enters the cell that holds its
t, as R342 says of the cell that a continuation finds (assumption 83). -/
def GRay.next (g : GRay) (c : List Int) : List Int :=
  let t := g.exitOf c
  (List.range 3).map fun a => let x := c.getD a 0; if g.moves a then g.stepPast a t (g.n.getD a 1) x else x

/-- Whether a cell lies in the grid. -/
def GRay.inside (g : GRay) (c : List Int) : Bool :=
  (List.range 3).all fun a => 0 ≤ c.getD a 0 && c.getD a 0 < (g.n.getD a 1 : Int)

/-! ### The medium and the march (R336 to R341) -/

/-- A medium (R336). -/
structure Medium where
  m     : List Nat
  maj   : Nat
  dens  : Nat
  n     : List Nat
  table : Bool
  key   : Nat
  count : Nat
  deriving DecidableEq, Repr

/-- The medium of a descriptor; none when it breaks R336. -/
def mediumOf (v : Nat) : Option Medium :=
  let q := sub' v 0x40 8
  let table := q.testBit 48
  let count := sub' v 0x50 8
  let key := sub' v 0x48 8
  let ok :=
    sub' v 0x30 8 % 64 == 0 && sub' v 0x38 8 % 64 == 0 && (q &&& 0x103FF03FF03FF) == q && sub' v 0x58 40 == 0 &&
    (if table then key % 4 == 0 && 1 ≤ count && count ≤ 2 ^ 24 else count == 0)
  if ok then
    some { m := floatsAt v 0 12, maj := sub' v 0x30 8, dens := sub' v 0x38 8,
           n := [q % 1024 + 1, q / 2 ^ 16 % 1024 + 1, q / 2 ^ 32 % 1024 + 1], table := table, key := key, count := count }
  else none

/-- The ray in the medium's grid space (R339). -/
def Medium.ray (m : Medium) (r : Ray) : GRay :=
  { p := (List.range 3).map fun j => affine (matRow m.m j) r.o true,
    d := (List.range 3).map fun j => affine (matRow m.m j) r.d false, tmin := r.tmin, tmax := r.tmax, n := m.n }

/-- The binary32 draw of a generator output (R199): u rounded toward zero. -/
def drawFloat (out : Nat) : Nat := (fmt32.round ⟨1, 0⟩ ⟨false, drawOf out, -25, false⟩).bits

/-- The draw with counter C (R338). -/
def State.drawAt (s : State) (m : Medium) (ctr elem : Nat) : Res Nat :=
  if m.table then
    (s.unitBytes (w64 (m.key + 4 * (ctr % m.count))) 4 elem).bind fun p s =>
      .ok (if nan32 p || lt32 p 0x33000000 then 0x33000000 else if le32 one32 p then 0x3F7FFFFF else p) s
  else .ok (drawFloat (randomOut (w64 m.key) (w64 ctr))) s

/-- A binary16 value of a grid, as binary32. -/
def State.half (s : State) (base idx elem : Nat) : Res Nat :=
  (s.unitBytes (w64 (base + 2 * idx)) 2 elem).bind fun p s => .ok (floatToFloat .rne fmt32 (fmt16.decode p)).bits s

/-- A march under way: the time, the cell, the majorant once the cell is occupied, steps and draws taken. -/
structure March where
  t     : Nat
  c     : List Int
  mu    : Option Nat
  steps : Nat
  n     : Nat
  deriving DecidableEq, Repr

/-- How a march ends: 0 SCATTER, 1 EXIT, 2 BUDGET (R300). -/
structure MarchEnd where
  event : Nat
  t     : Nat
  c     : List Int
  steps : Nat
  n     : Nat
  deriving DecidableEq, Repr

def March.stop (m : March) (event t : Nat) : MarchEnd := { event := event, t := t, c := m.c, steps := m.steps, n := m.n }

/-- Leave a cell: the end of the march, or the next cell. -/
def March.leave (m : March) (g : GRay) : MarchEnd ⊕ March :=
  let x := g.exitOf m.c
  if le32 g.tmax x then .inl (m.stop 1 g.tmax)
  else
    let c := g.next m.c
    if g.inside c then .inr { m with t := x, c := c, mu := none } else .inl (m.stop 1 x)

/-- The voxel index of a point of a cell (R341). -/
def voxelOf (g : GRay) (c : List Int) (tc : Nat) : Nat :=
  let v (a : Nat) : Nat :=
    let x := fma32 tc (g.d.getD a 0) (g.p.getD a 0)
    let lo := 8 * c.getD a 0
    (max lo (min (floor32 (mul32 x 0x41000000)) (lo + 7))).toNat
  v 0 + 8 * g.n.getD 0 1 * (v 1 + 8 * g.n.getD 1 1 * v 2)

/-- A flight from t within an occupied cell (R341): the draw, and the tentative collision when it falls before tx. -/
def State.flight (s : State) (g : GRay) (d : Medium) (ctr : Nat → Nat) (elem mu : Nat) (m : March) :
    Res (MarchEnd ⊕ March) :=
  (s.drawAt d (ctr m.n) elem).bind fun u s =>
    let m := { m with n := m.n + 1 }
    let e := (fmt32.log2 u).bits
    let len := neg32 (mul32 e 0x3F317218)
    let tc := add32 m.t (div32 len mu)
    if !lt32 tc (min32 (g.exitOf m.c) g.tmax) then .ok (m.leave g) s
    else
      let m := { m with steps := m.steps + 1 }
      (s.half d.dens (voxelOf g m.c tc) elem).bind fun sig s =>
        let sig := if nan32 sig || (fv sig).isNeg then 0 else sig
        (s.drawAt d (ctr m.n) elem).bind fun u s =>
          let m := { m with n := m.n + 1 }
          .ok (if lt32 u (div32 sig mu) then .inl (m.stop 0 tc) else .inr { m with t := tc }) s

/-- One step of R341: occupy a cell, or one flight in it. -/
def State.marchStep (s : State) (g : GRay) (d : Medium) (ctr : Nat → Nat) (elem : Nat) (m : March) :
    Res (MarchEnd ⊕ March) :=
  if m.steps = 1024 then .ok (.inl (m.stop 2 m.t)) s
  else
    match m.mu with
    | none =>
      let m := { m with steps := m.steps + 1 }
      let c (a : Nat) : Nat := (m.c.getD a 0).toNat
      (s.half d.maj (c 0 + g.n.getD 0 1 * (c 1 + g.n.getD 1 1 * c 2)) elem).bind fun mu s =>
        .ok (if finite32 mu && lt32 0 mu then .inr { m with mu := some mu } else m.leave g) s
    | some mu => s.flight g d ctr elem mu m

/-- March to an end: every second step adds to `steps`, so the fuel suffices. -/
def State.marchOn (s : State) (g : GRay) (d : Medium) (ctr : Nat → Nat) (elem : Nat) : Nat → March → Res MarchEnd
  | 0, m => .ok (m.stop 2 m.t) s
  | fuel + 1, m =>
    (s.marchStep g d ctr elem m).bind fun r s =>
      match r with
      | .inl e => .ok e s
      | .inr m => s.marchOn g d ctr elem fuel m

/-- A march of a ray through a medium, with cell −1 where the ray never enters the grid (R340). -/
def State.march (s : State) (d : Medium) (r : Ray) (ctr : Nat → Nat) (elem : Nat) : Res MarchEnd :=
  let g := d.ray r
  match g.start with
  | .faulty => .ok { event := 1, t := r.tmin, c := [-1, -1, -1], steps := 0, n := 0 } s
  | .never => .ok { event := 1, t := r.tmax, c := [-1, -1, -1], steps := 0, n := 0 } s
  | .at t c => s.marchOn g d ctr elem 4096 { t := t, c := c, mu := none, steps := 0, n := 0 }

/-! ### VMARCH (R300) -/

/-- The output fields of VMARCH. -/
def Hart.putMarch (h : Hart) (d i : Nat) (e : MarchEnd) (ctr : Nat) : Hart :=
  let h := (h.putF d 0 i (canon32 e.t)).putI d 1 i e.event
  let h := (List.range 3).foldl (fun h a => h.putI d (2 + a) i (patOf 32 (e.c.getD a (-1)))) h
  (h.putI d 5 i e.steps).putL d 6 i (ctr % 2 ^ 64)

/-- One element of VMARCH. -/
def State.vmarchElem (s : State) (d a : Nat) (m : Option Medium) (i : Nat) : Res Unit :=
  let ctr := s.h.fld64 a 8 i
  let r := s.h.ray a i
  match m with
  | none => .ok () { s with h := s.h.putMarch d i { event := 3, t := r.tmin, c := [-1, -1, -1], steps := 0, n := 0 } ctr }
  | some m =>
    (s.march m r (fun n => (ctr + n) % 2 ^ 64) i).bind fun e s => .ok () { s with h := s.h.putMarch d i e (ctr + e.n) }

/-- VMARCH (R300). -/
def execVmarch (d a b : Fin 32) (_x : Bool) (k : Fin 8) (s : State) : Out :=
  let ea := s.h.xb b
  s.vunit (s.h.runUse (s.h.ew == 6) (some ⟨d, 8, true⟩) [⟨a, 10, true⟩] k) k
    (fun i s => (s.descRead ea 128 128 i).bind fun v s => .ok (mediumOf v) s)
    (fun m i s => s.vmarchElem d a m i) id

/-! ### VRAND (R301) -/

/-- The result of VRAND for a generator output under a type. -/
def randAs (ew out : Nat) : Nat :=
  match ew with
  | 6 => drawFloat out
  | 7 => (fmt64.round .rne ⟨false, drawOf out, -25, false⟩).bits
  | _ => out

/-- VRAND (R301, R285). -/
def execVrand (d a b : Fin 32) (_x : Bool) (k : Fin 8) (s : State) : Out :=
  let h := s.h
  let g := h.grp
  let wide := h.eb == 4
  let n := if wide then 2 * g else g
  let srcOk := if wide then h.runLegal g ⟨a, 2, true⟩ else h.srcsOk [a.val]
  let u : VUse :=
    { ok := (h.ew == 2 || h.ew == 3 || h.ew == 6 || h.ew == 7) && srcOk && h.destsOk d h.ew g && !overlap d g a n
      srcs := if wide then [] else [a.val]
      reads := [(a.val, 8)]
      masks := [k.val]
      act := some k
      dsts := h.dests d }
  let key := h.xb b
  s.vmap u d k fun h i => ⟨randAs h.ew (randomOut key (w64 (h.vec.elem a 8 i))), 0⟩

/-! ### Walk descriptors and nodes (R323 to R325) -/

/-- A node format descriptor: children, quantised boxes, relative references, node size in 64 B units. -/
structure Nfd where
  c     : Nat
  quant : Bool
  rel   : Bool
  size  : Nat
  deriving DecidableEq, Repr

/-- The offset of the references of a node. -/
def Nfd.refs (f : Nfd) : Nat := ((if f.quant then 16 + 6 * f.c else 24 * f.c) + 7) / 8 * 8

/-- The node format of 16 bytes; none when it breaks R324. -/
def nfdOf (v : Nat) : Option Nfd :=
  let f : Nfd := { c := sub' v 0 1, quant := sub' v 1 1 == 1, rel := sub' v 2 1 == 1, size := sub' v 3 1 }
  let ok := 2 ≤ f.c && f.c ≤ 8 && sub' v 1 1 ≤ 1 && sub' v 2 1 ≤ 1 && 1 ≤ f.size && f.size ≤ 8 && v / 2 ^ 32 == 0 &&
    f.refs + f.c * (if f.rel then 4 else 8) ≤ 64 * f.size
  if ok then some f else none

/-- A walk (R323). -/
structure WalkDesc where
  addr : Word
  root : Nat
  nfds : List Nfd
  mode : Nat
  size : Nat
  base : Nat
  buf  : Nat
  deriving DecidableEq, Repr

/-- The kind of a reference (R325). -/
def refKind (r : Nat) : Nat := r % 8

/-- The address of an absolute reference. -/
def refAddr (r : Nat) : Nat := r / 64 * 64

/-- The node format of a reference of kind 1 or 7. -/
def WalkDesc.nfd (d : WalkDesc) (r : Nat) : Option Nfd := d.nfds[r / 8 % 8]?

/-- Whether a reference passes the check of R325. -/
def WalkDesc.refOk (d : WalkDesc) (r : Nat) : Bool :=
  (refKind r != 1 && refKind r != 7) || (d.nfd r).isSome

/-- The fields of a walk descriptor, for vl elements and a scratchpad size; none when they break R323, R329 or R348. -/
def walkFields (v vl scratch : Nat) : Option (Nat × WalkDesc) :=
  let q := sub' v 0x10 8
  let mode := q % 4
  let size := q / 2 ^ 16 % 2 ^ 12
  let base := sub' v 0x18 8
  let buf := sub' v 0x20 8
  let ok :=
    sub' v 8 8 % 16 == 0 && (q &&& 0x0FFF0703) == q && 256 ≤ size && size ≤ 4032 && size % 64 == 0 && base < 2 ^ 32 &&
    base % 64 == 0 && base + size * vl ≤ scratch && sub' v 0x28 24 == 0 &&
    (if mode < 2 then buf == 0 else buf % 16 == 0 && buf + 1024 * vl ≤ scratch)
  if ok then
    some (q / 2 ^ 8 % 8 + 1,
      { addr := 0, root := sub' v 0 8, nfds := [], mode := mode, size := size, base := base, buf := buf })
  else none

/-- Read the walk descriptor and its node formats; none for DESC-FAULT (R323 to R325). -/
def State.walkDesc (s : State) (ea : Word) (elem : Nat) : Res (Option WalkDesc) :=
  (s.descRead ea 64 64 elem).bind fun v s =>
    match walkFields v s.h.vl s.h.lc.scratch with
    | none => .ok none s
    | some (n, d) =>
      (s.unitBytes (w64 (sub' v 8 8)) (16 * n) elem).bind fun t s =>
        let fs := (List.range n).map fun j => nfdOf (sub' t (16 * j) 16)
        let d := { d with addr := ea, nfds := fs.filterMap id }
        .ok (if fs.all Option.isSome && d.refOk d.root then some d else none) s

/-- A child of a node: reference, absolute, and its box. -/
structure Child where
  ref : Nat
  lo  : List Nat
  hi  : List Nat
  deriving DecidableEq, Repr

/-- A corner of a quantised box (R324): origin + q × 2^(e − 127), rounded once under a mode. -/
def corner (mode v a q : Nat) : Nat :=
  let e : Int := (sub' v (12 + a) 1 : Nat)
  (fmt32.deliver ⟨mode, 0⟩ ((fv (sub' v (4 * a) 4)).plus (.num ⟨false, q, e - 127, false⟩)) 0).bits

/-- A relative reference as an absolute one (R325): the sum is taken modulo 2^64 (R16). -/
def relRef (node v : Nat) : Nat := (((node : Int) + signedOf 26 (v / 64) * 64) % 2 ^ 64).toNat / 64 * 64 + v % 64

/-- The children of a node at an address, from its bytes. -/
def Nfd.children (f : Nfd) (addr v : Nat) : List Child :=
  (List.range f.c).map fun j =>
    let ref := if f.rel then relRef addr (sub' v (f.refs + 4 * j) 4) else sub' v (f.refs + 8 * j) 8
    if f.quant then
      let q (o : Nat) : Nat := sub' v (16 + 6 * j + o) 1
      { ref := ref, lo := (List.range 3).map fun a => corner 2 v a (q a),
        hi := (List.range 3).map fun a => corner 3 v a (q (3 + a) + 1) }
    else { ref := ref, lo := floatsAt v (24 * j) 3, hi := floatsAt v (24 * j + 12) 3 }

/-! ### A walk under way (R327 to R329, R344) -/

/-- A walk: its pending entries, top first; pushes not yet made; the instance it is in; the time from which a march
goes on; the best result with the instance that holds it; s and n of R344; tmax; nodes visited; records written. -/
structure Walk where
  stack  : List WalkEnt
  owed   : List WalkEnt
  inst   : Option Nat
  go     : Option Nat
  bestT  : Nat
  geo    : Nat
  prim   : Nat
  ref    : Nat
  bestSt : Nat
  bestIn : Option Nat
  b12    : Option (Nat × Nat)
  s      : Nat
  n      : Nat
  tmax   : Nat
  visits : Nat
  recs   : List (Nat × Nat)
  ray    : Ray                 -- the ray of the space being walked
  deriving DecidableEq, Repr

/-- What a walk answers: status, result fields, the instance reported, and whether the state is saved. -/
structure WalkEnd where
  st   : Nat
  t    : Nat
  b1   : Nat
  b2   : Nat
  inst : Option Nat
  geo  : Nat
  prim : Nat
  ref  : Nat
  save : Bool
  w    : Walk
  deriving DecidableEq, Repr

/-- An end with a status and a reference alone. -/
def Walk.stop (w : Walk) (st ref : Nat) (save : Bool) : WalkEnd :=
  { st := st, t := 0, b1 := 0, b2 := 0, inst := none, geo := 0, prim := 0, ref := ref, save := save, w := w }

/-- The entries a slot holds (R329). -/
def WalkDesc.cap (d : WalkDesc) : Nat := (d.size - 64) / 8

/-- The box of an entry that no node bounds. -/
def WalkEnt.free (r : Nat) : WalkEnt := { ref := r, te := ninf32, tx := inf32, k := 0 }

/-- A ray in the space of an instance (R327) from the instance's bytes. -/
def instRay (r : Ray) (v : Nat) : Ray :=
  let m := floatsAt v 0 12
  { r with o := (List.range 3).map (fun j => affine (matRow m j) r.o true)
           d := (List.range 3).map (fun j => affine (matRow m j) r.d false) }

/-- The ray of the space that an instance, or none, stands for. -/
def State.spaceRay (s : State) (r : Ray) (inst : Option Nat) (elem : Nat) : Res Ray :=
  match inst with
  | none => .ok r s
  | some a => (s.unitBytes (w64 a) 64 elem).bind fun v s => .ok (instRay r v) s

/-- The first hit child below: insertion in order of entry t, ties by index. -/
def insertEnt (e : WalkEnt) : List WalkEnt → List WalkEnt
  | [] => [e]
  | f :: fs => if lt32 f.te e.te || (fv f.te).eq (fv e.te) then f :: insertEnt e fs else e :: f :: fs

/-- Order entries by entry t, ascending. -/
def sortEnts (es : List WalkEnt) : List WalkEnt := es.foldl (fun l e => insertEnt e l) []

/-- Enter a node of a ray walk (R328): its hit children become pushes, the farthest first. -/
def Walk.enter (w : Walk) (cs : List Child) : Walk :=
  let hits := cs.filterMap fun c =>
    let b := boxTest { w.ray with tmax := w.tmax } c.lo c.hi
    if refKind c.ref ≠ 0 && b.hit then some ({ ref := c.ref, te := b.te, tx := b.tx, k := 0 } : WalkEnt) else none
  { w with owed := (sortEnts hits).reverse }

/-- The query overlaps a box (R346). -/
def overlapsBox (r : Ray) (lo hi : List Nat) : Bool :=
  boxFull lo hi && boxFull r.o r.d &&
    (List.range 3).all fun a => le32 (lo.getD a 0) (r.d.getD a 0) && le32 (r.o.getD a 0) (hi.getD a 0)

/-- Enter a node of an overlap or opening walk (R345): children in ascending index, so the last is pushed first. -/
def Walk.enterAll (w : Walk) (overlap : Bool) (cs : List Child) : Walk :=
  let es := cs.filterMap fun c =>
    if refKind c.ref ≠ 0 && (!overlap || overlapsBox w.ray c.lo c.hi) then some (WalkEnt.free c.ref) else none
  { w with owed := es.reverse }

/-! ### Leaves (R326, R328, R344) -/

/-- A candidate: t, b1, b2 and primitive. -/
structure Cand where
  t    : Nat
  b1   : Nat
  b2   : Nat
  prim : Nat
  deriving DecidableEq, Repr

/-- An opaque candidate becomes the best (R328). -/
def Walk.better (w : Walk) (c : Cand) (geo ref : Nat) : Walk :=
  if lt32 c.t w.bestT then
    { w with bestT := c.t, geo := geo, prim := c.prim, ref := ref, bestSt := 1, bestIn := w.inst,
             b12 := some (c.b1, c.b2), tmax := c.t }
  else w

/-- The answer that a candidate alone gives (R328). -/
def Walk.answer (w : Walk) (st : Nat) (c : Cand) (geo ref : Nat) (save : Bool) : WalkEnd :=
  { st := st, t := c.t, b1 := c.b1, b2 := c.b2, inst := w.inst, geo := geo, prim := c.prim, ref := ref, save := save, w := w }

/-- The triangles of a list from k on (R326, R328): every candidate of a list that is not opaque is returned by itself
(assumption 33). -/
def Walk.tris (w : Walk) (d : WalkDesc) (e : WalkEnt) (v : Nat) : Nat → Nat → WalkEnd ⊕ Walk
  | 0, _ => .inr w
  | left + 1, k =>
    let geo := sub' v 4 4
    match triTest w.ray (floatsAt v (0x10 + 36 * k) 9) with
    | none => w.tris d e v left (k + 1)
    | some h =>
      if inRange w.ray.tmin h.t w.tmax then
        let c : Cand := { t := h.t, b1 := h.b1, b2 := h.b2, prim := (sub' v 8 4 + k) % 2 ^ 32 }
        if sub' v 0xC 1 % 2 = 1 then
          (if d.mode = 1 then .inl (w.answer 1 c geo e.ref false) else (w.better c geo e.ref).tris d e v left (k + 1))
        else
          let w := if left = 0 then w else { w with stack := { e with k := k + 1 } :: w.stack }
          .inl (w.answer 2 c geo e.ref true)
      else w.tris d e v left (k + 1)

/-- The grid ray of a brick (R326): its box mapped onto eight cells an axis (assumption 33). -/
def brickRay (r : Ray) (tmax v : Nat) : GRay :=
  let lo := floatsAt v 0 3
  let hi := floatsAt v 0xC 3
  let f (x : FV) (a : Nat) : Nat :=
    r32 ((x.times (intFV 8)).div ((fv (hi.getD a 0)).minus (fv (lo.getD a 0)))).1
  { p := (List.range 3).map (fun a => f ((fv (r.o.getD a 0)).minus (fv (lo.getD a 0))) a)
    d := (List.range 3).map (fun a => f (fv (r.d.getD a 0)) a), tmin := r.tmin, tmax := tmax, n := [8, 8, 8] }

/-- Step through a brick to its first occupied voxel: its entry t and number. -/
def GRay.voxel (g : GRay) (occ : Nat) : Nat → Nat → List Int → Option (Nat × Nat)
  | 0, _, _ => none
  | fuel + 1, t, c =>
    let v := (c.getD 0 0 + 8 * c.getD 1 0 + 64 * c.getD 2 0).toNat
    if occ.testBit v then some (max32 t g.tmin, v)
    else
      let x := g.exitOf c
      let c' := g.next c
      if le32 g.tmax x || !g.inside c' then none else g.voxel occ fuel x c'

/-- The candidate of a brick (R326). -/
def Walk.brick (w : Walk) (v : Nat) : Option Cand :=
  let g := brickRay w.ray w.tmax v
  match g.start with
  | .at t c =>
    (g.voxel (sub' v 0x40 64) 32 t c).map fun h => { t := h.1, b1 := 0, b2 := 0, prim := (sub' v 0x1C 4 + h.2) % 2 ^ 32 }
  | _ => none

/-- A brick (R326, R328). -/
def Walk.brickLeaf (w : Walk) (d : WalkDesc) (e : WalkEnt) (v : Nat) : WalkEnd ⊕ Walk :=
  let geo := sub' v 0x18 4
  match w.brick v with
  | none => .inr w
  | some c =>
    if sub' v 0x20 1 % 2 = 1 then
      (if d.mode = 1 then .inl (w.answer 1 c geo e.ref false) else .inr (w.better c geo e.ref))
    else .inl (w.answer 2 c geo e.ref true)

/-- A march of a medium leaf ended with BUDGET: the walk stops with it saved, or hands the leaf to the program where the
slot has no room for the march (R329, R344). -/
def Walk.pause (w : Walk) (d : WalkDesc) (e : WalkEnt) (t : Nat) : WalkEnd :=
  if w.stack.length + 2 ≤ d.cap then
    let w := { w with stack := e :: w.stack, go := some t }
    w.stop 6 0 true
  else w.stop 2 e.ref true

/-- The outcome of a medium leaf's march (R344). -/
def Walk.marched (w : Walk) (d : WalkDesc) (e : WalkEnt) (m : MarchEnd) : WalkEnd ⊕ Walk :=
  let w := { w with n := (w.n + m.n) % 2 ^ 16 }
  match m.event with
  | 0 =>
    if d.mode = 1 then .inl { w.stop 5 e.ref false with t := m.t, inst := w.inst }
    else
      .inr { w with bestT := m.t, geo := 0, prim := 0, ref := e.ref, bestSt := 5, bestIn := w.inst,
                    b12 := some (0, 0), tmax := m.t }
  | 2 => .inl (w.pause d e m.t)
  | _ => .inr w

/-- A medium leaf (R344), from time `go` on when a march goes on. A NaN tmin or tmax stays one, so that the ray is faulty
(R340). -/
def State.mediumLeaf (s : State) (d : WalkDesc) (w : Walk) (e : WalkEnt) (go : Option Nat) (elem : Nat) :
    Res (WalkEnd ⊕ Walk) :=
  if refAddr e.ref % 128 ≠ 0 then .ok (.inl (w.stop 7 0 false)) s
  else
    (s.unitBytes (w64 (refAddr e.ref)) 128 elem).bind fun v s =>
      match mediumOf v with
      | none => .ok (.inl (w.stop 7 0 false)) s
      | some m =>
        let r := { w.ray with tmin := go.getD (boxMax w.ray.tmin e.te), tmax := boxMin w.tmax e.tx }
        let ctr (n : Nat) : Nat := w.s * 2 ^ 32 + elem % 2 ^ 16 * 2 ^ 16 + (w.n + n) % 2 ^ 16
        (s.march m r ctr elem).bind fun m s => .ok (w.marched d e m) s

/-! ### One visit (R328, R345 to R347) -/

/-- Read a node and enter it. -/
def State.node (s : State) (d : WalkDesc) (w : Walk) (ref elem : Nat) : Res (WalkEnd ⊕ Walk) :=
  match d.nfd ref with
  | none => .ok (.inl (w.stop 7 0 false)) s
  | some f =>
    (s.unitBytes (w64 (refAddr ref)) (64 * f.size) elem).bind fun v s =>
      let cs := f.children (refAddr ref) v
      .ok (.inr (if d.mode < 2 then w.enter cs else w.enterAll (d.mode == 2) cs)) s

/-- An instance (R327): its marker and its root are pushed and the ray changes. -/
def State.enterInst (s : State) (d : WalkDesc) (w : Walk) (ref elem : Nat) : Res (WalkEnd ⊕ Walk) :=
  if w.inst.isSome || d.cap < w.stack.length + 2 then .ok (.inl (w.stop 2 ref true)) s
  else
    (s.unitBytes (w64 (refAddr ref)) 64 elem).bind fun v s =>
      .ok (.inr { w with stack := WalkEnt.free (sub' v 0x30 8) :: WalkEnt.free 0 :: w.stack,
                         inst := some (refAddr ref), ray := instRay w.ray v }) s

/-- A pop of a ray walk (R325 to R328). -/
def State.visitRay (s : State) (d : WalkDesc) (w : Walk) (e : WalkEnt) (elem : Nat) : Res (WalkEnd ⊕ Walk) :=
  match refKind e.ref with
  | 0 => .ok (.inr w) s
  | 1 | 7 => s.node d w e.ref elem
  | 2 =>
    (s.unitBytes (w64 (refAddr e.ref)) 16 elem).bind fun v s =>
      let n := min (sub' v 0 4) 16
      (s.unitBytes (w64 (refAddr e.ref)) (16 + 36 * n) elem).bind fun v s => .ok (w.tris d e v (n - e.k) e.k) s
  | 3 => (s.unitBytes (w64 (refAddr e.ref)) 128 elem).bind fun v s => .ok (w.brickLeaf d e v) s
  | 4 => s.mediumLeaf d w e none elem
  | 5 => s.enterInst d w e.ref elem
  | _ => .ok (.inl (w.stop 2 e.ref true)) s

/-- Write a record (R348); with 64 written and more of the walk left the batch is full. -/
def Walk.record (w : Walk) (d : WalkDesc) (ref d2 : Nat) : WalkEnd ⊕ Walk :=
  let w := { w with recs := w.recs ++ [(ref, d2)] }
  if w.recs.length = 64 ∧ w.stack ≠ [] then .inl (w.stop (if d.mode = 2 then 3 else 4) 0 true) else .inr w

/-- The squared distance of a far record's centre from the query point, and whether the node is opened (R347). -/
def farTest (q : List Nat) (theta v : Nat) : Nat × Bool :=
  let δ (a : Nat) : FV := fv (r32 ((fv (sub' v (4 * a) 4)).minus (fv (q.getD a 0))))
  let sq (x : FV) : FV := x.times x
  let d2 := r32 (((sq (δ 0)).plus (sq (δ 1))).plus (sq (δ 2)))
  (d2, ((sq (fv theta)).times (fv d2)).lt (sq (fv (sub' v 0xC 4))))

/-- A pop of an overlap or opening walk (R345 to R347). An overlap query with qlo > qhi matches nothing, the root
included. -/
def State.visitQuery (s : State) (d : WalkDesc) (w : Walk) (e : WalkEnt) (elem : Nat) : Res (WalkEnd ⊕ Walk) :=
  match refKind e.ref with
  | 0 => .ok (.inr w) s
  | 1 => s.node d w e.ref elem
  | 7 =>
    if d.mode = 2 then s.node d w e.ref elem
    else
      match d.nfd e.ref with
      | none => .ok (.inl (w.stop 7 0 false)) s
      | some f =>
        (s.unitBytes (w64 (refAddr e.ref + 64 * f.size)) 16 elem).bind fun v s =>
          let t := farTest w.ray.o (w.ray.d.getD 0 0) v
          if t.2 then s.node d w e.ref elem else .ok (w.record d e.ref t.1) s
  | _ => .ok (if d.mode = 2 && !boxFull w.ray.o w.ray.d then .inr w else w.record d e.ref 0) s

/-- The result of a finished walk (R328, R344, R348). -/
def State.walkDone (s : State) (d : WalkDesc) (w : Walk) (r : Ray) (elem : Nat) : Res WalkEnd :=
  if w.bestSt = 0 ∨ 2 ≤ d.mode then .ok { w.stop 0 0 false with t := if d.mode < 2 then inf32 else 0 } s
  else
    let out (b : Nat × Nat) : WalkEnd :=
      { st := w.bestSt, t := w.bestT, b1 := b.1, b2 := b.2, inst := w.bestIn, geo := w.geo, prim := w.prim, ref := w.ref,
        save := false, w := w }
    match w.b12 with
    | some b => .ok (out b) s
    | none =>
      if w.bestSt = 1 ∧ refKind w.ref = 2 then
        (s.spaceRay r w.bestIn elem).bind fun r s =>
          (s.unitBytes (w64 (refAddr w.ref + 8)) 4 elem).bind fun first s =>
            let k := (w.prim + 2 ^ 32 - first) % 2 ^ 32
            (s.unitBytes (w64 (refAddr w.ref + 0x10 + 36 * k)) 36 elem).bind fun v s =>
              match triTest r (floatsAt v 0 9) with
              | some h => .ok (out (h.b1, h.b2)) s
              | none => .ok (out (0, 0)) s
      else .ok (out (0, 0)) s

/-- One action of a walk: a push, the continuation of a march, the end, an instance's end, or a visit. R328 counts each pop;
popping the marker of an instance's end, which names no node, is not counted (DESIGN CHOICE, assumption 84). -/
def State.walkStep (s : State) (d : WalkDesc) (r : Ray) (w : Walk) (elem : Nat) : Res (WalkEnd ⊕ Walk) :=
  match w.owed with
  | e :: es =>
    let w := { w with owed := es }
    if w.stack.length < d.cap then .ok (.inr { w with stack := e :: w.stack }) s else .ok (.inl (w.stop 2 e.ref true)) s
  | [] =>
    match w.stack with
    | [] => (s.walkDone d w r elem).bind fun e s => .ok (.inl e) s
    | e :: es =>
      let u := { w with stack := es }
      match w.go with
      | some t => s.mediumLeaf d { u with go := none } e (some t) elem
      | none =>
        if e.ref = 0 ∧ w.inst.isSome then .ok (.inr { u with inst := none, ray := r }) s
        else if w.visits = 4096 then .ok (.inl (w.stop 6 0 true)) s
        else
          let u := { u with visits := w.visits + 1 }
          if !d.refOk e.ref then .ok (.inl (u.stop 7 0 false)) s
          else if d.mode < 2 then s.visitRay d u e elem
          else s.visitQuery d u e elem

/-- Walk to an end. Pushes, ends of instances and visits are bounded by the visits, so the fuel suffices. -/
def State.walkOn (s : State) (d : WalkDesc) (r : Ray) (elem : Nat) : Nat → Walk → Res WalkEnd
  | 0, w => .ok (w.stop 6 0 true) s
  | fuel + 1, w =>
    (s.walkStep d r w elem).bind fun x s =>
      match x with
      | .inl e => .ok e s
      | .inr w => s.walkOn d r elem fuel w

/-! ### State slots (R329) -/

/-- The scratchpad offset of an element's slot. -/
def WalkDesc.slot (d : WalkDesc) (i : Nat) : Nat := d.base + d.size * i

/-- Read a slot's bytes; an uncorrectable word traps (R415). -/
def State.slotBytes (s : State) (off n : Nat) : Res Nat :=
  if s.h.badPool.any fun e => e.1 == 1 && off ≤ 8 * e.2 && 8 * e.2 < off + n then
    .stop (.trap (uncorrectable (w64 (localBase + off)))) s
  else .ok (s.h.scratch.read off n) (s.readPool 1 off n)

/-- A new walk (R298, R344). -/
def Walk.new (h : Hart) (d : WalkDesc) (r : Ray) : Walk :=
  { stack := [WalkEnt.free d.root], owed := [], inst := none, go := none, bestT := inf32, geo := 0, prim := 0, ref := 0,
    bestSt := 0, bestIn := none, b12 := none, s := h.stripord.toNat % 2 ^ 32, n := 0, tmax := r.tmax, visits := 0,
    recs := [], ray := r }

/-- The instance that a slot's word names. -/
def slotInst (q : Nat) : Option Nat := if q % 2 = 1 then some (q / 64 * 64) else none

/-- What is kept beside a slot with these bytes (assumption 33): that of the walk that wrote them there; where they have
come from another slot, that of the one walk that wrote them. -/
def Hart.memoOf (h : Hart) (off v : Nat) : Option WalkMemo :=
  let same := h.walks.filter fun k => v % 2 ^ (8 * k.image.length) == natOfBytes k.image
  match same.find? fun k => k.slot == off, same with
  | some k, _ => some k
  | none, [k] => some k
  | none, _ => none

/-- The saved walk of element i's slot for a resume; none where the slot is not valid for it (R329). -/
def Walk.load (h : Hart) (d : WalkDesc) (r : Ray) (i v : Nat) : Option Walk :=
  let m := sub' v 0x3A 2
  let q := sub' v 0x28 8
  let p := sub' v 0x30 8
  let st := q / 4 % 16
  let march := p.testBit 1
  let memo := h.memoOf (d.slot i) v
  let ok :=
    sub' v 0 1 % 2 == 1 && sub' v 4 4 == h.ctxid && w64 (sub' v 8 8) == d.addr && m ≤ d.cap && (!march || 2 ≤ m) &&
    (st == 0 || st == 1 || st == 5)
  if ok then
    let word (j : Nat) : Nat := sub' v (0x40 + 8 * j) 8
    let depth := if march then m - 1 else m
    let ents := (List.range depth).map fun j =>
      let e := WalkEnt.free (word (depth - 1 - j))
      match memo with
      | some k => (match k.ents[j]? with | some f => if f.ref = e.ref then f else e | none => e)
      | none => e
    some { stack := ents, owed := (match memo with | some k => k.owed | none => []), inst := slotInst p,
           go := if march then some (word (m - 1) % 2 ^ 32) else none,
           bestT := sub' v 0x10 4, geo := sub' v 0x14 4, prim := sub' v 0x18 4, ref := sub' v 0x20 8, bestSt := st,
           bestIn := slotInst q, b12 := none, s := sub' v 0x1C 4, n := sub' v 0x38 2,
           tmax := min32 (sub' v 0x3C 4) r.tmax, visits := 0, recs := [], ray := r }
  else none

/-- A word of a slot that names an instance. -/
def instWord (inst : Option Nat) (bits : Nat) : Nat := (match inst with | some a => a + 1 | none => 0) + bits

/-- The bytes of a slot from offset 0 and how many they are (R329). -/
def Walk.image (w : Walk) (h : Hart) (d : WalkDesc) : Nat × Nat :=
  let top := match w.go with | some t => [t] | none => []
  let ents := (w.stack.reverse.map fun e => e.ref) ++ top
  let head := 1 + h.ctxid * 2 ^ 32 + d.addr.toNat * 2 ^ 64 + w.bestT * 2 ^ 128 + w.geo * 2 ^ 160 + w.prim * 2 ^ 192 +
    w.s * 2 ^ 224 + w.ref * 2 ^ 256 + instWord w.bestIn (4 * w.bestSt) * 2 ^ 320 +
    instWord w.inst (if w.go.isSome then 2 else 0) * 2 ^ 384 + w.n * 2 ^ 448 + ents.length * 2 ^ 464 + w.tmax * 2 ^ 480
  (head + 2 ^ 512 * packBits 64 ents, 64 + 8 * ents.length)

/-- The hart after a walk's state is saved, or after its resume cleared the slot's valid bit (R329). -/
def Hart.slotAfter (h : Hart) (d : WalkDesc) (i : Nat) (resumed : Bool) (e : WalkEnd) : Hart :=
  let off := d.slot i
  if e.save then
    let b := e.w.image h d
    let img := bytesOfNat b.2 b.1
    { (h.putScratch off b.2 b.1) with
      walks := { slot := off, image := img, ents := e.w.stack, owed := e.w.owed } :: h.walks.filter fun k => k.slot != off }
  else if resumed then
    let v := h.scratch.read off 1
    { h with scratch := h.scratch.write off 1 (v / 2 * 2) }
  else h

/-! ### GWALK (R298) -/

/-- The records of a walk in the result buffer (R348). -/
def Hart.putRecords (h : Hart) (d : WalkDesc) (i : Nat) (recs : List (Nat × Nat)) : Hart :=
  recs.zipIdx.foldl (fun h r => h.putScratch (d.buf + 1024 * i + 16 * r.2) 16 (r.1.1 + r.1.2 * 2 ^ 64)) h

/-- The output fields of GWALK. -/
def Hart.putWalk (h : Hart) (d i : Nat) (e : WalkEnd) (f4 f5 : Nat) : Hart :=
  let h := h.putFs d 0 i [e.t, e.b1, e.b2]
  let h := [e.st, f4, f5, e.geo, e.prim].zipIdx.foldl (fun h v => h.putI d (3 + v.2) i v.1) h
  h.putL d 8 i e.ref

/-- Deliver the end of a walk: its state, its records and its fields, with the instance's index and offset read from the
instance object (R327). -/
def State.walkOut (s : State) (vd : Nat) (d : WalkDesc) (i : Nat) (resumed : Bool) (e : WalkEnd) : Res Unit :=
  let put (f4 f5 : Nat) (s : State) : Res Unit :=
    let h := (s.h.putRecords d i e.w.recs).slotAfter d i resumed e
    .ok () { s with h := h.putWalk vd i e f4 f5 }
  if 2 ≤ d.mode then put e.w.recs.length 0 s
  else
    match e.inst with
    | none => put 0 0 s
    | some a =>
      (s.unitBytes (w64 (a + 0x38)) 8 i).bind fun v s => put (v % 2 ^ 32) (v / 2 ^ 32) s

/-- The answer DESC-FAULT before anything is read. -/
def walkFault (h : Hart) (d : WalkDesc) (r : Ray) : WalkEnd := (Walk.new h d r).stop 7 0 false

/-- Whether a field that an overlap or opening query reads is NaN (R345). -/
def queryNan (mode : Nat) (r : Ray) : Bool :=
  (mode == 2 && (r.o ++ r.d).any nan32) || (mode == 3 && (r.o ++ r.d.take 1).any nan32)

/-- One element of GWALK. The ninth field resumes at 1; R298 gives no meaning to a value other than 0 and 1, and every other
value starts a walk here (DESIGN CHOICE, assumption 84). -/
def State.gwalkElem (s : State) (vd va : Nat) (d : Option WalkDesc) (i : Nat) : Res Unit :=
  let r := s.h.ray va i
  let resumed := s.h.fld va 8 i == 1
  match d with
  | none => .ok () { s with h := s.h.putWalk vd i (walkFault s.h ⟨0, 0, [], 0, 0, 0, 0⟩ r) 0 0 }
  | some d =>
    let run (w : Walk) (s : State) : Res Unit :=
      (if queryNan d.mode r then Res.ok (w.stop 0 0 false) s
       else (s.spaceRay r w.inst i).bind fun ray s => s.walkOn d r i 65536 { w with ray := ray }).bind fun e s =>
        s.walkOut vd d i resumed e
    if resumed then
      (s.slotBytes (d.slot i) d.size).bind fun v s =>
        match Walk.load s.h d r i v with
        | none => .ok () { s with h := s.h.putWalk vd i (walkFault s.h d r) 0 0 }
        | some w => run w s
    else run (Walk.new s.h d r) s

/-- GWALK (R298). -/
def execGwalk (d a b : Fin 32) (_x : Bool) (k : Fin 8) (s : State) : Out :=
  let ea := s.h.xb b
  s.vunit (s.h.runUse (s.h.ew == 6) (some ⟨d, 10, true⟩) [⟨a, 9, false⟩] k) k
    (fun i s => s.walkDesc ea i) (fun w i s => s.gwalkElem d a w i) id

/-! ### GHIT (R299) -/

/-- A shader table. -/
structure Table where
  base   : Nat
  stride : Nat
  count  : Nat
  mult   : Nat
  ray    : Nat
  deriving DecidableEq, Repr

/-- The shader table of a descriptor; none when it breaks R299. -/
def tableOf (v : Nat) : Option Table :=
  let stride := sub' v 8 4
  let ok := sub' v 0 8 % 16 == 0 && 16 ≤ stride && stride ≤ 4096 && stride % 16 == 0 && sub' v 0x14 4 ≤ 15 &&
    sub' v 0x18 4 == 0 && sub' v 0x1C 4 ≤ 1
  if ok then
    some { base := sub' v 0 8, stride := stride, count := sub' v 0xC 4, mult := sub' v 0x10 4, ray := sub' v 0x14 4 }
  else none

/-- The record index of element i; none for NONE. -/
def Table.idx (t : Table) (h : Hart) (a i : Nat) : Option Nat :=
  match h.fld a 3 i with
  | 1 => some (h.fld a 5 i + h.fld a 6 i * t.mult + t.ray)
  | 0 => some t.ray
  | _ => none

/-- Whether element i gives TABLE-RANGE. -/
def Table.range (t : Table) (h : Hart) (a i : Nat) : Bool :=
  match t.idx h a i with
  | some n => t.count ≤ n
  | none => false

/-- Set bit 0 of the sticky word with a far OR (R65, R299). -/
def State.setSticky (s : State) (ea : Word) (elem : Nat) : Res Nat :=
  (s.locate ea 4 true .both false elem).bind fun l t => { t with h := t.h.pinOps }.amoLoc l ea 4 (l.atHome true) .or 1 0

/-- One element of GHIT. The sticky word is set at the first element in TABLE-RANGE among those that this execution processes. -/
def State.ghitElem (s : State) (vd va : Nat) (k : Fin 8) (ea : Word) (t : Option Table) (i : Nat) : Res Unit :=
  let put (addr st : Nat) (s : State) : Res Unit := .ok () { s with h := (s.h.putL vd 0 i addr).putI vd 2 i st }
  match t with
  | none => put 0 4 s
  | some t =>
    match t.idx s.h va i with
    | none => put 0 3 s
    | some n =>
      if t.count ≤ n then
        let before := (List.range' s.h.first (i - s.h.first)).any fun j => s.h.active k j && t.range s.h va j
        if before then put 0 1 s else (s.setSticky (ea + 0x1C) i).bind fun _ s => put 0 1 s
      else
        let addr := (t.base + t.stride * n) % 2 ^ 64
        (s.unitBytes (w64 addr) 8 i).bind fun v s => put addr (if v = 0 then 2 else 0) s

/-- GHIT (R299). -/
def execGhit (d a b : Fin 32) (_x : Bool) (k : Fin 8) (s : State) : Out :=
  let ea := s.h.xb b
  s.vunit (s.h.runUse (s.h.ew == 6) (some ⟨d, 3, true⟩) [⟨a, 10, true⟩] k) k
    (fun i s => (s.descRead ea 32 32 i).bind fun v s => .ok (tableOf v) s)
    (fun t i s => s.ghitElem d a k ea t i) id

end Sys2Proof.Machine
end

