-- ==== Sys2Proof/Machine/Draw.lean ====
section
/-! DEFINITION. Draws (R307 to R322): the DRAW packet, the mesh distributor, the Sash's setup and spans, hierarchical
depth, and the Hem. -/

namespace Sys2Proof.Machine

/-! ### The Hem's and the distributor's accesses (R309, R319, R322) -/

/-- Who reads and writes for a draw: the space and rights of its queue, the partition of its launch. -/
def Draw.who (d : Draw) : Who := { core := 1024, cluster := 0, user := d.user, spt := d.space, part := d.part, phys := false }

/-- An access of the Hem that does not reach its place: a fault, a frozen engine context, or a wait. -/
def State.hemStop (s : State) (d : Draw) (e : XFault) (va : Nat) (n : Need) : Stop × State :=
  match e with
  | .violation pa => (.wait (.engine engHem), s.freezeEngine ⟨engHem, d.ctxid, w64 va, pa, n.kind⟩)
  | x => (x.stop (w64 va) n 0, s)

/-- Where an access of the Hem or the distributor goes (R322). Local windows belong to harts and the apertures to mesh
harts' stores, so that both are refused here (R58, R310, R445). -/
def State.hemPlace (s : State) (d : Draw) (a : Nat) (n : Need) : Res Nat :=
  let va := a % 2 ^ 64
  let r := if isLocal va || isAperture va then (.error .permission, s) else s.translate d.who va n false
  match r with
  | (.error e, t) => let x := t.hemStop d e va n; .stop x.1 x.2
  | (.ok pa, t) =>
    if t.lostPeer pa then .stop (.trap (uncorrectable (w64 va))) t
    else if t.wordBusy (wordAddr pa) then .stop (.wait (.word (wordAddr pa))) t
    else .ok pa t

/-- Read n bytes within a word for a draw. -/
def State.hemRead (s : State) (d : Draw) (va n : Nat) : Res Nat :=
  (s.hemPlace d va .read).bind fun pa t =>
    let a := t.homeRead (wordAddr pa)
    if a.bad then .stop (.trap (uncorrectable (w64 va))) a.s else .ok (wordField a.data (pa % 8) n) a.s

/-- Write the low n bytes of v within a word for a draw; `mask` says which of them. -/
def State.hemWrite (s : State) (d : Draw) (va n v mask : Nat) : Res Unit :=
  (s.hemPlace d va .write).bind fun pa t =>
    .ok () (t.homeWrite (wordAddr pa) (BitVec.ofNat 8 (mask % 2 ^ n * 2 ^ (pa % 8))) (w64 (v % 2 ^ (8 * n) * 2 ^ (8 * (pa % 8)))))

/-- Perform an access for each item, in order. -/
def State.eachHem {α : Type} (s : State) (f : α → State → Res Unit) : List α → Res Unit
  | [] => .ok () s
  | a :: as => (f a s).bind fun _ t => t.eachHem f as

/-- Read a value for each item, in order. -/
def State.gatherHem {α : Type} (s : State) (f : α → State → Res Nat) : List α → Res (List Nat)
  | [] => .ok [] s
  | a :: as => (f a s).bind fun v t => (t.gatherHem f as).bind fun vs u => .ok (v :: vs) u

/-! ### The render target (R319) -/

/-- The bytes of a texel of the target. -/
def Draw.texel (d : Draw) : Nat := if d.format = 1 then 8 else 4

/-- The tiles of an axis. -/
def Draw.tilesX (d : Draw) : Nat := (d.width + 63) / 64
def Draw.tilesY (d : Draw) : Nat := (d.height + 63) / 64

/-- The pixels of a tile that lie in the target, as numbers 64 × row + column. -/
def Draw.inside (d : Draw) (tx ty : Nat) : List Nat :=
  (List.range 4096).filter fun p => 64 * tx + p % 64 < d.width && 64 * ty + p / 64 < d.height

/-- The addresses of a pixel's colour and depth. -/
def Draw.colourAt (d : Draw) (tx ty p : Nat) : Nat := d.colour + (64 * ty + p / 64) * d.cpitch + (64 * tx + p % 64) * d.texel
def Draw.depthAt (d : Draw) (tx ty p : Nat) : Nat := d.depth + (64 * ty + p / 64) * d.dpitch + (64 * tx + p % 64) * 4

/-- The address of a block's recorded depth. -/
def Draw.hizAt (d : Draw) (tx ty b : Nat) : Nat := d.hiz + (ty * d.tilesX + tx) * 256 + 4 * b

/-- Every tile of the target, in ascending (ty, tx). -/
def Draw.tiles (d : Draw) : List (Nat × Nat) :=
  (List.range d.tilesY).flatMap fun ty => (List.range d.tilesX).map fun tx => (tx, ty)

/-- The cluster number whose Sash and Hem own a tile (R313). -/
def tileOwner (tx ty : Nat) : Nat := (tx + 5 * ty) % 48

/-- Replace the draw of a launch. -/
def State.setDraw (s : State) (d : Draw) : State :=
  { s with gfx := { s.gfx with draws := s.gfx.draws.map fun e => if e.launch = d.launch then d else e } }

/-- Everything the device keeps of a draw goes. -/
def State.dropDraw (s : State) (l : Nat) : State :=
  { s with gfx := { s.gfx with
      draws := s.gfx.draws.filter fun d => d.launch != l
      input := s.gfx.input.filter fun p => p.launch != l
      lastOrd := s.gfx.lastOrd.filter fun e => e.2.1 != l
      emits := s.gfx.emits.filter fun e => e.launch != l
      intents := s.gfx.intents.filter fun i => i.launch != l
      tiles := s.gfx.tiles.filter fun t => t.launch != l
      hiz := s.gfx.hiz.filter fun k => k.launch != l } }

/-- The fields of a draw from its packet and render-target descriptor; none when they break R307 or R319. -/
def drawFields (ws ts : List Word) (k : Queue) (early : Bool) (l : Launch) : Option Draw :=
  let g (i : Nat) : Word := ws.getD i 0
  let t (i : Nat) : Word := ts.getD i 0
  let q := t 3
  let d : Draw :=
    { launch := l.num, ord := l.ord, idx := g 3, ntri := field (g 4) 0 32, mharts := field (g 4) 32 16, pharts := field (g 4) 48 8,
      margs := g 6, pargs := g 7, space := k.space, user := k.user, colour := (t 0).toNat, depth := (t 1).toNat,
      hiz := (t 2).toNat, width := field q 0 14 + 1, height := field q 16 14 + 1, format := field q 32 2,
      dmode := field q 36 2, blend := field q 40 2, loadH := flag q 44, cpitch := field (t 4) 0 32,
      dpitch := field (t 4) 32 32, early := early, nextTri := 0, nextMesh := 0, starts := [], doneM := [],
      ctxid := l.ctxid, part := l.part, q := l.q, tag := l.tag, ended := false }
  let ok :=
    d.colour % 128 == 0 && d.depth % 128 == 0 && d.hiz % 128 == 0 && (q &&& 0x13333FFF3FFF) == q && d.format != 3 &&
    d.dmode != 3 && (d.depth != 0 || d.dmode == 0) && d.cpitch % 128 == 0 && d.dpitch % 128 == 0 && t 5 == 0 && t 6 == 0 &&
    t 7 == 0
  if ok then some d else none

/-- Whether a DRAW packet keeps R307. -/
def drawPacketOk (ws : List Word) : Bool :=
  let g (i : Nat) : Word := ws.getD i 0
  let n := field (g 4) 0 32
  let m := field (g 4) 32 16
  let p := field (g 4) 48 8
  (g 1).toNat % 64 == 0 && (g 2).toNat % 64 == 0 && (g 3).toNat % 4 == 0 && 1 ≤ n && n ≤ 2 ^ 24 && 1 ≤ m && m ≤ 768 &&
  1 ≤ p && p ≤ 64 && field (g 4) 56 8 == 0 && (g 5).toNat % 64 == 0

/-- Load the hierarchical depth of a draw (R316). With the load bit set and base 0, of which the spec says nothing, every block
holds +∞ as without the bit (DESIGN CHOICE, assumption 84). -/
def State.loadHiz (s : State) (d : Draw) : Res Unit :=
  if d.loadH ∧ d.hiz ≠ 0 then
    s.eachHem (fun t s =>
      (s.gatherHem (fun b s => s.hemRead d (d.hizAt t.1 t.2 b) 4) (List.range 64)).bind fun vs s =>
        let new := (vs.zipIdx.filter fun v => v.1 != inf32).map fun v =>
          ({ launch := d.launch, tx := t.1, ty := t.2, b := v.2, h := v.1, early := [] } : HBlock)
        .ok () { s with gfx := { s.gfx with hiz := s.gfx.hiz ++ new } }) d.tiles
  else .ok () s

/-- DRAW (R307, R308): it holds back its queue while a draw with the same colour base is in flight. -/
def State.takeDraw (ctxid part : Nat) (k : Queue) (ws : List Word) (s : State) : Option State :=
  let g (i : Nat) : Word := ws.getD i 0
  if !drawPacketOk ws then some (s.stopQueue k.num 2)
  else if s.engFrozen engHem (ctxid % 2 ^ 32) then none
  else
    match s.fetchWords k.who (g 1).toNat 8 with
    | (.error e, t) => if e.waits then none else some (t.stopQueue k.num 6)
    | (.ok md, t) =>
      match t.fetchWords k.who (g 2).toNat 8 with
      | (.error e, t) => if e.waits then none else some (t.stopQueue k.num 6)
      | (.ok pd, t) =>
        match t.fetchWords k.who (g 5).toNat 8 with
        | (.error e, t) => if e.waits then none else some (t.stopQueue k.num 6)
        | (.ok td, t) =>
          match kernelOf md, kernelOf pd with
          | some mkd, some pk =>
            let l := t.newLaunch k (g 0) ctxid part (md ++ pd) 0
            match drawFields ws td k pk.early l with
            | none => some (t.stopQueue k.num 2)
            | some d =>
              let harts := d.mharts + 48 * d.pharts
              if mkd.kind != 1 || pk.kind != 2 || mkd.scratch == 0 || pk.scratch == 0 then some (t.stopQueue k.num 2)
              else if t.gfx.draws.any fun e => e.colour == d.colour then none
              else if t.tooLarge (drawAsks mkd pk d.mharts d.pharts) then some (t.stopQueue k.num 3)
              else
                let u := t.addLaunch { l with draw := true, harts := harts }
                let u := { u with gfx := { u.gfx with draws := u.gfx.draws ++ [d] } }
                match u.loadHiz d with
                | .ok _ v => some v
                | .stop (.trap _) v => some ((v.endLaunch d.launch 10).dropDraw d.launch)
                | .stop _ v => some { s with host := v.host, h := v.h, others := v.others,
                                             sched := { s.sched with queues := s.sched.queues.map fun j =>
                                               if j.num = k.num then k else j } }
          | _, _ => some (t.stopQueue k.num 2)

/-- DRAW. -/
def execDraw (q ctxid part : Nat) (s : State) : Out := .next (s.takePacket q 4 fun k ws t => t.takeDraw ctxid part k ws)

/-! ### A draw that meets a fault (R322) -/

/-- Write the bytes that the choice of a free value keeps of the draw's i-th tile (R322; assumption 20). -/
def State.spillTile (s : State) (d : Draw) (t : Tile) (i : Nat) : State :=
  let put (s : State) (va n v base : Nat) : State :=
    let mask := (List.range n).foldl (fun m b =>
      if Config.targetByte (Nat.pair (Nat.pair d.ctxid d.ord) i) (base + b) then m + 2 ^ b else m) 0
    match s.hemWrite d va n v mask with
    | .ok _ u => u
    | .stop _ _ => s
  (d.inside t.tx t.ty).foldl (fun s p =>
    let s := put s (d.colourAt t.tx t.ty p) d.texel (t.colour.read (p * d.texel) d.texel) (16 * p)
    if d.dmode = 1 then put s (d.depthAt t.tx t.ty p) 4 (t.depth.read (4 * p) 4) (16 * p + 8) else s) s

/-- DRAW-FAULT (R322): the launch ends and its queue stops, also where the launch had ended before and its queue was
enabled again. -/
def State.drawFault (s : State) (d : Draw) : State :=
  let held := s.gfx.tiles.filter fun t => t.launch == d.launch
  let s := held.zipIdx.foldl (fun s t => s.spillTile d t.1 t.2) s
  ((s.endLaunch d.launch 10).dropDraw d.launch).stopFor d.q 10 (some d.tag)

/-- Take a part of the Hem's or the distributor's work: its state, a fault that ends the draw, or a wait. -/
def State.hemDone (s : State) (d : Draw) (r : Res State) : State :=
  match r with
  | .ok a _ => a
  | .stop (.trap _) t => t.drawFault d
  | .stop (.wait (.engine _)) t => { s with host := t.host, h := t.h, others := t.others }
  | .stop _ _ => s

/-! ### The mesh distributor (R309) -/

/-- The three indices of triangle n. -/
def State.triIndices (s : State) (d : Draw) (n : Nat) : Res (List Nat) :=
  s.gatherHem (fun j s => s.hemRead d (d.idx.toNat + 12 * n + 4 * j) 4) (List.range 3)

/-- Add to a vertex list the indices of a triangle that it does not hold. -/
def addVerts (vs : List Nat) : List Nat → List Nat
  | [] => vs
  | i :: is => addVerts (if vs.contains i then vs else vs ++ [i]) is

/-- Cut triangles from n on into a meshlet: its vertex list and its triangles' indices. -/
def State.cutMeshlet (s : State) (d : Draw) : Nat → Nat → List Nat → List (List Nat) → Res (List Nat × List (List Nat))
  | 0, _, vs, ts => .ok (vs, ts) s
  | left + 1, n, vs, ts =>
    if d.ntri ≤ n then .ok (vs, ts) s
    else
      (s.triIndices d n).bind fun is s =>
        let vs' := addVerts vs is
        if 128 < vs'.length then .ok (vs, ts) s else s.cutMeshlet d left (n + 1) vs' (ts ++ [is])

/-- The meshlet record (R309). R309 says of the vertex list alone that it is zero beyond its entries: the local vertex numbers
beyond ntris are 0 here too (DESIGN CHOICE, assumption 84). -/
def meshletRecord (first m : Nat) (vs : List Nat) (ts : List (List Nat)) : List (Nat × Nat × Nat) :=
  [(0, 4, first), (4, 2, vs.length), (6, 2, ts.length), (8, 4, m), (12, 4, 0)] ++
  ((List.range 128).map fun i => (0x10 + 4 * i, 4, vs.getD i 0)) ++
  ((List.range 256).flatMap fun i => (List.range 3).map fun j =>
    (0x210 + 3 * i + j, 1, match ts[i]? with | some t => vs.findIdx (· == t.getD j 0) | none => 0))

/-- A mesh hart starts on meshlet m (R308, R309). -/
def Hart.startMeshlet (h : Hart) (m : Nat) (rec' : List (Nat × Nat × Nat)) : Hart :=
  let h := rec'.foldl (fun h f => h.putScratch f.1 f.2.1 f.2.2) h
  { h with lc := { h.lc with coords := [m], given := some (m, localBase) } }.startItem

/-- The mesh hart that waits for meshlet m. -/
def State.meshHart (s : State) (d : Draw) : Option Hart :=
  s.residents.find? fun h =>
    h.lc.launch == some d.launch && h.lc.kind == 1 && h.lc.rank == d.nextMesh % d.mharts && h.status == .wait .meshlet

/-- The mesh harts that wait when no meshlet is left leave their slots. -/
def State.releaseMesh (s : State) (d : Draw) : State :=
  let ids := (s.residents.filter fun h => h.lc.launch == some d.launch && h.status == .wait .meshlet).map fun h => h.id
  ids.foldl (fun s id => s.onHart id State.leaveSlot) s

/-- MESHLET_DISPATCH (R309): the next meshlet of a draw goes to its hart, when that hart waits for it. -/
def State.dispatch (s : State) (l : Nat) : State :=
  match s.draw? l with
  | none => s
  | some d =>
    if d.ended || d.nextTri == d.ntri then s
    else
      match s.meshHart d with
      | none => s
      | some h =>
        s.hemDone d ((s.cutMeshlet d 256 d.nextTri [] []).bind fun r s =>
          let m := d.nextMesh
          let d' := { d with nextTri := d.nextTri + r.2.length, nextMesh := m + 1, starts := d.starts ++ [(d.nextTri, r.2.length)] }
          let s := (s.setDraw d').onHart h.id fun s => { s with h := s.h.startMeshlet m (meshletRecord d.nextTri m r.1 r.2) }
          .ok (if d'.nextTri = d'.ntri then s.releaseMesh d' else s) s)

/-- MESHLET_DISPATCH. -/
def execMeshletDispatch (l : Nat) (s : State) : Out := .next (s.dispatch l)

/-! ### The Sash (R310 to R317) -/

/-- SASH_NOTIFY (R310): a notify store that waited for room in the input queue is performed: one that the hart executes
retires, and one that was held until it was confirmed leaves the store queue. -/
def execSashNotify (h cluster : Nat) (s : State) : Out :=
  .next (s.onHart h fun s =>
    if s.h.status = .wait (.sash cluster) then
      if s.h.unconf.isEmpty then
        match s.sashStore (apertureBase + 4096 * cluster + 0x40) 0 with
        | .ok _ t => t.finish
        | .stop _ _ => s
      else
        match s.flushHeld 1 with
        | .ok _ t => { t with h := { t.h with status := .run } }
        | .stop _ _ => s
    else s)

/-- A coordinate as an integer multiple of 2^−150. -/
def coord (p : Nat) : Int :=
  match fmt32.decode p with
  | .num x => x.scaled (-150)
  | _ => 0

/-- A triangle in exact coordinates, with its area. -/
structure Setup where
  ax : Int
  ay : Int
  az : Int
  bx : Int
  bY : Int
  bz : Int
  cx : Int
  cy : Int
  cz : Int
  deriving DecidableEq, Repr

/-- The vertices of a staging record. -/
def setupOf (w : List Nat) : Setup :=
  let g (i : Nat) : Int := coord (w.getD (2 + i) 0)
  ⟨g 0, g 1, g 2, g 3, g 4, g 5, g 6, g 7, g 8⟩

/-- The area (R313). -/
def Setup.area (t : Setup) : Int := (t.bx - t.ax) * (t.cy - t.ay) - (t.bY - t.ay) * (t.cx - t.ax)

/-- Whether a point lies on the interior side of the edge from V to W, or on it when it is a top or left edge. -/
def edgeIn (vx vy wx wy px py : Int) : Bool :=
  let e := (wx - vx) * (py - vy) - (wy - vy) * (px - vx)
  decide (0 < e) || (e == 0 && ((wy == vy && decide (wx < vx)) || decide (wy < vy)))

/-- Whether the centre of pixel (x, y) of the target is covered (R313). -/
def Setup.covers (t : Setup) (x y : Nat) : Bool :=
  let px : Int := (2 * x + 1 : Nat) * 2 ^ 149
  let py : Int := (2 * y + 1 : Nat) * 2 ^ 149
  if 0 < t.area then
    edgeIn t.ax t.ay t.bx t.bY px py && edgeIn t.bx t.bY t.cx t.cy px py && edgeIn t.cx t.cy t.ax t.ay px py
  else
    edgeIn t.ax t.ay t.cx t.cy px py && edgeIn t.cx t.cy t.bx t.bY px py && edgeIn t.bx t.bY t.ax t.ay px py

/-- n × 2^e ÷ d rounded RNE to binary32. -/
def ratio32 (n d e : Int) : Nat :=
  if n = 0 then 0 else r32 ((FV.num ⟨n < 0, n.natAbs, e, false⟩).div (intFV d)).1

/-- The nine plane coefficients of a tile (R314): depth, first and second barycentric. -/
def Setup.planes (t : Setup) (tx ty : Nat) : List Nat :=
  let d := t.area
  let bx := t.bx - t.ax
  let bY := t.bY - t.ay
  let bz := t.bz - t.az
  let cx := t.cx - t.ax
  let cy := t.cy - t.ay
  let cz := t.cz - t.az
  let ox : Int := (64 * tx : Nat) * 2 ^ 150 - t.ax
  let oy : Int := (64 * ty : Nat) * 2 ^ 150 - t.ay
  let za := bz * cy - cz * bY
  let zb := cz * bx - bz * cx
  [ratio32 za d 0, ratio32 zb d 0, ratio32 (t.az * d + za * ox + zb * oy) d (-150),
   ratio32 cy d 150, ratio32 (-cx) d 150, ratio32 (cy * ox - cx * oy) d 0,
   ratio32 (-bY) d 150, ratio32 bx d 150, ratio32 (bx * oy - bY * ox) d 0]

/-- The range of tile numbers that coordinates touch on an axis of n tiles. -/
def tileRange (lo hi : Int) (n : Nat) : List Nat :=
  let unit : Int := 64 * 2 ^ 150
  (List.range n).filter fun (i : Nat) => decide (lo ≤ (i + 1 : Int) * unit) && decide ((i : Int) * unit ≤ hi)

/-- The pixels of a tile that a triangle covers. -/
def Setup.tileCover (t : Setup) (d : Draw) (tx ty : Nat) : List Nat :=
  (d.inside tx ty).filter fun p => t.covers (64 * tx + p % 64) (64 * ty + p / 64)

/-- The block of a pixel number. -/
def blockOf (p : Nat) : Nat := 8 * (p / 64 / 8) + p % 64 / 8

/-- The depth plane at a pixel number of a tile (R288). -/
def planeDepth (pl : List Nat) (p : Nat) : Nat := planeAt (pl.getD 0 0) (pl.getD 1 0) (pl.getD 2 0) (p % 64) (p / 64)

/-- The blocks whose covered pixels are removed (R316): wherever the conditions hold (assumption 35). -/
def State.removed (s : State) (d : Draw) (tx ty : Nat) (cover : List Nat) (pl : List Nat) : List Nat :=
  if !d.early || d.dmode == 0 then []
  else
    (List.range 64).filter fun b =>
      let ps := cover.filter fun p => blockOf p == b
      !ps.isEmpty && ps.all fun p => le32 (s.hizAt d.launch tx ty b) (planeDepth pl p)

/-- Record h of a block, with the order of an early update or 0 for none. -/
def State.setHiz (s : State) (l tx ty b h : Nat) (early : Option Nat) : State :=
  let old := s.gfx.hiz.find? fun k => k.launch == l && k.tx == tx && k.ty == ty && k.b == b
  let es := (match old with | some k => k.early | none => []) ++ (match early with | some o => [o] | none => [])
  let rest := s.gfx.hiz.filter fun k => !(k.launch == l && k.tx == tx && k.ty == ty && k.b == b)
  { s with gfx := { s.gfx with hiz := { launch := l, tx := tx, ty := ty, b := b, h := h, early := es } :: rest } }

/-- The early updates of a primitive in a tile (R317). -/
def State.earlyUpdate (s : State) (d : Draw) (tx ty order : Nat) (cover : List Nat) (pl : List Nat) : State :=
  if d.early && d.dmode == 1 && d.blend == 0 then
    (List.range 64).foldl (fun s b =>
      let ps := cover.filter fun p => blockOf p == b
      if ps.length = 64 then
        let top := up32 (ps.foldl (fun m p => max32 m (planeDepth pl p)) ninf32)
        if lt32 top (s.hizAt d.launch tx ty b) then s.setHiz d.launch tx ty b top (some order) else s
      else s) s
  else s

/-- The maximal runs of a list of ascending columns: first column and length. -/
def runsOf : List Nat → List (Nat × Nat)
  | [] => []
  | x :: xs =>
    match runsOf xs with
    | (y, n) :: rs => if x + 1 = y then (x, n + 1) :: rs else (x, 1) :: (y, n) :: rs
    | [] => [(x, 1)]

/-- The twelve words of a span record (R288). -/
def spanWords (tx ty order y x0 len : Nat) (back : Bool) (pl : List Nat) : List Nat :=
  [tx + ty * 2 ^ 16, order, y + x0 * 2 ^ 8 + len * 2 ^ 16 + b2n back * 2 ^ 24] ++ pl

/-- Set up a triangle in one tile: removal, early update, and its spans (R314 to R317). -/
def State.setupTile (s : State) (d : Draw) (cluster order : Nat) (t : Setup) (tile : Nat × Nat) : State :=
  let tx := tile.1
  let ty := tile.2
  let cover := t.tileCover d tx ty
  let pl := t.planes tx ty
  let gone := s.removed d tx ty cover pl
  let kept := cover.filter fun p => !gone.contains (blockOf p)
  let s := s.earlyUpdate d tx ty order cover pl
  let spans := (List.range 64).flatMap fun y =>
    (runsOf ((kept.filter fun p => p / 64 == y).map fun p => p % 64)).map fun r =>
      ({ cluster := cluster, launch := d.launch, words := spanWords tx ty order y r.1 r.2 (decide (t.area < 0)) pl } : Emit)
  { s with gfx := { s.gfx with emits := s.gfx.emits ++ spans } }

/-- The tiles of a Sash that a triangle may touch, in ascending (ty, tx). -/
def Setup.tilesFor (t : Setup) (d : Draw) (cluster : Nat) : List (Nat × Nat) :=
  let xs := tileRange (min t.ax (min t.bx t.cx)) (max t.ax (max t.bx t.cx)) d.tilesX
  let ys := tileRange (min t.ay (min t.bY t.cy)) (max t.ay (max t.bY t.cy)) d.tilesY
  (ys.flatMap fun ty => xs.map fun tx => (tx, ty)).filter fun p => tileOwner p.1 p.2 == cluster

/-- The last order set up by a Sash for a draw, plus one. -/
def State.lastOrder (s : State) (cluster l : Nat) : Nat :=
  match s.gfx.lastOrd.find? fun e => e.1 == cluster && e.2.1 == l with
  | some e => e.2.2
  | none => 0

/-- Whether a staging record is set up and not discarded (R312, R313). -/
def State.accepts (s : State) (d : Draw) (p : Pushed) : Bool :=
  let g (i : Nat) : Nat := p.words.getD i 0
  let order := g 0
  let t := setupOf p.words
  let range := match d.starts[p.mesh]? with
    | some r => decide (r.1 ≤ order) && decide (order < r.1 + r.2)
    | none => false
  s.lastOrder p.cluster d.launch ≤ order && range && g 1 / 4 == 0 && ((List.range 5).all fun i => g (11 + i) == 0) &&
  ((List.range 9).all fun i => finite32 (g (2 + i))) &&
  !((g 1).testBit 0 && decide (t.area < 0)) && !((g 1).testBit 1 && decide (0 < t.area))

/-- Set up or discard a record (R312 to R317). -/
def State.setupRecord (s : State) (d : Draw) (p : Pushed) : State :=
  if s.accepts d p then
    let order := p.words.getD 0 0
    let t := setupOf p.words
    let s := { s with gfx := { s.gfx with lastOrd := (p.cluster, d.launch, order + 1) ::
      (s.gfx.lastOrd.filter fun e => !(e.1 == p.cluster && e.2.1 == d.launch)) } }
    if t.area = 0 then s else (t.tilesFor d p.cluster).foldl (fun s tile => s.setupTile d p.cluster order t tile) s
  else s

/-- Whether a Sash may take the records of meshlet m: every meshlet below it is done (R312). -/
def Draw.below (d : Draw) (m : Nat) : Bool := (List.range m).all d.doneM.contains

/-- The record a Sash takes next: of the records it may take, the first of the lowest meshlet. -/
def State.nextRecord (s : State) (cluster : Nat) : Option (Draw × Pushed) :=
  let ready := s.gfx.input.filterMap fun p =>
    if p.cluster = cluster then
      (match s.draw? p.launch with
       | some d => if d.below p.mesh then some (d, p) else none
       | none => none)
    else none
  ready.foldl (fun best r => match best with
    | some b => if b.1.launch = r.1.launch ∧ r.2.mesh < b.2.mesh then some r else some b
    | none => some r) none

/-- Remove the first equal element. -/
def removeFirst {α : Type} [DecidableEq α] (a : α) : List α → List α
  | [] => []
  | b :: bs => if a = b then bs else b :: removeFirst a bs

/-- SASH_SETUP (R312, R313). -/
def execSashSetup (cluster : Nat) (s : State) : Out :=
  match s.nextRecord cluster with
  | none => .next s
  | some (d, p) =>
    let t := s.setupRecord d p
    .next { t with gfx := { t.gfx with input := removeFirst p t.gfx.input } }

/-! ### Dealing spans (R315, R320) -/

/-- The column count and first column, row and tile of an emitted span. -/
def Emit.shape (e : Emit) : Nat × Nat × Nat × Nat × Nat :=
  let w0 := e.words.getD 0 0
  let w2 := e.words.getD 2 0
  (w0 % 2 ^ 16, w0 / 2 ^ 16, w2 % 256, w2 / 2 ^ 8 % 256, w2 / 2 ^ 16 % 256)

/-- The intents that a Hem holds. -/
def State.hemLoad (s : State) (cluster : Nat) : Nat :=
  (s.gfx.intents.filter fun i => tileOwner (i.px / 64) (i.py / 64) == cluster).length

/-- The pixel hart of lowest rank with a free ring entry (R315). -/
def State.freeHart (s : State) (e : Emit) : Option Hart :=
  lowestRank (s.residents.filter fun h =>
    h.lc.launch == some e.launch && h.lc.kind == 2 && h.cluster == clusterKey e.cluster &&
    (h.spans.filter fun p => !p.solved).length < 64)

/-- Put a span record into the next entry of a hart's ring (R315). An entry that is free again while its record is still the
hart's latest has the new record's words placed at the hart's next SPAN, until which the old ones stay unchanged (R288). -/
def Hart.takeSpan (h : Hart) (e : Emit) : Hart :=
  let off := h.ring % 64 * 64
  let (tx, ty, y, x0, len) := e.shape
  let kept := h.lastSpan.any fun p => p.off == off
  let h := if kept then h else h.putSpan off e.words
  let p : Span := { off := off, tx := tx, ty := ty, order := e.words.getD 1 0, y := y, x0 := x0, len := len,
                    taken := false, solved := false, pend := if kept then e.words else [] }
  { h with ring := h.ring + 1, spans := h.spans ++ [p] }

/-- Deal one emitted span when its Hem has room and a hart a free entry. -/
def State.deal (s : State) (e : Emit) : Option State :=
  let (tx, ty, y, x0, len) := e.shape
  if 16384 < s.hemLoad e.cluster + len then none
  else
    match s.freeHart e with
    | none => none
    | some h =>
      let new := (List.range len).map fun i =>
        ({ launch := e.launch, px := 64 * tx + x0 + i, py := 64 * ty + y, order := e.words.getD 1 0, frag := .empty } : Intent)
      let t := s.onHart h.id fun s => { s with h := s.h.takeSpan e }
      some { t with gfx := { t.gfx with intents := t.gfx.intents ++ new, emits := removeFirst e t.gfx.emits } }

/-- The first span of each draw that a Sash has emitted. -/
def firstEmits (cluster : Nat) : List Nat → List Emit → List Emit
  | _, [] => []
  | seen, e :: es =>
    if e.cluster = cluster ∧ !seen.contains e.launch then e :: firstEmits cluster (e.launch :: seen) es
    else firstEmits cluster seen es

/-- SPAN_EMIT (R320). -/
def execSpanEmit (cluster : Nat) (s : State) : Out :=
  .next (((firstEmits cluster [] s.gfx.emits).findSome? s.deal).getD s)

/-! ### The Hem (R320 to R322) -/

/-- A tile of the tile store. -/
def State.tile? (s : State) (l tx ty : Nat) : Option Tile :=
  s.gfx.tiles.find? fun t => t.launch == l && t.tx == tx && t.ty == ty

/-- Replace a tile. -/
def State.setTile (s : State) (t : Tile) : State :=
  { s with gfx := { s.gfx with tiles := s.gfx.tiles.map fun u =>
      if u.launch = t.launch ∧ u.tx = t.tx ∧ u.ty = t.ty then t else u } }

/-- Whether a pixel's intent of a draw lies in a tile. -/
def Intent.inTile (i : Intent) (l tx ty : Nat) : Bool := i.launch == l && i.px / 64 == tx && i.py / 64 == ty

/-- HEM_TILE_LOAD (R322): at the first intent of a tile, while the Hem holds fewer than 32. -/
def State.loadTile (s : State) (l tx ty : Nat) : State :=
  match s.draw? l with
  | none => s
  | some d =>
    let held := (s.gfx.tiles.filter fun t => tileOwner t.tx t.ty == tileOwner tx ty).length
    if (s.tile? l tx ty).isSome || 32 ≤ held || !(s.gfx.intents.any fun i => i.inTile l tx ty) || s.engFrozen engHem d.ctxid then s
    else
      let ps := d.inside tx ty
      s.hemDone d ((s.gatherHem (fun p s => s.hemRead d (d.colourAt tx ty p) d.texel) ps).bind fun cs s =>
        (s.gatherHem (fun p s => s.hemRead d (d.depthAt tx ty p) 4) (if d.dmode = 0 then [] else ps)).bind fun zs s =>
          let fill (n : Nat) (vs : List Nat) : Memory := (ps.zip vs).foldl (fun m e => m.write (e.1 * n) n e.2) []
          let t : Tile := { launch := l, tx := tx, ty := ty, colour := fill d.texel cs, depth := fill 4 zs }
          .ok { s with gfx := { s.gfx with tiles := s.gfx.tiles ++ [t] } } s)

/-- HEM_TILE_LOAD. -/
def execHemTileLoad (l tx ty : Nat) (s : State) : Out := .next (s.loadTile l tx ty)

/-- Write a tile back (R322). -/
def State.writeTile (s : State) (d : Draw) (t : Tile) : Res Unit :=
  let ps := d.inside t.tx t.ty
  (s.eachHem (fun p s => s.hemWrite d (d.colourAt t.tx t.ty p) d.texel (t.colour.read (p * d.texel) d.texel) 255) ps).bind
    fun _ s =>
      if d.dmode = 1 then
        s.eachHem (fun p s => s.hemWrite d (d.depthAt t.tx t.ty p) 4 (t.depth.read (4 * p) 4) 255) ps
      else .ok () s

/-- Drop a tile from the tile store. -/
def State.dropTile (s : State) (l tx ty : Nat) : State :=
  { s with gfx := { s.gfx with tiles := s.gfx.tiles.filter fun u => !(u.launch == l && u.tx == tx && u.ty == ty) } }

/-- HEM_TILE_EVICT (R322): a tile without a pending intent. -/
def State.evictTile (s : State) (l tx ty : Nat) : State :=
  match s.draw? l, s.tile? l tx ty with
  | some d, some t =>
    if (s.gfx.intents.any fun i => i.inTile l tx ty) || s.engFrozen engHem d.ctxid then s
    else s.hemDone d ((s.writeTile d t).bind fun _ s => .ok (s.dropTile l tx ty) s)
  | _, _ => s

/-- HEM_TILE_EVICT. -/
def execHemTileEvict (l tx ty : Nat) (s : State) : Out := .next (s.evictTile l tx ty)

/-- The stored colour as four channels (R321). -/
def Draw.colourOf (d : Draw) (v : Nat) : List Nat :=
  match d.format with
  | 0 => (List.range 4).map fun c => unorm8 (sub' v c 1)
  | 1 => (List.range 4).map fun c => (floatToFloat .rne fmt32 (fmt16.decode (sub' v (2 * c) 2))).bits
  | _ => [v, 0, 0, 0]

/-- A channel as RGBA8 stores it: clamped, × 255 exactly, to the nearest integer, ties to even; NaN as 0 (R321). -/
def storeUnorm8 (c : Nat) : Nat :=
  match fv (min32 (max32 c 0) one32) with
  | .num x => if nan32 c then 0 else ({ x with m := x.m * 255 }.toInt .rne).1.toNat
  | _ => 0

/-- Four channels as the target stores them (R321). -/
def Draw.stored (d : Draw) (c : List Nat) : Nat :=
  match d.format with
  | 0 => packBits 8 (c.map storeUnorm8)
  | 1 => packBits 16 (c.map fun p => (floatToFloat .rne fmt16 (fv p)).bits)
  | _ => let r := c.getD 0 0; if nan32 r then nanOf32 else r

/-- One channel blended (R321): stored d, source s and source alpha. -/
def blendOne (mode d s sa : Nat) : Nat :=
  let t := sub32 one32 sa
  match mode with
  | 0 => s
  | 1 => fma32 s sa (mul32 d t)
  | 2 => add32 s d
  | _ => fma32 d t s

/-- A fragment meets a tile (R321): the tile, and whether it wrote depth. -/
def Tile.release (t : Tile) (d : Draw) (p : Nat) (s : List Nat) (z : Nat) : Tile × Bool :=
  if d.dmode ≠ 0 ∧ lt32 z (t.depth.read (4 * p) 4) = false then (t, false)
  else
    let old := d.colourOf (t.colour.read (p * d.texel) d.texel)
    let c := (List.range 4).map fun i => blendOne d.blend (old.getD i 0) (s.getD i 0) (s.getD 3 0)
    let writes := d.dmode == 1
    ({ t with
        colour := t.colour.write (p * d.texel) d.texel (d.stored c)
        depth := if writes then t.depth.write (4 * p) 4 z else t.depth }, writes)

/-- The late update of a block (R317): the largest depth the Hem holds for its pixels, if that lowers h. -/
def State.lateUpdate (s : State) (d : Draw) (t : Tile) (b : Nat) : State :=
  let ps := (d.inside t.tx t.ty).filter fun p => blockOf p == b
  let top := ps.foldl (fun m p => max32 m (t.depth.read (4 * p) 4)) ninf32
  if lt32 top (s.hizAt d.launch t.tx t.ty b) then s.setHiz d.launch t.tx t.ty b top none else s

/-- The head intent of a pixel: that of lowest order. -/
def headIntent (l px py : Nat) (is : List Intent) : Option Intent :=
  (is.filter fun i => i.launch == l && i.px == px && i.py == py).foldl (fun best i => match best with
    | some b => if i.order < b.order then some i else some b
    | none => some i) none

/-- HEM_RELEASE (R320, R321): the head intent of a pixel, once its fragment or its discard has arrived. -/
def State.hemRelease (s : State) (l px py : Nat) : State :=
  match s.draw? l, s.tile? l (px / 64) (py / 64), headIntent l px py s.gfx.intents with
  | some d, some t, some i =>
    if s.engFrozen engHem d.ctxid then s
    else
      let u := { s with gfx := { s.gfx with intents := removeFirst i s.gfx.intents } }
      match i.frag with
      | .empty => s
      | .discard => u
      | .full c0 c1 c2 c3 z =>
        let p := 64 * (py % 64) + px % 64
        let r := t.release d p [c0, c1, c2, c3] z
        let u := u.setTile r.1
        if r.2 then u.lateUpdate d r.1 (blockOf p) else u
  | _, _, _ => s

/-- HEM_RELEASE. -/
def execHemRelease (l px py : Nat) (s : State) : Out := .next (s.hemRelease l px py)

/-! ### The end of a draw (R158, R316) -/

/-- Write the hierarchical depth back when its base is nonzero (R316). -/
def State.writeHiz (s : State) (d : Draw) : Res Unit :=
  if d.hiz = 0 then .ok () s
  else
    s.eachHem (fun t s =>
      s.eachHem (fun b s => s.hemWrite d (d.hizAt t.1 t.2 b) 4 (s.hizAt d.launch t.1 t.2 b) 255) (List.range 64)) d.tiles

/-- Whether nothing of a draw is left to do but to write back. -/
def State.drawIdle (s : State) (d : Draw) : Bool :=
  let over' := match s.launch? d.launch with
    | some l => l.left == 0 && l.phase == .resident && d.nextTri == d.ntri && (List.range d.nextMesh).all d.doneM.contains
    | none => d.ended
  over' && !(s.gfx.input.any fun p => p.launch == d.launch) && !(s.gfx.emits.any fun e => e.launch == d.launch) &&
  !(s.gfx.intents.any fun i => i.launch == d.launch) && !s.engFrozen engHem d.ctxid

/-- DRAW_COMPLETE (R158): the tiles and the hierarchical depth are written back and the draw is gone. -/
def State.drawDone (s : State) (l : Nat) : State :=
  match s.draw? l with
  | none => s
  | some d =>
    if s.drawIdle d then
      let held := s.gfx.tiles.filter fun t => t.launch == l
      s.hemDone d ((s.eachHem (fun t s => (s.writeTile d t).bind fun _ s => .ok () (s.dropTile l t.tx t.ty)) held).bind fun _ s =>
        (s.writeHiz d).bind fun _ s =>
          let s := s.dropDraw l
          .ok (match s.launch? l with | some k => s.dropLaunch k | none => s) s)
    else s

/-- DRAW_COMPLETE. -/
def execDrawComplete (l : Nat) (s : State) : Out := .next (s.drawDone l)

end Sys2Proof.Machine
end

