-- ==== Sys2Proof/Machine/CohEv.lean ====
section
/-! DEFINITION. The coherence protocol message by message (R125 to R128, R100), and home migration (R133, R134). A
request that an event sends is served like one of a hart's own accesses; its messages and answers are events of their
own. -/

namespace Sys2Proof.Machine

/-- The core keys of a compute die (R3, R74): of each cluster its cores, and its Mantle, whose hart has an L1 of its own
(assumption 8). -/
def dieCores (die : Nat) : List Nat :=
  (List.range 6).flatMap fun cl =>
    (1024 + die * 128 + cl * 16) :: (List.range 16).map fun k => die * 128 + cl * 16 + k

/-- The cores that a message to the sharers S∖c reaches (R127). -/
def msgTargets (cores dies : List Nat) (c : Option Nat) : List Nat :=
  (cores ++ dies.flatMap dieCores).filter fun k => some k != c

/-- Send the answer of a request to its core. -/
def State.sendReply (s : State) (r : Req) (data : Word) (bad : Bool) : State :=
  if r.core.isSome then
    { s with coh := { s.coh with reps := s.coh.reps ++ [{ req := r, data := data, bad := bad }] } }
  else s

/-- Serve a request whose messages are all acknowledged, or that needs none (R128). -/
def State.serveReply (s : State) (r : Req) : State :=
  let ans := s.serve r
  ans.s.sendReply r ans.data ans.bad

/-- Open a transaction: the request waits for the cores that these messages reach (R127). -/
def State.openTxn (s : State) (r : Req) (cores : List Nat) (kind : L1MsgKind) : State :=
  { s with coh := { s.coh with
      txns := s.coh.txns ++ [{ req := r, left := cores }]
      msgs := s.coh.msgs ++ cores.map fun c => { core := c, addr := r.addr, kind := kind } } }

/-- The home takes up a request (R128): the messages that the row of its kind names, or the answer. A stale request of the
word's owner is discarded. -/
def State.takeReq (s : State) (r : Req) : State :=
  let a := r.addr
  if s.isStale r then s else
  match s.seam a with
  | none | some (.port _ _) => s.serveReply r
  | some (.t cores dies) =>
    match r.kind with
    | .far =>
      let dst := msgTargets cores dies none
      let t := s.reach r
      if dst.isEmpty || t.isBad a then s.serveReply r
      else
        let w := t.memWord a
        ((t.setMem a (r.result w)).openTxn { r with data := w } dst (.upd (r.result w))).countWrite r.core a
    | .ownership | .trkStore | .thruStore | .drain =>
      let dst := msgTargets cores dies r.core
      if dst.isEmpty then s.serveReply r else s.openTxn r dst .inv
    | _ => s.serveReply r
  | some (.o o) =>
    match r.kind with
    | .far => s.openTxn r [o] .fetch
    | .cwb | .evictNotice | .wbEvict => s.serveReply r
    | _ => s.openTxn r [o] .recall

/-- A request arrives at its home: queued while the granule moves (R134) or while the word is busy (R127). -/
def State.arrive (s : State) (r : Req) : State :=
  if s.moving r.addr then s.holdReq r
  else if s.wordBusy r.addr then { s with coh := { s.coh with reqs := s.coh.reqs ++ [r] } }
  else s.takeReq r

/-- The requests that waited behind a word are taken up in order, as far as the word is free (R127). -/
def State.serveWaiting (s : State) (a : Nat) : State :=
  let mine := s.coh.reqs.filter fun r => r.addr == a
  let s := { s with coh := { s.coh with reqs := s.coh.reqs.filter fun r => r.addr != a } }
  mine.foldl State.arrive s

/-- All acknowledgements of a transaction have arrived (R127, R128). -/
def State.completeTxn (s : State) (t : Txn) : State :=
  let s := { s with coh := { s.coh with txns := s.coh.txns.erase t } }
  let s :=
    if t.req.kind = .far then s.sendReply t.req t.req.data (s.isBad t.req.addr)
    else if s.moving t.req.addr then s.holdReq t.req
    else s.serveReply t.req
  s.serveWaiting t.req.addr

/-! ### Requests of a core (R124, R125, R128) -/

/-- Whether a request for a word can be made: the word stands in device or host memory. -/
def homed (a : Nat) : Bool := placeOf a == .lpddr || placeOf a == .host

/-- The word of an event's address: aligned and local (R426). -/
def State.evWord (s : State) (addr : Nat) : Nat := wordAddr (s.normPa addr)

/-- Send a request for a word in one of these states, after the drain of R124; `line` says that its answer fills the
L1, which may have to wait for room (R87). -/
def State.request (s : State) (kind : ReqKind) (core addr : Nat) (sts : List L1St) (line : Bool) : Out :=
  let a := s.evWord addr
  if homed a && sts.contains (s.l1 core a).st && !(line && (s.installWait core a).isSome) then
    let t := if line then s.touchLine core a false else s
    let t := if kind = .selfFill then t else t.drainWord core a
    .next (t.arrive (Req.of kind (some core) a))
  else .next s

/-- HOME_SELF_FILL (R125, R128). -/
def execHomeSelfFill (core addr : Nat) (s : State) : Out := s.request .selfFill core addr [.i] true

/-- HOME_TRK_LOAD (R125, R128). -/
def execHomeTrkLoad (core addr : Nat) (s : State) : Out := s.request .trkLoad core addr [.i, .v] true

/-- HOME_OWNERSHIP (R125, R128). -/
def execHomeOwnership (core addr : Nat) (s : State) : Out := s.request .ownership core addr [.i, .v, .k] true

/-- HOME_THRU_LOAD (R125, R128, R129): of a core, whose owned word is written back first, or without a requester. -/
def execHomeThruLoad (core : Option Nat) (addr : Nat) (s : State) : Out :=
  let a := s.evWord addr
  if homed a then
    match core with
    | some c => .next (((s.drainWord c a).unown c a).arrive (Req.of .thruLoad (some c) a))
    | none => .next (s.arrive (Req.of .thruLoad none a))
  else .next s

/-- HOME_TRK_STORE (R125, R128). In W the store is absorbed and no request is sent (R124). -/
def execHomeTrkStore (core addr : Nat) (mask : BitVec 8) (data : Word) (s : State) : Out :=
  let a := s.evWord addr
  if homed a && (s.l1 core a).st != .w && (s.installWait core a).isNone then
    let t := (s.touchLine core a false).drainWord core a
    .next (t.arrive { Req.of .trkStore (some core) a with mask := mask, data := data })
  else .next s

/-- HOME_THRU_STORE (R125, R128, R129). -/
def execHomeThruStore (core : Option Nat) (addr : Nat) (mask : BitVec 8) (data : Word) (s : State) : Out :=
  let a := s.evWord addr
  let r : Req := { Req.of .thruStore core a with mask := mask, data := data }
  if homed a then
    match core with
    | some c => .next (((s.drainWord c a).unown c a).arrive r)
    | none => .next (s.arrive r)
  else .next s

/-- HOME_DRAIN (R125, R128): the dirty bytes leave the L1; in V and K they stay as clean bytes of the copy. -/
def execHomeDrain (core addr : Nat) (s : State) : Out :=
  let a := s.evWord addr
  let w := s.l1 core a
  if homed a && w.dirty != 0 then
    if w.bad then .next (s.drainWord core a)
    else
      let t := s.setL1 core a { w with
        data := if w.st = .i then w.data else w.view, dirty := 0, dval := 0 }
      .next (t.arrive { Req.of .drain (some core) a with mask := w.dirty, data := w.dval })
  else .next s

/-- The far operations by number: the AMO sub-operations in the order of R64. -/
def amoOps : List AmoOp := [.swap, .add, .and, .or, .xor, .min, .max, .minu, .maxu, .cas]

/-- HOME_FAR_OPERATION (R65, R128): a far operation of 4 or 8 bytes, which leaves no L1 copy of its own core (R107). -/
def execHomeFarOperation (core addr : Nat) (op : Fin 10) (wide : Bool) (b cmp : Word) (s : State) : Out :=
  let pa := s.normPa addr
  let n := if wide then 8 else 4
  if homed pa && pa % n == 0 then
    .next (((s.drainWord core (wordAddr pa)).dropSelf core (wordAddr pa)).arrive { Req.of .far (some core) (wordAddr pa) with
      op := amoOps.getD op .swap, size := n, off := pa % 8, b := b, cmp := cmp })
  else .next s

/-- HOME_WRITEBACK_CWB (R125, R128): the owner's word replaces the home's data. -/
def execHomeWritebackCwb (core addr : Nat) (s : State) : Out :=
  let a := s.evWord addr
  if (s.l1 core a).st = .w then .next (s.serve (Req.of .cwb (some core) a)).s else .next s

/-- HOME_EVICT_NOTICE (R127, R128): a core of the home die drops a K word. A core of another die sends none. -/
def execHomeEvictNotice (core addr : Nat) (s : State) : Out :=
  let a := s.evWord addr
  if (s.l1 core a).st = .k ∧ coreDie core = s.homeDie a then
    let t := s.drainWord core a
    let t := t.setL1 core a L1Word.none
    .next (t.arrive (Req.of .evictNotice (some core) a))
  else .next s

/-- HOME_WRITEBACK_EVICT (R127, R128): the first data message to reach the home is the word's data, whether it is this
write-back or a recall's answer. -/
def execHomeWritebackEvict (core addr : Nat) (s : State) : Out :=
  let a := s.evWord addr
  if (s.l1 core a).st = .w then
    let t := (s.serve (Req.of .wbEvict (some core) a)).s
    .next (t.setL1 core a L1Word.none)
  else .next s

/-! ### Messages of the home (R125, R127) -/

/-- The oldest message for a word of a core's L1. -/
def State.l1Msg (s : State) (core a : Nat) : Option L1Msg := s.coh.msgs.find? fun m => m.core == core && m.addr == a

/-- Take a message off the list. -/
def State.dropMsg (s : State) (m : L1Msg) : State := { s with coh := { s.coh with msgs := s.coh.msgs.erase m } }

/-- L1_INVALIDATION (R125). -/
def execL1Invalidation (core addr : Nat) (s : State) : Out :=
  let a := s.evWord addr
  match s.l1Msg core a with
  | some m => if m.kind = .inv then .next ((s.dropMsg m).setL1 core a (s.l1 core a).inv) else .next s
  | none => .next s

/-- L1_UPDATE (R125). -/
def execL1Update (core addr : Nat) (s : State) : Out :=
  let a := s.evWord addr
  match s.l1Msg core a with
  | some m =>
    match m.kind with
    | .upd v => .next ((s.dropMsg m).setL1 core a ((s.l1 core a).upd v))
    | _ => .next s
  | none => .next s

/-- L1_RECALL (R125): the data goes back and the copy to I; a word in I answers from the write-back in flight. -/
def execL1Recall (core addr : Nat) (s : State) : Out :=
  let a := s.evWord addr
  match s.l1Msg core a with
  | some m =>
    if m.kind = .recall then
      let t := s.dropMsg m
      .next (if (t.l1 core a).st = .w then t.recall a else t)
    else .next s
  | none => .next s

/-- L1_FETCH (R125, R127): the owner's word goes through the home's ALU and comes back; the owner keeps W. -/
def execL1Fetch (core addr : Nat) (s : State) : Out :=
  let a := s.evWord addr
  match s.l1Msg core a, s.coh.txns.find? (fun t => t.req.addr == a) with
  | some m, some t =>
    if m.kind = .fetch then
      let ans := (s.dropMsg m).serve t.req
      .next { ans.s with coh := { ans.s.coh with txns := ans.s.coh.txns.map fun u =>
        if u = t then { u with req := { u.req with data := ans.data } } else u } }
    else .next s
  | _, _ => .next s

/-- HOME_ACKNOWLEDGEMENT (R127): a home-die core's acknowledgement, or the one that another die gathers once each of its
cores has taken its message. -/
def execHomeAcknowledgement (core addr : Nat) (s : State) : Out :=
  let a := s.evWord addr
  match s.coh.txns.find? (fun t => t.req.addr == a) with
  | none => .next s
  | some t =>
    let group (k : Nat) : Bool :=
      if coreDie core = s.homeDie a then k == core else coreDie k == coreDie core
    if !t.left.contains core || s.coh.msgs.any (fun m => m.addr == a && group m.core) then .next s
    else
      let u : Txn := { t with left := t.left.filter fun k => !group k }
      let s := { s with coh := { s.coh with txns := s.coh.txns.map fun v => if v = t then u else v } }
      if u.left.isEmpty then .next (s.completeTxn u) else .next s

/-- CORE_ACK_RECEIVE (R125, R128): the answer reaches the core, and the word is free for the next request. -/
def execCoreAckReceive (core addr : Nat) (s : State) : Out :=
  let a := s.evWord addr
  match s.coh.reps.find? (fun r => r.req.core == some core && r.req.addr == a) with
  | some r => .next ((s.accept r).serveWaiting a)
  | none => .next s

/-- SELF_DRAIN_TIMEOUT (R100): a dirty byte drains without being asked. -/
def execSelfDrainTimeout (core addr : Nat) (s : State) : Out :=
  let a := s.evWord addr
  if s.wordBusy a then .next s else .next (s.drainWord core a)

/-! ### Migration (R133, R134) -/

/-- The dies that cache home-lookup entries: the eight compute dies and the host die. -/
def lookupDies : List Nat := List.range 9

/-- MIGRATION_ENTRY_UPDATE (R134 step 3): the master entry names the new home, and the die replaces its cached entry and
acknowledges it, once every request for the granule that the old home has taken up is answered. -/
def execMigrationEntryUpdate (gran die : Nat) (s : State) : Out :=
  match s.coh.home? gran with
  | none => .next s
  | some e =>
    if e.moving && lookupDies.contains die && !e.acks.contains die &&
        !s.coh.txns.any (fun t => t.req.addr / 65536 == gran) then
      let t := s.setTable gran e.dest true
      .next { t with coh := { t.coh with
        homes := t.coh.homes.map fun k => if k = e then { e with acks := e.acks ++ [die] } else k
        lookup := t.coh.lookup.map fun k => if k.die = die ∧ k.gran = gran then { k with home := e.dest } else k } }
    else .next s

/-- MIGRATION_FORWARD_COMPLETE (R134 steps 4 and 5): the moving bit clears, and the new home serves the queue. -/
def execMigrationForwardComplete (gran : Nat) (s : State) : Out :=
  match s.coh.home? gran with
  | none => .next s
  | some e =>
    if e.moving && lookupDies.all fun d => e.acks.contains d then
      let f : HomeEnt := { e with die := e.dest, moving := false, acks := [], held := [], fresh := 2 }
      let t := s.setTable gran e.dest false
      let t := { t with coh := { t.coh with homes := t.coh.homes.map fun k => if k = e then f else k } }
      .next (e.held.foldl State.arrive t)
    else .next s

/-- The counts of the device timebase in an epoch of 1 ms at 2.25 GHz (R133, R182). -/
def epochTicks : Word := 2250000

/-- EPOCH_ROLLOVER (R133, R137): the counts clear; a granule that has migrated comes into question again at the end of
the next full epoch. The device timebase has gone on by the epoch (R182). -/
def execEpochRollover (s : State) : Out :=
  .next { s with
    coh := { s.coh with wcount := [], pcount := [], homes := s.coh.homes.map fun e => { e with fresh := e.fresh - 1 } }
    pow := { s.pow with timebase := s.pow.timebase + epochTicks } }

end Sys2Proof.Machine
end

