-- ==== Sys2Proof/Machine/Control.lean ====
section
/-! DEFINITION. JAL and JALR (R56, R18) and the branches (R57). -/

namespace Sys2Proof.Machine

/-- The word n words away from the pc (R21). -/
def State.target (s : State) (off : Word) : Word := s.h.pc + (off <<< 2)

/-- JAL (R56). -/
def execJal (d : Fin 32) (o : BitVec 21) (s : State) : Out :=
  .next ((s.wr d (s.h.pc + 4)).retireAt (s.target (sext o)))

/-- JALR (R56): a target that is not a multiple of 4 traps misaligned and writes nothing (R18). -/
def execJalr (d a : Fin 32) (i : BitVec 16) (s : State) : Out :=
  let t := s.x a + sext i
  if t.toNat % 4 ≠ 0 then s.trap (.sync 1 t) else .next ((s.wr d (s.h.pc + 4)).retireAt t)

/-- A branch: to the target when the comparison holds, else to the next word (R57). -/
def State.branch (s : State) (taken : Bool) (o : BitVec 16) : State :=
  if taken then s.retireAt (s.target (sext o)) else s.finish

/-- BEQ (R57). -/
def execBeq (a b : Fin 32) (o : BitVec 16) (s : State) : Out := .next (s.branch (s.x a == s.x b) o)

/-- BNE (R57). -/
def execBne (a b : Fin 32) (o : BitVec 16) (s : State) : Out := .next (s.branch (s.x a != s.x b) o)

/-- BLT (R57). -/
def execBlt (a b : Fin 32) (o : BitVec 16) (s : State) : Out := .next (s.branch ((s.x a).slt (s.x b)) o)

/-- BGE (R57). -/
def execBge (a b : Fin 32) (o : BitVec 16) (s : State) : Out := .next (s.branch (!(s.x a).slt (s.x b)) o)

/-- BLTU (R57). -/
def execBltu (a b : Fin 32) (o : BitVec 16) (s : State) : Out := .next (s.branch ((s.x a).ult (s.x b)) o)

/-- BGEU (R57). -/
def execBgeu (a b : Fin 32) (o : BitVec 16) (s : State) : Out := .next (s.branch (!(s.x a).ult (s.x b)) o)

end Sys2Proof.Machine
end

