-- ==== Sys2Proof/Machine/FwEv.lean ====
section
/-! DEFINITION. The events of the firmware control block (R143 to R149) and of the heartbeat (R145, R171). -/

namespace Sys2Proof.Machine

/-- MHBEAT_WRITE (R145, R171): Mantle n writes its heartbeat word. -/
def execMhbeatWrite (n : Nat) (v : Word) (s : State) : Out :=
  .next (if n < 48 then s.onHart (mantleId n) fun s => s.writeBeat v else s)

/-- MANTLE_SILENT_REPORT (R171): the management engine reports Mantle n to the host, once until it beats again. -/
def execMantleSilentReport (n : Nat) (s : State) : Out :=
  if n < 48 ∧ ¬ s.pow.silent.contains n then
    .next { s with
      pow := { s.pow with silent := s.pow.silent ++ [n] }
      host := { s.host with mail := s.host.mail ++ [171] } }
  else .next s

/-- FWQUI_QUIESCE (R143). -/
def execFwquiQuiesce (s : State) : Out := .next s.quiesce

/-- FWQUI_RESUME (R143, R149). -/
def execFwquiResume (s : State) : Out := .next s.unquiesce

/-- MANTLE_PACKET_BOUNDARY_STOP (R143): Mantle n has stopped with no packet half consumed. -/
def execMantlePacketBoundaryStop (n : Nat) (s : State) : Out :=
  if s.fw.req && n < 48 then
    .next (s.mapHarts fun h => if h.id = mantleId n then { h with mant := { h.mant with stopped := true } } else h)
  else .next s

/-- FWCMD_INSTALL (R145, R146). -/
def execFwcmdInstall (s : State) : Out := .next s.cmdInstall

/-- INSTALL_COMPLETE (R146). -/
def execInstallComplete (s : State) : Out := .next (if s.fw.busy && s.fw.cmd == 1 then s.installDone else s)

/-- FWCMD_MEASURE (R145, R147). -/
def execFwcmdMeasure (s : State) : Out := .next s.cmdMeasure

/-- MEASURE_COMPLETE (R147). -/
def execMeasureComplete (s : State) : Out := .next (if s.fw.busy && s.fw.cmd == 2 then s.measureDone else s)

/-- FWCMD_SWITCH (R145, R148). -/
def execFwcmdSwitch (s : State) : Out := .next s.cmdSwitch

/-- FWCMD_IGNORED (R143, R145): a store of FWCMD that is not a command, or one that the state does not accept. -/
def execFwcmdIgnored (v : Word) (s : State) : Out :=
  let accepted := match v.toNat with
    | 1 => !s.fw.busy && s.fw.takesInstall
    | 2 => !s.fw.busy && s.fw.state == 2
    | 3 => !s.fw.busy && s.fw.state == 3 && s.quiesced
    | _ => false
  .next (if accepted then s else s.cmdIgnored)

/-- FWSTAT_OO_CLEAR (R143). -/
def execFwstatOoClear (s : State) : Out := .next { s with fw := { s.fw with oo := false } }

/-- HEARTBEAT_WINDOW_EXPIRE (R145, R148). -/
def execHeartbeatWindowExpire (s : State) : Out := .next s.windowExpire

end Sys2Proof.Machine
end

