-- ==== Sys2Proof/Machine/VInt.lean ====
section
/-! DEFINITION. VI and VIX (R213 to R215): integer arithmetic on elements. -/

namespace Sys2Proof.Machine

/-! ### The functions of R214 on w-bit patterns -/

def vAdd (w a s : Nat) : Nat := (a + s) % 2 ^ w
def vSub (w a s : Nat) : Nat := (a + 2 ^ w - s) % 2 ^ w
def vAnd (_w a s : Nat) : Nat := a &&& s
def vOr (_w a s : Nat) : Nat := a ||| s
def vXor (_w a s : Nat) : Nat := a ^^^ s
def vAndn (w a s : Nat) : Nat := a &&& (2 ^ w - 1 - s)

/-- Shifts use the low log2 w bits of s. -/
def vSll (w a s : Nat) : Nat := a * 2 ^ (s % w) % 2 ^ w
def vSrl (w a s : Nat) : Nat := a / 2 ^ (s % w)
def vSra (w a s : Nat) : Nat := patOf w (signedOf w a / 2 ^ (s % w))

def vMin (w a s : Nat) : Nat := if signedOf w s < signedOf w a then s else a
def vMax (w a s : Nat) : Nat := if signedOf w a < signedOf w s then s else a
def vMinu (_w a s : Nat) : Nat := min a s
def vMaxu (_w a s : Nat) : Nat := max a s
def vMul (w a s : Nat) : Nat := a * s % 2 ^ w

/-- The high half of the signed product. -/
def vMulh (w a s : Nat) : Nat := patOf w (signedOf w a * signedOf w s / 2 ^ w)
def vMulhu (w a s : Nat) : Nat := a * s / 2 ^ w

/-- Divides with the special cases of R52 at width w. -/
def vDiv (w a s : Nat) : Nat := (divS (BitVec.ofNat w a) (BitVec.ofNat w s)).toNat
def vDivu (w a s : Nat) : Nat := (divU (BitVec.ofNat w a) (BitVec.ofNat w s)).toNat
def vRem (w a s : Nat) : Nat := (remS (BitVec.ofNat w a) (BitVec.ofNat w s)).toNat
def vRemu (w a s : Nat) : Nat := (remU (BitVec.ofNat w a) (BitVec.ofNat w s)).toNat

/-- Saturating members. -/
def vSadd (w a s : Nat) : Nat := patOf w (clampInt true w (signedOf w a + signedOf w s))
def vSaddu (w a s : Nat) : Nat := min (a + s) (2 ^ w - 1)
def vSsub (w a s : Nat) : Nat := patOf w (clampInt true w (signedOf w a - signedOf w s))
def vSsubu (_w a s : Nat) : Nat := a - s

def vAbsd (w a s : Nat) : Nat := (signedOf w a - signedOf w s).natAbs % 2 ^ w

/-! ### Shapes -/

/-- A binary member of VI or VIX: legal under ew 0 to 3 (R206). -/
def State.vint (s : State) (d a : Fin 32) (b : VB) (k : Fin 8) (f : Nat → Nat → Nat → Nat) : Out :=
  s.vmap (s.h.use (s.h.ew < 4) d (a.val :: b.regs) k false) d k fun h i => ⟨f h.ewBits (h.velem a i) (h.bElem b i), 0⟩

/-- VMACC and VMACC.X: vd[i] is read before the write (R214). -/
def State.vmaccOp (s : State) (d a : Fin 32) (b : VB) (k : Fin 8) : Out :=
  s.vmap (s.h.use (s.h.ew < 4) d (a.val :: b.regs) k true) d k fun h i =>
    ⟨vAdd h.ewBits (h.velem d i) (vMul h.ewBits (h.velem a i) (h.bElem b i)), 0⟩

/-- A unary member of VI (R214). -/
def State.vint1 (s : State) (d a : Fin 32) (k : Fin 8) (f : Nat → Nat → Nat) : Out :=
  s.vmap (s.h.use (s.h.ew < 4) d [a.val] k false) d k fun h i => ⟨f h.ewBits (h.velem a i), 0⟩

/-- VMV and VMV.X: at any ew (R206). -/
def State.vmove (s : State) (d : Fin 32) (b : VB) (k : Fin 8) : Out :=
  s.vmap (s.h.use true d b.regs k false) d k fun h i => ⟨h.bElem b i, 0⟩

/-- VADD (R214). -/
def execVadd (d a b : Fin 32) (_x _y : Bool) (k : Fin 8) (s : State) : Out := s.vint d a (.vec b) k vAdd

/-- VSUB (R214). -/
def execVsub (d a b : Fin 32) (_x _y : Bool) (k : Fin 8) (s : State) : Out := s.vint d a (.vec b) k vSub

/-- VAND (R214). -/
def execVand (d a b : Fin 32) (_x _y : Bool) (k : Fin 8) (s : State) : Out := s.vint d a (.vec b) k vAnd

/-- VOR (R214). -/
def execVor (d a b : Fin 32) (_x _y : Bool) (k : Fin 8) (s : State) : Out := s.vint d a (.vec b) k vOr

/-- VXOR (R214). -/
def execVxor (d a b : Fin 32) (_x _y : Bool) (k : Fin 8) (s : State) : Out := s.vint d a (.vec b) k vXor

/-- VANDN (R214). -/
def execVandn (d a b : Fin 32) (_x _y : Bool) (k : Fin 8) (s : State) : Out := s.vint d a (.vec b) k vAndn

/-- VSLL (R214). -/
def execVsll (d a b : Fin 32) (_x _y : Bool) (k : Fin 8) (s : State) : Out := s.vint d a (.vec b) k vSll

/-- VSRL (R214). -/
def execVsrl (d a b : Fin 32) (_x _y : Bool) (k : Fin 8) (s : State) : Out := s.vint d a (.vec b) k vSrl

/-- VSRA (R214). -/
def execVsra (d a b : Fin 32) (_x _y : Bool) (k : Fin 8) (s : State) : Out := s.vint d a (.vec b) k vSra

/-- VMIN (R214). -/
def execVmin (d a b : Fin 32) (_x _y : Bool) (k : Fin 8) (s : State) : Out := s.vint d a (.vec b) k vMin

/-- VMAX (R214). -/
def execVmax (d a b : Fin 32) (_x _y : Bool) (k : Fin 8) (s : State) : Out := s.vint d a (.vec b) k vMax

/-- VMINU (R214). -/
def execVminu (d a b : Fin 32) (_x _y : Bool) (k : Fin 8) (s : State) : Out := s.vint d a (.vec b) k vMinu

/-- VMAXU (R214). -/
def execVmaxu (d a b : Fin 32) (_x _y : Bool) (k : Fin 8) (s : State) : Out := s.vint d a (.vec b) k vMaxu

/-- VMUL (R214). -/
def execVmul (d a b : Fin 32) (_x _y : Bool) (k : Fin 8) (s : State) : Out := s.vint d a (.vec b) k vMul

/-- VMULH (R214). -/
def execVmulh (d a b : Fin 32) (_x _y : Bool) (k : Fin 8) (s : State) : Out := s.vint d a (.vec b) k vMulh

/-- VMULHU (R214). -/
def execVmulhu (d a b : Fin 32) (_x _y : Bool) (k : Fin 8) (s : State) : Out := s.vint d a (.vec b) k vMulhu

/-- VDIV (R214). -/
def execVdiv (d a b : Fin 32) (_x _y : Bool) (k : Fin 8) (s : State) : Out := s.vint d a (.vec b) k vDiv

/-- VDIVU (R214). -/
def execVdivu (d a b : Fin 32) (_x _y : Bool) (k : Fin 8) (s : State) : Out := s.vint d a (.vec b) k vDivu

/-- VREM (R214). -/
def execVrem (d a b : Fin 32) (_x _y : Bool) (k : Fin 8) (s : State) : Out := s.vint d a (.vec b) k vRem

/-- VREMU (R214). -/
def execVremu (d a b : Fin 32) (_x _y : Bool) (k : Fin 8) (s : State) : Out := s.vint d a (.vec b) k vRemu

/-- VMACC (R214). -/
def execVmacc (d a b : Fin 32) (_x _y : Bool) (k : Fin 8) (s : State) : Out := s.vmaccOp d a (.vec b) k

/-- VSADD (R214). -/
def execVsadd (d a b : Fin 32) (_x _y : Bool) (k : Fin 8) (s : State) : Out := s.vint d a (.vec b) k vSadd

/-- VSADDU (R214). -/
def execVsaddu (d a b : Fin 32) (_x _y : Bool) (k : Fin 8) (s : State) : Out := s.vint d a (.vec b) k vSaddu

/-- VSSUB (R214). -/
def execVssub (d a b : Fin 32) (_x _y : Bool) (k : Fin 8) (s : State) : Out := s.vint d a (.vec b) k vSsub

/-- VSSUBU (R214). -/
def execVssubu (d a b : Fin 32) (_x _y : Bool) (k : Fin 8) (s : State) : Out := s.vint d a (.vec b) k vSsubu

/-- VABSD (R214). -/
def execVabsd (d a b : Fin 32) (_x _y : Bool) (k : Fin 8) (s : State) : Out := s.vint d a (.vec b) k vAbsd

/-- VCLZ (R214). -/
def execVclz (d a : Fin 32) (_x : Bool) (k : Fin 8) (s : State) : Out := s.vint1 d a k clzNat

/-- VCTZ (R214). -/
def execVctz (d a : Fin 32) (_x : Bool) (k : Fin 8) (s : State) : Out := s.vint1 d a k ctzNat

/-- VPOPC (R214). -/
def execVpopc (d a : Fin 32) (_x : Bool) (k : Fin 8) (s : State) : Out := s.vint1 d a k popNat

/-- VMV (R214). -/
def execVmv (d a : Fin 32) (_x : Bool) (k : Fin 8) (s : State) : Out := s.vmove d (.vec a) k

/-- VADD.X (R214). -/
def execVaddX (d a b : Fin 32) (_x : Bool) (k : Fin 8) (s : State) : Out :=
  s.vint d a (.sca (s.h.xb b)) k vAdd

/-- VSUB.X (R214). -/
def execVsubX (d a b : Fin 32) (_x : Bool) (k : Fin 8) (s : State) : Out :=
  s.vint d a (.sca (s.h.xb b)) k vSub

/-- VAND.X (R214). -/
def execVandX (d a b : Fin 32) (_x : Bool) (k : Fin 8) (s : State) : Out :=
  s.vint d a (.sca (s.h.xb b)) k vAnd

/-- VOR.X (R214). -/
def execVorX (d a b : Fin 32) (_x : Bool) (k : Fin 8) (s : State) : Out :=
  s.vint d a (.sca (s.h.xb b)) k vOr

/-- VXOR.X (R214). -/
def execVxorX (d a b : Fin 32) (_x : Bool) (k : Fin 8) (s : State) : Out :=
  s.vint d a (.sca (s.h.xb b)) k vXor

/-- VANDN.X (R214). -/
def execVandnX (d a b : Fin 32) (_x : Bool) (k : Fin 8) (s : State) : Out :=
  s.vint d a (.sca (s.h.xb b)) k vAndn

/-- VSLL.X (R214). -/
def execVsllX (d a b : Fin 32) (_x : Bool) (k : Fin 8) (s : State) : Out :=
  s.vint d a (.sca (s.h.xb b)) k vSll

/-- VSRL.X (R214). -/
def execVsrlX (d a b : Fin 32) (_x : Bool) (k : Fin 8) (s : State) : Out :=
  s.vint d a (.sca (s.h.xb b)) k vSrl

/-- VSRA.X (R214). -/
def execVsraX (d a b : Fin 32) (_x : Bool) (k : Fin 8) (s : State) : Out :=
  s.vint d a (.sca (s.h.xb b)) k vSra

/-- VMIN.X (R214). -/
def execVminX (d a b : Fin 32) (_x : Bool) (k : Fin 8) (s : State) : Out :=
  s.vint d a (.sca (s.h.xb b)) k vMin

/-- VMAX.X (R214). -/
def execVmaxX (d a b : Fin 32) (_x : Bool) (k : Fin 8) (s : State) : Out :=
  s.vint d a (.sca (s.h.xb b)) k vMax

/-- VMINU.X (R214). -/
def execVminuX (d a b : Fin 32) (_x : Bool) (k : Fin 8) (s : State) : Out :=
  s.vint d a (.sca (s.h.xb b)) k vMinu

/-- VMAXU.X (R214). -/
def execVmaxuX (d a b : Fin 32) (_x : Bool) (k : Fin 8) (s : State) : Out :=
  s.vint d a (.sca (s.h.xb b)) k vMaxu

/-- VMUL.X (R214). -/
def execVmulX (d a b : Fin 32) (_x : Bool) (k : Fin 8) (s : State) : Out :=
  s.vint d a (.sca (s.h.xb b)) k vMul

/-- VMULH.X (R214). -/
def execVmulhX (d a b : Fin 32) (_x : Bool) (k : Fin 8) (s : State) : Out :=
  s.vint d a (.sca (s.h.xb b)) k vMulh

/-- VMULHU.X (R214). -/
def execVmulhuX (d a b : Fin 32) (_x : Bool) (k : Fin 8) (s : State) : Out :=
  s.vint d a (.sca (s.h.xb b)) k vMulhu

/-- VDIV.X (R214). -/
def execVdivX (d a b : Fin 32) (_x : Bool) (k : Fin 8) (s : State) : Out :=
  s.vint d a (.sca (s.h.xb b)) k vDiv

/-- VDIVU.X (R214). -/
def execVdivuX (d a b : Fin 32) (_x : Bool) (k : Fin 8) (s : State) : Out :=
  s.vint d a (.sca (s.h.xb b)) k vDivu

/-- VREM.X (R214). -/
def execVremX (d a b : Fin 32) (_x : Bool) (k : Fin 8) (s : State) : Out :=
  s.vint d a (.sca (s.h.xb b)) k vRem

/-- VREMU.X (R214). -/
def execVremuX (d a b : Fin 32) (_x : Bool) (k : Fin 8) (s : State) : Out :=
  s.vint d a (.sca (s.h.xb b)) k vRemu

/-- VMACC.X (R214). -/
def execVmaccX (d a b : Fin 32) (_x : Bool) (k : Fin 8) (s : State) : Out := s.vmaccOp d a (.sca (s.h.xb b)) k

/-- VSADD.X (R214). -/
def execVsaddX (d a b : Fin 32) (_x : Bool) (k : Fin 8) (s : State) : Out :=
  s.vint d a (.sca (s.h.xb b)) k vSadd

/-- VSADDU.X (R214). -/
def execVsadduX (d a b : Fin 32) (_x : Bool) (k : Fin 8) (s : State) : Out :=
  s.vint d a (.sca (s.h.xb b)) k vSaddu

/-- VSSUB.X (R214). -/
def execVssubX (d a b : Fin 32) (_x : Bool) (k : Fin 8) (s : State) : Out :=
  s.vint d a (.sca (s.h.xb b)) k vSsub

/-- VSSUBU.X (R214). -/
def execVssubuX (d a b : Fin 32) (_x : Bool) (k : Fin 8) (s : State) : Out :=
  s.vint d a (.sca (s.h.xb b)) k vSsubu

/-- VABSD.X (R214). -/
def execVabsdX (d a b : Fin 32) (_x : Bool) (k : Fin 8) (s : State) : Out :=
  s.vint d a (.sca (s.h.xb b)) k vAbsd

/-- VMV.X (R214). -/
def execVmvX (d b : Fin 32) (k : Fin 8) (s : State) : Out := s.vmove d (.sca (s.h.xb b)) k

end Sys2Proof.Machine
end

