-- ==== Sys2Proof/Machine/VPerm.lean ====
section
/-! DEFINITION. VPERM (R237 to R240), and VRED with its scans (R241 to R243). They read every source before they
write, ignore vstart, and never stop inside. -/

namespace Sys2Proof.Machine

/-- src(j) (R239): read by position; 0 at or beyond VL. -/
def Hart.src (h : Hart) (a j : Nat) : Nat := if j < h.vl then h.velem a j else 0

/-- What a VPERM member with vector result uses: it may read every element of its sources, whatever vstart. -/
def Hart.permUse (h : Hart) (ok : Bool) (d : Nat) (rs : List Nat) (k : Fin 8) : VUse :=
  { h.use ok d rs k false with gather := true }

/-- A VPERM member with vector result: f lists the elements written (R239). -/
def State.vperm (s : State) (ok : Bool) (d : Nat) (rs : List Nat) (k : Fin 8) (f : Hart → List (Nat × Nat)) : Out :=
  s.vbegin (s.h.permUse ok d rs k) fun t =>
    let h := t.h
    ({ t with h := h.putAll d h.ew h.lgrp (f h) }.appends d h.ew).vdone

/-- The index of VGATHER (R240): none for a value that is no index. -/
def Hart.index (h : Hart) (p : Nat) : Option Nat :=
  match codeFmt h.ew with
  | none => some p
  | some f =>
    match f.decode p with
    | .num x =>
      let r := x.roundAt .rne 0
      if r.2 || (x.neg && x.m != 0) || 2 ^ 48 ≤ r.1 then none else some r.1
    | _ => none

/-- VGATHER (R239, R240). -/
def execVgather (d a b : Fin 32) (_x _y : Bool) (k : Fin 8) (s : State) : Out :=
  s.vperm true d [a.val, b.val] k fun h => (h.actives k).map fun i =>
    (i, match h.index (h.velem b i) with
        | some j => h.src a j
        | none => 0)

/-- VSLIDEUP (R239). -/
def execVslideup (d a b : Fin 32) (_x : Bool) (k : Fin 8) (s : State) : Out :=
  let n := (s.h.xb b).toNat
  s.vperm true d [a.val] k fun h => ((h.actives k).filter (n ≤ ·)).map fun i => (i, h.velem a (i - n))

/-- VSLIDEDN (R239). -/
def execVslidedn (d a b : Fin 32) (_x : Bool) (k : Fin 8) (s : State) : Out :=
  let n := (s.h.xb b).toNat
  s.vperm true d [a.val] k fun h => (h.actives k).map fun i => (i, h.src a (i + n))

/-- VSLIDE1UP (R239). -/
def execVslide1up (d a b : Fin 32) (_x : Bool) (k : Fin 8) (s : State) : Out :=
  let v := (s.h.xb b).toNat
  s.vperm true d [a.val] k fun h => (h.actives k).map fun i =>
    (i, if i = 0 then v % 2 ^ h.ewBits else h.velem a (i - 1))

/-- VSLIDE1DN (R239). -/
def execVslide1dn (d a b : Fin 32) (_x : Bool) (k : Fin 8) (s : State) : Out :=
  let v := (s.h.xb b).toNat
  s.vperm true d [a.val] k fun h => (h.actives k).map fun i =>
    (i, if i + 1 < h.vl then h.velem a (i + 1) else v % 2 ^ h.ewBits)

/-- VCOMPRESS (R239): the masks select the sources. -/
def execVcompress (d a : Fin 32) (_x : Bool) (k : Fin 8) (s : State) : Out :=
  s.vperm true d [a.val] k fun h => (h.actives k).zipIdx.map fun e => (e.2, h.velem a e.1)

/-- VEXPAND (R239). -/
def execVexpand (d a : Fin 32) (_x : Bool) (k : Fin 8) (s : State) : Out :=
  s.vperm true d [a.val] k fun h => (h.actives k).zipIdx.map fun e => (e.1, h.velem a e.2)

/-- VIOTA (R239): legal under ew 0 to 3; stored modulo 2^w (R16). -/
def execViota (d : Fin 32) (k : Fin 8) (s : State) : Out :=
  s.vperm (s.h.ew < 4) d [] k fun h => (h.actives k).zipIdx.map fun e => (e.1, e.2 % 2 ^ h.ewBits)

/-- VBCAST (R239). -/
def execVbcast (d a b : Fin 32) (_x : Bool) (k : Fin 8) (s : State) : Out :=
  let j := (s.h.xb b).toNat
  s.vperm true d [a.val] k fun h => (h.actives k).map fun i => (i, h.src a j)

/-- VEXT (R239): sign-extended under ew 0 to 3, the pattern under ew 4 to 7; masks do not apply. -/
def execVext (d a b : Fin 32) (_x : Bool) (s : State) : Out :=
  let j := (s.h.xb b).toNat
  let u : VUse :=
    { ok := s.h.srcsOk [a.val], srcs := [a.val], reads := [], masks := [], useE := false, whole := true
      only := if j < s.h.vl then [(a.val, s.h.eb, j)] else [] }
  s.vbegin u fun t =>
    let h := t.h
    let p := h.src a j
    let v := if h.ew < 4 then patOf 64 (signedOf h.ewBits p) else p
    { t with h := h.set d (w64 v) }.vdone

/-- VINS (R239). -/
def execVins (d a b : Fin 32) (k : Fin 8) (s : State) : Out :=
  let v := (s.h.xa a).toNat
  let j := (s.h.xb b).toNat
  s.vperm true d [] k fun h => if h.active k j then [(j, v % 2 ^ h.ewBits)] else []

/-- VCONFLICT (R239): legal under ew 0 to 3; clamped to 2^w − 1. -/
def execVconflict (d a : Fin 32) (_x : Bool) (k : Fin 8) (s : State) : Out :=
  s.vperm (s.h.ew < 4) d [a.val] k fun h =>
    let acts := h.actives k
    acts.map fun i =>
      (i, min ((acts.takeWhile (· < i)).filter fun j => h.velem a j == h.velem a i).length (2 ^ h.ewBits - 1))

/-! ### VRED -/

/-- A reduction (R241): f gives vd[0] and the flags. With VL = 0 nothing is written. -/
def State.vred (s : State) (isF : Bool) (d a b : Nat) (k : Fin 8) (f : Hart → FR) : Out :=
  let u := s.h.use (isF == s.h.isFloat) d [a, b] k false
  s.vbegin { u with reads := [(a, s.h.eb)], only := [(b, s.h.eb, 0)], whole := true } fun t =>
    let h := t.h
    if h.vl = 0 then t.vdone
    else
      let r := f h
      let h := h.putAll d h.ew h.lgrp [(0, r.bits)]
      let h := { h with vec := { h.vec with vflags := h.vec.vflags ||| w64 r.flags } }
      ({ t with h := h }.appends d h.ew).vdone

/-- An integer reduction: the fold of vb[0] and the active elements of va (R242). -/
def State.vredInt (s : State) (d a b : Fin 32) (k : Fin 8) (f : Nat → Nat → Nat → Nat) : Out :=
  s.vred false d a b k fun h => ⟨(h.actives k).foldl (fun acc i => f h.ewBits acc (h.velem a i)) (h.velem b 0), 0⟩

/-- The add of VRED.FSUM and VSCAN.FSUM: RNE, none absent (R242). -/
def fsumAdd (f : FFmt) (x y : Option Nat × Nat) : Option Nat × Nat :=
  match x.1, y.1 with
  | none, _ => (y.1, x.2 ||| y.2)
  | _, none => (x.1, x.2 ||| y.2)
  | some p, some q => let r := f.add .rne p q; (some r.bits, x.2 ||| y.2 ||| r.flags)

/-- One level of the tree of R242: neighbours are added. -/
def fsumPairs (f : FFmt) : List (Option Nat × Nat) → List (Option Nat × Nat)
  | x :: y :: rest => fsumAdd f x y :: fsumPairs f rest
  | rest => rest

/-- The tree of R242 over P terms, level by level. -/
def fsumTree (f : FFmt) : Nat → List (Option Nat × Nat) → Option Nat × Nat
  | 0, ts => ts.headD (none, 0)
  | n + 1, ts => fsumTree f n (fsumPairs f ts)

/-- The exponent of the smallest power of two that is at least n. -/
def log2Up (n : Nat) : Nat := if n ≤ 1 then 0 else Nat.log2 (n - 1) + 1

/-- The canonical NaN and NV when a term is a NaN (R242). -/
def fsumNan (f : FFmt) (terms : List Nat) (r : FR) : FR :=
  let vs := terms.map f.decode
  if vs.any FV.isNan then ⟨f.nan, r.flags ||| nvSig vs⟩ else r

/-- VRED.FSUM (R242). -/
def Hart.fsum (h : Hart) (a b : Nat) (k : Fin 8) : FR :=
  let f := h.fmt
  let p := log2Up h.vl
  let ts : List (Option Nat × Nat) := (List.range (2 ^ p)).map fun i => (if h.active k i then some (h.velem a i) else none, 0)
  let r := fsumAdd f (some (h.velem b 0), 0) (fsumTree f p ts)
  fsumNan f (h.velem b 0 :: (h.actives k).map (h.velem a)) ⟨r.1.getD 0, r.2⟩

/-- VRED.FMIN and VRED.FMAX (R242). -/
def State.vredMinmax (s : State) (d a b : Fin 32) (k : Fin 8) (hi : Bool) : Out :=
  s.vred true d a b k fun h =>
    let f := h.fmt
    let ts := (h.actives k).map (h.velem a)
    let v0 := h.velem b 0
    let bits := ts.foldl (fun acc p => (f.minmax hi acc p).bits) v0
    ⟨if (f.decode bits).isNan then f.nan else bits, nvSig ((v0 :: ts).map f.decode)⟩

/-- VRED.SUM (R242). -/
def execVredSum (d a b : Fin 32) (_x _y : Bool) (k : Fin 8) (s : State) : Out := s.vredInt d a b k vAdd

/-- VRED.MIN (R242). -/
def execVredMin (d a b : Fin 32) (_x _y : Bool) (k : Fin 8) (s : State) : Out := s.vredInt d a b k vMin

/-- VRED.MAX (R242). -/
def execVredMax (d a b : Fin 32) (_x _y : Bool) (k : Fin 8) (s : State) : Out := s.vredInt d a b k vMax

/-- VRED.MINU (R242). -/
def execVredMinu (d a b : Fin 32) (_x _y : Bool) (k : Fin 8) (s : State) : Out := s.vredInt d a b k vMinu

/-- VRED.MAXU (R242). -/
def execVredMaxu (d a b : Fin 32) (_x _y : Bool) (k : Fin 8) (s : State) : Out := s.vredInt d a b k vMaxu

/-- VRED.AND (R242). -/
def execVredAnd (d a b : Fin 32) (_x _y : Bool) (k : Fin 8) (s : State) : Out := s.vredInt d a b k vAnd

/-- VRED.OR (R242). -/
def execVredOr (d a b : Fin 32) (_x _y : Bool) (k : Fin 8) (s : State) : Out := s.vredInt d a b k vOr

/-- VRED.XOR (R242). -/
def execVredXor (d a b : Fin 32) (_x _y : Bool) (k : Fin 8) (s : State) : Out := s.vredInt d a b k vXor

/-- VRED.FSUM (R242). -/
def execVredFsum (d a b : Fin 32) (_x _y : Bool) (k : Fin 8) (s : State) : Out :=
  s.vred true d a b k fun h => h.fsum a b k

/-- VRED.FMIN (R242). -/
def execVredFmin (d a b : Fin 32) (_x _y : Bool) (k : Fin 8) (s : State) : Out := s.vredMinmax d a b k false

/-- VRED.FMAX (R242). -/
def execVredFmax (d a b : Fin 32) (_x _y : Bool) (k : Fin 8) (s : State) : Out := s.vredMinmax d a b k true

/-- The running results of a scan over the active elements: f adds, and carries flags (R243). -/
def scanFrom (f : Option Nat → Nat → FR) : Option Nat → List (Nat × Nat) → List (Nat × Nat) × Nat
  | _, [] => ([], 0)
  | acc, (i, p) :: rest =>
    let r := f acc p
    let t := scanFrom f (some r.bits) rest
    ((i, r.bits) :: t.1, r.flags ||| t.2)

/-- A scan (R241, R243). -/
def State.vscan (s : State) (isF : Bool) (d a : Nat) (k : Fin 8) (f : Hart → Option Nat → Nat → FR) : Out :=
  s.vbegin { s.h.use (isF == s.h.isFloat) d [a] k false with whole := true } fun t =>
    let h := t.h
    let r := scanFrom (f h) none ((h.actives k).map fun i => (i, h.velem a i))
    let h := h.putAll d h.ew h.lgrp r.1
    let h := { h with vec := { h.vec with vflags := h.vec.vflags ||| w64 r.2 } }
    ({ t with h := h }.appends d h.ew).vdone

/-- VSCAN.SUM (R243). -/
def execVscanSum (d a : Fin 32) (_x : Bool) (k : Fin 8) (s : State) : Out :=
  s.vscan false d a k fun h acc p => ⟨vAdd h.ewBits (acc.getD 0) p, 0⟩

/-- VSCAN.FSUM (R243): the first active element is delivered exactly, a NaN as the canonical NaN. -/
def execVscanFsum (d a : Fin 32) (_x : Bool) (k : Fin 8) (s : State) : Out :=
  s.vscan true d a k fun h acc p =>
    match acc with
    | none => fsumNan h.fmt [p] ⟨p, 0⟩
    | some q => h.fmt.add .rne q p

end Sys2Proof.Machine
end

