-- ==== Sys2Proof/Machine/VMem.lean ====
section
/-! DEFINITION. Vector memory access: VLD and VST (R250 to R253), VLDFF, VLDW, VSTW and VLDSLIDE (R254 to R257),
and VAMO (R258). -/

namespace Sys2Proof.Machine

/-- The memory width of an element for a width code (R25, R250). -/
def memBytes (eb w : Nat) : Nat := if w = 0 then eb else 2 ^ (w - 1)

/-- Whether a width code is legal under the vcfg type (R25). -/
def Hart.widthOk (h : Hart) (w : Nat) : Bool := w == 0 || (h.ew < 4 && memBytes h.eb w < h.eb)

/-- The forms of R250: unit stride, scalar stride, indexed by a group, and segments of n fields. -/
inductive VForm where
  | unit
  | stride (v : Word)
  | indexed (r : Fin 32)
  | segment (n : Nat)
  deriving DecidableEq, Repr

/-- The number of fields of a form. -/
def VForm.fields : VForm → Nat
  | .segment n => n
  | _ => 1

/-- The registers a form reads as sources. -/
def VForm.regs : VForm → List Nat
  | .indexed r => [r.val]
  | _ => []

/-- The address of element i, field f (R250); none for an indexed offset that is no integer. -/
def Hart.ea (h : Hart) (m : VForm) (base : Word) (mw i f : Nat) : Option Word :=
  match m with
  | .unit => some (base + w64 (i * mw))
  | .stride v => some (base + w64 i * v)
  | .indexed r => (h.index (h.velem r i)).map fun n => base + w64 n
  | .segment n => some (base + w64 ((i * n + f) * mw))

/-- The addresses of the fields of element i, or the misaligned stop of R250. -/
def State.addrs (s : State) (m : VForm) (base : Word) (mw i : Nat) : Res (List Word) :=
  match (List.range m.fields).mapM (s.h.ea m base mw i) with
  | some as => .ok as s
  | none => .stop (misaligned base) s

/-- Check the fields of a record before any of them moves (R251). -/
def State.checkAll (s : State) (n i : Nat) (need : Need) : List Word → Res Unit
  | [] => .ok () s
  | a :: as => (s.elemCheck a n need i).bind fun _ t => t.checkAll n i need as

/-- Load the fields of a record (R251). -/
def State.loadAll (s : State) (n i : Nat) (pol : Policy) : List Word → Res (List Nat)
  | [] => .ok [] s
  | a :: as => (s.elemLoad a n pol i).bind fun v t => (t.loadAll n i pol as).bind fun vs u => .ok (v :: vs) u

/-- The stores of a record or a line can all be performed now: a word that is busy makes the element wait before any of
it is stored (R115, R127). -/
def State.readyAll (s : State) (n i : Nat) (pol : Policy) : List Word → Res Unit
  | [] => .ok () s
  | a :: as =>
    (s.locate a n true .write false i).bind fun l t =>
      match l with
      | .scratch _ => t.readyAll n i pol as
      | .phys pa =>
        match (if t.lostPeer pa then none else t.accessWait t.h.core (wordAddr pa) pol) with
        | some x => .stop (.wait (.word x)) t
        | none => t.readyAll n i pol as

/-- Store the fields of a record (R251). -/
def State.storeAll (s : State) (n i : Nat) (pol : Policy) : List (Word × Nat) → Res Unit
  | [] => .ok () s
  | (a, v) :: as => (s.elemStore a n pol v i).bind fun _ t => t.storeAll n i pol as

/-- Write the fields of element i into the groups at d and at the copy (R253, R37). -/
def Hart.putFields (h : Hart) (d i : Nat) (vs : List Nat) : Hart :=
  let c := h.vcpy
  vs.zipIdx.foldl (fun g e =>
    g.putElem (d + e.2 * h.grp) h.ew h.lgrp i e.1 (if c = 0 then 0 else c + e.2 * h.grp)) h

/-- Whether the groups of a form are legal as a run from r (R23, R253, R374). -/
def Hart.formOk (h : Hart) (m : VForm) (r : Nat) : Bool :=
  match m with
  | .segment n => 2 ≤ n && n ≤ 8 && runOk r h.grp n && h.runFree r (h.grp * n)
  | _ => runOk r h.grp 1

/-- The legality of a load's destination runs, the copy's included; of a segment load the two are disjoint (R37). -/
def Hart.loadOk (h : Hart) (m : VForm) (d : Nat) : Bool :=
  let c := h.vcpy
  let n := h.grp * m.fields
  h.formOk m d && h.dstOk h.ew d h.grp &&
  (c == 0 || (h.formOk m c && h.dstOk h.ew c h.grp && (m.fields = 1 || !overlap d n c n)))

/-- One element of a load (R251). -/
def State.loadElem (s : State) (m : VForm) (d : Nat) (base : Word) (mw : Nat) (pol : Policy) (i : Nat) : Res Unit :=
  (s.addrs m base mw i).bind fun as t =>
    (if m.fields = 1 then .ok () t else t.checkAll mw i .read as).bind fun _ t =>
      (t.loadAll mw i pol as).bind fun vs u => .ok () { u with h := u.h.putFields d i vs }

/-- What a load uses. -/
def Hart.loadUse (h : Hart) (m : VForm) (d : Nat) (k : Fin 8) (w : Nat) : VUse :=
  { ok := h.widthOk w && h.loadOk m d && h.srcsOk m.regs
    srcs := m.regs
    reads := m.regs.map fun r => (r, h.eb)
    masks := [k.val]
    act := some k
    dsts := if m.fields = 1 then h.dests d else [] }

/-- A VLD form (R251, R253). -/
def State.vload (s : State) (m : VForm) (d a : Fin 32) (k : Fin 8) (p : Policy) (w : Fin 4) : Out :=
  let old := s.h
  let base := s.h.xa a
  s.vbegin (s.h.loadUse m d k w) fun t =>
    t.velems old k (fun i u => u.loadElem m d base (memBytes u.h.eb w) p i) fun t => t.appends d t.h.ew

/-- One element of a store (R251): the low bytes of the data elements. -/
def State.storeElem (s : State) (m : VForm) (d : Nat) (base : Word) (mw : Nat) (pol : Policy) (i : Nat) : Res Unit :=
  (s.addrs m base mw i).bind fun as t =>
    (if m.fields = 1 then .ok () t else (t.checkAll mw i .write as).bind fun _ t => t.readyAll mw i pol as).bind fun _ t =>
      t.storeAll mw i pol (as.zipIdx.map fun e => (e.1, t.h.velem (d + e.2 * t.h.grp) i % 2 ^ (8 * mw)))

/-- A VST form (R251, R253): the data group is a source. -/
def State.vstore (s : State) (m : VForm) (d a : Fin 32) (k : Fin 8) (p : Policy) (w : Fin 4) : Out :=
  let h := s.h
  let old := h
  let base := h.xa a
  let u : VUse :=
    { ok := h.widthOk w && h.formOk m d && h.srcsOk m.regs && h.srcOk h.ew d h.grp
      srcs := m.regs ++ [d.val]
      reads := ((List.range m.fields).map fun f => (d.val + f * h.grp, h.eb)) ++ m.regs.map fun r => (r, h.eb)
      masks := [k.val]
      act := some k }
  s.vbegin u fun t => t.velems old k (fun i u => u.storeElem m d base (memBytes u.h.eb w) p i) id

/-- VLD at unit stride (R253). -/
def execVldUnit (d a : Fin 32) (k : Fin 8) (p : Policy) (w : Fin 4) (s : State) : Out := s.vload .unit d a k p w

/-- VLD with a scalar stride (R253). -/
def execVldStrided (d a b : Fin 32) (k : Fin 8) (p : Policy) (w : Fin 4) (s : State) : Out :=
  s.vload (.stride (s.h.xb b)) d a k p w

/-- VLD indexed (R253). -/
def execVldIndexed (d a b : Fin 32) (_y : Bool) (k : Fin 8) (p : Policy) (w : Fin 4) (s : State) : Out :=
  s.vload (.indexed b) d a k p w

/-- VLD.SEGn (R253): the field f is the number of fields less one. -/
def execVldSegment (d a f : Fin 32) (k : Fin 8) (p : Policy) (w : Fin 4) (s : State) : Out :=
  s.vload (.segment (f + 1)) d a k p w

/-- VST at unit stride (R253). -/
def execVstUnit (d a : Fin 32) (k : Fin 8) (p : Policy) (w : Fin 4) (s : State) : Out := s.vstore .unit d a k p w

/-- VST with a scalar stride (R253). -/
def execVstStrided (d a b : Fin 32) (k : Fin 8) (p : Policy) (w : Fin 4) (s : State) : Out :=
  s.vstore (.stride (s.h.xb b)) d a k p w

/-- VST indexed (R253). -/
def execVstIndexed (d a b : Fin 32) (_y : Bool) (k : Fin 8) (p : Policy) (w : Fin 4) (s : State) : Out :=
  s.vstore (.indexed b) d a k p w

/-- VST.SEGn (R253). -/
def execVstSegment (d a f : Fin 32) (k : Fin 8) (p : Policy) (w : Fin 4) (s : State) : Out :=
  s.vstore (.segment (f + 1)) d a k p w

/-- Whether a fault of a later element trims a VLDFF (R255). -/
def Stop.trims : Stop → Bool
  | .trap t => t.code == 2 || t.code == 3 || t.code == 7
  | _ => false

/-- VLDFF (R255): a fault of an element after the first active one trims vl. A wait starts it again from its
vstart, so that its first element stays the same: no element is written before all of them are (R115). -/
def execVldff (d a : Fin 32) (k : Fin 8) (p : Policy) (w : Fin 4) (s : State) : Out :=
  let base := s.h.xa a
  s.vbegin (s.h.loadUse .unit d k w) fun t =>
    let start := t.h.first
    let es := t.h.elems k
    match t.vloop (fun i u => u.loadElem .unit d base (memBytes u.h.eb w) p i) es with
    | (none, u) => u.vend fun u => u.appends d u.h.ew
    | (some (j, e), u) =>
      if e.trims && es.head? != some j then ((u.trimTo j).appends d u.h.ew).vdone
      else if e.isWait then { u with h := { u.h with vec := t.h.vec, badPool := t.h.badPool } }.vstop start e
      else u.vstop j e

/-- The address in the register file of line m of the image of the group at d (R205, R256). -/
def Hart.imageAddr (h : Hart) (d m : Nat) : Nat := 4096 * (d + 128 * m / h.vrb) + 128 * m % h.vrb

/-- The addresses of the sixteen words of line m of an image at `base`. -/
def imageWords (base : Word) (m : Nat) : List Word := (List.range 16).map fun j => base + w64 (128 * m + 8 * j)

/-- The words of a line, each with the whole line's last byte for the watermarks (R112, R256). -/
def State.lineLoad (s : State) (pol : Policy) (m last : Nat) : List Word → Res (List Nat)
  | [] => .ok [] s
  | ea :: as =>
    ((s.locate ea 8 true .read false m).bind fun l t => t.readLocTo last l ea 8 pol).bind fun v t =>
      (t.lineLoad pol m last as).bind fun vs u => .ok (v :: vs) u

/-- Line m of an image arrives in the register file, and its register's extent reaches to its end (R256, R422). -/
def Hart.putLine (h : Hart) (d m : Nat) (vs : List Nat) : Hart :=
  let reg := h.imageAddr d m
  let h := h.cleanPool 0 reg 128
  let v := vs.zipIdx.foldl (fun v e => v.write (reg + 8 * e.2) 8 e.1) h.vec.v
  { h with vec := { h.vec with
      v := v
      ext := noteExtent (d + 128 * m / h.vrb) h.ew h.lgrp ((128 * m % h.vrb + 128) / h.eb - 1) h.vec.ext } }

/-- Move line m of a register image, all of it or nothing (R115, R256). -/
def State.imageLine (s : State) (load : Bool) (d : Nat) (base : Word) (pol : Policy) (m : Nat) : Res Unit :=
  let eas := imageWords base m
  let reg := s.h.imageAddr d m
  if load then
    (s.lineLoad pol m (base.toNat + 128 * m + 127) eas).bind fun vs t => .ok () { t with h := t.h.putLine d m vs }
  else if s.h.badPool.any (fun e => e.1 == 0 && decide (reg / 8 ≤ e.2) && decide (e.2 < reg / 8 + 16)) then
    .stop (.trap (uncorrectable (BitVec.allOnes 64))) s
  else
    ((s.readPool 0 reg 128).readyAll 8 m pol eas).bind fun _ t =>
      t.storeAll 8 m pol (eas.zipIdx.map fun e => (e.1, t.h.vec.v.read (reg + 8 * e.2) 8))

/-- VLDW and VSTW (R256): lines in ascending order from line vstart; with VL = 0 nothing moves (R209). Each line's words
are all checked before any of it moves. -/
def State.vimage (s : State) (load : Bool) (d a : Fin 32) (p : Policy) : Out :=
  let h := s.h
  let base := h.xa a
  let u : VUse := { ok := runOk d h.grp 1, srcs := [], reads := [], masks := [], useE := false }
  s.vbegin u fun t =>
    let h := t.h
    if h.vl = 0 then t.vdone
    else if base.toNat % 128 ≠ 0 then t.vstop h.first (misaligned base)
    else
      let lines := h.grp * h.vrb / 128
      let need := if load then Need.read else Need.write
      match t.vloop (fun m v => (v.checkAll 8 m need (imageWords base m)).bind fun _ v => v.imageLine load d base p m)
          (List.range' h.first (lines - h.first)) with
      | (none, v) => v.vdone
      | (some (m, e), v) => v.vstop m e

/-- VLDW (R256). -/
def execVldw (d a : Fin 32) (p : Policy) (s : State) : Out := s.vimage true d a p

/-- VSTW (R256). -/
def execVstw (d a : Fin 32) (p : Policy) (s : State) : Out := s.vimage false d a p

/-- The new elements of a VLDSLIDE, every load performed before any write (R257). -/
def State.slideAll (s : State) (d : Nat) (base : Word) (mw n : Nat) (pol : Policy) : List Nat → Res (List (Nat × Nat))
  | [] => .ok [] s
  | i :: is =>
    (if i + n < s.h.vl then .ok (s.h.velem d (i + n)) s else s.elemLoad (base + w64 (i * mw)) mw pol i).bind fun v t =>
      (t.slideAll d base mw n pol is).bind fun vs u => .ok ((i, v) :: vs) u

/-- Check the loads of a VLDSLIDE (R257). -/
def State.slideCheck (s : State) (base : Word) (mw n : Nat) : List Nat → Res Unit
  | [] => .ok () s
  | i :: is =>
    (if i + n < s.h.vl then .ok () s else s.elemCheck (base + w64 (i * mw)) mw .read i).bind fun _ t =>
      t.slideCheck base mw n is

/-- VLDSLIDE (R257). -/
def execVldslide (d a b : Fin 32) (k : Fin 8) (p : Policy) (w : Fin 4) (s : State) : Out :=
  let base := s.h.xa a
  let n := (s.h.xb b).toNat
  let u := { s.h.use (s.h.widthOk w) d [] k true with whole := true }
  s.vbegin u fun t =>
    let mw := memBytes t.h.eb w
    let es := t.h.actives k
    match (t.slideCheck base mw n es).bind fun _ t => t.slideAll d base mw n p es with
    | .stop e v => v.vstop 0 e
    | .ok xs v => ({ v with h := v.h.putAll d v.h.ew v.h.lgrp xs }.appends d v.h.ew).vdone

/-- A VAMO (R258, R32): far, at device scope, in ascending element order. -/
def State.vamo (s : State) (op : AmoOp) (d a b : Fin 32) (k : Fin 8) : Out :=
  let h := s.h
  let old := h
  let base := h.xa a
  let n := if op = .cas then 2 else 1
  let use := h.use (h.ew = 2 ∨ h.ew = 3) d [b.val] k true
  let u : VUse :=
    { use with
      ok := use.ok && runOk d h.grp n && h.runFree d (h.grp * n)
      reads := ((List.range n).map fun f => (d.val + f * h.grp, h.eb)) ++ use.reads }
  s.vbegin u fun t =>
    t.velems old k (fun i u =>
      let h := u.h
      let ea := base + w64 (h.velem b i)
      (u.elemAmo ea h.eb op (h.velem d i) (if op = .cas then h.velem (d + h.grp) i else 0) i).bind fun v w =>
        .ok () { w with h := w.h.putElem d h.ew h.lgrp i v w.h.vcpy }) fun t => t.appends d t.h.ew

/-- VAMOSWAP (R258). -/
def execVamoswap (d a b : Fin 32) (_y : Bool) (k : Fin 8) (s : State) : Out := s.vamo .swap d a b k

/-- VAMOADD (R258). -/
def execVamoadd (d a b : Fin 32) (_y : Bool) (k : Fin 8) (s : State) : Out := s.vamo .add d a b k

/-- VAMOAND (R258). -/
def execVamoand (d a b : Fin 32) (_y : Bool) (k : Fin 8) (s : State) : Out := s.vamo .and d a b k

/-- VAMOOR (R258). -/
def execVamoor (d a b : Fin 32) (_y : Bool) (k : Fin 8) (s : State) : Out := s.vamo .or d a b k

/-- VAMOXOR (R258). -/
def execVamoxor (d a b : Fin 32) (_y : Bool) (k : Fin 8) (s : State) : Out := s.vamo .xor d a b k

/-- VAMOMIN (R258). -/
def execVamomin (d a b : Fin 32) (_y : Bool) (k : Fin 8) (s : State) : Out := s.vamo .min d a b k

/-- VAMOMAX (R258). -/
def execVamomax (d a b : Fin 32) (_y : Bool) (k : Fin 8) (s : State) : Out := s.vamo .max d a b k

/-- VAMOMINU (R258). -/
def execVamominu (d a b : Fin 32) (_y : Bool) (k : Fin 8) (s : State) : Out := s.vamo .minu d a b k

/-- VAMOMAXU (R258). -/
def execVamomaxu (d a b : Fin 32) (_y : Bool) (k : Fin 8) (s : State) : Out := s.vamo .maxu d a b k

/-- VAMOCAS (R258). -/
def execVamocas (d a b : Fin 32) (_y : Bool) (k : Fin 8) (s : State) : Out := s.vamo .cas d a b k

end Sys2Proof.Machine
end

