-- ==== Sys2Proof/Machine/Chain.lean ====
section
/-! DEFINITION. The chain window (R212, R267, R273, R275, R276, R412): when a queued vector instruction starts, how far a
started one may go, and how it is carried out. -/

namespace Sys2Proof.Machine

/-! ### What a vector word names (R22 to R30) -/

/-- A run of n registers whose elements have eb bytes: element i of two equal runs is the same element. Runs of 64-bit
fields that count their elements otherwise have eb = 0. -/
structure RegRun where
  reg : Nat
  n   : Nat
  eb  : Nat
  deriving DecidableEq, Repr

/-- `count` runs of g registers from register r on. -/
def runsAt (r count g eb : Nat) : List RegRun := (List.range count).map fun f => ⟨r + f * g, g, eb⟩

/-- Whether two runs overlap. -/
def RegRun.meets (r q : RegRun) : Bool := overlap r.reg r.n q.reg q.n

/-- Whether element i of one run is element i of the other. -/
def RegRun.same (r q : RegRun) : Bool := r == q && r.eb != 0

/-- Whether a word is YDRAIN (R28). -/
def isYdrain (w : IWord) : Bool := field w 26 6 == 0x30 && field w 0 4 == 6

/-- Whether a word is SPAN (R28). -/
def isSpan (w : IWord) : Bool := field w 26 6 == 0x33 && field w 0 6 == 1

/-- Whether a vector word takes a place in the chain window beside others (R275, R302): not VSETL, REGION and SPAN, and of the
Yoke, stream and collective instructions only YDRAIN. -/
def shares (w : IWord) : Bool :=
  let op := field w 26 6
  (decide (0x21 ≤ op) && decide (op ≤ 0x2F) && op != 0x28) || isYdrain w || (op == 0x33 && !isSpan w) || op == 0x34

/-- Whether a unary word of VI and VF has no b operand (R30). -/
def isUnary (w : IWord) : Bool :=
  let f := field w 0 6
  (field w 26 6 == 0x21 && decide (26 ≤ f)) || (field w 26 6 == 0x23 && decide (12 ≤ f))

/-- Whether a word of VI or VF reads its destination as an accumulator: VMACC and the fused forms (R214, R226). -/
def readsAcc (w : IWord) : Bool :=
  let f := field w 0 6
  match field w 26 6 with
  | 0x21 | 0x22 => f == 20
  | 0x23 | 0x24 => decide (6 ≤ f) && decide (f ≤ 9)
  | _ => false

/-- The number of fields of a VLD or VST word (R25). -/
def fieldsOf (w : IWord) : Nat := if field w 5 2 = 3 then field w 11 5 + 1 else 1

/-- The registers that an entry reads under group size g and element bytes eb, each with its chain bit (R24, R30, R212). The
accumulator and the data of a store carry no chain bit and are read as if it were 1; that of BLEND's depth is 0. -/
def ChainEntry.reads (e : ChainEntry) (g eb : Nat) : List (RegRun × Bool) :=
  let w := e.word
  let d := field w 21 5
  let a := field w 16 5
  let b := field w 11 5
  let ca := flag w 10
  let cb := flag w 9
  let f := field w 0 6
  let one (r : Nat) (c : Bool) : List (RegRun × Bool) := [(⟨r, g, eb⟩, c)]
  let many (r n : Nat) (c : Bool) : List (RegRun × Bool) := (runsAt r n g eb).map fun x => (x, c)
  let wide (r n : Nat) (c : Bool) : List (RegRun × Bool) := [(⟨r, n * g, 0⟩, c)]
  match field w 26 6 with
  | 0x21 | 0x23 => one a ca ++ (if isUnary w then [] else one b cb) ++ if readsAcc w then one d true else []
  | 0x22 | 0x24 => (if f = 29 then [] else one a ca) ++ if readsAcc w then one d true else []
  | 0x25 => one a ca ++ if flag w 5 then [] else one b cb
  | 0x29 => if f = 0 then one a ca ++ one b cb else if f = 7 ∨ f = 10 then [] else one a ca
  | 0x2A => one a ca ++ if f ≤ 10 then one b cb else []
  | 0x2B => one a ca
  | 0x2C => if field w 5 2 = 2 then one b (flag w 10) else []
  | 0x2D => many d (fieldsOf w) true ++ if field w 5 2 = 2 then one b (flag w 10) else []
  | 0x2E => if field w 5 2 = 2 ∨ field w 5 2 = 3 then one d true else []
  | 0x2F => one b (flag w 10) ++ many d (if field w 3 4 = 9 then 2 else 1) true
  | 0x33 => if f = 2 then one d false ++ many a 4 ca else many a (if f = 0 then 4 else 1) ca
  | 0x34 =>
    if f ≤ 1 then many a 8 ca ++ wide b 2 cb
    else if f = 2 then many a 9 ca
    else if f = 5 then (if eb = 4 then wide a 2 ca else one a ca)
    else wide a 10 ca
  | _ => []

/-- The runs from a register that hold the result of a word (R30, R253, R284). -/
def resultAt (w : IWord) (r g eb : Nat) : List RegRun :=
  let f := field w 0 6
  match field w 26 6 with
  | 0x21 | 0x22 | 0x23 | 0x24 | 0x2A | 0x2F | 0x30 => [⟨r, g, eb⟩]
  | 0x29 => if f = 9 then [] else [⟨r, g, eb⟩]
  | 0x2B => let db := codeBytes (field w 0 4); [⟨r, cvtGrp g eb db, db⟩]
  | 0x2C => runsAt r (fieldsOf w) g eb
  | 0x2E => if field w 5 2 = 2 then [] else [⟨r, g, eb⟩]
  | 0x33 => if f = 0 then runsAt r 4 g eb else []
  | 0x34 =>
    match f with
    | 1 => runsAt r 4 g eb
    | 5 => [⟨r, g, eb⟩]
    | 0 => [⟨r, 6 * g, 0⟩]
    | 2 => [⟨r, 10 * g, 0⟩]
    | 3 => [⟨r, 3 * g, 0⟩]
    | _ => [⟨r, 8 * g, 0⟩]
  | _ => []

/-- The registers that an entry writes: its result, and the copy of it that a prefix asks for (R278). -/
def ChainEntry.writes (e : ChainEntry) (g eb : Nat) : List RegRun :=
  resultAt e.word (field e.word 21 5) g eb ++
  match e.pfx with
  | some p => if pfxCpy p = 0 then [] else resultAt e.word (pfxCpy p) g eb
  | none => []

/-- The masks that an entry reads: its k field, the mask operands of VK and VDIV, the predicate of a prefix, and E, which has
the number 8 (R22, R30, R207). -/
def ChainEntry.masksRead (e : ChainEntry) : List Nat :=
  let w := e.word
  let op := field w 26 6
  let k := if 0x2C ≤ op ∧ op ≤ 0x2F then field w 7 3 else if op = 0x30 then 0 else field w 6 3
  let vk := if op = 0x26 then [field w 16 5, field w 11 5] else []
  8 :: k :: vk ++ match e.pfx with | some p => [pfxP p] | none => []

/-- The masks that an entry writes. -/
def ChainEntry.masksWritten (e : ChainEntry) : List Nat :=
  let w := e.word
  let d := field w 21 5
  match field w 26 6 with
  | 0x25 => [d]
  | 0x26 => if field w 0 6 = 8 ∨ field w 0 6 = 9 then [] else [d]
  | 0x27 => [8]
  | 0x33 => if field w 0 6 = 3 then [d] else []
  | _ => []

/-- The vector instructions of a hart that are issued and not complete. -/
def Hart.behind (h : Hart) : Nat := h.window.length + h.viq.length

/-! ### Memory accesses of the window -/

/-- Whether a word accesses memory, and whether it writes there: VST, VSTW, VAMO, GHIT's sticky word, a walk's slots and
records. -/
def isVmem (w : IWord) : Bool :=
  let op := field w 26 6
  (decide (0x2C ≤ op) && decide (op ≤ 0x2F)) || op == 0x33 || (op == 0x34 && field w 0 6 != 5)

def storesMem (w : IWord) : Bool :=
  let op := field w 26 6
  op == 0x2D || op == 0x2F || (op == 0x2E && field w 5 2 == 2) || (op == 0x34 && (field w 0 6 == 2 || field w 0 6 == 3))

/-- The form of a VLD or VST whose addresses no register holds (R25, R250). -/
def ChainEntry.form (e : ChainEntry) : Option VForm :=
  let w := e.word
  if field w 26 6 = 0x2C ∨ field w 26 6 = 0x2D then
    match field w 5 2 with
    | 0 => some .unit
    | 1 => some (.stride e.xb)
    | 3 => some (.segment (fieldsOf w))
    | _ => none
  else none

/-- The places, `size` bytes each, that an entry's element i accesses; a field that would fault accesses none, and `none`
while a translation has to wait. -/
def State.elemPlaces (s : State) (e : ChainEntry) (m : VForm) (size i : Nat) : Option (List Loc) :=
  let need := if storesMem e.word then Need.write else Need.read
  (((List.range m.fields).filterMap (s.h.ea m e.xa size i)).mapM fun ea =>
    match s.locate ea size true need false i with
    | .ok l _ => some [l]
    | .stop (.wait _) _ => none
    | .stop _ _ => some []).map List.flatten

/-- Whether n bytes at one place and m bytes at another overlap. -/
def Loc.meets (n m : Nat) : Loc → Loc → Bool
  | .scratch a, .scratch b => overlap a n b m
  | .phys a, .phys b => overlap a n b m
  | _, _ => false

/-- Whether no element of the younger instruction e may come before a later element of o that accesses the same bytes, one of
them storing: R275 orders e's element j after o's elements up to j alone. An indexed form, a VAMO, and an access whose
translation has to wait are taken to conflict. -/
def State.memApart (s : State) (e o : ChainEntry) : Bool :=
  if !lockstep e.word || !isVmem e.word || !isVmem o.word || !(storesMem e.word || storesMem o.word) then true
  else
    match e.form, o.form with
    | some m, some q =>
      let n := memBytes s.h.eb (field e.word 3 2)
      let p := memBytes s.h.eb (field o.word 3 2)
      (List.range' o.start (s.h.vl - o.start)).all fun i =>
        match s.elemPlaces o q p i with
        | none => false
        | some ls => (List.range' e.start (i - e.start)).all fun j =>
          match s.elemPlaces e m n j with
          | none => false
          | some ks => ks.all fun k => ls.all fun l => !Loc.meets n p k l
    | _, _ => false

/-! ### Units (R267) -/

/-- The pipes that an instruction holds from its start to its end (R221, R236, R267, R302): the memory pipe, the permute
network, and one of the two arithmetic pipes. -/
def usesMemory (w : IWord) : Bool := isVmem w && !(field w 26 6 == 0x34 && (field w 0 6 == 2 || field w 0 6 == 4))

def usesPermute (w : IWord) : Bool := field w 26 6 == 0x29

def usesArith (w : IWord) : Bool :=
  let op := field w 26 6
  (decide (0x21 ≤ op) && decide (op ≤ 0x27)) || op == 0x2A || op == 0x2B ||
  (op == 0x34 && (field w 0 6 == 0 || field w 0 6 == 1 || field w 0 6 == 5))

/-- Whether a hart that runs or waits holds its units. -/
def Hart.holdsUnits (h : Hart) : Bool :=
  match h.status with
  | .run | .wait _ => true
  | _ => false

/-- How many of n pipes of a kind the started instructions of a hart hold. -/
def Hart.pipes (h : Hart) (n : Nat) (uses : IWord → Bool) : Nat := min n (h.window.filter fun e => uses e.word).length

/-- Whether an instruction of the hart on turn may enter a pipe of a kind of which its core has n: no other hart's instruction
holds the last of them, or the hart has an instruction on one (R267). -/
def State.pipeFree (s : State) (n : Nat) (uses : IWord → Bool) : Bool :=
  let mates := s.others.filter fun g => g.core == s.h.core && g.holdsUnits
  decide (mates.foldl (fun k g => k + g.pipes n uses) 0 < n) || s.h.pipes n uses != 0

/-- Whether the units of a word are free for the hart on turn (R267). -/
def State.unitsFree (s : State) (w : IWord) : Bool :=
  (!usesMemory w || s.pipeFree 1 usesMemory) && (!usesPermute w || s.pipeFree 1 usesPermute) &&
  (!usesArith w || s.pipeFree 2 usesArith)

/-! ### Starting (R212, R275, R412) -/

/-- The elements of a type that one element group holds (R204, R270). -/
def State.groupSize (s : State) (ew : Nat) : Nat := s.lanes s.h.core * 8 / codeBytes ew

/-- Whether an entry may start behind a started one (R212, R275): what it reads and the other writes has its chain bit set,
and the other has completed its first element group of n elements; a mask is read as if the bit were set. An entry that goes
through its groups behind older ones names registers that overlap the other's only as the same elements. -/
def ChainEntry.behind (e o : ChainEntry) (grp eb n : Nat) : Bool :=
  let begun := decide (n ≤ o.start)
  ((e.reads grp eb).all fun r => (o.writes grp eb).all fun q =>
    !r.1.meets q || (r.2 && begun && (!lockstep e.word || r.1.same q))) &&
  ((e.writes grp eb).all fun r => ((o.writes grp eb) ++ (o.reads grp eb).map fun x => x.1).all fun q =>
    !r.meets q || !lockstep e.word || (lockstep o.word && r.same q)) &&
  (o.masksWritten.all fun k => !e.masksRead.contains k || begun)

/-- Whether an entry names no bound register. -/
def Hart.unbound (h : Hart) (e : ChainEntry) : Bool :=
  ((e.reads h.grp h.eb).all fun r => h.runFree r.1.reg r.1.n) && (e.writes h.grp h.eb).all fun r => h.runFree r.reg r.n

/-- Whether the offset of R412 between two entries fits in tchain. -/
def nearBy (o e : ChainEntry) : Bool :=
  let off := ((e.pc - o.pc).sshiftRight 2).toInt
  decide (-16384 ≤ off) && decide (off ≤ 16383)

/-- Whether a queued instruction may start now (R267, R275, R412). -/
def State.startOk (s : State) (e : ChainEntry) : Bool :=
  s.unitsFree e.word &&
  match s.h.window with
  | [] => true
  | o :: os =>
    os.length < 2 && (e :: o :: os).all (fun k => shares k.word) && nearBy o e && s.h.unbound e &&
    (o :: os).all fun k => e.behind k s.h.grp s.h.eb (s.groupSize s.h.ew) && s.memApart e k

/-- The oldest queued instruction enters the window, under the vcfg and vl that it meets (R35, R275). -/
def Hart.startHead (h : Hart) : Hart :=
  match h.viq with
  | [] => h
  | e :: rest => { h with viq := rest, window := h.window ++ [{ e with vcfg := h.vec.vcfg, vl := h.vec.vl }] }

/-- VECTOR_START (R267, R275): in program order, for an instruction that takes a place in the window. -/
def execVectorStart (h : Nat) (s : State) : Out :=
  .next (s.onHart h fun s =>
    match s.h.viq with
    | e :: _ =>
      if s.h.cap.isNone && s.h.chase == 0 && shares e.word && s.startOk e then { s with h := s.h.startHead } else s
    | [] => s)

/-! ### Carrying out part of a started instruction -/

/-- Carry out the k-th instruction of the window on the hart's turn, from its first unprocessed element up to a bound
(R211, R275, R413). -/
def Hart.startEntry (h : Hart) (k : Nat) (lim : Option Nat) : Hart :=
  match h.window[k]? with
  | none => h
  | some e =>
    { h with pc := e.pc, back := some h.pc, cur := k, ir := e.word, cap := some e, lim := lim
             vec := { h.vec with vstart := w64 e.start } }

/-- How far the k-th instruction may go: to the end of the last whole element group that every older instruction of the
window has completed (R275). The oldest has no bound. -/
def Hart.boundOf (h : Hart) (g k : Nat) : Option Nat :=
  ((h.window.take k).map fun e => e.start / g * g).min?

/-- The youngest instruction of the window that can complete an element group now, and the end of that group: a younger
one that goes through its groups, while its bound lets it, else the oldest while the hart does not wait. -/
def State.nextGroup (s : State) : Option (Nat × Nat) :=
  let h := s.h
  let g := s.groupSize h.ew
  (List.range h.window.length).reverse.findSome? fun k =>
    match h.window[k]? with
    | none => none
    | some e =>
      let n := (e.start / g + 1) * g
      match h.boundOf g k with
      | some b => if e.start < b ∧ lockstep e.word then some (k, min b n) else none
      | none => if h.status = .run then some (k, n) else none

/-- ELEMENT_GROUP_COMPLETE (R275): one element group of a started instruction is carried out, on the hart's next turn. -/
def execElementGroupComplete (h : Nat) (s : State) : Out :=
  .next (s.onHart h fun s =>
    if s.h.cap.isSome || s.h.chase != 0 then s
    else
      match s.nextGroup with
      | some (k, n) => { s with h := s.h.startEntry k (some n), agenda := .hart h :: s.agenda }
      | none => s)

end Sys2Proof.Machine
end

