-- ==== Sys2Proof/Machine/Sys.lean ====
section
/-! DEFINITION. The SYS class without HALT and THAW (R48, R78 to R81, R434) and PFX (R85). -/

namespace Sys2Proof.Machine

/-- ECALL and EBREAK are the trapping instructions that instret counts (R77). -/
def State.countTrap (s : State) : State := { s with h := { s.h with instret := s.h.instret + 1 } }

/-- ECALL (R78): traps by mode; in M mode it is illegal (R48). -/
def execEcall (s : State) : Out :=
  match s.h.mode with
  | .u => s.countTrap.trap (.sync 10 0)
  | .s => s.countTrap.trap (.sync 11 0)
  | .m => .next s.illegal

/-- EBREAK (R78). -/
def execEbreak (s : State) : Out := s.countTrap.trap (.sync 9 0)

/-- TRET (R79, R411); illegal in U mode (R48). -/
def execTret (s : State) : Out := if s.h.mode = .u then .next s.illegal else .next { s with h := s.h.tret }

/-- Whether WFI goes on: a message, a pending interrupt, a debug stop or a pre-emption (R80). -/
def Hart.wakes (h : Hart) : Bool := !h.inbox.posted.isEmpty || !h.irqs.isEmpty || h.lc.haltReq || h.lc.preempt

/-- WFI (R80). -/
def execWfi (s : State) : Out := if s.h.wakes then .next s.finish else .next (s.stopWith (.wait .wfi))

/-- SFENCE (R81, R434); illegal in U mode (R48). It reaches every TLB and pointer cache of the device, and completes only
when every store that has translated, also one that another hart holds (R274), has been performed. -/
def execSfence (a b : Fin 32) (s : State) : Out :=
  if s.h.mode = .u then .next s.illegal
  else
    let page := if a = 0 then none else some ((s.x a).toNat / 4096)
    let asid := if b = 0 ∨ (s.x b).toNat ≥ 65536 then none else some (s.x b).toNat
    let t := { s with mmu := s.mmu.sfence page asid (b == 0) }.dischargeOthers
    .next (if t.holdsStores then t.stopWith (.wait .yoke) else t.finish)

/-- The PFX word with these fields (R20, R36). -/
def pfxWord (v n : Bool) (p c : Fin 32) : Nat :=
  0x6C000000 + b2n v * 2 ^ 25 + b2n n * 2 ^ 24 + p.val * 2 ^ 19 + c.val * 2 ^ 14

/-- PFX (R85, R75): it retires, sets pend and word, and is live for the next word. -/
def execPfx (v n : Bool) (p c : Fin 32) (s : State) : Out :=
  let t := s.finish
  .next { t with h := { t.h with trap := { t.h.trap with
    pfxstate := w64 (2 ^ 63 + pfxWord v n p c), pfxLive := true } } }

end Sys2Proof.Machine
end

