-- ==== Sys2Proof/Machine/HartEv.lean ====
section
/-! DEFINITION. The events of a hart: waits that end (R80, R112, R127, R265), YIELD (R82), interrupts (R405, R407, R409),
and the faults the host services (R169, R436). -/

namespace Sys2Proof.Machine

/-! ### Waits -/

/-- Whether what a hart waits for has come, so that its instruction is tried again. -/
def State.clears (s : State) (h : Hart) (w : Wait) : Bool :=
  match w with
  | .wfi => h.wakes
  | .inboxFull => h.inbox.hasRoom
  | .ipop => !h.inbox.posted.isEmpty || h.inbox.resv.isEmpty
  | .span => (h.spans.any fun p => !p.taken) || s.drained h
  | .yoke | .moving _ => true
  | .word a => !s.wordBusy a
  | .watermark n last =>
    match s.wm? n with
    | some v => decide (last < v.base + v.value) || decide (v.limit ≤ last)
    | none => true
  | .sash c => s.stagedBy h c < 4
  | .engine k => !s.engFrozen k h.ctxid
  | .meshlet => false
  | .handback => !h.handback

/-- The hart's wait is over. -/
def Hart.goOn (h : Hart) : Hart := { h with status := .run }

/-- End a wait of a hart when it is of this kind and what it waits for has come. -/
def State.endWait (s : State) (h : Nat) (p : Wait → Bool) : State :=
  s.onHart h fun s =>
    match s.h.status with
    | .wait w => if p w && s.clears s.h w then { s with h := s.h.goOn } else s
    | _ => s

/-- LOAD_DATA_RETURN (R127, R274): the word is free, and the load or AMO is performed on the hart's next turn. -/
def execLoadDataReturn (h : Nat) (s : State) : Out :=
  .next (s.endWait h fun w => match w with | .word _ => true | _ => false)

/-- WATERMARK_STALL_END (R112): the load goes on, and acquires when it is performed. -/
def execWatermarkStallEnd (h : Nat) (s : State) : Out :=
  .next (s.endWait h fun w => match w with | .watermark _ _ => true | _ => false)

/-- PTE_MOVING_REREAD (R433): the access translates again; while M = 1 it waits again. -/
def execPteMovingReread (h : Nat) (s : State) : Out :=
  .next (s.endWait h fun w => match w with | .moving _ => true | _ => false)

/-- WFI_WAKE (R80): WFI retires. -/
def execWfiWake (h : Nat) (s : State) : Out :=
  .next (s.onHart h fun s => if s.h.status = .wait .wfi ∧ s.h.wakes then s.finish else s)

/-- The other harts of the core that are ready (R82, R266): they run, or what they wait for has come. -/
def State.readyMates (s : State) : List Nat :=
  (s.others.filter fun g => g.core == s.h.core &&
    match g.status with
    | .run => true
    | .wait w => s.clears g w
    | _ => false).map fun g => g.id

/-- YIELD (R82). -/
def execYield (s : State) : Out :=
  let mates := s.readyMates
  let t := s.finish
  .next { t with h := { t.h with yielded := mates } }

/-! ### Interrupts (R405, R407, R409) -/

/-- Whether the hart takes interrupts: in U mode, or in S mode with IE = 1 (R407). -/
def Hart.takesIrq (h : Hart) : Bool :=
  match h.mode with
  | .u => true
  | .s => flag h.trap.tstatus 3
  | .m => false

/-- Whether the hart stands at an instruction boundary at which an interrupt may be taken: never inside a skipped region
(R247). -/
def Hart.atIrq (h : Hart) : Bool :=
  h.cap.isNone && !h.skipping &&
  match h.status with
  | .run => true
  | .wait .handback | .wait .meshlet => false
  | .wait _ => true
  | _ => false

/-- Take the oldest pending interrupt; a WFI retires first (R80). The vector instructions that have started are stopped as
R276 stops them, and what is younger is undone (R274, R409): while younger instructions of the window have to come up
first, the hart goes on with them. -/
def State.takeIrq (s : State) : State :=
  match s.h.irqs with
  | [] => s
  | (code, tval) :: rest =>
    if s.h.takesIrq && s.h.atIrq then
      if s.h.caughtUp then
        let s := if s.h.status = .wait .wfi then s.finish else s
        let s := { s with h := { s.h.settle with irqs := rest, status := .run, chase := 0 } }
        s.takeTrap { intr := true, code := code, orig := 0, viol := false, tval := tval }
      else { s with h := s.h.bringUp }
    else s

/-- INTERRUPT (R409): not while the window's oldest instruction has met a trap, which is taken first; and where the word at
the pc would trap, the event stands for an interrupt that has fallen due before it (assumption 79). -/
def execInterrupt (h : Nat) (s : State) : Out := .next (s.onHart h fun t => if t.h.trapMet then t else t.takeIrq)

/-! ### Faults the host services (R169, R436) -/

/-- Entries of the host's fault queue. -/
def HostIf.fqEntries (f : HostIf) : Nat := 2 ^ (min (field f.fqsize 0 4) 12 + 7)

/-- A record as four words (R436). -/
def FaultRec.words (r : FaultRec) : List Word :=
  [w64 (r.token + r.ctxid * 2 ^ 32), r.tval, r.tepc, w64 (r.code + r.kind * 2 ^ 8 + r.vstart * 2 ^ 32)]

/-- The device's physical address of a host physical address (R426). -/
def hostPa (hpa : Nat) : Nat := 0x4000000000000 + hpa % 0x4000000000000

/-- Write words at a host physical address. -/
def State.hostWrites (s : State) (pa : Nat) : List Word → State
  | [] => s
  | v :: vs => (s.homeWrite pa 255 v).hostWrites (pa + 8) vs

/-- FAULT_RECORD_WRITE (R436): the oldest waiting record goes into the ring, when the ring has room and no word of its entry
has an outstanding home transaction (R127). -/
def execFaultRecordWrite (s : State) : Out :=
  match s.host.recs with
  | [] => .next s
  | r :: rest =>
    let f := s.host
    let pa := hostPa (f.fqbase.toNat + 32 * (f.fqtail % f.fqEntries))
    if f.fqtail - f.fqhead.toNat < f.fqEntries ∧ (s.rangeBusy pa 32).isNone then
      let t := s.hostWrites pa r.words
      .next { t with host := { t.host with recs := rest, fqtail := f.fqtail + 1 } }
    else .next s

/-- The hart that waits for the host under a token. -/
def State.waiter (s : State) (token : Nat) : Option (Nat × TrapInfo) :=
  s.harts.findSome? fun h =>
    match h.status with
    | .hostFault t i => if t = token then some (h.id, i) else none
    | _ => none

/-- Take a token's service timer away. -/
def State.dropTimer (s : State) (token : Nat) : State :=
  { s with host := { s.host with timers := s.host.timers.filter (· != token) } }

/-- Answer the fault with this token; a token that names no waiting fault has no effect (R436). -/
def State.respond (s : State) (token : Nat) (f : TrapInfo → State → State) : State :=
  match s.waiter token with
  | none => s
  | some (id, i) => (s.dropTimer token).onHart id (f i)

/-- Action 0 of a response (R436): the hart restarts at the faulting instruction and element. -/
def State.frespReplay (s : State) (token : Nat) : State :=
  s.respond token fun _ s => { s with h := { s.h with status := .run } }

/-- FRESP_REPLAY (R436). -/
def execFrespReplay (token : Nat) (s : State) : Out := .next (s.frespReplay token)

/-- Whether delivering a trap to a hart's supervisor ends its launch (R410). -/
def Hart.endsBy (h : Hart) (t : TrapInfo) : Bool := h.lc.launch.isSome && h.trap.fresh == some t.key

/-- Whether the answer to a token has to wait since it ends a launch, which the Mantles do not do while the queues are stopped
(R149): `ends` says whether it does so for the hart and its fault. -/
def State.holdsEnd (s : State) (token : Nat) (ends : Hart → TrapInfo → Bool) : Bool :=
  !s.queuesRun &&
  match s.waiter token with
  | some (id, i) => (s.hart? id).any fun h => ends h i
  | none => false

/-- A response that has come while the Mantles end no launch is carried out once they do (R149, R436); the fault's timer
has ended. -/
def State.holdResp (s : State) (token action : Nat) : State :=
  let t := s.dropTimer token
  { t with host := { t.host with resps := t.host.resps ++ [(token, action)] } }

/-- Action 1 of a response (R436): the trap is taken as if claimcfg gave it to the device supervisor. -/
def State.frespSupervisor (s : State) (token : Nat) : State :=
  if s.holdsEnd token Hart.endsBy then s.holdResp token 1 else s.respond token fun i s => s.deliver i

/-- FRESP_TO_SUPERVISOR (R436). -/
def execFrespToSupervisor (token : Nat) (s : State) : Out := .next (s.frespSupervisor token)

/-- End the launch of the hart on turn with FAULT-ENDED (R169). -/
def State.faultEnd (s : State) : State :=
  match s.h.lc.launch with
  | some l => s.endLaunch l 8
  | none => s

/-- Action 2 of a response (R436): the launch ends; not while the queues are stopped (R149). -/
def State.frespEnd (s : State) (token : Nat) : State :=
  if s.holdsEnd token fun _ _ => true then s.holdResp token 2 else s.respond token fun _ s => s.faultEnd

/-- FRESP_END_LAUNCH (R436). -/
def execFrespEndLaunch (token : Nat) (s : State) : Out := .next (s.frespEnd token)

/-- A response to a fault (R436); action 3 is ignored. -/
def State.fresp (s : State) (token action : Nat) : State :=
  match action with
  | 0 => s.frespReplay token
  | 1 => s.frespSupervisor token
  | 2 => s.frespEnd token
  | _ => s

/-- The responses that have waited for the Mantles are carried out (R149). -/
def State.serveResps (s : State) : State :=
  if s.queuesRun then
    s.host.resps.foldl (fun t r => t.fresp r.1 r.2) { s with host := { s.host with resps := [] } }
  else s

/-- The fault-service-timeout trap for a withdrawn fault (R405, R406). -/
def TrapInfo.timeout (i : TrapInfo) : TrapInfo :=
  { intr := false, code := 8, orig := i.code, viol := false, tval := i.tval }

/-- Whether a fault whose service times out ends the launch (R169, R410). -/
def Hart.timeoutEnds (h : Hart) (i : TrapInfo) : Bool := h.claim i.timeout == 1 || h.endsBy i.timeout

/-- FAULT_SERVICE_TIMEOUT (R169): not while a heartbeat window is open. The hart takes fault-service-timeout, unless that
cause too belongs to the host, which let the fault expire: then the launch ends. -/
def execFaultServiceTimeout (token : Nat) (s : State) : Out :=
  if s.fw.arm || !s.host.timers.contains token || s.holdsEnd token Hart.timeoutEnds then .next s
  else
    .next (s.respond token fun i s =>
      if s.h.claim i.timeout = 1 then s.faultEnd else s.takeTrap i.timeout)

end Sys2Proof.Machine
end

