-- ==== Sys2Proof/Machine/HostEv.lean ====
section
/-! DEFINITION. What the host and the Ndel link do to the device (R113, R136, R138, R172, R429, R433, R435, R439 to
R443), and plain register writes (R15). -/

namespace Sys2Proof.Machine

/-! ### CXL.mem (R113, R129, R435) -/

/-- Whether n bytes from an address lie in the range of the HDM decoder (R435). -/
def inHdm (addr n : Nat) : Bool := addr + n ≤ 0x1FFFC000000

/-- Give the host an answer. -/
def State.answerHost (s : State) (status : Nat) (v : Word) : State :=
  { s with host := { s.host with reads := (status, v) :: s.host.reads } }

/-- Read n words for the host; an uncorrectable one carries the data-error indication (R141). -/
def State.hostReads (s : State) (a : Nat) : Nat → State
  | 0 => s
  | n + 1 =>
    let r := s.homeRead a
    (r.s.answerHost (b2n r.bad) r.data).hostReads (a + 8) n

/-- Whether one of the words that hold n bytes from an address is busy. -/
def State.bytesBusy (s : State) (addr n : Nat) : Bool :=
  (List.range ((addr + n + 7 - wordAddr addr) / 8)).any fun i => s.wordBusy (wordAddr addr + 8 * i)

/-- A host read of the words that hold n bytes from an address (R113, R435). -/
def State.cxlRead (s : State) (addr n : Nat) : State :=
  if inHdm addr n then s.hostReads (wordAddr addr) ((addr + n + 7 - wordAddr addr) / 8) else s.answerHost 2 0

/-- Write bytes for the host, those of one word in one message (R131). -/
def State.hostBytes (s : State) (a : Nat) (data : List Byte) : Nat → State
  | 0 => s
  | fuel + 1 =>
    if data.isEmpty then s
    else
      let off := a % 8
      let piece := data.take (8 - off)
      let v := piece.foldr (fun b acc => acc * 256 + b.toNat) 0
      (s.homeWrite (wordAddr a) (byteMask off piece.length) (w64 (v * 2 ^ (8 * off)))).hostBytes
        (a + piece.length) (data.drop piece.length) fuel

/-- A host write of bytes (R113, R435). -/
def State.cxlWrite (s : State) (addr : Nat) (data : List Byte) : State :=
  if inHdm addr data.length then s.hostBytes addr data data.length else s.answerHost 2 0

/-- A write of a register of the host fault queue (R436): offsets in its page. A value that a register's map does not permit
changes nothing (assumption 58). -/
def State.fqWrite (s : State) (off : Nat) (v : Word) : State :=
  match off with
  | 0x00 => if v.toNat % 4096 = 0 then { s with host := { s.host with fqbase := v } } else s
  | 0x08 => if field v 0 4 ≤ 12 then { s with host := { s.host with fqsize := v &&& 15 } } else s
  | 0x18 => { s with host := { s.host with fqhead := v } }
  | 0x20 => s.fresp (field v 0 32) (field v 32 2)
  | _ => s

/-- What an aligned 8-byte host write through BAR0 does to the register that stands at an offset (R153, R435, R436). -/
def State.barApply (s : State) (off : Nat) (v : Word) : State :=
  match notifyReg off with
  | .qnotify q => s.qnotify q v
  | .qctl q => s.qctlWrite q v
  | .faultQueue o => s.fqWrite o v
  | .qstat _ | .hole => s

/-- Whether a host request has to wait for a word whose home transaction is outstanding (R127). -/
def HostReq.waits (r : HostReq) (s : State) : Bool :=
  match r with
  | .read addr n => inHdm addr n && s.bytesBusy addr n
  | .write addr data => inHdm addr data.length && s.bytesBusy addr data.length
  | .bar off v => match notifyReg off with | .qctl q => (s.qctlWait q v).isSome | _ => false

/-- Carry out a host request. -/
def HostReq.serve (r : HostReq) (s : State) : State :=
  match r with
  | .read addr n => s.cxlRead addr n
  | .write addr data => s.cxlWrite addr data
  | .bar off v => s.barApply off v

/-- Whether a request goes through BAR0. -/
def HostReq.isBar : HostReq → Bool
  | .bar _ _ => true
  | _ => false

/-- A host request is carried out at once, or, where it has to wait or an older one of its channel waits, once it can be
(R127, R438). -/
def State.hostReq (s : State) (r : HostReq) : State :=
  if r.waits s || s.host.reqs.any fun q => q.isBar == r.isBar then
    { s with host := { s.host with reqs := s.host.reqs ++ [r] } }
  else r.serve s

/-- The host requests that wait are carried out in order as far as they can be. -/
def State.serveHost (s : State) : State := s.host.reqs.foldl State.hostReq { s with host := { s.host with reqs := [] } }

/-- HOST_CXL_MEM_READ (R113, R435, R438). -/
def execHostCxlMemRead (addr n : Nat) (s : State) : Out := .next (s.hostReq (.read addr n))

/-- HOST_CXL_MEM_WRITE (R113, R435, R438). -/
def execHostCxlMemWrite (addr : Nat) (data : List Byte) (s : State) : Out := .next (s.hostReq (.write addr data))

/-- A host write of n bytes through BAR0 (R153, R435, R436): any but an aligned one of 8 bytes is ignored. -/
def State.barWrite (s : State) (off n : Nat) (v : Word) : State :=
  if n = 8 ∧ off % 8 = 0 then s.hostReq (.bar off v) else s

/-- What a host read of n bytes through BAR0 returns (R153, R435, R436): an aligned 8-byte read of a register its value,
any other read zero. -/
def State.barValue (s : State) (off n : Nat) : Word :=
  if n = 8 ∧ off % 8 = 0 then
    match notifyReg off with
    | .qnotify _ | .hole => 0
    | .qstat q => s.qstat q
    | .qctl q => match s.queue? q with | some k => k.qctl | none => 0
    | .faultQueue o =>
      match o with
      | 0x00 => s.host.fqbase
      | 0x08 => s.host.fqsize
      | 0x10 => w64 s.host.fqtail
      | 0x18 => s.host.fqhead
      | _ => 0
  else 0

/-- A host read through BAR0. -/
def State.barRead (s : State) (off n : Nat) : State := s.answerHost 0 (s.barValue off n)

/-! ### CXL.cache (R136) -/

/-- The words of the 64-byte line of host memory that holds a host physical address. -/
def hostLine (hpa : Nat) : List Nat := (List.range 8).map fun i => hostPa (hpa / 64 * 64) + 8 * i

/-- A snoop takes a word (R136, R437): answers to device requests that are on their way arrive, the word's outstanding
messages are overtaken, and the word comes to U. -/
def State.snoopWord (s : State) (a : Nat) : State :=
  let t := (s.coh.reps.filter fun r => r.req.addr == a).foldl State.accept s
  { t with coh := { t.coh with msgs := t.coh.msgs.filter fun m => m.addr != a } }.toU a

/-- A device request that a snoop has overtaken is served after it (R437): one whose fetch was outstanding from its start, any
other as its acknowledgements would have let it. -/
def State.afterSnoop (s : State) (fetching : Bool) (t : Txn) : State :=
  if fetching then
    ({ s with coh := { s.coh with txns := s.coh.txns.erase t } }.serveReply t.req).serveWaiting t.req.addr
  else s.completeTxn t

/-- Whether a fetch of a word is outstanding. -/
def State.fetching (s : State) (a : Nat) : Bool := s.coh.msgs.any fun m => m.addr == a && m.kind == .fetch

/-- HOST_SNOOP (R136, R437): K words of the line are invalidated and W words recalled, and the agent gives the line up; V
copies and dirty bytes stay. It waits for nothing: the device requests that it overtakes are served after it. -/
def execHostSnoop (addr : Nat) (s : State) : Out :=
  let ws := hostLine addr
  let t := ws.foldl State.snoopWord s
  let t := { t with coh := { t.coh with agent := t.coh.agent.filter (· != hostPa addr / 64) } }
  .next ((s.coh.txns.filter fun x => ws.contains x.req.addr).foldl
    (fun u x => u.afterSnoop (s.fetching x.req.addr) x) t)

/-- CXL_CACHE_RESPONSE (R136): line data from the host stands at the agent for the words of which no core has a tracked or
an owned copy; a completion carries no data. -/
def execCxlCacheResponse (addr : Nat) (data : List Byte) (s : State) : Out :=
  if data.length = 64 then
    .next ((hostLine addr).zipIdx.foldl (fun t w =>
      if (t.seam w.1).isNone then
        t.setMem w.1 (w64 ((data.drop (8 * w.2)).take 8 |>.foldr (fun b acc => acc * 256 + b.toNat) 0))
      else t) s)
  else .next s

/-! ### Host page migration (R138, R429, R433) -/

/-- The addresses of the words of a 4 KiB page that memory lists or that stand in an L1. -/
def State.pageWords (s : State) (page : Nat) : List Nat :=
  ((s.mem.filter fun c => c.1 / 4096 == page).map fun c => wordAddr c.1).eraseDups ++
  ((s.coh.seam.filter fun e => e.1 / 4096 == page).map fun e => wordAddr e.1).filter fun a => (s.mem.read a 8) == 0

/-- The 4 KiB pages that a leaf of a level maps (R427). -/
def leafPages (level : Nat) : Nat := 512 ^ level

/-- The leaves, each with its level, that a table of this level and the tables below it have for a page of the n pages
from `lo`. -/
def State.leavesIn (s : State) (lo n : Nat) : Nat → Nat → List (Nat × Nat)
  | 0, table =>
    ((s.pageWords table).filter fun a =>
      let p := ptePpn (s.homeView a)
      flag (s.homeView a) 0 && decide (lo ≤ p) && decide (p < lo + n)).map fun a => (a, 0)
  | k + 1, table =>
    (s.pageWords table).flatMap fun a =>
      let e := s.homeView a
      if !flag e 0 then []
      else if ptePointer e then s.leavesIn lo n k (ptePpn e)
      else if ptePpn e < lo + n ∧ lo < ptePpn e + leafPages (k + 1) then [(a, k + 1)]
      else []

/-- Every address space in use: of resident and saved harts, of queues, launches, draws and trace rings, and the spaces
that bindings, copies and collectives keep. -/
def State.spaces (s : State) : List Word :=
  ((s.harts ++ s.sched.saved).flatMap fun h =>
    h.sptbase :: (h.sleeves.map fun b => b.spt) ++ (h.copies.map fun c => c.spt) ++ h.colls.map fun c => c.spt) ++
  (s.sched.queues.map fun k => k.space) ++
  (s.sched.launches.flatMap fun l => l.space :: (match l.trace with | some t => [t.space] | none => [])) ++
  s.gfx.draws.map fun d => d.space

/-- The leaves of every address space for a page of the n pages from `lo`. -/
def State.leaves (s : State) (lo n : Nat) : List (Nat × Nat) :=
  ((s.spaces.map sptRoot).eraseDups.flatMap fun t => s.leavesIn lo n 3 t).eraseDups

/-- Purge a page from every L1 (R138 step 2, R69). -/
def State.purgePage (s : State) (page : Nat) : State :=
  (s.coh.l1.filter fun l => l.line / 32 == page).foldl (fun t l => t.dropLine l.core l.line) s

/-- Copy n words at their homes, an uncorrectable word as it is stored (R138 step 3, R141). -/
def State.copyWords (s : State) (src dst : Nat) : Nat → State
  | 0 => s
  | n + 1 =>
    let r := s.homeRead src
    let w : Req := { Req.of .thruStore none dst with mask := 255, data := r.data, bad := r.bad }
    (r.s.serve w).s.copyWords (src + 8) (dst + 8) n

/-- Change entries of page tables, which leave every TLB with the n pages from `lo` (R433). -/
def State.changeLeaves (s : State) (lo n : Nat) (as : List Nat) (f : Word → Word) : State :=
  let t := as.foldl (fun t a => t.homeWrite a 255 (f (t.homeView a))) s
  let apart (e : Tlb) : Bool := !(decide (e.ppn < lo + n) && decide (lo < e.ppn + e.pages))
  { t with mmu := { t.mmu with tlb := t.mmu.tlb.filter apart, tlb2 := t.mmu.tlb2.filter apart } }

/-- Every store that a hart holds, and that has translated already, is performed as far as it can be (R138). -/
def State.dischargeAll (s : State) : State :=
  ((s.harts.filter fun g => !g.unconf.isEmpty).map fun g => g.id).foldl State.discharge s

/-- Whether one of n 4 KiB pages is retired (R415). -/
def State.isRetired (s : State) (page n : Nat) : Bool := s.pow.retired.any fun p => decide (page ≤ p) && decide (p < page + n)

/-- HOST_PAGE_MIGRATION (R138, R433): the host page that holds `src` moves into the device page that holds `dst`; where a
large page maps it, all of that page moves. The first time the event comes the translations are marked in transit; with
all of them marked it purges and copies the page and changes the translations. A store that translated before the page
was in transit is performed first (R138, R434). While one of its words is busy nothing happens, and a page that holds a
retired one is never assigned (R415). -/
def execHostPageMigration (src dst : Nat) (s : State) : Out :=
  let s := s.dischargeAll
  let size := (s.leaves (src / 4096) 1).foldl (fun n l => max n (leafPages l.2)) 1
  let old := src / 4096 / size * size
  let new := dst / 4096 / size * size
  let ls := ((s.leaves old size).map fun l => l.1).eraseDups
  let wait := (s.rangeBusy (old * 4096) (size * 4096)).isSome || (s.rangeBusy (new * 4096) (size * 4096)).isSome ||
    ls.any s.wordBusy || s.harts.any fun g => !g.unconf.isEmpty
  if s.isRetired new size then .next s
  else if placeOf src ≠ .host ∨ placeOf dst ≠ .lpddr ∨ isReserved (new * 4096 + size * 4096 - 1) ∨ wait then .next s
  else if ls.any fun a => !flag (s.homeView a) 1 then .next (s.changeLeaves old size ls fun e => e ||| 2)
  else
    let t := ((List.range size).foldl (fun t i => t.purgePage (old + i)) s).copyWords (old * 4096) (new * 4096) (size * 512)
    .next (t.changeLeaves old size ls fun e =>
      (e &&& ~~~ (w64 ((2 ^ 40 - 1) * 4096)) &&& ~~~ 2#64) ||| w64 ((ptePpn e - old + new) * 4096))

/-! ### Pages that pass to another context (R139) -/

/-- Write n words as 0 at their homes; each is left in U. -/
def State.zeroWords (s : State) (a : Nat) : Nat → State
  | 0 => s
  | n + 1 => ((s.toU a).homeWrite a 255 0).zeroWords (a + 8) n

/-- The Mantles reassign a physical page: before it is mapped into another context it is purged, and every byte becomes 0
at the home (R139). While one of its words is busy nothing happens, and a retired page is never assigned (R415). -/
def State.reassignPage (s : State) (page : Nat) : State :=
  if s.isRetired page 1 || (s.rangeBusy (page * 4096) 4096).isSome || !s.reachable (page * 4096) then s
  else (s.purgePage page).zeroWords (page * 4096) 512

/-! ### Configuration and plain registers (R15, R172) -/

/-- CONFIGURATION_REQUEST (R172): retry status before boot step 6. -/
def execConfigurationRequest (s : State) : Out := .next (s.answerHost (if s.host.cfgOk then 0 else 3) 0)

/-- Whether a CSR's write does more than store the value (R181, R271, R145). -/
def csrActs (n : Nat) : Bool := [0xC01, 0xC02, 0xC03, 0xC04, 0xC06].contains n

/-- REGISTER_WRITE (R15, R71, R143, R436, R441): below 0x1000 the CSR of that number on the hart on turn; 0x1008 FWSRC and
0x1010 FWLEN; 0x2000 FQBASE, 0x2008 FQSIZE and 0x2018 FQHEAD; from 0x10000 on the route table entries. Read-only
registers and values that a map does not permit change nothing. -/
def execRegisterWrite (reg : Nat) (v : Word) (s : State) : Out :=
  if reg < 0x1000 then
    .next (if s.h.csrReadable reg && s.h.csrWritable reg && !csrActs reg then s.csrWrite reg v else s)
  else if reg = 0x1008 ∨ reg = 0x1010 then .next (s.fwStore (reg - 0x1000) v)
  else if 0x2000 ≤ reg ∧ reg ≤ 0x2018 then .next (s.fqWrite (reg - 0x2000) v)
  else if 0x10000 ≤ reg ∧ reg < 0x10400 then
    let m := reg - 0x10000
    .next { s with link := { s.link with
      routes := (m, field v 0 16) :: s.link.routes.filter fun e => e.1 != m } }
  else .next s

/-! ### Flits (R439, R440) -/

/-- Byte i of a flit. -/
def flitByte (f : BitVec 2048) (i : Nat) : Nat := field f (8 * i) 8

/-- Whether a flit's CRC is right (R439). -/
def flitOk (f : BitVec 2048) : Bool := crc64 ((List.range 248).map fun i => f.extractLsb' (8 * i) 8) == field f 1984 64

/-- Change a port. -/
def State.onPort (s : State) (n : Nat) (f : Port → Port) : State :=
  { s with link := { s.link with ports := s.link.ports.map fun p => if p.num = n then f p else p } }

/-- The 256 bytes of a flit that a port sends (R439): sequence numbers, virtual channel, messages and CRC. -/
def Port.flitBytes (p : Port) (f : TxFlit) : List Byte :=
  let ack := (p.rx + 4095) % 4096 + 4096 * b2n p.nak.isSome
  let head : List Byte := [.ofNat 8 f.seq, .ofNat 8 (f.seq / 256 % 16), .ofNat 8 ack, .ofNat 8 (ack / 256), .ofNat 8 f.vc, 0, 0, 0]
  let body := head ++ (List.range 240).map fun i => Config.flitMessage f.addr f.part i
  body ++ (List.range 8).map fun i => .ofNat 8 (crc64 body / 2 ^ (8 * i))

/-- The flits up to and with this sequence number are acknowledged. -/
def Port.ack (p : Port) (seq : Nat) : Port :=
  let rest := p.replay.filter fun e => (e.seq + 4096 - (seq + 1) % 4096) % 4096 < 2048
  if rest.length = p.replay.length then p
  else { p with replay := rest, acked := (seq + 1) % 4096, tries := 0 }

/-- The flits after the last good one are sent again; after 16 replays of a flit the port goes down (R440). -/
def Port.resend (p : Port) (seq : Nat) : Port :=
  let q := p.ack seq
  if q.replay.isEmpty then q
  else if 16 ≤ q.tries then { q with up := false }
  else { q with tries := q.tries + 1 }

/-- Whether a port takes flits: it is up and not frozen (R417, R440). -/
def Port.takes (p : Port) : Bool := p.up && p.frozen.isNone

/-- A flit arrives at a port (R440). Its messages are kept with their virtual channel; a bit that R439 gives as zero is not
looked at (assumption 36). -/
def Port.receive (p : Port) (f : BitVec 2048) : Port :=
  if !p.takes then p
  else if !flitOk f then { p with nak := some ((p.rx + 4095) % 4096) }
  else
    let p := if field f 28 1 = 1 then p.resend (field f 16 12) else p.ack (field f 16 12)
    if field f 0 12 = p.rx then
      { p with rx := (p.rx + 1) % 4096, nak := none, rxq := p.rxq ++ [(flitByte f 4, (List.range 240).map fun i => flitByte f (8 + i))] }
    else p

/-- FLIT_RECEIVE (R440). -/
def execFlitReceive (p : Nat) (flit : BitVec 2048) (s : State) : Out := .next (s.onPort p fun q => q.receive flit)

/-- FLIT_NAK (R440): the peer names the last good sequence number. -/
def execFlitNak (p seq : Nat) (s : State) : Out :=
  .next (s.onPort p fun q => if q.takes then q.resend (seq % 4096) else q)

/-- PORT_DOWN (R440). -/
def execPortDown (p : Nat) (s : State) : Out := .next (s.onPort p fun q => { q with up := false })

/-- Whether no port of a module's mask works (R441). -/
def Link.cutOff (l : Link) (m : Nat) : Bool :=
  let mask := match l.routes.find? (fun e => e.1 == m) with | some e => e.2 | none => 0
  !(l.ports.any fun p => mask.testBit p.num && p.up)

/-- PORT_RETRAIN_COMPLETE (R440): the port resumes from its replay buffer, and the modules it reaches are reached
again. -/
def execPortRetrainComplete (p : Nat) (s : State) : Out :=
  let t := s.onPort p fun q => { q with up := true, tries := 0 }
  .next { t with link := { t.link with unreach := t.link.unreach.filter t.link.cutOff } }

/-- ROUTE_DOWN_TIMEOUT (R441): a module without a working port for 10 ms. Harts that wait on its words try again and meet
the failure. -/
def execRouteDownTimeout (m : Nat) (s : State) : Out :=
  if m < 1024 ∧ m ≠ s.link.module ∧ s.link.cutOff m ∧ ¬ s.link.unreach.contains m then
    .next { s with link := { s.link with unreach := s.link.unreach ++ [m] } }
  else .next s

/-! ### Requests of peers (R129, R180, R181, R417, R418, R442, R443) -/

/-- The four kinds of peer request and the rights they need: load, ownership or near AMO, write, far operation. -/
def peerNeed (kind : Fin 4) : Need :=
  match kind with
  | 0 => .read
  | 1 => .both
  | 2 => .write
  | 3 => .both

/-- The first byte that a mask names. -/
def maskLow (m : BitVec 8) : Nat := ((List.range 8).find? fun i => m.getLsbD i).getD 0

/-- How many bytes a mask names. -/
def maskCount (m : BitVec 8) : Nat := ((List.range 8).filter fun i => m.getLsbD i).length

/-- Serve a peer's request (R129): `data` and `cmp` are its operands; with ownership `data` is what the peer's owner makes
of the bytes that `mask` names (assumption 21); an uncorrectable word goes to it as it is stored (R141). -/
def State.servePeer (s : State) (p : Nat) (kind : Fin 4) (a : Nat) (mask : BitVec 8) (data cmp : Word) (op : AmoOp) : State :=
  match kind with
  | 0 => (s.homeRead a).s
  | 1 =>
    let t := (s.touchSlice a).toU a
    let t := if mask = 255 then t.setBad a false else if t.isBad a then t.detect a else t
    t.setSeam a (some (.port p (mergeBytes (t.memWord a) mask data)))
  | 2 => s.homeWrite a mask data
  | 3 =>
    let o := maskLow mask
    (s.serve { Req.of .far none a with
      op := op, size := if maskCount mask = 4 then 4 else 8, off := if maskCount mask = 4 then o else 0
      b := data, cmp := cmp }).s

/-- Freeze a link port, with its freeze record; its notice goes to the host alone (R417, R418). -/
def State.freezePort (s : State) (p : Nat) (f : PortFreeze) : State :=
  let t := s.onPort p fun q => { q with frozen := some f }
  { t with host := { t.host with notes := t.host.notes ++ [t.portMaster p] } }

/-- Answer a peer: 0 done, 1 refused, 2 a chunk refused for want of a bitmap, 3 an uncorrectable word. -/
def State.answerPeer (s : State) (p code : Nat) : State := { s with link := { s.link with sent := (p, code) :: s.link.sent } }

/-- A peer answers the next request for a word with a refusal (R442). -/
def State.peerRefuses (s : State) (a : Nat) : State := { s with link := { s.link with refused := s.link.refused ++ [wordAddr a] } }

/-- The elements of a peer's chunk are applied at their homes, in ascending order, as far operations (R381, R382, R444). -/
def State.chunkElems (s : State) (op ty : Nat) (pa : Nat) : List Nat → State
  | [] => s
  | v :: vs =>
    let eb := codeBytes ty
    let a := wordAddr pa
    let old := wordField (s.homeView a) (pa % 8) eb
    ((s.serve { Req.of .far none a with
      op := .swap, size := eb, off := pa % 8, b := w64 (xredOp op ty old v) }).s).chunkElems op ty (pa + eb) vs

/-- A chunk of a peer's XRED arrives (R382, R442, R444): the check of a peer request over the bytes it writes, then its
bitmap: applied once and acknowledged, acknowledged and discarded, or refused. Without elements the sender's copy closes, and
its bitmaps free. A chunk that meets an uncorrectable word is applied in none of its elements. While one of its words is busy
nothing happens, and the chunk comes again. -/
def State.peerChunk (s : State) (p part : Nat) (c : PeerChunk) : State :=
  let pa := s.normPa c.dst
  let eb := codeBytes c.ty
  let n := c.vals.length * eb
  let words := (List.range ((pa % 8 + n + 7) / 8)).map fun i => wordAddr pa + 8 * i
  match s.link.ports.find? fun q => q.num == p with
  | none => s
  | some q =>
    if !q.takes || c.sender == s.link.module then s
    else if c.vals.isEmpty then
      { s with maps := s.maps.filter fun m => !m.isOf c.sender c.ctxid c.copy }
    else if placeOf pa != .lpddr || placeOf (pa + n - 1) != .lpddr || pa % eb != 0 then s
    else if !s.fenceOk 0 part pa n .both then s.freezePort p ⟨pa, Need.both.kind⟩
    else if words.any s.wordBusy then s
    else if s.chunkDone c.sender c.ctxid c.copy c.k then s.answerPeer p 0
    else if words.any fun a => (s.homeRead a).bad then
      (words.foldl (fun t a => if (s.homeRead a).bad then t.detect a else t) s).answerPeer p 3
    else
      match s.markChunk (s.homeDie pa) c.sender c.ctxid c.copy c.k with
      | none => s.answerPeer p 2
      | some t => (t.chunkElems c.op c.ty pa c.vals).answerPeer p 0

/-- PEER_REQUEST_ARRIVAL (R442): checked against the fence table of die 0, cluster 0, then served at the home and answered.
A chunk of a peer's XRED arrives as a turn of its own (R382; assumption 29). -/
def execPeerRequestArrival (p part : Nat) (kind : Fin 4) (addr : Nat) (mask : BitVec 8) (data cmp : Word) (op : Fin 10)
    (s : State) : Out :=
  let a := wordAddr (s.normPa addr)
  match s.link.ports.find? fun q => q.num == p with
  | none => .next s
  | some q =>
    if !q.takes || mask == 0 || placeOf a != .lpddr then .next s
    else if !s.fenceOk 0 part (a + maskLow mask) (maskCount mask) (peerNeed kind) then
      .next (s.freezePort p ⟨a + maskLow mask, (peerNeed kind).kind⟩)
    else if s.wordBusy a then .next s
    else
      let t := s.servePeer p kind a mask data cmp
        ([AmoOp.swap, .add, .and, .or, .xor, .min, .max, .minu, .maxu, .cas].getD op .swap)
      .next (t.answerPeer p 0)

end Sys2Proof.Machine
end

