-- ==== Sys2Proof/Machine/MmuEv.lean ====
section
/-! DEFINITION. Events of the translation and of the Mantle's registers: page walks (R432), page retirement (R415), fence
writes (R180, R181) and lane maps (R271, R272). -/

namespace Sys2Proof.Machine

/-- PAGE_WALK (R432): the walk for an address of a hart installs what it finds; a fault is the access's own, and shows
when the hart makes the access. -/
def execPageWalk (h : Nat) (va : Word) (s : State) : Out :=
  .next (s.onHart h fun s => if s.h.mode = .m ∨ 2 ^ 48 ≤ va.toNat then s else (s.tlbFor s.h.who va.toNat).2)

/-- Whether an uncorrectable word of a page has been detected and reported to a Mantle (R141, R415). -/
def State.pageReported (s : State) (page : Nat) : Bool := s.pow.reports.any fun e => e.2 == page

/-- Whether a hart's partition fences cover a page. -/
def State.fenceCovers (s : State) (h : Hart) (pa : Nat) : Bool :=
  h.lc.part == 0 || (s.fencesOf h.cluster h.lc.part).any fun e => e.covers pa 4096

/-- The contexts resident whose partition fences cover a page, each once. -/
def State.contextsAt (s : State) (pa : Nat) : List Nat :=
  (s.harts.filter fun h => !h.isMantle && !h.gone && s.fenceCovers h pa).foldl
    (fun cs h => if cs.contains h.ctxid then cs else cs ++ [h.ctxid]) []

/-- PAGE_RETIRE (R415): the Mantle that has the report of the page adds it to the retired list, and each context
concerned gets a retire notice. -/
def execPageRetire (addr : Nat) (s : State) : Out :=
  let page := addr / 4096
  if placeOf addr = .lpddr ∧ s.pageReported page ∧ ¬ s.pow.retired.contains page then
    let s := { s with pow := { s.pow with
      retired := s.pow.retired ++ [page], reports := s.pow.reports.filter fun e => e.2 != page } }
    .next ((s.contextsAt (page * 4096)).foldl (fun t c => t.notice c 1 (w64 (page * 4096))) s)
  else .next s

/-- Apply a CSR write on the Mantle hart of cluster n. -/
def State.onMantle (s : State) (n : Nat) (f : State → State) : State :=
  if n < 48 then s.onHart (mantleId n) f else s

/-- FENCE_ENTRY_WRITE (R180, R181): mpfbase, mpflimit or mpfattr of the entry that mpfsel selects. -/
def execFenceEntryWrite (n : Nat) (reg : Fin 3) (v : Word) (s : State) : Out :=
  .next (s.onMantle n fun s => s.csrWrite (0xC01 + reg) v)

/-- MLANEMAP_WRITE (R271). -/
def execMlanemapWrite (n : Nat) (v : Word) (s : State) : Out := .next (s.onMantle n fun s => s.csrWrite 0xC06 v)

/-- LANE_MAP_TAKEUP (R272). -/
def execLaneMapTakeup (core : Nat) (s : State) : Out := .next (s.takeLaneMap core)

end Sys2Proof.Machine
end

