-- ==== Sys2Proof/Machine/PowEv.lean ====
section
/-! DEFINITION. Reset, power and management: boot (R172 to R175), power states and throttling (R182, R183), memory errors
(R140), attestation (R178, R179) and telemetry (R184). -/

namespace Sys2Proof.Machine

/-! ### Boot (R172, R175, R178) -/

/-- Extend a register for an event that concerns no Mantle slot (R178; assumption 11). -/
def State.extendPlain (s : State) (i event : Nat) (d : BitVec 384) : State :=
  let n := s.fw.log.length
  s.extendMeas i event (Config.logField n 0) (.ofNat 32 (Config.logField n 1)) d

/-- What a package reset leaves of the firmware block: the contents of module flash and of the fuses (R174, R175). -/
def Fw.kept (f : Fw) : Fw :=
  { Fw.init with
    ver0 := f.ver0, ver1 := f.ver1, flash0 := f.flash0, flash1 := f.flash1, len0 := f.len0, len1 := f.len1, flashH := f.flashH, lenH := f.lenH
    bootSlot := f.bootSlot, svnMin := f.svnMin, revoke := f.revoke }

/-- The package at power-good, before boot step 2: nothing of the device's state is left but flash, fuses and the module
strap; memory of the host and of peers is not the device's. Step 3 makes LPDDR-6 zero. -/
def State.powerGood (s : State) : State :=
  { State.reset with
    h := { (Hart.mantleInit 0) with status := .ended }
    others := State.reset.others.map fun h => { h with status := .ended }
    mem := s.mem.filter fun c => 0x20000000000 ≤ c.1
    fw := s.fw.kept
    link := { Link.init with module := s.link.module }
    agenda := s.agenda
    tick := s.tick }

/-- The verdict on a slot's image (R174). -/
def Fw.check (f : Fw) (slot : Nat) : ImageVerdict :=
  if slot = 0 then checkImage f f.flash0 f.len0 2 else checkImage f f.flash1 f.len1 2

/-- Copy a slot's image from flash into its mirror (R172 step 5, R175). -/
def State.loadMirror (s : State) (slot : Nat) : State :=
  { s with mem := s.mem.putBytes (mirrorBase slot) (s.fw.image slot) }

/-- Start the Mantle harts on a slot that has passed (R172 step 5): its mirror, measurement 2 with this event, FWHAND's
sealed cleared, and the harts at the image's entry. -/
def State.bootSlot (s : State) (slot event : Nat) (version : BitVec 32) : State :=
  let s := s.loadMirror slot
  let fw := (s.fw.setSlot slot version (if slot = 0 then s.fw.len0 else s.fw.len1))
  let s := { s with fw := { fw with slot := slot } }
  let s := s.extendMeas 2 event slot version (sha384 (s.fw.image slot))
  let s := { s with mem := s.mem.write (handBase + 0x20) 8 0 }
  s.resetMantles slot

/-- Boot step 5 (R172): the slot that boot uses, else the other with event 3, else the failure is reported. -/
def State.bootMantles (s : State) : State :=
  let slot := s.fw.bootSlot
  match s.fw.check slot with
  | .pass v => s.bootSlot slot 0 v
  | .fail _ =>
    match s.fw.check (1 - slot) with
    | .pass v => s.bootSlot (1 - slot) 3 v
    | .fail _ => { s with host := { s.host with mail := s.host.mail ++ [172] } }

/-- PACKAGE_RESET (R172): the boot sequence as far as it goes; step 6 is the firmware's own. Where step 2 fails no security
engine runs, and the steps after it do not start. -/
def execPackageReset (s : State) : Out :=
  let t := s.powerGood
  match checkImage t.fw t.fw.flashH t.fw.lenH 1 with
  | .fail _ => .next { t with fw := { t.fw with dead := true } }
  | .pass _ =>
    let t := t.extendPlain 0 0 (sha384 (t.fw.flashH.bytes 0 t.fw.lenH))
    let t := t.extendPlain 1 0 (Config.svnDigest t.fw.svnMin t.fw.revoke)
    .next t.bootMantles

/-! ### Power states (R182, R183) -/

/-- The compute dies lose power: harts, pools, L1 caches, TLBs, the homes' counts and what is in flight are gone. The
home-lookup table stands in memory, the coherence agent on the host die. -/
def State.diesOff (s : State) : State :=
  { s with
    h := { (Hart.mantleInit 0) with status := .ended }
    others := State.reset.others.map fun h => { h with status := .ended }
    coh := { s.coh with
      l1 := [], icache := [], seam := [], slices := [], txns := [], msgs := [], reqs := [], reps := [], wcount := []
      due := [], lookup := [], relDue := [], homes := s.coh.homes.map fun e => { e with held := [] }
      weak := s.coh.weak.filter fun e => e.1 == 3 }
    mmu := ⟨[], [], [], s.mmu.fences⟩
    yokes := [], maps := [], gfx := Gfx.init }

/-- The requests in flight come to their end (R127, R134): answers arrive, a request whose messages are outstanding is served
once its word has come to U, and what waits is served. -/
def State.settleCoh (s : State) : Nat → State
  | 0 => s
  | n + 1 =>
    match s.coh.reps, s.coh.txns with
    | r :: _, _ => ((s.accept r).serveWaiting r.req.addr).settleCoh n
    | [], t :: _ =>
      let a := t.req.addr
      ((s.snoopWord a).afterSnoop (s.fetching a) t).settleCoh n
    | [], [] => s

/-- The requests that a moving granule holds are served (R134). -/
def State.serveHeld (s : State) : State :=
  let held := s.coh.homes.flatMap fun e => e.held
  held.foldl (fun t r => (t.serve r).s)
    { s with coh := { s.coh with homes := s.coh.homes.map fun e => { e with held := [] } } }

/-- Every slice line is written back to LPDDR-6: the requests in flight are served, and every word comes to U, its owner's data
with it (R122, R182). -/
def State.writeBack (s : State) : State :=
  let n := 2 * s.coh.inFlight.length
  let t := (s.settleCoh n).serveHeld
  (t.coh.seam.map fun e => e.1).foldl State.toU t

/-- D3HOT_ENTRY (R182): memory keeps its contents; the driver has drained every queue and pre-empted every context. -/
def execD3hotEntry (s : State) : Out :=
  if s.pow.state = .active then
    let t := s.writeBack.diesOff
    .next { t with pow := { t.pow with state := .d3hot } }
  else .next s

/-- D3HOT_EXIT (R182): steps 5 and 6 of R172 without the zeroing. -/
def execD3hotExit (s : State) : Out :=
  if s.pow.state = .d3hot then .next ({ s with pow := { s.pow with state := .active } }.bootMantles) else .next s

/-- A die's throttle level: the highest that a cause demands (R183). -/
def Power.level (p : Power) (die : Nat) : Nat := (p.demand.getD die []).foldl max 0

/-- Change what a cause demands of a die: cause 0 temperature, 1 power, 2 current. -/
def Power.setDemand (p : Power) (die cause : Nat) (f : Nat → Nat) : Power :=
  { p with demand := p.demand.modify die fun l => l.modify cause f }

/-- THROTTLE_RAISE_TICK (R183): of temperature or power. The event does not say which (assumption 19). -/
def execThrottleRaiseTick (die : Nat) (s : State) : Out :=
  .next { s with
    pow := s.pow.setDemand die (Config.throttleCause s.tick % 2) fun n => min 14 (n + 1)
    tick := s.tick + 1 }

/-- THROTTLE_LOWER_TICK (R183): of any cause (assumption 19). -/
def execThrottleLowerTick (die : Nat) (s : State) : Out :=
  .next { s with
    pow := s.pow.setDemand die (Config.throttleCause s.tick % 3) fun n => n - 1
    tick := s.tick + 1 }

/-- OVERCURRENT_THROTTLE (R183): the current demands level 14 of every die. -/
def execOvercurrentThrottle (s : State) : Out :=
  .next { s with pow := { s.pow with demand := s.pow.demand.map fun l => l.set 2 14 } }

/-- THERMAL_SHUTDOWN (R183): the compute and the memory-and-link dies are off at once; the host die reports the event, and
only a package reset recovers. -/
def execThermalShutdown (s : State) : Out :=
  let t := s.diesOff
  .next { t with
    mem := t.mem.filter fun c => 0x20000000000 ≤ c.1
    coh := { Coh.init with agent := t.coh.agent, pcount := t.coh.pcount }
    link := { Link.init with module := t.link.module, ports := Link.init.ports.map fun p => { p with up := false } }
    sched := Sched.init
    pow := { t.pow with state := .hot }
    host := { t.host with mail := t.host.mail ++ [183] } }

/-- POWER_LOSS (R175, R182): the module is Off. -/
def execPowerLoss (s : State) : Out :=
  let t := s.powerGood
  .next { t with pow := { t.pow with state := .off } }

/-- SET_POWER_CAP (R183, R178): from 2,000 W to 5,400 W, with the digest that measurement 3 is extended by. -/
def execSetPowerCap (watts : Nat) (digest : BitVec 384) (s : State) : Out :=
  if 2000 ≤ watts ∧ watts ≤ 5400 then .next ({ s with pow := { s.pow with cap := watts } }.extendPlain 3 4 digest)
  else .next s

/-- The management engine has changed a fence table: measurement 3 is extended by the table's digest (R178). -/
def State.fenceDigest (s : State) (digest : BitVec 384) : State := s.extendPlain 3 4 digest

/-- RAISE_SVN_REVOKE (R174, R178): the minimum svn and the revoke bits only rise. -/
def execRaiseSvnRevoke (svn revoke : Nat) (s : State) : Out :=
  let fw := { s.fw with svnMin := max s.fw.svnMin svn, revoke := s.fw.revoke ||| revoke % 256 }
  if fw = s.fw then .next s
  else .next ({ s with fw := fw }.extendPlain 1 4 (Config.svnDigest fw.svnMin fw.revoke))

/-! ### Memory errors (R140) -/

/-- Count an uncorrectable error of a store where it occurs (R184). -/
def State.countBad (s : State) (store core a : Nat) : State :=
  { s with pow := { s.pow with uncorr := bump s.pow.uncorr (s.errorDie store core a * 4 + store) } }

/-- A bit error in a word of a core's L1, when the L1 holds it. -/
def State.l1Error (s : State) (core a : Nat) (double : Bool) : State :=
  let w := s.l1 core a
  if w.st = .i ∧ w.dirty = 0 then s
  else if double then (s.countBad 0 core a).setL1 core a { w with bad := true }
  else { s with coh := { s.coh with weak := (0, core, a) :: s.coh.weak.filter (· != (0, core, a)) } }

/-- A bit error in a word behind its home: in the slice that its line is resident in, or in LPDDR-6 while it is not; the
copy of a slice is what the home reads, and it goes back to LPDDR-6 whole (assumption 60). -/
def State.homeError (s : State) (store a : Nat) (double : Bool) : State :=
  if placeOf a ≠ .lpddr ∨ s.coh.slices.contains (a / 128) ≠ (store == 1) then s
  else if double then (s.countBad store 0 a).setBad a true
  else { s with coh := { s.coh with weak := (store, 0, a) :: s.coh.weak.filter (· != (store, 0, a)) } }

/-- A bit error in a word of a hart's pool partition. -/
def Hart.poolError (h : Hart) (e : Nat × Nat) (double : Bool) : Hart :=
  if double then { h with badPool := e :: h.badPool.filter (· != e) }
  else { h with weakPool := e :: h.weakPool.filter (· != e) }

/-- BIT_ERROR (R140): in the L1 of a core (store 0), in a slice (1) or an LPDDR-6 channel (3) at an address, or in the SRAM
pool of a core (2), where the address names slot × 2^24 + region × 2^20 + word. A single-bit error is corrected on
read, and counted then; one of two bits makes the word uncorrectable. -/
def execBitError (store core addr : Nat) (double : Bool) (s : State) : Out :=
  let a := wordAddr (s.normPa addr)
  match store with
  | 0 => .next (s.l1Error core a double)
  | 1 | 3 => .next (s.homeError store a double)
  | 2 =>
    let e := (addr / 2 ^ 20 % 4, addr % 2 ^ 20)
    let id := core * 4 + addr / 2 ^ 24 % 4
    let s := if double ∧ (s.hart? id).isSome then s.countBad 2 core a else s
    .next (s.mapHarts fun h => if h.id = id then h.poolError e double else h)
  | _ => .next s

/-! ### SPDM (R179) -/

/-- Answer an SPDM request: version 1.3, the response code, and what it carries. Request and response join the transcript,
which a GET_VERSION begins (assumption 11). With boot step 2 failed no security engine answers (R172, R179). -/
def State.spdm (s : State) (req : List Nat) (code : Nat) (body : List Nat) : State :=
  if s.fw.dead then s else
  let resp := 0x13 :: code :: body
  let old := if code = 0x04 then [] else s.fw.spdmIn
  { s with fw := { s.fw with spdmOut := s.fw.spdmOut ++ [resp], spdmIn := old ++ [req, resp] } }

/-- GET_VERSION (R179). -/
def execGetVersion (s : State) : Out := .next (s.spdm [0x84] 0x04 [0x13])

/-- GET_CAPABILITIES (R179). -/
def execGetCapabilities (s : State) : Out := .next (s.spdm [0xE1] 0x61 (Config.spdmBytes 0x61 0))

/-- NEGOTIATE_ALGORITHMS (R179): SHA-384 and TPM_ALG_RSASSA_3072, named by their sizes in bits. -/
def execNegotiateAlgorithms (s : State) : Out := .next (s.spdm [0xE3] 0x63 [384, 3072])

/-- The certificate chain. -/
def certChain : List Nat := Config.spdmBytes 0x02 0

/-- GET_DIGESTS (R179): the SHA-384 of the certificate chain. -/
def execGetDigests (s : State) : Out :=
  .next (s.spdm [0x81] 0x01 [(sha384 (certChain.map fun b => BitVec.ofNat 8 b)).toNat])

/-- GET_CERTIFICATE (R179): a portion of the certificate chain. -/
def execGetCertificate (off len : Nat) (s : State) : Out :=
  .next (s.spdm [0x82, off, len] 0x02 ((certChain.drop off).take len))

/-- The measurement blocks: one for each register, the log's length, and whether the log is truncated (R178, R179). -/
def Fw.blocks (f : Fw) : List Nat := (f.meas.map fun m => m.toNat) ++ [f.log.length, b2n f.logStop]

/-- The transcript that both signatures cover: the exchange so far, the nonce and the measurements. -/
def Fw.transcript (f : Fw) (nonce : Nat) : List (List Nat) := f.spdmIn ++ [[nonce], f.blocks]

/-- A signature over the transcript. It does not itself join the transcript, so that the other algorithm's signature with
the same nonce covers the same one. -/
def State.spdmSigned (s : State) (code alg nonce : Nat) : State :=
  if s.fw.dead then s else
  { s with fw := { s.fw with
      spdmOut := s.fw.spdmOut ++ [0x13 :: code :: Config.spdmSign alg (s.fw.transcript nonce)] } }

/-- CHALLENGE (R179): signed by the device identity key. -/
def execChallenge (nonce : Nat) (s : State) : Out := .next (s.spdmSigned 0x03 0 nonce)

/-- GET_MEASUREMENTS (R178, R179): registers and log length at one moment. -/
def execGetMeasurements (s : State) : Out := .next (s.spdm [0xE0] 0x60 s.fw.blocks)

/-- SPDM_VENDOR_SIGNATURE (R179): an SLH-DSA signature over the same transcript. -/
def execSpdmVendorSignature (nonce : Nat) (s : State) : Out := .next (s.spdmSigned 0x7E 1 nonce)

/-! ### Sensors (R184) -/

/-- The count under a key. -/
def countOf (l : List (Nat × Nat)) (key : Nat) : Nat := match l.find? (fun e => e.1 == key) with | some e => e.2 | none => 0

/-- The causes that demand a die's level, as a mask: bit 0 temperature, 1 power, 2 current (R183; assumption 19). -/
def Power.causes (p : Power) (die : Nat) : Nat :=
  let l := p.demand.getD die []
  (List.range 3).foldl (fun m c => if l.getD c 0 = p.level die ∧ 0 < p.level die then m + 2 ^ c else m) 0

/-- PLDM_SENSOR_READ (R184; assumption 19). Numbers 0 to 17 are the temperatures, voltage, current and power; 18 to 25 the
throttle levels and 26 to 33 their causes, per compute die; 34 to 85 and 86 to 137 the corrected and the uncorrectable
error counts by die (0 to 12) and store, cleared on read; 138 the number of retired pages; 139 the mask of silent
Mantles. -/
def execPldmSensorRead (sensor : Nat) (s : State) : Out :=
  if sensor < 18 then
    .next ({ s with tick := s.tick + 1 }.answerHost 0 (w64 (Config.sensor sensor s.tick)))
  else if sensor < 26 then .next (s.answerHost 0 (w64 (s.pow.level (sensor - 18))))
  else if sensor < 34 then .next (s.answerHost 0 (w64 (s.pow.causes (sensor - 26))))
  else if sensor < 86 then
    .next { (s.answerHost 0 (w64 (countOf s.pow.corr (sensor - 34)))) with
      pow := { s.pow with corr := s.pow.corr.filter fun e => e.1 != sensor - 34 } }
  else if sensor < 138 then
    .next { (s.answerHost 0 (w64 (countOf s.pow.uncorr (sensor - 86)))) with
      pow := { s.pow with uncorr := s.pow.uncorr.filter fun e => e.1 != sensor - 86 } }
  else if sensor = 138 then .next (s.answerHost 0 (w64 s.pow.retired.length))
  else if sensor = 139 then .next (s.answerHost 0 (w64 (s.pow.silent.foldl (fun m n => m ||| 2 ^ n) 0)))
  else .next s

end Sys2Proof.Machine
end

