-- ==== Sys2Proof/Machine/VMask.lean ====
section
/-! DEFINITION. The mask instructions VK (R218 to R220), the divergence instructions VDIV (R244 to R246) and REGION
(R247). None of them stops between elements. -/

namespace Sys2Proof.Machine

/-- Whether a bit of a mask source is 1 for element i. -/
def Hart.kval (h : Hart) (a : Fin 8) (i : Nat) : Bool := h.kbit a i

/-- A VK instruction that reads the listed masks (R208, R218). -/
def State.vk (s : State) (ok : Bool) (masks : List (Fin 8)) (body : State → State) : Out :=
  s.vbegin { ok := ok, srcs := [], reads := [], masks := masks.map fun k => k.val, whole := true } body

/-- A mask member: f i is the new bit of each active i (R219). -/
def State.vkMask (s : State) (d : Fin 8) (masks : List (Fin 8)) (k : Fin 8) (f : Hart → Nat → Bool) : Out :=
  s.vk (d != 0) (k :: masks) fun t =>
    let h := t.h
    { t with h := h.writeK d ((h.actives k).map fun i => (i, f h i)) }.vdone

/-- The lowest active i with ka[i] = 1, or VL (R219). -/
def Hart.kfirst (h : Hart) (a k : Fin 8) : Nat := ((h.actives k).find? fun i => h.kbit a i).getD h.vl

/-- KAND (R219). -/
def execKand (d a b k : Fin 8) (s : State) : Out := s.vkMask d [a, b] k fun h i => h.kbit a i && h.kbit b i

/-- KOR (R219). -/
def execKor (d a b k : Fin 8) (s : State) : Out := s.vkMask d [a, b] k fun h i => h.kbit a i || h.kbit b i

/-- KXOR (R219). -/
def execKxor (d a b k : Fin 8) (s : State) : Out := s.vkMask d [a, b] k fun h i => h.kbit a i != h.kbit b i

/-- KANDN (R219). -/
def execKandn (d a b k : Fin 8) (s : State) : Out := s.vkMask d [a, b] k fun h i => h.kbit a i && !h.kbit b i

/-- KNOT (R219). -/
def execKnot (d a k : Fin 8) (s : State) : Out := s.vkMask d [a] k fun h i => !h.kbit a i

/-- KMOV (R219). -/
def execKmov (d a k : Fin 8) (s : State) : Out := s.vkMask d [a] k fun h i => h.kbit a i

/-- KSET (R219). -/
def execKset (d k : Fin 8) (s : State) : Out := s.vkMask d [] k fun _ _ => true

/-- KCLR (R219). -/
def execKclr (d k : Fin 8) (s : State) : Out := s.vkMask d [] k fun _ _ => false

/-- KSBF (R219). -/
def execKsbf (d a k : Fin 8) (s : State) : Out := s.vkMask d [a] k fun h i => decide (i < h.kfirst a k)

/-- KSIF (R219). -/
def execKsif (d a k : Fin 8) (s : State) : Out := s.vkMask d [a] k fun h i => decide (i ≤ h.kfirst a k)

/-- KSOF (R219). -/
def execKsof (d a k : Fin 8) (s : State) : Out := s.vkMask d [a] k fun h i => i == h.kfirst a k

/-- KPOPC (R220). -/
def execKpopc (d : Fin 32) (a k : Fin 8) (s : State) : Out :=
  s.vk true [a, k] fun t =>
    let n := ((t.h.actives k).filter fun i => t.h.kbit a i).length
    { t with h := t.h.set d (w64 n) }.vdone

/-- KFIRST (R220): −1 when there is none. -/
def execKfirst (d : Fin 32) (a k : Fin 8) (s : State) : Out :=
  s.vk true [a, k] fun t =>
    let f := t.h.kfirst a k
    { t with h := t.h.set d (if f = t.h.vl then BitVec.allOnes 64 else w64 f) }.vdone

/-! ### Divergence (R245) -/

/-- The mask of elements below VL. -/
def Hart.below (h : Hart) : Mask := BitVec.ofNat 32768 (2 ^ h.vl - 1)

/-- The mask a k field names; k0 is all ones. -/
def Hart.kmask (h : Hart) (k : Fin 8) : Mask := if k = 0 then BitVec.allOnes 32768 else h.vec.k[k]

/-- E with its bits below VL replaced (R244). -/
def Hart.setE (h : Hart) (m : Mask) : Hart :=
  { h with vec := { h.vec with
      e := (h.vec.e &&& ~~~ h.below) ||| (m &&& h.below), kc := h.vec.kc.set 0 (max h.vec.kc[0] h.vl) } }

/-- An instruction on E and the mask stack (R244, R245), whose effect VL = 0 does not suppress (R209): the masks it reads,
whether it reads the top of the stack, and whether it reads E (R415). -/
def State.vdiv (s : State) (ok : Bool) (masks : List (Fin 8)) (top useE : Bool) (body : State → State) : Out :=
  let entry := if top && !s.h.vec.stack.isEmpty then [8 + s.h.vec.stack.length] else []
  s.vbegin { ok := ok, srcs := [], reads := [], masks := masks.map (fun k => k.val) ++ entry, useE := useE, whole := true,
             always := true } body

/-- mask-stack-overflow (R246). -/
def State.stackTrap (s : State) : State := s.vstop s.h.first (.trap (.sync 5 (w64 s.h.vec.stack.length)))

/-- PUSHM (R245, R246). -/
def execPushm (k : Fin 8) (s : State) : Out :=
  s.vdiv true [k] false true fun t =>
    let h := t.h
    if h.vec.stack.length = 16 then t.stackTrap
    else
      let g := { (h.cleanPool 3 (8 * (9 + h.vec.stack.length)) 8) with vec := { h.vec with stack := (h.vec.e, h.vec.kc[0]) :: h.vec.stack } }
      { t with h := g.setE (h.vec.e &&& h.kmask k) }.vdone

/-- ELSEM (R245, R246). -/
def execElsem (k : Fin 8) (s : State) : Out :=
  s.vdiv true [k] true true fun t =>
    match t.h.vec.stack with
    | [] => t.stackTrap
    | top :: _ => { t with h := t.h.setE (top.1 &&& ~~~ t.h.kmask k) }.vdone

/-- POPM (R245, R246). -/
def execPopm (s : State) : Out :=
  s.vdiv true [] true false fun t =>
    match t.h.vec.stack with
    | [] => t.stackTrap
    | top :: rest => { t with h := { (t.h.cleanPool 3 64 8) with vec := { t.h.vec with e := top.1, kc := t.h.vec.kc.set 0 top.2, stack := rest } } }.vdone

/-- KBREAK (R245). -/
def execKbreak (k : Fin 8) (s : State) : Out :=
  s.vdiv true [k] false true fun t => { t with h := t.h.setE (t.h.vec.e &&& ~~~ t.h.kmask k) }.vdone

/-- A skipped region of a REGION that the scalar half has passed (R247, R273): the queued instructions of the region, the
PFX words that went with them and inner regions are as if never issued, and where the scalar half stands in the region, it
goes on at the target. -/
def Hart.skipQueued (h : Hart) (r : Region) (pc : Word) : Hart :=
  let gone := h.viq.takeWhile fun e => r.holds e.pc
  let rest := (h.viq.drop gone.length).modify 0 fun e => if r.holds (e.pc - 4) then { e with pfx := none } else e
  let inside := rest.isEmpty && r.holds pc
  let lost (u : Unconf) : Bool := u.older != 0 && decide (u.older ≤ gone.length + 1) && r.holds u.pc
  let open' := gone.foldl (fun rs e => if isRegion e.word then closeRegion e.pc rs else rs) (closeRegion (r.start - 4) h.region)
  let live := h.trap.pfxLive && !inside
  { h with
    viq := rest
    unconf := (h.unconf.filter fun u => !lost u).map fun u =>
      if u.older = 0 then u else { u with older := u.older - gone.length }
    instret := h.instret - w64 (h.unconf.filter lost).length
    region := if inside then r :: open' else open'
    trap := { h.trap with
      pfxstate := if h.trap.pfxLive && inside then 0 else h.trap.pfxstate
      pfxLive := live, pfxTret := live && h.trap.pfxTret } }

/-- The hart in a region that a REGION has opened: recorded already where the REGION was issued ahead (R247, R273). -/
def Hart.enterRegion (h : Hart) (r : Region) : Hart :=
  match h.back, r.skip with
  | some pc, true => h.skipQueued r pc
  | some _, false => { h with region := if h.region.contains r then h.region else r :: h.region }
  | none, _ => { h with region := r :: h.region }

/-- REGION (R247): the region opens, skipped when no element below VL has E[i] & k[i]; inside an executed region
the inner region ends first (R248). -/
def execRegion (k : Fin 8) (o : BitVec 16) (s : State) : Out :=
  s.vdiv (o != 0) [k] false true fun t =>
    let h := t.h
    let skip := (h.vec.e &&& h.kmask k &&& h.below) == 0
    let tgt := h.pc + 4 * o.setWidth 64
    { t with h := h.enterRegion { start := h.pc + 4, target := tgt, skip := skip } }.vdone

end Sys2Proof.Machine
end

