-- ==== Sys2Proof/Machine/Dispatch.lean ====
section
/-! DEFINITION. The dispatch: one arm per constructor of Instr, each one call of its meaning. -/

namespace Sys2Proof.Machine

/-- The effect of an instruction or event on a state. -/
def exec (i : Instr) (s : State) : Host.Outcome State Fault Refusal :=
  match i with
  | .add d a b w => Sys2Proof.Machine.execAdd d a b w s
  | .sub d a b w => Sys2Proof.Machine.execSub d a b w s
  | .and d a b => Sys2Proof.Machine.execAnd d a b s
  | .or d a b => Sys2Proof.Machine.execOr d a b s
  | .xor d a b => Sys2Proof.Machine.execXor d a b s
  | .andn d a b => Sys2Proof.Machine.execAndn d a b s
  | .sll d a b w => Sys2Proof.Machine.execSll d a b w s
  | .srl d a b w => Sys2Proof.Machine.execSrl d a b w s
  | .sra d a b w => Sys2Proof.Machine.execSra d a b w s
  | .slt d a b => Sys2Proof.Machine.execSlt d a b s
  | .sltu d a b => Sys2Proof.Machine.execSltu d a b s
  | .min d a b => Sys2Proof.Machine.execMin d a b s
  | .max d a b => Sys2Proof.Machine.execMax d a b s
  | .minu d a b => Sys2Proof.Machine.execMinu d a b s
  | .maxu d a b => Sys2Proof.Machine.execMaxu d a b s
  | .mul d a b w => Sys2Proof.Machine.execMul d a b w s
  | .mulh d a b => Sys2Proof.Machine.execMulh d a b s
  | .mulhu d a b => Sys2Proof.Machine.execMulhu d a b s
  | .div d a b w => Sys2Proof.Machine.execDiv d a b w s
  | .divu d a b w => Sys2Proof.Machine.execDivu d a b w s
  | .rem d a b w => Sys2Proof.Machine.execRem d a b w s
  | .remu d a b w => Sys2Proof.Machine.execRemu d a b w s
  | .clz d a => Sys2Proof.Machine.execClz d a s
  | .ctz d a => Sys2Proof.Machine.execCtz d a s
  | .popc d a => Sys2Proof.Machine.execPopc d a s
  | .addi d a imm => Sys2Proof.Machine.execAddi d a imm s
  | .andi d a imm => Sys2Proof.Machine.execAndi d a imm s
  | .ori d a imm => Sys2Proof.Machine.execOri d a imm s
  | .xori d a imm => Sys2Proof.Machine.execXori d a imm s
  | .slti d a imm => Sys2Proof.Machine.execSlti d a imm s
  | .sltiu d a imm => Sys2Proof.Machine.execSltiu d a imm s
  | .slli d a w sh => Sys2Proof.Machine.execSlli d a w sh s
  | .srli d a w sh => Sys2Proof.Machine.execSrli d a w sh s
  | .srai d a w sh => Sys2Proof.Machine.execSrai d a w sh s
  | .rori d a w sh => Sys2Proof.Machine.execRori d a w sh s
  | .lui d imm => Sys2Proof.Machine.execLui d imm s
  | .addpc d imm => Sys2Proof.Machine.execAddpc d imm s
  | .jal d o => Sys2Proof.Machine.execJal d o s
  | .jalr d a imm => Sys2Proof.Machine.execJalr d a imm s
  | .beq a b o => Sys2Proof.Machine.execBeq a b o s
  | .bne a b o => Sys2Proof.Machine.execBne a b o s
  | .blt a b o => Sys2Proof.Machine.execBlt a b o s
  | .bge a b o => Sys2Proof.Machine.execBge a b o s
  | .bltu a b o => Sys2Proof.Machine.execBltu a b o s
  | .bgeu a b o => Sys2Proof.Machine.execBgeu a b o s
  | .lb d a p imm => Sys2Proof.Machine.execLb d a p imm s
  | .lbu d a p imm => Sys2Proof.Machine.execLbu d a p imm s
  | .lh d a p imm => Sys2Proof.Machine.execLh d a p imm s
  | .lhu d a p imm => Sys2Proof.Machine.execLhu d a p imm s
  | .lw d a p imm => Sys2Proof.Machine.execLw d a p imm s
  | .lwu d a p imm => Sys2Proof.Machine.execLwu d a p imm s
  | .ld d a p imm => Sys2Proof.Machine.execLd d a p imm s
  | .sb d a p imm => Sys2Proof.Machine.execSb d a p imm s
  | .sh d a p imm => Sys2Proof.Machine.execSh d a p imm s
  | .sw d a p imm => Sys2Proof.Machine.execSw d a p imm s
  | .sd d a p imm => Sys2Proof.Machine.execSd d a p imm s
  | .amoswap d a b sh l q f w => Sys2Proof.Machine.execAmoswap d a b sh l q f w s
  | .amoadd d a b sh l q f w => Sys2Proof.Machine.execAmoadd d a b sh l q f w s
  | .amoand d a b sh l q f w => Sys2Proof.Machine.execAmoand d a b sh l q f w s
  | .amoor d a b sh l q f w => Sys2Proof.Machine.execAmoor d a b sh l q f w s
  | .amoxor d a b sh l q f w => Sys2Proof.Machine.execAmoxor d a b sh l q f w s
  | .amomin d a b sh l q f w => Sys2Proof.Machine.execAmomin d a b sh l q f w s
  | .amomax d a b sh l q f w => Sys2Proof.Machine.execAmomax d a b sh l q f w s
  | .amominu d a b sh l q f w => Sys2Proof.Machine.execAmominu d a b sh l q f w s
  | .amomaxu d a b sh l q f w => Sys2Proof.Machine.execAmomaxu d a b sh l q f w s
  | .amocas d a b sh l q f w => Sys2Proof.Machine.execAmocas d a b sh l q f w s
  | .fence l q sh t => Sys2Proof.Machine.execFence l q sh t s
  | .cinv a imm => Sys2Proof.Machine.execCinv a imm s
  | .cinvI a imm => Sys2Proof.Machine.execCinvI a imm s
  | .cwb a imm => Sys2Proof.Machine.execCwb a imm s
  | .czero a imm => Sys2Proof.Machine.execCzero a imm s
  | .pref a p w imm => Sys2Proof.Machine.execPref a p w imm s
  | .csrr d n => Sys2Proof.Machine.execCsrr d n s
  | .csrw d a n => Sys2Proof.Machine.execCsrw d a n s
  | .csrs d a n => Sys2Proof.Machine.execCsrs d a n s
  | .csrc d a n => Sys2Proof.Machine.execCsrc d a n s
  | .csrwi d imm n => Sys2Proof.Machine.execCsrwi d imm n s
  | .csrsi d imm n => Sys2Proof.Machine.execCsrsi d imm n s
  | .csrci d imm n => Sys2Proof.Machine.execCsrci d imm n s
  | .ecall => Sys2Proof.Machine.execEcall s
  | .ebreak => Sys2Proof.Machine.execEbreak s
  | .tret => Sys2Proof.Machine.execTret s
  | .wfi => Sys2Proof.Machine.execWfi s
  | .sfence a b => Sys2Proof.Machine.execSfence a b s
  | .yield => Sys2Proof.Machine.execYield s
  | .halt => Sys2Proof.Machine.execHalt s
  | .thaw a => Sys2Proof.Machine.execThaw a s
  | .ipop d b => Sys2Proof.Machine.execIpop d b s
  | .ipopnb d b => Sys2Proof.Machine.execIpopnb d b s
  | .wmbind a b => Sys2Proof.Machine.execWmbind a b s
  | .wmpub a b => Sys2Proof.Machine.execWmpub a b s
  | .wmread d a => Sys2Proof.Machine.execWmread d a s
  | .pfx v n p c => Sys2Proof.Machine.execPfx v n p c s
  | .vsetl d a g e => Sys2Proof.Machine.execVsetl d a g e s
  | .vadd d a b x y k => Sys2Proof.Machine.execVadd d a b x y k s
  | .vsub d a b x y k => Sys2Proof.Machine.execVsub d a b x y k s
  | .vand d a b x y k => Sys2Proof.Machine.execVand d a b x y k s
  | .vor d a b x y k => Sys2Proof.Machine.execVor d a b x y k s
  | .vxor d a b x y k => Sys2Proof.Machine.execVxor d a b x y k s
  | .vandn d a b x y k => Sys2Proof.Machine.execVandn d a b x y k s
  | .vsll d a b x y k => Sys2Proof.Machine.execVsll d a b x y k s
  | .vsrl d a b x y k => Sys2Proof.Machine.execVsrl d a b x y k s
  | .vsra d a b x y k => Sys2Proof.Machine.execVsra d a b x y k s
  | .vmin d a b x y k => Sys2Proof.Machine.execVmin d a b x y k s
  | .vmax d a b x y k => Sys2Proof.Machine.execVmax d a b x y k s
  | .vminu d a b x y k => Sys2Proof.Machine.execVminu d a b x y k s
  | .vmaxu d a b x y k => Sys2Proof.Machine.execVmaxu d a b x y k s
  | .vmul d a b x y k => Sys2Proof.Machine.execVmul d a b x y k s
  | .vmulh d a b x y k => Sys2Proof.Machine.execVmulh d a b x y k s
  | .vmulhu d a b x y k => Sys2Proof.Machine.execVmulhu d a b x y k s
  | .vdiv d a b x y k => Sys2Proof.Machine.execVdiv d a b x y k s
  | .vdivu d a b x y k => Sys2Proof.Machine.execVdivu d a b x y k s
  | .vrem d a b x y k => Sys2Proof.Machine.execVrem d a b x y k s
  | .vremu d a b x y k => Sys2Proof.Machine.execVremu d a b x y k s
  | .vmacc d a b x y k => Sys2Proof.Machine.execVmacc d a b x y k s
  | .vsadd d a b x y k => Sys2Proof.Machine.execVsadd d a b x y k s
  | .vsaddu d a b x y k => Sys2Proof.Machine.execVsaddu d a b x y k s
  | .vssub d a b x y k => Sys2Proof.Machine.execVssub d a b x y k s
  | .vssubu d a b x y k => Sys2Proof.Machine.execVssubu d a b x y k s
  | .vabsd d a b x y k => Sys2Proof.Machine.execVabsd d a b x y k s
  | .vclz d a x k => Sys2Proof.Machine.execVclz d a x k s
  | .vctz d a x k => Sys2Proof.Machine.execVctz d a x k s
  | .vpopc d a x k => Sys2Proof.Machine.execVpopc d a x k s
  | .vmv d a x k => Sys2Proof.Machine.execVmv d a x k s
  | .vaddX d a b x k => Sys2Proof.Machine.execVaddX d a b x k s
  | .vsubX d a b x k => Sys2Proof.Machine.execVsubX d a b x k s
  | .vandX d a b x k => Sys2Proof.Machine.execVandX d a b x k s
  | .vorX d a b x k => Sys2Proof.Machine.execVorX d a b x k s
  | .vxorX d a b x k => Sys2Proof.Machine.execVxorX d a b x k s
  | .vandnX d a b x k => Sys2Proof.Machine.execVandnX d a b x k s
  | .vsllX d a b x k => Sys2Proof.Machine.execVsllX d a b x k s
  | .vsrlX d a b x k => Sys2Proof.Machine.execVsrlX d a b x k s
  | .vsraX d a b x k => Sys2Proof.Machine.execVsraX d a b x k s
  | .vminX d a b x k => Sys2Proof.Machine.execVminX d a b x k s
  | .vmaxX d a b x k => Sys2Proof.Machine.execVmaxX d a b x k s
  | .vminuX d a b x k => Sys2Proof.Machine.execVminuX d a b x k s
  | .vmaxuX d a b x k => Sys2Proof.Machine.execVmaxuX d a b x k s
  | .vmulX d a b x k => Sys2Proof.Machine.execVmulX d a b x k s
  | .vmulhX d a b x k => Sys2Proof.Machine.execVmulhX d a b x k s
  | .vmulhuX d a b x k => Sys2Proof.Machine.execVmulhuX d a b x k s
  | .vdivX d a b x k => Sys2Proof.Machine.execVdivX d a b x k s
  | .vdivuX d a b x k => Sys2Proof.Machine.execVdivuX d a b x k s
  | .vremX d a b x k => Sys2Proof.Machine.execVremX d a b x k s
  | .vremuX d a b x k => Sys2Proof.Machine.execVremuX d a b x k s
  | .vmaccX d a b x k => Sys2Proof.Machine.execVmaccX d a b x k s
  | .vsaddX d a b x k => Sys2Proof.Machine.execVsaddX d a b x k s
  | .vsadduX d a b x k => Sys2Proof.Machine.execVsadduX d a b x k s
  | .vssubX d a b x k => Sys2Proof.Machine.execVssubX d a b x k s
  | .vssubuX d a b x k => Sys2Proof.Machine.execVssubuX d a b x k s
  | .vabsdX d a b x k => Sys2Proof.Machine.execVabsdX d a b x k s
  | .vmvX d b k => Sys2Proof.Machine.execVmvX d b k s
  | .vfadd d a b x y k => Sys2Proof.Machine.execVfadd d a b x y k s
  | .vfsub d a b x y k => Sys2Proof.Machine.execVfsub d a b x y k s
  | .vfmul d a b x y k => Sys2Proof.Machine.execVfmul d a b x y k s
  | .vfdiv d a b x y k => Sys2Proof.Machine.execVfdiv d a b x y k s
  | .vfmin d a b x y k => Sys2Proof.Machine.execVfmin d a b x y k s
  | .vfmax d a b x y k => Sys2Proof.Machine.execVfmax d a b x y k s
  | .vfmadd d a b x y k => Sys2Proof.Machine.execVfmadd d a b x y k s
  | .vfmsub d a b x y k => Sys2Proof.Machine.execVfmsub d a b x y k s
  | .vfnmadd d a b x y k => Sys2Proof.Machine.execVfnmadd d a b x y k s
  | .vfnmsub d a b x y k => Sys2Proof.Machine.execVfnmsub d a b x y k s
  | .vfsgnj d a b x y k => Sys2Proof.Machine.execVfsgnj d a b x y k s
  | .vfsgnjn d a b x y k => Sys2Proof.Machine.execVfsgnjn d a b x y k s
  | .vfsqrt d a x k => Sys2Proof.Machine.execVfsqrt d a x k s
  | .vfrcp d a x k => Sys2Proof.Machine.execVfrcp d a x k s
  | .vfrsq d a x k => Sys2Proof.Machine.execVfrsq d a x k s
  | .vfexp2 d a x k => Sys2Proof.Machine.execVfexp2 d a x k s
  | .vflog2 d a x k => Sys2Proof.Machine.execVflog2 d a x k s
  | .vfsin d a x k => Sys2Proof.Machine.execVfsin d a x k s
  | .vfcos d a x k => Sys2Proof.Machine.execVfcos d a x k s
  | .vfabs d a x k => Sys2Proof.Machine.execVfabs d a x k s
  | .vfneg d a x k => Sys2Proof.Machine.execVfneg d a x k s
  | .vfclass d a x k => Sys2Proof.Machine.execVfclass d a x k s
  | .vfaddX d a b x k => Sys2Proof.Machine.execVfaddX d a b x k s
  | .vfsubX d a b x k => Sys2Proof.Machine.execVfsubX d a b x k s
  | .vfmulX d a b x k => Sys2Proof.Machine.execVfmulX d a b x k s
  | .vfdivX d a b x k => Sys2Proof.Machine.execVfdivX d a b x k s
  | .vfminX d a b x k => Sys2Proof.Machine.execVfminX d a b x k s
  | .vfmaxX d a b x k => Sys2Proof.Machine.execVfmaxX d a b x k s
  | .vfmaddX d a b x k => Sys2Proof.Machine.execVfmaddX d a b x k s
  | .vfmsubX d a b x k => Sys2Proof.Machine.execVfmsubX d a b x k s
  | .vfnmaddX d a b x k => Sys2Proof.Machine.execVfnmaddX d a b x k s
  | .vfnmsubX d a b x k => Sys2Proof.Machine.execVfnmsubX d a b x k s
  | .vfsgnjX d a b x k => Sys2Proof.Machine.execVfsgnjX d a b x k s
  | .vfsgnjnX d a b x k => Sys2Proof.Machine.execVfsgnjnX d a b x k s
  | .vseq d a b x y k z => Sys2Proof.Machine.execVseq d a b x y k z s
  | .vsne d a b x y k z => Sys2Proof.Machine.execVsne d a b x y k z s
  | .vslt d a b x y k z => Sys2Proof.Machine.execVslt d a b x y k z s
  | .vsltu d a b x y k z => Sys2Proof.Machine.execVsltu d a b x y k z s
  | .vsle d a b x y k z => Sys2Proof.Machine.execVsle d a b x y k z s
  | .vsleu d a b x y k z => Sys2Proof.Machine.execVsleu d a b x y k z s
  | .vsgt d a b x y k z => Sys2Proof.Machine.execVsgt d a b x y k z s
  | .vsgtu d a b x y k z => Sys2Proof.Machine.execVsgtu d a b x y k z s
  | .vfeq d a b x y k z => Sys2Proof.Machine.execVfeq d a b x y k z s
  | .vfne d a b x y k z => Sys2Proof.Machine.execVfne d a b x y k z s
  | .vflt d a b x y k z => Sys2Proof.Machine.execVflt d a b x y k z s
  | .vfle d a b x y k z => Sys2Proof.Machine.execVfle d a b x y k z s
  | .vfunord d a b x y k z => Sys2Proof.Machine.execVfunord d a b x y k z s
  | .kand d a b k => Sys2Proof.Machine.execKand d a b k s
  | .kor d a b k => Sys2Proof.Machine.execKor d a b k s
  | .kxor d a b k => Sys2Proof.Machine.execKxor d a b k s
  | .kandn d a b k => Sys2Proof.Machine.execKandn d a b k s
  | .knot d a k => Sys2Proof.Machine.execKnot d a k s
  | .kmov d a k => Sys2Proof.Machine.execKmov d a k s
  | .kset d k => Sys2Proof.Machine.execKset d k s
  | .kclr d k => Sys2Proof.Machine.execKclr d k s
  | .kpopc d a k => Sys2Proof.Machine.execKpopc d a k s
  | .kfirst d a k => Sys2Proof.Machine.execKfirst d a k s
  | .ksbf d a k => Sys2Proof.Machine.execKsbf d a k s
  | .ksif d a k => Sys2Proof.Machine.execKsif d a k s
  | .ksof d a k => Sys2Proof.Machine.execKsof d a k s
  | .pushm k => Sys2Proof.Machine.execPushm k s
  | .elsem k => Sys2Proof.Machine.execElsem k s
  | .popm => Sys2Proof.Machine.execPopm s
  | .kbreak k => Sys2Proof.Machine.execKbreak k s
  | .region k o => Sys2Proof.Machine.execRegion k o s
  | .vgather d a b x y k => Sys2Proof.Machine.execVgather d a b x y k s
  | .vslideup d a b x k => Sys2Proof.Machine.execVslideup d a b x k s
  | .vslidedn d a b x k => Sys2Proof.Machine.execVslidedn d a b x k s
  | .vslide1up d a b x k => Sys2Proof.Machine.execVslide1up d a b x k s
  | .vslide1dn d a b x k => Sys2Proof.Machine.execVslide1dn d a b x k s
  | .vcompress d a x k => Sys2Proof.Machine.execVcompress d a x k s
  | .vexpand d a x k => Sys2Proof.Machine.execVexpand d a x k s
  | .viota d k => Sys2Proof.Machine.execViota d k s
  | .vbcast d a b x k => Sys2Proof.Machine.execVbcast d a b x k s
  | .vext d a b x => Sys2Proof.Machine.execVext d a b x s
  | .vins d a b k => Sys2Proof.Machine.execVins d a b k s
  | .vconflict d a x k => Sys2Proof.Machine.execVconflict d a x k s
  | .vredSum d a b x y k => Sys2Proof.Machine.execVredSum d a b x y k s
  | .vredMin d a b x y k => Sys2Proof.Machine.execVredMin d a b x y k s
  | .vredMax d a b x y k => Sys2Proof.Machine.execVredMax d a b x y k s
  | .vredMinu d a b x y k => Sys2Proof.Machine.execVredMinu d a b x y k s
  | .vredMaxu d a b x y k => Sys2Proof.Machine.execVredMaxu d a b x y k s
  | .vredAnd d a b x y k => Sys2Proof.Machine.execVredAnd d a b x y k s
  | .vredOr d a b x y k => Sys2Proof.Machine.execVredOr d a b x y k s
  | .vredXor d a b x y k => Sys2Proof.Machine.execVredXor d a b x y k s
  | .vredFsum d a b x y k => Sys2Proof.Machine.execVredFsum d a b x y k s
  | .vredFmin d a b x y k => Sys2Proof.Machine.execVredFmin d a b x y k s
  | .vredFmax d a b x y k => Sys2Proof.Machine.execVredFmax d a b x y k s
  | .vscanSum d a x k => Sys2Proof.Machine.execVscanSum d a x k s
  | .vscanFsum d a x k => Sys2Proof.Machine.execVscanFsum d a x k s
  | .vcvt d a x k u t => Sys2Proof.Machine.execVcvt d a x k u t s
  | .vldUnit d a k p w => Sys2Proof.Machine.execVldUnit d a k p w s
  | .vldStrided d a b k p w => Sys2Proof.Machine.execVldStrided d a b k p w s
  | .vldIndexed d a b y k p w => Sys2Proof.Machine.execVldIndexed d a b y k p w s
  | .vldSegment d a f k p w => Sys2Proof.Machine.execVldSegment d a f k p w s
  | .vstUnit d a k p w => Sys2Proof.Machine.execVstUnit d a k p w s
  | .vstStrided d a b k p w => Sys2Proof.Machine.execVstStrided d a b k p w s
  | .vstIndexed d a b y k p w => Sys2Proof.Machine.execVstIndexed d a b y k p w s
  | .vstSegment d a f k p w => Sys2Proof.Machine.execVstSegment d a f k p w s
  | .vldff d a k p w => Sys2Proof.Machine.execVldff d a k p w s
  | .vldw d a p => Sys2Proof.Machine.execVldw d a p s
  | .vstw d a p => Sys2Proof.Machine.execVstw d a p s
  | .vldslide d a b k p w => Sys2Proof.Machine.execVldslide d a b k p w s
  | .vamoswap d a b y k => Sys2Proof.Machine.execVamoswap d a b y k s
  | .vamoadd d a b y k => Sys2Proof.Machine.execVamoadd d a b y k s
  | .vamoand d a b y k => Sys2Proof.Machine.execVamoand d a b y k s
  | .vamoor d a b y k => Sys2Proof.Machine.execVamoor d a b y k s
  | .vamoxor d a b y k => Sys2Proof.Machine.execVamoxor d a b y k s
  | .vamomin d a b y k => Sys2Proof.Machine.execVamomin d a b y k s
  | .vamomax d a b y k => Sys2Proof.Machine.execVamomax d a b y k s
  | .vamominu d a b y k => Sys2Proof.Machine.execVamominu d a b y k s
  | .vamomaxu d a b y k => Sys2Proof.Machine.execVamomaxu d a b y k s
  | .vamocas d a b y k => Sys2Proof.Machine.execVamocas d a b y k s
  | .yattach a => Sys2Proof.Machine.execYattach a s
  | .ydetach => Sys2Proof.Machine.execYdetach s
  | .yzero a => Sys2Proof.Machine.execYzero a s
  | .yldb a b => Sys2Proof.Machine.execYldb a b s
  | .ymma a b => Sys2Proof.Machine.execYmma a b s
  | .yrot => Sys2Proof.Machine.execYrot s
  | .ydrain d a t => Sys2Proof.Machine.execYdrain d a t s
  | .ywait => Sys2Proof.Machine.execYwait s
  | .sbind d a sh => Sys2Proof.Machine.execSbind d a sh s
  | .sunbind sh => Sys2Proof.Machine.execSunbind sh s
  | .scopy d a => Sys2Proof.Machine.execScopy d a s
  | .savail d sh => Sys2Proof.Machine.execSavail d sh s
  | .xall d a => Sys2Proof.Machine.execXall d a s
  | .xred d a => Sys2Proof.Machine.execXred d a s
  | .tex d a b x k => Sys2Proof.Machine.execTex d a b x k s
  | .span d => Sys2Proof.Machine.execSpan d s
  | .blend d a b x k => Sys2Proof.Machine.execBlend d a b x k s
  | .hizq d a b x k => Sys2Proof.Machine.execHizq d a b x k s
  | .gbox d a b x y k => Sys2Proof.Machine.execGbox d a b x y k s
  | .gtri d a b x y k => Sys2Proof.Machine.execGtri d a b x y k s
  | .gwalk d a b x k => Sys2Proof.Machine.execGwalk d a b x k s
  | .ghit d a b x k => Sys2Proof.Machine.execGhit d a b x k s
  | .vmarch d a b x k => Sys2Proof.Machine.execVmarch d a b x k s
  | .vrand d a b x k => Sys2Proof.Machine.execVrand d a b x k s
  | .vectorStart h => Sys2Proof.Machine.execVectorStart h s
  | .loadDataReturn h => Sys2Proof.Machine.execLoadDataReturn h s
  | .wfiWake h => Sys2Proof.Machine.execWfiWake h s
  | .interrupt h => Sys2Proof.Machine.execInterrupt h s
  | .faultRecordWrite => Sys2Proof.Machine.execFaultRecordWrite s
  | .frespReplay token => Sys2Proof.Machine.execFrespReplay token s
  | .frespToSupervisor token => Sys2Proof.Machine.execFrespToSupervisor token s
  | .frespEndLaunch token => Sys2Proof.Machine.execFrespEndLaunch token s
  | .faultServiceTimeout token => Sys2Proof.Machine.execFaultServiceTimeout token s
  | .watchdogExpire h => Sys2Proof.Machine.execWatchdogExpire h s
  | .homeSelfFill core addr => Sys2Proof.Machine.execHomeSelfFill core addr s
  | .homeTrkLoad core addr => Sys2Proof.Machine.execHomeTrkLoad core addr s
  | .homeOwnership core addr => Sys2Proof.Machine.execHomeOwnership core addr s
  | .homeThruLoad core addr => Sys2Proof.Machine.execHomeThruLoad core addr s
  | .homeTrkStore core addr mask data => Sys2Proof.Machine.execHomeTrkStore core addr mask data s
  | .homeThruStore core addr mask data => Sys2Proof.Machine.execHomeThruStore core addr mask data s
  | .homeDrain core addr => Sys2Proof.Machine.execHomeDrain core addr s
  | .homeFarOperation core addr op wide b cmp => Sys2Proof.Machine.execHomeFarOperation core addr op wide b cmp s
  | .homeWritebackCwb core addr => Sys2Proof.Machine.execHomeWritebackCwb core addr s
  | .homeEvictNotice core addr => Sys2Proof.Machine.execHomeEvictNotice core addr s
  | .homeWritebackEvict core addr => Sys2Proof.Machine.execHomeWritebackEvict core addr s
  | .homeAcknowledgement core addr => Sys2Proof.Machine.execHomeAcknowledgement core addr s
  | .l1Invalidation core addr => Sys2Proof.Machine.execL1Invalidation core addr s
  | .l1Update core addr => Sys2Proof.Machine.execL1Update core addr s
  | .l1Recall core addr => Sys2Proof.Machine.execL1Recall core addr s
  | .l1Fetch core addr => Sys2Proof.Machine.execL1Fetch core addr s
  | .coreAckReceive core addr => Sys2Proof.Machine.execCoreAckReceive core addr s
  | .selfDrainTimeout core addr => Sys2Proof.Machine.execSelfDrainTimeout core addr s
  | .migrationEntryUpdate gran die => Sys2Proof.Machine.execMigrationEntryUpdate gran die s
  | .migrationForwardComplete gran => Sys2Proof.Machine.execMigrationForwardComplete gran s
  | .epochRollover => Sys2Proof.Machine.execEpochRollover s
  | .pageRetire addr => Sys2Proof.Machine.execPageRetire addr s
  | .pageWalk h va => Sys2Proof.Machine.execPageWalk h va s
  | .pteMovingReread h => Sys2Proof.Machine.execPteMovingReread h s
  | .fenceEntryWrite n reg v => Sys2Proof.Machine.execFenceEntryWrite n reg v s
  | .mlanemapWrite n v => Sys2Proof.Machine.execMlanemapWrite n v s
  | .laneMapTakeup core => Sys2Proof.Machine.execLaneMapTakeup core s
  | .mhbeatWrite n v => Sys2Proof.Machine.execMhbeatWrite n v s
  | .mantleSilentReport n => Sys2Proof.Machine.execMantleSilentReport n s
  | .fwquiQuiesce => Sys2Proof.Machine.execFwquiQuiesce s
  | .fwquiResume => Sys2Proof.Machine.execFwquiResume s
  | .mantlePacketBoundaryStop n => Sys2Proof.Machine.execMantlePacketBoundaryStop n s
  | .fwcmdInstall => Sys2Proof.Machine.execFwcmdInstall s
  | .installComplete => Sys2Proof.Machine.execInstallComplete s
  | .fwcmdMeasure => Sys2Proof.Machine.execFwcmdMeasure s
  | .measureComplete => Sys2Proof.Machine.execMeasureComplete s
  | .fwcmdSwitch => Sys2Proof.Machine.execFwcmdSwitch s
  | .fwcmdIgnored v => Sys2Proof.Machine.execFwcmdIgnored v s
  | .fwstatOoClear => Sys2Proof.Machine.execFwstatOoClear s
  | .heartbeatWindowExpire => Sys2Proof.Machine.execHeartbeatWindowExpire s
  | .qnotify q v => Sys2Proof.Machine.execQnotify q v s
  | .qctlEnable q v => Sys2Proof.Machine.execQctlEnable q v s
  | .qctlDisable q v => Sys2Proof.Machine.execQctlDisable q v s
  | .launch q ctxid part => Sys2Proof.Machine.execLaunch q ctxid part s
  | .launchComplete l => Sys2Proof.Machine.execLaunchComplete l s
  | .wait q => Sys2Proof.Machine.execWait q s
  | .waitComplete q => Sys2Proof.Machine.execWaitComplete q s
  | .signal q => Sys2Proof.Machine.execSignal q s
  | .draw q ctxid part => Sys2Proof.Machine.execDraw q ctxid part s
  | .drawComplete l => Sys2Proof.Machine.execDrawComplete l s
  | .debugHalt q => Sys2Proof.Machine.execDebugHalt q s
  | .debugInspect q => Sys2Proof.Machine.execDebugInspect q s
  | .debugResume q => Sys2Proof.Machine.execDebugResume q s
  | .traceOn q => Sys2Proof.Machine.execTraceOn q s
  | .traceOff q => Sys2Proof.Machine.execTraceOff q s
  | .sample q => Sys2Proof.Machine.execSample q s
  | .stripBreakpoint q => Sys2Proof.Machine.execStripBreakpoint q s
  | .clearBreakpoint q => Sys2Proof.Machine.execClearBreakpoint q s
  | .debugStripStop h => Sys2Proof.Machine.execDebugStripStop h s
  | .debugHaltTimeout h => Sys2Proof.Machine.execDebugHaltTimeout h s
  | .traceSampleTick h => Sys2Proof.Machine.execTraceSampleTick h s
  | .schedulerTick => Sys2Proof.Machine.execSchedulerTick s
  | .mantleDecision => Sys2Proof.Machine.execMantleDecision s
  | .levelAging l => Sys2Proof.Machine.execLevelAging l s
  | .contextSave l => Sys2Proof.Machine.execContextSave l s
  | .watermarkStallEnd h => Sys2Proof.Machine.execWatermarkStallEnd h s
  | .streamPrefetch h slot => Sys2Proof.Machine.execStreamPrefetch h slot s
  | .scopyComplete h imm => Sys2Proof.Machine.execScopyComplete h imm s
  | .sunbindWriteComplete h slot => Sys2Proof.Machine.execSunbindWriteComplete h slot s
  | .xallArrivalAdd h imm j => Sys2Proof.Machine.execXallArrivalAdd h imm j s
  | .xallComplete h imm => Sys2Proof.Machine.execXallComplete h imm s
  | .xredChunkArrive h imm k => Sys2Proof.Machine.execXredChunkArrive h imm k s
  | .xredChunkResend h imm k => Sys2Proof.Machine.execXredChunkResend h imm k s
  | .xredBusyTimeout h imm => Sys2Proof.Machine.execXredBusyTimeout h imm s
  | .xredComplete h imm => Sys2Proof.Machine.execXredComplete h imm s
  | .yokeRendezvous quad => Sys2Proof.Machine.execYokeRendezvous quad s
  | .latchSwap quad => Sys2Proof.Machine.execLatchSwap quad s
  | .yokeOpComplete h => Sys2Proof.Machine.execYokeOpComplete h s
  | .meshletDispatch l => Sys2Proof.Machine.execMeshletDispatch l s
  | .sashNotify h cluster => Sys2Proof.Machine.execSashNotify h cluster s
  | .sashSetup cluster => Sys2Proof.Machine.execSashSetup cluster s
  | .spanEmit cluster => Sys2Proof.Machine.execSpanEmit cluster s
  | .hemRelease l px py => Sys2Proof.Machine.execHemRelease l px py s
  | .hemTileLoad l tx ty => Sys2Proof.Machine.execHemTileLoad l tx ty s
  | .hemTileEvict l tx ty => Sys2Proof.Machine.execHemTileEvict l tx ty s
  | .hostCxlMemRead addr n => Sys2Proof.Machine.execHostCxlMemRead addr n s
  | .hostCxlMemWrite addr data => Sys2Proof.Machine.execHostCxlMemWrite addr data s
  | .hostSnoop addr => Sys2Proof.Machine.execHostSnoop addr s
  | .flitReceive p flit => Sys2Proof.Machine.execFlitReceive p flit s
  | .flitNak p seq => Sys2Proof.Machine.execFlitNak p seq s
  | .portDown p => Sys2Proof.Machine.execPortDown p s
  | .portRetrainComplete p => Sys2Proof.Machine.execPortRetrainComplete p s
  | .routeDownTimeout m => Sys2Proof.Machine.execRouteDownTimeout m s
  | .peerRequestArrival p part kind addr mask data cmp op => Sys2Proof.Machine.execPeerRequestArrival p part kind addr mask data cmp op s
  | .packageReset => Sys2Proof.Machine.execPackageReset s
  | .d3hotEntry => Sys2Proof.Machine.execD3hotEntry s
  | .d3hotExit => Sys2Proof.Machine.execD3hotExit s
  | .throttleRaiseTick die => Sys2Proof.Machine.execThrottleRaiseTick die s
  | .throttleLowerTick die => Sys2Proof.Machine.execThrottleLowerTick die s
  | .overcurrentThrottle => Sys2Proof.Machine.execOvercurrentThrottle s
  | .thermalShutdown => Sys2Proof.Machine.execThermalShutdown s
  | .setPowerCap watts digest => Sys2Proof.Machine.execSetPowerCap watts digest s
  | .raiseSvnRevoke svn revoke => Sys2Proof.Machine.execRaiseSvnRevoke svn revoke s
  | .getVersion => Sys2Proof.Machine.execGetVersion s
  | .getCapabilities => Sys2Proof.Machine.execGetCapabilities s
  | .negotiateAlgorithms => Sys2Proof.Machine.execNegotiateAlgorithms s
  | .getDigests => Sys2Proof.Machine.execGetDigests s
  | .getCertificate off len => Sys2Proof.Machine.execGetCertificate off len s
  | .challenge nonce => Sys2Proof.Machine.execChallenge nonce s
  | .getMeasurements => Sys2Proof.Machine.execGetMeasurements s
  | .spdmVendorSignature nonce => Sys2Proof.Machine.execSpdmVendorSignature nonce s
  | .pldmSensorRead sensor => Sys2Proof.Machine.execPldmSensorRead sensor s
  | .registerWrite reg v => Sys2Proof.Machine.execRegisterWrite reg v s
  | .powerLoss => Sys2Proof.Machine.execPowerLoss s
  | .configurationRequest => Sys2Proof.Machine.execConfigurationRequest s
  | .cxlCacheResponse addr data => Sys2Proof.Machine.execCxlCacheResponse addr data s
  | .elementGroupComplete h => Sys2Proof.Machine.execElementGroupComplete h s
  | .streamDataArrival h slot => Sys2Proof.Machine.execStreamDataArrival h slot s
  | .hostPageMigration src dst => Sys2Proof.Machine.execHostPageMigration src dst s
  | .bitError store core addr double => Sys2Proof.Machine.execBitError store core addr double s

end Sys2Proof.Machine
end

