-- ==== Sys2Proof/Machine/Fetch.lean ====
section
/-! DEFINITION. A hart's turn: fetching (R18, R19, R35), the checks before an instruction (R33 to R39, R75, R247 to R249),
and what the hart does next (R273 to R277, R409, R414, R420). -/

namespace Sys2Proof.Machine

noncomputable section

/-! ### Fetching (R18, R19, R35) -/

/-- The 128 bytes of an instruction line as their homes have them. -/
def State.lineImage (s : State) (line : Nat) : Memory :=
  (s.coh.seam.filter fun e => e.1 / 128 == line).foldl (fun m e => m.write e.1 8 (s.homeView e.1).toNat)
    (s.mem.filter fun c => c.1 / 128 == line)

/-- Put a line first in a core's instruction cache of 64 KiB, the least recently used leaving (R4). -/
def Coh.putILine (c : Coh) (l : ILine) : Coh :=
  let mine := (c.icache.filter fun k => k.core == l.core && k.line != l.line).take 511
  { c with icache := l :: mine ++ c.icache.filter fun k => k.core != l.core }

/-- The word at a physical address through the core's instruction cache. Where the cached word and the word at its home
differ, the steps of R19 were not all taken, and either is executed. A line that is not in the cache comes from its home,
so that a hart which leaves out the release or the acquire executes there the home's word and never one that is still
dirty in an L1: R19 leaves open which of the two it executes (assumption 6). -/
def State.fetchAt (s : State) (pa : Nat) : Res IWord :=
  let core := s.h.core
  let a := wordAddr pa
  if s.lostPeer pa then .stop (.trap (uncorrectable s.h.pc)) s
  else if s.wordBusy a then .stop (.wait (.word a)) s
  else
    match s.coh.icache.find? (fun l => l.core == core && l.line == pa / 128) with
    | some l =>
      let t := { s with coh := s.coh.putILine l }
      let old := l.data.read pa 4
      let new := wordField (s.homeView a) (pa % 8) 4
      if old = new then .ok (.ofNat 32 old) t
      else .ok (.ofNat 32 (if Config.freshFetch s.tick then new else old)) { t with tick := t.tick + 1 }
    | none =>
      let r := s.homeRead a
      if r.bad then .stop (.trap (uncorrectable s.h.pc)) r.s
      else
        let l : ILine := { core := core, line := pa / 128, data := r.s.lineImage (pa / 128) }
        .ok (.ofNat 32 (wordField r.data (pa % 8) 4)) { r.s with coh := r.s.coh.putILine l }

/-- Fetch the word at the pc. The local window and the Sash apertures hold no instructions (R58). -/
def State.fetch (s : State) : Res IWord :=
  let va := s.h.pc.toNat
  if 2 ^ 48 ≤ va || isLocal va || isAperture va then .stop (.trap (pageNotPresent s.h.pc)) s
  else
    match s.translate s.h.who va .exec false with
    | (.error e, t) => .stop (e.stop s.h.pc .exec 0) t
    | (.ok pa, t) => t.fetchAt pa

/-! ### Prefix pairs (R36 to R39, R75) -/

/-- The major opcode of a word (R28). -/
def wordOp (w : IWord) : Nat := field w 26 6

/-- The opcodes of the classes that a scalar prefix may precede (R38). -/
def scalarPairs : List Nat := [0x01, 0x02, 0x03, 0x04, 0x05, 0x06, 0x07, 0x08, 0x09, 0x0A, 0x13, 0x14, 0x17]

/-- The opcodes of the classes that a vector prefix may precede (R38); of VLDX only VLDFF and VLDSLIDE. -/
def vectorPairs : List Nat := [0x21, 0x22, 0x23, 0x24, 0x25, 0x29, 0x2A, 0x2B, 0x2C, 0x2D, 0x2E, 0x2F]

/-- VLDW and VSTW. -/
def Instr.wholeReg : Instr → Bool
  | .vldw _ _ _ | .vstw _ _ _ => true
  | _ => false

/-- VEXT. -/
def Instr.isVext : Instr → Bool
  | .vext _ _ _ _ => true
  | _ => false

/-- Whether an instruction of this word may follow a PFX word (R38). -/
def pfxPairOk (p w : IWord) (i : Instr) : Bool :=
  let op := wordOp w
  let none' := if pfxSv p then [0x25, 0x2D].contains op || Instr.isVext i else [0x14, 0x17].contains op
  (if pfxSv p then vectorPairs.contains op && !Instr.wholeReg i else scalarPairs.contains op) && (pfxCpy p == 0 || !none')

/-- Whether a word is a legal PFX word (R36). -/
def pfxLegal (p : IWord) : Bool :=
  match decode p.toNat with
  | .ok (.pfx _ _ _ _) => true
  | _ => false

/-- Whether the successor of a live scalar prefix executes (R37). -/
def State.pfxTaken (s : State) (p : IWord) : Bool := pfxSv p || ((s.x (Fin.ofNat 32 (pfxP p)) != 0) != pfxNeg p)

/-! ### Regions (R247 to R249) -/

/-- Leave the regions that end at the pc; in U mode also those that the pc has left. -/
def Hart.leaveRegions (h : Hart) : Hart :=
  if h.region.isEmpty then h
  else { h with region := h.region.filter fun r => r.target != h.pc && (h.mode != .u || r.holds h.pc) }

/-- Whether a word may stand in a region (R248). -/
def wordInRegion (r : Region) (pc : Word) (w : IWord) : Bool :=
  let op := wordOp w
  (decide (0x21 ≤ op) && decide (op ≤ 0x34) && !(op == 0x33 && field w 0 6 == 1) &&
    (op != 0x28 || (pc + 4 * (w.extractLsb' 0 16).setWidth 64).ule r.target)) ||
  (op == 0x1B && pfxSv w)

/-- Skip the words of a skipped region as one step; a word that no region may hold traps (R247, R248). A fault of fetching
a skipped word raises no trap (assumption 56); where its fetch waits or freezes the hart, the skip goes on after that. -/
def State.skipWords (s : State) : Nat → State
  | 0 => s
  | n + 1 =>
    match s.h.inRegion with
    | none => { s with h := s.h.leaveRegions }
    | some r =>
      if !r.skip then s
      else
        match s.fetch with
        | .stop (.trap _) t => { t with h := { t.h with pc := t.h.pc + 4 } }.skipWords n
        | .stop w t => t.stopWith w
        | .ok w t =>
          let t := { t with h := { t.h with ir := w } }
          if wordInRegion r t.h.pc w then { t with h := { t.h with pc := t.h.pc + 4 } }.skipWords n
          else t.illegal

/-- Skip the region that the hart has just entered, if it is skipped. -/
def State.skipRegion (s : State) : State :=
  match s.h.inRegion with
  | some r => if r.skip ∧ s.h.status = .run then s.skipWords 65536 else s
  | none => s

/-! ### Before an instruction -/

/-- What the step does next: carry out an instruction or event in a state, end a hart's turn in a state without carrying out
an instruction, leave the machine in a state in which nothing was issued, or stop. -/
inductive Act where
  | run (i : Instr) (s : State)
  | turn (s : State)
  | event (i : Instr) (s : State)
  | idle (s : State)
  | off

/-- The checks of a word that is about to execute: it decodes (R33), a Mantle hart has its class (R34), its region may
hold it (R248), the live prefix may precede it (R38, R75); and the predicate of a scalar prefix (R37). The checks come
before the predicate, so that an illegal word traps also where the predicate would skip it: R33 and R37 leave open which
of them holds there, and this is the model's choice (assumption 74). So is the word that tval holds where the successor of a
prefix which came back through TRET is itself illegal: the model reports the successor, as R33 does, and the PFX word, as
R75 does, only for a pair of two words that are each legal (assumption 74). -/
def State.judge (s : State) (w : IWord) : Act :=
  let s := { s with h := { s.h with ir := w } }
  let inRegion := match s.h.inRegion with
    | some r => wordInRegion r s.h.pc w
    | none => true
  match s.h.pfx with
  | none =>
    match decode w.toNat with
    | .error _ => .turn s.illegal
    | .ok i => if (s.h.isMantle && decide (0x20 ≤ wordOp w)) || !inRegion then .turn s.illegal else .run i s
  | some p =>
    let bad := if s.h.trap.pfxTret then p else w
    if s.h.trap.pfxTret && !pfxLegal p then .turn (s.takeTrap (.sync 0 (p.setWidth 64)))
    else
      match decode w.toNat with
      | .error _ => .turn s.illegal
      | .ok i =>
        if (s.h.isMantle && decide (0x20 ≤ wordOp w)) || !inRegion then .turn s.illegal
        else if !pfxPairOk p w i then .turn (s.takeTrap (.sync 0 (bad.setWidth 64)))
        else if s.pfxTaken p then .run i s
        else .turn s.finish

/-- Whether the hart takes an interrupt now. -/
def Hart.irqDue (h : Hart) : Bool := !h.irqs.isEmpty && h.takesIrq && h.atIrq

/-- A started or queued vector instruction that stands on turn is carried out: its word was judged when it was issued. -/
def State.queuedAct (s : State) : Act :=
  match decode s.h.ir.toNat with
  | .ok i => .run i s
  | .error _ => .turn s.illegal

/-- Whether the head of the queue would start but for a unit that another hart holds (R267). -/
def State.unitHeld (s : State) : Bool :=
  s.h.window.isEmpty && match s.h.viq with
    | e :: _ => !s.unitsFree e.word
    | [] => false

/-- The vector half's turn (R267, R275, R276): its oldest instruction, or while that waits to stop, the next younger one up
to where R276 lets it come. While another hart holds a unit that it needs, nothing starts. -/
def State.vectorAct (s : State) : Act :=
  if s.unitHeld then .turn s
  else
    let h := if s.h.window.isEmpty then s.h.startHead else s.h
    let k := if h.chase = 0 then 0 else h.nextUp.getD 0
    let lim := match h.window[k]? with
      | some e => (h.boundOf (s.groupSize h.ew) k).map fun b => max b e.start
      | none => none
    { s with h := h.startEntry k lim }.queuedAct

/-- The next word, which starts at once where it is a vector instruction: not while another hart holds a unit that it needs
(R267). -/
def State.scalarAct (s : State) : Act :=
  match { s with h := s.h.leaveRegions }.fetch with
  | .stop w t => .turn (t.stopWith w)
  | .ok w t => if t.unitsFree w then t.judge w else .turn t

/-- Whether an instruction takes a synchronous trap, or ends its launch by one. -/
def Act.traps (a : Act) (id : Nat) : Bool :=
  let trapped (t : State) : Bool := t.h.id != id || t.h.trap.fresh.isSome || t.h.gone ||
    match t.h.status with
    | .hostFault _ _ => true
    | _ => false
  match a with
  | .run i s => match exec i s with | .next t => trapped t | _ => false
  | .turn t => trapped t
  | _ => false

/-- What the hart does next: its vector half first, then the next word. -/
def State.halfAct (s : State) : Act :=
  let s' := match s.h.unconf with
    | u :: _ => if u.older = 0 then s.flushHeld s.h.unconf.length else .ok () s
    | [] => .ok () s
  match s' with
  | .ok _ t =>
    if !t.h.window.isEmpty || !t.h.viq.isEmpty then t.vectorAct else t.scalarAct
  | .stop w t =>
    -- a confirmed store that has to wait holds up the scalar half alone (R274)
    if !t.h.window.isEmpty || !t.h.viq.isEmpty then t.vectorAct else .turn (t.stopWith w)

/-- Whether something stops the hart at its next boundary: an interrupt, a pre-emption, or a debug halt whose time has run
out. -/
def Hart.stopDue (h : Hart) : Bool := h.irqDue || h.lc.preempt || h.halting

/-- The stop that is due: a pre-emption lands before a debug halt and an interrupt (R414). -/
def State.takeStop (s : State) : State :=
  if s.h.lc.preempt then { s with h := s.h.stopAt (.stopped false false false) }
  else if s.h.halting then { s with h := s.h.haltHere }
  else s.takeIrq

/-- The turn of the hart on turn. Before a stop, the younger instructions of the window come up as far as R276 lets them;
a synchronous trap that falls due at the same boundary as an interrupt is taken first (R409), and one that the window's
oldest instruction has met before every stop (R414). A skipped region is passed before anything else (R247). -/
def State.hartAct (s : State) : Act :=
  if s.h.cap.isSome then s.queuedAct
  else
    match s.h.status with
    | .run =>
      if s.h.skipping then .idle (s.skipWords 65536)
      else if s.h.stopDue then
        if s.h.caughtUp then
          let a := s.halfAct
          if (s.h.trapMet || (s.h.irqDue && !s.h.lc.preempt && !s.h.halting && s.h.behind == 0)) && a.traps s.h.id then a
          else .idle { s with h := { s.h with met := false } }.takeStop
        else if s.h.chase = 0 then .idle s.takeStop
        else s.vectorAct
      else s.halfAct
    | _ => .idle s

/-- A turn of the vector half alone, ahead of scalar stores that are held: the two agents of a hart are ordered only by
dependences and fences, and nothing is issued behind a fence while a store before it is held (R103). -/
def State.vectorTurn (s : State) : Act :=
  if s.h.status = .run ∧ s.h.cap.isNone ∧ !s.h.stopDue ∧ !s.h.skipping ∧ s.h.behind ≠ 0 then s.vectorAct else .idle s

end

end Sys2Proof.Machine
end

