-- ==== Sys2Proof/Machine/Decouple.lean ====
section
/-! DEFINITION. The scalar half ahead of the vector half (R203, R211, R273, R274, R278): a turn in which it issues a vector
instruction into the queue, or executes a scalar instruction that stays unconfirmed. What may run ahead here is a part of
what R274 lets run ahead (assumption 75). -/

namespace Sys2Proof.Machine

noncomputable section

/-! ### What may be issued ahead -/

/-- Whether a word is VSETL (R203). -/
def isVsetl (w : IWord) : Bool := wordOp w == 0x20

/-- Whether a vector instruction enters the issue queue ahead of others (R203, R267, R273): every one but SPAN, SCOPY, XALL and
XRED, which do not issue while they would be unconfirmed (R274). -/
def queueable (w : IWord) : Bool :=
  let op := wordOp w
  decide (0x20 ≤ op) && decide (op ≤ 0x34) && !isSpan w && op != 0x32 && !(op == 0x31 && field w 0 11 == 2)

/-- Whether a scalar instruction may be unconfirmed (R274): the ALU classes, jumps and branches, LOAD, STORE, PREF and
PFX. -/
def mayLead (w : IWord) : Bool :=
  let op := wordOp w
  (decide (0x01 ≤ op) && decide (op ≤ 0x14)) || (op == 0x17 && field w 21 5 == 3) || op == 0x1B

/-- Whether a word is a CSRR of a CSR that is no vector state and does not count what retires (R72, R77). -/
def isPlainCsrr (w : IWord) : Bool :=
  let n := field w 0 12
  wordOp w == 0x18 && field w 12 9 == 0 && !csrWaits n && n != 0x101

/-- Whether a word is a fence whose before-set holds no vector accesses (R67, R273). -/
def isScalarFence (w : IWord) : Bool := wordOp w == 0x16 && field w 0 2 == 0

/-- The scalar register that a queued KPOPC, KFIRST, VEXT or SAVAIL is to write (R220, R273). -/
def ChainEntry.destX (e : ChainEntry) : Option Nat :=
  let op := wordOp e.word
  let f := field e.word 0 6
  if (op == 0x26 && (f == 8 || f == 9)) || (op == 0x29 && f == 9) || (op == 0x31 && field e.word 0 11 == 3) then
    some (field e.word 21 5)
  else none

/-- The register numbers that a word may name, whatever its class. -/
def namedRegs (w : IWord) : List Nat :=
  [field w 21 5, field w 16 5, field w 11 5] ++ if wordOp w = 0x1B then [pfxP w, pfxCpy w] else []

/-- Whether a word, with the prefix it runs under, names no scalar register that the vector half has still to write. -/
def Hart.freeOfX (h : Hart) (w : IWord) : Bool :=
  let rs := namedRegs w ++ (match h.pfx with | some p => namedRegs p | none => [])
  (h.window ++ h.viq).all fun e => match e.destX with | some d => !rs.contains d | none => true

/-- Whether the k-th vector instruction of the hart is past its trap point (R274): it has started and accesses no memory. One
that does is past it when it has checked its last element, which is when it completes. -/
def Hart.pastTrap (h : Hart) (k : Nat) : Bool :=
  match h.window[k]? with
  | some e => !isVmem e.word && wordOp e.word != 0x30 && wordOp e.word != 0x31
  | none => false

/-- Whether one of the hart's n oldest vector instructions may still trap. -/
def Hart.mayTrap (h : Hart) (n : Nat) : Bool := (List.range n).any fun k => !h.pastTrap k

/-- How many scalar instructions of the hart are unconfirmed (R274). -/
def Hart.unconfirmed (h : Hart) : Nat := (h.unconf.filter fun u => u.counts && u.older != 0 && h.mayTrap u.older).length

/-- How many scalar stores of the hart are held. -/
def Hart.heldStores (h : Hart) : Nat := (h.unconf.filter fun u => u.store.isSome).length

/-- Whether a word is a LOAD from the local window that has to see the records of a GWALK before it (R348). -/
def Hart.readsWalk (h : Hart) (w : IWord) : Bool :=
  let ea := h.get (Fin.ofNat 32 (field w 16 5)) + sext (w.extractLsb' 0 11)
  wordOp w == 0x13 && isLocal ea.toNat &&
  (h.window ++ h.viq).any fun e => wordOp e.word == 0x34 && field e.word 0 6 == 2

/-- Whether the scalar half may execute a scalar instruction now, ahead of the vector half or with its store held (R62, R273,
R274): at most 32 are unconfirmed and at most 16 stores outstanding; a CSRR outside R72 and a fence that orders scalar
accesses alone go once nothing older may trap, the fence with no store held. -/
def Hart.leads (h : Hart) (w : IWord) : Bool :=
  (mayLead w && decide (h.unconfirmed < 32) && !h.readsWalk w && (wordOp w != 0x14 || decide (h.heldStores < 16))) ||
  (isPlainCsrr w && !h.mayTrap h.behind) || (isScalarFence w && !h.mayTrap h.behind && h.heldStores == 0)

/-- Whether the scalar half may take a turn of its own: it runs, or only the vector half waits; nothing stops the hart at
its next boundary; and it passes no skipped region. -/
def Hart.mayIssue (h : Hart) : Bool :=
  (match h.status with
   | .run => true
   | .wait _ => !h.window.isEmpty
   | _ => false) &&
  h.cap.isNone && h.chase == 0 && !h.stopDue && !h.skipping && !h.isMantle

/-! ### Issuing -/

/-- The record of an instruction that is about to write scalar registers behind n vector instructions (R274). -/
def Hart.leadRecord (h : Hart) (n : Nat) (counts : Bool) : Unconf :=
  { older := n, pc := h.pc, pfx := h.trap.pfxstate, pfxLive := h.trap.pfxLive, pfxTret := h.trap.pfxTret
    regs := [], store := none, counts := counts }

/-- The registers whose values differ from those in `old`, with their old values. -/
def Hart.changed (h old : Hart) : List (Fin 32 × Word) :=
  ((List.finRange 32).filter fun r => h.x[r] != old.x[r]).map fun r => (r, old.x[r])

/-- The hart after an instruction executed ahead: the record, which stays while the instruction is unconfirmed or its store
held, names what undoing it restores, and the vector half is what it was. -/
def Hart.ledFrom (h old : Hart) : Hart :=
  { h with
    status := old.status
    ahead := false
    unconf := (h.unconf.modify (h.unconf.length - 1) fun u => { u with regs := h.changed old }).filter
      fun u => u.older != 0 || u.store.isSome }

/-- Whether the hart has retired one instruction since `old` and met nothing else. -/
def Hart.retiredOne (h old : Hart) : Bool :=
  h.id == old.id && h.instret == old.instret + 1 && h.status == .run && h.trap.fresh.isNone

/-- A scalar instruction executes ahead (R274), if it retires; else the turn does nothing. -/
def State.lead (s : State) (w : IWord) : State :=
  let old := s.h
  let t := { s with h := { old with
    status := .run, ahead := true, unconf := old.unconf ++ [old.leadRecord old.behind true] } }
  let done (u : State) : State := if u.h.retiredOne old then { u with h := u.h.ledFrom old } else s
  match t.judge w with
  | .run i u =>
    match exec i u with
    | .next v => done v
    | _ => s
  | .turn u => done u
  | _ => s

/-- The register that a VSETL writes from the scalar half when it is issued (R203); it is undone with it. -/
def Hart.grants (h : Hart) (w : IWord) : Hart :=
  let d := Fin.ofNat 32 (field w 21 5)
  let n := h.granted (h.get (Fin.ofNat 32 (field w 16 5))) (field w 0 3) (field w 3 2)
  let g := h.set d (w64 n)
  { g with unconf := h.unconf ++ [{ h.leadRecord (h.behind + 1) false with regs := g.changed h }] }

/-- The region that a REGION opens, as the scalar half passes it: recorded until the REGION has run (R247). -/
def Hart.passes (h : Hart) (w : IWord) : Hart :=
  let r : Region := { start := h.pc + 4, target := h.pc + 4 * (w.extractLsb' 0 16).setWidth 64, skip := false }
  { h with region := r :: h.region }

/-- A vector instruction enters the queue with its captured operands and its prefix (R203, R211, R247, R273, R278). -/
def State.enqueue (s : State) (w : IWord) : State :=
  let h := { s.h with ir := w }
  let e := h.entry (if h.behind = 0 then h.first else 0)
  let h := if isVsetl w then h.grants w else if isRegion w then h.passes w else h
  { s with h := { h.dropPfx with pc := h.pc + 4, viq := h.viq ++ [e] } }

/-- Whether the queue takes an instruction now (R265, R273): it has a free entry, and one that starts at a vstart written by
software, or whose prefix came back through TRET, is left to the hart's own turn. -/
def Hart.queueTakes (h : Hart) : Bool :=
  decide (h.viq.length < 64) && (h.behind != 0 || h.first == 0) && h.vectorOk && !(h.trap.pfxLive && h.trap.pfxTret)

/-- The scalar half's turn (R273, R274). -/
def State.issueTurn (s : State) : State :=
  if s.h.mayIssue then
    match s.fetch with
    | .stop _ _ => s
    | .ok w t =>
      if !t.h.freeOfX w then s
      else if queueable w then
        match t.judge w with
        | .run _ u => if t.h.queueTakes then u.enqueue w else s
        | _ => s
      else if t.h.leads w then t.lead w
      else s
  else s

end

end Sys2Proof.Machine
end

