-- ==== Sys2Proof/Machine/Cycle.lean ====
section
/-! DEFINITION. What a step is made of: the choice of the hart that is on turn (R265, R266), and the events that the device's
units raise of themselves (assumption 3). -/

namespace Sys2Proof.Machine

noncomputable section

/-! ### The choice of the hart (R265, R266) -/

/-- Whether a hart can take a turn. -/
def State.isAble (s : State) (h : Hart) : Bool :=
  match h.status with
  | .run => true
  | .wait w => s.clears h w
  | _ => false

/-- The harts in the order of turns after the one on turn: ascending hartid, around. -/
def State.turnOrder (s : State) : List Hart :=
  (s.others.filter fun g => s.h.id < g.id) ++ (s.others.filter fun g => g.id < s.h.id)

/-- Whether a hart that has left issue through YIELD is still out of it: a slot that was ready then and has not issued since can
take a turn (R82, R266). -/
def State.outOfIssue (s : State) (h : Hart) : Bool :=
  h.yielded.any fun id => s.harts.any fun g => g.id == id && s.isAble g

/-- Whether a hart can take a turn of its own now (R265, R266). -/
def State.isNext (s : State) (h : Hart) : Bool := s.isAble h && !s.outOfIssue h

/-- The hart that takes the next turn: the one on turn, or the next that can (R266). -/
def State.pick (s : State) : Option Nat := ((s.h :: s.turnOrder).find? s.isNext).map fun g => g.id

/-- Give a hart its turn. A wait that is over ends; WFI retires then, before anything else is taken (R80). A hart that has left
issue through YIELD has only its vector half and what stops it. -/
def State.turnOf (s : State) (id : Nat) : Act :=
  match s.switchTo id with
  | none => .idle s
  | some t =>
    match t.h.status with
    | .wait w =>
      if t.h.cap.isSome then t.hartAct
      else if !t.clears t.h w then .idle t
      else if w = .wfi then .idle t.finish
      else { t with h := t.h.goOn }.hartAct
    | _ => if t.outOfIssue t.h && t.h.behind == 0 && t.h.cap.isNone && !t.h.stopDue then .idle t else t.hartAct

/-- Whether the scalar half of a hart has gone on since `old`: an instruction has left issue (R266). -/
def Hart.issuedSince (h old : Hart) : Bool :=
  h.id == old.id && old.cap.isNone && (h.pc != old.pc || h.instret != old.instret)

/-- Whether neither half of a hart has gone on, or the hart has come to a wait or a stop. -/
def Hart.stood (h old : Hart) : Bool := h.status != .run || (h.pc == old.pc && h.window == old.window && h.viq == old.viq)

/-- Give the scalar half of a hart a turn ahead of its vector half (R273). -/
def State.issueOf (s : State) (id : Nat) : Act :=
  match s.switchTo id with
  | none => .idle s
  | some t =>
    let u := t.issueTurn
    if t.outOfIssue t.h || !u.h.issuedSince t.h then .idle s else .turn u

/-- Give the vector half of a hart a turn ahead of its held stores (R103). -/
def State.vectorOf (s : State) (id : Nat) : Act :=
  match s.switchTo id with
  | none => .idle s
  | some t => t.vectorTurn

/-- After a turn of the hart that was `old`: a skipped region is passed; mates that yielded count an issue, and the turn goes on
to the next hart that can take it once an instruction has left issue, or where nothing of the hart could go on (R266). -/
def State.after (s : State) (old : Hart) : State :=
  let id := s.h.id
  let issued := s.h.issuedSince old
  let rotate := issued || s.h.stood old
  let s := s.skipRegion
  let s := if issued then
      { s with others := s.others.map fun (g : Hart) =>
        if g.yielded.isEmpty then g else { g with yielded := g.yielded.filter (· != id) } }
    else s
  if rotate then
    match s.turnOrder.find? s.isNext with
    | some g => (s.switchTo g.id).getD s
    | none => s
  else s

/-! ### Events that the device raises of itself (assumption 3) -/

/-- The next message, acknowledgement, answer or migration step that is due (R127, R134). -/
def State.cohEvent (s : State) : Option Instr :=
  match s.coh.msgs, s.coh.txns, s.coh.reps with
  | m :: _, _, _ =>
    match m.kind with
    | .inv => some (.l1Invalidation m.core m.addr)
    | .upd _ => some (.l1Update m.core m.addr)
    | .recall => some (.l1Recall m.core m.addr)
    | .fetch => some (.l1Fetch m.core m.addr)
  | [], t :: _, _ => (t.left.head?).map fun c => .homeAcknowledgement c t.req.addr
  | [], [], r :: _ => r.req.core.map fun c => .coreAckReceive c r.req.addr
  | [], [], [] =>
    match s.coh.homes.find? fun e => e.moving with
    | none => none
    | some e =>
      match lookupDies.find? fun d => !e.acks.contains d with
      | some d => some (.migrationEntryUpdate e.gran d)
      | none => some (.migrationForwardComplete e.gran)

/-- The events of a hart's Yoke operations, copies, collectives and closing bindings. -/
def Hart.events (h : Hart) : List Instr :=
  (if h.yops.isEmpty then [] else [.yokeOpComplete h.id]) ++
  ((List.range h.copies.length).map fun i => .scopyComplete h.id i) ++
  ((h.sleeves.filter fun b => b.closing).map fun b => .sunbindWriteComplete h.id b.slot) ++
  (h.colls.zipIdx.flatMap fun c =>
    if c.1.red then
      let k := ((List.range 65537).find? fun k => !c.1.acked.contains k).getD 0
      [.xredComplete h.id c.2, .xredChunkArrive h.id c.2 k]
    else
      let j := ((List.range 65537).find? fun j => !c.1.acked.contains j).getD 0
      [.xallComplete h.id c.2, .xallArrivalAdd h.id c.2 j])

/-- The events of the Yokes. -/
def Yoke.events (y : Yoke) : List Instr :=
  (if y.fill.isSome then [.latchSwap y.quad] else []) ++ (if y.rvs.isEmpty then [] else [.yokeRendezvous y.quad])

/-- The events of the renderer: what stands at a Sash or in the Hem. -/
def Gfx.events (g : Gfx) : List Instr :=
  (g.intents.flatMap fun i => [.hemRelease i.launch i.px i.py, .hemTileLoad i.launch (i.px / 64) (i.py / 64)]) ++
  (g.emits.map fun e => .spanEmit e.cluster) ++ (g.input.map fun p => .sashSetup p.cluster) ++
  (g.draws.flatMap fun d => [.meshletDispatch d.launch, .drawComplete d.launch]) ++
  (if g.intents.isEmpty then [] else g.tiles.map fun t => .hemTileEvict t.launch t.tx t.ty)

/-- The events of queues and launches. -/
def Sched.events (c : Sched) : List Instr :=
  ((c.queues.filter fun k => !k.waits.isEmpty).map fun k => .waitComplete k.num) ++
  (c.launches.flatMap fun l =>
    match l.phase with
    | .resident => if l.left = 0 then [.launchComplete l.num] else []
    | .stopping => [.contextSave l.num]
    | _ => []) ++
  ((c.lanes.filter fun e => e.2.2.2).map fun e => .laneMapTakeup e.1) ++
  (if (c.launches.any fun l => l.phase == .waiting) || c.lanes.any fun e => e.2.2.2 then [.mantleDecision] else [])

/-- The events of the firmware block and of the host's fault queue. -/
def State.blockEvents (s : State) : List Instr :=
  (if s.fw.busy then [if s.fw.cmd = 1 then .installComplete else .measureComplete] else []) ++
  (if s.host.recs.isEmpty then [] else [.faultRecordWrite]) ++
  (if s.fw.req then ((s.harts.filter fun h => h.isMantle && !h.mant.stopped).map fun h =>
    .mantlePacketBoundaryStop (clusterNum h.cluster)) else [])

/-- The events that units might now raise. -/
def State.candidates (s : State) : List Instr :=
  s.blockEvents ++ s.yokes.flatMap Yoke.events ++ ((s.harts ++ s.sched.saved).flatMap Hart.events) ++ s.sched.events ++
  s.gfx.events

/-- Whether an event gets something done: more than caches and counts have changed. -/
def State.advanced (s t : State) : Bool :=
  decide (s.harts ≠ t.harts) || decide (s.sched ≠ t.sched) || decide (s.yokes ≠ t.yokes) || decide (s.gfx ≠ t.gfx) ||
  decide (s.fw ≠ t.fw) || decide (s.host ≠ t.host) || decide (s.maps ≠ t.maps)

/-- Whether an event gets something done now. -/
def State.useful (s : State) (i : Instr) : Bool :=
  match exec i s with
  | .next t => s.advanced t
  | _ => false

/-- The event that is due, if one is. -/
def State.autoEvent (s : State) : Option Instr :=
  match s.cohEvent with
  | some i => some i
  | none => s.candidates.find? s.useful

/-! ### The step -/

/-- Whether an event is the host die's alone: resets and power, its answers, and the epochs of the device timebase. -/
def ofHostDie : Instr → Bool
  | .packageReset | .powerLoss | .pldmSensorRead _ | .configurationRequest | .getVersion | .getCapabilities
  | .negotiateAlgorithms | .getDigests | .getCertificate _ _ | .challenge _ | .getMeasurements | .spdmVendorSignature _
  | .setPowerCap _ _ | .raiseSvnRevoke _ _ | .epochRollover => true
  | _ => false

/-- Whether an event can happen in the module's power state (R182, R183): with the compute dies off the events of the host
die, in D3hot the return and a thermal shutdown too; when it is Off only power-good. -/
def PState.allows (p : PState) (i : Instr) : Bool :=
  match p with
  | .active => true
  | .d3hot => ofHostDie i || (match i with | .d3hotExit | .thermalShutdown => true | _ => false)
  | .hot => ofHostDie i
  | .off => match i with
    | .packageReset => true
    | _ => false

/-- What the machine does next: what the agenda holds, else an event that is due, else a hart's turn. -/
def State.nextAct (s : State) : Act :=
  match s.agenda with
  | .event i :: rest =>
    let t := { s with agenda := rest }
    if s.pow.state.allows i then .event i t else .idle t
  | .hart id :: rest =>
    let t := { s with agenda := rest }
    if s.pow.state = .active then t.turnOf id else .idle t
  | .issue id :: rest =>
    let t := { s with agenda := rest }
    if s.pow.state = .active then t.issueOf id else .idle t
  | .vector id :: rest =>
    let t := { s with agenda := rest }
    if s.pow.state = .active then t.vectorOf id else .idle t
  | .barRead off n :: rest =>
    let t := { s with agenda := rest }
    .idle (if s.pow.state = .active then t.barRead off n else t)
  | .barWrite off n v :: rest =>
    let t := { s with agenda := rest }
    .idle (if s.pow.state = .active then t.barWrite off n v else t)
  | .peerChunk port part c :: rest =>
    let t := { s with agenda := rest }
    .idle (if s.pow.state = .active then t.peerChunk port part c else t)
  | .refusal addr :: rest =>
    let t := { s with agenda := rest }
    .idle (if s.pow.state = .active then t.peerRefuses addr else t)
  | .reassign page :: rest =>
    let t := { s with agenda := rest }
    .idle (if s.pow.state = .active then t.reassignPage page else t)
  | .fenceDigest d :: rest =>
    let t := { s with agenda := rest }
    .idle (if s.pow.state = .off then t else t.fenceDigest d)
  | [] =>
    match s.pow.state with
    | .off => .off
    | .d3hot | .hot => .idle s
    | .active =>
      match s.autoEvent with
      | some i => .event i s
      | none =>
        match s.pick with
        | some id => s.turnOf id
        | none => .idle s

/-- The words for which a request waits though they are free again. -/
def State.freeReqs (s : State) : List Nat := ((s.coh.reqs.map fun r => r.addr).filter fun a => !s.wordBusy a).eraseDups

/-- The end of a step: the cores of an ended launch release (R168, R420 step 4), requests that waited for a word which is free
now are served, the host's among them (R127, R438), responses that waited for the Mantles are carried out (R149), and the
migrations start whose counts qualified in the step (R133, R134). -/
def State.stepEnd (s : State) : State :=
  let t := s.coh.relDue.foldl State.release s
  let t := { t with coh := { t.coh with relDue := [] } }
  (t.freeReqs.foldl State.serveWaiting t).serveHost.serveResps.startMoves

/-- Whether nothing waits for the end of a step. -/
def State.nothingDue (s : State) : Bool :=
  s.coh.relDue.isEmpty && s.coh.due.isEmpty && s.coh.reqs.isEmpty && s.host.reqs.isEmpty && s.host.resps.isEmpty

/-- Go on from a next state with f. -/
def thenDo (o : Out) (f : State → State) : Out :=
  match o with
  | .next t => .next (f t)
  | o => o

/-! ### Placing an instruction for the next step (assumption 9) -/

/-- The address of the code page, of the page tables and of the stack of fences that `withFetchWord` uses. -/
def codePage : Nat := 0x100000

/-- The bytes of an instruction of which `nbits` bits are given, the rest zero. -/
def placedWord (nbits w : Nat) : Nat := w % 2 ^ nbits % 2 ^ 32

/-- Whether a word must run on a Mantle hart: one that only S or M mode may execute (R48, R70). -/
def needsMantle (w : Nat) : Bool :=
  let op := w / 2 ^ 26 % 64
  (op == 0x19 && [2, 4, 7].contains (w % 16)) || (op == 0x18 && w / 2 ^ 10 % 4 == 3)

/-- The compute hart of slot 0 of core 0 of cluster 0 of die 0 as a launch places it (R161 to R163), its pool and its one
user page at `codePage`. -/
def placedHart : Hart :=
  let h := Hart.init 0 .u (w64 codePage)
  { h with
    sptbase := w64 (codePage / 4096 + 1)
    vec := { h.vec with vrb := 256 }
    lc := { h.lc with scratch := 4096, accRows := 8, regs := 1, entry := w64 codePage } }

/-- The page tables of the placed hart: one path of pointers and a leaf with every right (R429). -/
def placedTables (m : Memory) : Memory :=
  let t := codePage + 4096
  (((m.write t 8 (t + 4096 + 1)).write (t + 4096) 8 (t + 8192 + 1)).write (t + 8192) 8 (t + 12288 + 1)).write
    (t + 12288 + codePage / 4096 * 8) 8 (codePage + 0xFD)

/-- The machine with a word stored where the next step fetches: on a compute hart in U mode, or, for the words that only
a Mantle may run, on the lead Mantle hart. -/
def State.placeWord (s : State) (nbits w : Nat) : State :=
  let v := placedWord nbits w
  if needsMantle v then { s with mem := s.mem.write s.h.pc.toNat 4 v }
  else
    { s with
      h := placedHart, others := insertHart s.h s.others
      mem := placedTables (s.mem.write codePage 4 v) }

end

end Sys2Proof.Machine
end

