-- ==== Sys2Proof/Machine/Step.lean ====
section
/-! DEFINITION. The step: what the machine does next, carried out by `exec`; and the state with an instruction placed
where the next step fetches it (assumption 9). -/

namespace Sys2Proof.Machine

/-- One step: an event, or one instruction of one hart (R17, R265). -/
noncomputable def step (s : State) : Host.Outcome State Fault Refusal :=
  match s.nextAct with
  | .run i t => thenDo (exec i t) fun u => (u.after t.h).stepEnd
  | .turn t => .next (t.after ((s.hart? t.h.id).getD t.h)).stepEnd
  | .event i t => thenDo (exec i t) State.stepEnd
  | .idle t => .next t.stepEnd
  | .off => .fault .powerOff

/-- The state with the word placed for the next step. -/
noncomputable def State.withFetchWord (s : State) (nbits w : Nat) : State := s.placeWord nbits w

end Sys2Proof.Machine
end

