-- ==== Sys2Proof/Safety.lean ====
section
/-! DEFINITION. What counts as a safe run, in the terms that claims use. -/

namespace Sys2Proof.Machine

/-- The machine goes on from s to t. -/
def State.goes (s t : State) : Prop := step s = .next t

/-- A run of k steps neither faults nor is refused. -/
def State.safeFor (s : State) (k : Nat) : Prop := ∃ t, Sys2Proof.core.run k s = .next t

/-- A hart's mode is one its kind of hart may have (R48): M mode on a Mantle hart and on no other. -/
def Hart.modeOk (h : Hart) : Bool := h.isMantle == (h.mode == .m)

end Sys2Proof.Machine
end

