-- ==== Sys2Proof/Certificates/Slice0/Obligations.lean ====
section
/-! DEFINITION. The statements about the model for the provers. `Sys2Proof.Claims` holds the words they are stated in: what
the rules of spec/ say of a result, apart from the model's own meanings. -/

namespace Sys2Proof.Claims

open Sys2Proof.Machine

/-! ### Words -/

/-- The 64-bit pattern of an integer, or with .w the sign extension of its bits 31:0 (R51). -/
def form (w : Bool) (n : Int) : Word := .ofInt 64 (if w then n.bmod (2 ^ 32) else n)

/-- One for true, zero for false. -/
def truth (p : Bool) : Word := if p then 1 else 0

/-- The low 32 bits of a word as an unsigned number with .w, else the whole word. -/
def uval (w : Bool) (v : Word) : Nat := if w then v.toNat % 2 ^ 32 else v.toNat

/-- The low 32 bits of a word as a signed number with .w, else the whole word. -/
def sval (w : Bool) (v : Word) : Int := if w then v.toInt.bmod (2 ^ 32) else v.toInt

/-! ### What an instruction leaves -/

/-- The hart h once its instruction is done and goes on at npc: one more instruction counted (R77), the prefix that it ran
under consumed (R75). An instruction of the chain window leaves the window and may confirm younger scalar instructions, and
the scalar half stands where it stood (R273 to R275). -/
def left (h : Hart) (npc : Word) : Hart :=
  match h.back with
  | none =>
    { h with
      pc := npc, instret := h.instret + 1, status := .run, lim := none, cap := none, cur := 0, chase := 0
      trap := { h.trap with
        pfxstate := if h.trap.pfxLive then 0 else h.trap.pfxstate, pfxLive := false, pfxTret := false, fresh := none } }
  | some pc =>
    { h with
      pc := pc, instret := h.instret + 1, status := .run, lim := none, cap := none, back := none, cur := 0, chase := 0
      window := h.window.eraseIdx h.cur, unconf := confirmOne h.unconf, trap := { h.trap with fresh := none } }

/-- t is s after an instruction of the hart on turn that went on at npc and changed nothing but x registers: every other
register is as `left` says, and every byte of memory as before. -/
def Retired (s t : State) (npc : Word) : Prop :=
  t = { s with h := { left s.h npc with x := t.h.x } } ∧ ∀ a, t.mem.get a = s.mem.get a

/-- The x registers after v was written to x d: x0 reads as zero, the register of a live copy prefix holds v too, and
every other register holds what it held (R37, R47). -/
def WroteX (s t : State) (d : Fin 32) (v : Word) : Prop :=
  ∀ r, t.x r = if r = 0 then 0 else if r = d ∨ s.h.copyReg = some r then v else s.x r

/-- The instruction i writes v to x d, goes on at the next word and changes nothing else. -/
def Gives (i : Instr) (s : State) (d : Fin 32) (v : Word) : Prop :=
  ∃ t, exec i s = .next t ∧ WroteX s t d v ∧ Retired s t (s.h.pc + 4)

end Sys2Proof.Claims

open Sys2Proof Sys2Proof.Machine Sys2Proof.Claims

/-- R50, R51: the results of ADD to MULHU, with the .w forms. Each writes its result to x d, and every other register,
CSR and byte of memory keeps its value. -/
def Obligations.ScalarArithmetic : Prop :=
  ∀ (s : State) (d a b : Fin 32) (w : Bool),
    let x := s.x a
    let y := s.x b
    let n := if w then y.toNat % 32 else y.toNat % 64
    (∀ p ∈ [(Instr.add d a b w, x.toInt + y.toInt), (.sub d a b w, x.toInt - y.toInt),
            (.mul d a b w, x.toInt * y.toInt), (.sll d a b w, (x.toNat * 2 ^ n : Int)),
            (.srl d a b w, ((uval w x / 2 ^ n : Nat) : Int)), (.sra d a b w, sval w x / 2 ^ n)],
      Gives p.1 s d (form w p.2)) ∧
    (∀ p ∈ [(Instr.and d a b, x &&& y), (.or d a b, x ||| y), (.xor d a b, x ^^^ y), (.andn d a b, x &&& ~~~y),
            (.slt d a b, truth (x.toInt < y.toInt)), (.sltu d a b, truth (x.toNat < y.toNat)),
            (.min d a b, .ofInt 64 (min x.toInt y.toInt)), (.max d a b, .ofInt 64 (max x.toInt y.toInt)),
            (.minu d a b, .ofNat 64 (min x.toNat y.toNat)), (.maxu d a b, .ofNat 64 (max x.toNat y.toNat)),
            (.mulh d a b, .ofInt 64 (x.toInt * y.toInt / 2 ^ 64)),
            (.mulhu d a b, .ofNat 64 (x.toNat * y.toNat / 2 ^ 64))],
      Gives p.1 s d p.2)

/-- R50 to R52: DIV, DIVU, REM and REMU with the .w forms: quotients truncate toward zero, a remainder has the sign of
the dividend, a zero divisor gives all ones and the dividend, and none of them traps. -/
def Obligations.ScalarDivide : Prop :=
  ∀ (s : State) (d a b : Fin 32) (w : Bool),
    let n := sval w (s.x a)
    let m := sval w (s.x b)
    let p : Int := uval w (s.x a)
    let q : Int := uval w (s.x b)
    Gives (.div d a b w) s d (form w (if m = 0 then -1 else n.tdiv m)) ∧
    Gives (.rem d a b w) s d (form w (if m = 0 then n else n.tmod m)) ∧
    Gives (.divu d a b w) s d (form w (if q = 0 then -1 else p / q)) ∧
    Gives (.remu d a b w) s d (form w (if q = 0 then p else p % q))

/-- R50: CLZ and CTZ count the zero bits above the highest and below the lowest one bit, 64 for zero; POPC counts the
one bits. -/
def Obligations.BitCounts : Prop :=
  ∀ (s : State) (d a : Fin 32),
    let v := s.x a
    (∃ n, n ≤ 64 ∧ Gives (.clz d a) s d (.ofNat 64 n) ∧ (∀ j < n, v.getLsbD (63 - j) = false) ∧
      (n < 64 → v.getLsbD (63 - n) = true)) ∧
    (∃ n, n ≤ 64 ∧ Gives (.ctz d a) s d (.ofNat 64 n) ∧ (∀ j < n, v.getLsbD j = false) ∧
      (n < 64 → v.getLsbD n = true)) ∧
    Gives (.popc d a) s d (.ofNat 64 ((List.range 64).filter fun i => v.getLsbD i).length)

/-- R53 to R55: the immediate forms. The 16-bit immediate is sign-extended, LUI and ADDPC shift theirs left by 16, and
RORI rotates 64 bits, or bits 31:0 with .w and the result sign-extended. -/
def Obligations.ImmediateArithmetic : Prop :=
  ∀ (s : State) (d a : Fin 32) (i : BitVec 16) (u : BitVec 21) (w : Bool) (n : Fin 64),
    let x := s.x a
    let c : Word := .ofInt 64 i.toInt
    (∀ p ∈ [(Instr.addi d a i, BitVec.ofInt 64 (x.toInt + i.toInt)), (.andi d a i, x &&& c), (.ori d a i, x ||| c),
            (.xori d a i, x ^^^ c), (.slti d a i, truth (x.toInt < i.toInt)),
            (.sltiu d a i, truth (x.toNat < c.toNat)),
            (.slli d a w n, form w (x.toNat * 2 ^ n.val : Int)),
            (.srli d a w n, form w ((uval w x / 2 ^ n.val : Nat) : Int)),
            (.srai d a w n, form w (sval w x / 2 ^ n.val)),
            (.lui d u, .ofInt 64 (u.toInt * 2 ^ 16)), (.addpc d u, s.h.pc + .ofInt 64 (u.toInt * 2 ^ 16))],
      Gives p.1 s d p.2) ∧
    ∃ v : Word, Gives (.rori d a w n) s d v ∧
      ∀ j < 64, v.getLsbD j = x.getLsbD (if w then (min j 31 + n.val) % 32 else (j + n.val) % 64)

/-- R56, R18: JAL and JALR write the address of the next word and go on at their targets; a JALR whose target is not a
multiple of 4 takes the misaligned trap with the target as its tval and writes nothing. -/
def Obligations.Jumps : Prop :=
  ∀ (s : State) (d a : Fin 32) (o : BitVec 21) (i : BitVec 16),
    let tgt : Word := s.x a + .ofInt 64 i.toInt
    (∃ t, exec (.jal d o) s = .next t ∧ WroteX s t d (s.h.pc + 4) ∧
      Retired s t (s.h.pc + .ofInt 64 (4 * o.toInt))) ∧
    (tgt.toNat % 4 = 0 → ∃ t, exec (.jalr d a i) s = .next t ∧ WroteX s t d (s.h.pc + 4) ∧ Retired s t tgt) ∧
    (tgt.toNat % 4 ≠ 0 → exec (.jalr d a i) s = .next (s.takeTrap (.sync 1 tgt)))

/-- R57: a branch goes to its target when its comparison holds, else to the next word, and writes no register. -/
def Obligations.Branches : Prop :=
  ∀ (s : State) (a b : Fin 32) (o : BitVec 16),
    let x := s.x a
    let y := s.x b
    ∀ p ∈ [(Instr.beq a b o, decide (x = y)), (.bne a b o, decide (x ≠ y)),
           (.blt a b o, decide (x.toInt < y.toInt)), (.bge a b o, decide (y.toInt ≤ x.toInt)),
           (.bltu a b o, decide (x.toNat < y.toNat)), (.bgeu a b o, decide (y.toNat ≤ x.toNat))],
      ∃ t, exec p.1 s = .next t ∧ (∀ r, t.x r = s.x r) ∧
        Retired s t (if p.2 then s.h.pc + .ofInt 64 (4 * o.toInt) else s.h.pc + 4)

namespace Sys2Proof.Claims

open Sys2Proof.Machine

/-- The number an n-byte pattern stands for: signed, or unsigned (R59, R64). -/
def valOf (signed : Bool) (n v : Nat) : Int := if signed then (v : Int).bmod (2 ^ (8 * n)) else v

/-- The LOAD members with their sizes and extensions (R59). -/
def loads (d a : Fin 32) (p : Policy) (i : BitVec 11) : List (Instr × Nat × Bool) :=
  [(.lb d a p i, 1, true), (.lbu d a p i, 1, false), (.lh d a p i, 2, true), (.lhu d a p i, 2, false),
   (.lw d a p i, 4, true), (.lwu d a p i, 4, false), (.ld d a p i, 8, false)]

/-- The STORE members with their sizes (R60). -/
def stores (d a : Fin 32) (p : Policy) (i : BitVec 11) : List (Instr × Nat) :=
  [(.sb d a p i, 1), (.sh d a p i, 2), (.sw d a p i, 4), (.sd d a p i, 8)]

/-- The AMO members (R64). -/
def amos (d a b : Fin 32) (c : Fin 4) (l q f w : Bool) : List (Instr × AmoOp) :=
  [(.amoswap d a b c l q f w, .swap), (.amoadd d a b c l q f w, .add), (.amoand d a b c l q f w, .and),
   (.amoor d a b c l q f w, .or), (.amoxor d a b c l q f w, .xor), (.amomin d a b c l q f w, .min),
   (.amomax d a b c l q f w, .max), (.amominu d a b c l q f w, .minu), (.amomaxu d a b c l q f w, .maxu),
   (.amocas d a b c l q f w, .cas)]

/-- What an AMO member writes: of n bytes, from the old pattern, b and the comparand (R64). -/
def amoNew (op : AmoOp) (n old b cmp : Nat) : Nat :=
  let sg (v : Nat) : Int := valOf true n v
  match op with
  | .swap => b
  | .add => (old + b) % 2 ^ (8 * n)
  | .and => old &&& b
  | .or => old ||| b
  | .xor => old ^^^ b
  | .min => if sg old ≤ sg b then old else b
  | .max => if sg b ≤ sg old then old else b
  | .minu => min old b
  | .maxu => max old b
  | .cas => if old = cmp then b else old

/-- The effective address of LOAD, STORE and CACHE (R58). -/
def addrOf (s : State) (a : Fin 32) (i : BitVec 11) : Word := s.x a + .ofInt 64 i.toInt

/-- Where an address of the local window stands in the scratchpad (R58). -/
def windowOff (ea : Word) : Nat := ea.toNat - 0x7F0000000000

/-- Whether n bytes at ea are an aligned piece of the hart's scratchpad (R58). -/
def InWindow (s : State) (ea : Word) (n : Nat) : Prop :=
  0x7F0000000000 ≤ ea.toNat ∧ ea.toNat < 0x7F0100000000 ∧ windowOff ea + n ≤ s.h.lc.scratch ∧ ea.toNat % n = 0

/-- t is s after an instruction of the hart on turn that went on at the next word and changed nothing but x registers
and the scratchpad with the marks of its words. -/
def RetiredScratch (s t : State) : Prop :=
  t = { s with h := { left s.h (s.h.pc + 4) with
        x := t.h.x, scratch := t.h.scratch, badPool := t.h.badPool, weakPool := t.h.weakPool } }

/-- No store of the hart is held until it is confirmed (R274). -/
def NothingHeld (s : State) : Prop := ∀ u ∈ s.h.unconf, u.store = none

/-- No watermark that the hart's launch names covers the address of an access's last byte (R112). -/
def Unwatched (s : State) (last : Nat) : Prop :=
  ∀ n ∈ s.h.lc.binds, ∀ w, s.wm? n = some w → ¬(w.base ≤ last ∧ last < w.limit)

/-- The number of the byte i of v. -/
def byteOf (v i : Nat) : Byte := .ofNat 8 (v / 256 ^ i)

/-! ### What memory holds -/

/-- The byte i of the word at a as the home has it (R95, R126): the owner's where a core or a port owns the word, else
memory's. -/
def homeByte (s : State) (a i : Nat) : Byte :=
  match s.seam a with
  | some (.o c) => byteOf (s.l1 c a).data.toNat i
  | some (.port _ d) => byteOf d.toNat i
  | _ => s.mem.get (a + i)

/-- The same once the dirty bytes of a core have been merged into it (R97, R124). -/
def drainedByte (s : State) (core a i : Nat) : Byte :=
  if (s.l1 core a).dirty.getLsbD i then byteOf (s.l1 core a).dval.toNat i else homeByte s a i

/-- The byte i of the core's own copy of the word: its dirty byte in preference to the copy's (R123). -/
def copyByte (s : State) (core a i : Nat) : Byte :=
  if (s.l1 core a).dirty.getLsbD i then byteOf (s.l1 core a).dval.toNat i else byteOf (s.l1 core a).data.toNat i

/-- Whether the L1 serves a load of the bytes m under a policy itself (R125). -/
def hits (s : State) (core : Nat) (p : Policy) (a : Nat) (m : Nat → Prop) : Prop :=
  match p, (s.l1 core a).st with
  | .self, .i => ∀ i < 8, m i → (s.l1 core a).dirty.getLsbD i = true
  | .self, _ | .trk, .k | .trk, .w | .own, .w => True
  | _, _ => False

/-- The word at a is at rest: nothing of it is in flight, it holds no error, and a core owns it at the home exactly when the
core's L1 holds it in W, then without dirty bytes, in a line of sixteen words (R87, R123, R126). -/
def AtRest (s : State) (a : Nat) : Prop :=
  s.wordBusy a = false ∧ s.isBad a = false ∧
  (∀ c, (s.seam a = some (.o c) ↔ (s.l1 c a).st = .w) ∧ (s.l1 c a).bad = false ∧
    ((s.l1 c a).st = .w → (s.l1 c a).dirty = 0)) ∧
  ∀ l ∈ s.coh.l1, l.line = a / 128 → l.words.length = 16

/-- No word at rest but the one at a is changed at its home, unless it was dirty in the core's L1 and is drained (R87). -/
def OthersKept (s t : State) (core a : Nat) : Prop :=
  ∀ b i, b % 8 = 0 → b ≠ a → b < 0x20000000000 → AtRest s b → i < 8 →
    homeByte t b i = homeByte s b i ∨ homeByte t b i = drainedByte s core b i

end Sys2Proof.Claims

/-- R59: a load whose access answers v writes v, sign- or zero-extended from its size, to x d and goes on at the next
word; a load whose access stops takes that stop. -/
def Sys2Proof.Claims.Loads : Prop :=
  ∀ (s : State) (d a : Fin 32) (p : Policy) (i : BitVec 11), ∀ m ∈ loads d a p i,
    (∀ v t, s.scalarLoad (addrOf s a i) m.2.1 p = .ok v t → v < 256 ^ m.2.1 →
      ∃ u, exec m.1 s = .next u ∧ WroteX t u d (.ofInt 64 (valOf m.2.2 m.2.1 v)) ∧ Retired t u (t.h.pc + 4)) ∧
    ∀ w t, s.scalarLoad (addrOf s a i) m.2.1 p = .stop w t → exec m.1 s = .next (t.stopWith w)

/-- R60: a store stores the low bytes of x d and goes on at the next word, with no register written; a store whose access
stops takes that stop. The one store after which there is nothing to retire is the lead's accepted SWITCH (R148). -/
def Sys2Proof.Claims.Stores : Prop :=
  ∀ (s : State) (d a : Fin 32) (p : Policy) (i : BitVec 11), ∀ m ∈ stores d a p i,
    (∀ t, s.scalarStore (addrOf s a i) m.2 p (s.x d) = .ok false t →
      ∃ u, exec m.1 s = .next u ∧ (∀ r, u.x r = t.x r) ∧ Retired t u (t.h.pc + 4)) ∧
    (∀ t, s.scalarStore (addrOf s a i) m.2 p (s.x d) = .ok true t → exec m.1 s = .next t) ∧
    ∀ w t, s.scalarStore (addrOf s a i) m.2 p (s.x d) = .stop w t → exec m.1 s = .next (t.stopWith w)

/-- R59, R60, R93, R95 to R99, R123 to R125: loads and stores of device and host memory under the four policies. A load that
no watermark holds up reads the bytes of the core's L1 where that serves it, else those that the home has once the core's
dirty bytes of the word are drained. A store under .trk, .thru or .own, or of a word in W, stands in the bytes stored to as
the home has them, over the core's own dirty bytes; a .self store stands as dirty bytes in the L1 and leaves the home alone.
No other word changes but by the drain of a line that leaves the L1. -/
def Sys2Proof.Claims.MemoryAccess : Prop :=
  ∀ (s : State) (d a : Fin 32) (p : Policy) (i : BitVec 11) (n pa : Nat) (t : State),
    let ea := addrOf s a i
    let core := t.h.core
    let w := pa / 8 * 8
    let off := pa % 8
    let mine (j : Nat) : Prop := off ≤ j ∧ j < off + n
    off + n ≤ 8 → (pa < 0x20000000000 ∨ (0x4000000000000 ≤ pa ∧ pa < 0x8000000000000)) →
    t.accessWait core w p = none → AtRest t w →
    (∀ m ∈ loads d a p i, m.2.1 = n → s.locate ea n true .read true 0 = .ok (.phys pa) t → NothingHeld t →
      Unwatched t (ea.toNat + n - 1) →
      ∃ v u, exec m.1 s = .next u ∧ v < 256 ^ n ∧ WroteX t u d (.ofInt 64 (valOf m.2.2 n v)) ∧
        u.h = { left t.h (t.h.pc + 4) with x := u.h.x } ∧
        (hits t core p w mine → ∀ j < n, byteOf v j = copyByte t core w (off + j)) ∧
        (¬hits t core p w mine → ∀ j < n, byteOf v j = drainedByte t core w (off + j)) ∧ OthersKept t u core w) ∧
    ∀ m ∈ stores d a p i, m.2 = n → s.locate ea n true .write true 0 = .ok (.phys pa) t → t.h.ahead = false →
      ∃ u, exec m.1 s = .next u ∧ (∀ r, u.x r = t.x r) ∧ u.h = left t.h (t.h.pc + 4) ∧ OthersKept t u core w ∧
        (p ≠ .self ∨ (t.l1 core w).st = .w → ∀ j < 8, homeByte u w j =
          if off ≤ j ∧ j < off + n then byteOf (s.x d).toNat (j - off) else drainedByte t core w j) ∧
        (p = .self → (t.l1 core w).st ≠ .w → ∀ j < 8, homeByte u w j = homeByte t w j ∧
          drainedByte u core w j =
            if off ≤ j ∧ j < off + n then byteOf (s.x d).toNat (j - off) else drainedByte t core w j)

/-- R59, R60, R93, R95 to R99, R123 to R125: the LOAD and STORE members in every place an access may reach, and
what they do to device and host memory under the four policies. -/
def Obligations.LoadsAndStores : Prop := Sys2Proof.Claims.Loads ∧ Sys2Proof.Claims.Stores ∧ Sys2Proof.Claims.MemoryAccess

/-- R58, R59, R11, R415, R140: a load from an aligned piece of the local window, of which no store is held (R102), and which no watermark holds up (R112), reads
the scratchpad's bytes, least significant first, and changes no byte of it; a single-bit error of the word is corrected, and
from a word with an uncorrectable error it traps. -/
def Sys2Proof.Claims.LocalLoad : Prop :=
  ∀ (s : State) (d a : Fin 32) (p : Policy) (i : BitVec 11), ∀ m ∈ loads d a p i,
    let ea := addrOf s a i
    let off := windowOff ea
    InWindow s ea m.2.1 → NothingHeld s → Unwatched s (ea.toNat + m.2.1 - 1) →
    ((1, off / 8) ∉ s.h.badPool → ∃ v, (∀ j < m.2.1, byteOf v j = s.h.scratch.get (off + j)) ∧ v < 256 ^ m.2.1 ∧
      ((1, off / 8) ∉ s.h.weakPool → Gives m.1 s d (.ofInt 64 (valOf m.2.2 m.2.1 v))) ∧
      ((1, off / 8) ∈ s.h.weakPool → ∃ t, exec m.1 s = .next t ∧ WroteX s t d (.ofInt 64 (valOf m.2.2 m.2.1 v)) ∧
        t.h.scratch = s.h.scratch ∧ ∀ e, e ∈ t.h.weakPool ↔ e ∈ s.h.weakPool ∧ e ≠ (1, off / 8))) ∧
    ((1, off / 8) ∈ s.h.badPool → exec m.1 s = .next (s.takeTrap (uncorrectable ea)))

/-- R58, R60, R11, R274: a store to an aligned piece of the local window writes the low bytes of x d there, least
significant first; every other byte of the scratchpad, all of memory and every register keep their values. A store that
executes ahead of the vector half is held with its instruction and writes nothing yet. -/
def Sys2Proof.Claims.LocalStore : Prop :=
  ∀ (s : State) (d a : Fin 32) (p : Policy) (i : BitVec 11), ∀ m ∈ stores d a p i,
    let off := windowOff (addrOf s a i)
    InWindow s (addrOf s a i) m.2 →
    (s.h.ahead = false → ∃ t, exec m.1 s = .next t ∧
      (∀ b, t.h.scratch.get b = if off ≤ b ∧ b < off + m.2 then byteOf (s.x d).toNat (b - off) else s.h.scratch.get b) ∧
      (∀ b, t.mem.get b = s.mem.get b) ∧ (∀ r, t.x r = s.x r) ∧ RetiredScratch s t) ∧
    (s.h.ahead = true → ∃ t, exec m.1 s = .next t ∧ (∀ r, t.x r = s.x r) ∧
      Retired { s with h := s.h.hold ⟨addrOf s a i, none, m.2, p, s.x d⟩ } t (s.h.pc + 4))

/-- R58 to R60, R11, R415: loads from and stores to the local window. -/
def Obligations.LocalWindow : Prop := Sys2Proof.Claims.LocalLoad ∧ Sys2Proof.Claims.LocalStore

/-- R58: the checks of a scalar load and store in their order: an address of more than 48 bits is page-not-present;
one of the local window beyond the scratchpad is page-permission; a misaligned one there is misaligned; one of the
aperture region is page-permission for every load and for every store but an SD.thru; a misaligned one elsewhere is
misaligned, but in a device window page-permission; then the translation's own stop is taken. Each trap has tval = ea.
R310: the region takes a mesh hart's aligned SD.thru to the Sash of a cluster: its staging record, and at offset 0x40 the
notify, which pushes the record and waits while four of the hart's stand there.
The choices of the model in it: assumptions 22 and 47. -/
def Obligations.AddressChecks : Prop :=
  ∀ (s : State) (d a : Fin 32) (p : Policy) (i : BitVec 11),
    ∀ m ∈ (loads d a p i).map (fun m => (m.1, m.2.1, Need.read)) ++ (stores d a p i).map (fun m => (m.1, m.2, Need.write)),
    let ea := addrOf s a i
    let va := ea.toNat
    let outside : Prop := va < 2 ^ 48 ∧ ¬(0x7F0000000000 ≤ va ∧ va < 0x7F0200000000)
    let num := (va - 0x7F0100000000) / 4096
    let off := (va - 0x7F0100000000) % 4096
    let takes : Prop := s.h.lc.kind = 1 ∧ s.h.lc.launch ≠ none ∧ num < 48 ∧ va % 8 = 0 ∧ off ≤ 0x40
    (2 ^ 48 ≤ va → exec m.1 s = .next (s.takeTrap (.sync 2 ea))) ∧
    (0x7F0000000000 ≤ va ∧ va < 0x7F0100000000 ∧ s.h.lc.scratch < windowOff ea + m.2.1 →
      exec m.1 s = .next (s.takeTrap (.sync 3 ea))) ∧
    (0x7F0000000000 ≤ va ∧ va < 0x7F0100000000 ∧ windowOff ea + m.2.1 ≤ s.h.lc.scratch ∧ va % m.2.1 ≠ 0 →
      exec m.1 s = .next (s.takeTrap (.sync 1 ea))) ∧
    (0x7F0100000000 ≤ va ∧ va < 0x7F0200000000 ∧ (p ≠ .thru ∨ m.1 ≠ .sd d a p i) →
      exec m.1 s = .next (s.takeTrap (.sync 3 ea))) ∧
    (outside → va % m.2.1 ≠ 0 → ∀ r t, s.translate s.h.who va m.2.2 true = (r, t) →
      ((r = .error .window ∨ ∃ pa, r = .ok pa ∧ isWindow pa = true) → exec m.1 s = .next (t.takeTrap (.sync 3 ea))) ∧
      (¬(r = .error .window ∨ ∃ pa, r = .ok pa ∧ isWindow pa = true) → exec m.1 s = .next (s.takeTrap (.sync 1 ea)))) ∧
    (outside → va % m.2.1 = 0 → ∀ e t, s.translate s.h.who va m.2.2 true = (.error e, t) →
      exec m.1 s = .next (match e with
        | .notPresent => t.takeTrap (.sync 2 ea)
        | .permission | .window | .refused => t.takeTrap (.sync 3 ea)
        | .bad => t.takeTrap (.sync 7 ea)
        | .violation pa => t.freeze { va := ea, pa := pa, kind := m.2.2.kind, elem := 0 }
        | .moving pa => { t with h := { t.h with status := .wait (.moving pa) } }
        | .busy w => { t with h := { t.h with status := .wait (.word w) } })) ∧
    (0x7F0100000000 ≤ va ∧ va < 0x7F0200000000 → p = .thru → m.1 = .sd d a p i → s.h.ahead = false →
      (¬takes → exec m.1 s = .next (s.takeTrap (.sync 3 ea))) ∧
      (takes → off < 0x40 → ∃ t, exec m.1 s = .next t ∧
        (∀ k b, (t.h.stage k).get b =
          if k = num ∧ off ≤ b ∧ b < off + 8 then byteOf (s.x d).toNat (b - off) else (s.h.stage k).get b) ∧
        t = { s with h := { left s.h (s.h.pc + 4) with staging := t.h.staging } }) ∧
      (takes → off = 0x40 → s.stagedBy s.h num < 4 → ∃ t, exec m.1 s = .next t ∧
        (∃ q : Pushed, t.gfx.input = s.gfx.input ++ [q] ∧ q.cluster = num ∧ q.launch = s.h.launchNum ∧
          q.hart = s.h.lc.rank ∧ q.words = (List.range 16).map fun j => (s.h.stage num).read (4 * j) 4) ∧
        t = { s with h := left s.h (s.h.pc + 4), gfx := { s.gfx with input := t.gfx.input } }) ∧
      (takes → off = 0x40 → 4 ≤ s.stagedBy s.h num →
        exec m.1 s = .next { s with h := { s.h with status := .wait (.sash num) } }))

/-- R64 to R66: an AMO whose atomic step answers the old pattern writes it, sign-extended from its width, to x d; rl and
aq at device and system scope act on the L1 before and after the step, and both have the open Yoke operations' reads of the
scratchpad made first (R67); a step that stops leaves the instruction there. In device and host memory the step reads the
word as the home has it once the core's dirty bytes are drained, and the new pattern stands there, whether the AMO is near or
far. In the local window the step reads and writes the scratchpad: the new pattern stands there and no other byte changes. -/
def Obligations.Atomics : Prop :=
  ∀ (s : State) (d a b : Fin 32) (c : Fin 4) (l q f w : Bool), ∀ m ∈ amos d a b c l q f w,
    let n := if w then 8 else 4
    let ea := s.x a
    let off := windowOff ea
    let rel (t : State) : Res Unit := if l ∧ c ≠ 0 then t.releaseRes else .ok () t
    let acq (t : State) : State := if q ∧ c ≠ 0 then t.acquire t.h.core else t
    let pin (t : State) : State := if l ∨ q then { t with h := t.h.pinOps } else t
    let x := (s.x b).toNat % 256 ^ n
    let y := (s.x d).toNat % 256 ^ n
    (∀ loc t k v u, s.locate ea n true .both false 0 = .ok loc t → rel t = .ok () k →
      (pin k).amoLoc loc ea n (loc.atHome f) m.2 x y = .ok v u → v < 256 ^ n →
      ∃ r, exec m.1 s = .next r ∧ WroteX (acq u) r d (.ofInt 64 (valOf true n v)) ∧ Retired (acq u) r (u.h.pc + 4)) ∧
    (∀ e t, s.locate ea n true .both false 0 = .stop e t → exec m.1 s = .next (t.stopWith e)) ∧
    (∀ loc t e u, s.locate ea n true .both false 0 = .ok loc t → rel t = .stop e u → exec m.1 s = .next (u.stopWith e)) ∧
    (∀ loc t k e u, s.locate ea n true .both false 0 = .ok loc t → rel t = .ok () k →
      (pin k).amoLoc loc ea n (loc.atHome f) m.2 x y = .stop e u → exec m.1 s = .next (u.stopWith e)) ∧
    (∀ pa t, s.locate ea n true .both false 0 = .ok (.phys pa) t → l = false → q = false →
      (pa < 0x20000000000 ∨ (0x4000000000000 ≤ pa ∧ pa < 0x8000000000000)) → pa % 8 + n ≤ 8 → AtRest t (pa / 8 * 8) →
      t.accessWait t.h.core (pa / 8 * 8) (if f ∧ pa < 0x20000000000 then .thru else .own) = none →
      Unwatched t (ea.toNat + n - 1) →
      ∃ v u, exec m.1 s = .next u ∧ v < 256 ^ n ∧ WroteX t u d (.ofInt 64 (valOf true n v)) ∧
        u.h = { left t.h (t.h.pc + 4) with x := u.h.x } ∧
        (∀ j < n, byteOf v j = drainedByte t t.h.core (pa / 8 * 8) (pa % 8 + j)) ∧
        (∀ j < 8, homeByte u (pa / 8 * 8) j = if pa % 8 ≤ j ∧ j < pa % 8 + n then
          byteOf (amoNew m.2 n v x y) (j - pa % 8) else drainedByte t t.h.core (pa / 8 * 8) j) ∧
        OthersKept t u t.h.core (pa / 8 * 8)) ∧
    (InWindow s ea n → (1, off / 8) ∉ s.h.badPool → (1, off / 8) ∉ s.h.weakPool → l = false → q = false →
      Unwatched s (ea.toNat + n - 1) →
      ∃ t, exec m.1 s = .next t ∧
        WroteX s t d (.ofInt 64 (valOf true n (s.h.scratch.read off n))) ∧ RetiredScratch s t ∧
        (∀ i, t.h.scratch.get i = if off ≤ i ∧ i < off + n then
          byteOf (amoNew m.2 n (s.h.scratch.read off n) x y) (i - off) else s.h.scratch.get i))

/-- R67, R68, R127: a fence retires; with .RL at device or system scope it first drains the core's dirty .self bytes to
their homes, waiting for a word whose home still owes answers, with .AQ there it then drops the core's self-valid words;
where its before-set holds the vector agent's accesses, the reads of the scratchpad that open Yoke operations have still to
make are made; it writes no register. -/
def Sys2Proof.Claims.Fences : Prop :=
  ∀ (s : State) (l q : Bool) (c : Scope) (t : Dir),
    let wide : Bool := c = .dev ∨ c = .sys
    (∀ a, l ∧ wide → s.releaseWait s.h.core = some a → exec (.fence l q c t) s = .next (s.stopWith (.wait (.word a)))) ∧
    (¬(l ∧ wide) ∨ s.releaseWait s.h.core = none →
      let k := if l ∧ wide then s.release s.h.core else s
      let k := if l ∨ t ≠ .sv then { k with h := k.h.pinOps } else k
      let r := if q ∧ wide then k.acquire k.h.core else k
      ∃ u, exec (.fence l q c t) s = .next u ∧ (∀ x, u.x x = r.x x) ∧ Retired r u (r.h.pc + 4) ∧
        (q ∧ wide → ∀ e ∈ u.coh.l1, e.core = k.h.core → ∀ w ∈ e.words, w.st ≠ .v))

/-- R69: the CACHE operations. In the local window CINV, CINV.I, CWB and PREF have no effect but to retire, and CZERO
makes the 128 bytes of the block zero. At a physical address CINV drops the line, CINV.I drops it from the instruction
cache, CWB writes its words back, and CZERO zeroes them as .self stores; each but CINV.I waits first for the words of the
line that are in flight. All but PREF take the stop of their checks; a PREF that would fault retires without effect. -/
def Sys2Proof.Claims.CacheOperations : Prop :=
  ∀ (s : State) (a : Fin 32) (i : BitVec 11) (p : Policy) (w : Bool),
    let ea := addrOf s a i
    (∀ off t, (s.locate ea 1 false .read false 0 = .ok (.scratch off) t →
        exec (.cinv a i) s = .next t.finish ∧ exec (.cwb a i) s = .next t.finish ∧
        exec (.pref a p w i) s = .next t.finish) ∧
      (s.locate ea 1 false .exec false 0 = .ok (.scratch off) t → exec (.cinvI a i) s = .next t.finish) ∧
      (s.locate ea 1 false .write false 0 = .ok (.scratch off) t → ∃ u, exec (.czero a i) s = .next u ∧
        RetiredScratch t u ∧ ∀ b, u.h.scratch.get b = if off / 128 = b / 128 then 0 else t.h.scratch.get b)) ∧
    (∀ pa t, (s.locate ea 1 false .read false 0 = .ok (.phys pa) t →
        (t.lineWait t.h.core (pa / 128) = none →
          exec (.cinv a i) s = .next (t.dropLine t.h.core (pa / 128)).finish ∧
          exec (.cwb a i) s = .next ((lineWords (pa / 128)).foldl (fun u w => u.cwbWord u.h.core w) t).finish) ∧
        (∀ x, t.lineWait t.h.core (pa / 128) = some x →
          exec (.cinv a i) s = .next (t.stopWith (.wait (.word x))) ∧
          exec (.cwb a i) s = .next (t.stopWith (.wait (.word x)))) ∧
        (∀ x, t.lostPeer pa = false → t.prefWait t.h.core p (pa / 128) = some x →
          exec (.pref a p w i) s = .next (t.stopWith (.wait (.word x)))) ∧
        (t.lostPeer pa = false → t.prefWait t.h.core p (pa / 128) = none → ∃ u, exec (.pref a p w i) s = .next u.finish ∧
          (u = (lineWords (pa / 128)).foldl (fun u x => u.prefWord t.h.core p (!w) x) t ∨
           u = ((lineWords (pa / 128)).foldl (fun u x => u.prefWord t.h.core p (!w) x) t).touchLine t.h.core pa false))) ∧
      (s.locate ea 1 false .exec false 0 = .ok (.phys pa) t → ∃ u, exec (.cinvI a i) s = .next u ∧
        (∀ e ∈ u.coh.icache, ¬(e.core = t.h.core ∧ e.line = pa / 128)) ∧
        (∀ e ∈ t.coh.icache, ¬(e.core = t.h.core ∧ e.line = pa / 128) → e ∈ u.coh.icache)) ∧
      (s.locate ea 1 false .write false 0 = .ok (.phys pa) t → t.lostPeer pa = false →
        (t.installWait t.h.core pa = none → exec (.czero a i) s =
          .next ((lineWords (pa / 128)).foldl (fun u w => u.coreStore u.h.core .self w 255 0) t).finish) ∧
        ∀ x, t.installWait t.h.core pa = some x → exec (.czero a i) s = .next (t.stopWith (.wait (.word x))))) ∧
    (∀ e t, (s.locate ea 1 false .read false 0 = .stop e t →
        exec (.cinv a i) s = .next (t.stopWith e) ∧ exec (.cwb a i) s = .next (t.stopWith e) ∧
        exec (.pref a p w i) s = .next (match e with | .wait _ => t.stopWith e | _ => s.finish)) ∧
      (s.locate ea 1 false .exec false 0 = .stop e t → exec (.cinvI a i) s = .next (t.stopWith e)) ∧
      (s.locate ea 1 false .write false 0 = .stop e t → exec (.czero a i) s = .next (t.stopWith e)))

/-- R67 to R69: FENCE and the CACHE operations. -/
def Obligations.FencesAndCaches : Prop := Sys2Proof.Claims.Fences ∧ Sys2Proof.Claims.CacheOperations

namespace Sys2Proof.Claims

open Sys2Proof.Machine

/-- The CSR instructions, each with the value it writes to a CSR that holds old, or none (R71). -/
def csrs (s : State) (d a : Fin 32) (i : BitVec 5) (n : BitVec 12) (old : Word) : List (Instr × Option Word) :=
  let z : Word := .ofNat 64 i.toNat
  [(.csrr d n, none), (.csrw d a n, some (s.x a)), (.csrs d a n, if a = 0 then none else some (old ||| s.x a)),
   (.csrc d a n, if a = 0 then none else some (old &&& ~~~s.x a)), (.csrwi d i n, some z),
   (.csrsi d i n, if i = 0 then none else some (old ||| z)), (.csrci d i n, if i = 0 then none else some (old &&& ~~~z))]

/-- The CSRs that hold what is written to them under a mask of fields, with the mask (R73, R75, R193, R406, R428). -/
def plainCsrs : List (Nat × Word) :=
  [(0x001, BitVec.allOnes 64), (0x002, 31), (0x200, 0x7FFF), (0x201, 0x80000000FFFFFFFF),
   (0x400, 0xFFFFFFFFFFFFFFFC), (0x401, 0x800000000001FFFF), (0x402, BitVec.allOnes 64),
   (0x403, 0xFFFFFFFFFFFFFFFC), (0x405, BitVec.allOnes 64), (0x406, 0xFFFF00FFFFFFFFFF)]

/-- The Mantle harts' CSRs of that kind (R76, R180). -/
def mantleCsrs : List (Nat × Word) :=
  [(0xC00, 63), (0xC01, 0xFFFFFFFFFFFFF000), (0xC02, 0xFFFFFFFFFFFFF000), (0xC03, 0x800000FF00000007),
   (0xC04, BitVec.allOnes 64), (0xC05, 15)]

/-- The hart's part of a trap that the device supervisor takes: h becomes g at the trap t (R408). -/
def Entered (h : Hart) (t : TrapInfo) (g : Hart) : Prop :=
  g.trap.tepc = h.stopPc ∧
  g.trap.tcause = .ofNat 64 ((if t.intr then 2 ^ 63 else 0) + (if t.viol then 2 ^ 16 else 0) +
    t.orig % 256 * 256 + t.code % 256) ∧
  g.trap.tval = t.tval ∧
  field g.trap.tstatus 0 2 = (match h.mode with | .u => 0 | .s => 1 | .m => 3) ∧
  flag g.trap.tstatus 3 = false ∧ flag g.trap.tstatus 4 = flag h.trap.tstatus 3 ∧
  flag g.trap.tstatus 5 = !h.window.isEmpty ∧ flag g.trap.tstatus 6 = h.trap.pfxLive ∧
  g.trap.pfxLive = false ∧ g.mode = (if h.isMantle then .m else .s) ∧ g.pc = h.trap.tvec ∧ g.status = .run ∧
  (h.window = [] → g.trap.tchain = h.trap.tchain ∧ g.vec.vstart = h.vec.vstart) ∧
  (∀ e rest, h.window = e :: rest → g.trap.tchain = tchainOf h.window ∧ g.vec.vstart = .ofNat 64 e.start) ∧
  g.window = [] ∧ g.viq = [] ∧
  g.x = h.x ∧ g.instret = h.instret ∧ g.sptbase = h.sptbase ∧ g.trap.pfxstate = h.trap.pfxstate ∧
  g.trap.tvec = h.trap.tvec ∧ g.trap.tscratch = h.trap.tscratch ∧ g.trap.claimcfg = h.trap.claimcfg ∧
  g.vec.v = h.vec.v ∧ g.vec.k = h.vec.k ∧ g.vec.e = h.vec.e ∧ g.vec.vl = h.vec.vl ∧ g.vec.vcfg = h.vec.vcfg ∧
  g.vec.stack = h.vec.stack ∧ g.scratch = h.scratch ∧ g.acc = h.acc ∧ g.inbox = h.inbox ∧ g.yops = h.yops ∧
  g.sleeves = h.sleeves ∧ g.copies = h.copies ∧ g.colls = h.colls

end Sys2Proof.Claims

/-- R70, R71: a CSR instruction that its mode may make, and that does not wait for Yoke operations (R72), reads the CSR
into x d and writes it as its member says; the write comes after the read. A read of cycle draws the next free value.
The choice of the model in it: assumption 4. -/
def Obligations.CsrInstructions : Prop :=
  ∀ (s : State) (d a : Fin 32) (i : BitVec 5) (n : BitVec 12),
    let old := s.csrRead n.toNat
    let s' := if n = 0x100 then { s with tick := s.tick + 1 } else s
    ∀ m ∈ csrs s d a i n old,
      s.h.csrReadable n.toNat = true → (m.2.isSome → s.h.csrWritable n.toNat = true) →
      ¬(csrWaits n.toNat = true ∧ s.h.yokeBusy = true) →
      let t := match m.2 with
        | none => s'
        | some v => s'.csrWrite n.toNat v
      ∃ u, exec m.1 s = .next u ∧ WroteX t u d old ∧ Retired t u (t.h.pc + 4)

/-- R70, R71, R48: a CSR instruction whose number is not listed for the hart, whose mode is too low, or that would write a
CSR not writable in the mode, is illegal; the word stands in tval. -/
def Sys2Proof.Claims.CsrRefused : Prop :=
  ∀ (s : State) (d a : Fin 32) (i : BitVec 5) (n : BitVec 12), ∀ m ∈ csrs s d a i n (s.csrRead n.toNat),
    (s.h.csrExists n.toNat = false ∨ (s.h.mode = .u ∧ 1024 ≤ n.toNat) ∨ (s.h.mode = .s ∧ 2048 ≤ n.toNat) ∨
      (m.2.isSome ∧ (n.toNat / 256 % 4 = 1 ∨ (n.toNat / 256 % 4 = 2 ∧ s.h.mode = .u)))) →
    exec m.1 s = .next s.illegal ∧ (s.h.back = none → s.illegal = s.takeTrap (.sync 0 (s.h.ir.setWidth 64)))

/-- R71, R73, R76, R170, R271, R407, R413: a CSR written holds the written value in its fields and zero in its reserved bits,
a field keeps its value where the written one is not permitted, and every other CSR of a compute hart reads as before. vrnd
takes the modes below 6; a PM of 2, or of 3 on a compute hart, a claimcfg field of 3, and pleats with two or more zero bits
are not permitted, nor is any new value of tchain. -/
def Obligations.CsrHoldsWhatIsWritten : Prop :=
  ∀ (s : State) (v : Word),
    let wrote (n : Nat) : Word := (s.csrWrite n v).csrRead n
    let tst := wrote 0x404
    let pm := v.toNat % 4
    (∀ p ∈ plainCsrs ++ mantleCsrs, wrote p.1 = v &&& p.2) ∧
    (∀ n m, csrHart m = true → m ≠ n → (s.csrWrite n v).csrRead m = s.csrRead m) ∧
    wrote 0x000 = (if v.toNat % 8 < 6 then v &&& 7 else s.csrRead 0x000) ∧
    wrote 0x202 = s.csrRead 0x202 ∧
    tst.toNat = v.toNat / 8 % 16 * 8 +
      (if pm = 2 ∨ (pm = 3 ∧ s.h.isMantle = false) then (s.csrRead 0x404).toNat % 4 else pm) ∧
    ((wrote 0x407).toNat % 4 = 0 ∧ (wrote 0x407).toNat < 2 ^ 28 ∧ ∀ i < 13,
      (wrote 0x407).toNat / 2 ^ (2 * i + 2) % 4 = if v.toNat / 2 ^ (2 * i + 2) % 4 = 3 then
        (s.csrRead 0x407).toNat / 2 ^ (2 * i + 2) % 4 else v.toNat / 2 ^ (2 * i + 2) % 4) ∧
    wrote 0xC06 = .ofNat 64 ((if v.toNat % 16 ∈ [15, 14, 13, 11, 7] then v.toNat % 16 else (s.laneMap s.h.laneCore).1) +
      v.toNat / 256 % 2 * 256)

/-- R78, R48, R77: ECALL takes ecall-from-U or ecall-from-S by the mode with tval 0 and is illegal in M mode; EBREAK takes
breakpoint with tval 0. Both are counted. -/
def Sys2Proof.Claims.SystemCalls : Prop :=
  ∀ s : State,
    let c : State := { s with h := { s.h with instret := s.h.instret + 1 } }
    (s.h.mode = .u → exec .ecall s = .next (c.takeTrap (.sync 10 0))) ∧
    (s.h.mode = .s → exec .ecall s = .next (c.takeTrap (.sync 11 0))) ∧
    (s.h.mode = .m → exec .ecall s = .next s.illegal) ∧
    exec .ebreak s = .next (c.takeTrap (.sync 9 0))

/-- R408 to R410: taking a trap. With the claim 0 or 2 (R170) the supervisor's handler is entered; a trap of the cause
whose handler has retired nothing yet ends the launch instead, or while the queues are stopped leaves the hart where it is
(R149). Memory and the other harts keep their values. With the
claim 1 the hart waits for the host, to whom the fault is queued. -/
def Sys2Proof.Claims.TrapTaken : Prop :=
  ∀ (s : State) (t : TrapInfo),
    (s.h.claim t ≠ 1 → (s.h.lc.launch = none ∨ s.h.trap.fresh ≠ some t.key) →
      Entered s.h t (s.takeTrap t).h ∧ (∀ a, (s.takeTrap t).mem.get a = s.mem.get a) ∧
      (s.takeTrap t).others = s.others ∧ (s.takeTrap t).h.trap.fresh = some t.key) ∧
    (∀ l, s.h.claim t = 0 → s.h.lc.launch = some l → s.h.trap.fresh = some t.key →
      s.takeTrap t = if s.fw.req = true ∨ s.fw.arm = true then s else s.endLaunch l 8) ∧
    (s.h.claim t = 1 → ∃ r : FaultRec, r.tval = t.tval ∧ r.code = t.code ∧ r.kind = 1 ∧ r.tepc = s.h.stopPc ∧
      (s.takeTrap t).host.recs = s.host.recs ++ [r] ∧ (s.takeTrap t).h.status = .hostFault r.token t ∧
      (s.takeTrap t).h.x = s.h.x ∧ (s.takeTrap t).h.pc = s.h.pc ∧ (s.takeTrap t).mem = s.mem)

/-- R170: claimcfg decides who takes a trap of U mode; a trap of S mode stays with the supervisor but for ecall-from-S, and
a Mantle hart takes its own. -/
def Sys2Proof.Claims.TrapClaims : Prop :=
  ∀ (h : Hart) (t : TrapInfo), t.code < 12 →
    (h.mode = .u → t.intr = false → h.claim t = h.trap.claimcfg.toNat / 2 ^ (2 * t.code + 2) % 4) ∧
    (h.mode = .u → t.intr = true → h.claim t = h.trap.claimcfg.toNat / 2 ^ 26 % 4) ∧
    (h.mode = .s → h.claim t = if t.intr = false ∧ t.code = 11 then h.trap.claimcfg.toNat / 2 ^ 24 % 4 else 0) ∧
    (h.mode = .m → h.claim t = 0)

/-- R170, R408 to R410: who takes a trap, and how it is taken. -/
def Obligations.TrapEntry : Prop := Sys2Proof.Claims.TrapTaken ∧ Sys2Proof.Claims.TrapClaims

/-- R79, R411: TRET outside U mode takes the pc from tepc and the mode from PM, sets IE to PIE and PIE to 1, and makes a
pending prefix live again when PP is set; with CH and a valid tchain the recorded window is put up to run again, tchain
becomes 0 and the hart goes on after the youngest recorded instruction. No x register and no byte of memory changes. -/
def Obligations.TrapReturn : Prop :=
  ∀ s : State, s.h.mode ≠ .u →
    let st := s.h.trap.tstatus
    let again : Bool := flag st 5 && flag s.h.trap.tchain 63
    ∃ t, exec .tret s = .next t ∧ t = { s with h := t.h } ∧ t.h.x = s.h.x ∧ t.h.instret = s.h.instret + 1 ∧
      (s.h.isMantle = false → t.h.mode = if field st 0 2 = 0 then .u else .s) ∧
      flag t.h.trap.tstatus 3 = flag st 4 ∧ flag t.h.trap.tstatus 4 = true ∧
      field t.h.trap.tstatus 0 2 = field st 0 2 ∧
      t.h.trap.pfxLive = (flag st 6 && flag s.h.trap.pfxstate 63) ∧ t.h.trap.pfxstate = s.h.trap.pfxstate ∧
      t.h.viq = [] ∧ (again = false → t.h.pc = s.h.trap.tepc ∧ t.h.window = [] ∧ t.h.trap.tchain = s.h.trap.tchain) ∧
      (again = true → t.h.window = s.h.trap.chain ∧ t.h.trap.tchain = 0 ∧
        ∀ e, s.h.trap.chain.getLast? = some e → t.h.pc = e.pc + 4)

/-- R48: TRET, SFENCE and THAW are illegal in U mode. -/
def Sys2Proof.Claims.PrivilegedInUserMode : Prop :=
  ∀ (s : State) (a b : Fin 32), s.h.mode = .u →
    exec .tret s = .next s.illegal ∧ exec (.sfence a b) s = .next s.illegal ∧ exec (.thaw a) s = .next s.illegal

/-- R48, R70, R71: what the mode and the list of CSRs forbid is illegal. -/
def Obligations.IllegalByPrivilege : Prop := Sys2Proof.Claims.CsrRefused ∧ Sys2Proof.Claims.PrivilegedInUserMode

/-- R80, R82, R85: WFI retires once a message, an interrupt, a debug stop or a pre-emption is there, and waits otherwise;
YIELD retires and lets every other ready hart of the core go first; PFX retires and leaves its own word pending in
pfxstate for the next word. -/
def Sys2Proof.Claims.WaitsYieldsPrefixes : Prop :=
  ∀ s : State,
    ((s.h.inbox.posted ≠ [] ∨ s.h.irqs ≠ [] ∨ s.h.lc.haltReq = true ∨ s.h.lc.preempt = true) →
      ∃ t, exec .wfi s = .next t ∧ (∀ r, t.x r = s.x r) ∧ Retired s t (s.h.pc + 4)) ∧
    (s.h.inbox.posted = [] → s.h.irqs = [] → s.h.lc.haltReq = false → s.h.lc.preempt = false →
      exec .wfi s = .next { s with h := { s.h with status := .wait .wfi } }) ∧
    (∃ t, exec .yield s = .next t ∧
      (∀ id, id ∈ t.h.yielded ↔ ∃ g ∈ s.others, g.id = id ∧ g.core = s.h.core ∧
        (g.status = .run ∨ ∃ w, g.status = .wait w ∧ s.clears g w = true)) ∧
      (∀ r, t.x r = s.x r) ∧ Retired s { t with h := { t.h with yielded := s.h.yielded } } (s.h.pc + 4)) ∧
    (∀ (v n : Bool) (p c : Fin 32) (w : Nat), encode (.pfx v n p c) = some w →
      ∃ t, exec (.pfx v n p c) s = .next t ∧ t.h.trap.pfxstate = .ofNat 64 (2 ^ 63 + w) ∧ t.h.trap.pfxLive = true ∧
        t.h.pc = (left s.h (s.h.pc + 4)).pc ∧ t.h.instret = s.h.instret + 1 ∧ t.h.x = s.h.x ∧ t = { s with h := t.h })

/-- R77, R78, R80, R82, R85: ECALL, EBREAK, WFI, YIELD and PFX. -/
def Obligations.CallsWaitsAndPrefixes : Prop := Sys2Proof.Claims.SystemCalls ∧ Sys2Proof.Claims.WaitsYieldsPrefixes

/-- R81, R434: SFENCE outside U mode removes every translation of the page and ASID that it names, of every TLB of the
device, keeps the others, and writes no register; an ASID of more than 16 bits names all. It completes only when no other
hart holds a store that has translated: those that can be performed are, and it waits for the others. -/
def Obligations.TranslationFence : Prop :=
  ∀ (s : State) (a b : Fin 32), s.h.mode ≠ .u →
    let page := (s.x a).toNat / 4096
    let hit (e : Tlb) : Bool :=
      (a == 0 || (decide (e.vpn ≤ page) && decide (page < e.vpn + e.pages))) &&
      (if e.g then b == 0 else (b == 0 || decide (65536 ≤ (s.x b).toNat) || e.asid == (s.x b).toNat))
    (∃ t, exec (.sfence a b) s = .next t ∧ (t.h.status ≠ .wait .yoke → ∀ g ∈ t.others, g.unconf = [])) ∧
    ((∀ g ∈ s.others, g.unconf = []) → ∃ t, exec (.sfence a b) s = .next t ∧ (∀ e, e ∈ t.mmu.tlb ↔ e ∈ s.mmu.tlb ∧ hit e = false) ∧
      (∀ e, e ∈ t.mmu.tlb2 ↔ e ∈ s.mmu.tlb2 ∧ hit e = false) ∧ t.mmu.fences = s.mmu.fences ∧
      (∀ r, t.x r = s.x r) ∧ Retired { s with mmu := t.mmu } t (s.h.pc + 4))

/-- R83, R84, R419: HALT in M mode stops the Mantle hart. In U and S mode, once the hart's Yoke operations and, after its
bindings are closed, its asynchronous operations are done, HALT is a release at device scope, gives the Yoke grant back,
discards the inbox and goes on to the next work item. THAW outside U mode releases the master it names: a frozen hart of
its own context, or of any in M mode, takes page-permission with viol = 1; a master that is not frozen is left alone.
The choices of the model in it: assumptions 40 and 44, and, that M mode reaches a frozen hart of any context, 71. -/
def Obligations.HaltAndThaw : Prop :=
  ∀ (s : State) (a : Fin 32),
    (s.h.mode = .m → ∃ t, exec .halt s = .next t ∧ t.h.status = .ended ∧ t.others = s.others ∧ t.mem = s.mem) ∧
    (∀ t, s.h.mode ≠ .m → s.yokeWait (fun _ => true) = .ok () t → t.h.copies = [] → t.h.colls = [] →
      (∀ b ∈ t.h.sleeves, b.write = false ∧ b.closing = false) →
      let u := { t.resolveLatest with h := { t.resolveLatest.h with sleeves := [] } }
      (∀ r q, u.releaseRes = .ok () r → r.ungrant.traceStrip 32 = .ok () q →
        exec .halt s = .next { q.finish with h := { q.finish.h with inbox := ⟨[], []⟩ } }.nextWork) ∧
      (∀ w r, u.releaseRes = .stop w r → exec .halt s = .next (r.stopWith w)) ∧
      ∀ w r q, u.releaseRes = .ok () r → r.ungrant.traceStrip 32 = .stop w q → exec .halt s = .next (q.stopWith w)) ∧
    (∀ w t, s.h.mode ≠ .m → s.yokeWait (fun _ => true) = .stop w t → exec .halt s = .next (t.stopWith w)) ∧
    (∀ g, s.h.mode ≠ .u → s.hart? g.id = some g → g.id < 65536 → s.link.module < 1024 →
      s.x a = .ofNat 64 (s.link.module * 65536 + g.id) →
      let own : Prop := s.h.mode = .m ∨ s.h.ctxid = g.ctxid
      (∀ f, own → g.status = .frozen f → exec (.thaw a) s = .next (s.onHart g.id fun u =>
        u.takeTrap { intr := false, code := 3, orig := 0, viol := true, tval := f.va }).finish) ∧
      (own → (∀ f, g.status ≠ .frozen f) → exec (.thaw a) s = .next (s.onHart g.id fun u => u).finish) ∧
      (¬own → exec (.thaw a) s = .next s.finish))

/-- R369, R370: IPOP and IPOPNB move the oldest posted message into x d and x b and free its entry; with none posted IPOPNB
writes zeros, and IPOP does so when no entry is reserved and else waits. -/
def Obligations.Inbox : Prop :=
  ∀ (s : State) (d b : Fin 32), s.h.pfx = none →
    (∀ m rest, s.h.inbox.posted = m :: rest → ∀ i ∈ [Instr.ipop d b, .ipopnb d b],
      ∃ t, exec i s = .next t ∧ t.h.inbox = { s.h.inbox with posted := rest } ∧
        (∀ r, t.x r = if r = 0 then 0 else if r = b then m.2 else if r = d then m.1 else s.x r) ∧
        Retired { s with h := { s.h with inbox := t.h.inbox } } t (s.h.pc + 4)) ∧
    (s.h.inbox.posted = [] →
      (s.h.inbox.resv = [] → exec (.ipop d b) s = exec (.ipopnb d b) s) ∧
      (s.h.inbox.resv ≠ [] → exec (.ipop d b) s = .next { s with h := { s.h with status := .wait .ipop } }) ∧
      ∃ t, exec (.ipopnb d b) s = .next t ∧ (∀ r, t.x r = if r = b ∨ r = d then 0 else s.x r) ∧
        Retired s t (s.h.pc + 4))

/-- R383, R384, R167: WMBIND binds the watermark x a to the base and limit of the record at x b with value 0 and the hart's
ASID as owner, after its checks in their order; in S mode x b = 0 releases it before any check. WMPUB has the open Yoke
operations' reads made, releases and raises the value, never
beyond limit − base; WMREAD reads it. A watermark of another owner, or a number beyond 4,095, is page-permission.
The choice of the model in it: assumption 25. -/
def Sys2Proof.Claims.WatermarkMembers : Prop :=
  ∀ (s : State) (d a b : Fin 32),
    let n := (s.x a).toNat
    let asid := s.h.sptbase.toNat / 2 ^ 48 % 65536
    let foreign : Bool := match s.wm? n with
      | some w => w.owner != asid
      | none => false
    let deny := s.takeTrap (.sync 3 (s.x a))
    (s.h.mode = .s → s.x b = 0 → ∃ t, exec (.wmbind a b) s = .next t ∧ t.wm? n = none ∧
      (∀ m, m ≠ n → t.wm? m = s.wm? m) ∧ t.h.x = s.h.x ∧ t.mem = s.mem) ∧
    (¬(s.h.mode = .s ∧ s.x b = 0) → 4096 ≤ n ∨ foreign = true → exec (.wmbind a b) s = .next deny) ∧
    (n < 4096 → foreign = false →
      ((s.h.mode ≠ .s ∨ s.x b ≠ 0) →
        ((s.x b).toNat % 8 ≠ 0 → exec (.wmbind a b) s = .next (s.takeTrap (.sync 1 (s.x b)))) ∧
        ((s.x b).toNat % 8 = 0 →
          (∀ e t, s.scalarLoad (s.x b) 8 .thru = .stop e t → exec (.wmbind a b) s = .next (t.stopWith e)) ∧
          (∀ base t limit u, s.scalarLoad (s.x b) 8 .thru = .ok base t → t.scalarLoad (s.x b + 8) 8 .thru = .ok limit u →
            (limit < base → exec (.wmbind a b) s = .next (u.takeTrap (.sync 3 (s.x a)))) ∧
            (base ≤ limit → ∃ v, exec (.wmbind a b) s = .next v ∧
              v.wm? n = some { num := n, base := base, limit := limit, value := 0, owner := u.h.asid } ∧
              v.h.x = u.h.x ∧ v.mem = u.mem))))) ∧
    (∀ w, n < 4096 → s.wm? n = some w → w.owner = asid →
      let k : State := { s with h := s.h.pinOps }
      (∀ t, k.releaseRes = .ok () t → exec (.wmpub a b) s = .next (t.publish n (t.x b).toNat).finish) ∧
      (∀ e t, k.releaseRes = .stop e t → exec (.wmpub a b) s = .next (t.stopWith e)) ∧
      Gives (.wmread d a) s d (.ofNat 64 w.value)) ∧
    ((4096 ≤ n ∨ foreign = true ∨ s.wm? n = none) →
      exec (.wmpub a b) s = .next deny ∧ exec (.wmread d a) s = .next deny)

/-- R167, R384: a publish sets the value to the larger of the value held and the smaller of the argument and limit − base,
so a value never falls, and changes no other watermark. -/
def Sys2Proof.Claims.PublishRaises : Prop :=
  ∀ (s : State) (n v : Nat) (w : Wm), s.wm? n = some w →
    (∃ u, (s.publish n v).wm? n = some u ∧ u.base = w.base ∧ u.limit = w.limit ∧ u.owner = w.owner ∧
      u.value = max w.value (min v (w.limit - w.base))) ∧
    ∀ m, m ≠ n → (s.publish n v).wm? m = s.wm? m

/-- R167, R383, R384: the watermark members, and that a value never falls. -/
def Obligations.Watermarks : Prop := Sys2Proof.Claims.WatermarkMembers ∧ Sys2Proof.Claims.PublishRaises

namespace Sys2Proof.Claims

open Sys2Proof.Machine

/-! ### Vector instructions -/

/-- How a vector instruction that uses u begins, and what it does when nothing stands in its way: on a Mantle hart, with a
valid tchain, or with illegal operands it is illegal (R34, R412, R35); an uncorrectable source stops it (R415), a single-bit
error of one is corrected (R140); the buffers of bound destinations have room (R398) and the bound sources are consumed
(R374), and where that stops, it stops; from the state t after that it goes to R t. -/
def Runs (i : Instr) (s : State) (u : VUse) (R : State → State) : Prop :=
  let open' : Prop := s.h.isMantle = false ∧ flag s.h.trap.tchain 63 = false ∧ u.ok = true
  (¬open' → exec i s = .next s.illegal) ∧
  (open' → s.h.badUse u = true → exec i s = .next (s.vstop s.h.first (.trap (uncorrectable (BitVec.allOnes 64))))) ∧
  (open' → s.h.badUse u = false →
    (∀ w t, (s.readUse u).rooms u.dsts = .stop w t → exec i s = .next (t.vstop t.h.first w)) ∧
    ∀ r, (s.readUse u).rooms u.dsts = .ok () r →
      (∀ t, r.consume u.srcs = .ok () t → exec i s = .next (R t)) ∧
      ∀ w t, r.consume u.srcs = .stop w t → exec i s = .next (t.vstop t.h.first w))

/-- t after an element-wise instruction with vector result: each active element from vstart to VL, within the bound of a
partial execution, becomes the pattern of f, and the flags of f gather in vflags; then the instruction ends, or goes on
later from its bound (R207, R208, R223, R275), and a bound destination takes its elements (R375). -/
def elementWise (t : State) (d : Fin 32) (k : Fin 8) (f : Nat → Nat × Nat) : State :=
  let h := t.h
  let es := (List.range' h.first (h.last - h.first)).filter fun i =>
    decide (i < h.vl) && h.vec.e.getLsbD i && h.kbit k i && h.pred i
  let g := h.putAll d h.ew h.lgrp (es.map fun i => (i, (f i).1))
  let flags := es.foldl (fun n i => n ||| (f i).2) 0
  { t with h := { g with vec := { g.vec with vflags := g.vec.vflags ||| BitVec.ofNat 64 flags } } }.vend
    fun u => u.appends d u.h.ew

/-- t after an instruction that writes the listed elements and then ends (R237, R241). -/
def listed (t : State) (d : Fin 32) (xs : List (Nat × Nat)) (flags : Nat) : State :=
  let g := t.h.putAll d t.h.ew t.h.lgrp xs
  ({ t with h := { g with vec := { g.vec with vflags := g.vec.vflags ||| BitVec.ofNat 64 flags } } }.appends d t.h.ew).vdone

/-- The signed number of a w-bit pattern. -/
def sg (w p : Nat) : Int := (p : Int).bmod (2 ^ w)

/-- The w-bit pattern of an integer. -/
def pat (w : Nat) (n : Int) : Nat := (n % 2 ^ w).toNat

/-- An integer clamped to w signed bits. -/
def clamp (w : Nat) (n : Int) : Int := max (-2 ^ (w - 1)) (min (2 ^ (w - 1) - 1) n)

/-- The functions of R214 in the order of its table, but for VMACC: of the width, a and s. -/
def viTable : List (Nat → Nat → Nat → Nat) :=
  [fun w a s => pat w (a + s), fun w a s => pat w (a - s), fun _ a s => a &&& s, fun _ a s => a ||| s,
   fun _ a s => a ^^^ s, fun w a s => a &&& (s ^^^ (2 ^ w - 1)),
   fun w a s => pat w (a * 2 ^ (s % w)), fun w a s => a / 2 ^ (s % w), fun w a s => pat w (sg w a / 2 ^ (s % w)),
   fun w a s => pat w (min (sg w a) (sg w s)), fun w a s => pat w (max (sg w a) (sg w s)),
   fun _ a s => min a s, fun _ a s => max a s,
   fun w a s => pat w (a * s), fun w a s => pat w (sg w a * sg w s / 2 ^ w), fun w a s => a * s / 2 ^ w,
   fun w a s => pat w (if s = 0 then -1 else (sg w a).tdiv (sg w s)), fun w a s => if s = 0 then 2 ^ w - 1 else a / s,
   fun w a s => pat w (if s = 0 then (a : Int) else (sg w a).tmod (sg w s)), fun _ a s => if s = 0 then a else a % s,
   fun w a s => pat w (clamp w (sg w a + sg w s)), fun w a s => min (a + s) (2 ^ w - 1),
   fun w a s => pat w (clamp w (sg w a - sg w s)), fun _ a s => a - s,
   fun w a s => (sg w a - sg w s).natAbs]

/-- The members of VI that viTable describes. -/
def viMembers (d a b : Fin 32) (x y : Bool) (k : Fin 8) : List Instr :=
  [.vadd d a b x y k, .vsub d a b x y k, .vand d a b x y k, .vor d a b x y k, .vxor d a b x y k, .vandn d a b x y k,
   .vsll d a b x y k, .vsrl d a b x y k, .vsra d a b x y k, .vmin d a b x y k, .vmax d a b x y k,
   .vminu d a b x y k, .vmaxu d a b x y k, .vmul d a b x y k, .vmulh d a b x y k, .vmulhu d a b x y k,
   .vdiv d a b x y k, .vdivu d a b x y k, .vrem d a b x y k, .vremu d a b x y k,
   .vsadd d a b x y k, .vsaddu d a b x y k, .vssub d a b x y k, .vssubu d a b x y k, .vabsd d a b x y k]

/-- The members of VIX that viTable describes. -/
def vixMembers (d a b : Fin 32) (x : Bool) (k : Fin 8) : List Instr :=
  [.vaddX d a b x k, .vsubX d a b x k, .vandX d a b x k, .vorX d a b x k, .vxorX d a b x k, .vandnX d a b x k,
   .vsllX d a b x k, .vsrlX d a b x k, .vsraX d a b x k, .vminX d a b x k, .vmaxX d a b x k,
   .vminuX d a b x k, .vmaxuX d a b x k, .vmulX d a b x k, .vmulhX d a b x k, .vmulhuX d a b x k,
   .vdivX d a b x k, .vdivuX d a b x k, .vremX d a b x k, .vremuX d a b x k,
   .vsaddX d a b x k, .vsadduX d a b x k, .vssubX d a b x k, .vssubuX d a b x k, .vabsdX d a b x k]

/-- The members of VF of two operands, each with its function of the format, the rounding, a and s (R226, R228, R229). -/
def vfMembers (d a b : Fin 32) (x y : Bool) (k : Fin 8) : List (Instr × (FFmt → Rnd → Nat → Nat → FR)) :=
  [(.vfadd d a b x y k, fun f r p q => f.add r p q),
   (.vfsub d a b x y k, fun f r p q => f.sub r p q), (.vfmul d a b x y k, fun f r p q => f.mul r p q),
   (.vfdiv d a b x y k, fun f r p q => f.div r p q), (.vfmin d a b x y k, fun f _ p q => f.minmax false p q),
   (.vfmax d a b x y k, fun f _ p q => f.minmax true p q),
   (.vfsgnj d a b x y k, fun f _ p q => f.withSign (q.testBit (f.ebits + f.fbits)) p),
   (.vfsgnjn d a b x y k, fun f _ p q => f.withSign (!q.testBit (f.ebits + f.fbits)) p)]

/-- The same of VFX. -/
def vfxMembers (d a b : Fin 32) (x : Bool) (k : Fin 8) : List (Instr × (FFmt → Rnd → Nat → Nat → FR)) :=
  [(.vfaddX d a b x k, fun f r p q => f.add r p q), (.vfsubX d a b x k, fun f r p q => f.sub r p q),
   (.vfmulX d a b x k, fun f r p q => f.mul r p q), (.vfdivX d a b x k, fun f r p q => f.div r p q),
   (.vfminX d a b x k, fun f _ p q => f.minmax false p q), (.vfmaxX d a b x k, fun f _ p q => f.minmax true p q),
   (.vfsgnjX d a b x k, fun f _ p q => f.withSign (q.testBit (f.ebits + f.fbits)) p),
   (.vfsgnjnX d a b x k, fun f _ p q => f.withSign (!q.testBit (f.ebits + f.fbits)) p)]

/-- The unary members of VF (R226, R229, R196). -/
def vf1Members (d a : Fin 32) (x : Bool) (k : Fin 8) : List (Instr × (FFmt → Rnd → Nat → FR)) :=
  [(.vfsqrt d a x k, fun f r p => f.sqrt r p), (.vfrcp d a x k, fun f _ p => f.rcp p),
   (.vfrsq d a x k, fun f _ p => f.rsq p), (.vfexp2 d a x k, fun f _ p => f.exp2 p),
   (.vflog2 d a x k, fun f _ p => f.log2 p), (.vfsin d a x k, fun f _ p => f.sin p),
   (.vfcos d a x k, fun f _ p => f.cos p), (.vfabs d a x k, fun f _ p => f.withSign false p),
   (.vfneg d a x k, fun f _ p => f.withSign (!p.testBit (f.ebits + f.fbits)) p),
   (.vfclass d a x k, fun f _ p => f.classify p)]

/-- The fused members, each with whether the product and the addend are negated (R226). -/
def fusedMembers (d a b : Fin 32) (x y : Bool) (k : Fin 8) : List (Instr × Instr × Bool × Bool) :=
  [(.vfmadd d a b x y k, .vfmaddX d a b x k, false, false), (.vfmsub d a b x y k, .vfmsubX d a b x k, false, true),
   (.vfnmadd d a b x y k, .vfnmaddX d a b x k, true, true), (.vfnmsub d a b x y k, .vfnmsubX d a b x k, true, false)]

/-! ### Numbers and rounding (R187, R194) -/

/-- The number that a finite pattern of eb exponent bits and fb fraction bits stands for (R187). -/
def valueOf (eb fb p : Nat) : ℚ :=
  let ex := p % 2 ^ (eb + fb) / 2 ^ fb
  let fr := p % 2 ^ fb
  let m : ℚ := if ex = 0 then fr else 2 ^ fb + fr
  (if p.testBit (eb + fb) then -m else m) * 2 ^ ((max ex 1 : ℕ) - (2 ^ (eb - 1) - 1 + fb : ℕ) : ℤ)

/-- Whether a pattern is neither a NaN nor an infinity. -/
def IsFinite (eb fb p : Nat) : Prop := p % 2 ^ (eb + fb) < (2 ^ eb - 1) * 2 ^ fb

/-- The numbers of a format with the range taken as unbounded, subnormals kept (R194). -/
def IsNumber (eb fb : Nat) (y : ℚ) : Prop :=
  ∃ m e : ℤ, |m| ≤ 2 ^ (fb + 1) ∧ 2 - 2 ^ (eb - 1) - (fb : ℤ) ≤ e ∧ y = m * 2 ^ e

/-- y is the number that the mode of k picks for x: x itself where it is one of the numbers, else one of its neighbours lo and
hi (R194). -/
def Rounded (number : ℚ → Prop) (k : Rnd) (x : ℝ) (y : ℚ) : Prop :=
  number y ∧ (∀ z, number z → (z : ℝ) = x → y = z) ∧
  ∀ lo hi : ℚ, number lo → number hi → (lo : ℝ) < x → x < (hi : ℝ) → (∀ z, number z → z ≤ lo ∨ hi ≤ z) →
    (y = lo ∨ y = hi) ∧
    (k.mode = 0 ∨ k.mode = 4 → (2 * x < (lo : ℝ) + hi → y = lo) ∧ ((lo : ℝ) + hi < 2 * x → y = hi)) ∧
    (k.mode = 0 → 2 * x = (lo : ℝ) + hi → ∃ n : ℤ, y = 2 * n * (hi - lo)) ∧
    (k.mode = 4 → 2 * x = (lo : ℝ) + hi → (0 < x → y = hi) ∧ (x < 0 → y = lo)) ∧
    (k.mode = 1 → (0 < x → y = lo) ∧ (x < 0 → y = hi)) ∧ (k.mode = 2 → y = lo) ∧ (k.mode = 3 → y = hi) ∧
    (k.mode = 5 → ((k.draw : ℝ) * (hi - lo) < 2 ^ 25 * (x - lo) → y = hi) ∧
      (2 ^ 25 * (x - lo) ≤ (k.draw : ℝ) * (hi - lo) → y = lo))

/-- r is the nonzero x delivered in a format under k (R194, R223): the number that the mode picks, with the sign of x; past the
largest finite number the overflow of the mode, or with `sat` (E4M3) 448. -/
def Delivers (eb fb : Nat) (sat : Bool) (k : Rnd) (x : ℝ) (r : FR) : Prop :=
  let top : ℚ := if sat then 448 else (2 ^ (fb + 1) - 1) * 2 ^ ((2 ^ (eb - 1) - 1 : ℕ) - fb : ℤ)
  let tiny : ℚ := 2 ^ (2 - 2 ^ (eb - 1) : ℤ)
  let inf := (2 ^ eb - 1) * 2 ^ fb
  let mag := r.bits % 2 ^ (eb + fb)
  ∃ y, Rounded (IsNumber eb fb) k x y ∧
    (r.bits.testBit (eb + fb) = true ↔ x < 0) ∧ r.bits < 2 ^ (eb + fb + 1) ∧ r.flags < 8 ∧
    (r.flags.testBit 0 = true ↔ (y : ℝ) ≠ x ∨ top < |y|) ∧ (r.flags.testBit 2 = true ↔ top < |y|) ∧
    (r.flags.testBit 1 = true → (y : ℝ) ≠ x ∧ |x| < tiny) ∧ ((y : ℝ) ≠ x → |y| < tiny → r.flags.testBit 1 = true) ∧
    (|y| ≤ top → valueOf eb fb r.bits = y) ∧
    (top < |y| → mag = if sat then 0x7E else
      if k.mode = 1 ∨ (k.mode = 2 ∧ r.bits.testBit (eb + fb) = false) ∨ (k.mode = 3 ∧ r.bits.testBit (eb + fb) = true)
      then inf - 1 else inf)

/-- The floating-point codes of R26 with an infinity: code, exponent bits, fraction bits. -/
def floatCodes : List (Nat × Nat × Nat) := [(4, 5, 10), (5, 8, 7), (6, 8, 23), (7, 11, 52), (9, 5, 2)]

/-- The integer codes of R26: code, bits, least and greatest value. -/
def intCodes : List (Nat × Nat × ℤ × ℤ) :=
  [(0, 8, -2 ^ 7, 2 ^ 7 - 1), (1, 16, -2 ^ 15, 2 ^ 15 - 1), (2, 32, -2 ^ 31, 2 ^ 31 - 1), (3, 64, -2 ^ 63, 2 ^ 63 - 1),
   (10, 8, 0, 2 ^ 8 - 1), (11, 16, 0, 2 ^ 16 - 1), (12, 32, 0, 2 ^ 32 - 1), (13, 64, 0, 2 ^ 64 - 1)]

/-- The add of VRED.FSUM: a sum under RNE, or the term that is not absent (R242). -/
def addOpt (f : FFmt) (x y : Option Nat) : Option Nat :=
  match x, y with
  | some p, some q => some (f.add .rne p q).bits
  | some p, none => some p
  | none, y => y

/-- t[i] after the first n rounds of R242's loop. -/
def sumTree (f : FFmt) (t : Nat → Option Nat) : Nat → Nat → Option Nat
  | 0, i => t i
  | n + 1, i => addOpt f (sumTree f t n i) (sumTree f t n (i + 2 ^ n))

/-- The integer predicates of VCMP (R217): of the width, a and s. -/
def vsMembers (d : Fin 8) (a b : Fin 32) (x y : Bool) (k : Fin 8) (z : Bool) : List (Instr × (Nat → Nat → Nat → Bool)) :=
  [(.vseq d a b x y k z, fun _ p q => p = q), (.vsne d a b x y k z, fun _ p q => p ≠ q),
   (.vslt d a b x y k z, fun w p q => sg w p < sg w q), (.vsltu d a b x y k z, fun _ p q => p < q),
   (.vsle d a b x y k z, fun w p q => sg w p ≤ sg w q), (.vsleu d a b x y k z, fun _ p q => p ≤ q),
   (.vsgt d a b x y k z, fun w p q => sg w p > sg w q), (.vsgtu d a b x y k z, fun _ p q => p > q)]

/-- The floating-point predicates of VCMP, each with whether every NaN is invalid or a signalling one alone (R217). -/
def vfcMembers (d : Fin 8) (a b : Fin 32) (x y : Bool) (k : Fin 8) (z : Bool) : List (Instr × Bool × (FV → FV → Bool)) :=
  [(.vfeq d a b x y k z, false, fun v w => v.eq w), (.vfne d a b x y k z, false, fun v w => !v.eq w),
   (.vflt d a b x y k z, true, fun v w => v.lt w), (.vfle d a b x y k z, true, fun v w => v.lt w || v.eq w),
   (.vfunord d a b x y k z, false, fun v w => v.isNan || w.isNan)]

/-- What a comparison uses (R216): two groups, or one group and x b. -/
def cmpUse (s : State) (isF : Bool) (d : Fin 8) (a b : Nat) (k : Fin 8) (z : Bool) : VUse :=
  let rs := if z then [a] else [a, b]
  { ok := d != 0 && isF == decide (4 ≤ s.h.ew) && s.h.srcsOk rs, srcs := rs,
    reads := rs.map fun r => (r, s.h.eb), masks := [k.val], act := some k }

/-- What an instruction uses that picks elements of its sources by an index (R237; assumption 70). -/
def pickUse (s : State) (ok : Bool) (d : Nat) (rs : List Nat) (k : Fin 8) : VUse :=
  { s.h.use ok d rs k false with gather := true }

/-- What a reduction uses: the active elements of va and element 0 of vb (R241). -/
def redUse (s : State) (ok : Bool) (d a b : Nat) (k : Fin 8) : VUse :=
  { s.h.use ok d [a, b] k false with reads := [(a, s.h.eb)], only := [(b, s.h.eb, 0)], whole := true }

/-- What an instruction on mask registers uses: it starts at element 0 whatever vstart (R208). -/
def maskUse (ok : Bool) (ms : List (Fin 8)) : VUse :=
  { ok := ok, srcs := [], reads := [], masks := ms.map fun m => m.val, whole := true }

/-- What an instruction on E and the mask stack uses, whatever VL (R209, R244): masks, the top of the stack, and E. -/
def divUse (h : Hart) (ok : Bool) (ms : List (Fin 8)) (top useE : Bool) : VUse :=
  { ok := ok, srcs := [], reads := [], useE := useE, whole := true, always := true,
    masks := (ms.map fun m => m.val) ++ if top && !h.vec.stack.isEmpty then [8 + h.vec.stack.length] else [] }

/-- t after a comparison: the bit of each active element, and the flags (R216). -/
def compared (t : State) (d k : Fin 8) (f : Nat → Bool × Nat) : State :=
  let h := t.h
  let es := h.elems k
  let g := h.writeK d (es.map fun i => (i, (f i).1))
  { t with h := { g with vec := { g.vec with
      vflags := g.vec.vflags ||| BitVec.ofNat 64 (es.foldl (fun n i => n ||| (f i).2) 0) } } }.vend id

/-- The lowest active set bit of a, or VL (R219). -/
def IsFirst (h : Hart) (a k : Fin 8) (f : Nat) : Prop :=
  f ≤ h.vl ∧ (f < h.vl → h.active k f = true ∧ h.kbit a f = true) ∧ ∀ i < f, h.active k i = true → h.kbit a i = false

/-- The hart's part of a vector instruction's end, but for what it wrote (R208, R77). -/
def Ended (h g : Hart) : Prop :=
  g.pc = (left h (h.pc + 4)).pc ∧ g.instret = h.instret + 1 ∧ g.vec.vstart = 0 ∧ g.status = .run ∧
  g.window = (left h (h.pc + 4)).window ∧ g.unconf = (left h (h.pc + 4)).unconf ∧ g.back = none ∧ g.lim = none ∧ g.cap = none ∧
  g.viq = h.viq ∧ g.mode = h.mode ∧ g.scratch = h.scratch ∧ g.acc = h.acc ∧ g.vec.vl = h.vec.vl ∧
  g.vec.vcfg = h.vec.vcfg ∧ g.trap.tepc = h.trap.tepc ∧ g.trap.tstatus = h.trap.tstatus ∧ g.trap.tcause = h.trap.tcause

end Sys2Proof.Claims

/-- R203, R280, R281: VSETL grants min(x a, VLMAX), with VLMAX = vrb × grp ÷ eb, sets vcfg, vl, vstart and stripord, writes
the grant to x d, and changes no vector register, mask register, E or mask-stack entry; while its strip's record waits for
the trace ring it waits in the window; on a Mantle hart or with a valid tchain it is illegal. -/
def Obligations.SetVectorLength : Prop :=
  ∀ (s : State) (d a : Fin 32) (g : Fin 4) (e : Fin 8),
    let n := min (s.h.xa a).toNat (s.h.vec.vrb.toNat * 2 ^ g.val / codeBytes e)
    (s.h.vectorOk = true → ∀ r, s.nextStrip n = .ok () r →
      ∃ t, exec (.vsetl d a g e) s = .next t ∧ t.h.vec.vl = .ofNat 64 n ∧
        t.h.vec.vcfg = .ofNat 64 (g.val * 8 + e.val) ∧ t.h.vec.vstart = 0 ∧ t.h.stripord = s.h.stripord + 1 ∧
        (r.h.back = none → (∀ q, t.x q = if q = 0 then 0 else if q = d then .ofNat 64 n else r.x q) ∧
          t.h.pc = r.h.pc + 4) ∧
        t.h.vec.v = r.h.vec.v ∧ t.h.vec.k = r.h.vec.k ∧ t.h.vec.e = r.h.vec.e ∧ t.h.vec.stack = r.h.vec.stack) ∧
    ((∀ l, s.myLaunch = some l → l.trace = none) →
      ∃ r, s.nextStrip n = .ok () r ∧ r.h.back = s.h.back ∧ r.h.pc = s.h.pc ∧ r.h.x = s.h.x ∧ r.mem = s.mem ∧
        r.h.vec.v = s.h.vec.v ∧ r.h.vec.k = s.h.vec.k ∧ r.h.vec.e = s.h.vec.e ∧ r.h.vec.stack = s.h.vec.stack) ∧
    (s.h.vectorOk = true → ∀ w r, s.nextStrip n = .stop w r → r.h.back = none →
      exec (.vsetl d a g e) s = .next ({ r with h := r.h.set d (.ofNat 64 n) }.vstop 0 w)) ∧
    (s.h.vectorOk = false → exec (.vsetl d a g e) s = .next s.illegal)

/-- R213, R214, R52: the members of VI and VIX of two operands under ew 0 to 3, each on every active element. -/
def Sys2Proof.Claims.VectorIntegersFirst : Prop :=
  ∀ (s : State) (d a b : Fin 32) (x y : Bool) (k : Fin 8),
    (∀ p ∈ (viMembers d a b x y k).zip viTable,
      Runs p.1 s (s.h.use (decide (s.h.ew < 4)) d [a, b] k false) fun t =>
        elementWise t d k fun i => (p.2 t.h.ewBits (t.h.velem a i) (t.h.velem b i), 0)) ∧
    (∀ p ∈ (vixMembers d a b x k).zip viTable,
      Runs p.1 s (s.h.use (decide (s.h.ew < 4)) d [a] k false) fun t =>
        elementWise t d k fun i => (p.2 t.h.ewBits (t.h.velem a i) ((s.h.xb b).toNat % 2 ^ t.h.ewBits), 0))

/-- R214: VMACC adds a × s to the old element of vd; VCLZ, VCTZ and VPOPC count bits; VMV and VMV.X copy at any ew. -/
def Sys2Proof.Claims.VectorIntegersMore : Prop :=
  ∀ (s : State) (d a b : Fin 32) (x y : Bool) (k : Fin 8),
    Runs (.vmacc d a b x y k) s (s.h.use (decide (s.h.ew < 4)) d [a, b] k true) (fun t =>
      elementWise t d k fun i => (pat t.h.ewBits (t.h.velem d i + t.h.velem a i * t.h.velem b i), 0)) ∧
    Runs (.vmaccX d a b x k) s (s.h.use (decide (s.h.ew < 4)) d [a] k true) (fun t =>
      elementWise t d k fun i =>
        (pat t.h.ewBits (t.h.velem d i + t.h.velem a i * ((s.h.xb b).toNat % 2 ^ t.h.ewBits)), 0)) ∧
    Runs (.vmv d a x k) s (s.h.use true d [a] k false) (fun t => elementWise t d k fun i => (t.h.velem a i, 0)) ∧
    Runs (.vmvX d b k) s (s.h.use true d [] k false) (fun t =>
      elementWise t d k fun _ => ((s.h.xb b).toNat % 2 ^ t.h.ewBits, 0)) ∧
    (∃ clz ctz : Nat → Nat → Nat,
      (∀ w v, v < 2 ^ w → clz w v ≤ w ∧ v < 2 ^ (w - clz w v) ∧ (if v = 0 then clz w v = w else 2 ^ (w - clz w v) ≤ 2 * v)) ∧
      (∀ w v, v < 2 ^ w → ctz w v ≤ w ∧ 2 ^ ctz w v ∣ v ∧ (v ≠ 0 → ¬2 ^ (ctz w v + 1) ∣ v) ∧ (v = 0 → ctz w v = w)) ∧
      Runs (.vclz d a x k) s (s.h.use (decide (s.h.ew < 4)) d [a] k false) (fun t =>
        elementWise t d k fun i => (clz t.h.ewBits (t.h.velem a i), 0)) ∧
      Runs (.vctz d a x k) s (s.h.use (decide (s.h.ew < 4)) d [a] k false) (fun t =>
        elementWise t d k fun i => (ctz t.h.ewBits (t.h.velem a i), 0))) ∧
    Runs (.vpopc d a x k) s (s.h.use (decide (s.h.ew < 4)) d [a] k false) (fun t =>
      elementWise t d k fun i =>
        (((List.range t.h.ewBits).filter fun j => (t.h.velem a i).testBit j).length, 0))

/-- R214 to R216: the integer members with vector and scalar second operands. -/
def Obligations.VectorIntegers : Prop := Sys2Proof.Claims.VectorIntegersFirst ∧ Sys2Proof.Claims.VectorIntegersMore

/-- R224 to R230: the members of VF and VFX under ew 4 to 7, rounded under vrnd, each on every active element. -/
def Obligations.VectorFloats : Prop :=
  ∀ (s : State) (d a b : Fin 32) (x y : Bool) (k : Fin 8),
    let fl := decide (4 ≤ s.h.ew)
    (∀ p ∈ vfMembers d a b x y k, Runs p.1 s (s.h.use fl d [a, b] k false) fun t =>
      elementWise t d k fun i => let r := p.2 t.h.fmt (t.h.rnd i) (t.h.velem a i) (t.h.velem b i); (r.bits, r.flags)) ∧
    (∀ p ∈ vfxMembers d a b x k, Runs p.1 s (s.h.use fl d [a] k false) fun t =>
      elementWise t d k fun i =>
        let r := p.2 t.h.fmt (t.h.rnd i) (t.h.velem a i) ((s.h.xb b).toNat % 2 ^ t.h.ewBits); (r.bits, r.flags)) ∧
    (∀ p ∈ vf1Members d a x k, Runs p.1 s (s.h.use fl d [a] k false) fun t =>
      elementWise t d k fun i => let r := p.2 t.h.fmt (t.h.rnd i) (t.h.velem a i); (r.bits, r.flags)) ∧
    (∀ p ∈ fusedMembers d a b x y k,
      (Runs p.1 s (s.h.use fl d [a, b] k true) fun t => elementWise t d k fun i =>
        let r := t.h.fmt.fma (t.h.rnd i) p.2.2.1 p.2.2.2 (t.h.velem a i) (t.h.velem b i) (t.h.velem d i)
        (r.bits, r.flags)) ∧
      Runs p.2.1 s (s.h.use fl d [a] k true) fun t => elementWise t d k fun i =>
        let r := t.h.fmt.fma (t.h.rnd i) p.2.2.1 p.2.2.2 (t.h.velem a i) ((s.h.xb b).toNat % 2 ^ t.h.ewBits)
          (t.h.velem d i)
        (r.bits, r.flags))

/-- R187, R194, R223, R225 to R227: in every format of a vector element, on finite operands, a sum, difference, product,
quotient, fused result and square root is the exact value rounded once: a number of the format with the range taken as
unbounded that the mode picks between the neighbours, delivered where it is at most the largest finite number and else as the
mode's overflow; NX, OF and UF tell of it, and no other flag is set. An exact zero is delivered as a zero without a flag. -/
def Sys2Proof.Claims.FloatRounds : Prop :=
  ∀ e ∈ [(fmt16, 5, 10), (fmtBf16, 8, 7), (fmt32, 8, 23), (fmt64, 11, 52)], ∀ (k : Rnd) (p q c : Nat) (n1 n2 : Bool),
    let f := e.1
    let v := valueOf e.2.1 e.2.2
    let res (x : ℝ) (r : FR) : Prop :=
      (x ≠ 0 → Delivers e.2.1 e.2.2 false k x r) ∧ (x = 0 → r.bits % 2 ^ (e.2.1 + e.2.2) = 0 ∧ r.flags = 0)
    k.mode < 6 → k.draw < 2 ^ 25 → (∀ u ∈ [p, q, c], IsFinite e.2.1 e.2.2 u) →
    (∀ o ∈ [(f.add k p q, v p + v q), (f.sub k p q, v p - v q), (f.mul k p q, v p * v q),
            (f.fma k n1 n2 p q c, (if n1 then -(v p * v q) else v p * v q) + (if n2 then -v c else v c))],
      res ((o.2 : ℚ) : ℝ) o.1) ∧
    (v q ≠ 0 → res ((v p / v q : ℚ) : ℝ) (f.div k p q)) ∧
    (0 ≤ v p → res (Real.sqrt (v p : ℝ)) (f.sqrt k p))

/-- R226, R228, R229: in every format of a vector element, a NaN operand makes a sum, difference, product, quotient or
fused result the canonical NaN, and a signalling one sets NV, a NaN that is only the addend of a fused member too; a minimum or maximum of a NaN and a number is the number; a
sign operation keeps the magnitude bits of a number and gives the canonical NaN for a NaN; no flag is set by it. -/
def Sys2Proof.Claims.FloatNans : Prop :=
  ∀ f ∈ [fmt16, fmtBf16, fmt32, fmt64], ∀ (r : Rnd) (p q c : Nat) (neg hi n1 n2 : Bool),
    ((f.decode p).isNan = true ∨ (f.decode q).isNan = true →
      ∀ o ∈ [f.add r p q, f.sub r p q, f.mul r p q, f.div r p q, f.fma r n1 n2 p q c], o.bits = f.nan ∧
        ((f.decode p).isSig = true ∨ (f.decode q).isSig = true → o.flags.testBit 4 = true)) ∧
    ((f.decode c).isNan = true → (f.fma r n1 n2 p q c).bits = f.nan ∧
      ((f.decode c).isSig = true → (f.fma r n1 n2 p q c).flags.testBit 4 = true)) ∧
    ((f.decode p).isNan = true → (f.decode q).isNan = false → (f.minmax hi p q).bits = q) ∧
    ((f.decode p).isNan = false → (f.decode q).isNan = true → (f.minmax hi p q).bits = p) ∧
    ((f.decode p).isNan = true → (f.decode q).isNan = true → (f.minmax hi p q).bits = f.nan) ∧
    (f.withSign neg p).flags = 0 ∧
    ((f.decode p).isNan = true → (f.withSign neg p).bits = f.nan) ∧
    ((f.decode p).isNan = false → (f.withSign neg p).bits.testBit (f.ebits + f.fbits) = neg ∧
      ∀ i < f.ebits + f.fbits, (f.withSign neg p).bits.testBit i = p.testBit i)

/-- R187, R194, R223, R225 to R229: what a floating-point member delivers: its exact value rounded once, and its NaNs and signs. -/
def Obligations.FloatNansAndSigns : Prop := Sys2Proof.Claims.FloatRounds ∧ Sys2Proof.Claims.FloatNans

/-- R216, R217: the comparisons write one mask bit for each active element and keep the others. -/
def Obligations.VectorCompares : Prop :=
  ∀ (s : State) (d : Fin 8) (a b : Fin 32) (x y : Bool) (k : Fin 8) (z : Bool),
    let q (t : State) (i : Nat) : Nat := if z then (s.h.xb b).toNat % 2 ^ t.h.ewBits else t.h.velem b i
    (∀ p ∈ vsMembers d a b x y k z, Runs p.1 s (cmpUse s false d a b k z) fun t =>
      compared t d k fun i => (p.2 t.h.ewBits (t.h.velem a i) (q t i), 0)) ∧
    (∀ p ∈ vfcMembers d a b x y k z, Runs p.1 s (cmpUse s true d a b k z) fun t =>
      compared t d k fun i =>
        let v := t.h.fmt.decode (t.h.velem a i)
        let w := t.h.fmt.decode (q t i)
        (p.2.2 v w, if (if p.2.1 then v.isNan || w.isNan else v.isSig || w.isSig) then 16 else 0))

/-- R231 to R234: VCVT writes the converted elements under the destination's type and group size. -/
def Sys2Proof.Claims.Conversions : Prop :=
  ∀ (s : State) (d a : Fin 32) (x : Bool) (k : Fin 8) (u : Bool) (c : Fin 16),
    let h := s.h
    let gd := max 1 (h.grp * codeBytes c / h.eb)
    let ok := decide (c.val < 14) && !(u && decide (4 ≤ h.ew)) && decide (gd ≤ 8) &&
      (if gd = h.grp then d == a || !overlap d gd a h.grp else !overlap d gd a h.grp) &&
      h.srcsOk [a.val] && h.destsOk d (cvtEw c) gd &&
      (decide (gd ≤ h.grp) || (h.runFree d gd && (h.vcpy == 0 || h.runFree h.vcpy gd)))
    Runs (.vcvt d a x k u c) s { ok := ok, srcs := [a.val], reads := [(a.val, h.eb)], masks := [k.val], act := some k,
                                 dsts := h.dests d } fun t =>
      let g := t.h
      let r (i : Nat) : FR := convert (g.rnd i) g.ew u c (g.velem a i)
      let g' := g.putAll d (cvtEw c) (lgrpOf gd) ((g.elems k).map fun i => (i, (r i).bits))
      { t with h := { g' with vec := { g'.vec with
          vflags := g'.vec.vflags ||| BitVec.ofNat 64 ((g.elems k).foldl (fun n i => n ||| (r i).flags) 0) } } }.vend
        fun t => t.appends d (cvtEw c)

/-- R234, R194: what one conversion delivers. An integer, or a finite number of a format, becomes the number of the
destination's format that the mode picks, E4M3 going to ±448 past its range; a number becomes the integer that the mode picks,
with NV at the end of the range where it lies outside; an integer is clamped; a NaN becomes the canonical NaN or 0. -/
def Sys2Proof.Claims.ConversionRounds : Prop :=
  ∀ (k : Rnd) (p : Nat) (us : Bool), k.mode < 6 → k.draw < 2 ^ 25 →
    ∀ d ∈ floatCodes ++ [(8, 4, 3)], ∀ i ∈ intCodes,
      (∀ e ∈ floatCodes, IsFinite e.2.1 e.2.2 p → valueOf e.2.1 e.2.2 p ≠ 0 →
        let v : ℚ := valueOf e.2.1 e.2.2 p
        Delivers d.2.1 d.2.2 (d.1 == 8) k (v : ℝ) (convert k e.1 us d.1 p) ∧
        ∃ y : ℤ, Rounded (fun z => ∃ n : ℤ, z = n) k (v : ℝ) y ∧
          let r := convert k e.1 us i.1 p
          (r.bits : ℤ) = max i.2.2.1 (min i.2.2.2 y) % 2 ^ i.2.1 ∧
          r.flags = if i.2.2.1 ≤ y ∧ y ≤ i.2.2.2 then (if (y : ℚ) = v then 0 else 1) else 16) ∧
      (∀ e ∈ floatCodes, IsFinite e.2.1 e.2.2 p → valueOf e.2.1 e.2.2 p = 0 → convert k e.1 us i.1 p = ⟨0, 0⟩ ∧
        (convert k e.1 us d.1 p).bits % 2 ^ (d.2.1 + d.2.2) = 0 ∧ (convert k e.1 us d.1 p).flags = 0) ∧
      (∀ e ∈ intCodes, e.1 < 4 →
        let n : ℤ := if us then (p % 2 ^ e.2.1 : ℕ) else ((p % 2 ^ e.2.1 : ℕ) : ℤ).bmod (2 ^ e.2.1)
        (n ≠ 0 → Delivers d.2.1 d.2.2 (d.1 == 8) k (n : ℝ) (convert k e.1 us d.1 p)) ∧
        ((convert k e.1 us i.1 p).bits : ℤ) = max i.2.2.1 (min i.2.2.2 n) % 2 ^ i.2.1 ∧
        (convert k e.1 us i.1 p).flags = 0) ∧
      ∀ e ∈ floatCodes, ∀ f g, codeFmt e.1 = some f → codeFmt d.1 = some g → (f.decode p).isNan = true →
        (convert k e.1 us d.1 p).bits = g.nan ∧ (convert k e.1 us i.1 p) = ⟨0, 16⟩ ∧
        ((convert k e.1 us d.1 p).flags = if (f.decode p).isSig then 16 else 0)

/-- R194, R231 to R234: VCVT, and what one conversion delivers. -/
def Obligations.VectorConversion : Prop := Sys2Proof.Claims.Conversions ∧ Sys2Proof.Claims.ConversionRounds

/-- R218, R219: the mask members of VK write one bit of kd for each active element and keep every other bit, every other
mask register, the vector registers and all of memory. -/
def Sys2Proof.Claims.MaskMembers : Prop :=
  ∀ (s : State) (d a b k : Fin 8) (f : Nat), IsFirst s.h a k f →
    ∀ p ∈ ([(Instr.kand d a b k, [a, b], fun i => s.h.kbit a i && s.h.kbit b i),
            (.kor d a b k, [a, b], fun i => s.h.kbit a i || s.h.kbit b i),
            (.kxor d a b k, [a, b], fun i => s.h.kbit a i ^^ s.h.kbit b i),
            (.kandn d a b k, [a, b], fun i => s.h.kbit a i && !s.h.kbit b i),
            (.knot d a k, [a], fun i => !s.h.kbit a i), (.kmov d a k, [a], fun i => s.h.kbit a i),
            (.kset d k, [], fun _ => true), (.kclr d k, [], fun _ => false),
            (.ksbf d a k, [a], fun i => i < f), (.ksif d a k, [a], fun i => i ≤ f),
            (.ksof d a k, [a], fun i => i = f)] : List (Instr × List (Fin 8) × (Nat → Bool))),
      let u := maskUse (d != 0) (k :: p.2.1)
      (s.h.vectorOk = true → d ≠ 0 → s.h.badUse u = false →
        ∃ t, exec p.1 s = .next t ∧ Ended s.h t.h ∧ t.h.x = s.h.x ∧ t.h.vec.v = s.h.vec.v ∧ t.mem = s.mem ∧
          (∀ m, m ≠ d → t.h.vec.k[m] = s.h.vec.k[m]) ∧
          ∀ i < 32768, (t.h.vec.k[d]).getLsbD i = if s.h.active k i then p.2.2 i else (s.h.vec.k[d]).getLsbD i) ∧
      (s.h.vectorOk = false ∨ d = 0 → exec p.1 s = .next s.illegal)

/-- R220: KPOPC writes the number of active set bits to x d, and KFIRST the lowest such element, or −1. -/
def Sys2Proof.Claims.MaskCounts : Prop :=
  ∀ (s : State) (d : Fin 32) (a k : Fin 8) (f : Nat), IsFirst s.h a k f →
    s.h.vectorOk = true → s.h.badUse (maskUse true [a, k]) = false →
    ∀ p ∈ [(Instr.kpopc d a k, BitVec.ofNat 64 ((List.range s.h.vl).filter fun i => s.h.active k i && s.h.kbit a i).length),
           (.kfirst d a k, if f = s.h.vl then BitVec.allOnes 64 else .ofNat 64 f)],
      ∃ t, exec p.1 s = .next t ∧ Ended s.h t.h ∧ t.h.vec.v = s.h.vec.v ∧ t.h.vec.k = s.h.vec.k ∧ t.mem = s.mem ∧
        ∀ r, t.x r = if r = 0 then 0 else if r = d then p.2 else s.x r

/-- R218 to R220: the members that read and write mask registers. -/
def Obligations.MaskRegisters : Prop := Sys2Proof.Claims.MaskMembers ∧ Sys2Proof.Claims.MaskCounts

/-- R244 to R246: PUSHM, ELSEM, POPM and KBREAK. Bits of E below VL are computed from E, the top of the mask stack and k;
POPM brings back the whole entry; the depth goes by one; a PUSHM at depth 16 and an ELSEM or POPM at depth 0 take
mask-stack-overflow with the depth in tval and change nothing. -/
def Sys2Proof.Claims.Divergence : Prop :=
  ∀ (s : State) (k : Fin 8), s.h.vectorOk = true → s.h.badUse (divUse s.h true [k] true true) = false →
    let h := s.h
    let full (u : VUse) := (s.readUse u).vstop s.h.first (.trap (.sync 5 (.ofNat 64 s.h.vec.stack.length)))
    let E (i : Nat) : Bool := h.vec.e.getLsbD i
    (h.vec.stack.length ≠ 16 → ∃ t, exec (.pushm k) s = .next t ∧ Ended h t.h ∧ t.mem = s.mem ∧
      t.h.vec.stack.map Prod.fst = h.vec.e :: h.vec.stack.map Prod.fst ∧
      ∀ i < 32768, t.h.vec.e.getLsbD i = if i < h.vl then E i && h.kbit k i else E i) ∧
    (∀ m n rest, h.vec.stack = (m, n) :: rest →
      (∃ t, exec (.elsem k) s = .next t ∧ Ended h t.h ∧ t.mem = s.mem ∧ t.h.vec.stack = h.vec.stack ∧
        ∀ i < 32768, t.h.vec.e.getLsbD i = if i < h.vl then m.getLsbD i && !h.kbit k i else E i) ∧
      ∃ t, exec .popm s = .next t ∧ Ended h t.h ∧ t.mem = s.mem ∧ t.h.vec.stack = rest ∧ t.h.vec.e = m) ∧
    (∃ t, exec (.kbreak k) s = .next t ∧ Ended h t.h ∧ t.mem = s.mem ∧ t.h.vec.stack = h.vec.stack ∧
      ∀ i < 32768, t.h.vec.e.getLsbD i = if i < h.vl then E i && !h.kbit k i else E i) ∧
    (h.vec.stack.length = 16 → exec (.pushm k) s = .next (full (divUse h true [k] false true))) ∧
    (h.vec.stack = [] → exec (.elsem k) s = .next (full (divUse h true [k] true true)) ∧
      exec .popm s = .next (full (divUse h true [] true false)))

/-- R247, R273: REGION opens the region from the next word to its target; it is skipped when no element below VL has E and k
set. One that was issued ahead stands among the hart's regions already, and where it is skipped the queued instructions of the
region leave the queue. A target of the REGION itself is illegal. The choice of the model in it: assumption 52. -/
def Sys2Proof.Claims.RegionOpens : Prop :=
  ∀ (s : State) (k : Fin 8) (o : BitVec 16), s.h.vectorOk = true →
    s.h.badUse (divUse s.h true [k] false true) = false →
    (o ≠ 0 → ∃ t r, exec (.region k o) s = .next t ∧ t.mem = s.mem ∧ t.h.vec.v = s.h.vec.v ∧ t.h.x = s.h.x ∧
      r.start = s.h.pc + 4 ∧ r.target = s.h.pc + .ofNat 64 (4 * o.toNat) ∧
      (r.skip = true ↔ ∀ i < 32768, i < s.h.vl → (s.h.vec.e.getLsbD i && s.h.kbit k i) = false) ∧
      (s.h.back = none → Ended s.h t.h ∧ t.h.region = r :: s.h.region) ∧
      (s.h.back ≠ none → r.skip = false → Ended s.h t.h ∧ r ∈ t.h.region ∧ ∀ q ∈ s.h.region, q ∈ t.h.region) ∧
      (s.h.back ≠ none → r.skip = true →
        (∀ e rest, t.h.viq = e :: rest → ¬(r.start.toNat ≤ e.pc.toNat ∧ e.pc.toNat < r.target.toNat)) ∧
        (t.h.viq = [] → r.start.toNat ≤ t.h.pc.toNat → t.h.pc.toNat < r.target.toNat → r ∈ t.h.region))) ∧
    (o = 0 → exec (.region k o) s = .next s.illegal)

/-- R244 to R247: PUSHM, ELSEM, POPM, KBREAK and REGION. -/
def Obligations.MaskStackAndRegions : Prop := Sys2Proof.Claims.Divergence ∧ Sys2Proof.Claims.RegionOpens

/-- R237, R239: the permutations read every source before they write, process from element 0 and write the elements
listed. -/
def Obligations.Permutations : Prop :=
  ∀ (s : State) (d a b : Fin 32) (x y : Bool) (k : Fin 8),
    let n := (s.h.xb b).toNat
    let va (t : State) (i : Nat) : Nat := t.h.velem a i
    let src (t : State) (j : Nat) : Nat := if j < t.h.vl then t.h.velem a j else 0
    let act (t : State) : List Nat := (List.range t.h.vl).filter (t.h.active k)
    let below (t : State) (i : Nat) : Nat := ((act t).filter (· < i)).length
    let xp (t : State) (v : Word) : Nat := v.toNat % 2 ^ t.h.ewBits
    Runs (.vgather d a b x y k) s (pickUse s true d [a, b] k) (fun t => listed t d ((act t).map fun i =>
      (i, match t.h.index (t.h.velem b i) with | some j => src t j | none => 0)) 0) ∧
    Runs (.vslideup d a b x k) s (pickUse s true d [a] k) (fun t =>
      listed t d (((act t).filter fun i => n ≤ i).map fun i => (i, va t (i - n))) 0) ∧
    Runs (.vslidedn d a b x k) s (pickUse s true d [a] k) (fun t =>
      listed t d ((act t).map fun i => (i, src t (i + n))) 0) ∧
    Runs (.vslide1up d a b x k) s (pickUse s true d [a] k) (fun t =>
      listed t d ((act t).map fun i => (i, if i = 0 then xp t (s.h.xb b) else va t (i - 1))) 0) ∧
    Runs (.vslide1dn d a b x k) s (pickUse s true d [a] k) (fun t =>
      listed t d ((act t).map fun i => (i, if i = t.h.vl - 1 then xp t (s.h.xb b) else va t (i + 1))) 0) ∧
    Runs (.vcompress d a x k) s (pickUse s true d [a] k) (fun t =>
      listed t d ((act t).map fun i => (below t i, va t i)) 0) ∧
    Runs (.vexpand d a x k) s (pickUse s true d [a] k) (fun t =>
      listed t d ((act t).map fun i => (i, va t (below t i))) 0) ∧
    Runs (.viota d k) s (pickUse s (decide (s.h.ew < 4)) d [] k) (fun t =>
      listed t d ((act t).map fun i => (i, below t i % 2 ^ t.h.ewBits)) 0) ∧
    Runs (.vbcast d a b x k) s (pickUse s true d [a] k) (fun t =>
      listed t d ((act t).map fun i => (i, src t n)) 0) ∧
    Runs (.vins d a b k) s (pickUse s true d [] k) (fun t =>
      listed t d (if t.h.active k n then [(n, xp t (s.h.xa a))] else []) 0) ∧
    Runs (.vconflict d a x k) s (pickUse s (decide (s.h.ew < 4)) d [a] k) (fun t =>
      listed t d ((act t).map fun i =>
        (i, min ((act t).filter fun j => decide (j < i) && va t j == va t i).length (2 ^ t.h.ewBits - 1))) 0) ∧
    Runs (.vext d a b x) s { ok := s.h.srcsOk [a.val], srcs := [a.val], reads := [], masks := [], useE := false, whole := true,
                             only := if n < s.h.vl then [(a.val, s.h.eb, n)] else [] }
      (fun t =>
        let v : Word := if t.h.ew < 4 then .ofInt 64 (sg t.h.ewBits (src t n)) else .ofNat 64 (src t n)
        { t with h := t.h.set d v }.vdone)

/-- R241, R242: the reductions fold vb[0] and the active elements of va into vd[0]; with VL = 0 they write nothing. -/
def Sys2Proof.Claims.Reductions : Prop :=
  ∀ (s : State) (d a b : Fin 32) (x y : Bool) (k : Fin 8),
    let act (t : State) : List Nat := (List.range t.h.vl).filter (t.h.active k)
    let terms (t : State) : List Nat := t.h.velem b 0 :: (act t).map (t.h.velem a)
    let one (t : State) (r : FR) : State := if t.h.vl = 0 then t.vdone else listed t d [(0, r.bits)] r.flags
    (∀ p ∈ ([(Instr.vredSum d a b x y k, fun w p q => pat w (p + q)),
             (.vredMin d a b x y k, fun w p q => pat w (min (sg w p) (sg w q))),
             (.vredMax d a b x y k, fun w p q => pat w (max (sg w p) (sg w q))),
             (.vredMinu d a b x y k, fun _ p q => min p q), (.vredMaxu d a b x y k, fun _ p q => max p q),
             (.vredAnd d a b x y k, fun _ p q => p &&& q), (.vredOr d a b x y k, fun _ p q => p ||| q),
             (.vredXor d a b x y k, fun _ p q => p ^^^ q)] : List (Instr × (Nat → Nat → Nat → Nat))),
      Runs p.1 s (redUse s (!decide (4 ≤ s.h.ew)) d a b k) fun t =>
        one t ⟨((act t).map (t.h.velem a)).foldl (p.2 t.h.ewBits) (t.h.velem b 0), 0⟩) ∧
    (∀ p ∈ [(Instr.vredFmin d a b x y k, false), (.vredFmax d a b x y k, true)],
      Runs p.1 s (redUse s (decide (4 ≤ s.h.ew)) d a b k) fun t =>
        let f := t.h.fmt
        let m := ((act t).map (t.h.velem a)).foldl (fun u v => (f.minmax p.2 u v).bits) (t.h.velem b 0)
        one t ⟨if (f.decode m).isNan then f.nan else m,
          if (terms t).any fun v => (f.decode v).isSig then 16 else 0⟩) ∧
    (Runs (.vredFsum d a b x y k) s (redUse s (decide (4 ≤ s.h.ew)) d a b k) fun t =>
      one t (t.h.fsum a b k))

/-- R242: VRED.FSUM adds the active elements in the fixed tree over the smallest power of two that is at least VL, an absent
term leaving the other as it is, and adds vb[0] last; a NaN among the terms makes the result the canonical NaN, and a signalling
one sets NV. -/
def Sys2Proof.Claims.SumTree : Prop :=
  ∀ (h : Hart) (a b : Nat) (k : Fin 8) (n : Nat), h.vl ≤ 2 ^ n → (∀ m, h.vl ≤ 2 ^ m → n ≤ m) →
    let f := h.fmt
    let t (i : Nat) : Option Nat := if h.active k i then some (h.velem a i) else none
    let terms := h.velem b 0 :: ((List.range h.vl).filter (h.active k)).map (h.velem a)
    ((∀ p ∈ terms, (f.decode p).isNan = false) →
      some (h.fsum a b k).bits = addOpt f (some (h.velem b 0)) (sumTree f t n 0)) ∧
    ((∃ p ∈ terms, (f.decode p).isNan = true) → (h.fsum a b k).bits = f.nan) ∧
    ((∃ p ∈ terms, (f.decode p).isSig = true) → (h.fsum a b k).flags.testBit 4 = true)

/-- R243: the scans write to each active element the running sum up to it, modulo 2^w, or added under RNE from the
first, which is delivered as it is. -/
def Sys2Proof.Claims.Scans : Prop :=
  ∀ (s : State) (d a : Fin 32) (x : Bool) (k : Fin 8),
    let act (t : State) : List Nat := (List.range t.h.vl).filter (t.h.active k)
    (Runs (.vscanSum d a x k) s { s.h.use (!decide (4 ≤ s.h.ew)) d [a] k false with whole := true } fun t =>
      listed t d ((act t).map fun i => (i, (((act t).filter (· ≤ i)).map (t.h.velem a)).sum % 2 ^ t.h.ewBits)) 0) ∧
    (Runs (.vscanFsum d a x k) s { s.h.use (decide (4 ≤ s.h.ew)) d [a] k false with whole := true } fun t =>
      let r := scanFrom (fun acc p => match acc with
          | none => fsumNan t.h.fmt [p] ⟨p, 0⟩
          | some q => t.h.fmt.add .rne q p) none ((act t).map fun i => (i, t.h.velem a i))
      listed t d r.1 r.2)

/-- R241 to R243: the reductions and the scans. -/
def Obligations.ReductionsAndScans : Prop := Sys2Proof.Claims.Reductions ∧ Sys2Proof.Claims.SumTree ∧ Sys2Proof.Claims.Scans

/-- R204, R205, R421: under every grant of at most 4,096 bytes that holds an element, an element written is read back, and
the other elements of its group, and every element of another group, keep their values. -/
def Obligations.ElementsAreSeparate : Prop :=
  ∀ (m : Memory) (vrb eb b i v : Nat), eb ∈ [1, 2, 4, 8] → eb ≤ vrb → vrb ≤ 4096 →
    let m' := m.write (elemAddr vrb eb b i) eb v
    m'.read (elemAddr vrb eb b i) eb = v % 256 ^ eb ∧
    (∀ j, j ≠ i → elemAddr vrb eb b j ≠ elemAddr vrb eb b i) ∧
    (∀ c j, elemAddr vrb eb c j ≠ elemAddr vrb eb b i →
      m'.read (elemAddr vrb eb c j) eb = m.read (elemAddr vrb eb c j) eb) ∧
    elemAddr vrb eb b i / 4096 = b + i / (vrb / eb)

/-- R207, R208, R37: the bytes that an element-wise instruction leaves as they were. When its destination and the copy's
are not bound and it runs to its end, every byte of the register file outside the active elements of the destination and
of the copy, all of memory, the scratchpad, the accumulators, the masks and every x register keep their values. -/
def Obligations.ElementWiseFrame : Prop :=
  ∀ (t : State) (d : Fin 32) (k : Fin 8) (f : Nat → Nat × Nat),
    t.h.lim = none → t.h.bound d = none → (t.h.vcpy = 0 ∨ t.h.bound t.h.vcpy = none) →
    let u := elementWise t d k f
    Ended t.h u.h ∧ u.mem = t.mem ∧ u.h.x = t.h.x ∧ u.h.vec.k = t.h.vec.k ∧ u.h.vec.e = t.h.vec.e ∧
    u.others = t.others ∧ u.sched = t.sched ∧
    ∀ a, (∀ i < t.h.vl, t.h.first ≤ i → t.h.active k i = true → ∀ c ∈ (if t.h.vcpy = 0 then [d.val] else [d.val, t.h.vcpy]),
        ¬(elemAddr t.h.vrb t.h.eb c i ≤ a ∧ a < elemAddr t.h.vrb t.h.eb c i + t.h.eb)) →
      u.h.vec.v.get a = t.h.vec.v.get a

namespace Sys2Proof.Claims

open Sys2Proof.Machine

/-- Load mw bytes at address a into element i of the group at d (R250, R251). -/
def loadOne (u : State) (d : Fin 32) (mw : Nat) (p : Policy) (a : Word) (i : Nat) : Res Unit :=
  (u.elemLoad a mw p i).bind fun v r => .ok () { r with h := r.h.putFields d i [v] }

/-- Store the low mw bytes of element i of the group at d to address a (R250, R251). -/
def storeOne (u : State) (d : Fin 32) (mw : Nat) (p : Policy) (a : Word) (i : Nat) : Res Unit :=
  u.elemStore a mw p (u.h.velem d i % 2 ^ (8 * mw)) i

/-- The address of element i of an indexed access: base plus the index element as an unsigned integer; misaligned for an
index that is no integer (R250, R240). -/
def indexed (u : State) (base : Word) (b : Fin 32) (i : Nat) (f : Word → Res Unit) : Res Unit :=
  match u.h.index (u.h.velem b i) with
  | some n => f (base + .ofNat 64 n)
  | none => .stop (.trap (.sync 1 base)) u

/-- What a VST form uses: its data group and its index group (R253). -/
def storeUse (h : Hart) (m : VForm) (d : Fin 32) (k : Fin 8) (w : Nat) : VUse :=
  { ok := h.widthOk w && h.formOk m d && h.srcsOk m.regs && h.srcOk h.ew d h.grp
    srcs := m.regs ++ [d.val]
    reads := ((List.range m.fields).map fun f => (d.val + f * h.grp, h.eb)) ++ m.regs.map fun r => (r, h.eb)
    masks := [k.val]
    act := some k }

/-- The members of VAMO (R258). -/
noncomputable def vamos (d a b : Fin 32) (y : Bool) (k : Fin 8) : List (Instr × AmoOp) :=
  [(.vamoswap d a b y k, .swap), (.vamoadd d a b y k, .add), (.vamoand d a b y k, .and), (.vamoor d a b y k, .or),
   (.vamoxor d a b y k, .xor), (.vamomin d a b y k, .min), (.vamomax d a b y k, .max), (.vamominu d a b y k, .minu),
   (.vamomaxu d a b y k, .maxu), (.vamocas d a b y k, .cas)]

/-- What a VAMO uses: the group at d is read and written, with the comparands of VAMOCAS in the group after it (R258). -/
def vamoUse (h : Hart) (op : AmoOp) (d b : Fin 32) (k : Fin 8) : VUse :=
  let n := if op = .cas then 2 else 1
  let use := h.use (h.ew = 2 ∨ h.ew = 3) d [b.val] k true
  { use with
    ok := use.ok && runOk d h.grp n && h.runFree d (h.grp * n)
    reads := ((List.range n).map fun f => (d.val + f * h.grp, h.eb)) ++ use.reads }

end Sys2Proof.Claims

/-- R250 to R253: the VLD forms load each active element, ascending, from its address: base + i × width, base + i × x b,
base + vb[i], or the fields of record i; a misaligned index or a fault stops at its element. -/
def Sys2Proof.Claims.VectorLoads : Prop :=
  ∀ (s : State) (d a b : Fin 32) (y : Bool) (k : Fin 8) (p : Policy) (w : Fin 4),
    let base := s.h.xa a
    let mw (u : State) : Nat := memBytes u.h.eb w
    let fin (t : State) : State := t.appends d t.h.ew
    (Runs (.vldUnit d a k p w) s (s.h.loadUse .unit d k w) fun t =>
      t.velems s.h k (fun i u => loadOne u d (mw u) p (base + .ofNat 64 (i * mw u)) i) fin) ∧
    (Runs (.vldStrided d a b k p w) s (s.h.loadUse (.stride (s.h.xb b)) d k w) fun t =>
      t.velems s.h k (fun i u => loadOne u d (mw u) p (base + .ofNat 64 i * s.h.xb b) i) fin) ∧
    (Runs (.vldIndexed d a b y k p w) s (s.h.loadUse (.indexed b) d k w) fun t =>
      t.velems s.h k (fun i u => indexed u base b i fun ea => loadOne u d (mw u) p ea i) fin) ∧
    ∀ f : Fin 32, f ≠ 0 →
      let as (u : State) (i : Nat) : List Word :=
        (List.range (f.val + 1)).map fun j => base + .ofNat 64 ((i * (f.val + 1) + j) * mw u)
      f.val < 8 → Runs (.vldSegment d a f k p w) s (s.h.loadUse (.segment (f.val + 1)) d k w) fun t =>
        t.velems s.h k (fun i u => (u.checkAll (mw u) i .read (as u i)).bind fun _ r =>
          (r.loadAll (mw u) i p (as u i)).bind fun vs q => .ok () { q with h := q.h.putFields d i vs }) fin

/-- R250 to R253, R115: the VST forms store the low bytes of each active element, ascending, to its address, and write no
register; of a record nothing is stored before every field of it can be. -/
def Sys2Proof.Claims.VectorStores : Prop :=
  ∀ (s : State) (d a b : Fin 32) (y : Bool) (k : Fin 8) (p : Policy) (w : Fin 4),
    let base := s.h.xa a
    let mw (u : State) : Nat := memBytes u.h.eb w
    (Runs (.vstUnit d a k p w) s (storeUse s.h .unit d k w) fun t =>
      t.velems s.h k (fun i u => storeOne u d (mw u) p (base + .ofNat 64 (i * mw u)) i) id) ∧
    (Runs (.vstStrided d a b k p w) s (storeUse s.h (.stride (s.h.xb b)) d k w) fun t =>
      t.velems s.h k (fun i u => storeOne u d (mw u) p (base + .ofNat 64 i * s.h.xb b) i) id) ∧
    (Runs (.vstIndexed d a b y k p w) s (storeUse s.h (.indexed b) d k w) fun t =>
      t.velems s.h k (fun i u => indexed u base b i fun ea => storeOne u d (mw u) p ea i) id) ∧
    ∀ f : Fin 32, f ≠ 0 → f.val < 8 →
      let as (u : State) (i : Nat) : List Word :=
        (List.range (f.val + 1)).map fun j => base + .ofNat 64 ((i * (f.val + 1) + j) * mw u)
      Runs (.vstSegment d a f k p w) s (storeUse s.h (.segment (f.val + 1)) d k w) fun t =>
        t.velems s.h k (fun i u => ((u.checkAll (mw u) i .write (as u i)).bind fun _ r =>
          r.readyAll (mw u) i p (as u i)).bind fun _ r => r.storeAll (mw u) i p ((as u i).zipIdx.map fun e =>
            (e.1, r.h.velem (d + e.2 * r.h.grp) i % 2 ^ (8 * mw u)))) id

/-- R250 to R253: the VLD and VST forms. -/
def Obligations.VectorLoadsAndStores : Prop := Sys2Proof.Claims.VectorLoads ∧ Sys2Proof.Claims.VectorStores

/-- R254 to R257, R115: VLDFF trims vl at a fault of an element after its first, and a wait leaves none of its elements
written; VLDW and VSTW move register images by lines of
128 bytes, and VLDSLIDE slides vd down and loads the elements that enter, every load before any write. -/
def Obligations.VectorMemoryMore : Prop :=
  ∀ (s : State) (d a b : Fin 32) (k : Fin 8) (p : Policy) (w : Fin 4),
    let base := s.h.xa a
    let mw (u : State) : Nat := memBytes u.h.eb w
    (Runs (.vldff d a k p w) s (s.h.loadUse .unit d k w) fun t =>
      match t.vloop (fun i u => loadOne u d (mw u) p (base + .ofNat 64 (i * mw u)) i) (t.h.elems k) with
      | (none, u) => u.vend fun u => u.appends d u.h.ew
      | (some (j, e), u) =>
        if e.trims ∧ (t.h.elems k).head? ≠ some j then ((u.trimTo j).appends d u.h.ew).vdone
        else if e.isWait then { u with h := { u.h with vec := t.h.vec, badPool := t.h.badPool } }.vstop t.h.first e
        else u.vstop j e) ∧
    (∀ q ∈ [(Instr.vldw d a p, true), (.vstw d a p, false)],
      let line (m : Nat) : List Word := (List.range 16).map fun j => base + .ofNat 64 (128 * m + 8 * j)
      let u : VUse := { ok := runOk d s.h.grp 1, srcs := [], reads := [], masks := [], useE := false }
      Runs q.1 s u fun t =>
          if t.h.vl = 0 then t.vdone
          else if base.toNat % 128 ≠ 0 then t.vstop t.h.first (.trap (.sync 1 base))
          else
            match t.vloop (fun m v => (v.checkAll 8 m (if q.2 then .read else .write) (line m)).bind fun _ v =>
                v.imageLine q.2 d base p m)
                (List.range' t.h.first (t.h.grp * t.h.vrb / 128 - t.h.first)) with
            | (none, v) => v.vdone
            | (some (m, e), v) => v.vstop m e) ∧
    Runs (.vldslide d a b k p w) s { s.h.use (s.h.widthOk w) d [] k true with whole := true } fun t =>
      let n := (s.h.xb b).toNat
      let es := (List.range t.h.vl).filter (t.h.active k)
      match (t.slideCheck base (mw t) n es).bind fun _ t => t.slideAll d base (mw t) n p es with
      | .stop e v => v.vstop 0 e
      | .ok xs v => listed v d xs 0

/-- R258, R32: a VAMO performs a far atomic step, at the home in host memory too, at base + vb[i] with vd[i] for each active
element, ascending, and leaves the old pattern in vd[i]. -/
def Obligations.VectorAtomics : Prop :=
  ∀ (s : State) (d a b : Fin 32) (y : Bool) (k : Fin 8), ∀ p ∈ vamos d a b y k,
    Runs p.1 s (vamoUse s.h p.2 d b k) fun t =>
      t.velems s.h k (fun i u =>
        let ea := s.h.xa a + .ofNat 64 (u.h.velem b i)
        ((u.locate ea u.h.eb true .both false i).bind fun l r =>
          { r with h := r.h.pinOps }.amoLoc l ea u.h.eb true p.2 (u.h.velem d i)
            (if p.2 = AmoOp.cas then u.h.velem (d.val + u.h.grp) i else 0)).bind fun v r =>
            .ok () { r with h := r.h.putElem d u.h.ew u.h.lgrp i v r.h.vcpy }) fun t => t.appends d t.h.ew

/-- R353, R354, R446: YATTACH, once the hart's Yoke operations are done, releases the grant held and takes the largest of
16, 8, 4 and 0 rows that the request and the free rows hold; YDETACH releases it; YWAIT changes nothing; where an operation
is open they wait, and where one has failed they trap, one of the issue queue as the queue's oldest. -/
def Obligations.YokeGrants : Prop :=
  ∀ (s : State) (a : Fin 32),
    (s.h.vectorOk = true →
      (∀ t, s.yokeWait (fun _ => true) = .ok () t →
        exec .ywait s = .next t.vdone ∧ exec .ydetach s = .next t.ungrant.vdone ∧ t.ungrant.h.ygrant = 0 ∧
        let u := t.ungrant
        let y := u.yoke u.h.quad
        let free := 16 - (y.grants.map fun g => g.2.2).sum
        let n := min (u.h.xa a).toNat free
        let g := if u.h.lc.yokeAttr = false ∨ y.broken = true ∨ (∃ g ∈ y.grants, g.2.1 ≠ u.h.ctxid) then 0
          else if 16 ≤ n then 16 else if 8 ≤ n then 8 else if 4 ≤ n then 4 else 0
        ∃ v, exec (.yattach a) s = .next v ∧ field v.h.ygrant 0 5 = g ∧ v.h.pc = (left u.h (u.h.pc + 4)).pc ∧ v.h.x = u.h.x ∧
          v.mem = u.mem) ∧
      ∀ w t, s.yokeWait (fun _ => true) = .stop w t →
        ∀ i ∈ [Instr.ywait, .ydetach, .yattach a], exec i s = .next (t.qstop w)) ∧
    (s.h.vectorOk = false → ∀ i ∈ [Instr.ywait, .ydetach, .yattach a], exec i s = .next s.illegal)

/-- R350, R352, R353, R356 to R361, R364: YZERO, YLDB, YMMA and YROT, legal and with their operands in the scratchpad, hand an
operation over with what it captured, its descriptor among it, and retire; with eight operations open they wait. YLDB, YROT and
YMMA are illegal without rows, as is a reserved bit of a position word, an address word or a descriptor; a descriptor that does
not lie in the scratchpad takes page-permission with its first byte outside, one that is not a multiple of 32 misaligned, rows
outside the scratchpad page-permission, and accumulator rows outside the partition page-permission with the word.
The choice of the model in it: assumption 24. -/
def Sys2Proof.Claims.YokeHandsOver : Prop :=
  ∀ (s : State) (a b : Fin 32), s.h.vectorOk = true →
    let v := s.h.xa a
    let w := s.h.desc a 0 4
    let op (x y : Word) (o : YokeOp) : Prop :=
      o.word = s.h.ir ∧ o.xa = x ∧ o.xb = y ∧ o.prog = 0 ∧ o.src = none ∧
      o.head = s.h.scratch.bytes x.toNat 32 ∧ o.user = (s.h.mode == .u) ∧ o.fail = none
    let mid (t : State) (i : Instr) (x y : Word) : Prop :=
      (s.h.openOps < 8 → ∃ u o, exec i s = .next u ∧ op x y o ∧ u.h.yops = s.h.yops ++ [o] ∧ Ended s.h u.h ∧
        u.h.x = s.h.x ∧ u.h.vec.v = s.h.vec.v ∧ u.mem = t.mem) ∧
      (8 ≤ s.h.openOps → exec i s = .next (s.qstop (.wait .yoke)))
    let perm (u : Word) : State := s.qstop (.trap (.sync 3 u))
    let rows := w / 256 + 1
    let fault (k n r : Nat) : Option TrapInfo :=
      s.h.operandFault (w % 32) (s.h.desc a 4 4) (s.h.desc a 8 4) (s.h.desc a 12 4) (s.h.desc a 16 4) k n r
    let pos := posOk (s.h.xb b)
    let legal (i : Instr) : Prop := s.h.grantRows ≠ 0 ∧ (i = .ymma a b → pos = true)
    (v &&& 0x1FFF1FFF = v → field v 0 13 + field v 16 13 + 1 ≤ s.h.lc.accRows → mid s (.yzero a) v (s.h.xb 0)) ∧
    (v &&& 0x1FFF1FFF = v → s.h.lc.accRows < field v 0 13 + field v 16 13 + 1 →
      exec (.yzero a) s = .next (perm v)) ∧
    (v &&& 0x1FFF1FFF ≠ v → exec (.yzero a) s = .next s.illegal) ∧
    (s.h.grantRows = 0 → ∀ i ∈ [Instr.yldb a b, .yrot, .ymma a b], exec i s = .next s.illegal) ∧
    (pos = false → exec (.ymma a b) s = .next s.illegal) ∧
    (∀ i ∈ [Instr.yldb a b, .ymma a b], legal i →
      (s.h.lc.scratch < v.toNat + 32 →
        exec i s = .next (perm (.ofNat 64 (0x7F0000000000 + max v.toNat s.h.lc.scratch)))) ∧
      (v.toNat + 32 ≤ s.h.lc.scratch → v.toNat % 32 ≠ 0 →
        exec i s = .next (s.qstop (.trap (.sync 1 (.ofNat 64 (0x7F0000000000 + v.toNat))))))) ∧
    (s.h.grantRows ≠ 0 → s.h.descFault a = none → s.h.latchOk a b = false → exec (.yldb a b) s = .next s.illegal) ∧
    (s.h.grantRows ≠ 0 → s.h.descFault a = none → s.h.latchOk a b = true → w.testBit 8 = false →
      ∀ t, fault (s.h.xb b).toNat (w / 2 ^ 24 % 16) 32 = some t → exec (.yldb a b) s = .next (s.qstop (.trap t))) ∧
    (legal (.ymma a b) → s.h.descFault a = none →
      (s.h.aDescOk a = false → exec (.ymma a b) s = .next s.illegal) ∧
      (s.h.aDescOk a = true → s.h.lc.accRows < field (s.h.xb b) 32 13 + rows →
        exec (.ymma a b) s = .next (perm (s.h.xb b))) ∧
      (s.h.aDescOk a = true → field (s.h.xb b) 32 13 + rows ≤ s.h.lc.accRows →
        ∀ t, fault (field (s.h.xb b) 0 16) (field (s.h.xb b) 52 3 + 1) rows = some t →
          exec (.ymma a b) s = .next (s.qstop (.trap t)))) ∧
    (s.h.grantRows ≠ 0 → mid s .yrot (s.h.xa 0) (s.h.xb 0)) ∧
    (s.h.grantRows ≠ 0 → s.h.descFault a = none → s.h.latchOk a b = true →
      (w.testBit 8 = true ∨ fault (s.h.xb b).toNat (w / 2 ^ 24 % 16) 32 = none) → mid s (.yldb a b) v (s.h.xb b)) ∧
    (legal (.ymma a b) → s.h.descFault a = none → s.h.aDescOk a = true →
      field (s.h.xb b) 32 13 + rows ≤ s.h.lc.accRows →
      fault (field (s.h.xb b) 0 16) (field (s.h.xb b) 52 3 + 1) rows = none → mid s (.ymma a b) v (s.h.xb b))

/-- R365, R446: YDRAIN, under a matching type and a legal address word, waits for the open operations on the rows that its
active elements read and drains each of them. -/
def Sys2Proof.Claims.YokeDrains : Prop :=
  ∀ (s : State) (d a : Fin 32) (c : Fin 16),
    let v := s.h.xa a
    let ok := decide (c.val ≤ 9) && (if c.val < 8 then s.h.ew == c.val else s.h.ew == 0) && decide (v &&& 0x9FFF = v)
    Runs (.ydrain d a c) s (s.h.use ok d [] 0 false) fun t =>
      match t.h.elems 0 with
      | [] => t.vend fun t => t.appends d t.h.ew
      | i :: is =>
        match t.yokeWait (fun o => (i :: is).any fun j => t.h.drainWaits (field v 0 13 + j / 32) 1 o) with
        | .stop w u => u.vstop u.h.first w
        | .ok _ u => u.velems u.h 0 (fun i u => u.drainElem d v c i) fun u => u.appends d u.h.ew

/-- R350, R356 to R365: the instructions that hand the Yoke an operation, and YDRAIN. -/
def Obligations.YokeInstructions : Prop := Sys2Proof.Claims.YokeHandsOver ∧ Sys2Proof.Claims.YokeDrains

/-- R372 to R374, R377: SBIND reads the record at x a and opens the binding it asks for, at position 0, after the binding
that the slot held is closed; a record that is misaligned, that R372 forbids or whose register another slot holds traps;
SUNBIND closes a slot's binding, and SAVAIL writes what is left of the stream, 0 with none. SBIND closes first: with a write
binding in the slot and the inbox full, it waits before any other check (R369, R373). While a YLDB takes the slot's next
elements they wait; of SAVAIL R377 says so, of SBIND and SUNBIND it is the model's choice (assumption 39).
The choices of the model in it: assumptions 25, 39 and 46. -/
def Obligations.StreamBindings : Prop :=
  ∀ (s : State) (d a : Fin 32) (n : Fin 8), s.h.vectorOk = true →
    let v := s.h.xa a
    (s.h.feeding n = true → ∀ i ∈ [Instr.sbind d a n, .sunbind n, .savail d n],
      exec i s = .next (s.qstop (.wait .yoke))) ∧
    (s.h.feeding n = false →
    (∀ ws t h, s.h.unbind n ≠ none → v.toNat % 64 = 0 → s.recordWords v 8 = .ok ws t → bindingOk ws = true →
      (∀ b, t.h.bound d = some b → b.slot = n.val) → t.h.unbind n = some h →
      ∃ u b, exec (.sbind d a n) s = .next u ∧ u.h.sleeves = h.sleeves ++ [b] ∧ b.slot = n.val ∧ b.reg = d.val ∧
        b.base = ws.getD 0 0 ∧ b.stride = ws.getD 1 0 ∧ b.count = (ws.getD 2 0).toNat ∧
        b.fmt = (ws.getD 3 0).toNat % 32 ∧ b.write = (ws.getD 3 0).getLsbD 8 ∧ b.pos = 0 ∧ b.pend = [] ∧
        b.closing = false ∧ Ended t.h u.h ∧ u.h.x = t.h.x ∧ u.mem = t.mem) ∧
    (s.h.unbind n ≠ none → v.toNat % 64 ≠ 0 → exec (.sbind d a n) s = .next (s.qstop (.trap (.sync 1 v)))) ∧
    (∀ w t, s.h.unbind n ≠ none → v.toNat % 64 = 0 → s.recordWords v 8 = .stop w t →
      exec (.sbind d a n) s = .next (t.qstop w)) ∧
    (∀ ws t, s.h.unbind n ≠ none → v.toNat % 64 = 0 → s.recordWords v 8 = .ok ws t →
      (bindingOk ws = false ∨ ∃ b, t.h.bound d = some b ∧ b.slot ≠ n.val) →
      exec (.sbind d a n) s = .next (t.qstop (.trap (.sync 4 v)))) ∧
    (∀ h, s.h.unbind n = some h → ∃ u, exec (.sunbind n) s = .next u ∧ u.h.sleeves = h.sleeves ∧
      u.h.inbox = h.inbox ∧ (∀ b ∈ u.h.sleeves, b.slot = n.val → b.closing = true) ∧ Ended s.h u.h ∧ u.h.x = s.h.x) ∧
    (s.h.unbind n = none → ∀ i ∈ [Instr.sbind d a n, .sunbind n], exec i s = .next (s.qstop (.wait .inboxFull))) ∧
    ∃ u, exec (.savail d n) s = .next u ∧ Ended s.h u.h ∧ u.mem = s.mem ∧
      ∀ r, u.x r = if r = 0 then 0 else if r = d then
        (match s.h.slot? n with | some b => .ofNat 64 (b.count - b.pos) | none => 0) else s.x r)

/-- R369, R378, R380, R381: SCOPY, XALL and XRED reserve an inbox entry for their message and start an operation that
captures the descriptor's address, the tag in x d, the mode and sptbase; with the inbox full they do not issue but wait; a
misaligned descriptor traps when they issue. The choice of the model in it: assumption 28. -/
def Obligations.AsynchronousOperations : Prop :=
  ∀ (s : State) (d a : Fin 32), s.h.vectorOk = true →
    let tag : BitVec 32 := (s.x d).truncate 32
    let room := s.h.inbox.posted.length + s.h.inbox.resv.length < 32
    ((s.x a).toNat % 64 = 0 → room → ∃ t c, exec (.scopy d a) s = .next t ∧ t.h.copies = s.h.copies ++ [c] ∧
      c.tag = tag ∧ c.desc = s.x a ∧ c.n = s.h.ncopy ∧ c.pref = 0 ∧ c.user = (s.h.mode == .u) ∧ c.spt = s.h.sptbase ∧
      t.h.inbox = { s.h.inbox with resv := s.h.inbox.resv ++ [(tag, 1)] } ∧ Ended s.h t.h ∧ t.h.x = s.h.x ∧ t.mem = s.mem) ∧
    ((s.x a).toNat % 64 ≠ 0 → room → exec (.scopy d a) s = .next (s.takeTrap (.sync 1 (s.x a)))) ∧
    (¬room → exec (.scopy d a) s = .next { s with h := { s.h with status := .wait .inboxFull } }) ∧
    ∀ p ∈ [(Instr.xall d a, false), (.xred d a, true)],
      ((s.x a).toNat % 32 = 0 → room → ∃ t c, exec p.1 s = .next t ∧ t.h.colls = s.h.colls ++ [c] ∧ c.red = p.2 ∧
        c.tag = tag ∧ c.desc = s.x a ∧ c.acked = [] ∧ c.user = (s.h.mode == .u) ∧ c.spt = s.h.sptbase ∧
        t.h.inbox = { s.h.inbox with resv := s.h.inbox.resv ++ [(tag, if p.2 then 4 else 3)] } ∧ Ended s.h t.h ∧
        t.h.x = s.h.x ∧ t.mem = s.mem) ∧
      ((s.x a).toNat % 32 ≠ 0 → room → exec p.1 s = .next (s.takeTrap (.sync 1 (s.x a)))) ∧
      (¬room → exec p.1 s = .next { s with h := { s.h with status := .wait .inboxFull } })

/-- R288 to R291, R315: SPAN takes the oldest span record not taken, after which the records that waited for the latest one's
entry are placed, and opens a strip of its length; HIZQ compares
depths with the hierarchical depth; BLEND hands the pixels of the latest record to the Hem; a record that is not the latest
breaks the pipeline contract. The choice of the model in it: assumption 31. -/
def Obligations.PixelInstructions : Prop :=
  ∀ (s : State) (d a b : Fin 32) (e : Fin 8) (x : Bool) (k : Fin 8),
    (s.h.vectorOk = true → 64 ≤ s.h.vlmax s.h.ew s.h.grp →
      let t := s.resolveLatest
      let opens (g : Nat) (o : Option Span) : Prop :=
        (∀ r, t.nextStrip g = .ok () r →
          let g := match o with
            | some p =>
              let g := { r.h with spans := r.h.spans.filter fun (q : Span) => !q.solved }.placeSpans
              { g with spans := g.spans.map fun (q : Span) => if q.off = p.off then { q with taken := true } else q }
            | none => r.h
          let addr := match o with | some p => p.addr | none => 0
          exec (.span d) s = .next ({ r with h := g.set d addr }).vdone.boundary) ∧
        ∀ w r, t.nextStrip g = .stop w r → exec (.span d) s = .next (r.stopWith w)
      ((t.h.lc.kind ≠ 2 ∨ t.h.lc.launch = none) → opens 0 none) ∧
      (t.h.lc.kind = 2 → t.h.lc.launch ≠ none → ∀ p, t.h.spans.find? (fun p => !p.taken) = some p → opens p.len (some p)) ∧
      (t.h.lc.kind = 2 → t.h.lc.launch ≠ none → (∀ p ∈ t.h.spans, p.taken = true) →
        (t.drained t.h = true → opens 0 none) ∧
        (t.drained t.h = false → exec (.span d) s = .next { t with h := { t.h with status := .wait .span } }))) ∧
    (¬(s.h.vectorOk = true ∧ 64 ≤ s.h.vlmax s.h.ew s.h.grp) → exec (.span d) s = .next s.illegal) ∧
    (let u : VUse :=
       { ok := s.h.ew == 6 && e != 0 && s.h.srcsOk [a.val], srcs := [a.val], reads := [(a.val, s.h.eb)], masks := [k.val],
         act := some k }
     Runs (.hizq e a b x k) s u fun t =>
      match t.h.elems k with
      | [] => t.vend id
      | j :: _ =>
        if s.h.xb b = 0 then t.vend id
        else match t.h.spanAt (s.h.xb b) with
          | none => (t.giveBack s.h t.h.first).vstop t.h.first (.trap (.sync 6 (s.h.xb b)))
          | some p => match t.readSpan p with
            | .stop w v => (v.giveBack s.h j).vstop j w
            | .ok q v =>
              let h := v.h.writeK e ((v.h.elems k).map fun i => (i, lt32 (v.h.velem a i) (v.hizFor q.span i)))
              { v with h := { h with draws := v.h.draws + 1 } }.vend id) ∧
    (let breaks (t : State) : State :=
       (match t.h.lastSpan with
        | some p => if p.addr = s.h.xb b then t.resetHiz t.h.launchNum p.order else t
        | none => t).vstop 0 (.trap (.sync 6 (s.h.xb b)))
     Runs (.blend d a b x k) s (s.h.blendUse d a k) fun t =>
      if s.h.xb b = 0 then t.vdone
      else match t.h.spanAt (s.h.xb b) with
        | none => breaks t
        | some p => match t.readSpan p with
          | .stop w v => v.vstop 0 w
          | .ok q v =>
            if v.h.lc.early = true ∧ ¬(∀ i < q.span.len, v.h.active k i = true ∧ v.h.velem d i = q.depthAt i) then breaks v
            else
              let u := v.pushAll q.span fun i => if v.h.active k i then
                .full (v.h.fld a 0 i) (v.h.fld a 1 i) (v.h.fld a 2 i) (v.h.fld a 3 i) (v.h.velem d i) else .discard
              (u.pushSpan p fun _ => .discard).vdone)

/-- R285, R292 to R302, R324 to R346: TEX, GBOX, GTRI, GWALK, GHIT and VMARCH read their descriptor, where they have one,
at their first active element, and then treat each active element, ascending, by its own rule; a fault stops at its
element. VRAND writes a draw of the key x b and the counter of each element.
The choices of the model in it: assumptions 30, 32, 33 and 38. -/
def Sys2Proof.Claims.UnitMembers : Prop :=
  ∀ (s : State) (d a b : Fin 32) (x y : Bool) (k : Fin 8),
    let ea := s.h.xb b
    let f32 := s.h.ew == 6
    let run {α : Type} (pre : Nat → State → Res α) (f : α → Nat → State → Res Unit) (t : State) : State :=
      match t.h.elems k with
      | [] => t.vend id
      | i :: _ => match pre i t with
        | .stop w v => v.vstop i w
        | .ok r v => v.velems v.h k (f r) id
    let desc (al n i : Nat) (t : State) : Res Nat :=
      if ea.toNat % al = 0 then t.unitBytes ea n i
      else (t.locate ea al true .read false i).bind fun _ u => .stop (.trap (.sync 1 ea)) u
    Runs (.tex d a b x k) s (s.h.runUse f32 (some ⟨d, 4, false⟩) [⟨a, 4, false⟩] k)
      (run (fun i t => (desc 64 96 i t).bind fun v t => .ok (texOf v) { t with h := { t.h with draws := t.h.draws + 1 } })
        fun w i u => u.texElem d a w i) ∧
    Runs (.gbox d a b x y k) s (s.h.runUse f32 (some ⟨d, 6, true⟩) [⟨a, 8, false⟩, ⟨b, 2, true⟩] k)
      (run (fun _ t => .ok () t) fun _ i u => u.gboxElem d a b i) ∧
    Runs (.gtri d a b x y k) s (s.h.runUse f32 (some ⟨d, 4, false⟩) [⟨a, 8, false⟩, ⟨b, 2, true⟩] k)
      (run (fun _ t => .ok () t) fun _ i u => u.gtriElem d a b i) ∧
    Runs (.vmarch d a b x k) s (s.h.runUse f32 (some ⟨d, 8, true⟩) [⟨a, 10, true⟩] k)
      (run (fun i t => (desc 128 128 i t).bind fun v t => .ok (mediumOf v) t) fun m i u => u.vmarchElem d a m i) ∧
    Runs (.gwalk d a b x k) s (s.h.runUse f32 (some ⟨d, 10, true⟩) [⟨a, 9, false⟩] k)
      (run (fun i t => t.walkDesc ea i) fun w i u => u.gwalkElem d a w i) ∧
    Runs (.ghit d a b x k) s (s.h.runUse f32 (some ⟨d, 3, true⟩) [⟨a, 10, true⟩] k)
      (run (fun i t => (desc 32 32 i t).bind fun v t => .ok (tableOf v) t) fun w i u => u.ghitElem d a k ea w i) ∧
    (let g := s.h.grp
     let n := if s.h.eb = 4 then 2 * g else g
     let ok := [2, 3, 6, 7].contains s.h.ew && (if s.h.eb = 4 then s.h.runLegal g ⟨a, 2, true⟩ else s.h.srcsOk [a.val]) &&
       s.h.destsOk d s.h.ew g && !overlap d g a n
     let u : VUse :=
       { ok := ok, srcs := if s.h.eb = 4 then [] else [a.val], reads := [(a.val, 8)], masks := [k.val], act := some k
         dsts := s.h.dests d }
     Runs (.vrand d a b x k) s u fun t =>
       elementWise t d k fun i => (randAs t.h.ew (randomOut ea (.ofNat 64 (t.h.vec.elem a 8 i))), 0))

/-- R299: what GHIT delivers of an element whose table keeps the rule. A HIT's index is the instance offset + geometry ×
multiplier + ray type, a MISS's the ray type; below count the address is base + stride × index with status NULL-RECORD where
its first 8 bytes are zero and RECORD else; from count on 0 with TABLE-RANGE, where an earlier element of the execution has set
the sticky bit; 0 with NONE for another status, and 0 with DESC-FAULT for a table that breaks the rule. -/
def Sys2Proof.Claims.HitRecords : Prop :=
  ∀ (s : State) (d a : Fin 32) (k : Fin 8) (ea : Word) (t : Table) (i : Nat),
    8 ∣ s.h.vrb → 0 < s.h.vrb → s.h.vrb ≤ 4096 → i < s.h.vrb * s.h.grp / 4 →
    let status (h : Hart) (j : Nat) : Nat := h.fld a 3 j
    let idx (j : Nat) : Nat := if status s.h j = 1 then s.h.fld a 5 j + s.h.fld a 6 j * t.mult + t.ray else t.ray
    let known (j : Nat) : Prop := status s.h j = 0 ∨ status s.h j = 1
    let addr := (t.base + t.stride * idx i) % 2 ^ 64
    let gives (o : Option Table) (p st : Nat) : Prop :=
      ∃ u, s.ghitElem d a k ea o i = .ok () u ∧ u.h.fld64 d 0 i = p ∧ u.h.fld d 2 i = st ∧ u.mem = s.mem
    (∀ v u, known i → idx i < t.count → s.unitBytes (.ofNat 64 addr) 8 i = .ok v u →
      ∃ w, s.ghitElem d a k ea (some t) i = .ok () w ∧ w.h.fld64 d 0 i = addr ∧
        w.h.fld d 2 i = (if v = 0 then 2 else 0) ∧ w.mem = u.mem) ∧
    (∀ w u, known i → idx i < t.count → s.unitBytes (.ofNat 64 addr) 8 i = .stop w u →
      s.ghitElem d a k ea (some t) i = .stop w u) ∧
    (known i → t.count ≤ idx i → (∃ j, s.h.first ≤ j ∧ j < i ∧ s.h.active k j = true ∧ known j ∧ t.count ≤ idx j) →
      gives (some t) 0 1) ∧
    (¬known i → gives (some t) 0 3) ∧ gives none 0 4

/-- R284 to R302, R324 to R346: TEX, GBOX, GTRI, GWALK, GHIT, VMARCH and VRAND, and what GHIT delivers. -/
def Obligations.UnitInstructions : Prop := Sys2Proof.Claims.UnitMembers ∧ Sys2Proof.Claims.HitRecords

namespace Sys2Proof.Claims

open Sys2Proof.Machine

/-- The four bytes of a word, least significant first (R11, R18). -/
def bytesOf (w : Nat) : List Byte := (List.range 4).map fun i => .ofNat 8 (w / 256 ^ i)

/-- The machine's next step is a turn of the hart on turn, which begins in r: the power state is Active, and the agenda
gives the turn, or nothing stands there, no unit has an event to raise and the turn is the hart's. The hart runs, is not
out of issue through YIELD (R82), passes no skipped region, and nothing stops it at this boundary. -/
def Turns (s r : State) : Prop :=
  s.pow.state = .active ∧
  ((s.agenda = [] ∧ s.autoEvent = none ∧ s.pick = some s.h.id ∧ r = s) ∨
   ∃ rest, s.agenda = .hart s.h.id :: rest ∧ r = { s with agenda := rest } ∧ r.outOfIssue r.h = false) ∧
  s.h.status = .run ∧ s.h.irqDue = false ∧ s.h.lc.preempt = false ∧ s.h.halting = false ∧ s.h.cap = none ∧ s.h.unconf = [] ∧
  s.h.skipping = false

/-- The machine's next step fetches the word w with the hart on turn, leaving t: no vector instruction is started or queued,
no region is open, and no other hart holds a unit that the word needs (R267). -/
def Fetches (s : State) (w : IWord) (t : State) : Prop :=
  ∃ r, Turns s r ∧ s.h.window = [] ∧ s.h.viq = [] ∧ s.h.region = [] ∧ r.fetch = .ok w t ∧ t.h.inRegion = none ∧
    t.unitsFree w = true

/-- The state in which a fetched word is carried out: ir holds it. -/
def fetched (t : State) (w : IWord) : State := { t with h := { t.h with ir := w } }

/-- How the machine goes on after the turn of the hart that was g, now in state v. -/
noncomputable def goneOn (g : Hart) (v : State) : State := (v.after g).stepEnd

/-- How the machine goes on after a turn that ended in u, of a hart that stood in s. -/
noncomputable def turned (s u : State) : State := goneOn ((s.hart? u.h.id).getD u.h) u

/-- The fused minimum security version is at least n, and every key slot of r is revoked (R174). -/
def FusesAtLeast (n r : Nat) (s : State) : Prop := n ≤ s.fw.svnMin ∧ s.fw.revoke &&& r = r

end Sys2Proof.Claims

/-- R20 to R31: every well-formed instruction with a word decodes from it, with every operand at every value that its
encoding admits, and from the word's four bytes at the head of any byte stream, the rest of which is left. -/
def Obligations.EncodeThenDecode : Prop :=
  ∀ (i : Instr) (w : Nat), i.wf = true → encode i = some w →
    w < 2 ^ 32 ∧ decode w = .ok i ∧ ∀ rest, decodeBytes (bytesOf w ++ rest) = .ok (i, rest)

/-- R20 to R33: what decodes is well-formed, and its encoding is the word: no two words are one instruction, and no bit of
a word is ignored. -/
def Obligations.DecodeThenEncode : Prop :=
  ∀ (w : Nat) (i : Instr), decode w = .ok i → i.wf = true ∧ encode i = some w ∧ i.WellFormed

/-- R28, R33: the words of the reserved major opcodes, the word 0 among them, the reserved codes of the ALU, LOAD, STORE,
AMO, SYS, MSG, STRM and TRAV classes, and a word with a nonzero reserved field are no instruction. -/
def Sys2Proof.Claims.ReservedWordsRefused : Prop :=
  ∀ w : Nat, w < 2 ^ 32 →
    let op := w / 2 ^ 26
    (op = 0 ∨ (0x1C ≤ op ∧ op ≤ 0x1F) ∨ 0x35 ≤ op → ∀ i, decode w ≠ .ok i) ∧
    (op = 0x01 → 25 ≤ w % 64 ∨ w / 128 % 16 ≠ 0 → ∀ i, decode w ≠ .ok i) ∧
    (op = 0x13 → w / 2048 % 8 = 7 → ∀ i, decode w ≠ .ok i) ∧
    (op = 0x14 → w / 2048 % 2 = 1 → ∀ i, decode w ≠ .ok i) ∧
    (op = 0x15 → 10 ≤ w % 16 ∨ w / 256 % 4 = 3 ∨ w / 1024 % 2 = 1 → ∀ i, decode w ≠ .ok i) ∧
    (op = 0x19 → 8 ≤ w % 2048 → ∀ i, decode w ≠ .ok i) ∧
    (op = 0x1A → 5 ≤ w % 2048 → ∀ i, decode w ≠ .ok i) ∧
    (op = 0x26 → 13 ≤ w % 64 → ∀ i, decode w ≠ .ok i) ∧
    (op = 0x31 → 4 ≤ w % 2048 → ∀ i, decode w ≠ .ok i) ∧
    (op = 0x34 → 6 ≤ w % 64 → ∀ i, decode w ≠ .ok i)

/-- R20, R25, R27, R28: the words that the spec's examples assemble are the instructions they stand for. -/
def Sys2Proof.Claims.WordsDecode : Prop :=
  decode 0x04A63840 = .ok (.add 5 6 7 true) ∧ decode 0x4CC5B010 = .ok (.ld 6 5 .own 16) ∧
  decode 0xB08A5938 = .ok (.vldStrided 4 10 11 2 .thru 0) ∧ decode 0x6E1A4000 = .ok (.pfx true false 3 9) ∧
  decode 0x8C886600 = .ok (.vfadd 4 8 12 true true 0) ∧ decode 0x24A0007F = .ok (.lui 5 0x7F) ∧
  decode 0x20A50018 = .ok (.slli 5 5 false 24) ∧ decode 0x58000019 = .ok (.fence false true .dev .vs) ∧
  decode 0x60A61000 = .ok (.csrw 5 6 0) ∧ decode 0x50E5F018 = .ok (.sd 7 5 .thru 24)

/-- R20, R25, R27, R28, R33: words that the spec spells out, and words that it reserves. -/
def Obligations.SpecWords : Prop := Sys2Proof.Claims.ReservedWordsRefused ∧ Sys2Proof.Claims.WordsDecode

/-- R17, R33 to R38, R75, R275: a step carries out the instruction that the fetched word stands for, then the machine goes
on (`State.after`, `State.stepEnd`); a word that is no instruction, or of a vector class on a Mantle hart, is illegal.
Behind a live prefix the pair must be a legal one; the predicate of a scalar prefix decides whether the instruction
executes. The oldest vector instruction that has started or is queued comes before the next word; a queued one starts once no
other hart holds its units (R267). The agenda comes first: an event that stands there is carried out while the power state
lets it. The choices of the model in it: assumptions 3 and
74. -/
def Obligations.StepRunsDecodedInstruction : Prop :=
  (∀ (s t : State) (w : IWord), Fetches s w t →
    let u := fetched t w
    let vector : Prop := t.h.isMantle = true ∧ 0x20 ≤ w.toNat / 2 ^ 26
    let runs (i : Instr) : Prop :=
      (∀ v, exec i u = .next v → step s = .next (goneOn t.h v)) ∧ ∀ f, exec i u = .fault f → step s = .fault f
    (∀ i, t.h.pfx = none → decode w.toNat = .ok i → ¬vector → runs i) ∧
    (∀ e, (t.h.pfx = none ∨ t.h.trap.pfxTret = false) → decode w.toNat = .error e → step s = .next (turned s u.illegal)) ∧
    (∀ i, (t.h.pfx = none ∨ t.h.trap.pfxTret = false) → decode w.toNat = .ok i → vector → step s = .next (turned s u.illegal)) ∧
    ∀ i p, t.h.pfx = some p → t.h.trap.pfxTret = false → decode w.toNat = .ok i → ¬vector →
      (pfxPairOk p w i = false → step s = .next (turned s u.illegal)) ∧
      (pfxPairOk p w i = true →
        let taken : Prop := p.getLsbD 25 = true ∨
          ((t.x (Fin.ofNat 32 (p.toNat / 2 ^ 19)) ≠ 0) ↔ p.getLsbD 24 = false)
        (taken → runs i) ∧ (¬taken → step s = .next (turned s u.finish)))) ∧
  (∀ (s r : State) (e : ChainEntry) (es : List ChainEntry) (i : Instr), Turns s r → s.h.chase = 0 →
    (s.h.window = e :: es ∨ (s.h.window = [] ∧ s.h.viq = e :: es ∧ r.unitsFree e.word = true)) → decode e.word.toNat = .ok i →
    let g := (if s.h.window = [] then r.h.startHead else r.h).startEntry 0 none
    ∀ v, exec i { r with h := g } = .next v → step s = .next (goneOn g v)) ∧
  (∀ (s r : State) (e : ChainEntry) (es : List ChainEntry), Turns s r → s.h.window = [] → s.h.viq = e :: es →
    r.unitsFree e.word = false → step s = .next (turned s r)) ∧
  (∀ (s : State) (i : Instr) (rest : List Turn), s.agenda = .event i :: rest → s.pow.state = .active →
    ∀ v, exec i { s with agenda := rest } = .next v → step s = .next v.stepEnd)

/-- R172, R121, R122, R134, R73, R170: the machine after reset: the 48 Mantle harts in M mode and no compute hart, memory
zero but for the home-lookup table, whose entries name the reset homes, every word in U at its reset home, every queue
disabled, and the element mask all ones. The choices of the model in it: that the general registers are zero (assumption 1),
that host and peer memory reads as zero as well (2), and that no image stands in the mirrors while the Mantle harts run
(10). -/
def Sys2Proof.Claims.AfterReset : Prop :=
  let s := State.reset
  s.harts.map (fun h => h.id) = (List.range 48).map (fun n => 4096 + n / 6 * 512 + n % 6 * 64) ∧
  (∀ h ∈ s.harts, h.mode = .m ∧ h.status = .run ∧ h.vec.e = BitVec.allOnes 32768 ∧
    h.trap.tcause = 0 ∧ h.instret = 0 ∧ h.region = [] ∧ h.pfx = none ∧ ∀ r : Fin 32, h.x[r] = 0) ∧
  (∀ a, s.mem.get a = if 0x1FFFC000000 ≤ a ∧ a < 0x1FFFE000000 then .ofNat 8 (a % 8) else 0) ∧
  (∀ a, s.seam a = none) ∧ (∀ c a, (s.l1 c a).st = .i) ∧
  (∀ a, placeOf a = .lpddr → s.homeDie a = a / 65536 % 8) ∧
  s.sched.queues = [] ∧ s.sched.launches = [] ∧ s.pow.state = .active ∧ s.mem.wf = true

/-- R174: no step lowers the fused minimum security version or takes a revocation back. -/
def Obligations.FusesOnlyRise : Prop :=
  ∀ (n r : Nat) (s t : State), FusesAtLeast n r s → step s = .next t → FusesAtLeast n r t

/-- R174: the fuses after reset hold at least nothing: the statement above starts there. That they hold zero is the
model's choice (assumption 11). -/
def Sys2Proof.Claims.FusesAtReset : Prop :=
  FusesAtLeast 0 0 State.reset ∧ ∀ n r, FusesAtLeast n r State.reset → n = 0 ∧ r = 0

/-- R172, R174: the machine after reset. -/
def Obligations.ResetState : Prop := Sys2Proof.Claims.AfterReset ∧ Sys2Proof.Claims.FusesAtReset

namespace Sys2Proof.Claims

open Sys2Proof.Machine

/-- The event i changes a machine in which hart id is on turn from t to u with P t u, and the turn then goes back to the
hart that had it; where no such hart is resident it changes nothing. -/
def ForHart (i : Instr) (s : State) (id : Nat) (P : State → State → Prop) : Prop :=
  (s.switchTo id = none → exec i s = .next s) ∧
  ∀ t, s.switchTo id = some t → ∃ u, P t u ∧ exec i s = .next ((u.switchTo s.h.id).getD u)

/-- The hart on turn goes on. -/
def goesOn (t : State) : State := { t with h := { t.h with status := .run } }

/-- Before the window's oldest instruction stops, younger ones have to come up to it: those that go through their element
groups one by one (R275, R276). -/
def MustComeUp (h : Hart) : Prop := ∃ e ∈ h.window.tail, lockstep e.word = true

/-- The hart on turn stops for the debugger (R283): its started vector instructions are recorded as R276 records them, the
queued ones and what is younger are undone, and between the halves of a prefix pair tepc names the successor (R39). -/
def DebugStopped (t u : State) : Prop :=
  u = { t with h := u.h } ∧ u.h.status = .debugHalt false ∧ u.h.window = t.h.window ∧ u.h.viq = [] ∧
  u.h.strip.flags = t.h.strip.flags ||| 2 ∧
  (∀ e rest, t.h.window = e :: rest → u.h.trap.tepc = e.pc ∧ u.h.trap.tchain = tchainOf t.h.window ∧
    u.h.vec.vstart = .ofNat 64 e.start) ∧
  (t.h.unconf = [] → t.h.viq = [] → u.h.pc = t.h.pc ∧ u.h.x = t.h.x ∧ u.h.vec.v = t.h.vec.v ∧
    (t.h.window = [] → u.h.trap.tepc = if t.h.trap.pfxLive then t.h.pc else t.h.trap.tepc))

end Sys2Proof.Claims

/-- R80, R112, R127, R149, R168, R267, R275, R276, R282, R283, R310, R407, R409, R432, R433: the events of a hart. A wait
ends when what it waits for has come, and not before; WFI retires when it wakes; the oldest pending interrupt is taken in
U mode and in S mode with IE = 1, once the younger instructions of the window have come up, but not inside a skipped region
and not before a trap that the oldest one has met; a queued vector instruction enters the window, which holds at most three,
once the units it needs are free (R267); an element group of a started one is carried out only where every older one
has completed it; a debug halt stops the hart at a strip boundary, or at its timeout; a watchdog ends the launch while the
queues run. The choices of the model in it: assumptions 14, 73, 77 (a halt asked for
while a trap is handled waits for its TRET, nested traps counted) and, that an interrupt at a word which would trap falls due
before it, 79. -/
def Obligations.HartEvents : Prop :=
  ∀ (s : State) (id : Nat),
    ForHart (.loadDataReturn id) s id (fun t u =>
      (∀ a, t.h.status = .wait (.word a) → u = if t.wordBusy a then t else goesOn t) ∧
      ((∀ a, t.h.status ≠ .wait (.word a)) → u = t)) ∧
    ForHart (.watermarkStallEnd id) s id (fun t u =>
      (∀ n last w, t.h.status = .wait (.watermark n last) → t.wm? n = some w →
        u = if last < w.base + w.value ∨ w.limit ≤ last then goesOn t else t) ∧
      ((∀ n last, t.h.status ≠ .wait (.watermark n last)) → u = t)) ∧
    ForHart (.pteMovingReread id) s id (fun t u =>
      (∀ va, t.h.status = .wait (.moving va) → u = goesOn t) ∧ ((∀ va, t.h.status ≠ .wait (.moving va)) → u = t)) ∧
    ForHart (.wfiWake id) s id (fun t u =>
      (t.h.status = .wait .wfi →
        u = if t.h.inbox.posted ≠ [] ∨ t.h.irqs ≠ [] ∨ t.h.lc.haltReq = true ∨ t.h.lc.preempt = true then t.finish else t) ∧
      (t.h.status ≠ .wait .wfi → u = t)) ∧
    ForHart (.interrupt id) s id (fun t u =>
      (∀ code tval rest, t.h.irqs = (code, tval) :: rest →
        t.h.mode = .u ∨ (t.h.mode = .s ∧ flag t.h.trap.tstatus 3 = true) → t.h.cap = none → t.h.skipping = false →
        t.h.trapMet = false →
        (t.h.status = .run ∨ ∃ w, t.h.status = .wait w ∧ w ≠ .handback ∧ w ≠ .meshlet) →
        let v := if t.h.status = .wait .wfi then t.finish else t
        (¬MustComeUp t.h → u = ({ v with h := { v.h.settle with irqs := rest, status := .run, chase := 0 } }).takeTrap
          { intr := true, code := code, orig := 0, viol := false, tval := tval }) ∧
        (MustComeUp t.h → t.h.chase = 0 → u = { t with h := { t.h with status := .run, chase := 1, met := false } })) ∧
      (t.h.irqs = [] ∨ (t.h.mode = .s ∧ flag t.h.trap.tstatus 3 = false) ∨ t.h.mode = .m ∨ t.h.skipping = true ∨
        t.h.trapMet = true → u = t)) ∧
    ForHart (.vectorStart id) s id (fun t u =>
      (∀ e rest, t.h.viq = e :: rest → t.h.cap = none → t.h.chase = 0 →
        u = (if shares e.word ∧ t.startOk e then
          { t with h := { t.h with
            viq := rest, window := t.h.window ++ [{ e with vcfg := t.h.vec.vcfg, vl := t.h.vec.vl }] } } else t) ∧
        (t.h.window = [] → t.startOk e = t.unitsFree e.word) ∧ (3 ≤ t.h.window.length → t.startOk e = false)) ∧
      (t.h.viq = [] → u = t)) ∧
    ForHart (.elementGroupComplete id) s id (fun t u =>
      t.h.cap = none → t.h.chase = 0 →
        (∀ k n, t.nextGroup = some (k, n) →
          (∀ j e, j < k → t.h.window[j]? = some e → n ≤ e.start) ∧ (∃ e, t.h.window[k]? = some e ∧ e.start < n) ∧
          u = { t with h := t.h.startEntry k (some n), agenda := .hart id :: t.agenda }) ∧
        (t.nextGroup = none → u = t)) ∧
    (∀ c : Nat, ForHart (.sashNotify id c) s id (fun t u =>
      (∀ v, t.h.status = .wait (.sash c) → t.h.unconf = [] →
        t.sashStore (apertureBase + 4096 * c + 0x40) 0 = .ok () v → u = v.finish) ∧
      (∀ v, t.h.status = .wait (.sash c) → t.h.unconf ≠ [] → t.flushHeld 1 = .ok () v → u = goesOn v) ∧
      (t.h.status ≠ .wait (.sash c) → u = t))) ∧
    (∀ va : Word, ForHart (.pageWalk id va) s id (fun t u =>
      u = if t.h.mode = .m ∨ 2 ^ 48 ≤ va.toNat then t else (t.tlbFor t.h.who va.toNat).2)) ∧
    ForHart (.debugStripStop id) s id (fun t u =>
      (t.h.lc.haltReq = true → t.h.trap.haltHold = 0 → t.h.status = .run → t.h.window = [] → t.h.viq = [] →
        t.h.unconf = [] → t.h.instret = t.h.strip.ret → t.h.pc = t.h.strip.pc + 4 →
        u = { t with h := { t.h with status := .debugHalt false } }) ∧
      (t.h.lc.haltReq = false ∨ t.h.trap.haltHold ≠ 0 → u = t)) ∧
    ForHart (.debugHaltTimeout id) s id (fun t u =>
      (t.h.lc.haltReq = true → t.h.status = .run → t.h.skipping = false → t.h.trapMet = false →
        (¬MustComeUp t.h → DebugStopped t u) ∧
        (MustComeUp t.h → t.h.chase = 0 → u.h.status = .run ∧ u.h.chase = 1 ∧ u.h.halting = true ∧
          u.h.window = t.h.window ∧ u.h.viq = t.h.viq ∧ u.h.pc = t.h.pc ∧ u.h.x = t.h.x)) ∧
      (t.h.lc.haltReq = false → u = t)) ∧
    ForHart (.traceSampleTick id) s id (fun t u =>
      (∀ l, t.myLaunch = some l →
        u = if l.sample = 0 then t else match t.traceStrip 8 with | .ok _ v => v | .stop _ _ => t) ∧ (t.myLaunch = none → u = t)) ∧
    (∀ g l, s.hart? id = some g → g.lc.launch = some l → g.status = .run →
      exec (.watchdogExpire id) s = .next (if g.lc.wdog = 0 ∨ s.queuesRun = false then s else s.endLaunch l 7))

/-- R169, R436, R405: the host services faults. The oldest record goes into the ring while that has room and its entry is
not busy, and the tail counts it. The host's answer replays the access, gives the trap to the supervisor or ends the
launch; without one in time the hart takes fault-service-timeout, but not while a heartbeat window is open. A token that
no hart waits under has no effect. An answer that ends a launch waits while the Mantles run no queue (R149). The choices of
the model in it: assumption 14, and 76 for the busy entry. -/
def Obligations.HostFaultService : Prop :=
  ∀ s : State,
    let room := s.host.fqtail - s.host.fqhead.toNat < 2 ^ (min (field s.host.fqsize 0 4) 12 + 7)
    let entry := hostPa (s.host.fqbase.toNat + 32 * (s.host.fqtail % 2 ^ (min (field s.host.fqsize 0 4) 12 + 7)))
    (∀ r rest, s.host.recs = r :: rest →
      (room → s.rangeBusy entry 32 = none → ∃ t, exec .faultRecordWrite s = .next t ∧ t.host.recs = rest ∧
        t.host.fqtail = s.host.fqtail + 1 ∧ t.h = s.h ∧ t.others = s.others ∧ t.mem = (s.hostWrites entry r.words).mem) ∧
      (¬room ∨ s.rangeBusy entry 32 ≠ none → exec .faultRecordWrite s = .next s)) ∧
    (s.host.recs = [] → exec .faultRecordWrite s = .next s) ∧
    (∀ token, s.waiter token = none →
      exec (.frespReplay token) s = .next s ∧ exec (.frespToSupervisor token) s = .next s ∧
      exec (.frespEndLaunch token) s = .next s ∧ exec (.faultServiceTimeout token) s = .next s) ∧
    ∀ token id i, s.waiter token = some (id, i) →
      let t := { s with host := { s.host with timers := s.host.timers.filter (· != token) } }
      exec (.frespReplay token) s = .next (t.onHart id goesOn) ∧
      let held (a : Nat) : State := { t with host := { t.host with resps := t.host.resps ++ [(token, a)] } }
      (s.queuesRun = true →
        exec (.frespToSupervisor token) s = .next (t.onHart id fun u => u.deliver i) ∧
        exec (.frespEndLaunch token) s = .next (t.onHart id fun u => match u.h.lc.launch with
          | some l => u.endLaunch l 8
          | none => u)) ∧
      (s.queuesRun = false → ∀ g, s.hart? id = some g →
        exec (.frespEndLaunch token) s = .next (held 2) ∧
        (g.lc.launch ≠ none → g.trap.fresh = some i.key → exec (.frespToSupervisor token) s = .next (held 1)) ∧
        (g.trap.fresh ≠ some i.key → exec (.frespToSupervisor token) s = .next (t.onHart id fun u => u.deliver i))) ∧
      (s.fw.arm = true → exec (.faultServiceTimeout token) s = .next s) ∧
      (s.fw.arm = false → s.queuesRun = true → token ∈ s.host.timers →
        let x : TrapInfo := { intr := false, code := 8, orig := i.code, viol := false, tval := i.tval }
        exec (.faultServiceTimeout token) s = .next (t.onHart id fun u =>
          if u.h.claim x = 1 then (match u.h.lc.launch with | some l => u.endLaunch l 8 | none => u) else u.takeTrap x))

/-- R87, R107, R124, R125, R127, R128, R134: the requests of the L1s. A request goes to the home of its word after the
drain of R124, once its line has room in the L1; there it waits while the granule moves or the word is busy. At a word in
U, with nothing in the way, the home answers it: a fill leaves U, a tracked load T with the requester, an ownership
request O, and a store merges its bytes and leaves the word U, or T with the requester when it is tracked; no other byte
of memory changes. The choices of the model in it: assumption 14, and 80, that a far operation takes its core's own V copy
away. -/
def Obligations.HomeRequests : Prop :=
  ∀ (s : State) (core addr : Nat) (m : BitVec 8) (v : Word),
    let a := s.evWord addr
    let st := (s.l1 core a).st
    let t := s.touchLine core a false
    let write (k : ReqKind) (c : Option Nat) : Req := { Req.of k c a with mask := m, data := v }
    (homed a = true →
      (s.installWait core a = none →
        (st = .i → exec (.homeSelfFill core addr) s = .next (t.arrive (Req.of .selfFill (some core) a))) ∧
        (st = .i ∨ st = .v → exec (.homeTrkLoad core addr) s = .next ((t.drainWord core a).arrive (Req.of .trkLoad (some core) a))) ∧
        (st ≠ .w → exec (.homeOwnership core addr) s = .next ((t.drainWord core a).arrive (Req.of .ownership (some core) a))) ∧
        (st ≠ .w → exec (.homeTrkStore core addr m v) s = .next ((t.drainWord core a).arrive (write .trkStore (some core))))) ∧
      (∀ x, s.installWait core a = some x → ∀ i ∈ [Instr.homeSelfFill core addr, .homeTrkLoad core addr,
        .homeOwnership core addr, .homeTrkStore core addr m v], exec i s = .next s) ∧
      exec (.homeThruLoad (some core) addr) s =
        .next (((s.drainWord core a).unown core a).arrive (Req.of .thruLoad (some core) a)) ∧
      exec (.homeThruLoad none addr) s = .next (s.arrive (Req.of .thruLoad none a)) ∧
      exec (.homeThruStore (some core) addr m v) s =
        .next (((s.drainWord core a).unown core a).arrive (write .thruStore (some core))) ∧
      exec (.homeThruStore none addr m v) s = .next (s.arrive (write .thruStore none)) ∧
      ((s.l1 core a).dirty ≠ 0 → (s.l1 core a).bad = false → ∃ u, exec (.homeDrain core addr) s = .next (u.arrive
        { Req.of .drain (some core) a with mask := (s.l1 core a).dirty, data := (s.l1 core a).dval }) ∧
          u = s.setL1 core a (u.l1 core a) ∧ (u.l1 core a).dirty = 0 ∧ (u.l1 core a).st = st) ∧
      ((s.l1 core a).dirty = 0 → exec (.homeDrain core addr) s = .next s)) ∧
    (∀ (op : Fin 10) (w : Bool) (b c : Word),
      let pa := s.normPa addr
      homed pa = true → pa % (if w then 8 else 4) = 0 → ∃ r, r.kind = .far ∧ r.core = some core ∧ r.addr = pa / 8 * 8 ∧
        r.size = (if w then 8 else 4) ∧ r.off = pa % 8 ∧ r.b = b ∧ r.cmp = c ∧
        exec (.homeFarOperation core addr op w b c) s =
          .next (((s.drainWord core (pa / 8 * 8)).dropSelf core (pa / 8 * 8)).arrive r)) ∧
    (st = .w → exec (.homeWritebackCwb core addr) s = .next (s.serve (Req.of .cwb (some core) a)).s ∧
      exec (.homeWritebackEvict core addr) s =
        .next ((s.serve (Req.of .wbEvict (some core) a)).s.setL1 core a L1Word.none)) ∧
    (st = .k → coreDie core = s.homeDie a → exec (.homeEvictNotice core addr) s =
      .next (((s.drainWord core a).setL1 core a L1Word.none).arrive (Req.of .evictNotice (some core) a))) ∧
    (∀ r : Req, (s.moving r.addr = true → (s.arrive r).mem = s.mem ∧ (s.arrive r).coh.seam = s.coh.seam) ∧
      (s.moving r.addr = false → s.wordBusy r.addr = true →
        s.arrive r = { s with coh := { s.coh with reqs := s.coh.reqs ++ [r] } })) ∧
    (s.seam a = none → s.isBad a = false →
      let d := s.homeDie a
      let only : Option Seam := some (if coreDie core = d then .t [core] [] else .t [] [coreDie core])
      let row (k : ReqKind) (x : Option Seam) : Prop :=
        let r := s.serveRead (Req.of k (some core) a)
        r.data = s.memWord a ∧ r.bad = false ∧ r.s.seam a = x ∧ r.s.mem = s.mem ∧ (∀ b, b ≠ a → r.s.seam b = s.seam b)
      row .selfFill none ∧ row .thruLoad none ∧ row .trkLoad only ∧ row .ownership (some (.o core)) ∧
      ∀ k ∈ [ReqKind.trkStore, .thruStore, .drain],
        let r := s.serveWrite (write k (some core))
        (∀ i < 8, r.s.mem.get (a + i) = if m.getLsbD i then (v >>> (8 * i)).truncate 8 else s.mem.get (a + i)) ∧
        (∀ b, ¬(a ≤ b ∧ b < a + 8) → r.s.mem.get b = s.mem.get b) ∧
        r.s.seam a = if k = .trkStore then only else none)

/-- R100, R125, R127, R133, R134, R137: the messages of the homes. An invalidation, an update, a recall and a fetch do to
the L1 what R125 says; an acknowledgement takes its core off the transaction, and the last one completes it; an answer
reaches its core; a dirty byte may drain unasked; a migration updates the master entry and every die's, then moves the
granule and serves what waited; an epoch clears the counts, and the device timebase has gone on (R182). The choice of the
model in it: assumption 14; that the dies are nine, 55, and the timebase step of an epoch, 78. -/
def Obligations.HomeMessages : Prop :=
  ∀ (s : State) (core addr gran die : Nat),
    let a := s.evWord addr
    let w := s.l1 core a
    (∀ m, s.l1Msg core a = some m →
      let t := { s with coh := { s.coh with msgs := s.coh.msgs.erase m } }
      (m.kind = .inv → exec (.l1Invalidation core addr) s = .next (t.setL1 core a w.inv) ∧
        (w.st = .k → w.inv.st = .i) ∧ (w.st = .v → w.inv.st = .v)) ∧
      (∀ v, m.kind = .upd v → exec (.l1Update core addr) s = .next (t.setL1 core a (w.upd v)) ∧
        (w.st = .k → (w.upd v).data = v ∧ (w.upd v).st = .k) ∧ (w.st ≠ .k → w.upd v = w)) ∧
      (m.kind = .recall → exec (.l1Recall core addr) s = .next (if w.st = .w then t.recall a else t)) ∧
      (m.kind = .fetch → ∀ x, s.coh.txns.find? (fun t => t.req.addr == a) = some x →
        ∃ u, exec (.l1Fetch core addr) s = .next u ∧ u.mem = (t.serve x.req).s.mem ∧ u.coh.l1 = (t.serve x.req).s.coh.l1 ∧
          u.coh.txns = (t.serve x.req).s.coh.txns.map fun y =>
            if y = x then { y with req := { y.req with data := (t.serve x.req).data } } else y)) ∧
    (s.l1Msg core a = none → ∀ i ∈ [Instr.l1Invalidation core addr, .l1Update core addr, .l1Recall core addr, .l1Fetch core addr],
      exec i s = .next s) ∧
    (∀ x, s.coh.txns.find? (fun t => t.req.addr == a) = some x → core ∈ x.left →
      let mine (k : Nat) : Bool := if coreDie core = s.homeDie a then k == core else coreDie k == coreDie core
      let x' := { x with left := x.left.filter fun k => !mine k }
      let t := { s with coh := { s.coh with txns := s.coh.txns.map fun y => if y = x then x' else y } }
      ((∀ m ∈ s.coh.msgs, ¬(m.addr = a ∧ mine m.core = true)) →
        exec (.homeAcknowledgement core addr) s = .next (if x'.left = [] then t.completeTxn x' else t)) ∧
      ((∃ m ∈ s.coh.msgs, m.addr = a ∧ mine m.core = true) → exec (.homeAcknowledgement core addr) s = .next s)) ∧
    (∀ r, s.coh.reps.find? (fun r => r.req.core == some core && r.req.addr == a) = some r →
      exec (.coreAckReceive core addr) s = .next ((s.accept r).serveWaiting a)) ∧
    (s.wordBusy a = false → exec (.selfDrainTimeout core addr) s = .next (s.drainWord core a)) ∧
    (∀ e, s.coh.home? gran = some e → e.moving = true →
      (die < 9 → die ∉ e.acks → (∀ t ∈ s.coh.txns, t.req.addr / 65536 ≠ gran) →
        ∃ t, exec (.migrationEntryUpdate gran die) s = .next t ∧
        t = { s with mem := s.mem.set (0x1FFFC000000 + gran) (.ofNat 8 (e.dest + 128)),
                     coh := { s.coh with homes := t.coh.homes, lookup := t.coh.lookup } } ∧
        (∀ k ∈ t.coh.lookup, k.die = die → k.gran = gran → k.home = e.dest) ∧
        ∃ f, t.coh.home? gran = some f ∧ f.die = e.die ∧ f.moving = true ∧ f.held = e.held ∧
          ∀ d, d ∈ f.acks ↔ d ∈ e.acks ∨ d = die) ∧
      ((∀ d < 9, d ∈ e.acks) → ∃ t, exec (.migrationForwardComplete gran) s = .next (e.held.foldl State.arrive t) ∧
        t.mem = s.mem.set (0x1FFFC000000 + gran) (.ofNat 8 e.dest) ∧ ∃ f, t.coh.home? gran = some f ∧ f.die = e.dest ∧ f.moving = false ∧ f.held = []) ∧
      ((∃ d < 9, d ∉ e.acks) → exec (.migrationForwardComplete gran) s = .next s)) ∧
    (∃ t, exec .epochRollover s = .next t ∧ t.pow.timebase = s.pow.timebase + 2250000 ∧ t.coh.wcount = [] ∧ t.coh.pcount = [] ∧ t.mem = s.mem ∧ t.coh.l1 = s.coh.l1 ∧
      t.coh.seam = s.coh.seam ∧ ∀ p, (t.coh.home? p).map (fun e => e.die) = (s.coh.home? p).map fun e => e.die)

namespace Sys2Proof.Claims

open Sys2Proof.Machine

/-- The Mantle hart of cluster number n (R74, R176). -/
def mantleOf (n : Nat) : Nat := 4096 + n / 6 * 512 + n % 6 * 64

/-- A Mantle hart after the reset into a slot whose image starts at pc (R148): x registers zero, M mode, no prefix, an
empty inbox and a heartbeat of 0. -/
def MantleRestarted (h g : Hart) (pc : Word) : Prop :=
  g.id = h.id ∧ (∀ r : Fin 32, g.x[r] = 0) ∧ g.mode = .m ∧ g.pc = pc ∧ g.inbox = ⟨[], []⟩ ∧ g.status = .run ∧
  g.trap.pfxLive = false ∧ g.mant.mhbeat = 0 ∧ g.mant.beaten = false ∧ g.trap.tvec = h.trap.tvec ∧
  g.trap.tscratch = h.trap.tscratch

/-- Every Mantle hart of s restarts in t at slot n's entry, and every other hart keeps its state (R148). -/
def Restarted (s t : State) (n : Nat) : Prop :=
  let pc : Word := .ofNat 64 (mirrorBase n + s.mem.read (mirrorBase n + 0x18) 8)
  t.others.length = s.others.length ∧ ∀ p ∈ s.harts.zip t.harts,
    (p.1.isMantle = true → MantleRestarted p.1 p.2 pc) ∧ (p.1.isMantle = false → p.2 = p.1)

/-- The queue q takes a packet of kind n now: it is enabled, runs and has one announced; the packet's words are ws, its
header is legal, and a packet with the ordered bit has nothing before it (R154, R155). t is the state after the read with
the packet counted and its tag noted. -/
def Takes (s : State) (q n : Nat) (k : Queue) (ws : List Word) (t : State) : Prop :=
  s.queue? q = some k ∧ s.mayTake k = true ∧
  (∃ u, s.fetchWords k.who (k.ring.toNat + 64 * (k.head % k.size)) 8 = (.ok ws, u) ∧
    t = u.setQueue { k with head := (k.head + 1) % 2 ^ 32, etag := (ws.getD 0 0).extractLsb' 32 32 }) ∧
  headerOk (ws.getD 0 0) = true ∧ field (ws.getD 0 0) 0 8 = n ∧
  (flag (ws.getD 0 0) 8 = true → k.waits = [] ∧ ∀ l ∈ s.sched.launches, l.q ≠ k.num)

/-- A DEBUG packet of operation n for context c with the words a and b at 16 and 24, from a queue of the context's own
space (R158, R282). -/
def TakesDebug (s : State) (q n c : Nat) (a b : Word) (k : Queue) (t : State) : Prop :=
  ∃ ws, Takes s q 5 k ws t ∧ field (ws.getD 1 0) 0 32 = c ∧ (ws.getD 1 0).toNat < 2 ^ 40 ∧ field (ws.getD 1 0) 32 32 = n ∧
    ws.getD 2 0 = a ∧ ws.getD 3 0 = b ∧ (∀ w ∈ ws.drop 4, w = 0) ∧ debugArgsOk n a b = true ∧
    ∃ l ∈ t.sched.launches, l.ctxid = c ∧ l.space.toNat / 2 ^ 48 = k.space.toNat / 2 ^ 48

/-- t with f applied to every compute hart of context c, on its slot or in a record. -/
def onContext (t : State) (c : Nat) (f : Hart → Hart) : State :=
  let g (h : Hart) : Hart := if h.ctxid = c ∧ h.isMantle = false then f h else h
  { t with h := g t.h, others := t.others.map g, sched := { t.sched with saved := t.sched.saved.map g } }

/-- t with f applied to every launch of context c. -/
def onLaunches (t : State) (c : Nat) (f : Launch → Launch) : State :=
  { t with sched := { t.sched with launches := t.sched.launches.map fun l => if l.ctxid = c then f l else l } }

end Sys2Proof.Claims

/-- R142 to R149, R171: the firmware block and the heartbeats. A command is accepted in the states that R145 names and
otherwise sets oo; INSTALL ends in VERIFIED, BAD-SIGNATURE or BAD-IMAGE; MEASURE extends measurement 2 and its log; SWITCH
restarts the Mantles in the other slot and opens a heartbeat window; a window that expires from ARMED rolls back, and a
second one ends every Mantle. The choices of the model in it: assumptions 11, 14 and, that an install waits at a busy word, 76. -/
def Obligations.FirmwareBlock : Prop :=
  ∀ (s : State) (n : Nat) (v : Word),
    let oo : State := { s with fw := { s.fw with oo := true } }
    let rest : Prop := s.fw.state ∈ [0, 2, 3, 5, 0x81, 0x82] ∨ (s.fw.state = 6 ∧ s.fw.arm = false)
    let sw : Prop := s.fw.busy = false ∧ s.fw.state = 3 ∧ s.quiesced = true
    (n < 48 → ForHart (.mhbeatWrite n v) s (mantleOf n) fun t u =>
      u = t.writeBeat v ∧ u.h.mant.mhbeat = v ∧ u.h.mant.beaten = (t.h.mant.beaten || v != 0) ∧ u.h.x = t.h.x) ∧
    (n < 48 → n ∉ s.pow.silent → exec (.mantleSilentReport n) s = .next { s with
      pow := { s.pow with silent := s.pow.silent ++ [n] }, host := { s.host with mail := s.host.mail ++ [171] } }) ∧
    (n ∈ s.pow.silent → exec (.mantleSilentReport n) s = .next s) ∧
    exec .fwquiQuiesce s = .next { s with fw := { s.fw with req := true } } ∧
    (∃ t, exec .fwquiResume s = .next t ∧ t.fw = { s.fw with req := false } ∧ t.mem = s.mem ∧
      ∀ h ∈ t.harts, h.mant.stopped = false) ∧
    (s.fw.req = true → n < 48 → ∃ t, exec (.mantlePacketBoundaryStop n) s = .next t ∧
      t = { s with h := t.h, others := t.others } ∧
      t.harts = s.harts.map fun h => if h.id = mantleOf n then { h with mant := { h.mant with stopped := true } } else h) ∧
    (s.fw.busy = false → rest → exec .fwcmdInstall s = .next { s with fw := { s.fw with busy := true, cmd := 1 } }) ∧
    (s.fw.busy = true ∨ ¬rest → exec .fwcmdInstall s = .next oo) ∧
    (s.fw.busy = false → s.fw.state = 2 → exec .fwcmdMeasure s = .next { s with fw := { s.fw with busy := true, cmd := 2 } }) ∧
    (s.fw.busy = true ∨ s.fw.state ≠ 2 → exec .fwcmdMeasure s = .next oo) ∧
    (sw → ∃ t, exec .fwcmdSwitch s = .next t ∧
      t.fw = { s.fw with slot := 1 - s.fw.slot, ver := false, rb := false, arm := true, state := 4 } ∧
      Restarted s t (1 - s.fw.slot) ∧ t.mem = s.mem) ∧
    (¬sw → exec .fwcmdSwitch s = .next oo) ∧
    (v.toNat ∉ [1, 2, 3] → exec (.fwcmdIgnored v) s = .next oo) ∧
    exec .fwstatOoClear s = .next { s with fw := { s.fw with oo := false } } ∧
    (s.fw.busy = true → s.fw.cmd = 1 → s.installBusy = true → exec .installComplete s = .next s) ∧
    (s.fw.busy = true → s.fw.cmd = 1 → s.installBusy = false → ∃ t, exec .installComplete s = .next t ∧ t.fw.busy = false ∧
      t.fw.state ∈ [2, 0x81, 0x82] ∧ (t.fw.ver = true ↔ t.fw.state = 2) ∧ t.fw.slot = s.fw.slot ∧ t.fw.meas = s.fw.meas) ∧
    (s.fw.busy = true → s.fw.cmd = 2 → ∃ t, exec .measureComplete s = .next t ∧ t.fw.busy = false ∧ t.fw.state = 3 ∧
      t.mem = s.mem ∧ t.h = s.h ∧ (s.fw.logStop = false → s.fw.log.length < 4096 → ∃ e : LogEnt, t.fw.log = s.fw.log ++ [e] ∧
        e.index = s.fw.log.length ∧ e.event = 1 ∧ e.slot = 1 - s.fw.slot ∧ e.reg = 2 ∧
        e.digest = sha384 (s.fw.image (1 - s.fw.slot)) ∧
        t.fw.meas = s.fw.meas.set 2 (sha384 (digestBytes (s.fw.meas.getD 2 0) ++ digestBytes e.digest)))) ∧
    (s.fw.arm = false → exec .heartbeatWindowExpire s = .next s) ∧
    (s.fw.arm = true → s.fw.state = 4 → ∃ t, exec .heartbeatWindowExpire s = .next t ∧ t.fw.state = 6 ∧ t.fw.rb = true ∧
      t.fw.arm = true ∧ t.fw.slot = 1 - s.fw.slot ∧ Restarted s t (1 - s.fw.slot)) ∧
    (s.fw.arm = true → s.fw.state ≠ 4 → ∃ t, exec .heartbeatWindowExpire s = .next t ∧ t.fw.state = 0x85 ∧ t.fw.arm = false ∧
      t.host.mail = s.host.mail ++ [145] ∧ ∀ h ∈ t.harts, h.isMantle = true → h.status = .ended)

/-- R181, R271, R272, R415: the Mantle's fence entries and lane maps, and page retirement: a page with an uncorrectable
word that was reported and is not yet retired joins the list, and its reports are served. The choice of the model in it:
assumption 14. -/
def Sys2Proof.Claims.MantleRegisters : Prop :=
  ∀ (s : State) (n core addr : Nat) (reg : Fin 3) (v : Word),
    (n < 48 → ForHart (.fenceEntryWrite n reg v) s (mantleOf n) fun t u => u = t.csrWrite (0xC01 + reg.val) v) ∧
    (n < 48 → ForHart (.mlanemapWrite n v) s (mantleOf n) fun t u => u = t.csrWrite 0xC06 v) ∧
    (48 ≤ n → exec (.fenceEntryWrite n reg v) s = .next s ∧ exec (.mlanemapWrite n v) s = .next s) ∧
    exec (.laneMapTakeup core) s = .next (s.takeLaneMap core) ∧
    (placeOf addr = .lpddr →
      let reported : Prop := ∃ e ∈ s.pow.reports, e.2 = addr / 4096
      (reported → addr / 4096 ∉ s.pow.retired → ∃ t, exec (.pageRetire addr) s = .next t ∧
        t.pow.retired = s.pow.retired ++ [addr / 4096] ∧ (∀ e, e ∈ t.pow.reports ↔ e ∈ s.pow.reports ∧ e.2 ≠ addr / 4096) ∧
        t.mem = s.mem) ∧
      (¬reported ∨ addr / 4096 ∈ s.pow.retired → exec (.pageRetire addr) s = .next s))

/-- R149, R153, R154: the queue registers. A notify moves the tail of an enabled queue, stops the queue with BAD-NOTIFY
where the tail is out of range, is held while the queues are stopped, and is ignored on a disabled queue. Disabling
discards the packets not taken; enabling a stopped queue clears its error, and enabling a disabled one waits while a word
of its descriptor has an outstanding home transaction. The choices of the model in it: assumptions 14, 65 and, for that wait, 76. -/
def Sys2Proof.Claims.QueueRegisters : Prop :=
  ∀ (s : State) (q : Nat) (v : Word),
    let on : Word := (v ||| 1) &&& ~~~0x3E#64
    let off : Word := v &&& ~~~1#64 &&& ~~~0x3E#64
    let busy : Bool := (s.rangeBusy ((v ||| 1).toNat / 64 * 64) 64).isSome
    (1024 ≤ q → ∀ i ∈ [Instr.qnotify q v, .qctlEnable q v, .qctlDisable q v], exec i s = .next s) ∧
    (q < 1024 → s.queue? q = none →
      exec (.qnotify q v) s = .next s ∧ exec (.qctlEnable q v) s = .next (if busy then s else s.enableQueue q on) ∧
      exec (.qctlDisable q v) s = .next (s.setQueue { Queue.init q with qctl := off })) ∧
    ∀ k, q < 1024 → s.queue? q = some k →
      let t := v.toNat % 2 ^ 32
      let d := (t + 2 ^ 32 - k.head) % 2 ^ 32
      let fits : Prop := d ≤ k.size ∧ (k.tail + 2 ^ 32 - k.head) % 2 ^ 32 ≤ d
      let held : Prop := s.fw.req = true ∨ s.fw.arm = true
      (k.enabled = false → exec (.qnotify q v) s = .next s) ∧
      (k.enabled = true → ¬held → fits → exec (.qnotify q v) s = .next (s.setQueue { k with tail := t })) ∧
      (k.enabled = true → ¬held → ¬fits → exec (.qnotify q v) s = .next (s.stopQueue q 5)) ∧
      (k.enabled = true → held → exec (.qnotify q v) s = .next (s.setQueue { k with notify := k.notify ++ [t] })) ∧
      exec (.qctlDisable q v) s =
        .next (s.setQueue { k with qctl := off, enabled := false, tail := k.head, notify := [] }) ∧
      (k.enabled = true → exec (.qctlEnable q v) s = .next (s.setQueue (if k.stopped = true ∧ k.atEnable = false then
        { k with qctl := on, stopped := false, code := 0 } else { k with qctl := on }))) ∧
      (k.enabled = false → exec (.qctlEnable q v) s = .next (if busy then s else s.enableQueue q on))

/-- R154 to R158, R161: LAUNCH, WAIT, SIGNAL and DRAW, and what completes them. A legal LAUNCH adds a launch that waits to
be placed, with the packet's tag; one with a bad descriptor stops the queue. A WAIT reached already is over; another joins
the queue's waits until its watermark reaches its value; what the queue launches after it acquires where it is placed. A SIGNAL publishes and may interrupt the host. A launch is
complete when every hart has halted; it publishes its done value. The choices of the model in it: assumptions 14, 16, 37,
41 and 42. -/
def Sys2Proof.Claims.CommandPackets : Prop :=
  ∀ (s t : State) (q ctxid part : Nat) (k : Queue) (ws : List Word),
    let g (i : Nat) : Word := ws.getD i 0
    (Takes s q 1 k ws t →
      (∀ kd u kn, launchOk ws = true → (g 1).toNat % 64 = 0 → t.fetchWords k.who (g 1).toNat 8 = (.ok kd, u) →
        kernelOf kd = some kn → kn.harts ≤ 3072 → u.tooLarge kn.asks = false →
        (∀ n ∈ bindList (g 3), u.wmOk k n = true) → flag (g 4) 15 = false →
        ∃ v l, exec (.launch q ctxid part) s = .next v ∧ v.sched.launches = u.sched.launches ++ [l] ∧ l.q = k.num ∧
          l.phase = .waiting ∧ l.kdesc = kd ∧ l.harts = kn.harts ∧ l.left = 0 ∧ l.args = g 2 ∧ l.tag = (g 0).extractLsb' 32 32 ∧
          l.base = min (field (g 0) 16 8) k.ceiling ∧ l.done = none ∧ v.mem = u.mem) ∧
      (launchOk ws = false → exec (.launch q ctxid part) s = .next (t.stopQueue k.num 1)) ∧
      (launchOk ws = true → (g 1).toNat % 64 ≠ 0 → exec (.launch q ctxid part) s = .next (t.stopQueue k.num 2))) ∧
    (∀ l j, s.launch? l = some j → j.left = 0 → j.phase = .resident → j.draw = false →
      exec (.launchComplete l) s = .next ((match j.done with | some d => s.publish d.1 d.2 | none => s).dropLaunch j)) ∧
    (∀ l j, s.launch? l = some j → (j.left ≠ 0 ∨ j.phase ≠ .resident) → exec (.launchComplete l) s = .next s) ∧
    (Takes s q 2 k ws t → (g 1).toNat < 4096 → (∀ w ∈ ws.drop 3, w = 0) →
      (∀ w, t.wm? (g 1).toNat = some w → w.owner = k.asid →
        ((g 2).toNat ≤ w.value → ∀ j, t.queue? k.num = some j →
          exec (.wait q) s = .next (t.setQueue { j with waited := true })) ∧
        (w.value < (g 2).toNat → ∀ j, t.queue? k.num = some j →
          exec (.wait q) s = .next (t.setQueue { j with waits := j.waits ++ [((g 1).toNat, (g 2).toNat, k.head)] }))) ∧
      (t.wmOk k (g 1).toNat = false → exec (.wait q) s = .next (t.stopQueue k.num 4))) ∧
    (Takes s q 2 k ws t → 4096 ≤ (g 1).toNat → (g 1).toNat < 2 ^ 16 → (∀ w ∈ ws.drop 3, w = 0) →
      exec (.wait q) s = .next (t.stopQueue k.num 4)) ∧
    (let open' (e : Nat × Nat × Nat) : Bool := match s.wm? e.1 with
      | some w => decide (w.value < e.2.1)
      | none => true
     let done := k.waits.filter fun e => !open' e
     let acquired := (done.flatMap fun e => s.coresAfter q e.2.2).eraseDups.foldl State.acquire s
     s.queue? q = some k → exec (.waitComplete q) s = .next (acquired.setQueue { k with
       waits := k.waits.filter open', waited := k.waited || !done.isEmpty })) ∧
    (Takes s q 3 k ws t → field (g 1) 17 15 = 0 → (∀ w ∈ ws.drop 3, w = 0) → field (g 1) 0 16 < 4096 →
      t.wmOk k (field (g 1) 0 16) = true →
      let u := t.publish (field (g 1) 0 16) (g 2).toNat
      exec (.signal q) s = .next (if flag (g 1) 16 = true ∧ field (g 1) 32 32 < 1024 then
        { u with host := { u.host with irqs := field (g 1) 32 32 :: u.host.irqs } } else u)) ∧
    (Takes s q 4 k ws t →
      (drawPacketOk ws = false → exec (.draw q ctxid part) s = .next (t.stopQueue k.num 2)) ∧
      (drawPacketOk ws = true → t.engFrozen engHem (ctxid % 2 ^ 32) = false →
        ∀ md u pd v td w mk pk, t.fetchWords k.who (g 1).toNat 8 = (.ok md, u) → u.fetchWords k.who (g 2).toNat 8 = (.ok pd, v) →
          v.fetchWords k.who (g 5).toNat 8 = (.ok td, w) → kernelOf md = some mk → kernelOf pd = some pk →
          let l := w.newLaunch k (g 0) ctxid part (md ++ pd) 0
          ∀ d, drawFields ws td k pk.early l = some d → mk.kind = 1 → pk.kind = 2 → mk.scratch ≠ 0 →
            pk.scratch ≠ 0 → (∀ e ∈ w.gfx.draws, e.colour ≠ d.colour) → w.tooLarge (drawAsks mk pk d.mharts d.pharts) = false →
            d.loadH = false → ∃ x, exec (.draw q ctxid part) s = .next x ∧ x.gfx.draws = w.gfx.draws ++ [d] ∧
              x.sched.launches = w.sched.launches ++ [{ l with draw := true, harts := d.mharts + 48 * d.pharts }])) ∧
    (∀ l d, s.draw? l = some d → s.drawIdle d = false → exec (.drawComplete l) s = .next s) ∧
    (∀ l d, s.draw? l = some d → s.drawIdle d = true → d.hiz = 0 → (∀ t ∈ s.gfx.tiles, t.launch ≠ l) →
      exec (.drawComplete l) s = .next (match (s.dropDraw l).launch? l with
        | some j => (s.dropDraw l).dropLaunch j
        | none => s.dropDraw l))

/-- R158, R281 to R283: the DEBUG packets: a halt is asked of every hart of the context, and of those of its launches that
are still to be placed, and a resume takes it back;
tracing, sampling and the breakpoint are set for the launches of the context; an inspect writes its records, or waits
while its buffer's page moves or a word of it is busy. A packet for a context of another space stops the queue. The
choices of the model in it: assumptions 14 and 34, 77 (the trace ring keeps the space and the privilege of the queue whose
packet names it) and 84 (the harts of a context that have halted are inspected while others have not). -/
def Sys2Proof.Claims.DebugPackets : Prop :=
  ∀ (s t : State) (q c : Nat) (a b : Word) (k : Queue),
    (TakesDebug s q 1 c a b k t → exec (.debugHalt q) s =
      .next (onLaunches (onContext t c fun h => { h with lc := { h.lc with haltReq := true } }) c fun l =>
        { l with haltReq := true })) ∧
    (TakesDebug s q 2 c a b k t →
      let hs := (t.residents ++ t.sched.saved).filter fun h => h.ctxid == c && (h.halted || h.isFrozen)
      let recs := (hs.foldl (fun l h => insertRank h l) []).flatMap (t.contextRecord 1)
      exec (.debugInspect q) s = .next (match t.spaceWrite k a.toNat recs with
        | .ok u => u
        | .error e => if e.waits then s else t.stopQueue k.num 6)) ∧
    (TakesDebug s q 3 c a b k t →
      let on (h : Hart) : Hart := { (match h.status with | .debugHalt _ => h.rerun | _ => h) with
        lc := { h.lc with haltReq := false }
        halting := false
        status := match h.status with
          | .debugHalt false => .run
          | .debugHalt true => .wait .meshlet
          | .stopped true i p => .stopped false i p
          | w => w }
      exec (.debugResume q) s = .next (onLaunches (onContext t c on) c fun l => { l with haltReq := false })) ∧
    (TakesDebug s q 4 c a b k t →
      let on (u : State) : State := onLaunches u c fun l =>
        { l with trace := some { base := a.toNat, lg := b.toNat, space := k.space, user := k.user } }
      exec (.traceOn q) s = .next (match t.spaceWrite k a.toNat [0, 0] with
        | .ok u => on u
        | .error e => if e.waits then s else on t)) ∧
    (TakesDebug s q 5 c a b k t → exec (.traceOff q) s = .next (onLaunches t c fun l => { l with trace := none })) ∧
    (TakesDebug s q 6 c a b k t → exec (.sample q) s = .next (onLaunches t c fun l => { l with sample := b.toNat })) ∧
    (TakesDebug s q 7 c a b k t → exec (.stripBreakpoint q) s = .next (onLaunches t c fun l => { l with brk := some (a, b) })) ∧
    (TakesDebug s q 8 c a b k t → exec (.clearBreakpoint q) s = .next (onLaunches t c fun l => { l with brk := none })) ∧
    (∀ ws, Takes s q 5 k ws t → field (ws.getD 1 0) 32 32 = 1 → (ws.getD 1 0).toNat < 2 ^ 40 → (∀ w ∈ ws.drop 3, w = 0) →
      (∀ l ∈ t.sched.launches, l.ctxid = field (ws.getD 1 0) 0 32 → l.space.toNat / 2 ^ 48 ≠ k.space.toNat / 2 ^ 48) →
      exec (.debugHalt q) s = .next (t.stopQueue q 9))

/-- R154 to R158, R161, R281 to R283: what the packets of a queue do. -/
def Obligations.Packets : Prop := Sys2Proof.Claims.CommandPackets ∧ Sys2Proof.Claims.DebugPackets

namespace Sys2Proof.Claims

open Sys2Proof.Machine

/-- An event of a resident hart with open collectives: as `ForHart`. -/
def ForColl (i : Instr) (s : State) (id : Nat) (P : State → State → Prop) : Prop :=
  (∃ g ∈ s.harts, g.id = id ∧ g.colls ≠ []) → ∀ t, s.switchTo id = some t →
    ∃ u, P t u ∧ exec i s = .next ((u.switchTo s.h.id).getD u)

/-- The open rendezvous of a Yoke is a YROT (R356, R359): its participant of lowest hartid has joined with one. -/
def OpensRot (s : State) (y : Yoke) : Prop :=
  ∃ ps js rest id h o, y.rvs = (ps, js) :: rest ∧ leadOf ps = some id ∧ id ∈ js ∧ s.hart? id = some h ∧
    h.latchOp = some o ∧ o.word.toNat % 16 = 5

/-- Collective n of the hart on turn in t is c, of kind red, free to run, and its descriptor's words are ws, read at v. -/
def Coll (t : State) (n : Nat) (red : Bool) (c : CollOp) (ws : List Word) (v : State) : Prop :=
  t.h.colls[n]? = some c ∧ c.red = red ∧ c.viol = false ∧ t.engFrozen engCollective t.h.ctxid = false ∧
  t.engWords engCollective (t.h.whoAs c.user c.spt) c.desc 4 = .ok ws v

end Sys2Proof.Claims

namespace Sys2Proof.Claims

open Sys2Proof.Machine

/-- Whether a resident launch may be pre-empted for the waiting launch w (R165 step 3): its level is lower, or it is equal,
its queue is another and it has been resident for 2 ms (20 ticks) since it was placed; and no hart of it is frozen (R414). -/
def MayYield (s : State) (w v : Launch) : Prop :=
  v.phase = .resident ∧ (v.base < w.eff ∨ (v.base = w.eff ∧ v.q ≠ w.q ∧ 20 ≤ v.ticks)) ∧
  ∀ h ∈ s.residents, h.lc.launch = some v.num → h.isFrozen = false

/-- Victims in the order of R165: lowest level first, and longest resident first within a level. -/
def InOrder (vs : List Launch) : Prop :=
  vs.Pairwise fun u v => u.base < v.base ∨ (u.base = v.base ∧ v.ticks ≤ u.ticks)

/-- The launches that are on their way off, once the first n of vs are asked to stop as well. -/
def offWith (s : State) (vs : List Launch) (n : Nat) : List Nat := ((vs.take n).map fun v => v.num).reverse ++ s.stopping

end Sys2Proof.Claims

/-- R161 to R166, R272: decisions. First the launches on a core whose new lane map waits are asked to stop. Then the launch
of the highest level whose turn it is is placed, when it fits; else victims are asked to stop in the order of R165, one after
another until it fits without them; where those on their way off make room, or no set of victims does, it waits. Nothing is
decided while the queues are stopped. A tick counts for every resident launch. Waiting raises a launch's level by one, to its
queue's ceiling. The choices of the model in it: assumptions 14 and 16. -/
def Sys2Proof.Claims.Decisions : Prop :=
  ∀ (s : State) (l : Nat),
    let held : Prop := s.fw.req = true ∨ s.fw.arm = true
    let ticked : State := { s with sched := { s.sched with launches := s.sched.launches.map fun j =>
      if j.phase = .resident then { j with ticks := j.ticks + 1 } else j } }
    let u := s.laneVictims.foldl (fun t v => t.preemptLaunch v.num) s
    (held → exec .mantleDecision s = .next s ∧ exec .schedulerTick s = .next ticked) ∧
    (∀ v, v ∈ s.laneVictims ↔ v ∈ s.sched.launches ∧ v.phase = .resident ∧
      (∃ h ∈ s.residents, h.lc.launch = some v.num ∧ ∃ e ∈ s.sched.lanes, e.1 = h.core ∧ e.2.2.2 = true) ∧
      ∀ h ∈ s.residents, h.lc.launch = some v.num → h.isFrozen = false) ∧
    (¬held → u.chosen = none → exec .mantleDecision s = .next u) ∧
    (∀ w p, ¬held → u.chosen = some w → u.planLaunch w [] = some p → exec .mantleDecision s = .next (u.place w p)) ∧
    (∀ w, ¬held → u.chosen = some w → u.planLaunch w [] = none →
      ((u.planLaunch w u.stopping).isSome = true → exec .mantleDecision s = .next u) ∧
      (u.planLaunch w u.stopping = none → ∃ vs : List Launch, InOrder vs ∧
        (∀ v, v ∈ vs ↔ v ∈ u.sched.launches ∧ MayYield u w v) ∧
        (∀ n, 0 < n → n ≤ vs.length → (u.planLaunch w (offWith u vs n)).isSome = true →
          (∀ m, 0 < m → m < n → u.planLaunch w (offWith u vs m) = none) →
          exec .mantleDecision s = .next
            ((((vs.take n).map fun v => v.num).reverse.filter fun j => !u.stopping.contains j).foldl State.preemptLaunch u)) ∧
        ((∀ n, 0 < n → n ≤ vs.length → u.planLaunch w (offWith u vs n) = none) → exec .mantleDecision s = .next u))) ∧
    (∀ k, s.launch? l = some k →
      (s.preemptLaunch l).launch? l = some { k with phase := .stopping, ends := none } ∧
      (s.preemptLaunch l).harts = s.harts.map fun h => if h.lc.launch = some l then h.preempt else h) ∧
    (∀ h : Hart, h.preempt.lc.preempt = true ∧ (h.status = .run → h.skipping = false → h.trapMet = false → h.window = [] →
      h.preempt.status = .stopped false false false ∧
      (h.viq = [] → h.unconf = [] → h.preempt.pc = h.pc ∧ h.preempt.x = h.x))) ∧
    (∀ w, s.chosen = some w → w ∈ s.sched.launches ∧ w.phase = .waiting ∧
      (∀ j ∈ s.sched.launches, j.phase = .waiting → j.q = w.q → w.num ≤ j.num) ∧
      ∃ k ∈ s.sched.launches, k.phase = .waiting ∧ k.q = w.q ∧ ∀ j ∈ s.sched.launches, j.phase = .waiting → j.eff ≤ k.eff) ∧
    exec .schedulerTick s = exec .mantleDecision ticked ∧
    (∀ k, s.launch? l = some k → k.phase = .waiting →
      (∀ q, s.queue? k.q = some q → exec (.levelAging l) s =
        .next (s.setLaunch { k with eff := if k.eff < q.ceiling then k.eff + 1 else k.eff })) ∧
      (s.queue? k.q = none → exec (.levelAging l) s = .next (s.setLaunch k))) ∧
    (∀ k, s.launch? l = some k → k.phase ≠ .waiting → exec (.levelAging l) s = .next s) ∧
    (s.launch? l = none → exec (.levelAging l) s = .next s)

/-- R168, R420, R423, R425: a launch whose harts have all stopped is saved: its records keep them, as bytes of their words
least significant first, once their confirmed stores are performed and no release has to wait. A launch that is being ended
ends here once its harts are quiet. The choices of the model in it: assumptions 14 and 34. -/
def Sys2Proof.Claims.Saving : Prop :=
  ∀ (s : State) (l : Nat),
    (s.launch? l = none → exec (.contextSave l) s = .next s) ∧
    ∀ k, s.launch? l = some k →
      let mine := s.residents.filter fun h => h.lc.launch == some l
      let settled := mine.foldl (fun t h => t.onHart h.id State.settleStores) s
      let theirs := settled.residents.filter fun h => h.lc.launch == some l
      let waits : Prop := ∃ h ∈ theirs, h.unconf ≠ [] ∨ (settled.releaseWait h.core).isSome = true
      let bytes (h : Hart) : List Byte :=
        (settled.contextRecord 0 h).flatMap fun (w : Word) => (List.range 8).map fun i => w.extractLsb' (8 * i) 8
      (∀ code, k.ends = some code →
        ((∀ h ∈ theirs, h.quiet = true) → exec (.contextSave l) s = .next (settled.finishEnd k code)) ∧
        ((∃ h ∈ theirs, h.quiet = false) → exec (.contextSave l) s = .next settled)) ∧
      (k.ends = none → k.phase ≠ .stopping → exec (.contextSave l) s = .next s) ∧
      (k.ends = none → (∃ h ∈ mine, h.hasStopped = false) → exec (.contextSave l) s = .next s) ∧
      (k.ends = none → k.phase = .stopping → (∀ h ∈ mine, h.hasStopped = true) →
        (waits → exec (.contextSave l) s = .next settled) ∧
        (¬waits → ∃ t, exec (.contextSave l) s = .next t ∧
          t.sched.saved = settled.sched.saved ++ theirs.map settled.record ∧
          t.sched.records = settled.sched.records ++ theirs.map (fun h => ⟨l, h.lc.rank, bytes h⟩) ∧
          (settled.launch? l ≠ none → ∃ j, t.launch? l = some j ∧ j.phase = (if k.left = 0 then .resident else .waiting) ∧
            j.eff = k.base ∧ j.base = k.base)))

/-- R161 to R166, R168, R272, R420, R423, R425: decisions, and the saving of launches that have stopped. -/
def Obligations.Scheduling : Prop := Sys2Proof.Claims.Decisions ∧ Sys2Proof.Claims.Saving

/-- R377 to R382, R398, R400: what streams, copies and collectives do of themselves. A prefetch moves ahead of the position
by a line, within depth and count; a closed write binding posts its message when its writes are performed; a copy posts
the count it completed; a collective posts when its last block or chunk is acknowledged, and a chunk that its
destination has seen is acknowledged and discarded. The choices of the model in it: assumptions 14, 17, 28, 29 and 51. -/
def Sys2Proof.Claims.StreamEvents : Prop :=
  ∀ (s : State) (id n j : Nat),
    ForHart (.streamPrefetch id n) s id (fun t u =>
      (t.h.slot? n = none → u = t) ∧
      ∀ b, t.h.slot? n = some b → u = { t with h := t.h.setSleeve b.prefetch } ∧ b.prefetch.pos = b.pos ∧
        (b.pos + b.ahead ≤ b.count → b.prefetch.pos + b.prefetch.ahead ≤ b.count) ∧ b.ahead ≤ b.prefetch.ahead ∧
        (b.ahead ≤ b.reachAhead → b.prefetch.ahead ≤ b.reachAhead) ∧
        (b.write = true → b.prefetch = b)) ∧
    ForHart (.streamDataArrival id n) s id (fun t u =>
      (t.h.slot? n = none → u = t) ∧
      ∀ b, t.h.slot? n = some b → (b.write = true → u = t) ∧
        ∀ vs e v, b.write = false → t.strmReads engStream (b.who t.h) b.strm b.pos b.ahead = (vs, some (.trap e), v) →
          u = { v with h := v.h.setSleeve { b with ahead := vs.length, held := some (b.pos + vs.length, e.code, e.tval) } }) ∧
    ForHart (.sunbindWriteComplete id n) s id (fun t u =>
      (takeClosing n t.h.sleeves = none → u = t) ∧
      ∀ b rest c v, takeClosing n t.h.sleeves = some (b, rest) → t.engFrozen engStream t.h.ctxid = false →
        t.flushFeed b true = (c, v) → c.pend = [] → c.failed = none → v.engFrozen engStream v.h.ctxid = false →
        u = { v with h := ({ v.h with sleeves := rest }).post c.tag 2 (if c.overf then 5 else 0) c.done }) ∧
    ForHart (.scopyComplete id n) s id (fun t u =>
      (t.h.copies[n]? = none → u = t) ∧
      ∀ c ws v, t.h.copies[n]? = some c → t.engFrozen engCopy t.h.ctxid = false → c.viol = false →
        t.engWords engCopy (t.h.whoAs c.user c.spt) c.desc 8 = .ok ws v →
        (copyDesc ws c.n = none → u = v.copyPost n 4 0) ∧
        ∀ d, copyDesc ws c.n = some d →
          ∀ k w, v.copyRun (t.h.whoAs c.user c.spt) d c.n (c.n + 1) (c.pref / d.piece * d.piece) = (k, none, w) →
            u = w.copyPost n 0 c.n) ∧
    ForColl (.xallArrivalAdd id n j) s id (fun t u => ∀ c ws v, Coll t n false c ws v →
      (xallOk ws = false → u = v.collPost n 4 0) ∧
      (xallOk ws = true → (field (ws.getD 3 0) 0 16 ≤ j ∨ j ∈ c.acked) → u = v) ∧
      ∀ r w x y, xallOk ws = true → j < field (ws.getD 3 0) 0 16 → j ∉ c.acked → j ∉ c.adds →
        let me := t.h.whoAs c.user c.spt
        let at' : Word := .ofNat 64 r + .ofNat 64 (field (ws.getD 3 0) 0 16) * ws.getD 2 0
        v.engRead engCollective me 9 (ws.getD 1 0 + .ofNat 64 (8 * j)) 8 = .ok r w →
        w.moveWords me (ws.getD 0 0 + .ofNat 64 j * ws.getD 2 0) (.ofNat 64 r + .ofNat 64 (field (ws.getD 3 0) 16 16) * ws.getD 2 0)
          ((ws.getD 2 0).toNat / 8) = .ok () x →
        at'.toNat % 8 = 0 →
        (x.setColl n { c with adds := c.adds ++ [j] }).engFar me at' 8 (fun v => (v + 1) % 2 ^ 64) = .ok () y →
        u = y.setColl n { c with adds := (c.adds ++ [j]).erase j, acked := c.acked ++ [j] }) ∧
    ForColl (.xallComplete id n) s id (fun t u => ∀ c ws v, Coll t n false c ws v → xallOk ws = true →
      let p := field (ws.getD 3 0) 0 16
      ((∀ b < p, b ∈ c.acked) → u = v.collPost n 0 p) ∧ ((∃ b < p, b ∉ c.acked) → u = v)) ∧
    ForColl (.xredChunkArrive id n j) s id (fun t u => u = t.xredChunk n j ∧ ∀ c ws v, Coll t n true c ws v →
      (xredOk ws = false → u = v.collPost n 4 0) ∧
      (xredOk ws = true → (xredChunks ws ≤ j ∨ j ∈ c.acked) → u = v) ∧
      ∀ pa w, xredOk ws = true → j < xredChunks ws → j ∉ c.acked →
        v.engLocate engCollective (t.h.whoAs c.user c.spt) (ws.getD 1 0 + .ofNat 64 (512 * j))
          (codeBytes (field (ws.getD 3 0) 4 4)) .both = .ok (.phys pa) w →
        let me := w.link.module
        let copy := field (ws.getD 3 0) 32 32
        let die := match placeOf pa with
          | .pod m => 16 + 8 * m + pa / 65536 % 8
          | _ => w.homeDie pa
        ((∃ m ∈ w.maps, m.sender = me ∧ m.ctxid = w.h.ctxid ∧ m.copy = copy ∧ j ∈ m.chunks) →
          u = w.setColl n { c with acked := c.acked ++ [j], refused := c.refused.filter (· != die) }) ∧
        ((∀ m ∈ w.maps, ¬(m.sender = me ∧ m.ctxid = w.h.ctxid ∧ m.copy = copy)) →
          64 ≤ (w.maps.filter fun m => m.die == die).length → die ∉ c.refused →
          u = w.setColl n { c with refused := die :: c.refused })) ∧
    ForColl (.xredChunkResend id n j) s id (fun t u => ∀ c, t.h.colls[n]? = some c →
      u = if c.refused = [] then t else t.xredChunk n j) ∧
    ForColl (.xredBusyTimeout id n) s id (fun t u => ∀ c, t.h.colls[n]? = some c →
      u = if c.red = true ∧ c.refused ≠ [] ∧ c.viol = false then t.collPost n 7 c.acked.length else t) ∧
    ForColl (.xredComplete id n) s id (fun t u => ∀ c ws v, Coll t n true c ws v → xredOk ws = true →
      let copy := field (ws.getD 3 0) 32 32
      ((∀ k < xredChunks ws, k ∈ c.acked) → u = ({ v with
        maps := v.maps.filter fun m => !(m.sender == v.link.module && m.ctxid == v.h.ctxid && m.copy == copy) }).collPost n 0
          (xredChunks ws)) ∧
      ((∃ k < xredChunks ws, k ∉ c.acked) → u = v)) ∧
    (∀ (t : State) (c : CollOp) (st k : Nat), t.h.colls[n]? = some c → (c.tag, if c.red then 4 else 3) ∈ t.h.inbox.resv →
      (t.collPost n st k).h.inbox.posted = t.h.inbox.posted ++ [message c.tag (if c.red then 4 else 3) st k] ∧
      (t.collPost n st k).h.inbox.resv = t.h.inbox.resv.erase (c.tag, if c.red then 4 else 3) ∧
      (t.collPost n st k).h.colls = t.h.colls.eraseIdx n)

/-- R351, R356 to R363: the Yoke of itself. A YZERO clears its rows and nothing else; a YMMA of the current epoch moves by
one K-slice for all its rows, and one whose formats form no pair holds its failure; a rendezvous that every participant
has joined fills the spare latch by the lead's YLDB, or rotates the latches around the ring of the cluster's Yokes by YROT:
the current latch goes to the next Yoke once that opens a YROT and has room, and the spare takes what the one before has sent,
or zeros where that serves no hart of the context; the swap makes the spare current once no YMMA of the epoch is left,
and takes the operation off every hart that joined. The choices of the model in it: assumptions 14 and 24. -/
def Sys2Proof.Claims.YokeEvents : Prop :=
  ∀ (s : State) (id quad : Nat),
    ForHart (.yokeOpComplete id) s id (fun t u =>
      (splitOps t.h.yops = none → u = t) ∧
      (t.h.hasStopped = true → u = t) ∧
      ∀ pre o post, t.h.hasStopped = false → splitOps t.h.yops = some (pre, o, post) → o.word.toNat % 16 = 2 →
        let r := field o.xa 0 13
        let n := field o.xa 16 13 + 1
        u.h.yops = pre ++ post ∧ u = { t with h := u.h } ∧ u.h.x = t.h.x ∧ u.h.vec = t.h.vec ∧
        ∀ b, u.h.acc.get b = if r * 128 ≤ b ∧ b < (r + n) * 128 then 0 else t.h.acc.get b) ∧
    ForHart (.yokeOpComplete id) s id (fun t u =>
      ∀ pre o post, t.h.hasStopped = false → splitOps t.h.yops = some (pre, o, post) → o.word.toNat % 16 = 4 →
        let y := t.yoke t.h.quad
        let fmt := o.desc 0 4 % 32
        (y.epoch ≠ o.epoch → u = t) ∧
        (y.epoch = o.epoch → pairOk fmt y.cur.fmt = false →
          u = { t with h := { t.h with yops := pre ++ { o with fail := some ⟨0, 0, o.word.setWidth 64⟩ } :: post } }) ∧
        (y.epoch = o.epoch → pairOk fmt y.cur.fmt = true → t.h.badMma o y.cur = false → y.cur.fmt ≠ 31 →
          u.h.acc = o.slice (t.h.opMem o) y.cur t.h.acc o.prog ∧ u.h.x = t.h.x ∧ u.mem = t.mem ∧
          u.h.yops = if o.prog + 1 < o.slices then pre ++
            { o with src := some (t.h.opMem o), bad := t.h.opBad o, prog := o.prog + 1 } :: post
            else pre ++ post)) ∧
    (∀ ps js rest o lead, (s.yoke quad).rvs = (ps, js) :: rest → (s.yoke quad).fill = none → (∀ p ∈ ps, p ∈ js) →
      leadOf js = some lead → (∃ h, s.hart? lead = some h ∧ h.latchOp = some o) → o.fail = none → o.word.toNat % 16 = 5 →
      (∀ p ∈ ps, ∀ h, s.hart? p = some h → h.hasStopped = false) →
      let y := s.yoke quad
      let nq := quad / 4 * 4 + (quad + 1) % 4
      let next := s.yoke nq
      let prev := s.yoke (quad / 4 * 4 + (quad + 3) % 4)
      let room : Prop := next.fill = none ∧ next.recv = none ∧ OpensRot s next
      let comes : Option Latch := match y.recv with
        | some l => some l
        | none => if prev.ctx = y.ctx then none else some Latch.zero
      let after : Yoke := match comes with
        | some l => { y with spare := l, fill := some js, rvs := rest, sent := false, recv := none }
        | none => { y with sent := true }
      (y.sent = false → next.ctx = y.ctx → ¬room → exec (.yokeRendezvous quad) s = .next s) ∧
      (y.sent = true ∨ next.ctx ≠ y.ctx ∨ room → ∃ u, exec (.yokeRendezvous quad) s = .next u ∧
        u = { s with yokes := u.yokes } ∧ u.yoke quad = after ∧
        u.yoke nq = if y.sent = false ∧ next.ctx = y.ctx then { next with recv := some y.cur } else next)) ∧
    (let y := s.yoke quad
     (y.fill = none → exec (.latchSwap quad) s = .next s) ∧
     (∀ joined, y.fill = some joined →
       let busy : Prop := ∃ h ∈ s.harts, h.quad = quad ∧ (∃ g ∈ y.grants, g.1 = h.id) ∧ h.usesEpoch y.epoch = true
       (busy → exec (.latchSwap quad) s = .next s) ∧
       (¬busy → exec (.latchSwap quad) s = .next ((s.setYoke
         { y with cur := y.spare, spare := y.cur, fill := none, epoch := y.epoch + 1 }).mapHarts fun h =>
           if h.id ∈ joined then h.dropLatch else h))) ∧
     (y.rvs = [] ∨ y.fill.isSome → exec (.yokeRendezvous quad) s = .next s) ∧
     (∀ ps js rest, y.rvs = (ps, js) :: rest → (∃ p ∈ ps, p ∉ js) → exec (.yokeRendezvous quad) s = .next s) ∧
     (∀ ps js rest o l u, y.rvs = (ps, js) :: rest → y.fill = none → (∀ p ∈ ps, p ∈ js) → leadOf js = some s.h.id →
       s.hart? s.h.id = some s.h → s.h.latchOp = some o → o.fail = none → o.word.toNat % 16 = 3 →
       (∀ p ∈ ps, ∀ h, s.hart? p = some h → h.hasStopped = false) →
       s.performLdb y.spare o = ((l, true), u) → u.h.id = s.h.id →
       exec (.yokeRendezvous quad) s = .next (u.setYoke { u.yoke quad with spare := l, fill := some js, rvs := rest })) ∧
     (∀ ps js rest p h, y.rvs = (ps, js) :: rest → p ∈ ps → s.hart? p = some h → h.hasStopped = true →
       exec (.yokeRendezvous quad) s = .next s))

/-- R351, R356 to R363, R377 to R382, R398, R400: streams, copies, collectives and the Yoke of themselves. -/
def Obligations.UnitEvents : Prop := Sys2Proof.Claims.StreamEvents ∧ Sys2Proof.Claims.YokeEvents

/-- R309, R312, R313, R315, R320 to R322: the renderer of itself. The distributor gives the next meshlet to the hart that
waits for it; a Sash takes the first record of the lowest meshlet it may take; a span goes to the pixel hart of lowest
rank with a free entry; a fragment or discard that stands at the head of its pixel is released to its tile; a tile is
loaded while the Hem holds fewer than 32, and is written back when nothing of it is pending.
The choices of the model in it: assumptions 14, 35, 43 and 59. -/
def Obligations.RendererEvents : Prop :=
  ∀ (s : State) (l tx ty px py c : Nat),
    (∀ d, s.draw? l = some d → d.ended = true ∨ d.nextTri = d.ntri → exec (.meshletDispatch l) s = .next s) ∧
    (∀ d, s.draw? l = some d → s.meshHart d = none → exec (.meshletDispatch l) s = .next s) ∧
    (∀ d h vs ts t, s.draw? l = some d → d.ended = false → d.nextTri ≠ d.ntri → s.meshHart d = some h →
      s.cutMeshlet d 256 d.nextTri [] [] = .ok (vs, ts) t → d.nextTri + ts.length ≠ d.ntri →
      exec (.meshletDispatch l) s = .next ((t.setDraw { d with
          nextTri := d.nextTri + ts.length, nextMesh := d.nextMesh + 1
          starts := d.starts ++ [(d.nextTri, ts.length)] }).onHart h.id fun u =>
        { u with h := u.h.startMeshlet d.nextMesh (meshletRecord d.nextTri d.nextMesh vs ts) })) ∧
    (s.nextRecord c = none → exec (.sashSetup c) s = .next s) ∧
    (∀ d p, s.nextRecord c = some (d, p) → ∃ t, exec (.sashSetup c) s = .next t ∧ t.mem = s.mem ∧ t.h = s.h ∧
      t.others = s.others ∧ t.gfx.input = removeFirst p s.gfx.input ∧
      (s.accepts d p = false → t.gfx.emits = s.gfx.emits) ∧
      (s.accepts d p = true → t.lastOrder c d.launch = p.words.getD 0 0 + 1 ∨ p.cluster ≠ c)) ∧
    ((firstEmits c [] s.gfx.emits).findSome? s.deal = none → exec (.spanEmit c) s = .next s) ∧
    (∀ t, (firstEmits c [] s.gfx.emits).findSome? s.deal = some t → exec (.spanEmit c) s = .next t ∧ t.mem = s.mem) ∧
    (∀ d t i, s.draw? l = some d → s.tile? l (px / 64) (py / 64) = some t → headIntent l px py s.gfx.intents = some i →
      s.engFrozen engHem d.ctxid = false →
      let u := { s with gfx := { s.gfx with intents := removeFirst i s.gfx.intents } }
      (i.frag = .empty → exec (.hemRelease l px py) s = .next s) ∧
      (i.frag = .discard → exec (.hemRelease l px py) s = .next u) ∧
      ∀ c0 c1 c2 c3 z, i.frag = .full c0 c1 c2 c3 z → d.dmode ≠ 1 →
        exec (.hemRelease l px py) s = .next (u.setTile (t.release d (64 * (py % 64) + px % 64) [c0, c1, c2, c3] z).1)) ∧
    (∀ d, s.draw? l = some d →
      let held := (s.gfx.tiles.filter fun t => (t.tx + 5 * t.ty) % 48 == (tx + 5 * ty) % 48).length
      let wanted : Prop := ∃ i ∈ s.gfx.intents, i.launch = l ∧ i.px / 64 = tx ∧ i.py / 64 = ty
      (32 ≤ held ∨ ¬wanted ∨ (s.tile? l tx ty).isSome → exec (.hemTileLoad l tx ty) s = .next s) ∧
      (held < 32 → wanted → s.tile? l tx ty = none → s.engFrozen engHem d.ctxid = false → d.dmode = 0 →
        ∀ cs t, s.gatherHem (fun p u => u.hemRead d (d.colourAt tx ty p) d.texel) (d.inside tx ty) = .ok cs t →
          exec (.hemTileLoad l tx ty) s = .next { t with gfx := { t.gfx with tiles := t.gfx.tiles ++
            [{ launch := l, tx := tx, ty := ty, depth := []
               colour := ((d.inside tx ty).zip cs).foldl (fun m e => m.write (e.1 * d.texel) d.texel e.2) [] }] } }) ∧
      (∀ t, s.tile? l tx ty = some t → wanted → exec (.hemTileEvict l tx ty) s = .next s) ∧
      (∀ t u, s.tile? l tx ty = some t → ¬wanted → s.engFrozen engHem d.ctxid = false → s.writeTile d t = .ok () u →
        exec (.hemTileEvict l tx ty) s = .next (u.dropTile l tx ty)))

namespace Sys2Proof.Claims

open Sys2Proof.Machine

/-- An event of the host die alone (R182, R183): resets and power, its answers, management, and the device timebase. -/
def HostDie (i : Instr) : Prop :=
  i ∈ [.packageReset, .powerLoss, .configurationRequest, .getVersion, .getCapabilities, .negotiateAlgorithms, .getDigests,
    .getMeasurements, .epochRollover] ∨ (∃ n, i = .pldmSensorRead n ∨ i = .challenge n ∨ i = .spdmVendorSignature n) ∨
  (∃ n m, i = .getCertificate n m ∨ i = .raiseSvnRevoke n m) ∨ ∃ n d, i = .setPowerCap n d

/-- In s the first thing that the agenda holds is the event i: it is carried out. -/
def Happens (s : State) : Prop :=
  ∀ i rest, s.agenda = .event i :: rest → ∀ u, exec i { s with agenda := rest } = .next u → step s = .next u.stepEnd

/-- What stands first on the agenda of s passes without an effect. -/
def Passes (s : State) : Prop := ∀ x rest, s.agenda = x :: rest → step s = .next ({ s with agenda := rest } : State).stepEnd

end Sys2Proof.Claims

/-- R113, R131, R136, R139, R153, R172, R435: the host's accesses. Aligned words in the decoder's range are read and
written at their homes, others are answered unsupported; a request to a busy word, or behind one that waits, is kept
and served later. A snoop waits for nothing: it brings the words of a line to U; the host's data replaces them where
no core has a copy. An aligned 8-byte BAR0 read is answered with the register's value, another with zero; such a write
acts on the register at its offset, another is ignored. A reassigned page is purged and zeroed, but never a retired
one. The choices of the model in it: assumptions 3, 14 and 57, 10 (when boot's retry status ends), 58 (values a map
does not permit) and 76 (busy words). -/
def Sys2Proof.Claims.HostMemory : Prop :=
  ∀ (s : State) (addr n : Nat) (data : List Byte),
    let answered (status : Nat) (v : Word) : State := { s with host := { s.host with reads := (status, v) :: s.host.reads } }
    let a := addr / 8 * 8
    let free : Prop := ∀ q ∈ s.host.reqs, q.isBar = true
    let kept (r : HostReq) : State := { s with host := { s.host with reqs := s.host.reqs ++ [r] } }
    (free → 0x1FFFC000000 < addr + n → exec (.hostCxlMemRead addr n) s = .next (answered 2 0)) ∧
    (free → 0x1FFFC000000 < addr + data.length → exec (.hostCxlMemWrite addr data) s = .next (answered 2 0)) ∧
    (free → addr + n ≤ 0x1FFFC000000 → addr % 8 = 0 → n = 8 → s.wordBusy addr = false → ∃ t, exec (.hostCxlMemRead addr n) s = .next t ∧
      t.host.reads = ((if (s.homeRead addr).bad then 1 else 0), (s.homeRead addr).data) :: (s.homeRead addr).s.host.reads ∧
      t.mem = (s.homeRead addr).s.mem) ∧
    ((addr + n ≤ 0x1FFFC000000 ∧ 0 < n ∧ s.wordBusy a = true) ∨ ¬free →
      exec (.hostCxlMemRead addr n) s = .next (kept (.read addr n))) ∧
    (free → addr + data.length ≤ 0x1FFFC000000 → addr % 8 = 0 → data.length = 8 → s.wordBusy addr = false →
      exec (.hostCxlMemWrite addr data) s =
        .next (s.homeWrite addr 255 (.ofNat 64 (data.foldr (fun b acc => acc * 256 + b.toNat) 0)))) ∧
    ((addr + data.length ≤ 0x1FFFC000000 ∧ data ≠ [] ∧ s.wordBusy a = true) ∨ ¬free →
      exec (.hostCxlMemWrite addr data) s = .next (kept (.write addr data))) ∧
    (let t : State := { s with host := { s.host with reqs := [] } }
     (s.host.reqs = [.read addr n] → exec (.hostCxlMemRead addr n) t = .next s.serveHost) ∧
     (s.host.reqs = [.write addr data] → exec (.hostCxlMemWrite addr data) t = .next s.serveHost)) ∧
    (let u := (hostLine addr).foldl State.snoopWord s
     let v : State := { u with coh := { u.coh with agent := u.coh.agent.filter fun k => k != hostPa addr / 64 } }
     (∀ w ∈ hostLine addr, u.seam w = none) ∧
     exec (.hostSnoop addr) s = .next ((s.coh.txns.filter fun x => (hostLine addr).contains x.req.addr).foldl
       (fun t x => t.afterSnoop (s.fetching x.req.addr) x) v) ∧
     ((∀ w ∈ hostLine addr, (∀ r ∈ s.coh.reps, r.req.addr ≠ w) ∧ ∀ m ∈ s.coh.msgs, m.addr ≠ w) →
       u = (hostLine addr).foldl State.toU s)) ∧
    (data.length ≠ 64 → exec (.cxlCacheResponse addr data) s = .next s) ∧
    (data.length = 64 → (∀ w ∈ hostLine addr, s.seam w = none) → ∃ t, exec (.cxlCacheResponse addr data) s = .next t ∧
      t = { s with mem := t.mem } ∧ (∀ i < 64, t.mem.get (hostPa (addr / 64 * 64) + i) = data.getD i 0) ∧
      ∀ b, ¬(hostPa (addr / 64 * 64) ≤ b ∧ b < hostPa (addr / 64 * 64) + 64) → t.mem.get b = s.mem.get b) ∧
    (exec .configurationRequest s = .next (answered (if s.host.cfgOk then 0 else 3) 0)) ∧
    (∀ rest off m, s.agenda = .barRead off m :: rest → s.pow.state = .active → ∃ v,
      step s = .next (({ s with agenda := rest, host := { s.host with reads := (0, v) :: s.host.reads } } : State).stepEnd) ∧
      (m ≠ 8 ∨ off % 8 ≠ 0 → v = 0) ∧ (m = 8 → off % 8 = 0 → (∀ q, notifyReg off = .qstat q → v = s.qstat q) ∧
        (∀ q k, notifyReg off = .qctl q → s.queue? q = some k → v = k.qctl) ∧ (∀ q, notifyReg off = .qnotify q → v = 0) ∧
        (notifyReg off = .hole → v = 0) ∧ (notifyReg off = .faultQueue 0x00 → v = s.host.fqbase) ∧
        (notifyReg off = .faultQueue 0x08 → v = s.host.fqsize) ∧
        (notifyReg off = .faultQueue 0x10 → v = .ofNat 64 s.host.fqtail) ∧
        (notifyReg off = .faultQueue 0x18 → v = s.host.fqhead))) ∧
    (∀ rest off m v, s.agenda = .barWrite off m v :: rest → s.pow.state = .active → (∀ q ∈ s.host.reqs, q.isBar = false) →
      let t : State := { s with agenda := rest }
      let does (i : Instr) : Prop := ∀ u, exec i t = .next u → step s = .next u.stepEnd
      (m ≠ 8 ∨ off % 8 ≠ 0 ∨ notifyReg off = .hole ∨ (∃ q, notifyReg off = .qstat q) → step s = .next t.stepEnd) ∧
      (m = 8 → off % 8 = 0 → (∀ q, q < 1024 → notifyReg off = .qnotify q → does (.qnotify q v)) ∧
        (∀ q, q < 1024 → notifyReg off = .qctl q → (t.rangeBusy (v.toNat / 64 * 64) 64).isSome = false →
          does (if v.getLsbD 0 then .qctlEnable q v else .qctlDisable q v)) ∧
        (notifyReg off = .faultQueue 0x00 → does (.registerWrite 0x2000 v)) ∧
        (notifyReg off = .faultQueue 0x08 → does (.registerWrite 0x2008 v)) ∧
        (notifyReg off = .faultQueue 0x18 → does (.registerWrite 0x2018 v)) ∧
        (notifyReg off = .faultQueue 0x20 → v.toNat / 2 ^ 32 % 4 = 0 → does (.frespReplay (v.toNat % 2 ^ 32))) ∧
        (notifyReg off = .faultQueue 0x20 → v.toNat / 2 ^ 32 % 4 = 1 → does (.frespToSupervisor (v.toNat % 2 ^ 32))) ∧
        (notifyReg off = .faultQueue 0x20 → v.toNat / 2 ^ 32 % 4 = 2 → does (.frespEndLaunch (v.toNat % 2 ^ 32))))) ∧
    (∀ rest page, s.agenda = .reassign page :: rest → s.pow.state = .active →
      let t : State := { s with agenda := rest }
      ((t.rangeBusy (page * 4096) 4096).isSome = true ∨ page ∈ s.pow.retired → step s = .next t.stepEnd) ∧
      ((t.rangeBusy (page * 4096) 4096).isSome = false → page ∉ s.pow.retired → t.reachable (page * 4096) = true →
        step s = .next ((t.purgePage page).zeroWords (page * 4096) 512).stepEnd))

/-- R138, R415, R429, R433, R434: a host page, or the large page that maps it, moves into the device in two parts, once
the stores that harts hold are performed. While a leaf for the page is unmarked, every leaf is marked in transit and
the page's translations leave every TLB; then the page is purged from the L1s and copied word by word, and the leaves
name the new page. Nothing happens while a word is busy or a store is held, nor to a retired page. The choice of the
model in it: assumption 14. -/
def Sys2Proof.Claims.PageMigration : Prop :=
  ∀ (s : State) (src dst : Nat),
    let w := s.dischargeAll
    let size := (w.leaves (src / 4096) 1).foldl (fun n l => max n (512 ^ l.2)) 1
    let old := src / 4096 / size * size
    let new := dst / 4096 / size * size
    let ls := ((w.leaves old size).map fun l => l.1).eraseDups
    let busy : Prop := (w.rangeBusy (old * 4096) (size * 4096)).isSome = true ∨
      (w.rangeBusy (new * 4096) (size * 4096)).isSome = true ∨ (∃ a ∈ ls, w.wordBusy a = true) ∨ ∃ g ∈ w.harts, g.unconf ≠ []
    let may : Prop := placeOf src = .host ∧ placeOf dst = .lpddr ∧ isReserved (new * 4096 + size * 4096 - 1) = false ∧
      (∀ p ∈ w.pow.retired, ¬(new ≤ p ∧ p < new + size)) ∧ ¬busy
    let moved (t : State) : Prop :=
      (∀ e ∈ t.mmu.tlb, ¬(e.ppn < old + size ∧ old < e.ppn + e.pages)) ∧
      (∀ e ∈ t.mmu.tlb2, ¬(e.ppn < old + size ∧ old < e.ppn + e.pages)) ∧ t.h = w.h ∧ t.others = w.others
    ((∀ h ∈ s.harts, h.unconf = []) → w = s) ∧
    (¬may → exec (.hostPageMigration src dst) s = .next w) ∧
    (may → (∃ a ∈ ls, (w.homeView a).getLsbD 1 = false) → ∃ t, exec (.hostPageMigration src dst) s = .next t ∧ moved t ∧
      ∀ a ∈ ls, w.lostPeer a = false → t.homeView a = w.homeView a ||| 2) ∧
    (may → (∀ a ∈ ls, (w.homeView a).getLsbD 1 = true) → ∃ t, exec (.hostPageMigration src dst) s = .next t ∧ moved t ∧
      ((∀ a ∈ ls, w.lostPeer a = false ∧ ¬(new ≤ a / 4096 ∧ a / 4096 < new + size) ∧ ¬(old ≤ a / 4096 ∧ a / 4096 < old + size)) →
        let p := (List.range size).foldl (fun t i => t.purgePage (old + i)) w
        (∀ k < size * 512, placeOf (new * 4096 + 8 * k) = .lpddr →
          t.homeView (new * 4096 + 8 * k) = p.homeView (old * 4096 + 8 * k)) ∧
        ∀ a ∈ ls, t.homeView a = ((w.homeView a &&& ~~~(.ofNat 64 ((2 ^ 40 - 1) * 4096)) &&& ~~~2#64) |||
          .ofNat 64 ((ptePpn (w.homeView a) - old + new) * 4096))))

/-- R129, R426, R439 to R443: a port takes a flit of right CRC and number with its virtual channel, and asks again after a
bad CRC. A NAK has what is not acknowledged sent again, and after 16 replays takes the port down. What is sent has its
numbers, channel and CRC in their places; a port down or frozen takes nothing; a module is unreachable when no port of
its route has worked for the timeout, until one retrains. A peer's request passes the fence table of die 0, cluster 0;
a violation freezes its port with address and kind; what is served is answered; a write merges its bytes at the home.
A chunk of a peer's XRED is checked likewise, and one applied before is acknowledged and discarded. The choices of the
model in it: assumptions 14, 29, 36 and 48. -/
def Sys2Proof.Claims.PodLink : Prop :=
  ∀ (s : State) (n m : Nat) (f : BitVec 2048),
    let each (g : Port → Port) : State :=
      { s with link := { s.link with ports := s.link.ports.map fun p => if p.num = n then g p else p } }
    let ok : Prop := crc64 ((List.range 248).map fun i => f.extractLsb' (8 * i) 8) = (f.extractLsb' 1984 64).toNat
    (∃ g, exec (.flitReceive n f) s = .next (each g) ∧ ∀ p, p.num = n →
      (p.up = false ∨ p.frozen ≠ none → g p = p) ∧
      (p.up = true → p.frozen = none → ¬ok → g p = { p with nak := some ((p.rx + 4095) % 4096) }) ∧
      (p.up = true → p.frozen = none → ok → (g p).num = p.num ∧ (f.toNat % 4096 = p.rx → (g p).rx = (p.rx + 1) % 4096 ∧ (g p).nak = none ∧
        (g p).rxq = p.rxq ++ [((f.extractLsb' 32 8).toNat, (List.range 240).map fun i => (f.extractLsb' (8 * (8 + i)) 8).toNat)]) ∧
        (f.toNat % 4096 ≠ p.rx → (g p).rx = p.rx ∧ (g p).rxq = p.rxq))) ∧
    (∃ g, exec (.flitNak n m) s = .next (each g) ∧ ∀ p, (g p).rx = p.rx ∧ (p.up = false ∨ p.frozen ≠ none → g p = p) ∧
      (p.up = true → p.frozen = none →
        (g p).replay = p.replay.filter (fun e => (e.seq + 4096 - (m % 4096 + 1) % 4096) % 4096 < 2048) ∧
        ((g p).replay ≠ [] → (g p).replay = p.replay → 16 ≤ p.tries → (g p).up = false) ∧
        ((g p).replay ≠ p.replay ∨ p.tries < 16 → (g p).up = true ∧
          ((g p).replay ≠ [] → (g p).tries = (if (g p).replay = p.replay then p.tries else 0) + 1)))) ∧
    (∀ (p : Port) (e : TxFlit), let bs := p.flitBytes e
      bs.length = 256 ∧ bs.getD 0 0 = .ofNat 8 e.seq ∧ bs.getD 1 0 = .ofNat 8 (e.seq / 256 % 16) ∧ bs.getD 4 0 = .ofNat 8 e.vc ∧
      bs.getD 5 1 = 0 ∧ bs.getD 6 1 = 0 ∧ bs.getD 7 1 = 0 ∧
      ∀ i < 8, bs.getD (248 + i) 0 = .ofNat 8 (crc64 (bs.take 248) / 2 ^ (8 * i))) ∧
    exec (.portDown n) s = .next (each fun p => { p with up := false }) ∧
    (∃ t, exec (.portRetrainComplete n) s = .next t ∧ t.link.ports = (each fun p => { p with up := true, tries := 0 }).link.ports ∧
      (∀ k, k ∈ t.link.unreach ↔ k ∈ s.link.unreach ∧ t.link.cutOff k = true) ∧ t.mem = s.mem ∧ t.h = s.h) ∧
    (m < 1024 → m ≠ s.link.module → s.link.cutOff m = true → m ∉ s.link.unreach →
      exec (.routeDownTimeout m) s = .next { s with link := { s.link with unreach := s.link.unreach ++ [m] } }) ∧
    (1024 ≤ m ∨ m = s.link.module ∨ s.link.cutOff m = false ∨ m ∈ s.link.unreach → exec (.routeDownTimeout m) s = .next s) ∧
    ∀ (part : Nat) (k : Fin 4) (addr : Nat) (mask : BitVec 8) (d c : Word) (op : Fin 10),
      let a := s.normPa addr / 8 * 8
      let i := Instr.peerRequestArrival n part k addr mask d c op
      let pass := s.fenceOk 0 part (a + maskLow mask) (maskCount mask) (peerNeed k)
      (s.link.ports.find? (fun p => p.num == n) = none → exec i s = .next s) ∧
      ∀ p, s.link.ports.find? (fun p => p.num == n) = some p →
        (p.up = false ∨ p.frozen ≠ none ∨ mask = 0 ∨ placeOf a ≠ .lpddr → exec i s = .next s) ∧
        (p.up = true → p.frozen = none → mask ≠ 0 → placeOf a = .lpddr →
          (pass = false → exec i s = .next (s.freezePort n ⟨a + maskLow mask, (peerNeed k).kind⟩)) ∧
          (pass = true → s.wordBusy a = true → exec i s = .next s) ∧
          (pass = true → s.wordBusy a = false →
            let answered (t : State) : State := { t with link := { t.link with sent := (n, 0) :: t.link.sent } }
            (k = 2 → exec i s = .next (answered (s.homeWrite a mask d))) ∧
            (k = 0 → exec i s = .next (answered (s.homeRead a).s)) ∧
            (k = 1 → ∃ t, exec i s = .next (answered t) ∧ ∃ v, t.seam a = some (.port n v)) ∧
            (k = 3 → ∃ r, r.kind = .far ∧ r.addr = a ∧ r.b = d ∧ r.cmp = c ∧ exec i s = .next (answered (s.serve r).s)))) ∧
        ∀ rest x, s.agenda = .peerChunk n part x :: rest → s.pow.state = .active → p.up = true → p.frozen = none →
          x.sender ≠ s.link.module → x.vals ≠ [] →
          let t : State := { s with agenda := rest }
          let pa := t.normPa x.dst
          let len := x.vals.length * codeBytes x.ty
          placeOf pa = .lpddr → placeOf (pa + len - 1) = .lpddr → pa % codeBytes x.ty = 0 →
            (t.fenceOk 0 part pa len .both = false → step s = .next (t.freezePort n ⟨pa, Need.both.kind⟩).stepEnd) ∧
            (t.fenceOk 0 part pa len .both = true → (∀ i < (pa % 8 + len + 7) / 8, t.wordBusy (pa / 8 * 8 + 8 * i) = false) →
              (∃ e ∈ t.maps, e.sender = x.sender ∧ e.ctxid = x.ctxid ∧ e.copy = x.copy ∧ x.k ∈ e.chunks) →
              step s = .next ({ t with link := { t.link with sent := (n, 0) :: t.link.sent } } : State).stepEnd)

/-- R113, R129, R131, R136, R138, R139, R153, R172, R415, R426, R429, R433 to R443: the host and the pod link. -/
def Obligations.HostAndLink : Prop := Sys2Proof.Claims.HostMemory ∧ Sys2Proof.Claims.PageMigration ∧ Sys2Proof.Claims.PodLink

/-- R140, R174, R175, R178, R179, R182 to R184: reset, power, errors and management. A package reset starts from flash and
fuses alone, and checks the host-die firmware first, without which no security engine answers; D3hot keeps memory, into which
every owner's data goes back; Off lets nothing happen but power-good, a thermal shutdown nothing but what the host die does,
and D3hot besides that its exit and a thermal shutdown. A die's level is the highest that a cause demands of it, each from 0 to 14.
Fuses and measurements are extended as R178 says, and both signatures cover one transcript with the measurements. A
single-bit error changes no value and is not counted before a read. What SPDM carries beyond the measurements is the
model's free choice (assumption 11), and so are a sensor's reading and a throttle event's cause (assumption 19).
The other choices of the model in it: assumptions 10, 14 and 60. -/
def Obligations.PowerAndManagement : Prop :=
  ∀ (s : State) (die n m store core addr : Nat) (g : BitVec 384),
    let spdm (req : List Nat) (code : Nat) (body : List Nat) : State :=
      { s with fw := { s.fw with
          spdmOut := s.fw.spdmOut ++ [0x13 :: code :: body]
          spdmIn := (if code = 0x04 then [] else s.fw.spdmIn) ++ [req, 0x13 :: code :: body] } }
    let blocks := (s.fw.meas.map fun d => d.toNat) ++ [s.fw.log.length, if s.fw.logStop then 1 else 0]
    let answered (t : State) (v : Word) : State := { t with host := { t.host with reads := (0, v) :: t.host.reads } }
    let demands (t : State) (cause : Nat) (f : Nat → Nat) : Prop :=
      t = { s with pow := { s.pow with demand := t.pow.demand }, tick := s.tick + 1 } ∧
      t.pow.demand.length = s.pow.demand.length ∧
      ∀ k < s.pow.demand.length, ∀ c, (t.pow.demand.getD k []).length = (s.pow.demand.getD k []).length ∧
        (c < (s.pow.demand.getD k []).length → (t.pow.demand.getD k []).getD c 0 =
          if k = die ∧ c = cause then f ((s.pow.demand.getD k []).getD c 0) else (s.pow.demand.getD k []).getD c 0)
    (∃ t, exec .packageReset s = .next t ∧ t.fw.flash0 = s.fw.flash0 ∧ t.fw.flash1 = s.fw.flash1 ∧
      t.fw.svnMin = s.fw.svnMin ∧ t.fw.revoke = s.fw.revoke ∧ t.fw.bootSlot = s.fw.bootSlot ∧ t.pow.state = .active ∧
      (∀ c, checkImage s.fw.kept s.fw.flashH s.fw.lenH 1 = .fail c → t.fw.dead = true ∧ ∀ h ∈ t.harts, h.status = .ended)) ∧
    (s.pow.state = .active → ∃ t, exec .d3hotEntry s = .next t ∧ t.pow.state = .d3hot ∧ t.coh.l1 = [] ∧
      t.coh.seam = [] ∧ t.fw = s.fw ∧ (∀ h ∈ t.harts, h.status = .ended) ∧ t.agenda = s.agenda ∧
      (s.coh.txns = [] → s.coh.reps = [] → (∀ e ∈ s.coh.homes, e.held = []) → ∀ a,
        (∀ e ∈ s.coh.seam, e.1 = a ∨ e.1 + 8 ≤ a ∨ a + 8 ≤ e.1) → t.memWord a = s.homeView a)) ∧
    (s.pow.state ≠ .active → exec .d3hotEntry s = .next s) ∧
    (s.pow.state = .d3hot → exec .d3hotExit s = .next ({ s with pow := { s.pow with state := .active } }).bootMantles) ∧
    (s.pow.state ≠ .d3hot → exec .d3hotExit s = .next s) ∧
    (∃ t, exec .powerLoss s = .next t ∧ t.pow.state = .off ∧ t.fw.flash0 = s.fw.flash0 ∧ t.fw.svnMin = s.fw.svnMin) ∧
    (∃ t, exec .thermalShutdown s = .next t ∧ t.pow.state = .hot ∧ t.host.mail = s.host.mail ++ [183] ∧
      (∀ h ∈ t.harts, h.status = .ended) ∧ ∀ p ∈ t.link.ports, p.up = false) ∧
    (s.pow.state = .off → s.agenda = [] → step s = .fault .powerOff) ∧
    (∀ i rest, s.pow.state = .off → s.agenda = .event i :: rest → (∀ j, j = Instr.packageReset → i ≠ j) →
      step s = .next ({ s with agenda := rest } : State).stepEnd) ∧
    (s.pow.state = .hot ∨ s.pow.state = .d3hot →
      let may (i : Instr) : Prop := HostDie i ∨ (s.pow.state = .d3hot ∧ (i = .d3hotExit ∨ i = .thermalShutdown))
      (s.agenda = [] → step s = .next s.stepEnd) ∧
      (∀ i rest, s.agenda = .event i :: rest → (may i → Happens s) ∧ (¬may i → Passes s)) ∧
      (∀ x rest, s.agenda = x :: rest → (∀ i, x ≠ .event i) → (∀ d, x ≠ .fenceDigest d) → Passes s)) ∧
    (∃ t, ∃ c < 2, exec (.throttleRaiseTick die) s = .next t ∧ demands t c fun v => min 14 (v + 1)) ∧
    (∃ t, ∃ c < 3, exec (.throttleLowerTick die) s = .next t ∧ demands t c fun v => v - 1) ∧
    (∃ t, exec .overcurrentThrottle s = .next t ∧ t = { s with pow := { s.pow with demand := t.pow.demand } } ∧
      ((∀ l ∈ s.pow.demand, l.length = 3 ∧ ∀ v ∈ l, v ≤ 14) → ∀ k < s.pow.demand.length, t.pow.level k = 14)) ∧
    (2000 ≤ n → n ≤ 5400 → ∃ t, exec (.setPowerCap n g) s = .next t ∧ t.pow = { s.pow with cap := n } ∧
      (s.fw.logStop = false → s.fw.log.length < 4096 → t.fw.log.length = s.fw.log.length + 1 ∧
        t.fw.meas = s.fw.meas.set 3 (sha384 (digestBytes (s.fw.meas.getD 3 0) ++ digestBytes g)))) ∧
    (n < 2000 ∨ 5400 < n → exec (.setPowerCap n g) s = .next s) ∧
    (∀ rest, s.agenda = .fenceDigest g :: rest → s.pow.state ≠ .off → s.fw.logStop = false → s.fw.log.length < 4096 →
      ∃ t : State, step s = .next t.stepEnd ∧ t.pow = s.pow ∧ t.h = s.h ∧ t.mem = s.mem ∧
        t.fw.log.length = s.fw.log.length + 1 ∧
        t.fw.meas = s.fw.meas.set 3 (sha384 (digestBytes (s.fw.meas.getD 3 0) ++ digestBytes g))) ∧
    (∃ t, exec (.raiseSvnRevoke n m) s = .next t ∧ t.fw.svnMin = max s.fw.svnMin n ∧ t.fw.revoke = s.fw.revoke ||| m % 256 ∧
      t.pow = s.pow ∧ t.h = s.h ∧ t.mem = s.mem) ∧
    (s.fw.dead = true → ∀ off len, ∀ i ∈ [Instr.getVersion, .negotiateAlgorithms, .getMeasurements, .getCapabilities, .getDigests,
      .getCertificate off len, .challenge n, .spdmVendorSignature n], exec i s = .next s) ∧
    (s.fw.dead = false → exec .getVersion s = .next (spdm [0x84] 0x04 [0x13]) ∧
      exec .negotiateAlgorithms s = .next (spdm [0xE3] 0x63 [384, 3072]) ∧
      exec .getMeasurements s = .next (spdm [0xE0] 0x60 blocks) ∧ ∃ b, exec .getCapabilities s = .next (spdm [0xE1] 0x61 b)) ∧
    (s.fw.dead = false → ∃ chain : List Nat, exec .getDigests s = .next (spdm [0x81] 0x01 [(sha384 (chain.map fun b => BitVec.ofNat 8 b)).toNat]) ∧
      ∀ off len, exec (.getCertificate off len) s = .next (spdm [0x82, off, len] 0x02 ((chain.drop off).take len))) ∧
    (s.fw.dead = false → let signed (code alg : Nat) : State := { s with fw := { s.fw with
       spdmOut := s.fw.spdmOut ++ [0x13 :: code :: Config.spdmSign alg (s.fw.spdmIn ++ [[n], blocks])] } }
     exec (.challenge n) s = .next (signed 0x03 0) ∧ exec (.spdmVendorSignature n) s = .next (signed 0x7E 1)) ∧
    (n < 18 → ∃ v, exec (.pldmSensorRead n) s = .next (answered { s with tick := s.tick + 1 } v)) ∧
    (n < 8 → exec (.pldmSensorRead (18 + n)) s = .next (answered s (.ofNat 64 ((s.pow.demand.getD n []).foldl max 0))) ∧
      ∃ v, exec (.pldmSensorRead (26 + n)) s = .next (answered s (.ofNat 64 v)) ∧
        ∀ c < 3, v.testBit c = true ↔
          (s.pow.demand.getD n []).getD c 0 = (s.pow.demand.getD n []).foldl max 0 ∧ 0 < (s.pow.demand.getD n []).foldl max 0) ∧
    (n < 52 → (∃ t, exec (.pldmSensorRead (34 + n)) s = .next t ∧
      t.host.reads = (0, .ofNat 64 (countOf s.pow.corr n)) :: s.host.reads ∧ countOf t.pow.corr n = 0 ∧
      ∀ k, k ≠ n → countOf t.pow.corr k = countOf s.pow.corr k) ∧
      ∃ t, exec (.pldmSensorRead (86 + n)) s = .next t ∧
        t.host.reads = (0, .ofNat 64 (countOf s.pow.uncorr n)) :: s.host.reads ∧ countOf t.pow.uncorr n = 0 ∧
        ∀ k, k ≠ n → countOf t.pow.uncorr k = countOf s.pow.uncorr k) ∧
    (∃ t, exec (.bitError store core addr false) s = .next t ∧ t.mem = s.mem ∧ t.pow = s.pow ∧
      t.coh = { s.coh with weak := t.coh.weak } ∧ t.h = { s.h with weakPool := t.h.weakPool } ∧
      t.others.length = s.others.length ∧ ∀ p ∈ s.others.zip t.others, p.2 = { p.1 with weakPool := p.2.weakPool }) ∧
    (let a := wordAddr (s.normPa addr)
     let there : Prop := (store = 1 ∧ a / 128 ∈ s.coh.slices) ∨ (store = 3 ∧ a / 128 ∉ s.coh.slices)
     placeOf a = .lpddr → store = 1 ∨ store = 3 →
      (there → ∃ t, exec (.bitError store core addr true) s = .next t ∧ t.isBad a = true ∧ t.mem = s.mem ∧ t.h = s.h) ∧
      (¬there → exec (.bitError store core addr true) s = .next s))

/-- R15, R71, R143, R436, R441: plain register writes. A writable CSR of the hart on turn that has no other effect takes the
value; FWSRC, FWLEN, FQHEAD and a route entry take it; FQBASE only a multiple of 4,096 and FQSIZE only a code up to 12.
The choices of the model in it: assumptions 14 and 58. -/
def Sys2Proof.Claims.PlainRegisterWrites : Prop :=
  ∀ (s : State) (n : Nat) (v : Word),
    (n < 0x1000 → s.h.csrReadable n = true → s.h.csrWritable n = true → n ∉ [0xC01, 0xC02, 0xC03, 0xC04, 0xC06] →
      exec (.registerWrite n v) s = .next (s.csrWrite n v)) ∧
    (n < 0x1000 → s.h.csrWritable n = false → exec (.registerWrite n v) s = .next s) ∧
    exec (.registerWrite 0x1008 v) s = .next { s with fw := { s.fw with src := v } } ∧
    exec (.registerWrite 0x1010 v) s = .next { s with fw := { s.fw with len := v } } ∧
    exec (.registerWrite 0x2000 v) s = .next (if v.toNat % 4096 = 0 then { s with host := { s.host with fqbase := v } } else s) ∧
    exec (.registerWrite 0x2008 v) s =
      .next (if v.toNat % 16 ≤ 12 then { s with host := { s.host with fqsize := v &&& 15 } } else s) ∧
    exec (.registerWrite 0x2018 v) s = .next { s with host := { s.host with fqhead := v } } ∧
    (n < 1024 → ∃ t, exec (.registerWrite (0x10000 + n) v) s = .next t ∧ t = { s with link := { s.link with routes := t.link.routes } } ∧
      t.link.routes.find? (fun e => e.1 == n) = some (n, v.toNat % 2 ^ 16) ∧
      ∀ k, k ≠ n → t.link.routes.find? (fun e => e.1 == k) = s.link.routes.find? fun e => e.1 == k)

/-- R15, R71, R143, R149, R153, R154, R181, R271, R272, R415, R436, R441: writes of registers that are events of their own. -/
def Obligations.RegisterEvents : Prop := Sys2Proof.Claims.MantleRegisters ∧ Sys2Proof.Claims.QueueRegisters ∧ Sys2Proof.Claims.PlainRegisterWrites
end

