-- ==== Sys2Proof/Laws/Exec.lean ====
section
/-! SUPPORT. `exec` of each instruction is its meaning, true by rfl: no later proof unfolds `exec`. -/

namespace Sys2Proof.Machine

@[simp] theorem exec_add (d a b w s) : exec (.add d a b w) s = execAdd d a b w s := rfl
@[simp] theorem exec_sub (d a b w s) : exec (.sub d a b w) s = execSub d a b w s := rfl
@[simp] theorem exec_and (d a b s) : exec (.and d a b) s = execAnd d a b s := rfl
@[simp] theorem exec_or (d a b s) : exec (.or d a b) s = execOr d a b s := rfl
@[simp] theorem exec_xor (d a b s) : exec (.xor d a b) s = execXor d a b s := rfl
@[simp] theorem exec_andn (d a b s) : exec (.andn d a b) s = execAndn d a b s := rfl
@[simp] theorem exec_sll (d a b w s) : exec (.sll d a b w) s = execSll d a b w s := rfl
@[simp] theorem exec_srl (d a b w s) : exec (.srl d a b w) s = execSrl d a b w s := rfl
@[simp] theorem exec_sra (d a b w s) : exec (.sra d a b w) s = execSra d a b w s := rfl
@[simp] theorem exec_slt (d a b s) : exec (.slt d a b) s = execSlt d a b s := rfl
@[simp] theorem exec_sltu (d a b s) : exec (.sltu d a b) s = execSltu d a b s := rfl
@[simp] theorem exec_min (d a b s) : exec (.min d a b) s = execMin d a b s := rfl
@[simp] theorem exec_max (d a b s) : exec (.max d a b) s = execMax d a b s := rfl
@[simp] theorem exec_minu (d a b s) : exec (.minu d a b) s = execMinu d a b s := rfl
@[simp] theorem exec_maxu (d a b s) : exec (.maxu d a b) s = execMaxu d a b s := rfl
@[simp] theorem exec_mul (d a b w s) : exec (.mul d a b w) s = execMul d a b w s := rfl
@[simp] theorem exec_mulh (d a b s) : exec (.mulh d a b) s = execMulh d a b s := rfl
@[simp] theorem exec_mulhu (d a b s) : exec (.mulhu d a b) s = execMulhu d a b s := rfl
@[simp] theorem exec_div (d a b w s) : exec (.div d a b w) s = execDiv d a b w s := rfl
@[simp] theorem exec_divu (d a b w s) : exec (.divu d a b w) s = execDivu d a b w s := rfl
@[simp] theorem exec_rem (d a b w s) : exec (.rem d a b w) s = execRem d a b w s := rfl
@[simp] theorem exec_remu (d a b w s) : exec (.remu d a b w) s = execRemu d a b w s := rfl
@[simp] theorem exec_clz (d a s) : exec (.clz d a) s = execClz d a s := rfl
@[simp] theorem exec_ctz (d a s) : exec (.ctz d a) s = execCtz d a s := rfl
@[simp] theorem exec_popc (d a s) : exec (.popc d a) s = execPopc d a s := rfl
@[simp] theorem exec_addi (d a imm s) : exec (.addi d a imm) s = execAddi d a imm s := rfl
@[simp] theorem exec_andi (d a imm s) : exec (.andi d a imm) s = execAndi d a imm s := rfl
@[simp] theorem exec_ori (d a imm s) : exec (.ori d a imm) s = execOri d a imm s := rfl
@[simp] theorem exec_xori (d a imm s) : exec (.xori d a imm) s = execXori d a imm s := rfl
@[simp] theorem exec_slti (d a imm s) : exec (.slti d a imm) s = execSlti d a imm s := rfl
@[simp] theorem exec_sltiu (d a imm s) : exec (.sltiu d a imm) s = execSltiu d a imm s := rfl
@[simp] theorem exec_slli (d a w sh s) : exec (.slli d a w sh) s = execSlli d a w sh s := rfl
@[simp] theorem exec_srli (d a w sh s) : exec (.srli d a w sh) s = execSrli d a w sh s := rfl
@[simp] theorem exec_srai (d a w sh s) : exec (.srai d a w sh) s = execSrai d a w sh s := rfl
@[simp] theorem exec_rori (d a w sh s) : exec (.rori d a w sh) s = execRori d a w sh s := rfl
@[simp] theorem exec_lui (d imm s) : exec (.lui d imm) s = execLui d imm s := rfl
@[simp] theorem exec_addpc (d imm s) : exec (.addpc d imm) s = execAddpc d imm s := rfl
@[simp] theorem exec_jal (d o s) : exec (.jal d o) s = execJal d o s := rfl
@[simp] theorem exec_jalr (d a imm s) : exec (.jalr d a imm) s = execJalr d a imm s := rfl
@[simp] theorem exec_beq (a b o s) : exec (.beq a b o) s = execBeq a b o s := rfl
@[simp] theorem exec_bne (a b o s) : exec (.bne a b o) s = execBne a b o s := rfl
@[simp] theorem exec_blt (a b o s) : exec (.blt a b o) s = execBlt a b o s := rfl
@[simp] theorem exec_bge (a b o s) : exec (.bge a b o) s = execBge a b o s := rfl
@[simp] theorem exec_bltu (a b o s) : exec (.bltu a b o) s = execBltu a b o s := rfl
@[simp] theorem exec_bgeu (a b o s) : exec (.bgeu a b o) s = execBgeu a b o s := rfl
@[simp] theorem exec_lb (d a p imm s) : exec (.lb d a p imm) s = execLb d a p imm s := rfl
@[simp] theorem exec_lbu (d a p imm s) : exec (.lbu d a p imm) s = execLbu d a p imm s := rfl
@[simp] theorem exec_lh (d a p imm s) : exec (.lh d a p imm) s = execLh d a p imm s := rfl
@[simp] theorem exec_lhu (d a p imm s) : exec (.lhu d a p imm) s = execLhu d a p imm s := rfl
@[simp] theorem exec_lw (d a p imm s) : exec (.lw d a p imm) s = execLw d a p imm s := rfl
@[simp] theorem exec_lwu (d a p imm s) : exec (.lwu d a p imm) s = execLwu d a p imm s := rfl
@[simp] theorem exec_ld (d a p imm s) : exec (.ld d a p imm) s = execLd d a p imm s := rfl
@[simp] theorem exec_sb (d a p imm s) : exec (.sb d a p imm) s = execSb d a p imm s := rfl
@[simp] theorem exec_sh (d a p imm s) : exec (.sh d a p imm) s = execSh d a p imm s := rfl
@[simp] theorem exec_sw (d a p imm s) : exec (.sw d a p imm) s = execSw d a p imm s := rfl
@[simp] theorem exec_sd (d a p imm s) : exec (.sd d a p imm) s = execSd d a p imm s := rfl
@[simp] theorem exec_amoswap (d a b sh l q f w s) :
    exec (.amoswap d a b sh l q f w) s = execAmoswap d a b sh l q f w s := rfl
@[simp] theorem exec_amoadd (d a b sh l q f w s) :
    exec (.amoadd d a b sh l q f w) s = execAmoadd d a b sh l q f w s := rfl
@[simp] theorem exec_amoand (d a b sh l q f w s) :
    exec (.amoand d a b sh l q f w) s = execAmoand d a b sh l q f w s := rfl
@[simp] theorem exec_amoor (d a b sh l q f w s) :
    exec (.amoor d a b sh l q f w) s = execAmoor d a b sh l q f w s := rfl
@[simp] theorem exec_amoxor (d a b sh l q f w s) :
    exec (.amoxor d a b sh l q f w) s = execAmoxor d a b sh l q f w s := rfl
@[simp] theorem exec_amomin (d a b sh l q f w s) :
    exec (.amomin d a b sh l q f w) s = execAmomin d a b sh l q f w s := rfl
@[simp] theorem exec_amomax (d a b sh l q f w s) :
    exec (.amomax d a b sh l q f w) s = execAmomax d a b sh l q f w s := rfl
@[simp] theorem exec_amominu (d a b sh l q f w s) :
    exec (.amominu d a b sh l q f w) s = execAmominu d a b sh l q f w s := rfl
@[simp] theorem exec_amomaxu (d a b sh l q f w s) :
    exec (.amomaxu d a b sh l q f w) s = execAmomaxu d a b sh l q f w s := rfl
@[simp] theorem exec_amocas (d a b sh l q f w s) :
    exec (.amocas d a b sh l q f w) s = execAmocas d a b sh l q f w s := rfl
@[simp] theorem exec_fence (l q sh t s) : exec (.fence l q sh t) s = execFence l q sh t s := rfl
@[simp] theorem exec_cinv (a imm s) : exec (.cinv a imm) s = execCinv a imm s := rfl
@[simp] theorem exec_cinvI (a imm s) : exec (.cinvI a imm) s = execCinvI a imm s := rfl
@[simp] theorem exec_cwb (a imm s) : exec (.cwb a imm) s = execCwb a imm s := rfl
@[simp] theorem exec_czero (a imm s) : exec (.czero a imm) s = execCzero a imm s := rfl
@[simp] theorem exec_pref (a p w imm s) : exec (.pref a p w imm) s = execPref a p w imm s := rfl
@[simp] theorem exec_csrr (d n s) : exec (.csrr d n) s = execCsrr d n s := rfl
@[simp] theorem exec_csrw (d a n s) : exec (.csrw d a n) s = execCsrw d a n s := rfl
@[simp] theorem exec_csrs (d a n s) : exec (.csrs d a n) s = execCsrs d a n s := rfl
@[simp] theorem exec_csrc (d a n s) : exec (.csrc d a n) s = execCsrc d a n s := rfl
@[simp] theorem exec_csrwi (d imm n s) : exec (.csrwi d imm n) s = execCsrwi d imm n s := rfl
@[simp] theorem exec_csrsi (d imm n s) : exec (.csrsi d imm n) s = execCsrsi d imm n s := rfl
@[simp] theorem exec_csrci (d imm n s) : exec (.csrci d imm n) s = execCsrci d imm n s := rfl
@[simp] theorem exec_ecall (s) : exec (.ecall) s = execEcall s := rfl
@[simp] theorem exec_ebreak (s) : exec (.ebreak) s = execEbreak s := rfl
@[simp] theorem exec_tret (s) : exec (.tret) s = execTret s := rfl
@[simp] theorem exec_wfi (s) : exec (.wfi) s = execWfi s := rfl
@[simp] theorem exec_sfence (a b s) : exec (.sfence a b) s = execSfence a b s := rfl
@[simp] theorem exec_yield (s) : exec (.yield) s = execYield s := rfl
@[simp] theorem exec_halt (s) : exec (.halt) s = execHalt s := rfl
@[simp] theorem exec_thaw (a s) : exec (.thaw a) s = execThaw a s := rfl
@[simp] theorem exec_ipop (d b s) : exec (.ipop d b) s = execIpop d b s := rfl
@[simp] theorem exec_ipopnb (d b s) : exec (.ipopnb d b) s = execIpopnb d b s := rfl
@[simp] theorem exec_wmbind (a b s) : exec (.wmbind a b) s = execWmbind a b s := rfl
@[simp] theorem exec_wmpub (a b s) : exec (.wmpub a b) s = execWmpub a b s := rfl
@[simp] theorem exec_wmread (d a s) : exec (.wmread d a) s = execWmread d a s := rfl
@[simp] theorem exec_pfx (v n p c s) : exec (.pfx v n p c) s = execPfx v n p c s := rfl
@[simp] theorem exec_vsetl (d a g e s) : exec (.vsetl d a g e) s = execVsetl d a g e s := rfl
@[simp] theorem exec_vadd (d a b x y k s) : exec (.vadd d a b x y k) s = execVadd d a b x y k s := rfl
@[simp] theorem exec_vsub (d a b x y k s) : exec (.vsub d a b x y k) s = execVsub d a b x y k s := rfl
@[simp] theorem exec_vand (d a b x y k s) : exec (.vand d a b x y k) s = execVand d a b x y k s := rfl
@[simp] theorem exec_vor (d a b x y k s) : exec (.vor d a b x y k) s = execVor d a b x y k s := rfl
@[simp] theorem exec_vxor (d a b x y k s) : exec (.vxor d a b x y k) s = execVxor d a b x y k s := rfl
@[simp] theorem exec_vandn (d a b x y k s) : exec (.vandn d a b x y k) s = execVandn d a b x y k s := rfl
@[simp] theorem exec_vsll (d a b x y k s) : exec (.vsll d a b x y k) s = execVsll d a b x y k s := rfl
@[simp] theorem exec_vsrl (d a b x y k s) : exec (.vsrl d a b x y k) s = execVsrl d a b x y k s := rfl
@[simp] theorem exec_vsra (d a b x y k s) : exec (.vsra d a b x y k) s = execVsra d a b x y k s := rfl
@[simp] theorem exec_vmin (d a b x y k s) : exec (.vmin d a b x y k) s = execVmin d a b x y k s := rfl
@[simp] theorem exec_vmax (d a b x y k s) : exec (.vmax d a b x y k) s = execVmax d a b x y k s := rfl
@[simp] theorem exec_vminu (d a b x y k s) : exec (.vminu d a b x y k) s = execVminu d a b x y k s := rfl
@[simp] theorem exec_vmaxu (d a b x y k s) : exec (.vmaxu d a b x y k) s = execVmaxu d a b x y k s := rfl
@[simp] theorem exec_vmul (d a b x y k s) : exec (.vmul d a b x y k) s = execVmul d a b x y k s := rfl
@[simp] theorem exec_vmulh (d a b x y k s) : exec (.vmulh d a b x y k) s = execVmulh d a b x y k s := rfl
@[simp] theorem exec_vmulhu (d a b x y k s) : exec (.vmulhu d a b x y k) s = execVmulhu d a b x y k s := rfl
@[simp] theorem exec_vdiv (d a b x y k s) : exec (.vdiv d a b x y k) s = execVdiv d a b x y k s := rfl
@[simp] theorem exec_vdivu (d a b x y k s) : exec (.vdivu d a b x y k) s = execVdivu d a b x y k s := rfl
@[simp] theorem exec_vrem (d a b x y k s) : exec (.vrem d a b x y k) s = execVrem d a b x y k s := rfl
@[simp] theorem exec_vremu (d a b x y k s) : exec (.vremu d a b x y k) s = execVremu d a b x y k s := rfl
@[simp] theorem exec_vmacc (d a b x y k s) : exec (.vmacc d a b x y k) s = execVmacc d a b x y k s := rfl
@[simp] theorem exec_vsadd (d a b x y k s) : exec (.vsadd d a b x y k) s = execVsadd d a b x y k s := rfl
@[simp] theorem exec_vsaddu (d a b x y k s) : exec (.vsaddu d a b x y k) s = execVsaddu d a b x y k s := rfl
@[simp] theorem exec_vssub (d a b x y k s) : exec (.vssub d a b x y k) s = execVssub d a b x y k s := rfl
@[simp] theorem exec_vssubu (d a b x y k s) : exec (.vssubu d a b x y k) s = execVssubu d a b x y k s := rfl
@[simp] theorem exec_vabsd (d a b x y k s) : exec (.vabsd d a b x y k) s = execVabsd d a b x y k s := rfl
@[simp] theorem exec_vclz (d a x k s) : exec (.vclz d a x k) s = execVclz d a x k s := rfl
@[simp] theorem exec_vctz (d a x k s) : exec (.vctz d a x k) s = execVctz d a x k s := rfl
@[simp] theorem exec_vpopc (d a x k s) : exec (.vpopc d a x k) s = execVpopc d a x k s := rfl
@[simp] theorem exec_vmv (d a x k s) : exec (.vmv d a x k) s = execVmv d a x k s := rfl
@[simp] theorem exec_vaddX (d a b x k s) : exec (.vaddX d a b x k) s = execVaddX d a b x k s := rfl
@[simp] theorem exec_vsubX (d a b x k s) : exec (.vsubX d a b x k) s = execVsubX d a b x k s := rfl
@[simp] theorem exec_vandX (d a b x k s) : exec (.vandX d a b x k) s = execVandX d a b x k s := rfl
@[simp] theorem exec_vorX (d a b x k s) : exec (.vorX d a b x k) s = execVorX d a b x k s := rfl
@[simp] theorem exec_vxorX (d a b x k s) : exec (.vxorX d a b x k) s = execVxorX d a b x k s := rfl
@[simp] theorem exec_vandnX (d a b x k s) : exec (.vandnX d a b x k) s = execVandnX d a b x k s := rfl
@[simp] theorem exec_vsllX (d a b x k s) : exec (.vsllX d a b x k) s = execVsllX d a b x k s := rfl
@[simp] theorem exec_vsrlX (d a b x k s) : exec (.vsrlX d a b x k) s = execVsrlX d a b x k s := rfl
@[simp] theorem exec_vsraX (d a b x k s) : exec (.vsraX d a b x k) s = execVsraX d a b x k s := rfl
@[simp] theorem exec_vminX (d a b x k s) : exec (.vminX d a b x k) s = execVminX d a b x k s := rfl
@[simp] theorem exec_vmaxX (d a b x k s) : exec (.vmaxX d a b x k) s = execVmaxX d a b x k s := rfl
@[simp] theorem exec_vminuX (d a b x k s) : exec (.vminuX d a b x k) s = execVminuX d a b x k s := rfl
@[simp] theorem exec_vmaxuX (d a b x k s) : exec (.vmaxuX d a b x k) s = execVmaxuX d a b x k s := rfl
@[simp] theorem exec_vmulX (d a b x k s) : exec (.vmulX d a b x k) s = execVmulX d a b x k s := rfl
@[simp] theorem exec_vmulhX (d a b x k s) : exec (.vmulhX d a b x k) s = execVmulhX d a b x k s := rfl
@[simp] theorem exec_vmulhuX (d a b x k s) : exec (.vmulhuX d a b x k) s = execVmulhuX d a b x k s := rfl
@[simp] theorem exec_vdivX (d a b x k s) : exec (.vdivX d a b x k) s = execVdivX d a b x k s := rfl
@[simp] theorem exec_vdivuX (d a b x k s) : exec (.vdivuX d a b x k) s = execVdivuX d a b x k s := rfl
@[simp] theorem exec_vremX (d a b x k s) : exec (.vremX d a b x k) s = execVremX d a b x k s := rfl
@[simp] theorem exec_vremuX (d a b x k s) : exec (.vremuX d a b x k) s = execVremuX d a b x k s := rfl
@[simp] theorem exec_vmaccX (d a b x k s) : exec (.vmaccX d a b x k) s = execVmaccX d a b x k s := rfl
@[simp] theorem exec_vsaddX (d a b x k s) : exec (.vsaddX d a b x k) s = execVsaddX d a b x k s := rfl
@[simp] theorem exec_vsadduX (d a b x k s) : exec (.vsadduX d a b x k) s = execVsadduX d a b x k s := rfl
@[simp] theorem exec_vssubX (d a b x k s) : exec (.vssubX d a b x k) s = execVssubX d a b x k s := rfl
@[simp] theorem exec_vssubuX (d a b x k s) : exec (.vssubuX d a b x k) s = execVssubuX d a b x k s := rfl
@[simp] theorem exec_vabsdX (d a b x k s) : exec (.vabsdX d a b x k) s = execVabsdX d a b x k s := rfl
@[simp] theorem exec_vmvX (d b k s) : exec (.vmvX d b k) s = execVmvX d b k s := rfl
@[simp] theorem exec_vfadd (d a b x y k s) : exec (.vfadd d a b x y k) s = execVfadd d a b x y k s := rfl
@[simp] theorem exec_vfsub (d a b x y k s) : exec (.vfsub d a b x y k) s = execVfsub d a b x y k s := rfl
@[simp] theorem exec_vfmul (d a b x y k s) : exec (.vfmul d a b x y k) s = execVfmul d a b x y k s := rfl
@[simp] theorem exec_vfdiv (d a b x y k s) : exec (.vfdiv d a b x y k) s = execVfdiv d a b x y k s := rfl
@[simp] theorem exec_vfmin (d a b x y k s) : exec (.vfmin d a b x y k) s = execVfmin d a b x y k s := rfl
@[simp] theorem exec_vfmax (d a b x y k s) : exec (.vfmax d a b x y k) s = execVfmax d a b x y k s := rfl
@[simp] theorem exec_vfmadd (d a b x y k s) : exec (.vfmadd d a b x y k) s = execVfmadd d a b x y k s := rfl
@[simp] theorem exec_vfmsub (d a b x y k s) : exec (.vfmsub d a b x y k) s = execVfmsub d a b x y k s := rfl
@[simp] theorem exec_vfnmadd (d a b x y k s) : exec (.vfnmadd d a b x y k) s = execVfnmadd d a b x y k s := rfl
@[simp] theorem exec_vfnmsub (d a b x y k s) : exec (.vfnmsub d a b x y k) s = execVfnmsub d a b x y k s := rfl
@[simp] theorem exec_vfsgnj (d a b x y k s) : exec (.vfsgnj d a b x y k) s = execVfsgnj d a b x y k s := rfl
@[simp] theorem exec_vfsgnjn (d a b x y k s) : exec (.vfsgnjn d a b x y k) s = execVfsgnjn d a b x y k s := rfl
@[simp] theorem exec_vfsqrt (d a x k s) : exec (.vfsqrt d a x k) s = execVfsqrt d a x k s := rfl
@[simp] theorem exec_vfrcp (d a x k s) : exec (.vfrcp d a x k) s = execVfrcp d a x k s := rfl
@[simp] theorem exec_vfrsq (d a x k s) : exec (.vfrsq d a x k) s = execVfrsq d a x k s := rfl
@[simp] theorem exec_vfexp2 (d a x k s) : exec (.vfexp2 d a x k) s = execVfexp2 d a x k s := rfl
@[simp] theorem exec_vflog2 (d a x k s) : exec (.vflog2 d a x k) s = execVflog2 d a x k s := rfl
@[simp] theorem exec_vfsin (d a x k s) : exec (.vfsin d a x k) s = execVfsin d a x k s := rfl
@[simp] theorem exec_vfcos (d a x k s) : exec (.vfcos d a x k) s = execVfcos d a x k s := rfl
@[simp] theorem exec_vfabs (d a x k s) : exec (.vfabs d a x k) s = execVfabs d a x k s := rfl
@[simp] theorem exec_vfneg (d a x k s) : exec (.vfneg d a x k) s = execVfneg d a x k s := rfl
@[simp] theorem exec_vfclass (d a x k s) : exec (.vfclass d a x k) s = execVfclass d a x k s := rfl
@[simp] theorem exec_vfaddX (d a b x k s) : exec (.vfaddX d a b x k) s = execVfaddX d a b x k s := rfl
@[simp] theorem exec_vfsubX (d a b x k s) : exec (.vfsubX d a b x k) s = execVfsubX d a b x k s := rfl
@[simp] theorem exec_vfmulX (d a b x k s) : exec (.vfmulX d a b x k) s = execVfmulX d a b x k s := rfl
@[simp] theorem exec_vfdivX (d a b x k s) : exec (.vfdivX d a b x k) s = execVfdivX d a b x k s := rfl
@[simp] theorem exec_vfminX (d a b x k s) : exec (.vfminX d a b x k) s = execVfminX d a b x k s := rfl
@[simp] theorem exec_vfmaxX (d a b x k s) : exec (.vfmaxX d a b x k) s = execVfmaxX d a b x k s := rfl
@[simp] theorem exec_vfmaddX (d a b x k s) : exec (.vfmaddX d a b x k) s = execVfmaddX d a b x k s := rfl
@[simp] theorem exec_vfmsubX (d a b x k s) : exec (.vfmsubX d a b x k) s = execVfmsubX d a b x k s := rfl
@[simp] theorem exec_vfnmaddX (d a b x k s) : exec (.vfnmaddX d a b x k) s = execVfnmaddX d a b x k s := rfl
@[simp] theorem exec_vfnmsubX (d a b x k s) : exec (.vfnmsubX d a b x k) s = execVfnmsubX d a b x k s := rfl
@[simp] theorem exec_vfsgnjX (d a b x k s) : exec (.vfsgnjX d a b x k) s = execVfsgnjX d a b x k s := rfl
@[simp] theorem exec_vfsgnjnX (d a b x k s) : exec (.vfsgnjnX d a b x k) s = execVfsgnjnX d a b x k s := rfl
@[simp] theorem exec_vseq (d a b x y k z s) : exec (.vseq d a b x y k z) s = execVseq d a b x y k z s := rfl
@[simp] theorem exec_vsne (d a b x y k z s) : exec (.vsne d a b x y k z) s = execVsne d a b x y k z s := rfl
@[simp] theorem exec_vslt (d a b x y k z s) : exec (.vslt d a b x y k z) s = execVslt d a b x y k z s := rfl
@[simp] theorem exec_vsltu (d a b x y k z s) : exec (.vsltu d a b x y k z) s = execVsltu d a b x y k z s := rfl
@[simp] theorem exec_vsle (d a b x y k z s) : exec (.vsle d a b x y k z) s = execVsle d a b x y k z s := rfl
@[simp] theorem exec_vsleu (d a b x y k z s) : exec (.vsleu d a b x y k z) s = execVsleu d a b x y k z s := rfl
@[simp] theorem exec_vsgt (d a b x y k z s) : exec (.vsgt d a b x y k z) s = execVsgt d a b x y k z s := rfl
@[simp] theorem exec_vsgtu (d a b x y k z s) : exec (.vsgtu d a b x y k z) s = execVsgtu d a b x y k z s := rfl
@[simp] theorem exec_vfeq (d a b x y k z s) : exec (.vfeq d a b x y k z) s = execVfeq d a b x y k z s := rfl
@[simp] theorem exec_vfne (d a b x y k z s) : exec (.vfne d a b x y k z) s = execVfne d a b x y k z s := rfl
@[simp] theorem exec_vflt (d a b x y k z s) : exec (.vflt d a b x y k z) s = execVflt d a b x y k z s := rfl
@[simp] theorem exec_vfle (d a b x y k z s) : exec (.vfle d a b x y k z) s = execVfle d a b x y k z s := rfl
@[simp] theorem exec_vfunord (d a b x y k z s) : exec (.vfunord d a b x y k z) s = execVfunord d a b x y k z s := rfl
@[simp] theorem exec_kand (d a b k s) : exec (.kand d a b k) s = execKand d a b k s := rfl
@[simp] theorem exec_kor (d a b k s) : exec (.kor d a b k) s = execKor d a b k s := rfl
@[simp] theorem exec_kxor (d a b k s) : exec (.kxor d a b k) s = execKxor d a b k s := rfl
@[simp] theorem exec_kandn (d a b k s) : exec (.kandn d a b k) s = execKandn d a b k s := rfl
@[simp] theorem exec_knot (d a k s) : exec (.knot d a k) s = execKnot d a k s := rfl
@[simp] theorem exec_kmov (d a k s) : exec (.kmov d a k) s = execKmov d a k s := rfl
@[simp] theorem exec_kset (d k s) : exec (.kset d k) s = execKset d k s := rfl
@[simp] theorem exec_kclr (d k s) : exec (.kclr d k) s = execKclr d k s := rfl
@[simp] theorem exec_kpopc (d a k s) : exec (.kpopc d a k) s = execKpopc d a k s := rfl
@[simp] theorem exec_kfirst (d a k s) : exec (.kfirst d a k) s = execKfirst d a k s := rfl
@[simp] theorem exec_ksbf (d a k s) : exec (.ksbf d a k) s = execKsbf d a k s := rfl
@[simp] theorem exec_ksif (d a k s) : exec (.ksif d a k) s = execKsif d a k s := rfl
@[simp] theorem exec_ksof (d a k s) : exec (.ksof d a k) s = execKsof d a k s := rfl
@[simp] theorem exec_pushm (k s) : exec (.pushm k) s = execPushm k s := rfl
@[simp] theorem exec_elsem (k s) : exec (.elsem k) s = execElsem k s := rfl
@[simp] theorem exec_popm (s) : exec (.popm) s = execPopm s := rfl
@[simp] theorem exec_kbreak (k s) : exec (.kbreak k) s = execKbreak k s := rfl
@[simp] theorem exec_region (k o s) : exec (.region k o) s = execRegion k o s := rfl
@[simp] theorem exec_vgather (d a b x y k s) : exec (.vgather d a b x y k) s = execVgather d a b x y k s := rfl
@[simp] theorem exec_vslideup (d a b x k s) : exec (.vslideup d a b x k) s = execVslideup d a b x k s := rfl
@[simp] theorem exec_vslidedn (d a b x k s) : exec (.vslidedn d a b x k) s = execVslidedn d a b x k s := rfl
@[simp] theorem exec_vslide1up (d a b x k s) : exec (.vslide1up d a b x k) s = execVslide1up d a b x k s := rfl
@[simp] theorem exec_vslide1dn (d a b x k s) : exec (.vslide1dn d a b x k) s = execVslide1dn d a b x k s := rfl
@[simp] theorem exec_vcompress (d a x k s) : exec (.vcompress d a x k) s = execVcompress d a x k s := rfl
@[simp] theorem exec_vexpand (d a x k s) : exec (.vexpand d a x k) s = execVexpand d a x k s := rfl
@[simp] theorem exec_viota (d k s) : exec (.viota d k) s = execViota d k s := rfl
@[simp] theorem exec_vbcast (d a b x k s) : exec (.vbcast d a b x k) s = execVbcast d a b x k s := rfl
@[simp] theorem exec_vext (d a b x s) : exec (.vext d a b x) s = execVext d a b x s := rfl
@[simp] theorem exec_vins (d a b k s) : exec (.vins d a b k) s = execVins d a b k s := rfl
@[simp] theorem exec_vconflict (d a x k s) : exec (.vconflict d a x k) s = execVconflict d a x k s := rfl
@[simp] theorem exec_vredSum (d a b x y k s) : exec (.vredSum d a b x y k) s = execVredSum d a b x y k s := rfl
@[simp] theorem exec_vredMin (d a b x y k s) : exec (.vredMin d a b x y k) s = execVredMin d a b x y k s := rfl
@[simp] theorem exec_vredMax (d a b x y k s) : exec (.vredMax d a b x y k) s = execVredMax d a b x y k s := rfl
@[simp] theorem exec_vredMinu (d a b x y k s) : exec (.vredMinu d a b x y k) s = execVredMinu d a b x y k s := rfl
@[simp] theorem exec_vredMaxu (d a b x y k s) : exec (.vredMaxu d a b x y k) s = execVredMaxu d a b x y k s := rfl
@[simp] theorem exec_vredAnd (d a b x y k s) : exec (.vredAnd d a b x y k) s = execVredAnd d a b x y k s := rfl
@[simp] theorem exec_vredOr (d a b x y k s) : exec (.vredOr d a b x y k) s = execVredOr d a b x y k s := rfl
@[simp] theorem exec_vredXor (d a b x y k s) : exec (.vredXor d a b x y k) s = execVredXor d a b x y k s := rfl
@[simp] theorem exec_vredFsum (d a b x y k s) : exec (.vredFsum d a b x y k) s = execVredFsum d a b x y k s := rfl
@[simp] theorem exec_vredFmin (d a b x y k s) : exec (.vredFmin d a b x y k) s = execVredFmin d a b x y k s := rfl
@[simp] theorem exec_vredFmax (d a b x y k s) : exec (.vredFmax d a b x y k) s = execVredFmax d a b x y k s := rfl
@[simp] theorem exec_vscanSum (d a x k s) : exec (.vscanSum d a x k) s = execVscanSum d a x k s := rfl
@[simp] theorem exec_vscanFsum (d a x k s) : exec (.vscanFsum d a x k) s = execVscanFsum d a x k s := rfl
@[simp] theorem exec_vcvt (d a x k u t s) : exec (.vcvt d a x k u t) s = execVcvt d a x k u t s := rfl
@[simp] theorem exec_vldUnit (d a k p w s) : exec (.vldUnit d a k p w) s = execVldUnit d a k p w s := rfl
@[simp] theorem exec_vldStrided (d a b k p w s) :
    exec (.vldStrided d a b k p w) s = execVldStrided d a b k p w s := rfl
@[simp] theorem exec_vldIndexed (d a b y k p w s) :
    exec (.vldIndexed d a b y k p w) s = execVldIndexed d a b y k p w s := rfl
@[simp] theorem exec_vldSegment (d a f k p w s) :
    exec (.vldSegment d a f k p w) s = execVldSegment d a f k p w s := rfl
@[simp] theorem exec_vstUnit (d a k p w s) : exec (.vstUnit d a k p w) s = execVstUnit d a k p w s := rfl
@[simp] theorem exec_vstStrided (d a b k p w s) :
    exec (.vstStrided d a b k p w) s = execVstStrided d a b k p w s := rfl
@[simp] theorem exec_vstIndexed (d a b y k p w s) :
    exec (.vstIndexed d a b y k p w) s = execVstIndexed d a b y k p w s := rfl
@[simp] theorem exec_vstSegment (d a f k p w s) :
    exec (.vstSegment d a f k p w) s = execVstSegment d a f k p w s := rfl
@[simp] theorem exec_vldff (d a k p w s) : exec (.vldff d a k p w) s = execVldff d a k p w s := rfl
@[simp] theorem exec_vldw (d a p s) : exec (.vldw d a p) s = execVldw d a p s := rfl
@[simp] theorem exec_vstw (d a p s) : exec (.vstw d a p) s = execVstw d a p s := rfl
@[simp] theorem exec_vldslide (d a b k p w s) : exec (.vldslide d a b k p w) s = execVldslide d a b k p w s := rfl
@[simp] theorem exec_vamoswap (d a b y k s) : exec (.vamoswap d a b y k) s = execVamoswap d a b y k s := rfl
@[simp] theorem exec_vamoadd (d a b y k s) : exec (.vamoadd d a b y k) s = execVamoadd d a b y k s := rfl
@[simp] theorem exec_vamoand (d a b y k s) : exec (.vamoand d a b y k) s = execVamoand d a b y k s := rfl
@[simp] theorem exec_vamoor (d a b y k s) : exec (.vamoor d a b y k) s = execVamoor d a b y k s := rfl
@[simp] theorem exec_vamoxor (d a b y k s) : exec (.vamoxor d a b y k) s = execVamoxor d a b y k s := rfl
@[simp] theorem exec_vamomin (d a b y k s) : exec (.vamomin d a b y k) s = execVamomin d a b y k s := rfl
@[simp] theorem exec_vamomax (d a b y k s) : exec (.vamomax d a b y k) s = execVamomax d a b y k s := rfl
@[simp] theorem exec_vamominu (d a b y k s) : exec (.vamominu d a b y k) s = execVamominu d a b y k s := rfl
@[simp] theorem exec_vamomaxu (d a b y k s) : exec (.vamomaxu d a b y k) s = execVamomaxu d a b y k s := rfl
@[simp] theorem exec_vamocas (d a b y k s) : exec (.vamocas d a b y k) s = execVamocas d a b y k s := rfl
@[simp] theorem exec_yattach (a s) : exec (.yattach a) s = execYattach a s := rfl
@[simp] theorem exec_ydetach (s) : exec (.ydetach) s = execYdetach s := rfl
@[simp] theorem exec_yzero (a s) : exec (.yzero a) s = execYzero a s := rfl
@[simp] theorem exec_yldb (a b s) : exec (.yldb a b) s = execYldb a b s := rfl
@[simp] theorem exec_ymma (a b s) : exec (.ymma a b) s = execYmma a b s := rfl
@[simp] theorem exec_yrot (s) : exec (.yrot) s = execYrot s := rfl
@[simp] theorem exec_ydrain (d a t s) : exec (.ydrain d a t) s = execYdrain d a t s := rfl
@[simp] theorem exec_ywait (s) : exec (.ywait) s = execYwait s := rfl
@[simp] theorem exec_sbind (d a sh s) : exec (.sbind d a sh) s = execSbind d a sh s := rfl
@[simp] theorem exec_sunbind (sh s) : exec (.sunbind sh) s = execSunbind sh s := rfl
@[simp] theorem exec_scopy (d a s) : exec (.scopy d a) s = execScopy d a s := rfl
@[simp] theorem exec_savail (d sh s) : exec (.savail d sh) s = execSavail d sh s := rfl
@[simp] theorem exec_xall (d a s) : exec (.xall d a) s = execXall d a s := rfl
@[simp] theorem exec_xred (d a s) : exec (.xred d a) s = execXred d a s := rfl
@[simp] theorem exec_tex (d a b x k s) : exec (.tex d a b x k) s = execTex d a b x k s := rfl
@[simp] theorem exec_span (d s) : exec (.span d) s = execSpan d s := rfl
@[simp] theorem exec_blend (d a b x k s) : exec (.blend d a b x k) s = execBlend d a b x k s := rfl
@[simp] theorem exec_hizq (d a b x k s) : exec (.hizq d a b x k) s = execHizq d a b x k s := rfl
@[simp] theorem exec_gbox (d a b x y k s) : exec (.gbox d a b x y k) s = execGbox d a b x y k s := rfl
@[simp] theorem exec_gtri (d a b x y k s) : exec (.gtri d a b x y k) s = execGtri d a b x y k s := rfl
@[simp] theorem exec_gwalk (d a b x k s) : exec (.gwalk d a b x k) s = execGwalk d a b x k s := rfl
@[simp] theorem exec_ghit (d a b x k s) : exec (.ghit d a b x k) s = execGhit d a b x k s := rfl
@[simp] theorem exec_vmarch (d a b x k s) : exec (.vmarch d a b x k) s = execVmarch d a b x k s := rfl
@[simp] theorem exec_vrand (d a b x k s) : exec (.vrand d a b x k) s = execVrand d a b x k s := rfl
@[simp] theorem exec_vectorStart (h s) : exec (.vectorStart h) s = execVectorStart h s := rfl
@[simp] theorem exec_loadDataReturn (h s) : exec (.loadDataReturn h) s = execLoadDataReturn h s := rfl
@[simp] theorem exec_wfiWake (h s) : exec (.wfiWake h) s = execWfiWake h s := rfl
@[simp] theorem exec_interrupt (h s) : exec (.interrupt h) s = execInterrupt h s := rfl
@[simp] theorem exec_faultRecordWrite (s) : exec (.faultRecordWrite) s = execFaultRecordWrite s := rfl
@[simp] theorem exec_frespReplay (token s) : exec (.frespReplay token) s = execFrespReplay token s := rfl
@[simp] theorem exec_frespToSupervisor (token s) :
    exec (.frespToSupervisor token) s = execFrespToSupervisor token s := rfl
@[simp] theorem exec_frespEndLaunch (token s) : exec (.frespEndLaunch token) s = execFrespEndLaunch token s := rfl
@[simp] theorem exec_faultServiceTimeout (token s) :
    exec (.faultServiceTimeout token) s = execFaultServiceTimeout token s := rfl
@[simp] theorem exec_watchdogExpire (h s) : exec (.watchdogExpire h) s = execWatchdogExpire h s := rfl
@[simp] theorem exec_homeSelfFill (core addr s) :
    exec (.homeSelfFill core addr) s = execHomeSelfFill core addr s := rfl
@[simp] theorem exec_homeTrkLoad (core addr s) : exec (.homeTrkLoad core addr) s = execHomeTrkLoad core addr s := rfl
@[simp] theorem exec_homeOwnership (core addr s) :
    exec (.homeOwnership core addr) s = execHomeOwnership core addr s := rfl
@[simp] theorem exec_homeThruLoad (core addr s) :
    exec (.homeThruLoad core addr) s = execHomeThruLoad core addr s := rfl
@[simp] theorem exec_homeTrkStore (core addr mask data s) :
    exec (.homeTrkStore core addr mask data) s = execHomeTrkStore core addr mask data s := rfl
@[simp] theorem exec_homeThruStore (core addr mask data s) :
    exec (.homeThruStore core addr mask data) s = execHomeThruStore core addr mask data s := rfl
@[simp] theorem exec_homeDrain (core addr s) : exec (.homeDrain core addr) s = execHomeDrain core addr s := rfl
@[simp] theorem exec_homeFarOperation (core addr op wide b cmp s) :
    exec (.homeFarOperation core addr op wide b cmp) s = execHomeFarOperation core addr op wide b cmp s := rfl
@[simp] theorem exec_homeWritebackCwb (core addr s) :
    exec (.homeWritebackCwb core addr) s = execHomeWritebackCwb core addr s := rfl
@[simp] theorem exec_homeEvictNotice (core addr s) :
    exec (.homeEvictNotice core addr) s = execHomeEvictNotice core addr s := rfl
@[simp] theorem exec_homeWritebackEvict (core addr s) :
    exec (.homeWritebackEvict core addr) s = execHomeWritebackEvict core addr s := rfl
@[simp] theorem exec_homeAcknowledgement (core addr s) :
    exec (.homeAcknowledgement core addr) s = execHomeAcknowledgement core addr s := rfl
@[simp] theorem exec_l1Invalidation (core addr s) :
    exec (.l1Invalidation core addr) s = execL1Invalidation core addr s := rfl
@[simp] theorem exec_l1Update (core addr s) : exec (.l1Update core addr) s = execL1Update core addr s := rfl
@[simp] theorem exec_l1Recall (core addr s) : exec (.l1Recall core addr) s = execL1Recall core addr s := rfl
@[simp] theorem exec_l1Fetch (core addr s) : exec (.l1Fetch core addr) s = execL1Fetch core addr s := rfl
@[simp] theorem exec_coreAckReceive (core addr s) :
    exec (.coreAckReceive core addr) s = execCoreAckReceive core addr s := rfl
@[simp] theorem exec_selfDrainTimeout (core addr s) :
    exec (.selfDrainTimeout core addr) s = execSelfDrainTimeout core addr s := rfl
@[simp] theorem exec_migrationEntryUpdate (gran die s) :
    exec (.migrationEntryUpdate gran die) s = execMigrationEntryUpdate gran die s := rfl
@[simp] theorem exec_migrationForwardComplete (gran s) :
    exec (.migrationForwardComplete gran) s = execMigrationForwardComplete gran s := rfl
@[simp] theorem exec_epochRollover (s) : exec (.epochRollover) s = execEpochRollover s := rfl
@[simp] theorem exec_pageRetire (addr s) : exec (.pageRetire addr) s = execPageRetire addr s := rfl
@[simp] theorem exec_pageWalk (h va s) : exec (.pageWalk h va) s = execPageWalk h va s := rfl
@[simp] theorem exec_pteMovingReread (h s) : exec (.pteMovingReread h) s = execPteMovingReread h s := rfl
@[simp] theorem exec_fenceEntryWrite (n reg v s) :
    exec (.fenceEntryWrite n reg v) s = execFenceEntryWrite n reg v s := rfl
@[simp] theorem exec_mlanemapWrite (n v s) : exec (.mlanemapWrite n v) s = execMlanemapWrite n v s := rfl
@[simp] theorem exec_laneMapTakeup (core s) : exec (.laneMapTakeup core) s = execLaneMapTakeup core s := rfl
@[simp] theorem exec_mhbeatWrite (n v s) : exec (.mhbeatWrite n v) s = execMhbeatWrite n v s := rfl
@[simp] theorem exec_mantleSilentReport (n s) : exec (.mantleSilentReport n) s = execMantleSilentReport n s := rfl
@[simp] theorem exec_fwquiQuiesce (s) : exec (.fwquiQuiesce) s = execFwquiQuiesce s := rfl
@[simp] theorem exec_fwquiResume (s) : exec (.fwquiResume) s = execFwquiResume s := rfl
@[simp] theorem exec_mantlePacketBoundaryStop (n s) :
    exec (.mantlePacketBoundaryStop n) s = execMantlePacketBoundaryStop n s := rfl
@[simp] theorem exec_fwcmdInstall (s) : exec (.fwcmdInstall) s = execFwcmdInstall s := rfl
@[simp] theorem exec_installComplete (s) : exec (.installComplete) s = execInstallComplete s := rfl
@[simp] theorem exec_fwcmdMeasure (s) : exec (.fwcmdMeasure) s = execFwcmdMeasure s := rfl
@[simp] theorem exec_measureComplete (s) : exec (.measureComplete) s = execMeasureComplete s := rfl
@[simp] theorem exec_fwcmdSwitch (s) : exec (.fwcmdSwitch) s = execFwcmdSwitch s := rfl
@[simp] theorem exec_fwcmdIgnored (v s) : exec (.fwcmdIgnored v) s = execFwcmdIgnored v s := rfl
@[simp] theorem exec_fwstatOoClear (s) : exec (.fwstatOoClear) s = execFwstatOoClear s := rfl
@[simp] theorem exec_heartbeatWindowExpire (s) : exec (.heartbeatWindowExpire) s = execHeartbeatWindowExpire s := rfl
@[simp] theorem exec_qnotify (q v s) : exec (.qnotify q v) s = execQnotify q v s := rfl
@[simp] theorem exec_qctlEnable (q v s) : exec (.qctlEnable q v) s = execQctlEnable q v s := rfl
@[simp] theorem exec_qctlDisable (q v s) : exec (.qctlDisable q v) s = execQctlDisable q v s := rfl
@[simp] theorem exec_launch (q ctxid part s) : exec (.launch q ctxid part) s = execLaunch q ctxid part s := rfl
@[simp] theorem exec_launchComplete (l s) : exec (.launchComplete l) s = execLaunchComplete l s := rfl
@[simp] theorem exec_wait (q s) : exec (.wait q) s = execWait q s := rfl
@[simp] theorem exec_waitComplete (q s) : exec (.waitComplete q) s = execWaitComplete q s := rfl
@[simp] theorem exec_signal (q s) : exec (.signal q) s = execSignal q s := rfl
@[simp] theorem exec_draw (q ctxid part s) : exec (.draw q ctxid part) s = execDraw q ctxid part s := rfl
@[simp] theorem exec_drawComplete (l s) : exec (.drawComplete l) s = execDrawComplete l s := rfl
@[simp] theorem exec_debugHalt (q s) : exec (.debugHalt q) s = execDebugHalt q s := rfl
@[simp] theorem exec_debugInspect (q s) : exec (.debugInspect q) s = execDebugInspect q s := rfl
@[simp] theorem exec_debugResume (q s) : exec (.debugResume q) s = execDebugResume q s := rfl
@[simp] theorem exec_traceOn (q s) : exec (.traceOn q) s = execTraceOn q s := rfl
@[simp] theorem exec_traceOff (q s) : exec (.traceOff q) s = execTraceOff q s := rfl
@[simp] theorem exec_sample (q s) : exec (.sample q) s = execSample q s := rfl
@[simp] theorem exec_stripBreakpoint (q s) : exec (.stripBreakpoint q) s = execStripBreakpoint q s := rfl
@[simp] theorem exec_clearBreakpoint (q s) : exec (.clearBreakpoint q) s = execClearBreakpoint q s := rfl
@[simp] theorem exec_debugStripStop (h s) : exec (.debugStripStop h) s = execDebugStripStop h s := rfl
@[simp] theorem exec_debugHaltTimeout (h s) : exec (.debugHaltTimeout h) s = execDebugHaltTimeout h s := rfl
@[simp] theorem exec_traceSampleTick (h s) : exec (.traceSampleTick h) s = execTraceSampleTick h s := rfl
@[simp] theorem exec_schedulerTick (s) : exec (.schedulerTick) s = execSchedulerTick s := rfl
@[simp] theorem exec_mantleDecision (s) : exec (.mantleDecision) s = execMantleDecision s := rfl
@[simp] theorem exec_levelAging (l s) : exec (.levelAging l) s = execLevelAging l s := rfl
@[simp] theorem exec_contextSave (l s) : exec (.contextSave l) s = execContextSave l s := rfl
@[simp] theorem exec_watermarkStallEnd (h s) : exec (.watermarkStallEnd h) s = execWatermarkStallEnd h s := rfl
@[simp] theorem exec_streamPrefetch (h slot s) : exec (.streamPrefetch h slot) s = execStreamPrefetch h slot s := rfl
@[simp] theorem exec_scopyComplete (h imm s) : exec (.scopyComplete h imm) s = execScopyComplete h imm s := rfl
@[simp] theorem exec_sunbindWriteComplete (h slot s) :
    exec (.sunbindWriteComplete h slot) s = execSunbindWriteComplete h slot s := rfl
@[simp] theorem exec_xallArrivalAdd (h imm j s) :
    exec (.xallArrivalAdd h imm j) s = execXallArrivalAdd h imm j s := rfl
@[simp] theorem exec_xallComplete (h imm s) : exec (.xallComplete h imm) s = execXallComplete h imm s := rfl
@[simp] theorem exec_xredChunkArrive (h imm k s) :
    exec (.xredChunkArrive h imm k) s = execXredChunkArrive h imm k s := rfl
@[simp] theorem exec_xredChunkResend (h imm k s) :
    exec (.xredChunkResend h imm k) s = execXredChunkResend h imm k s := rfl
@[simp] theorem exec_xredBusyTimeout (h imm s) : exec (.xredBusyTimeout h imm) s = execXredBusyTimeout h imm s := rfl
@[simp] theorem exec_xredComplete (h imm s) : exec (.xredComplete h imm) s = execXredComplete h imm s := rfl
@[simp] theorem exec_yokeRendezvous (quad s) : exec (.yokeRendezvous quad) s = execYokeRendezvous quad s := rfl
@[simp] theorem exec_latchSwap (quad s) : exec (.latchSwap quad) s = execLatchSwap quad s := rfl
@[simp] theorem exec_yokeOpComplete (h s) : exec (.yokeOpComplete h) s = execYokeOpComplete h s := rfl
@[simp] theorem exec_meshletDispatch (l s) : exec (.meshletDispatch l) s = execMeshletDispatch l s := rfl
@[simp] theorem exec_sashNotify (h cluster s) : exec (.sashNotify h cluster) s = execSashNotify h cluster s := rfl
@[simp] theorem exec_sashSetup (cluster s) : exec (.sashSetup cluster) s = execSashSetup cluster s := rfl
@[simp] theorem exec_spanEmit (cluster s) : exec (.spanEmit cluster) s = execSpanEmit cluster s := rfl
@[simp] theorem exec_hemRelease (l px py s) : exec (.hemRelease l px py) s = execHemRelease l px py s := rfl
@[simp] theorem exec_hemTileLoad (l tx ty s) : exec (.hemTileLoad l tx ty) s = execHemTileLoad l tx ty s := rfl
@[simp] theorem exec_hemTileEvict (l tx ty s) : exec (.hemTileEvict l tx ty) s = execHemTileEvict l tx ty s := rfl
@[simp] theorem exec_hostCxlMemRead (addr n s) : exec (.hostCxlMemRead addr n) s = execHostCxlMemRead addr n s := rfl
@[simp] theorem exec_hostCxlMemWrite (addr data s) :
    exec (.hostCxlMemWrite addr data) s = execHostCxlMemWrite addr data s := rfl
@[simp] theorem exec_hostSnoop (addr s) : exec (.hostSnoop addr) s = execHostSnoop addr s := rfl
@[simp] theorem exec_flitReceive (p flit s) : exec (.flitReceive p flit) s = execFlitReceive p flit s := rfl
@[simp] theorem exec_flitNak (p seq s) : exec (.flitNak p seq) s = execFlitNak p seq s := rfl
@[simp] theorem exec_portDown (p s) : exec (.portDown p) s = execPortDown p s := rfl
@[simp] theorem exec_portRetrainComplete (p s) : exec (.portRetrainComplete p) s = execPortRetrainComplete p s := rfl
@[simp] theorem exec_routeDownTimeout (m s) : exec (.routeDownTimeout m) s = execRouteDownTimeout m s := rfl
@[simp] theorem exec_peerRequestArrival (p part kind addr mask data cmp op s) :
    exec (.peerRequestArrival p part kind addr mask data cmp op) s = execPeerRequestArrival p part kind addr mask data cmp op s := rfl
@[simp] theorem exec_packageReset (s) : exec (.packageReset) s = execPackageReset s := rfl
@[simp] theorem exec_d3hotEntry (s) : exec (.d3hotEntry) s = execD3hotEntry s := rfl
@[simp] theorem exec_d3hotExit (s) : exec (.d3hotExit) s = execD3hotExit s := rfl
@[simp] theorem exec_throttleRaiseTick (die s) : exec (.throttleRaiseTick die) s = execThrottleRaiseTick die s := rfl
@[simp] theorem exec_throttleLowerTick (die s) : exec (.throttleLowerTick die) s = execThrottleLowerTick die s := rfl
@[simp] theorem exec_overcurrentThrottle (s) : exec (.overcurrentThrottle) s = execOvercurrentThrottle s := rfl
@[simp] theorem exec_thermalShutdown (s) : exec (.thermalShutdown) s = execThermalShutdown s := rfl
@[simp] theorem exec_setPowerCap (watts digest s) :
    exec (.setPowerCap watts digest) s = execSetPowerCap watts digest s := rfl
@[simp] theorem exec_raiseSvnRevoke (svn revoke s) :
    exec (.raiseSvnRevoke svn revoke) s = execRaiseSvnRevoke svn revoke s := rfl
@[simp] theorem exec_getVersion (s) : exec (.getVersion) s = execGetVersion s := rfl
@[simp] theorem exec_getCapabilities (s) : exec (.getCapabilities) s = execGetCapabilities s := rfl
@[simp] theorem exec_negotiateAlgorithms (s) : exec (.negotiateAlgorithms) s = execNegotiateAlgorithms s := rfl
@[simp] theorem exec_getDigests (s) : exec (.getDigests) s = execGetDigests s := rfl
@[simp] theorem exec_getCertificate (off len s) :
    exec (.getCertificate off len) s = execGetCertificate off len s := rfl
@[simp] theorem exec_challenge (nonce s) : exec (.challenge nonce) s = execChallenge nonce s := rfl
@[simp] theorem exec_getMeasurements (s) : exec (.getMeasurements) s = execGetMeasurements s := rfl
@[simp] theorem exec_spdmVendorSignature (nonce s) :
    exec (.spdmVendorSignature nonce) s = execSpdmVendorSignature nonce s := rfl
@[simp] theorem exec_pldmSensorRead (sensor s) : exec (.pldmSensorRead sensor) s = execPldmSensorRead sensor s := rfl
@[simp] theorem exec_registerWrite (reg v s) : exec (.registerWrite reg v) s = execRegisterWrite reg v s := rfl
@[simp] theorem exec_powerLoss (s) : exec (.powerLoss) s = execPowerLoss s := rfl
@[simp] theorem exec_configurationRequest (s) : exec (.configurationRequest) s = execConfigurationRequest s := rfl
@[simp] theorem exec_cxlCacheResponse (addr data s) :
    exec (.cxlCacheResponse addr data) s = execCxlCacheResponse addr data s := rfl
@[simp] theorem exec_elementGroupComplete (h s) :
    exec (.elementGroupComplete h) s = execElementGroupComplete h s := rfl
@[simp] theorem exec_streamDataArrival (h slot s) :
    exec (.streamDataArrival h slot) s = execStreamDataArrival h slot s := rfl
@[simp] theorem exec_hostPageMigration (src dst s) :
    exec (.hostPageMigration src dst) s = execHostPageMigration src dst s := rfl
@[simp] theorem exec_bitError (store core addr double s) :
    exec (.bitError store core addr double) s = execBitError store core addr double s := rfl

end Sys2Proof.Machine
end

