-- ==== Sys2Proof/Laws/Memory.lean ====
section
/-! SUPPORT. What the memory operations do: a read after a write, and the canonical form that every one of them keeps. -/

namespace Sys2Proof.Machine

@[simp] theorem Memory.get_nil (a : Nat) : Memory.get [] a = Memory.dflt a := rfl

@[simp] theorem Memory.wf_nil : Memory.wf [] = true := rfl

theorem Memory.wf_cons {k : Nat} {v : Byte} {m : Memory} :
    Memory.wf ((k, v) :: m) = true ↔ v ≠ Memory.dflt k ∧ Memory.above k m = true ∧ Memory.wf m = true := by
  simp [Memory.wf, and_assoc]

/-! ### One byte -/

/-- Keeping the cells whose address satisfies p. -/
theorem Memory.get_filter (p : Nat → Bool) (m : Memory) (b : Nat) :
    Memory.get (m.filter fun c => p c.1) b = if p b then m.get b else Memory.dflt b := by
  induction m with
  | nil => simp
  | cons c m ih =>
    rw [List.filter_cons]
    by_cases h : b = c.1
    · subst h
      by_cases hp : p c.1 <;> simp [hp, Memory.get, ih]
    · by_cases hp : p c.1 <;> simp [hp, Memory.get, ih, h]

theorem Memory.get_drop (m : Memory) (a b : Nat) : (m.drop a).get b = if b = a then Memory.dflt b else m.get b := by
  unfold Memory.drop
  rw [Memory.get_filter (fun k => k != a)]
  by_cases h : b = a <;> simp [h]

theorem Memory.get_insert_other {a b : Nat} (v : Byte) (m : Memory) (h : b ≠ a) : (Memory.insert a v m).get b = m.get b := by
  induction m with
  | nil => simp [Memory.insert, Memory.get, h]
  | cons c m ih =>
    unfold Memory.insert
    split <;> simp [Memory.get, h, ih]

theorem Memory.get_insert_drop (a : Nat) (v : Byte) (m : Memory) : (Memory.insert a v (m.drop a)).get a = v := by
  induction m with
  | nil => simp [Memory.drop, Memory.insert, Memory.get]
  | cons c m ih =>
    unfold Memory.drop at ih ⊢
    rw [List.filter_cons]
    split
    · rename_i h
      unfold Memory.insert
      split
      · simp [Memory.get]
      · have : a ≠ c.1 := by intro e; simp [e] at h
        simp [Memory.get, this, ih]
    · exact ih

@[simp] theorem Memory.get_set_same (m : Memory) (a : Nat) (v : Byte) : (m.set a v).get a = v := by
  unfold Memory.set
  split
  · rw [Memory.get_drop]; simp [*]
  · exact Memory.get_insert_drop a v m

theorem Memory.get_set_other {a b : Nat} (m : Memory) (v : Byte) (h : b ≠ a) : (m.set a v).get b = m.get b := by
  unfold Memory.set
  split
  · rw [Memory.get_drop, if_neg h]
  · rw [Memory.get_insert_other v _ h, Memory.get_drop, if_neg h]

/-! ### The canonical form -/

theorem Memory.above_mono {a k : Nat} {m : Memory} (h : a ≤ k) (hm : Memory.above k m = true) : Memory.above a m = true := by
  cases m with
  | nil => rfl
  | cons c m => simp [Memory.above] at hm ⊢; omega

theorem Memory.above_filter {k : Nat} {m : Memory} (p : Host.Cell → Bool) (h : Memory.above k m = true)
    (hm : m.wf = true) : Memory.above k (m.filter p) = true := by
  induction m generalizing k with
  | nil => rfl
  | cons c m ih =>
    obtain ⟨j, u⟩ := c
    obtain ⟨hu, hj, hw⟩ := Memory.wf_cons.mp hm
    rw [List.filter_cons]
    split
    · exact h
    · simp [Memory.above] at h
      exact Memory.above_mono (by omega) (ih hj hw)

theorem Memory.filter_wf {m : Memory} (p : Host.Cell → Bool) (h : m.wf = true) : Memory.wf (m.filter p) = true := by
  induction m with
  | nil => rfl
  | cons c m ih =>
    obtain ⟨j, u⟩ := c
    obtain ⟨hu, hj, hw⟩ := Memory.wf_cons.mp h
    rw [List.filter_cons]
    split
    · exact Memory.wf_cons.mpr ⟨hu, Memory.above_filter p hj hw, ih hw⟩
    · exact ih hw

theorem Memory.above_insert {a k : Nat} {v : Byte} {m : Memory} (h : Memory.above k m = true) (hk : k < a) :
    Memory.above k (Memory.insert a v m) = true := by
  cases m with
  | nil => simpa [Memory.insert, Memory.above] using hk
  | cons c m =>
    unfold Memory.insert
    split
    · simpa [Memory.above] using hk
    · simpa [Memory.above] using h

/-- A cell put in where its address is not listed. -/
theorem Memory.insert_wf {a : Nat} {v : Byte} {m : Memory} (h : m.wf = true) (hv : v ≠ Memory.dflt a)
    (ha : ∀ c ∈ m, c.1 ≠ a) : (Memory.insert a v m).wf = true := by
  induction m with
  | nil => simp [Memory.insert, Memory.wf, Memory.above, hv]
  | cons c m ih =>
    obtain ⟨j, u⟩ := c
    obtain ⟨hu, hj, hw⟩ := Memory.wf_cons.mp h
    have hja : j ≠ a := ha (j, u) (by simp)
    unfold Memory.insert
    split
    · rename_i hlt
      exact Memory.wf_cons.mpr ⟨hv, by simpa [Memory.above] using hlt, h⟩
    · rename_i hlt
      exact Memory.wf_cons.mpr ⟨hu, Memory.above_insert hj (by simp at hlt; omega),
        ih hw fun c hc => ha c (by simp [hc])⟩

/-- A write of one byte keeps the canonical form. -/
theorem Memory.set_wf {m : Memory} (a : Nat) (v : Byte) (h : m.wf = true) : (m.set a v).wf = true := by
  unfold Memory.set
  split
  · exact Memory.filter_wf _ h
  · refine Memory.insert_wf (Memory.filter_wf _ h) ‹_› fun c hc => ?_
    simpa using (List.mem_filter.mp hc).2

theorem Memory.write_wf {m : Memory} (a n v : Nat) (h : m.wf = true) : (m.write a n v).wf = true := by
  induction n generalizing m a v with
  | zero => exact h
  | succ n ih => exact ih _ _ (Memory.set_wf _ _ h)

theorem Memory.putBytes_wf {m : Memory} (a : Nat) (bs : List Byte) (h : m.wf = true) : (m.putBytes a bs).wf = true := by
  induction bs generalizing m a with
  | nil => exact h
  | cons b bs ih => exact ih _ (Memory.set_wf _ _ h)

theorem Memory.clear_wf {m : Memory} (a n : Nat) (h : m.wf = true) : (m.clear a n).wf = true := Memory.filter_wf _ h

/-! ### Several bytes -/

/-- A write of n bytes leaves the bytes outside them as they were. -/
theorem Memory.get_write_other {m : Memory} {a n v b : Nat} (hb : b < a ∨ a + n ≤ b) :
    (m.write a n v).get b = m.get b := by
  induction n generalizing m a v with
  | zero => rfl
  | succ n ih =>
    unfold Memory.write
    rw [ih (by omega), Memory.get_set_other _ _ (by omega)]

/-- Byte i of a value written. -/
theorem Memory.get_write {m : Memory} {a n v i : Nat} (hi : i < n) :
    (m.write a n v).get (a + i) = .ofNat 8 (v / 256 ^ i) := by
  induction n generalizing m a v i with
  | zero => omega
  | succ n ih =>
    unfold Memory.write
    cases i with
    | zero =>
      rw [Memory.get_write_other (by omega), Nat.add_zero, Memory.get_set_same]
      simp
    | succ i =>
      rw [show a + (i + 1) = a + 1 + i by omega, ih (by omega), Nat.div_div_eq_div_mul, pow_succ']

/-- A read depends on the bytes that it reads alone. -/
theorem Memory.read_congr {m l : Memory} {a n : Nat} (h : ∀ i, i < n → m.get (a + i) = l.get (a + i)) :
    m.read a n = l.read a n := by
  induction n generalizing a with
  | zero => rfl
  | succ n ih =>
    unfold Memory.read
    rw [show m.get a = l.get a from h 0 (by omega), ih fun i hi => by
      rw [show a + 1 + i = a + (i + 1) by omega]; exact h (i + 1) (by omega)]

/-- A read of bytes that a write did not reach. -/
theorem Memory.read_write_other {m : Memory} {a n v b k : Nat} (hb : b + k ≤ a ∨ a + n ≤ b) :
    (m.write a n v).read b k = m.read b k :=
  Memory.read_congr fun i hi => Memory.get_write_other (by omega)

/-- A value written is read back. -/
theorem Memory.read_write_same (m : Memory) (a n v : Nat) : (m.write a n v).read a n = v % 256 ^ n := by
  induction n generalizing m a v with
  | zero => simp [Memory.read, Nat.mod_one]
  | succ n ih =>
    unfold Memory.read Memory.write
    rw [ih, Memory.get_write_other (by omega), Memory.get_set_same, BitVec.toNat_ofNat]
    have e : v % 256 ^ (n + 1) = v % 256 + 256 * (v / 256 % 256 ^ n) := by rw [pow_succ', Nat.mod_mul]
    rw [e]

theorem Memory.read_lt (m : Memory) (a n : Nat) : m.read a n < 256 ^ n := by
  induction n generalizing a with
  | zero => simp [Memory.read]
  | succ n ih =>
    unfold Memory.read
    have h1 := (m.get a).isLt
    have h2 := ih (a + 1)
    rw [pow_succ']
    omega

/-- A cleared range reads as the default, and the rest as before. -/
theorem Memory.get_clear (m : Memory) (a n b : Nat) :
    (m.clear a n).get b = if a ≤ b ∧ b < a + n then Memory.dflt b else m.get b := by
  unfold Memory.clear
  rw [Memory.get_filter (fun k => decide (k < a) || decide (a + n ≤ k))]
  by_cases h : a ≤ b ∧ b < a + n
  · rw [if_pos h, if_neg (by simp; omega)]
  · rw [if_neg h, if_pos (by simp; omega)]

end Sys2Proof.Machine
end

