-- ==== Sys2Proof/Laws/PerInstr.lean ====
section
/-! SUPPORT. Decoding gives back what encoding wrote (R20, R28 to R32): one lemma for every row of the opcode table. An
event has no word, and its lemma says nothing. -/

namespace Sys2Proof.Laws

/-- The decoder reads from the word of a well-formed instruction that instruction. -/
def EncodeDecode.Statement (i : Instr) : Prop := ∀ w, i.wf = true → encode i = some w → decode w = .ok i

theorem bit_of_fld {w lo : Nat} {b : Bool} (h : fld w lo 1 = b.toNat) : bit w lo = b := by
  unfold bit; rw [h]; cases b <;> rfl

theorem fin_of_fld {n m : Nat} [NeZero n] {d : Fin n} (h : m = d.val) : Fin.ofNat n m = d := by
  subst h; exact Fin.ext (Nat.mod_eq_of_lt d.isLt)

theorem vec_of_fld {n m : Nat} {v : BitVec n} (h : m = v.toNat) : BitVec.ofNat n m = v := by
  subst h; simp

theorem Policy.ofCode_code (p : Policy) : Policy.ofCode p.code = p := by cases p <;> rfl

theorem Scope.ofCode_code (p : Scope) : Scope.ofCode p.code = p := by cases p <;> rfl

theorem Dir.ofCode_code (p : Dir) : Dir.ofCode p.code = p := by cases p <;> rfl

theorem policy_of_fld {m : Nat} {p : Policy} (h : m = p.code) : Policy.ofCode m = p := by
  subst h; exact Policy.ofCode_code p

theorem scope_of_fld {m : Nat} {p : Scope} (h : m = p.code) : Scope.ofCode m = p := by
  subst h; exact Scope.ofCode_code p

theorem dir_of_fld {m : Nat} {p : Dir} (h : m = p.code) : Dir.ofCode m = p := by
  subst h; exact Dir.ofCode_code p

theorem Policy.code_lt (p : Policy) : p.code < 4 := by cases p <;> decide

theorem Scope.code_lt (p : Scope) : p.code < 4 := by cases p <;> decide

theorem Dir.code_lt (p : Dir) : p.code < 4 := by cases p <;> decide

/-- A number built from a field of n bits and what stands above it. -/
def atop (n v r : Nat) : Nat := v + 2 ^ n * r

/-- The lowest field of a number built from fields. -/
theorem fld_head {n v r : Nat} (h : v < 2 ^ n) : fld (atop n v r) 0 n = v := by
  unfold fld atop
  rw [pow_zero, Nat.div_one, Nat.add_mul_mod_self_left]
  exact Nat.mod_eq_of_lt h

/-- What stands above the lowest field. -/
theorem div_tail {n v r lo c : Nat} (h : v < 2 ^ n) (e : r / 2 ^ lo = c) : atop n v r / 2 ^ (n + lo) = c := by
  unfold atop
  rw [pow_add, ← Nat.div_div_eq_div_mul, Nat.add_mul_div_left _ _ (Nat.pow_pos (by decide)), Nat.div_eq_of_lt h,
    Nat.zero_add]
  exact e

/-- A field above the lowest one. -/
theorem fld_tail {n v r lo m c : Nat} (h : v < 2 ^ n) (e : fld r lo m = c) : fld (atop n v r) (n + lo) m = c := by
  unfold fld at e ⊢
  rw [div_tail h rfl]
  exact e

/-- The field next to the lowest one. -/
theorem fld_next {n v r m c : Nat} (h : v < 2 ^ n) (e : fld r 0 m = c) : fld (atop n v r) n m = c := fld_tail (lo := 0) h e

/-- What stands above the only field. -/
theorem div_head {n v r : Nat} (h : v < 2 ^ n) : atop n v r / 2 ^ n = r := div_tail (lo := 0) h (Nat.div_one r)

/-- A field whose low part is known is no number with another low part. -/
theorem fld_short {w lo n k c m : Nat} (h : fld w lo k = c) (g : fld w lo n = m) (hk : k ≤ n) (hm : m % 2 ^ k ≠ c) :
    False := by
  apply hm
  rw [← g, ← h]
  unfold fld
  exact Nat.mod_mod_of_dvd _ (Nat.pow_dvd_pow 2 hk)

/-- From the opcode and what its table answers to what the decoder answers. -/
theorem decode_of_raw {w : Nat} {i : Instr} (ho : opcodeListed (w / 67108864) = true) (hr : decodeRaw w = some i)
    (hw : i.wf = true) : decode w = .ok i := by
  unfold decode
  rw [if_pos ho, hr]
  exact if_pos hw

/-- The fields of a word built from 1 fields below its opcode. -/
theorem unpack1 {wd o n1 v1 : Nat} (b1 : v1 < 2 ^ n1)
    (hw : wd = atop n1 v1 o) :
    fld wd 0 n1 = v1 ∧ wd / 2 ^ (n1) = o := by
  rw [hw]
  exact And.intro (fld_head b1) (div_head b1)

/-- The fields of a word built from 2 fields below its opcode. -/
theorem unpack2 {wd o n1 n2 v1 v2 : Nat} (b1 : v1 < 2 ^ n1) (b2 : v2 < 2 ^ n2)
    (hw : wd = atop n1 v1 (atop n2 v2 o)) :
    fld wd 0 n1 = v1 ∧ fld wd (n1) n2 = v2 ∧ wd / 2 ^ (n1 + n2) = o := by
  rw [hw]
  exact And.intro (fld_head b1) (And.intro (fld_next b1 (fld_head b2)) (div_tail b1 (div_head b2)))

/-- The fields of a word built from 3 fields below its opcode. -/
theorem unpack3 {wd o n1 n2 n3 v1 v2 v3 : Nat} (b1 : v1 < 2 ^ n1) (b2 : v2 < 2 ^ n2) (b3 : v3 < 2 ^ n3)
    (hw : wd = atop n1 v1 (atop n2 v2 (atop n3 v3 o))) :
    fld wd 0 n1 = v1 ∧ fld wd (n1) n2 = v2 ∧ fld wd (n1 + n2) n3 = v3 ∧ wd / 2 ^ (n1 + (n2 + n3)) = o := by
  rw [hw]
  exact And.intro (fld_head b1) (And.intro (fld_next b1 (fld_head b2)) (And.intro (fld_tail b1 (fld_next b2 (fld_head b3))) (div_tail b1 (div_tail b2 (div_head b3)))))

/-- The fields of a word built from 4 fields below its opcode. -/
theorem unpack4 {wd o n1 n2 n3 n4 v1 v2 v3 v4 : Nat} (b1 : v1 < 2 ^ n1) (b2 : v2 < 2 ^ n2) (b3 : v3 < 2 ^ n3) (b4 : v4 < 2 ^ n4)
    (hw : wd = atop n1 v1 (atop n2 v2 (atop n3 v3 (atop n4 v4 o)))) :
    fld wd 0 n1 = v1 ∧ fld wd (n1) n2 = v2 ∧ fld wd (n1 + n2) n3 = v3 ∧ fld wd (n1 + (n2 + n3)) n4 = v4 ∧ wd / 2 ^ (n1 + (n2 + (n3 + n4))) = o := by
  rw [hw]
  exact And.intro (fld_head b1) (And.intro (fld_next b1 (fld_head b2)) (And.intro (fld_tail b1 (fld_next b2 (fld_head b3))) (And.intro (fld_tail b1 (fld_tail b2 (fld_next b3 (fld_head b4)))) (div_tail b1 (div_tail b2 (div_tail b3 (div_head b4)))))))

/-- The fields of a word built from 5 fields below its opcode. -/
theorem unpack5 {wd o n1 n2 n3 n4 n5 v1 v2 v3 v4 v5 : Nat} (b1 : v1 < 2 ^ n1) (b2 : v2 < 2 ^ n2) (b3 : v3 < 2 ^ n3) (b4 : v4 < 2 ^ n4) (b5 : v5 < 2 ^ n5)
    (hw : wd = atop n1 v1 (atop n2 v2 (atop n3 v3 (atop n4 v4 (atop n5 v5 o))))) :
    fld wd 0 n1 = v1 ∧ fld wd (n1) n2 = v2 ∧ fld wd (n1 + n2) n3 = v3 ∧ fld wd (n1 + (n2 + n3)) n4 = v4 ∧ fld wd (n1 + (n2 + (n3 + n4))) n5 = v5 ∧ wd / 2 ^ (n1 + (n2 + (n3 + (n4 + n5)))) = o := by
  rw [hw]
  exact And.intro (fld_head b1) (And.intro (fld_next b1 (fld_head b2)) (And.intro (fld_tail b1 (fld_next b2 (fld_head b3))) (And.intro (fld_tail b1 (fld_tail b2 (fld_next b3 (fld_head b4)))) (And.intro (fld_tail b1 (fld_tail b2 (fld_tail b3 (fld_next b4 (fld_head b5))))) (div_tail b1 (div_tail b2 (div_tail b3 (div_tail b4 (div_head b5)))))))))

/-- The fields of a word built from 6 fields below its opcode. -/
theorem unpack6 {wd o n1 n2 n3 n4 n5 n6 v1 v2 v3 v4 v5 v6 : Nat} (b1 : v1 < 2 ^ n1) (b2 : v2 < 2 ^ n2) (b3 : v3 < 2 ^ n3) (b4 : v4 < 2 ^ n4) (b5 : v5 < 2 ^ n5) (b6 : v6 < 2 ^ n6)
    (hw : wd = atop n1 v1 (atop n2 v2 (atop n3 v3 (atop n4 v4 (atop n5 v5 (atop n6 v6 o)))))) :
    fld wd 0 n1 = v1 ∧ fld wd (n1) n2 = v2 ∧ fld wd (n1 + n2) n3 = v3 ∧ fld wd (n1 + (n2 + n3)) n4 = v4 ∧ fld wd (n1 + (n2 + (n3 + n4))) n5 = v5 ∧ fld wd (n1 + (n2 + (n3 + (n4 + n5)))) n6 = v6 ∧ wd / 2 ^ (n1 + (n2 + (n3 + (n4 + (n5 + n6))))) = o := by
  rw [hw]
  exact And.intro (fld_head b1) (And.intro (fld_next b1 (fld_head b2)) (And.intro (fld_tail b1 (fld_next b2 (fld_head b3))) (And.intro (fld_tail b1 (fld_tail b2 (fld_next b3 (fld_head b4)))) (And.intro (fld_tail b1 (fld_tail b2 (fld_tail b3 (fld_next b4 (fld_head b5))))) (And.intro (fld_tail b1 (fld_tail b2 (fld_tail b3 (fld_tail b4 (fld_next b5 (fld_head b6)))))) (div_tail b1 (div_tail b2 (div_tail b3 (div_tail b4 (div_tail b5 (div_head b6)))))))))))

/-- The fields of a word built from 7 fields below its opcode. -/
theorem unpack7 {wd o n1 n2 n3 n4 n5 n6 n7 v1 v2 v3 v4 v5 v6 v7 : Nat} (b1 : v1 < 2 ^ n1) (b2 : v2 < 2 ^ n2) (b3 : v3 < 2 ^ n3) (b4 : v4 < 2 ^ n4) (b5 : v5 < 2 ^ n5) (b6 : v6 < 2 ^ n6) (b7 : v7 < 2 ^ n7)
    (hw : wd = atop n1 v1 (atop n2 v2 (atop n3 v3 (atop n4 v4 (atop n5 v5 (atop n6 v6 (atop n7 v7 o))))))) :
    fld wd 0 n1 = v1 ∧ fld wd (n1) n2 = v2 ∧ fld wd (n1 + n2) n3 = v3 ∧ fld wd (n1 + (n2 + n3)) n4 = v4 ∧ fld wd (n1 + (n2 + (n3 + n4))) n5 = v5 ∧ fld wd (n1 + (n2 + (n3 + (n4 + n5)))) n6 = v6 ∧ fld wd (n1 + (n2 + (n3 + (n4 + (n5 + n6))))) n7 = v7 ∧ wd / 2 ^ (n1 + (n2 + (n3 + (n4 + (n5 + (n6 + n7)))))) = o := by
  rw [hw]
  exact And.intro (fld_head b1) (And.intro (fld_next b1 (fld_head b2)) (And.intro (fld_tail b1 (fld_next b2 (fld_head b3))) (And.intro (fld_tail b1 (fld_tail b2 (fld_next b3 (fld_head b4)))) (And.intro (fld_tail b1 (fld_tail b2 (fld_tail b3 (fld_next b4 (fld_head b5))))) (And.intro (fld_tail b1 (fld_tail b2 (fld_tail b3 (fld_tail b4 (fld_next b5 (fld_head b6)))))) (And.intro (fld_tail b1 (fld_tail b2 (fld_tail b3 (fld_tail b4 (fld_tail b5 (fld_next b6 (fld_head b7))))))) (div_tail b1 (div_tail b2 (div_tail b3 (div_tail b4 (div_tail b5 (div_tail b6 (div_head b7)))))))))))))

/-- The fields of a word built from 8 fields below its opcode. -/
theorem unpack8 {wd o n1 n2 n3 n4 n5 n6 n7 n8 v1 v2 v3 v4 v5 v6 v7 v8 : Nat} (b1 : v1 < 2 ^ n1) (b2 : v2 < 2 ^ n2) (b3 : v3 < 2 ^ n3) (b4 : v4 < 2 ^ n4) (b5 : v5 < 2 ^ n5) (b6 : v6 < 2 ^ n6) (b7 : v7 < 2 ^ n7) (b8 : v8 < 2 ^ n8)
    (hw : wd = atop n1 v1 (atop n2 v2 (atop n3 v3 (atop n4 v4 (atop n5 v5 (atop n6 v6 (atop n7 v7 (atop n8 v8 o)))))))) :
    fld wd 0 n1 = v1 ∧ fld wd (n1) n2 = v2 ∧ fld wd (n1 + n2) n3 = v3 ∧ fld wd (n1 + (n2 + n3)) n4 = v4 ∧ fld wd (n1 + (n2 + (n3 + n4))) n5 = v5 ∧ fld wd (n1 + (n2 + (n3 + (n4 + n5)))) n6 = v6 ∧ fld wd (n1 + (n2 + (n3 + (n4 + (n5 + n6))))) n7 = v7 ∧ fld wd (n1 + (n2 + (n3 + (n4 + (n5 + (n6 + n7)))))) n8 = v8 ∧ wd / 2 ^ (n1 + (n2 + (n3 + (n4 + (n5 + (n6 + (n7 + n8))))))) = o := by
  rw [hw]
  exact And.intro (fld_head b1) (And.intro (fld_next b1 (fld_head b2)) (And.intro (fld_tail b1 (fld_next b2 (fld_head b3))) (And.intro (fld_tail b1 (fld_tail b2 (fld_next b3 (fld_head b4)))) (And.intro (fld_tail b1 (fld_tail b2 (fld_tail b3 (fld_next b4 (fld_head b5))))) (And.intro (fld_tail b1 (fld_tail b2 (fld_tail b3 (fld_tail b4 (fld_next b5 (fld_head b6)))))) (And.intro (fld_tail b1 (fld_tail b2 (fld_tail b3 (fld_tail b4 (fld_tail b5 (fld_next b6 (fld_head b7))))))) (And.intro (fld_tail b1 (fld_tail b2 (fld_tail b3 (fld_tail b4 (fld_tail b5 (fld_tail b6 (fld_next b7 (fld_head b8)))))))) (div_tail b1 (div_tail b2 (div_tail b3 (div_tail b4 (div_tail b5 (div_tail b6 (div_tail b7 (div_head b8)))))))))))))))

/-- The fields of a word built from 9 fields below its opcode. -/
theorem unpack9 {wd o n1 n2 n3 n4 n5 n6 n7 n8 n9 v1 v2 v3 v4 v5 v6 v7 v8 v9 : Nat} (b1 : v1 < 2 ^ n1) (b2 : v2 < 2 ^ n2) (b3 : v3 < 2 ^ n3) (b4 : v4 < 2 ^ n4) (b5 : v5 < 2 ^ n5) (b6 : v6 < 2 ^ n6) (b7 : v7 < 2 ^ n7) (b8 : v8 < 2 ^ n8) (b9 : v9 < 2 ^ n9)
    (hw : wd = atop n1 v1 (atop n2 v2 (atop n3 v3 (atop n4 v4 (atop n5 v5 (atop n6 v6 (atop n7 v7 (atop n8 v8 (atop n9 v9 o))))))))) :
    fld wd 0 n1 = v1 ∧ fld wd (n1) n2 = v2 ∧ fld wd (n1 + n2) n3 = v3 ∧ fld wd (n1 + (n2 + n3)) n4 = v4 ∧ fld wd (n1 + (n2 + (n3 + n4))) n5 = v5 ∧ fld wd (n1 + (n2 + (n3 + (n4 + n5)))) n6 = v6 ∧ fld wd (n1 + (n2 + (n3 + (n4 + (n5 + n6))))) n7 = v7 ∧ fld wd (n1 + (n2 + (n3 + (n4 + (n5 + (n6 + n7)))))) n8 = v8 ∧ fld wd (n1 + (n2 + (n3 + (n4 + (n5 + (n6 + (n7 + n8))))))) n9 = v9 ∧ wd / 2 ^ (n1 + (n2 + (n3 + (n4 + (n5 + (n6 + (n7 + (n8 + n9)))))))) = o := by
  rw [hw]
  exact And.intro (fld_head b1) (And.intro (fld_next b1 (fld_head b2)) (And.intro (fld_tail b1 (fld_next b2 (fld_head b3))) (And.intro (fld_tail b1 (fld_tail b2 (fld_next b3 (fld_head b4)))) (And.intro (fld_tail b1 (fld_tail b2 (fld_tail b3 (fld_next b4 (fld_head b5))))) (And.intro (fld_tail b1 (fld_tail b2 (fld_tail b3 (fld_tail b4 (fld_next b5 (fld_head b6)))))) (And.intro (fld_tail b1 (fld_tail b2 (fld_tail b3 (fld_tail b4 (fld_tail b5 (fld_next b6 (fld_head b7))))))) (And.intro (fld_tail b1 (fld_tail b2 (fld_tail b3 (fld_tail b4 (fld_tail b5 (fld_tail b6 (fld_next b7 (fld_head b8)))))))) (And.intro (fld_tail b1 (fld_tail b2 (fld_tail b3 (fld_tail b4 (fld_tail b5 (fld_tail b6 (fld_tail b7 (fld_next b8 (fld_head b9))))))))) (div_tail b1 (div_tail b2 (div_tail b3 (div_tail b4 (div_tail b5 (div_tail b6 (div_tail b7 (div_tail b8 (div_head b9)))))))))))))))))

/-- The fields of a word built from 10 fields below its opcode. -/
theorem unpack10 {wd o n1 n2 n3 n4 n5 n6 n7 n8 n9 n10 v1 v2 v3 v4 v5 v6 v7 v8 v9 v10 : Nat} (b1 : v1 < 2 ^ n1) (b2 : v2 < 2 ^ n2) (b3 : v3 < 2 ^ n3) (b4 : v4 < 2 ^ n4) (b5 : v5 < 2 ^ n5) (b6 : v6 < 2 ^ n6) (b7 : v7 < 2 ^ n7) (b8 : v8 < 2 ^ n8) (b9 : v9 < 2 ^ n9) (b10 : v10 < 2 ^ n10)
    (hw : wd = atop n1 v1 (atop n2 v2 (atop n3 v3 (atop n4 v4 (atop n5 v5 (atop n6 v6 (atop n7 v7 (atop n8 v8 (atop n9 v9 (atop n10 v10 o)))))))))) :
    fld wd 0 n1 = v1 ∧ fld wd (n1) n2 = v2 ∧ fld wd (n1 + n2) n3 = v3 ∧ fld wd (n1 + (n2 + n3)) n4 = v4 ∧ fld wd (n1 + (n2 + (n3 + n4))) n5 = v5 ∧ fld wd (n1 + (n2 + (n3 + (n4 + n5)))) n6 = v6 ∧ fld wd (n1 + (n2 + (n3 + (n4 + (n5 + n6))))) n7 = v7 ∧ fld wd (n1 + (n2 + (n3 + (n4 + (n5 + (n6 + n7)))))) n8 = v8 ∧ fld wd (n1 + (n2 + (n3 + (n4 + (n5 + (n6 + (n7 + n8))))))) n9 = v9 ∧ fld wd (n1 + (n2 + (n3 + (n4 + (n5 + (n6 + (n7 + (n8 + n9)))))))) n10 = v10 ∧ wd / 2 ^ (n1 + (n2 + (n3 + (n4 + (n5 + (n6 + (n7 + (n8 + (n9 + n10))))))))) = o := by
  rw [hw]
  exact And.intro (fld_head b1) (And.intro (fld_next b1 (fld_head b2)) (And.intro (fld_tail b1 (fld_next b2 (fld_head b3))) (And.intro (fld_tail b1 (fld_tail b2 (fld_next b3 (fld_head b4)))) (And.intro (fld_tail b1 (fld_tail b2 (fld_tail b3 (fld_next b4 (fld_head b5))))) (And.intro (fld_tail b1 (fld_tail b2 (fld_tail b3 (fld_tail b4 (fld_next b5 (fld_head b6)))))) (And.intro (fld_tail b1 (fld_tail b2 (fld_tail b3 (fld_tail b4 (fld_tail b5 (fld_next b6 (fld_head b7))))))) (And.intro (fld_tail b1 (fld_tail b2 (fld_tail b3 (fld_tail b4 (fld_tail b5 (fld_tail b6 (fld_next b7 (fld_head b8)))))))) (And.intro (fld_tail b1 (fld_tail b2 (fld_tail b3 (fld_tail b4 (fld_tail b5 (fld_tail b6 (fld_tail b7 (fld_next b8 (fld_head b9))))))))) (And.intro (fld_tail b1 (fld_tail b2 (fld_tail b3 (fld_tail b4 (fld_tail b5 (fld_tail b6 (fld_tail b7 (fld_tail b8 (fld_next b9 (fld_head b10)))))))))) (div_tail b1 (div_tail b2 (div_tail b3 (div_tail b4 (div_tail b5 (div_tail b6 (div_tail b7 (div_tail b8 (div_tail b9 (div_head b10)))))))))))))))))))

theorem EncodeDecode.add (d : Fin 32) (a : Fin 32) (b : Fin 32) (w : Bool) : EncodeDecode.Statement (.add d a b w) := by
  intro wd hwf hw
  have hw : 67108864 + d.val * 2097152 + a.val * 65536 + b.val * 2048 + w.toNat * 64 = wd := Option.some.inj hw
  have hw : wd = atop 6 0 (atop 1 w.toNat (atop 4 0 (atop 5 b.val (atop 5 a.val (atop 5 d.val (1)))))) := by unfold atop; omega
  obtain ⟨f0, f1, f2, f3, f4, f5, ho⟩ := unpack6 (n1 := 6)  (n2 := 1)  (n3 := 4)  (n4 := 5)  (n5 := 5)  (n6 := 5) (by decide) w.toNat_lt (by decide) b.isLt a.isLt d.isLt hw
  have ho : wd / 67108864 = 1 := ho
  refine decode_of_raw (by rw [ho]; rfl) ?_ hwf
  unfold decodeRaw
  rw [ho]
  show decodeOp01 wd = _
  unfold decodeOp01
  have c0 : fld wd 0 6 = 0 := f0
  have c1 : fld wd 7 4 = 0 := f2
  refine Eq.trans ((if_pos ⟨c0, c1⟩)) ?_
  rw [(fin_of_fld (d := d) (m := fld wd 21 5) (f5)), (fin_of_fld (d := a) (m := fld wd 16 5) (f4)), (fin_of_fld (d := b) (m := fld wd 11 5) (f3)), (bit_of_fld (b := w) (lo := 6) (w := wd) (f1))]

theorem EncodeDecode.sub (d : Fin 32) (a : Fin 32) (b : Fin 32) (w : Bool) : EncodeDecode.Statement (.sub d a b w) := by
  intro wd hwf hw
  have hw : 67108865 + d.val * 2097152 + a.val * 65536 + b.val * 2048 + w.toNat * 64 = wd := Option.some.inj hw
  have hw : wd = atop 6 1 (atop 1 w.toNat (atop 4 0 (atop 5 b.val (atop 5 a.val (atop 5 d.val (1)))))) := by unfold atop; omega
  obtain ⟨f0, f1, f2, f3, f4, f5, ho⟩ := unpack6 (n1 := 6)  (n2 := 1)  (n3 := 4)  (n4 := 5)  (n5 := 5)  (n6 := 5) (by decide) w.toNat_lt (by decide) b.isLt a.isLt d.isLt hw
  have ho : wd / 67108864 = 1 := ho
  refine decode_of_raw (by rw [ho]; rfl) ?_ hwf
  unfold decodeRaw
  rw [ho]
  show decodeOp01 wd = _
  unfold decodeOp01
  have c0 : fld wd 0 6 = 1 := f0
  have c1 : fld wd 7 4 = 0 := f2
  refine Eq.trans ((if_neg (fun hh => absurd (c0.symm.trans hh.1) (by decide))).trans ((if_pos ⟨c0, c1⟩))) ?_
  rw [(fin_of_fld (d := d) (m := fld wd 21 5) (f5)), (fin_of_fld (d := a) (m := fld wd 16 5) (f4)), (fin_of_fld (d := b) (m := fld wd 11 5) (f3)), (bit_of_fld (b := w) (lo := 6) (w := wd) (f1))]

theorem EncodeDecode.and (d : Fin 32) (a : Fin 32) (b : Fin 32) : EncodeDecode.Statement (.and d a b) := by
  intro wd hwf hw
  have hw : 67108866 + d.val * 2097152 + a.val * 65536 + b.val * 2048 = wd := Option.some.inj hw
  have hw : wd = atop 11 2 (atop 5 b.val (atop 5 a.val (atop 5 d.val (1)))) := by unfold atop; omega
  obtain ⟨f0, f1, f2, f3, ho⟩ := unpack4 (n1 := 11)  (n2 := 5)  (n3 := 5)  (n4 := 5) (by decide) b.isLt a.isLt d.isLt hw
  have ho : wd / 67108864 = 1 := ho
  refine decode_of_raw (by rw [ho]; rfl) ?_ hwf
  unfold decodeRaw
  rw [ho]
  show decodeOp01 wd = _
  unfold decodeOp01
  have c0 : fld wd 0 11 = 2 := f0
  refine Eq.trans ((if_neg (fun hh => fld_short hh.1 c0 (by decide) (by decide))).trans ((if_neg (fun hh => fld_short hh.1 c0 (by decide) (by decide))).trans ((if_pos c0)))) ?_
  rw [(fin_of_fld (d := d) (m := fld wd 21 5) (f3)), (fin_of_fld (d := a) (m := fld wd 16 5) (f2)), (fin_of_fld (d := b) (m := fld wd 11 5) (f1))]

theorem EncodeDecode.or (d : Fin 32) (a : Fin 32) (b : Fin 32) : EncodeDecode.Statement (.or d a b) := by
  intro wd hwf hw
  have hw : 67108867 + d.val * 2097152 + a.val * 65536 + b.val * 2048 = wd := Option.some.inj hw
  have hw : wd = atop 11 3 (atop 5 b.val (atop 5 a.val (atop 5 d.val (1)))) := by unfold atop; omega
  obtain ⟨f0, f1, f2, f3, ho⟩ := unpack4 (n1 := 11)  (n2 := 5)  (n3 := 5)  (n4 := 5) (by decide) b.isLt a.isLt d.isLt hw
  have ho : wd / 67108864 = 1 := ho
  refine decode_of_raw (by rw [ho]; rfl) ?_ hwf
  unfold decodeRaw
  rw [ho]
  show decodeOp01 wd = _
  unfold decodeOp01
  have c0 : fld wd 0 11 = 3 := f0
  refine Eq.trans ((if_neg (fun hh => fld_short hh.1 c0 (by decide) (by decide))).trans ((if_neg (fun hh => fld_short hh.1 c0 (by decide) (by decide))).trans ((if_neg (fun hh => absurd (c0.symm.trans hh) (by decide))).trans ((if_pos c0))))) ?_
  rw [(fin_of_fld (d := d) (m := fld wd 21 5) (f3)), (fin_of_fld (d := a) (m := fld wd 16 5) (f2)), (fin_of_fld (d := b) (m := fld wd 11 5) (f1))]

theorem EncodeDecode.xor (d : Fin 32) (a : Fin 32) (b : Fin 32) : EncodeDecode.Statement (.xor d a b) := by
  intro wd hwf hw
  have hw : 67108868 + d.val * 2097152 + a.val * 65536 + b.val * 2048 = wd := Option.some.inj hw
  have hw : wd = atop 11 4 (atop 5 b.val (atop 5 a.val (atop 5 d.val (1)))) := by unfold atop; omega
  obtain ⟨f0, f1, f2, f3, ho⟩ := unpack4 (n1 := 11)  (n2 := 5)  (n3 := 5)  (n4 := 5) (by decide) b.isLt a.isLt d.isLt hw
  have ho : wd / 67108864 = 1 := ho
  refine decode_of_raw (by rw [ho]; rfl) ?_ hwf
  unfold decodeRaw
  rw [ho]
  show decodeOp01 wd = _
  unfold decodeOp01
  have c0 : fld wd 0 11 = 4 := f0
  refine Eq.trans ((if_neg (fun hh => fld_short hh.1 c0 (by decide) (by decide))).trans ((if_neg (fun hh => fld_short hh.1 c0 (by decide) (by decide))).trans ((if_neg (fun hh => absurd (c0.symm.trans hh) (by decide))).trans ((if_neg (fun hh => absurd (c0.symm.trans hh) (by decide))).trans ((if_pos c0)))))) ?_
  rw [(fin_of_fld (d := d) (m := fld wd 21 5) (f3)), (fin_of_fld (d := a) (m := fld wd 16 5) (f2)), (fin_of_fld (d := b) (m := fld wd 11 5) (f1))]

theorem EncodeDecode.andn (d : Fin 32) (a : Fin 32) (b : Fin 32) : EncodeDecode.Statement (.andn d a b) := by
  intro wd hwf hw
  have hw : 67108869 + d.val * 2097152 + a.val * 65536 + b.val * 2048 = wd := Option.some.inj hw
  have hw : wd = atop 11 5 (atop 5 b.val (atop 5 a.val (atop 5 d.val (1)))) := by unfold atop; omega
  obtain ⟨f0, f1, f2, f3, ho⟩ := unpack4 (n1 := 11)  (n2 := 5)  (n3 := 5)  (n4 := 5) (by decide) b.isLt a.isLt d.isLt hw
  have ho : wd / 67108864 = 1 := ho
  refine decode_of_raw (by rw [ho]; rfl) ?_ hwf
  unfold decodeRaw
  rw [ho]
  show decodeOp01 wd = _
  unfold decodeOp01
  have c0 : fld wd 0 11 = 5 := f0
  refine Eq.trans ((if_neg (fun hh => fld_short hh.1 c0 (by decide) (by decide))).trans ((if_neg (fun hh => fld_short hh.1 c0 (by decide) (by decide))).trans ((if_neg (fun hh => absurd (c0.symm.trans hh) (by decide))).trans ((if_neg (fun hh => absurd (c0.symm.trans hh) (by decide))).trans ((if_neg (fun hh => absurd (c0.symm.trans hh) (by decide))).trans ((if_pos c0))))))) ?_
  rw [(fin_of_fld (d := d) (m := fld wd 21 5) (f3)), (fin_of_fld (d := a) (m := fld wd 16 5) (f2)), (fin_of_fld (d := b) (m := fld wd 11 5) (f1))]

theorem EncodeDecode.sll (d : Fin 32) (a : Fin 32) (b : Fin 32) (w : Bool) : EncodeDecode.Statement (.sll d a b w) := by
  intro wd hwf hw
  have hw : 67108870 + d.val * 2097152 + a.val * 65536 + b.val * 2048 + w.toNat * 64 = wd := Option.some.inj hw
  have hw : wd = atop 6 6 (atop 1 w.toNat (atop 4 0 (atop 5 b.val (atop 5 a.val (atop 5 d.val (1)))))) := by unfold atop; omega
  obtain ⟨f0, f1, f2, f3, f4, f5, ho⟩ := unpack6 (n1 := 6)  (n2 := 1)  (n3 := 4)  (n4 := 5)  (n5 := 5)  (n6 := 5) (by decide) w.toNat_lt (by decide) b.isLt a.isLt d.isLt hw
  have ho : wd / 67108864 = 1 := ho
  refine decode_of_raw (by rw [ho]; rfl) ?_ hwf
  unfold decodeRaw
  rw [ho]
  show decodeOp01 wd = _
  unfold decodeOp01
  have c0 : fld wd 0 6 = 6 := f0
  have c1 : fld wd 7 4 = 0 := f2
  refine Eq.trans ((if_neg (fun hh => absurd (c0.symm.trans hh.1) (by decide))).trans ((if_neg (fun hh => absurd (c0.symm.trans hh.1) (by decide))).trans ((if_neg (fun hh => fld_short c0 hh (by decide) (by decide))).trans ((if_neg (fun hh => fld_short c0 hh (by decide) (by decide))).trans ((if_neg (fun hh => fld_short c0 hh (by decide) (by decide))).trans ((if_neg (fun hh => fld_short c0 hh (by decide) (by decide))).trans ((if_pos ⟨c0, c1⟩)))))))) ?_
  rw [(fin_of_fld (d := d) (m := fld wd 21 5) (f5)), (fin_of_fld (d := a) (m := fld wd 16 5) (f4)), (fin_of_fld (d := b) (m := fld wd 11 5) (f3)), (bit_of_fld (b := w) (lo := 6) (w := wd) (f1))]

theorem EncodeDecode.srl (d : Fin 32) (a : Fin 32) (b : Fin 32) (w : Bool) : EncodeDecode.Statement (.srl d a b w) := by
  intro wd hwf hw
  have hw : 67108871 + d.val * 2097152 + a.val * 65536 + b.val * 2048 + w.toNat * 64 = wd := Option.some.inj hw
  have hw : wd = atop 6 7 (atop 1 w.toNat (atop 4 0 (atop 5 b.val (atop 5 a.val (atop 5 d.val (1)))))) := by unfold atop; omega
  obtain ⟨f0, f1, f2, f3, f4, f5, ho⟩ := unpack6 (n1 := 6)  (n2 := 1)  (n3 := 4)  (n4 := 5)  (n5 := 5)  (n6 := 5) (by decide) w.toNat_lt (by decide) b.isLt a.isLt d.isLt hw
  have ho : wd / 67108864 = 1 := ho
  refine decode_of_raw (by rw [ho]; rfl) ?_ hwf
  unfold decodeRaw
  rw [ho]
  show decodeOp01 wd = _
  unfold decodeOp01
  have c0 : fld wd 0 6 = 7 := f0
  have c1 : fld wd 7 4 = 0 := f2
  refine Eq.trans ((if_neg (fun hh => absurd (c0.symm.trans hh.1) (by decide))).trans ((if_neg (fun hh => absurd (c0.symm.trans hh.1) (by decide))).trans ((if_neg (fun hh => fld_short c0 hh (by decide) (by decide))).trans ((if_neg (fun hh => fld_short c0 hh (by decide) (by decide))).trans ((if_neg (fun hh => fld_short c0 hh (by decide) (by decide))).trans ((if_neg (fun hh => fld_short c0 hh (by decide) (by decide))).trans ((if_neg (fun hh => absurd (c0.symm.trans hh.1) (by decide))).trans ((if_pos ⟨c0, c1⟩))))))))) ?_
  rw [(fin_of_fld (d := d) (m := fld wd 21 5) (f5)), (fin_of_fld (d := a) (m := fld wd 16 5) (f4)), (fin_of_fld (d := b) (m := fld wd 11 5) (f3)), (bit_of_fld (b := w) (lo := 6) (w := wd) (f1))]

theorem EncodeDecode.sra (d : Fin 32) (a : Fin 32) (b : Fin 32) (w : Bool) : EncodeDecode.Statement (.sra d a b w) := by
  intro wd hwf hw
  have hw : 67108872 + d.val * 2097152 + a.val * 65536 + b.val * 2048 + w.toNat * 64 = wd := Option.some.inj hw
  have hw : wd = atop 6 8 (atop 1 w.toNat (atop 4 0 (atop 5 b.val (atop 5 a.val (atop 5 d.val (1)))))) := by unfold atop; omega
  obtain ⟨f0, f1, f2, f3, f4, f5, ho⟩ := unpack6 (n1 := 6)  (n2 := 1)  (n3 := 4)  (n4 := 5)  (n5 := 5)  (n6 := 5) (by decide) w.toNat_lt (by decide) b.isLt a.isLt d.isLt hw
  have ho : wd / 67108864 = 1 := ho
  refine decode_of_raw (by rw [ho]; rfl) ?_ hwf
  unfold decodeRaw
  rw [ho]
  show decodeOp01 wd = _
  unfold decodeOp01
  have c0 : fld wd 0 6 = 8 := f0
  have c1 : fld wd 7 4 = 0 := f2
  refine Eq.trans ((if_neg (fun hh => absurd (c0.symm.trans hh.1) (by decide))).trans ((if_neg (fun hh => absurd (c0.symm.trans hh.1) (by decide))).trans ((if_neg (fun hh => fld_short c0 hh (by decide) (by decide))).trans ((if_neg (fun hh => fld_short c0 hh (by decide) (by decide))).trans ((if_neg (fun hh => fld_short c0 hh (by decide) (by decide))).trans ((if_neg (fun hh => fld_short c0 hh (by decide) (by decide))).trans ((if_neg (fun hh => absurd (c0.symm.trans hh.1) (by decide))).trans ((if_neg (fun hh => absurd (c0.symm.trans hh.1) (by decide))).trans ((if_pos ⟨c0, c1⟩)))))))))) ?_
  rw [(fin_of_fld (d := d) (m := fld wd 21 5) (f5)), (fin_of_fld (d := a) (m := fld wd 16 5) (f4)), (fin_of_fld (d := b) (m := fld wd 11 5) (f3)), (bit_of_fld (b := w) (lo := 6) (w := wd) (f1))]

theorem EncodeDecode.slt (d : Fin 32) (a : Fin 32) (b : Fin 32) : EncodeDecode.Statement (.slt d a b) := by
  intro wd hwf hw
  have hw : 67108873 + d.val * 2097152 + a.val * 65536 + b.val * 2048 = wd := Option.some.inj hw
  have hw : wd = atop 11 9 (atop 5 b.val (atop 5 a.val (atop 5 d.val (1)))) := by unfold atop; omega
  obtain ⟨f0, f1, f2, f3, ho⟩ := unpack4 (n1 := 11)  (n2 := 5)  (n3 := 5)  (n4 := 5) (by decide) b.isLt a.isLt d.isLt hw
  have ho : wd / 67108864 = 1 := ho
  refine decode_of_raw (by rw [ho]; rfl) ?_ hwf
  unfold decodeRaw
  rw [ho]
  show decodeOp01 wd = _
  unfold decodeOp01
  have c0 : fld wd 0 11 = 9 := f0
  refine Eq.trans ((if_neg (fun hh => fld_short hh.1 c0 (by decide) (by decide))).trans ((if_neg (fun hh => fld_short hh.1 c0 (by decide) (by decide))).trans ((if_neg (fun hh => absurd (c0.symm.trans hh) (by decide))).trans ((if_neg (fun hh => absurd (c0.symm.trans hh) (by decide))).trans ((if_neg (fun hh => absurd (c0.symm.trans hh) (by decide))).trans ((if_neg (fun hh => absurd (c0.symm.trans hh) (by decide))).trans ((if_neg (fun hh => fld_short hh.1 c0 (by decide) (by decide))).trans ((if_neg (fun hh => fld_short hh.1 c0 (by decide) (by decide))).trans ((if_neg (fun hh => fld_short hh.1 c0 (by decide) (by decide))).trans ((if_pos c0))))))))))) ?_
  rw [(fin_of_fld (d := d) (m := fld wd 21 5) (f3)), (fin_of_fld (d := a) (m := fld wd 16 5) (f2)), (fin_of_fld (d := b) (m := fld wd 11 5) (f1))]

theorem EncodeDecode.sltu (d : Fin 32) (a : Fin 32) (b : Fin 32) : EncodeDecode.Statement (.sltu d a b) := by
  intro wd hwf hw
  have hw : 67108874 + d.val * 2097152 + a.val * 65536 + b.val * 2048 = wd := Option.some.inj hw
  have hw : wd = atop 11 10 (atop 5 b.val (atop 5 a.val (atop 5 d.val (1)))) := by unfold atop; omega
  obtain ⟨f0, f1, f2, f3, ho⟩ := unpack4 (n1 := 11)  (n2 := 5)  (n3 := 5)  (n4 := 5) (by decide) b.isLt a.isLt d.isLt hw
  have ho : wd / 67108864 = 1 := ho
  refine decode_of_raw (by rw [ho]; rfl) ?_ hwf
  unfold decodeRaw
  rw [ho]
  show decodeOp01 wd = _
  unfold decodeOp01
  have c0 : fld wd 0 11 = 10 := f0
  refine Eq.trans ((if_neg (fun hh => fld_short hh.1 c0 (by decide) (by decide))).trans ((if_neg (fun hh => fld_short hh.1 c0 (by decide) (by decide))).trans ((if_neg (fun hh => absurd (c0.symm.trans hh) (by decide))).trans ((if_neg (fun hh => absurd (c0.symm.trans hh) (by decide))).trans ((if_neg (fun hh => absurd (c0.symm.trans hh) (by decide))).trans ((if_neg (fun hh => absurd (c0.symm.trans hh) (by decide))).trans ((if_neg (fun hh => fld_short hh.1 c0 (by decide) (by decide))).trans ((if_neg (fun hh => fld_short hh.1 c0 (by decide) (by decide))).trans ((if_neg (fun hh => fld_short hh.1 c0 (by decide) (by decide))).trans ((if_neg (fun hh => absurd (c0.symm.trans hh) (by decide))).trans ((if_pos c0)))))))))))) ?_
  rw [(fin_of_fld (d := d) (m := fld wd 21 5) (f3)), (fin_of_fld (d := a) (m := fld wd 16 5) (f2)), (fin_of_fld (d := b) (m := fld wd 11 5) (f1))]

theorem EncodeDecode.min (d : Fin 32) (a : Fin 32) (b : Fin 32) : EncodeDecode.Statement (.min d a b) := by
  intro wd hwf hw
  have hw : 67108875 + d.val * 2097152 + a.val * 65536 + b.val * 2048 = wd := Option.some.inj hw
  have hw : wd = atop 11 11 (atop 5 b.val (atop 5 a.val (atop 5 d.val (1)))) := by unfold atop; omega
  obtain ⟨f0, f1, f2, f3, ho⟩ := unpack4 (n1 := 11)  (n2 := 5)  (n3 := 5)  (n4 := 5) (by decide) b.isLt a.isLt d.isLt hw
  have ho : wd / 67108864 = 1 := ho
  refine decode_of_raw (by rw [ho]; rfl) ?_ hwf
  unfold decodeRaw
  rw [ho]
  show decodeOp01 wd = _
  unfold decodeOp01
  have c0 : fld wd 0 11 = 11 := f0
  refine Eq.trans ((if_neg (fun hh => fld_short hh.1 c0 (by decide) (by decide))).trans ((if_neg (fun hh => fld_short hh.1 c0 (by decide) (by decide))).trans ((if_neg (fun hh => absurd (c0.symm.trans hh) (by decide))).trans ((if_neg (fun hh => absurd (c0.symm.trans hh) (by decide))).trans ((if_neg (fun hh => absurd (c0.symm.trans hh) (by decide))).trans ((if_neg (fun hh => absurd (c0.symm.trans hh) (by decide))).trans ((if_neg (fun hh => fld_short hh.1 c0 (by decide) (by decide))).trans ((if_neg (fun hh => fld_short hh.1 c0 (by decide) (by decide))).trans ((if_neg (fun hh => fld_short hh.1 c0 (by decide) (by decide))).trans ((if_neg (fun hh => absurd (c0.symm.trans hh) (by decide))).trans ((if_neg (fun hh => absurd (c0.symm.trans hh) (by decide))).trans ((if_pos c0))))))))))))) ?_
  rw [(fin_of_fld (d := d) (m := fld wd 21 5) (f3)), (fin_of_fld (d := a) (m := fld wd 16 5) (f2)), (fin_of_fld (d := b) (m := fld wd 11 5) (f1))]

theorem EncodeDecode.max (d : Fin 32) (a : Fin 32) (b : Fin 32) : EncodeDecode.Statement (.max d a b) := by
  intro wd hwf hw
  have hw : 67108876 + d.val * 2097152 + a.val * 65536 + b.val * 2048 = wd := Option.some.inj hw
  have hw : wd = atop 11 12 (atop 5 b.val (atop 5 a.val (atop 5 d.val (1)))) := by unfold atop; omega
  obtain ⟨f0, f1, f2, f3, ho⟩ := unpack4 (n1 := 11)  (n2 := 5)  (n3 := 5)  (n4 := 5) (by decide) b.isLt a.isLt d.isLt hw
  have ho : wd / 67108864 = 1 := ho
  refine decode_of_raw (by rw [ho]; rfl) ?_ hwf
  unfold decodeRaw
  rw [ho]
  show decodeOp01 wd = _
  unfold decodeOp01
  have c0 : fld wd 0 11 = 12 := f0
  refine Eq.trans ((if_neg (fun hh => fld_short hh.1 c0 (by decide) (by decide))).trans ((if_neg (fun hh => fld_short hh.1 c0 (by decide) (by decide))).trans ((if_neg (fun hh => absurd (c0.symm.trans hh) (by decide))).trans ((if_neg (fun hh => absurd (c0.symm.trans hh) (by decide))).trans ((if_neg (fun hh => absurd (c0.symm.trans hh) (by decide))).trans ((if_neg (fun hh => absurd (c0.symm.trans hh) (by decide))).trans ((if_neg (fun hh => fld_short hh.1 c0 (by decide) (by decide))).trans ((if_neg (fun hh => fld_short hh.1 c0 (by decide) (by decide))).trans ((if_neg (fun hh => fld_short hh.1 c0 (by decide) (by decide))).trans ((if_neg (fun hh => absurd (c0.symm.trans hh) (by decide))).trans ((if_neg (fun hh => absurd (c0.symm.trans hh) (by decide))).trans ((if_neg (fun hh => absurd (c0.symm.trans hh) (by decide))).trans ((if_pos c0)))))))))))))) ?_
  rw [(fin_of_fld (d := d) (m := fld wd 21 5) (f3)), (fin_of_fld (d := a) (m := fld wd 16 5) (f2)), (fin_of_fld (d := b) (m := fld wd 11 5) (f1))]

theorem EncodeDecode.minu (d : Fin 32) (a : Fin 32) (b : Fin 32) : EncodeDecode.Statement (.minu d a b) := by
  intro wd hwf hw
  have hw : 67108877 + d.val * 2097152 + a.val * 65536 + b.val * 2048 = wd := Option.some.inj hw
  have hw : wd = atop 11 13 (atop 5 b.val (atop 5 a.val (atop 5 d.val (1)))) := by unfold atop; omega
  obtain ⟨f0, f1, f2, f3, ho⟩ := unpack4 (n1 := 11)  (n2 := 5)  (n3 := 5)  (n4 := 5) (by decide) b.isLt a.isLt d.isLt hw
  have ho : wd / 67108864 = 1 := ho
  refine decode_of_raw (by rw [ho]; rfl) ?_ hwf
  unfold decodeRaw
  rw [ho]
  show decodeOp01 wd = _
  unfold decodeOp01
  have c0 : fld wd 0 11 = 13 := f0
  refine Eq.trans ((if_neg (fun hh => fld_short hh.1 c0 (by decide) (by decide))).trans ((if_neg (fun hh => fld_short hh.1 c0 (by decide) (by decide))).trans ((if_neg (fun hh => absurd (c0.symm.trans hh) (by decide))).trans ((if_neg (fun hh => absurd (c0.symm.trans hh) (by decide))).trans ((if_neg (fun hh => absurd (c0.symm.trans hh) (by decide))).trans ((if_neg (fun hh => absurd (c0.symm.trans hh) (by decide))).trans ((if_neg (fun hh => fld_short hh.1 c0 (by decide) (by decide))).trans ((if_neg (fun hh => fld_short hh.1 c0 (by decide) (by decide))).trans ((if_neg (fun hh => fld_short hh.1 c0 (by decide) (by decide))).trans ((if_neg (fun hh => absurd (c0.symm.trans hh) (by decide))).trans ((if_neg (fun hh => absurd (c0.symm.trans hh) (by decide))).trans ((if_neg (fun hh => absurd (c0.symm.trans hh) (by decide))).trans ((if_neg (fun hh => absurd (c0.symm.trans hh) (by decide))).trans ((if_pos c0))))))))))))))) ?_
  rw [(fin_of_fld (d := d) (m := fld wd 21 5) (f3)), (fin_of_fld (d := a) (m := fld wd 16 5) (f2)), (fin_of_fld (d := b) (m := fld wd 11 5) (f1))]

theorem EncodeDecode.maxu (d : Fin 32) (a : Fin 32) (b : Fin 32) : EncodeDecode.Statement (.maxu d a b) := by
  intro wd hwf hw
  have hw : 67108878 + d.val * 2097152 + a.val * 65536 + b.val * 2048 = wd := Option.some.inj hw
  have hw : wd = atop 11 14 (atop 5 b.val (atop 5 a.val (atop 5 d.val (1)))) := by unfold atop; omega
  obtain ⟨f0, f1, f2, f3, ho⟩ := unpack4 (n1 := 11)  (n2 := 5)  (n3 := 5)  (n4 := 5) (by decide) b.isLt a.isLt d.isLt hw
  have ho : wd / 67108864 = 1 := ho
  refine decode_of_raw (by rw [ho]; rfl) ?_ hwf
  unfold decodeRaw
  rw [ho]
  show decodeOp01 wd = _
  unfold decodeOp01
  have c0 : fld wd 0 11 = 14 := f0
  refine Eq.trans ((if_neg (fun hh => fld_short hh.1 c0 (by decide) (by decide))).trans ((if_neg (fun hh => fld_short hh.1 c0 (by decide) (by decide))).trans ((if_neg (fun hh => absurd (c0.symm.trans hh) (by decide))).trans ((if_neg (fun hh => absurd (c0.symm.trans hh) (by decide))).trans ((if_neg (fun hh => absurd (c0.symm.trans hh) (by decide))).trans ((if_neg (fun hh => absurd (c0.symm.trans hh) (by decide))).trans ((if_neg (fun hh => fld_short hh.1 c0 (by decide) (by decide))).trans ((if_neg (fun hh => fld_short hh.1 c0 (by decide) (by decide))).trans ((if_neg (fun hh => fld_short hh.1 c0 (by decide) (by decide))).trans ((if_neg (fun hh => absurd (c0.symm.trans hh) (by decide))).trans ((if_neg (fun hh => absurd (c0.symm.trans hh) (by decide))).trans ((if_neg (fun hh => absurd (c0.symm.trans hh) (by decide))).trans ((if_neg (fun hh => absurd (c0.symm.trans hh) (by decide))).trans ((if_neg (fun hh => absurd (c0.symm.trans hh) (by decide))).trans ((if_pos c0)))))))))))))))) ?_
  rw [(fin_of_fld (d := d) (m := fld wd 21 5) (f3)), (fin_of_fld (d := a) (m := fld wd 16 5) (f2)), (fin_of_fld (d := b) (m := fld wd 11 5) (f1))]

theorem EncodeDecode.mul (d : Fin 32) (a : Fin 32) (b : Fin 32) (w : Bool) : EncodeDecode.Statement (.mul d a b w) := by
  intro wd hwf hw
  have hw : 67108879 + d.val * 2097152 + a.val * 65536 + b.val * 2048 + w.toNat * 64 = wd := Option.some.inj hw
  have hw : wd = atop 6 15 (atop 1 w.toNat (atop 4 0 (atop 5 b.val (atop 5 a.val (atop 5 d.val (1)))))) := by unfold atop; omega
  obtain ⟨f0, f1, f2, f3, f4, f5, ho⟩ := unpack6 (n1 := 6)  (n2 := 1)  (n3 := 4)  (n4 := 5)  (n5 := 5)  (n6 := 5) (by decide) w.toNat_lt (by decide) b.isLt a.isLt d.isLt hw
  have ho : wd / 67108864 = 1 := ho
  refine decode_of_raw (by rw [ho]; rfl) ?_ hwf
  unfold decodeRaw
  rw [ho]
  show decodeOp01 wd = _
  unfold decodeOp01
  have c0 : fld wd 0 6 = 15 := f0
  have c1 : fld wd 7 4 = 0 := f2
  refine Eq.trans ((if_neg (fun hh => absurd (c0.symm.trans hh.1) (by decide))).trans ((if_neg (fun hh => absurd (c0.symm.trans hh.1) (by decide))).trans ((if_neg (fun hh => fld_short c0 hh (by decide) (by decide))).trans ((if_neg (fun hh => fld_short c0 hh (by decide) (by decide))).trans ((if_neg (fun hh => fld_short c0 hh (by decide) (by decide))).trans ((if_neg (fun hh => fld_short c0 hh (by decide) (by decide))).trans ((if_neg (fun hh => absurd (c0.symm.trans hh.1) (by decide))).trans ((if_neg (fun hh => absurd (c0.symm.trans hh.1) (by decide))).trans ((if_neg (fun hh => absurd (c0.symm.trans hh.1) (by decide))).trans ((if_neg (fun hh => fld_short c0 hh (by decide) (by decide))).trans ((if_neg (fun hh => fld_short c0 hh (by decide) (by decide))).trans ((if_neg (fun hh => fld_short c0 hh (by decide) (by decide))).trans ((if_neg (fun hh => fld_short c0 hh (by decide) (by decide))).trans ((if_neg (fun hh => fld_short c0 hh (by decide) (by decide))).trans ((if_neg (fun hh => fld_short c0 hh (by decide) (by decide))).trans ((if_pos ⟨c0, c1⟩))))))))))))))))) ?_
  rw [(fin_of_fld (d := d) (m := fld wd 21 5) (f5)), (fin_of_fld (d := a) (m := fld wd 16 5) (f4)), (fin_of_fld (d := b) (m := fld wd 11 5) (f3)), (bit_of_fld (b := w) (lo := 6) (w := wd) (f1))]

theorem EncodeDecode.mulh (d : Fin 32) (a : Fin 32) (b : Fin 32) : EncodeDecode.Statement (.mulh d a b) := by
  intro wd hwf hw
  have hw : 67108880 + d.val * 2097152 + a.val * 65536 + b.val * 2048 = wd := Option.some.inj hw
  have hw : wd = atop 11 16 (atop 5 b.val (atop 5 a.val (atop 5 d.val (1)))) := by unfold atop; omega
  obtain ⟨f0, f1, f2, f3, ho⟩ := unpack4 (n1 := 11)  (n2 := 5)  (n3 := 5)  (n4 := 5) (by decide) b.isLt a.isLt d.isLt hw
  have ho : wd / 67108864 = 1 := ho
  refine decode_of_raw (by rw [ho]; rfl) ?_ hwf
  unfold decodeRaw
  rw [ho]
  show decodeOp01 wd = _
  unfold decodeOp01
  have c0 : fld wd 0 11 = 16 := f0
  refine Eq.trans ((if_neg (fun hh => fld_short hh.1 c0 (by decide) (by decide))).trans ((if_neg (fun hh => fld_short hh.1 c0 (by decide) (by decide))).trans ((if_neg (fun hh => absurd (c0.symm.trans hh) (by decide))).trans ((if_neg (fun hh => absurd (c0.symm.trans hh) (by decide))).trans ((if_neg (fun hh => absurd (c0.symm.trans hh) (by decide))).trans ((if_neg (fun hh => absurd (c0.symm.trans hh) (by decide))).trans ((if_neg (fun hh => fld_short hh.1 c0 (by decide) (by decide))).trans ((if_neg (fun hh => fld_short hh.1 c0 (by decide) (by decide))).trans ((if_neg (fun hh => fld_short hh.1 c0 (by decide) (by decide))).trans ((if_neg (fun hh => absurd (c0.symm.trans hh) (by decide))).trans ((if_neg (fun hh => absurd (c0.symm.trans hh) (by decide))).trans ((if_neg (fun hh => absurd (c0.symm.trans hh) (by decide))).trans ((if_neg (fun hh => absurd (c0.symm.trans hh) (by decide))).trans ((if_neg (fun hh => absurd (c0.symm.trans hh) (by decide))).trans ((if_neg (fun hh => absurd (c0.symm.trans hh) (by decide))).trans ((if_neg (fun hh => fld_short hh.1 c0 (by decide) (by decide))).trans ((if_pos c0)))))))))))))))))) ?_
  rw [(fin_of_fld (d := d) (m := fld wd 21 5) (f3)), (fin_of_fld (d := a) (m := fld wd 16 5) (f2)), (fin_of_fld (d := b) (m := fld wd 11 5) (f1))]

theorem EncodeDecode.mulhu (d : Fin 32) (a : Fin 32) (b : Fin 32) : EncodeDecode.Statement (.mulhu d a b) := by
  intro wd hwf hw
  have hw : 67108881 + d.val * 2097152 + a.val * 65536 + b.val * 2048 = wd := Option.some.inj hw
  have hw : wd = atop 11 17 (atop 5 b.val (atop 5 a.val (atop 5 d.val (1)))) := by unfold atop; omega
  obtain ⟨f0, f1, f2, f3, ho⟩ := unpack4 (n1 := 11)  (n2 := 5)  (n3 := 5)  (n4 := 5) (by decide) b.isLt a.isLt d.isLt hw
  have ho : wd / 67108864 = 1 := ho
  refine decode_of_raw (by rw [ho]; rfl) ?_ hwf
  unfold decodeRaw
  rw [ho]
  show decodeOp01 wd = _
  unfold decodeOp01
  have c0 : fld wd 0 11 = 17 := f0
  refine Eq.trans ((if_neg (fun hh => fld_short hh.1 c0 (by decide) (by decide))).trans ((if_neg (fun hh => fld_short hh.1 c0 (by decide) (by decide))).trans ((if_neg (fun hh => absurd (c0.symm.trans hh) (by decide))).trans ((if_neg (fun hh => absurd (c0.symm.trans hh) (by decide))).trans ((if_neg (fun hh => absurd (c0.symm.trans hh) (by decide))).trans ((if_neg (fun hh => absurd (c0.symm.trans hh) (by decide))).trans ((if_neg (fun hh => fld_short hh.1 c0 (by decide) (by decide))).trans ((if_neg (fun hh => fld_short hh.1 c0 (by decide) (by decide))).trans ((if_neg (fun hh => fld_short hh.1 c0 (by decide) (by decide))).trans ((if_neg (fun hh => absurd (c0.symm.trans hh) (by decide))).trans ((if_neg (fun hh => absurd (c0.symm.trans hh) (by decide))).trans ((if_neg (fun hh => absurd (c0.symm.trans hh) (by decide))).trans ((if_neg (fun hh => absurd (c0.symm.trans hh) (by decide))).trans ((if_neg (fun hh => absurd (c0.symm.trans hh) (by decide))).trans ((if_neg (fun hh => absurd (c0.symm.trans hh) (by decide))).trans ((if_neg (fun hh => fld_short hh.1 c0 (by decide) (by decide))).trans ((if_neg (fun hh => absurd (c0.symm.trans hh) (by decide))).trans ((if_pos c0))))))))))))))))))) ?_
  rw [(fin_of_fld (d := d) (m := fld wd 21 5) (f3)), (fin_of_fld (d := a) (m := fld wd 16 5) (f2)), (fin_of_fld (d := b) (m := fld wd 11 5) (f1))]

theorem EncodeDecode.div (d : Fin 32) (a : Fin 32) (b : Fin 32) (w : Bool) : EncodeDecode.Statement (.div d a b w) := by
  intro wd hwf hw
  have hw : 67108882 + d.val * 2097152 + a.val * 65536 + b.val * 2048 + w.toNat * 64 = wd := Option.some.inj hw
  have hw : wd = atop 6 18 (atop 1 w.toNat (atop 4 0 (atop 5 b.val (atop 5 a.val (atop 5 d.val (1)))))) := by unfold atop; omega
  obtain ⟨f0, f1, f2, f3, f4, f5, ho⟩ := unpack6 (n1 := 6)  (n2 := 1)  (n3 := 4)  (n4 := 5)  (n5 := 5)  (n6 := 5) (by decide) w.toNat_lt (by decide) b.isLt a.isLt d.isLt hw
  have ho : wd / 67108864 = 1 := ho
  refine decode_of_raw (by rw [ho]; rfl) ?_ hwf
  unfold decodeRaw
  rw [ho]
  show decodeOp01 wd = _
  unfold decodeOp01
  have c0 : fld wd 0 6 = 18 := f0
  have c1 : fld wd 7 4 = 0 := f2
  refine Eq.trans ((if_neg (fun hh => absurd (c0.symm.trans hh.1) (by decide))).trans ((if_neg (fun hh => absurd (c0.symm.trans hh.1) (by decide))).trans ((if_neg (fun hh => fld_short c0 hh (by decide) (by decide))).trans ((if_neg (fun hh => fld_short c0 hh (by decide) (by decide))).trans ((if_neg (fun hh => fld_short c0 hh (by decide) (by decide))).trans ((if_neg (fun hh => fld_short c0 hh (by decide) (by decide))).trans ((if_neg (fun hh => absurd (c0.symm.trans hh.1) (by decide))).trans ((if_neg (fun hh => absurd (c0.symm.trans hh.1) (by decide))).trans ((if_neg (fun hh => absurd (c0.symm.trans hh.1) (by decide))).trans ((if_neg (fun hh => fld_short c0 hh (by decide) (by decide))).trans ((if_neg (fun hh => fld_short c0 hh (by decide) (by decide))).trans ((if_neg (fun hh => fld_short c0 hh (by decide) (by decide))).trans ((if_neg (fun hh => fld_short c0 hh (by decide) (by decide))).trans ((if_neg (fun hh => fld_short c0 hh (by decide) (by decide))).trans ((if_neg (fun hh => fld_short c0 hh (by decide) (by decide))).trans ((if_neg (fun hh => absurd (c0.symm.trans hh.1) (by decide))).trans ((if_neg (fun hh => fld_short c0 hh (by decide) (by decide))).trans ((if_neg (fun hh => fld_short c0 hh (by decide) (by decide))).trans ((if_pos ⟨c0, c1⟩)))))))))))))))))))) ?_
  rw [(fin_of_fld (d := d) (m := fld wd 21 5) (f5)), (fin_of_fld (d := a) (m := fld wd 16 5) (f4)), (fin_of_fld (d := b) (m := fld wd 11 5) (f3)), (bit_of_fld (b := w) (lo := 6) (w := wd) (f1))]

theorem EncodeDecode.divu (d : Fin 32) (a : Fin 32) (b : Fin 32) (w : Bool) : EncodeDecode.Statement (.divu d a b w) := by
  intro wd hwf hw
  have hw : 67108883 + d.val * 2097152 + a.val * 65536 + b.val * 2048 + w.toNat * 64 = wd := Option.some.inj hw
  have hw : wd = atop 6 19 (atop 1 w.toNat (atop 4 0 (atop 5 b.val (atop 5 a.val (atop 5 d.val (1)))))) := by unfold atop; omega
  obtain ⟨f0, f1, f2, f3, f4, f5, ho⟩ := unpack6 (n1 := 6)  (n2 := 1)  (n3 := 4)  (n4 := 5)  (n5 := 5)  (n6 := 5) (by decide) w.toNat_lt (by decide) b.isLt a.isLt d.isLt hw
  have ho : wd / 67108864 = 1 := ho
  refine decode_of_raw (by rw [ho]; rfl) ?_ hwf
  unfold decodeRaw
  rw [ho]
  show decodeOp01 wd = _
  unfold decodeOp01
  have c0 : fld wd 0 6 = 19 := f0
  have c1 : fld wd 7 4 = 0 := f2
  refine Eq.trans ((if_neg (fun hh => absurd (c0.symm.trans hh.1) (by decide))).trans ((if_neg (fun hh => absurd (c0.symm.trans hh.1) (by decide))).trans ((if_neg (fun hh => fld_short c0 hh (by decide) (by decide))).trans ((if_neg (fun hh => fld_short c0 hh (by decide) (by decide))).trans ((if_neg (fun hh => fld_short c0 hh (by decide) (by decide))).trans ((if_neg (fun hh => fld_short c0 hh (by decide) (by decide))).trans ((if_neg (fun hh => absurd (c0.symm.trans hh.1) (by decide))).trans ((if_neg (fun hh => absurd (c0.symm.trans hh.1) (by decide))).trans ((if_neg (fun hh => absurd (c0.symm.trans hh.1) (by decide))).trans ((if_neg (fun hh => fld_short c0 hh (by decide) (by decide))).trans ((if_neg (fun hh => fld_short c0 hh (by decide) (by decide))).trans ((if_neg (fun hh => fld_short c0 hh (by decide) (by decide))).trans ((if_neg (fun hh => fld_short c0 hh (by decide) (by decide))).trans ((if_neg (fun hh => fld_short c0 hh (by decide) (by decide))).trans ((if_neg (fun hh => fld_short c0 hh (by decide) (by decide))).trans ((if_neg (fun hh => absurd (c0.symm.trans hh.1) (by decide))).trans ((if_neg (fun hh => fld_short c0 hh (by decide) (by decide))).trans ((if_neg (fun hh => fld_short c0 hh (by decide) (by decide))).trans ((if_neg (fun hh => absurd (c0.symm.trans hh.1) (by decide))).trans ((if_pos ⟨c0, c1⟩))))))))))))))))))))) ?_
  rw [(fin_of_fld (d := d) (m := fld wd 21 5) (f5)), (fin_of_fld (d := a) (m := fld wd 16 5) (f4)), (fin_of_fld (d := b) (m := fld wd 11 5) (f3)), (bit_of_fld (b := w) (lo := 6) (w := wd) (f1))]

theorem EncodeDecode.rem (d : Fin 32) (a : Fin 32) (b : Fin 32) (w : Bool) : EncodeDecode.Statement (.rem d a b w) := by
  intro wd hwf hw
  have hw : 67108884 + d.val * 2097152 + a.val * 65536 + b.val * 2048 + w.toNat * 64 = wd := Option.some.inj hw
  have hw : wd = atop 6 20 (atop 1 w.toNat (atop 4 0 (atop 5 b.val (atop 5 a.val (atop 5 d.val (1)))))) := by unfold atop; omega
  obtain ⟨f0, f1, f2, f3, f4, f5, ho⟩ := unpack6 (n1 := 6)  (n2 := 1)  (n3 := 4)  (n4 := 5)  (n5 := 5)  (n6 := 5) (by decide) w.toNat_lt (by decide) b.isLt a.isLt d.isLt hw
  have ho : wd / 67108864 = 1 := ho
  refine decode_of_raw (by rw [ho]; rfl) ?_ hwf
  unfold decodeRaw
  rw [ho]
  show decodeOp01 wd = _
  unfold decodeOp01
  have c0 : fld wd 0 6 = 20 := f0
  have c1 : fld wd 7 4 = 0 := f2
  refine Eq.trans ((if_neg (fun hh => absurd (c0.symm.trans hh.1) (by decide))).trans ((if_neg (fun hh => absurd (c0.symm.trans hh.1) (by decide))).trans ((if_neg (fun hh => fld_short c0 hh (by decide) (by decide))).trans ((if_neg (fun hh => fld_short c0 hh (by decide) (by decide))).trans ((if_neg (fun hh => fld_short c0 hh (by decide) (by decide))).trans ((if_neg (fun hh => fld_short c0 hh (by decide) (by decide))).trans ((if_neg (fun hh => absurd (c0.symm.trans hh.1) (by decide))).trans ((if_neg (fun hh => absurd (c0.symm.trans hh.1) (by decide))).trans ((if_neg (fun hh => absurd (c0.symm.trans hh.1) (by decide))).trans ((if_neg (fun hh => fld_short c0 hh (by decide) (by decide))).trans ((if_neg (fun hh => fld_short c0 hh (by decide) (by decide))).trans ((if_neg (fun hh => fld_short c0 hh (by decide) (by decide))).trans ((if_neg (fun hh => fld_short c0 hh (by decide) (by decide))).trans ((if_neg (fun hh => fld_short c0 hh (by decide) (by decide))).trans ((if_neg (fun hh => fld_short c0 hh (by decide) (by decide))).trans ((if_neg (fun hh => absurd (c0.symm.trans hh.1) (by decide))).trans ((if_neg (fun hh => fld_short c0 hh (by decide) (by decide))).trans ((if_neg (fun hh => fld_short c0 hh (by decide) (by decide))).trans ((if_neg (fun hh => absurd (c0.symm.trans hh.1) (by decide))).trans ((if_neg (fun hh => absurd (c0.symm.trans hh.1) (by decide))).trans ((if_pos ⟨c0, c1⟩)))))))))))))))))))))) ?_
  rw [(fin_of_fld (d := d) (m := fld wd 21 5) (f5)), (fin_of_fld (d := a) (m := fld wd 16 5) (f4)), (fin_of_fld (d := b) (m := fld wd 11 5) (f3)), (bit_of_fld (b := w) (lo := 6) (w := wd) (f1))]

theorem EncodeDecode.remu (d : Fin 32) (a : Fin 32) (b : Fin 32) (w : Bool) : EncodeDecode.Statement (.remu d a b w) := by
  intro wd hwf hw
  have hw : 67108885 + d.val * 2097152 + a.val * 65536 + b.val * 2048 + w.toNat * 64 = wd := Option.some.inj hw
  have hw : wd = atop 6 21 (atop 1 w.toNat (atop 4 0 (atop 5 b.val (atop 5 a.val (atop 5 d.val (1)))))) := by unfold atop; omega
  obtain ⟨f0, f1, f2, f3, f4, f5, ho⟩ := unpack6 (n1 := 6)  (n2 := 1)  (n3 := 4)  (n4 := 5)  (n5 := 5)  (n6 := 5) (by decide) w.toNat_lt (by decide) b.isLt a.isLt d.isLt hw
  have ho : wd / 67108864 = 1 := ho
  refine decode_of_raw (by rw [ho]; rfl) ?_ hwf
  unfold decodeRaw
  rw [ho]
  show decodeOp01 wd = _
  unfold decodeOp01
  have c0 : fld wd 0 6 = 21 := f0
  have c1 : fld wd 7 4 = 0 := f2
  refine Eq.trans ((if_neg (fun hh => absurd (c0.symm.trans hh.1) (by decide))).trans ((if_neg (fun hh => absurd (c0.symm.trans hh.1) (by decide))).trans ((if_neg (fun hh => fld_short c0 hh (by decide) (by decide))).trans ((if_neg (fun hh => fld_short c0 hh (by decide) (by decide))).trans ((if_neg (fun hh => fld_short c0 hh (by decide) (by decide))).trans ((if_neg (fun hh => fld_short c0 hh (by decide) (by decide))).trans ((if_neg (fun hh => absurd (c0.symm.trans hh.1) (by decide))).trans ((if_neg (fun hh => absurd (c0.symm.trans hh.1) (by decide))).trans ((if_neg (fun hh => absurd (c0.symm.trans hh.1) (by decide))).trans ((if_neg (fun hh => fld_short c0 hh (by decide) (by decide))).trans ((if_neg (fun hh => fld_short c0 hh (by decide) (by decide))).trans ((if_neg (fun hh => fld_short c0 hh (by decide) (by decide))).trans ((if_neg (fun hh => fld_short c0 hh (by decide) (by decide))).trans ((if_neg (fun hh => fld_short c0 hh (by decide) (by decide))).trans ((if_neg (fun hh => fld_short c0 hh (by decide) (by decide))).trans ((if_neg (fun hh => absurd (c0.symm.trans hh.1) (by decide))).trans ((if_neg (fun hh => fld_short c0 hh (by decide) (by decide))).trans ((if_neg (fun hh => fld_short c0 hh (by decide) (by decide))).trans ((if_neg (fun hh => absurd (c0.symm.trans hh.1) (by decide))).trans ((if_neg (fun hh => absurd (c0.symm.trans hh.1) (by decide))).trans ((if_neg (fun hh => absurd (c0.symm.trans hh.1) (by decide))).trans ((if_pos ⟨c0, c1⟩))))))))))))))))))))))) ?_
  rw [(fin_of_fld (d := d) (m := fld wd 21 5) (f5)), (fin_of_fld (d := a) (m := fld wd 16 5) (f4)), (fin_of_fld (d := b) (m := fld wd 11 5) (f3)), (bit_of_fld (b := w) (lo := 6) (w := wd) (f1))]

theorem EncodeDecode.clz (d : Fin 32) (a : Fin 32) : EncodeDecode.Statement (.clz d a) := by
  intro wd hwf hw
  have hw : 67108886 + d.val * 2097152 + a.val * 65536 = wd := Option.some.inj hw
  have hw : wd = atop 16 22 (atop 5 a.val (atop 5 d.val (1))) := by unfold atop; omega
  obtain ⟨f0, f1, f2, ho⟩ := unpack3 (n1 := 16)  (n2 := 5)  (n3 := 5) (by decide) a.isLt d.isLt hw
  have ho : wd / 67108864 = 1 := ho
  refine decode_of_raw (by rw [ho]; rfl) ?_ hwf
  unfold decodeRaw
  rw [ho]
  show decodeOp01 wd = _
  unfold decodeOp01
  have c0 : fld wd 0 16 = 22 := f0
  refine Eq.trans ((if_neg (fun hh => fld_short hh.1 c0 (by decide) (by decide))).trans ((if_neg (fun hh => fld_short hh.1 c0 (by decide) (by decide))).trans ((if_neg (fun hh => fld_short hh c0 (by decide) (by decide))).trans ((if_neg (fun hh => fld_short hh c0 (by decide) (by decide))).trans ((if_neg (fun hh => fld_short hh c0 (by decide) (by decide))).trans ((if_neg (fun hh => fld_short hh c0 (by decide) (by decide))).trans ((if_neg (fun hh => fld_short hh.1 c0 (by decide) (by decide))).trans ((if_neg (fun hh => fld_short hh.1 c0 (by decide) (by decide))).trans ((if_neg (fun hh => fld_short hh.1 c0 (by decide) (by decide))).trans ((if_neg (fun hh => fld_short hh c0 (by decide) (by decide))).trans ((if_neg (fun hh => fld_short hh c0 (by decide) (by decide))).trans ((if_neg (fun hh => fld_short hh c0 (by decide) (by decide))).trans ((if_neg (fun hh => fld_short hh c0 (by decide) (by decide))).trans ((if_neg (fun hh => fld_short hh c0 (by decide) (by decide))).trans ((if_neg (fun hh => fld_short hh c0 (by decide) (by decide))).trans ((if_neg (fun hh => fld_short hh.1 c0 (by decide) (by decide))).trans ((if_neg (fun hh => fld_short hh c0 (by decide) (by decide))).trans ((if_neg (fun hh => fld_short hh c0 (by decide) (by decide))).trans ((if_neg (fun hh => fld_short hh.1 c0 (by decide) (by decide))).trans ((if_neg (fun hh => fld_short hh.1 c0 (by decide) (by decide))).trans ((if_neg (fun hh => fld_short hh.1 c0 (by decide) (by decide))).trans ((if_neg (fun hh => fld_short hh.1 c0 (by decide) (by decide))).trans ((if_pos c0)))))))))))))))))))))))) ?_
  rw [(fin_of_fld (d := d) (m := fld wd 21 5) (f2)), (fin_of_fld (d := a) (m := fld wd 16 5) (f1))]

theorem EncodeDecode.ctz (d : Fin 32) (a : Fin 32) : EncodeDecode.Statement (.ctz d a) := by
  intro wd hwf hw
  have hw : 67108887 + d.val * 2097152 + a.val * 65536 = wd := Option.some.inj hw
  have hw : wd = atop 16 23 (atop 5 a.val (atop 5 d.val (1))) := by unfold atop; omega
  obtain ⟨f0, f1, f2, ho⟩ := unpack3 (n1 := 16)  (n2 := 5)  (n3 := 5) (by decide) a.isLt d.isLt hw
  have ho : wd / 67108864 = 1 := ho
  refine decode_of_raw (by rw [ho]; rfl) ?_ hwf
  unfold decodeRaw
  rw [ho]
  show decodeOp01 wd = _
  unfold decodeOp01
  have c0 : fld wd 0 16 = 23 := f0
  refine Eq.trans ((if_neg (fun hh => fld_short hh.1 c0 (by decide) (by decide))).trans ((if_neg (fun hh => fld_short hh.1 c0 (by decide) (by decide))).trans ((if_neg (fun hh => fld_short hh c0 (by decide) (by decide))).trans ((if_neg (fun hh => fld_short hh c0 (by decide) (by decide))).trans ((if_neg (fun hh => fld_short hh c0 (by decide) (by decide))).trans ((if_neg (fun hh => fld_short hh c0 (by decide) (by decide))).trans ((if_neg (fun hh => fld_short hh.1 c0 (by decide) (by decide))).trans ((if_neg (fun hh => fld_short hh.1 c0 (by decide) (by decide))).trans ((if_neg (fun hh => fld_short hh.1 c0 (by decide) (by decide))).trans ((if_neg (fun hh => fld_short hh c0 (by decide) (by decide))).trans ((if_neg (fun hh => fld_short hh c0 (by decide) (by decide))).trans ((if_neg (fun hh => fld_short hh c0 (by decide) (by decide))).trans ((if_neg (fun hh => fld_short hh c0 (by decide) (by decide))).trans ((if_neg (fun hh => fld_short hh c0 (by decide) (by decide))).trans ((if_neg (fun hh => fld_short hh c0 (by decide) (by decide))).trans ((if_neg (fun hh => fld_short hh.1 c0 (by decide) (by decide))).trans ((if_neg (fun hh => fld_short hh c0 (by decide) (by decide))).trans ((if_neg (fun hh => fld_short hh c0 (by decide) (by decide))).trans ((if_neg (fun hh => fld_short hh.1 c0 (by decide) (by decide))).trans ((if_neg (fun hh => fld_short hh.1 c0 (by decide) (by decide))).trans ((if_neg (fun hh => fld_short hh.1 c0 (by decide) (by decide))).trans ((if_neg (fun hh => fld_short hh.1 c0 (by decide) (by decide))).trans ((if_neg (fun hh => absurd (c0.symm.trans hh) (by decide))).trans ((if_pos c0))))))))))))))))))))))))) ?_
  rw [(fin_of_fld (d := d) (m := fld wd 21 5) (f2)), (fin_of_fld (d := a) (m := fld wd 16 5) (f1))]

theorem EncodeDecode.popc (d : Fin 32) (a : Fin 32) : EncodeDecode.Statement (.popc d a) := by
  intro wd hwf hw
  have hw : 67108888 + d.val * 2097152 + a.val * 65536 = wd := Option.some.inj hw
  have hw : wd = atop 16 24 (atop 5 a.val (atop 5 d.val (1))) := by unfold atop; omega
  obtain ⟨f0, f1, f2, ho⟩ := unpack3 (n1 := 16)  (n2 := 5)  (n3 := 5) (by decide) a.isLt d.isLt hw
  have ho : wd / 67108864 = 1 := ho
  refine decode_of_raw (by rw [ho]; rfl) ?_ hwf
  unfold decodeRaw
  rw [ho]
  show decodeOp01 wd = _
  unfold decodeOp01
  have c0 : fld wd 0 16 = 24 := f0
  refine Eq.trans ((if_neg (fun hh => fld_short hh.1 c0 (by decide) (by decide))).trans ((if_neg (fun hh => fld_short hh.1 c0 (by decide) (by decide))).trans ((if_neg (fun hh => fld_short hh c0 (by decide) (by decide))).trans ((if_neg (fun hh => fld_short hh c0 (by decide) (by decide))).trans ((if_neg (fun hh => fld_short hh c0 (by decide) (by decide))).trans ((if_neg (fun hh => fld_short hh c0 (by decide) (by decide))).trans ((if_neg (fun hh => fld_short hh.1 c0 (by decide) (by decide))).trans ((if_neg (fun hh => fld_short hh.1 c0 (by decide) (by decide))).trans ((if_neg (fun hh => fld_short hh.1 c0 (by decide) (by decide))).trans ((if_neg (fun hh => fld_short hh c0 (by decide) (by decide))).trans ((if_neg (fun hh => fld_short hh c0 (by decide) (by decide))).trans ((if_neg (fun hh => fld_short hh c0 (by decide) (by decide))).trans ((if_neg (fun hh => fld_short hh c0 (by decide) (by decide))).trans ((if_neg (fun hh => fld_short hh c0 (by decide) (by decide))).trans ((if_neg (fun hh => fld_short hh c0 (by decide) (by decide))).trans ((if_neg (fun hh => fld_short hh.1 c0 (by decide) (by decide))).trans ((if_neg (fun hh => fld_short hh c0 (by decide) (by decide))).trans ((if_neg (fun hh => fld_short hh c0 (by decide) (by decide))).trans ((if_neg (fun hh => fld_short hh.1 c0 (by decide) (by decide))).trans ((if_neg (fun hh => fld_short hh.1 c0 (by decide) (by decide))).trans ((if_neg (fun hh => fld_short hh.1 c0 (by decide) (by decide))).trans ((if_neg (fun hh => fld_short hh.1 c0 (by decide) (by decide))).trans ((if_neg (fun hh => absurd (c0.symm.trans hh) (by decide))).trans ((if_neg (fun hh => absurd (c0.symm.trans hh) (by decide))).trans ((if_pos c0)))))))))))))))))))))))))) ?_
  rw [(fin_of_fld (d := d) (m := fld wd 21 5) (f2)), (fin_of_fld (d := a) (m := fld wd 16 5) (f1))]

theorem EncodeDecode.addi (d : Fin 32) (a : Fin 32) (i : BitVec 16) : EncodeDecode.Statement (.addi d a i) := by
  intro wd hwf hw
  have hw : 134217728 + d.val * 2097152 + a.val * 65536 + i.toNat = wd := Option.some.inj hw
  have hw : wd = atop 16 i.toNat (atop 5 a.val (atop 5 d.val (2))) := by unfold atop; omega
  obtain ⟨f0, f1, f2, ho⟩ := unpack3 (n1 := 16)  (n2 := 5)  (n3 := 5) i.isLt a.isLt d.isLt hw
  have ho : wd / 67108864 = 2 := ho
  refine decode_of_raw (by rw [ho]; rfl) ?_ hwf
  unfold decodeRaw
  rw [ho]
  show decodeOp02 wd = _
  unfold decodeOp02
  rw [(fin_of_fld (d := d) (m := fld wd 21 5) (f2)), (fin_of_fld (d := a) (m := fld wd 16 5) (f1)), (vec_of_fld (v := i) (m := fld wd 0 16) (f0))]

theorem EncodeDecode.andi (d : Fin 32) (a : Fin 32) (i : BitVec 16) : EncodeDecode.Statement (.andi d a i) := by
  intro wd hwf hw
  have hw : 201326592 + d.val * 2097152 + a.val * 65536 + i.toNat = wd := Option.some.inj hw
  have hw : wd = atop 16 i.toNat (atop 5 a.val (atop 5 d.val (3))) := by unfold atop; omega
  obtain ⟨f0, f1, f2, ho⟩ := unpack3 (n1 := 16)  (n2 := 5)  (n3 := 5) i.isLt a.isLt d.isLt hw
  have ho : wd / 67108864 = 3 := ho
  refine decode_of_raw (by rw [ho]; rfl) ?_ hwf
  unfold decodeRaw
  rw [ho]
  show decodeOp03 wd = _
  unfold decodeOp03
  rw [(fin_of_fld (d := d) (m := fld wd 21 5) (f2)), (fin_of_fld (d := a) (m := fld wd 16 5) (f1)), (vec_of_fld (v := i) (m := fld wd 0 16) (f0))]

theorem EncodeDecode.ori (d : Fin 32) (a : Fin 32) (i : BitVec 16) : EncodeDecode.Statement (.ori d a i) := by
  intro wd hwf hw
  have hw : 268435456 + d.val * 2097152 + a.val * 65536 + i.toNat = wd := Option.some.inj hw
  have hw : wd = atop 16 i.toNat (atop 5 a.val (atop 5 d.val (4))) := by unfold atop; omega
  obtain ⟨f0, f1, f2, ho⟩ := unpack3 (n1 := 16)  (n2 := 5)  (n3 := 5) i.isLt a.isLt d.isLt hw
  have ho : wd / 67108864 = 4 := ho
  refine decode_of_raw (by rw [ho]; rfl) ?_ hwf
  unfold decodeRaw
  rw [ho]
  show decodeOp04 wd = _
  unfold decodeOp04
  rw [(fin_of_fld (d := d) (m := fld wd 21 5) (f2)), (fin_of_fld (d := a) (m := fld wd 16 5) (f1)), (vec_of_fld (v := i) (m := fld wd 0 16) (f0))]

theorem EncodeDecode.xori (d : Fin 32) (a : Fin 32) (i : BitVec 16) : EncodeDecode.Statement (.xori d a i) := by
  intro wd hwf hw
  have hw : 335544320 + d.val * 2097152 + a.val * 65536 + i.toNat = wd := Option.some.inj hw
  have hw : wd = atop 16 i.toNat (atop 5 a.val (atop 5 d.val (5))) := by unfold atop; omega
  obtain ⟨f0, f1, f2, ho⟩ := unpack3 (n1 := 16)  (n2 := 5)  (n3 := 5) i.isLt a.isLt d.isLt hw
  have ho : wd / 67108864 = 5 := ho
  refine decode_of_raw (by rw [ho]; rfl) ?_ hwf
  unfold decodeRaw
  rw [ho]
  show decodeOp05 wd = _
  unfold decodeOp05
  rw [(fin_of_fld (d := d) (m := fld wd 21 5) (f2)), (fin_of_fld (d := a) (m := fld wd 16 5) (f1)), (vec_of_fld (v := i) (m := fld wd 0 16) (f0))]

theorem EncodeDecode.slti (d : Fin 32) (a : Fin 32) (i : BitVec 16) : EncodeDecode.Statement (.slti d a i) := by
  intro wd hwf hw
  have hw : 402653184 + d.val * 2097152 + a.val * 65536 + i.toNat = wd := Option.some.inj hw
  have hw : wd = atop 16 i.toNat (atop 5 a.val (atop 5 d.val (6))) := by unfold atop; omega
  obtain ⟨f0, f1, f2, ho⟩ := unpack3 (n1 := 16)  (n2 := 5)  (n3 := 5) i.isLt a.isLt d.isLt hw
  have ho : wd / 67108864 = 6 := ho
  refine decode_of_raw (by rw [ho]; rfl) ?_ hwf
  unfold decodeRaw
  rw [ho]
  show decodeOp06 wd = _
  unfold decodeOp06
  rw [(fin_of_fld (d := d) (m := fld wd 21 5) (f2)), (fin_of_fld (d := a) (m := fld wd 16 5) (f1)), (vec_of_fld (v := i) (m := fld wd 0 16) (f0))]

theorem EncodeDecode.sltiu (d : Fin 32) (a : Fin 32) (i : BitVec 16) : EncodeDecode.Statement (.sltiu d a i) := by
  intro wd hwf hw
  have hw : 469762048 + d.val * 2097152 + a.val * 65536 + i.toNat = wd := Option.some.inj hw
  have hw : wd = atop 16 i.toNat (atop 5 a.val (atop 5 d.val (7))) := by unfold atop; omega
  obtain ⟨f0, f1, f2, ho⟩ := unpack3 (n1 := 16)  (n2 := 5)  (n3 := 5) i.isLt a.isLt d.isLt hw
  have ho : wd / 67108864 = 7 := ho
  refine decode_of_raw (by rw [ho]; rfl) ?_ hwf
  unfold decodeRaw
  rw [ho]
  show decodeOp07 wd = _
  unfold decodeOp07
  rw [(fin_of_fld (d := d) (m := fld wd 21 5) (f2)), (fin_of_fld (d := a) (m := fld wd 16 5) (f1)), (vec_of_fld (v := i) (m := fld wd 0 16) (f0))]

theorem EncodeDecode.slli (d : Fin 32) (a : Fin 32) (w : Bool) (s : Fin 64) : EncodeDecode.Statement (.slli d a w s) := by
  intro wd hwf hw
  have hw : 536870912 + d.val * 2097152 + a.val * 65536 + w.toNat * 64 + s.val = wd := Option.some.inj hw
  have hw : wd = atop 6 s.val (atop 1 w.toNat (atop 9 0 (atop 5 a.val (atop 5 d.val (8))))) := by unfold atop; omega
  obtain ⟨f0, f1, f2, f3, f4, ho⟩ := unpack5 (n1 := 6)  (n2 := 1)  (n3 := 9)  (n4 := 5)  (n5 := 5) s.isLt w.toNat_lt (by decide) a.isLt d.isLt hw
  have ho : wd / 67108864 = 8 := ho
  refine decode_of_raw (by rw [ho]; rfl) ?_ hwf
  unfold decodeRaw
  rw [ho]
  show decodeOp08 wd = _
  unfold decodeOp08
  have c0 : fld wd 7 9 = 0 := f2
  refine Eq.trans ((if_pos c0)) ?_
  rw [(fin_of_fld (d := d) (m := fld wd 21 5) (f4)), (fin_of_fld (d := a) (m := fld wd 16 5) (f3)), (bit_of_fld (b := w) (lo := 6) (w := wd) (f1)), (fin_of_fld (d := s) (m := fld wd 0 6) (f0))]

theorem EncodeDecode.srli (d : Fin 32) (a : Fin 32) (w : Bool) (s : Fin 64) : EncodeDecode.Statement (.srli d a w s) := by
  intro wd hwf hw
  have hw : 536887296 + d.val * 2097152 + a.val * 65536 + w.toNat * 64 + s.val = wd := Option.some.inj hw
  have hw : wd = atop 6 s.val (atop 1 w.toNat (atop 9 128 (atop 5 a.val (atop 5 d.val (8))))) := by unfold atop; omega
  obtain ⟨f0, f1, f2, f3, f4, ho⟩ := unpack5 (n1 := 6)  (n2 := 1)  (n3 := 9)  (n4 := 5)  (n5 := 5) s.isLt w.toNat_lt (by decide) a.isLt d.isLt hw
  have ho : wd / 67108864 = 8 := ho
  refine decode_of_raw (by rw [ho]; rfl) ?_ hwf
  unfold decodeRaw
  rw [ho]
  show decodeOp08 wd = _
  unfold decodeOp08
  have c0 : fld wd 7 9 = 128 := f2
  refine Eq.trans ((if_neg (fun hh => absurd (c0.symm.trans hh) (by decide))).trans ((if_pos c0))) ?_
  rw [(fin_of_fld (d := d) (m := fld wd 21 5) (f4)), (fin_of_fld (d := a) (m := fld wd 16 5) (f3)), (bit_of_fld (b := w) (lo := 6) (w := wd) (f1)), (fin_of_fld (d := s) (m := fld wd 0 6) (f0))]

theorem EncodeDecode.srai (d : Fin 32) (a : Fin 32) (w : Bool) (s : Fin 64) : EncodeDecode.Statement (.srai d a w s) := by
  intro wd hwf hw
  have hw : 536903680 + d.val * 2097152 + a.val * 65536 + w.toNat * 64 + s.val = wd := Option.some.inj hw
  have hw : wd = atop 6 s.val (atop 1 w.toNat (atop 9 256 (atop 5 a.val (atop 5 d.val (8))))) := by unfold atop; omega
  obtain ⟨f0, f1, f2, f3, f4, ho⟩ := unpack5 (n1 := 6)  (n2 := 1)  (n3 := 9)  (n4 := 5)  (n5 := 5) s.isLt w.toNat_lt (by decide) a.isLt d.isLt hw
  have ho : wd / 67108864 = 8 := ho
  refine decode_of_raw (by rw [ho]; rfl) ?_ hwf
  unfold decodeRaw
  rw [ho]
  show decodeOp08 wd = _
  unfold decodeOp08
  have c0 : fld wd 7 9 = 256 := f2
  refine Eq.trans ((if_neg (fun hh => absurd (c0.symm.trans hh) (by decide))).trans ((if_neg (fun hh => absurd (c0.symm.trans hh) (by decide))).trans ((if_pos c0)))) ?_
  rw [(fin_of_fld (d := d) (m := fld wd 21 5) (f4)), (fin_of_fld (d := a) (m := fld wd 16 5) (f3)), (bit_of_fld (b := w) (lo := 6) (w := wd) (f1)), (fin_of_fld (d := s) (m := fld wd 0 6) (f0))]

theorem EncodeDecode.rori (d : Fin 32) (a : Fin 32) (w : Bool) (s : Fin 64) : EncodeDecode.Statement (.rori d a w s) := by
  intro wd hwf hw
  have hw : 536920064 + d.val * 2097152 + a.val * 65536 + w.toNat * 64 + s.val = wd := Option.some.inj hw
  have hw : wd = atop 6 s.val (atop 1 w.toNat (atop 9 384 (atop 5 a.val (atop 5 d.val (8))))) := by unfold atop; omega
  obtain ⟨f0, f1, f2, f3, f4, ho⟩ := unpack5 (n1 := 6)  (n2 := 1)  (n3 := 9)  (n4 := 5)  (n5 := 5) s.isLt w.toNat_lt (by decide) a.isLt d.isLt hw
  have ho : wd / 67108864 = 8 := ho
  refine decode_of_raw (by rw [ho]; rfl) ?_ hwf
  unfold decodeRaw
  rw [ho]
  show decodeOp08 wd = _
  unfold decodeOp08
  have c0 : fld wd 7 9 = 384 := f2
  refine Eq.trans ((if_neg (fun hh => absurd (c0.symm.trans hh) (by decide))).trans ((if_neg (fun hh => absurd (c0.symm.trans hh) (by decide))).trans ((if_neg (fun hh => absurd (c0.symm.trans hh) (by decide))).trans ((if_pos c0))))) ?_
  rw [(fin_of_fld (d := d) (m := fld wd 21 5) (f4)), (fin_of_fld (d := a) (m := fld wd 16 5) (f3)), (bit_of_fld (b := w) (lo := 6) (w := wd) (f1)), (fin_of_fld (d := s) (m := fld wd 0 6) (f0))]

theorem EncodeDecode.lui (d : Fin 32) (i : BitVec 21) : EncodeDecode.Statement (.lui d i) := by
  intro wd hwf hw
  have hw : 603979776 + d.val * 2097152 + i.toNat = wd := Option.some.inj hw
  have hw : wd = atop 21 i.toNat (atop 5 d.val (9)) := by unfold atop; omega
  obtain ⟨f0, f1, ho⟩ := unpack2 (n1 := 21)  (n2 := 5) i.isLt d.isLt hw
  have ho : wd / 67108864 = 9 := ho
  refine decode_of_raw (by rw [ho]; rfl) ?_ hwf
  unfold decodeRaw
  rw [ho]
  show decodeOp09 wd = _
  unfold decodeOp09
  rw [(fin_of_fld (d := d) (m := fld wd 21 5) (f1)), (vec_of_fld (v := i) (m := fld wd 0 21) (f0))]

theorem EncodeDecode.addpc (d : Fin 32) (i : BitVec 21) : EncodeDecode.Statement (.addpc d i) := by
  intro wd hwf hw
  have hw : 671088640 + d.val * 2097152 + i.toNat = wd := Option.some.inj hw
  have hw : wd = atop 21 i.toNat (atop 5 d.val (10)) := by unfold atop; omega
  obtain ⟨f0, f1, ho⟩ := unpack2 (n1 := 21)  (n2 := 5) i.isLt d.isLt hw
  have ho : wd / 67108864 = 10 := ho
  refine decode_of_raw (by rw [ho]; rfl) ?_ hwf
  unfold decodeRaw
  rw [ho]
  show decodeOp0A wd = _
  unfold decodeOp0A
  rw [(fin_of_fld (d := d) (m := fld wd 21 5) (f1)), (vec_of_fld (v := i) (m := fld wd 0 21) (f0))]

theorem EncodeDecode.jal (d : Fin 32) (o : BitVec 21) : EncodeDecode.Statement (.jal d o) := by
  intro wd hwf hw
  have hw : 738197504 + d.val * 2097152 + o.toNat = wd := Option.some.inj hw
  have hw : wd = atop 21 o.toNat (atop 5 d.val (11)) := by unfold atop; omega
  obtain ⟨f0, f1, ho⟩ := unpack2 (n1 := 21)  (n2 := 5) o.isLt d.isLt hw
  have ho : wd / 67108864 = 11 := ho
  refine decode_of_raw (by rw [ho]; rfl) ?_ hwf
  unfold decodeRaw
  rw [ho]
  show decodeOp0B wd = _
  unfold decodeOp0B
  rw [(fin_of_fld (d := d) (m := fld wd 21 5) (f1)), (vec_of_fld (v := o) (m := fld wd 0 21) (f0))]

theorem EncodeDecode.jalr (d : Fin 32) (a : Fin 32) (i : BitVec 16) : EncodeDecode.Statement (.jalr d a i) := by
  intro wd hwf hw
  have hw : 805306368 + d.val * 2097152 + a.val * 65536 + i.toNat = wd := Option.some.inj hw
  have hw : wd = atop 16 i.toNat (atop 5 a.val (atop 5 d.val (12))) := by unfold atop; omega
  obtain ⟨f0, f1, f2, ho⟩ := unpack3 (n1 := 16)  (n2 := 5)  (n3 := 5) i.isLt a.isLt d.isLt hw
  have ho : wd / 67108864 = 12 := ho
  refine decode_of_raw (by rw [ho]; rfl) ?_ hwf
  unfold decodeRaw
  rw [ho]
  show decodeOp0C wd = _
  unfold decodeOp0C
  rw [(fin_of_fld (d := d) (m := fld wd 21 5) (f2)), (fin_of_fld (d := a) (m := fld wd 16 5) (f1)), (vec_of_fld (v := i) (m := fld wd 0 16) (f0))]

theorem EncodeDecode.beq (a : Fin 32) (b : Fin 32) (o : BitVec 16) : EncodeDecode.Statement (.beq a b o) := by
  intro wd hwf hw
  have hw : 872415232 + a.val * 2097152 + b.val * 65536 + o.toNat = wd := Option.some.inj hw
  have hw : wd = atop 16 o.toNat (atop 5 b.val (atop 5 a.val (13))) := by unfold atop; omega
  obtain ⟨f0, f1, f2, ho⟩ := unpack3 (n1 := 16)  (n2 := 5)  (n3 := 5) o.isLt b.isLt a.isLt hw
  have ho : wd / 67108864 = 13 := ho
  refine decode_of_raw (by rw [ho]; rfl) ?_ hwf
  unfold decodeRaw
  rw [ho]
  show decodeOp0D wd = _
  unfold decodeOp0D
  rw [(fin_of_fld (d := a) (m := fld wd 21 5) (f2)), (fin_of_fld (d := b) (m := fld wd 16 5) (f1)), (vec_of_fld (v := o) (m := fld wd 0 16) (f0))]

theorem EncodeDecode.bne (a : Fin 32) (b : Fin 32) (o : BitVec 16) : EncodeDecode.Statement (.bne a b o) := by
  intro wd hwf hw
  have hw : 939524096 + a.val * 2097152 + b.val * 65536 + o.toNat = wd := Option.some.inj hw
  have hw : wd = atop 16 o.toNat (atop 5 b.val (atop 5 a.val (14))) := by unfold atop; omega
  obtain ⟨f0, f1, f2, ho⟩ := unpack3 (n1 := 16)  (n2 := 5)  (n3 := 5) o.isLt b.isLt a.isLt hw
  have ho : wd / 67108864 = 14 := ho
  refine decode_of_raw (by rw [ho]; rfl) ?_ hwf
  unfold decodeRaw
  rw [ho]
  show decodeOp0E wd = _
  unfold decodeOp0E
  rw [(fin_of_fld (d := a) (m := fld wd 21 5) (f2)), (fin_of_fld (d := b) (m := fld wd 16 5) (f1)), (vec_of_fld (v := o) (m := fld wd 0 16) (f0))]

theorem EncodeDecode.blt (a : Fin 32) (b : Fin 32) (o : BitVec 16) : EncodeDecode.Statement (.blt a b o) := by
  intro wd hwf hw
  have hw : 1006632960 + a.val * 2097152 + b.val * 65536 + o.toNat = wd := Option.some.inj hw
  have hw : wd = atop 16 o.toNat (atop 5 b.val (atop 5 a.val (15))) := by unfold atop; omega
  obtain ⟨f0, f1, f2, ho⟩ := unpack3 (n1 := 16)  (n2 := 5)  (n3 := 5) o.isLt b.isLt a.isLt hw
  have ho : wd / 67108864 = 15 := ho
  refine decode_of_raw (by rw [ho]; rfl) ?_ hwf
  unfold decodeRaw
  rw [ho]
  show decodeOp0F wd = _
  unfold decodeOp0F
  rw [(fin_of_fld (d := a) (m := fld wd 21 5) (f2)), (fin_of_fld (d := b) (m := fld wd 16 5) (f1)), (vec_of_fld (v := o) (m := fld wd 0 16) (f0))]

theorem EncodeDecode.bge (a : Fin 32) (b : Fin 32) (o : BitVec 16) : EncodeDecode.Statement (.bge a b o) := by
  intro wd hwf hw
  have hw : 1073741824 + a.val * 2097152 + b.val * 65536 + o.toNat = wd := Option.some.inj hw
  have hw : wd = atop 16 o.toNat (atop 5 b.val (atop 5 a.val (16))) := by unfold atop; omega
  obtain ⟨f0, f1, f2, ho⟩ := unpack3 (n1 := 16)  (n2 := 5)  (n3 := 5) o.isLt b.isLt a.isLt hw
  have ho : wd / 67108864 = 16 := ho
  refine decode_of_raw (by rw [ho]; rfl) ?_ hwf
  unfold decodeRaw
  rw [ho]
  show decodeOp10 wd = _
  unfold decodeOp10
  rw [(fin_of_fld (d := a) (m := fld wd 21 5) (f2)), (fin_of_fld (d := b) (m := fld wd 16 5) (f1)), (vec_of_fld (v := o) (m := fld wd 0 16) (f0))]

theorem EncodeDecode.bltu (a : Fin 32) (b : Fin 32) (o : BitVec 16) : EncodeDecode.Statement (.bltu a b o) := by
  intro wd hwf hw
  have hw : 1140850688 + a.val * 2097152 + b.val * 65536 + o.toNat = wd := Option.some.inj hw
  have hw : wd = atop 16 o.toNat (atop 5 b.val (atop 5 a.val (17))) := by unfold atop; omega
  obtain ⟨f0, f1, f2, ho⟩ := unpack3 (n1 := 16)  (n2 := 5)  (n3 := 5) o.isLt b.isLt a.isLt hw
  have ho : wd / 67108864 = 17 := ho
  refine decode_of_raw (by rw [ho]; rfl) ?_ hwf
  unfold decodeRaw
  rw [ho]
  show decodeOp11 wd = _
  unfold decodeOp11
  rw [(fin_of_fld (d := a) (m := fld wd 21 5) (f2)), (fin_of_fld (d := b) (m := fld wd 16 5) (f1)), (vec_of_fld (v := o) (m := fld wd 0 16) (f0))]

theorem EncodeDecode.bgeu (a : Fin 32) (b : Fin 32) (o : BitVec 16) : EncodeDecode.Statement (.bgeu a b o) := by
  intro wd hwf hw
  have hw : 1207959552 + a.val * 2097152 + b.val * 65536 + o.toNat = wd := Option.some.inj hw
  have hw : wd = atop 16 o.toNat (atop 5 b.val (atop 5 a.val (18))) := by unfold atop; omega
  obtain ⟨f0, f1, f2, ho⟩ := unpack3 (n1 := 16)  (n2 := 5)  (n3 := 5) o.isLt b.isLt a.isLt hw
  have ho : wd / 67108864 = 18 := ho
  refine decode_of_raw (by rw [ho]; rfl) ?_ hwf
  unfold decodeRaw
  rw [ho]
  show decodeOp12 wd = _
  unfold decodeOp12
  rw [(fin_of_fld (d := a) (m := fld wd 21 5) (f2)), (fin_of_fld (d := b) (m := fld wd 16 5) (f1)), (vec_of_fld (v := o) (m := fld wd 0 16) (f0))]

theorem EncodeDecode.lb (d : Fin 32) (a : Fin 32) (p : Policy) (i : BitVec 11) : EncodeDecode.Statement (.lb d a p i) := by
  intro wd hwf hw
  have hw : 1275068416 + d.val * 2097152 + a.val * 65536 + p.code * 16384 + i.toNat = wd := Option.some.inj hw
  have hw : wd = atop 11 i.toNat (atop 3 0 (atop 2 p.code (atop 5 a.val (atop 5 d.val (19))))) := by unfold atop; omega
  obtain ⟨f0, f1, f2, f3, f4, ho⟩ := unpack5 (n1 := 11)  (n2 := 3)  (n3 := 2)  (n4 := 5)  (n5 := 5) i.isLt (by decide) (Policy.code_lt p) a.isLt d.isLt hw
  have ho : wd / 67108864 = 19 := ho
  refine decode_of_raw (by rw [ho]; rfl) ?_ hwf
  unfold decodeRaw
  rw [ho]
  show decodeOp13 wd = _
  unfold decodeOp13
  have c0 : fld wd 11 3 = 0 := f1
  refine Eq.trans ((if_pos c0)) ?_
  rw [(fin_of_fld (d := d) (m := fld wd 21 5) (f4)), (fin_of_fld (d := a) (m := fld wd 16 5) (f3)), (policy_of_fld (p := p) (m := fld wd 14 2) (f2)), (vec_of_fld (v := i) (m := fld wd 0 11) (f0))]

theorem EncodeDecode.lbu (d : Fin 32) (a : Fin 32) (p : Policy) (i : BitVec 11) : EncodeDecode.Statement (.lbu d a p i) := by
  intro wd hwf hw
  have hw : 1275070464 + d.val * 2097152 + a.val * 65536 + p.code * 16384 + i.toNat = wd := Option.some.inj hw
  have hw : wd = atop 11 i.toNat (atop 3 1 (atop 2 p.code (atop 5 a.val (atop 5 d.val (19))))) := by unfold atop; omega
  obtain ⟨f0, f1, f2, f3, f4, ho⟩ := unpack5 (n1 := 11)  (n2 := 3)  (n3 := 2)  (n4 := 5)  (n5 := 5) i.isLt (by decide) (Policy.code_lt p) a.isLt d.isLt hw
  have ho : wd / 67108864 = 19 := ho
  refine decode_of_raw (by rw [ho]; rfl) ?_ hwf
  unfold decodeRaw
  rw [ho]
  show decodeOp13 wd = _
  unfold decodeOp13
  have c0 : fld wd 11 3 = 1 := f1
  refine Eq.trans ((if_neg (fun hh => absurd (c0.symm.trans hh) (by decide))).trans ((if_pos c0))) ?_
  rw [(fin_of_fld (d := d) (m := fld wd 21 5) (f4)), (fin_of_fld (d := a) (m := fld wd 16 5) (f3)), (policy_of_fld (p := p) (m := fld wd 14 2) (f2)), (vec_of_fld (v := i) (m := fld wd 0 11) (f0))]

theorem EncodeDecode.lh (d : Fin 32) (a : Fin 32) (p : Policy) (i : BitVec 11) : EncodeDecode.Statement (.lh d a p i) := by
  intro wd hwf hw
  have hw : 1275072512 + d.val * 2097152 + a.val * 65536 + p.code * 16384 + i.toNat = wd := Option.some.inj hw
  have hw : wd = atop 11 i.toNat (atop 3 2 (atop 2 p.code (atop 5 a.val (atop 5 d.val (19))))) := by unfold atop; omega
  obtain ⟨f0, f1, f2, f3, f4, ho⟩ := unpack5 (n1 := 11)  (n2 := 3)  (n3 := 2)  (n4 := 5)  (n5 := 5) i.isLt (by decide) (Policy.code_lt p) a.isLt d.isLt hw
  have ho : wd / 67108864 = 19 := ho
  refine decode_of_raw (by rw [ho]; rfl) ?_ hwf
  unfold decodeRaw
  rw [ho]
  show decodeOp13 wd = _
  unfold decodeOp13
  have c0 : fld wd 11 3 = 2 := f1
  refine Eq.trans ((if_neg (fun hh => absurd (c0.symm.trans hh) (by decide))).trans ((if_neg (fun hh => absurd (c0.symm.trans hh) (by decide))).trans ((if_pos c0)))) ?_
  rw [(fin_of_fld (d := d) (m := fld wd 21 5) (f4)), (fin_of_fld (d := a) (m := fld wd 16 5) (f3)), (policy_of_fld (p := p) (m := fld wd 14 2) (f2)), (vec_of_fld (v := i) (m := fld wd 0 11) (f0))]

theorem EncodeDecode.lhu (d : Fin 32) (a : Fin 32) (p : Policy) (i : BitVec 11) : EncodeDecode.Statement (.lhu d a p i) := by
  intro wd hwf hw
  have hw : 1275074560 + d.val * 2097152 + a.val * 65536 + p.code * 16384 + i.toNat = wd := Option.some.inj hw
  have hw : wd = atop 11 i.toNat (atop 3 3 (atop 2 p.code (atop 5 a.val (atop 5 d.val (19))))) := by unfold atop; omega
  obtain ⟨f0, f1, f2, f3, f4, ho⟩ := unpack5 (n1 := 11)  (n2 := 3)  (n3 := 2)  (n4 := 5)  (n5 := 5) i.isLt (by decide) (Policy.code_lt p) a.isLt d.isLt hw
  have ho : wd / 67108864 = 19 := ho
  refine decode_of_raw (by rw [ho]; rfl) ?_ hwf
  unfold decodeRaw
  rw [ho]
  show decodeOp13 wd = _
  unfold decodeOp13
  have c0 : fld wd 11 3 = 3 := f1
  refine Eq.trans ((if_neg (fun hh => absurd (c0.symm.trans hh) (by decide))).trans ((if_neg (fun hh => absurd (c0.symm.trans hh) (by decide))).trans ((if_neg (fun hh => absurd (c0.symm.trans hh) (by decide))).trans ((if_pos c0))))) ?_
  rw [(fin_of_fld (d := d) (m := fld wd 21 5) (f4)), (fin_of_fld (d := a) (m := fld wd 16 5) (f3)), (policy_of_fld (p := p) (m := fld wd 14 2) (f2)), (vec_of_fld (v := i) (m := fld wd 0 11) (f0))]

theorem EncodeDecode.lw (d : Fin 32) (a : Fin 32) (p : Policy) (i : BitVec 11) : EncodeDecode.Statement (.lw d a p i) := by
  intro wd hwf hw
  have hw : 1275076608 + d.val * 2097152 + a.val * 65536 + p.code * 16384 + i.toNat = wd := Option.some.inj hw
  have hw : wd = atop 11 i.toNat (atop 3 4 (atop 2 p.code (atop 5 a.val (atop 5 d.val (19))))) := by unfold atop; omega
  obtain ⟨f0, f1, f2, f3, f4, ho⟩ := unpack5 (n1 := 11)  (n2 := 3)  (n3 := 2)  (n4 := 5)  (n5 := 5) i.isLt (by decide) (Policy.code_lt p) a.isLt d.isLt hw
  have ho : wd / 67108864 = 19 := ho
  refine decode_of_raw (by rw [ho]; rfl) ?_ hwf
  unfold decodeRaw
  rw [ho]
  show decodeOp13 wd = _
  unfold decodeOp13
  have c0 : fld wd 11 3 = 4 := f1
  refine Eq.trans ((if_neg (fun hh => absurd (c0.symm.trans hh) (by decide))).trans ((if_neg (fun hh => absurd (c0.symm.trans hh) (by decide))).trans ((if_neg (fun hh => absurd (c0.symm.trans hh) (by decide))).trans ((if_neg (fun hh => absurd (c0.symm.trans hh) (by decide))).trans ((if_pos c0)))))) ?_
  rw [(fin_of_fld (d := d) (m := fld wd 21 5) (f4)), (fin_of_fld (d := a) (m := fld wd 16 5) (f3)), (policy_of_fld (p := p) (m := fld wd 14 2) (f2)), (vec_of_fld (v := i) (m := fld wd 0 11) (f0))]

theorem EncodeDecode.lwu (d : Fin 32) (a : Fin 32) (p : Policy) (i : BitVec 11) : EncodeDecode.Statement (.lwu d a p i) := by
  intro wd hwf hw
  have hw : 1275078656 + d.val * 2097152 + a.val * 65536 + p.code * 16384 + i.toNat = wd := Option.some.inj hw
  have hw : wd = atop 11 i.toNat (atop 3 5 (atop 2 p.code (atop 5 a.val (atop 5 d.val (19))))) := by unfold atop; omega
  obtain ⟨f0, f1, f2, f3, f4, ho⟩ := unpack5 (n1 := 11)  (n2 := 3)  (n3 := 2)  (n4 := 5)  (n5 := 5) i.isLt (by decide) (Policy.code_lt p) a.isLt d.isLt hw
  have ho : wd / 67108864 = 19 := ho
  refine decode_of_raw (by rw [ho]; rfl) ?_ hwf
  unfold decodeRaw
  rw [ho]
  show decodeOp13 wd = _
  unfold decodeOp13
  have c0 : fld wd 11 3 = 5 := f1
  refine Eq.trans ((if_neg (fun hh => absurd (c0.symm.trans hh) (by decide))).trans ((if_neg (fun hh => absurd (c0.symm.trans hh) (by decide))).trans ((if_neg (fun hh => absurd (c0.symm.trans hh) (by decide))).trans ((if_neg (fun hh => absurd (c0.symm.trans hh) (by decide))).trans ((if_neg (fun hh => absurd (c0.symm.trans hh) (by decide))).trans ((if_pos c0))))))) ?_
  rw [(fin_of_fld (d := d) (m := fld wd 21 5) (f4)), (fin_of_fld (d := a) (m := fld wd 16 5) (f3)), (policy_of_fld (p := p) (m := fld wd 14 2) (f2)), (vec_of_fld (v := i) (m := fld wd 0 11) (f0))]

theorem EncodeDecode.ld (d : Fin 32) (a : Fin 32) (p : Policy) (i : BitVec 11) : EncodeDecode.Statement (.ld d a p i) := by
  intro wd hwf hw
  have hw : 1275080704 + d.val * 2097152 + a.val * 65536 + p.code * 16384 + i.toNat = wd := Option.some.inj hw
  have hw : wd = atop 11 i.toNat (atop 3 6 (atop 2 p.code (atop 5 a.val (atop 5 d.val (19))))) := by unfold atop; omega
  obtain ⟨f0, f1, f2, f3, f4, ho⟩ := unpack5 (n1 := 11)  (n2 := 3)  (n3 := 2)  (n4 := 5)  (n5 := 5) i.isLt (by decide) (Policy.code_lt p) a.isLt d.isLt hw
  have ho : wd / 67108864 = 19 := ho
  refine decode_of_raw (by rw [ho]; rfl) ?_ hwf
  unfold decodeRaw
  rw [ho]
  show decodeOp13 wd = _
  unfold decodeOp13
  have c0 : fld wd 11 3 = 6 := f1
  refine Eq.trans ((if_neg (fun hh => absurd (c0.symm.trans hh) (by decide))).trans ((if_neg (fun hh => absurd (c0.symm.trans hh) (by decide))).trans ((if_neg (fun hh => absurd (c0.symm.trans hh) (by decide))).trans ((if_neg (fun hh => absurd (c0.symm.trans hh) (by decide))).trans ((if_neg (fun hh => absurd (c0.symm.trans hh) (by decide))).trans ((if_neg (fun hh => absurd (c0.symm.trans hh) (by decide))).trans ((if_pos c0)))))))) ?_
  rw [(fin_of_fld (d := d) (m := fld wd 21 5) (f4)), (fin_of_fld (d := a) (m := fld wd 16 5) (f3)), (policy_of_fld (p := p) (m := fld wd 14 2) (f2)), (vec_of_fld (v := i) (m := fld wd 0 11) (f0))]

theorem EncodeDecode.sb (d : Fin 32) (a : Fin 32) (p : Policy) (i : BitVec 11) : EncodeDecode.Statement (.sb d a p i) := by
  intro wd hwf hw
  have hw : 1342177280 + d.val * 2097152 + a.val * 65536 + p.code * 16384 + i.toNat = wd := Option.some.inj hw
  have hw : wd = atop 11 i.toNat (atop 3 0 (atop 2 p.code (atop 5 a.val (atop 5 d.val (20))))) := by unfold atop; omega
  obtain ⟨f0, f1, f2, f3, f4, ho⟩ := unpack5 (n1 := 11)  (n2 := 3)  (n3 := 2)  (n4 := 5)  (n5 := 5) i.isLt (by decide) (Policy.code_lt p) a.isLt d.isLt hw
  have ho : wd / 67108864 = 20 := ho
  refine decode_of_raw (by rw [ho]; rfl) ?_ hwf
  unfold decodeRaw
  rw [ho]
  show decodeOp14 wd = _
  unfold decodeOp14
  have c0 : fld wd 11 3 = 0 := f1
  refine Eq.trans ((if_pos c0)) ?_
  rw [(fin_of_fld (d := d) (m := fld wd 21 5) (f4)), (fin_of_fld (d := a) (m := fld wd 16 5) (f3)), (policy_of_fld (p := p) (m := fld wd 14 2) (f2)), (vec_of_fld (v := i) (m := fld wd 0 11) (f0))]

theorem EncodeDecode.sh (d : Fin 32) (a : Fin 32) (p : Policy) (i : BitVec 11) : EncodeDecode.Statement (.sh d a p i) := by
  intro wd hwf hw
  have hw : 1342181376 + d.val * 2097152 + a.val * 65536 + p.code * 16384 + i.toNat = wd := Option.some.inj hw
  have hw : wd = atop 11 i.toNat (atop 3 2 (atop 2 p.code (atop 5 a.val (atop 5 d.val (20))))) := by unfold atop; omega
  obtain ⟨f0, f1, f2, f3, f4, ho⟩ := unpack5 (n1 := 11)  (n2 := 3)  (n3 := 2)  (n4 := 5)  (n5 := 5) i.isLt (by decide) (Policy.code_lt p) a.isLt d.isLt hw
  have ho : wd / 67108864 = 20 := ho
  refine decode_of_raw (by rw [ho]; rfl) ?_ hwf
  unfold decodeRaw
  rw [ho]
  show decodeOp14 wd = _
  unfold decodeOp14
  have c0 : fld wd 11 3 = 2 := f1
  refine Eq.trans ((if_neg (fun hh => absurd (c0.symm.trans hh) (by decide))).trans ((if_pos c0))) ?_
  rw [(fin_of_fld (d := d) (m := fld wd 21 5) (f4)), (fin_of_fld (d := a) (m := fld wd 16 5) (f3)), (policy_of_fld (p := p) (m := fld wd 14 2) (f2)), (vec_of_fld (v := i) (m := fld wd 0 11) (f0))]

theorem EncodeDecode.sw (d : Fin 32) (a : Fin 32) (p : Policy) (i : BitVec 11) : EncodeDecode.Statement (.sw d a p i) := by
  intro wd hwf hw
  have hw : 1342185472 + d.val * 2097152 + a.val * 65536 + p.code * 16384 + i.toNat = wd := Option.some.inj hw
  have hw : wd = atop 11 i.toNat (atop 3 4 (atop 2 p.code (atop 5 a.val (atop 5 d.val (20))))) := by unfold atop; omega
  obtain ⟨f0, f1, f2, f3, f4, ho⟩ := unpack5 (n1 := 11)  (n2 := 3)  (n3 := 2)  (n4 := 5)  (n5 := 5) i.isLt (by decide) (Policy.code_lt p) a.isLt d.isLt hw
  have ho : wd / 67108864 = 20 := ho
  refine decode_of_raw (by rw [ho]; rfl) ?_ hwf
  unfold decodeRaw
  rw [ho]
  show decodeOp14 wd = _
  unfold decodeOp14
  have c0 : fld wd 11 3 = 4 := f1
  refine Eq.trans ((if_neg (fun hh => absurd (c0.symm.trans hh) (by decide))).trans ((if_neg (fun hh => absurd (c0.symm.trans hh) (by decide))).trans ((if_pos c0)))) ?_
  rw [(fin_of_fld (d := d) (m := fld wd 21 5) (f4)), (fin_of_fld (d := a) (m := fld wd 16 5) (f3)), (policy_of_fld (p := p) (m := fld wd 14 2) (f2)), (vec_of_fld (v := i) (m := fld wd 0 11) (f0))]

theorem EncodeDecode.sd (d : Fin 32) (a : Fin 32) (p : Policy) (i : BitVec 11) : EncodeDecode.Statement (.sd d a p i) := by
  intro wd hwf hw
  have hw : 1342189568 + d.val * 2097152 + a.val * 65536 + p.code * 16384 + i.toNat = wd := Option.some.inj hw
  have hw : wd = atop 11 i.toNat (atop 3 6 (atop 2 p.code (atop 5 a.val (atop 5 d.val (20))))) := by unfold atop; omega
  obtain ⟨f0, f1, f2, f3, f4, ho⟩ := unpack5 (n1 := 11)  (n2 := 3)  (n3 := 2)  (n4 := 5)  (n5 := 5) i.isLt (by decide) (Policy.code_lt p) a.isLt d.isLt hw
  have ho : wd / 67108864 = 20 := ho
  refine decode_of_raw (by rw [ho]; rfl) ?_ hwf
  unfold decodeRaw
  rw [ho]
  show decodeOp14 wd = _
  unfold decodeOp14
  have c0 : fld wd 11 3 = 6 := f1
  refine Eq.trans ((if_neg (fun hh => absurd (c0.symm.trans hh) (by decide))).trans ((if_neg (fun hh => absurd (c0.symm.trans hh) (by decide))).trans ((if_neg (fun hh => absurd (c0.symm.trans hh) (by decide))).trans ((if_pos c0))))) ?_
  rw [(fin_of_fld (d := d) (m := fld wd 21 5) (f4)), (fin_of_fld (d := a) (m := fld wd 16 5) (f3)), (policy_of_fld (p := p) (m := fld wd 14 2) (f2)), (vec_of_fld (v := i) (m := fld wd 0 11) (f0))]

theorem EncodeDecode.amoswap (d : Fin 32) (a : Fin 32) (b : Fin 32) (s : Fin 4) (l : Bool) (q : Bool) (f : Bool) (w : Bool) : EncodeDecode.Statement (.amoswap d a b s l q f w) := by
  intro wd hwf hw
  have hw : 1409286144 + d.val * 2097152 + a.val * 65536 + b.val * 2048 + s.val * 256 + l.toNat * 128 + q.toNat * 64 + f.toNat * 32 + w.toNat * 16 = wd := Option.some.inj hw
  have hw : wd = atop 4 0 (atop 1 w.toNat (atop 1 f.toNat (atop 1 q.toNat (atop 1 l.toNat (atop 2 s.val (atop 1 0 (atop 5 b.val (atop 5 a.val (atop 5 d.val (21)))))))))) := by unfold atop; omega
  obtain ⟨f0, f1, f2, f3, f4, f5, f6, f7, f8, f9, ho⟩ := unpack10 (n1 := 4)  (n2 := 1)  (n3 := 1)  (n4 := 1)  (n5 := 1)  (n6 := 2)  (n7 := 1)  (n8 := 5)  (n9 := 5)  (n10 := 5) (by decide) w.toNat_lt f.toNat_lt q.toNat_lt l.toNat_lt s.isLt (by decide) b.isLt a.isLt d.isLt hw
  have ho : wd / 67108864 = 21 := ho
  refine decode_of_raw (by rw [ho]; rfl) ?_ hwf
  unfold decodeRaw
  rw [ho]
  show decodeOp15 wd = _
  unfold decodeOp15
  have c0 : fld wd 0 4 = 0 := f0
  have c1 : fld wd 10 1 = 0 := f6
  refine Eq.trans ((if_pos ⟨c0, c1⟩)) ?_
  rw [(fin_of_fld (d := d) (m := fld wd 21 5) (f9)), (fin_of_fld (d := a) (m := fld wd 16 5) (f8)), (fin_of_fld (d := b) (m := fld wd 11 5) (f7)), (fin_of_fld (d := s) (m := fld wd 8 2) (f5)), (bit_of_fld (b := l) (lo := 7) (w := wd) (f4)), (bit_of_fld (b := q) (lo := 6) (w := wd) (f3)), (bit_of_fld (b := f) (lo := 5) (w := wd) (f2)), (bit_of_fld (b := w) (lo := 4) (w := wd) (f1))]

theorem EncodeDecode.amoadd (d : Fin 32) (a : Fin 32) (b : Fin 32) (s : Fin 4) (l : Bool) (q : Bool) (f : Bool) (w : Bool) : EncodeDecode.Statement (.amoadd d a b s l q f w) := by
  intro wd hwf hw
  have hw : 1409286145 + d.val * 2097152 + a.val * 65536 + b.val * 2048 + s.val * 256 + l.toNat * 128 + q.toNat * 64 + f.toNat * 32 + w.toNat * 16 = wd := Option.some.inj hw
  have hw : wd = atop 4 1 (atop 1 w.toNat (atop 1 f.toNat (atop 1 q.toNat (atop 1 l.toNat (atop 2 s.val (atop 1 0 (atop 5 b.val (atop 5 a.val (atop 5 d.val (21)))))))))) := by unfold atop; omega
  obtain ⟨f0, f1, f2, f3, f4, f5, f6, f7, f8, f9, ho⟩ := unpack10 (n1 := 4)  (n2 := 1)  (n3 := 1)  (n4 := 1)  (n5 := 1)  (n6 := 2)  (n7 := 1)  (n8 := 5)  (n9 := 5)  (n10 := 5) (by decide) w.toNat_lt f.toNat_lt q.toNat_lt l.toNat_lt s.isLt (by decide) b.isLt a.isLt d.isLt hw
  have ho : wd / 67108864 = 21 := ho
  refine decode_of_raw (by rw [ho]; rfl) ?_ hwf
  unfold decodeRaw
  rw [ho]
  show decodeOp15 wd = _
  unfold decodeOp15
  have c0 : fld wd 0 4 = 1 := f0
  have c1 : fld wd 10 1 = 0 := f6
  refine Eq.trans ((if_neg (fun hh => absurd (c0.symm.trans hh.1) (by decide))).trans ((if_pos ⟨c0, c1⟩))) ?_
  rw [(fin_of_fld (d := d) (m := fld wd 21 5) (f9)), (fin_of_fld (d := a) (m := fld wd 16 5) (f8)), (fin_of_fld (d := b) (m := fld wd 11 5) (f7)), (fin_of_fld (d := s) (m := fld wd 8 2) (f5)), (bit_of_fld (b := l) (lo := 7) (w := wd) (f4)), (bit_of_fld (b := q) (lo := 6) (w := wd) (f3)), (bit_of_fld (b := f) (lo := 5) (w := wd) (f2)), (bit_of_fld (b := w) (lo := 4) (w := wd) (f1))]

theorem EncodeDecode.amoand (d : Fin 32) (a : Fin 32) (b : Fin 32) (s : Fin 4) (l : Bool) (q : Bool) (f : Bool) (w : Bool) : EncodeDecode.Statement (.amoand d a b s l q f w) := by
  intro wd hwf hw
  have hw : 1409286146 + d.val * 2097152 + a.val * 65536 + b.val * 2048 + s.val * 256 + l.toNat * 128 + q.toNat * 64 + f.toNat * 32 + w.toNat * 16 = wd := Option.some.inj hw
  have hw : wd = atop 4 2 (atop 1 w.toNat (atop 1 f.toNat (atop 1 q.toNat (atop 1 l.toNat (atop 2 s.val (atop 1 0 (atop 5 b.val (atop 5 a.val (atop 5 d.val (21)))))))))) := by unfold atop; omega
  obtain ⟨f0, f1, f2, f3, f4, f5, f6, f7, f8, f9, ho⟩ := unpack10 (n1 := 4)  (n2 := 1)  (n3 := 1)  (n4 := 1)  (n5 := 1)  (n6 := 2)  (n7 := 1)  (n8 := 5)  (n9 := 5)  (n10 := 5) (by decide) w.toNat_lt f.toNat_lt q.toNat_lt l.toNat_lt s.isLt (by decide) b.isLt a.isLt d.isLt hw
  have ho : wd / 67108864 = 21 := ho
  refine decode_of_raw (by rw [ho]; rfl) ?_ hwf
  unfold decodeRaw
  rw [ho]
  show decodeOp15 wd = _
  unfold decodeOp15
  have c0 : fld wd 0 4 = 2 := f0
  have c1 : fld wd 10 1 = 0 := f6
  refine Eq.trans ((if_neg (fun hh => absurd (c0.symm.trans hh.1) (by decide))).trans ((if_neg (fun hh => absurd (c0.symm.trans hh.1) (by decide))).trans ((if_pos ⟨c0, c1⟩)))) ?_
  rw [(fin_of_fld (d := d) (m := fld wd 21 5) (f9)), (fin_of_fld (d := a) (m := fld wd 16 5) (f8)), (fin_of_fld (d := b) (m := fld wd 11 5) (f7)), (fin_of_fld (d := s) (m := fld wd 8 2) (f5)), (bit_of_fld (b := l) (lo := 7) (w := wd) (f4)), (bit_of_fld (b := q) (lo := 6) (w := wd) (f3)), (bit_of_fld (b := f) (lo := 5) (w := wd) (f2)), (bit_of_fld (b := w) (lo := 4) (w := wd) (f1))]

theorem EncodeDecode.amoor (d : Fin 32) (a : Fin 32) (b : Fin 32) (s : Fin 4) (l : Bool) (q : Bool) (f : Bool) (w : Bool) : EncodeDecode.Statement (.amoor d a b s l q f w) := by
  intro wd hwf hw
  have hw : 1409286147 + d.val * 2097152 + a.val * 65536 + b.val * 2048 + s.val * 256 + l.toNat * 128 + q.toNat * 64 + f.toNat * 32 + w.toNat * 16 = wd := Option.some.inj hw
  have hw : wd = atop 4 3 (atop 1 w.toNat (atop 1 f.toNat (atop 1 q.toNat (atop 1 l.toNat (atop 2 s.val (atop 1 0 (atop 5 b.val (atop 5 a.val (atop 5 d.val (21)))))))))) := by unfold atop; omega
  obtain ⟨f0, f1, f2, f3, f4, f5, f6, f7, f8, f9, ho⟩ := unpack10 (n1 := 4)  (n2 := 1)  (n3 := 1)  (n4 := 1)  (n5 := 1)  (n6 := 2)  (n7 := 1)  (n8 := 5)  (n9 := 5)  (n10 := 5) (by decide) w.toNat_lt f.toNat_lt q.toNat_lt l.toNat_lt s.isLt (by decide) b.isLt a.isLt d.isLt hw
  have ho : wd / 67108864 = 21 := ho
  refine decode_of_raw (by rw [ho]; rfl) ?_ hwf
  unfold decodeRaw
  rw [ho]
  show decodeOp15 wd = _
  unfold decodeOp15
  have c0 : fld wd 0 4 = 3 := f0
  have c1 : fld wd 10 1 = 0 := f6
  refine Eq.trans ((if_neg (fun hh => absurd (c0.symm.trans hh.1) (by decide))).trans ((if_neg (fun hh => absurd (c0.symm.trans hh.1) (by decide))).trans ((if_neg (fun hh => absurd (c0.symm.trans hh.1) (by decide))).trans ((if_pos ⟨c0, c1⟩))))) ?_
  rw [(fin_of_fld (d := d) (m := fld wd 21 5) (f9)), (fin_of_fld (d := a) (m := fld wd 16 5) (f8)), (fin_of_fld (d := b) (m := fld wd 11 5) (f7)), (fin_of_fld (d := s) (m := fld wd 8 2) (f5)), (bit_of_fld (b := l) (lo := 7) (w := wd) (f4)), (bit_of_fld (b := q) (lo := 6) (w := wd) (f3)), (bit_of_fld (b := f) (lo := 5) (w := wd) (f2)), (bit_of_fld (b := w) (lo := 4) (w := wd) (f1))]

theorem EncodeDecode.amoxor (d : Fin 32) (a : Fin 32) (b : Fin 32) (s : Fin 4) (l : Bool) (q : Bool) (f : Bool) (w : Bool) : EncodeDecode.Statement (.amoxor d a b s l q f w) := by
  intro wd hwf hw
  have hw : 1409286148 + d.val * 2097152 + a.val * 65536 + b.val * 2048 + s.val * 256 + l.toNat * 128 + q.toNat * 64 + f.toNat * 32 + w.toNat * 16 = wd := Option.some.inj hw
  have hw : wd = atop 4 4 (atop 1 w.toNat (atop 1 f.toNat (atop 1 q.toNat (atop 1 l.toNat (atop 2 s.val (atop 1 0 (atop 5 b.val (atop 5 a.val (atop 5 d.val (21)))))))))) := by unfold atop; omega
  obtain ⟨f0, f1, f2, f3, f4, f5, f6, f7, f8, f9, ho⟩ := unpack10 (n1 := 4)  (n2 := 1)  (n3 := 1)  (n4 := 1)  (n5 := 1)  (n6 := 2)  (n7 := 1)  (n8 := 5)  (n9 := 5)  (n10 := 5) (by decide) w.toNat_lt f.toNat_lt q.toNat_lt l.toNat_lt s.isLt (by decide) b.isLt a.isLt d.isLt hw
  have ho : wd / 67108864 = 21 := ho
  refine decode_of_raw (by rw [ho]; rfl) ?_ hwf
  unfold decodeRaw
  rw [ho]
  show decodeOp15 wd = _
  unfold decodeOp15
  have c0 : fld wd 0 4 = 4 := f0
  have c1 : fld wd 10 1 = 0 := f6
  refine Eq.trans ((if_neg (fun hh => absurd (c0.symm.trans hh.1) (by decide))).trans ((if_neg (fun hh => absurd (c0.symm.trans hh.1) (by decide))).trans ((if_neg (fun hh => absurd (c0.symm.trans hh.1) (by decide))).trans ((if_neg (fun hh => absurd (c0.symm.trans hh.1) (by decide))).trans ((if_pos ⟨c0, c1⟩)))))) ?_
  rw [(fin_of_fld (d := d) (m := fld wd 21 5) (f9)), (fin_of_fld (d := a) (m := fld wd 16 5) (f8)), (fin_of_fld (d := b) (m := fld wd 11 5) (f7)), (fin_of_fld (d := s) (m := fld wd 8 2) (f5)), (bit_of_fld (b := l) (lo := 7) (w := wd) (f4)), (bit_of_fld (b := q) (lo := 6) (w := wd) (f3)), (bit_of_fld (b := f) (lo := 5) (w := wd) (f2)), (bit_of_fld (b := w) (lo := 4) (w := wd) (f1))]

theorem EncodeDecode.amomin (d : Fin 32) (a : Fin 32) (b : Fin 32) (s : Fin 4) (l : Bool) (q : Bool) (f : Bool) (w : Bool) : EncodeDecode.Statement (.amomin d a b s l q f w) := by
  intro wd hwf hw
  have hw : 1409286149 + d.val * 2097152 + a.val * 65536 + b.val * 2048 + s.val * 256 + l.toNat * 128 + q.toNat * 64 + f.toNat * 32 + w.toNat * 16 = wd := Option.some.inj hw
  have hw : wd = atop 4 5 (atop 1 w.toNat (atop 1 f.toNat (atop 1 q.toNat (atop 1 l.toNat (atop 2 s.val (atop 1 0 (atop 5 b.val (atop 5 a.val (atop 5 d.val (21)))))))))) := by unfold atop; omega
  obtain ⟨f0, f1, f2, f3, f4, f5, f6, f7, f8, f9, ho⟩ := unpack10 (n1 := 4)  (n2 := 1)  (n3 := 1)  (n4 := 1)  (n5 := 1)  (n6 := 2)  (n7 := 1)  (n8 := 5)  (n9 := 5)  (n10 := 5) (by decide) w.toNat_lt f.toNat_lt q.toNat_lt l.toNat_lt s.isLt (by decide) b.isLt a.isLt d.isLt hw
  have ho : wd / 67108864 = 21 := ho
  refine decode_of_raw (by rw [ho]; rfl) ?_ hwf
  unfold decodeRaw
  rw [ho]
  show decodeOp15 wd = _
  unfold decodeOp15
  have c0 : fld wd 0 4 = 5 := f0
  have c1 : fld wd 10 1 = 0 := f6
  refine Eq.trans ((if_neg (fun hh => absurd (c0.symm.trans hh.1) (by decide))).trans ((if_neg (fun hh => absurd (c0.symm.trans hh.1) (by decide))).trans ((if_neg (fun hh => absurd (c0.symm.trans hh.1) (by decide))).trans ((if_neg (fun hh => absurd (c0.symm.trans hh.1) (by decide))).trans ((if_neg (fun hh => absurd (c0.symm.trans hh.1) (by decide))).trans ((if_pos ⟨c0, c1⟩))))))) ?_
  rw [(fin_of_fld (d := d) (m := fld wd 21 5) (f9)), (fin_of_fld (d := a) (m := fld wd 16 5) (f8)), (fin_of_fld (d := b) (m := fld wd 11 5) (f7)), (fin_of_fld (d := s) (m := fld wd 8 2) (f5)), (bit_of_fld (b := l) (lo := 7) (w := wd) (f4)), (bit_of_fld (b := q) (lo := 6) (w := wd) (f3)), (bit_of_fld (b := f) (lo := 5) (w := wd) (f2)), (bit_of_fld (b := w) (lo := 4) (w := wd) (f1))]

theorem EncodeDecode.amomax (d : Fin 32) (a : Fin 32) (b : Fin 32) (s : Fin 4) (l : Bool) (q : Bool) (f : Bool) (w : Bool) : EncodeDecode.Statement (.amomax d a b s l q f w) := by
  intro wd hwf hw
  have hw : 1409286150 + d.val * 2097152 + a.val * 65536 + b.val * 2048 + s.val * 256 + l.toNat * 128 + q.toNat * 64 + f.toNat * 32 + w.toNat * 16 = wd := Option.some.inj hw
  have hw : wd = atop 4 6 (atop 1 w.toNat (atop 1 f.toNat (atop 1 q.toNat (atop 1 l.toNat (atop 2 s.val (atop 1 0 (atop 5 b.val (atop 5 a.val (atop 5 d.val (21)))))))))) := by unfold atop; omega
  obtain ⟨f0, f1, f2, f3, f4, f5, f6, f7, f8, f9, ho⟩ := unpack10 (n1 := 4)  (n2 := 1)  (n3 := 1)  (n4 := 1)  (n5 := 1)  (n6 := 2)  (n7 := 1)  (n8 := 5)  (n9 := 5)  (n10 := 5) (by decide) w.toNat_lt f.toNat_lt q.toNat_lt l.toNat_lt s.isLt (by decide) b.isLt a.isLt d.isLt hw
  have ho : wd / 67108864 = 21 := ho
  refine decode_of_raw (by rw [ho]; rfl) ?_ hwf
  unfold decodeRaw
  rw [ho]
  show decodeOp15 wd = _
  unfold decodeOp15
  have c0 : fld wd 0 4 = 6 := f0
  have c1 : fld wd 10 1 = 0 := f6
  refine Eq.trans ((if_neg (fun hh => absurd (c0.symm.trans hh.1) (by decide))).trans ((if_neg (fun hh => absurd (c0.symm.trans hh.1) (by decide))).trans ((if_neg (fun hh => absurd (c0.symm.trans hh.1) (by decide))).trans ((if_neg (fun hh => absurd (c0.symm.trans hh.1) (by decide))).trans ((if_neg (fun hh => absurd (c0.symm.trans hh.1) (by decide))).trans ((if_neg (fun hh => absurd (c0.symm.trans hh.1) (by decide))).trans ((if_pos ⟨c0, c1⟩)))))))) ?_
  rw [(fin_of_fld (d := d) (m := fld wd 21 5) (f9)), (fin_of_fld (d := a) (m := fld wd 16 5) (f8)), (fin_of_fld (d := b) (m := fld wd 11 5) (f7)), (fin_of_fld (d := s) (m := fld wd 8 2) (f5)), (bit_of_fld (b := l) (lo := 7) (w := wd) (f4)), (bit_of_fld (b := q) (lo := 6) (w := wd) (f3)), (bit_of_fld (b := f) (lo := 5) (w := wd) (f2)), (bit_of_fld (b := w) (lo := 4) (w := wd) (f1))]

theorem EncodeDecode.amominu (d : Fin 32) (a : Fin 32) (b : Fin 32) (s : Fin 4) (l : Bool) (q : Bool) (f : Bool) (w : Bool) : EncodeDecode.Statement (.amominu d a b s l q f w) := by
  intro wd hwf hw
  have hw : 1409286151 + d.val * 2097152 + a.val * 65536 + b.val * 2048 + s.val * 256 + l.toNat * 128 + q.toNat * 64 + f.toNat * 32 + w.toNat * 16 = wd := Option.some.inj hw
  have hw : wd = atop 4 7 (atop 1 w.toNat (atop 1 f.toNat (atop 1 q.toNat (atop 1 l.toNat (atop 2 s.val (atop 1 0 (atop 5 b.val (atop 5 a.val (atop 5 d.val (21)))))))))) := by unfold atop; omega
  obtain ⟨f0, f1, f2, f3, f4, f5, f6, f7, f8, f9, ho⟩ := unpack10 (n1 := 4)  (n2 := 1)  (n3 := 1)  (n4 := 1)  (n5 := 1)  (n6 := 2)  (n7 := 1)  (n8 := 5)  (n9 := 5)  (n10 := 5) (by decide) w.toNat_lt f.toNat_lt q.toNat_lt l.toNat_lt s.isLt (by decide) b.isLt a.isLt d.isLt hw
  have ho : wd / 67108864 = 21 := ho
  refine decode_of_raw (by rw [ho]; rfl) ?_ hwf
  unfold decodeRaw
  rw [ho]
  show decodeOp15 wd = _
  unfold decodeOp15
  have c0 : fld wd 0 4 = 7 := f0
  have c1 : fld wd 10 1 = 0 := f6
  refine Eq.trans ((if_neg (fun hh => absurd (c0.symm.trans hh.1) (by decide))).trans ((if_neg (fun hh => absurd (c0.symm.trans hh.1) (by decide))).trans ((if_neg (fun hh => absurd (c0.symm.trans hh.1) (by decide))).trans ((if_neg (fun hh => absurd (c0.symm.trans hh.1) (by decide))).trans ((if_neg (fun hh => absurd (c0.symm.trans hh.1) (by decide))).trans ((if_neg (fun hh => absurd (c0.symm.trans hh.1) (by decide))).trans ((if_neg (fun hh => absurd (c0.symm.trans hh.1) (by decide))).trans ((if_pos ⟨c0, c1⟩))))))))) ?_
  rw [(fin_of_fld (d := d) (m := fld wd 21 5) (f9)), (fin_of_fld (d := a) (m := fld wd 16 5) (f8)), (fin_of_fld (d := b) (m := fld wd 11 5) (f7)), (fin_of_fld (d := s) (m := fld wd 8 2) (f5)), (bit_of_fld (b := l) (lo := 7) (w := wd) (f4)), (bit_of_fld (b := q) (lo := 6) (w := wd) (f3)), (bit_of_fld (b := f) (lo := 5) (w := wd) (f2)), (bit_of_fld (b := w) (lo := 4) (w := wd) (f1))]

theorem EncodeDecode.amomaxu (d : Fin 32) (a : Fin 32) (b : Fin 32) (s : Fin 4) (l : Bool) (q : Bool) (f : Bool) (w : Bool) : EncodeDecode.Statement (.amomaxu d a b s l q f w) := by
  intro wd hwf hw
  have hw : 1409286152 + d.val * 2097152 + a.val * 65536 + b.val * 2048 + s.val * 256 + l.toNat * 128 + q.toNat * 64 + f.toNat * 32 + w.toNat * 16 = wd := Option.some.inj hw
  have hw : wd = atop 4 8 (atop 1 w.toNat (atop 1 f.toNat (atop 1 q.toNat (atop 1 l.toNat (atop 2 s.val (atop 1 0 (atop 5 b.val (atop 5 a.val (atop 5 d.val (21)))))))))) := by unfold atop; omega
  obtain ⟨f0, f1, f2, f3, f4, f5, f6, f7, f8, f9, ho⟩ := unpack10 (n1 := 4)  (n2 := 1)  (n3 := 1)  (n4 := 1)  (n5 := 1)  (n6 := 2)  (n7 := 1)  (n8 := 5)  (n9 := 5)  (n10 := 5) (by decide) w.toNat_lt f.toNat_lt q.toNat_lt l.toNat_lt s.isLt (by decide) b.isLt a.isLt d.isLt hw
  have ho : wd / 67108864 = 21 := ho
  refine decode_of_raw (by rw [ho]; rfl) ?_ hwf
  unfold decodeRaw
  rw [ho]
  show decodeOp15 wd = _
  unfold decodeOp15
  have c0 : fld wd 0 4 = 8 := f0
  have c1 : fld wd 10 1 = 0 := f6
  refine Eq.trans ((if_neg (fun hh => absurd (c0.symm.trans hh.1) (by decide))).trans ((if_neg (fun hh => absurd (c0.symm.trans hh.1) (by decide))).trans ((if_neg (fun hh => absurd (c0.symm.trans hh.1) (by decide))).trans ((if_neg (fun hh => absurd (c0.symm.trans hh.1) (by decide))).trans ((if_neg (fun hh => absurd (c0.symm.trans hh.1) (by decide))).trans ((if_neg (fun hh => absurd (c0.symm.trans hh.1) (by decide))).trans ((if_neg (fun hh => absurd (c0.symm.trans hh.1) (by decide))).trans ((if_neg (fun hh => absurd (c0.symm.trans hh.1) (by decide))).trans ((if_pos ⟨c0, c1⟩)))))))))) ?_
  rw [(fin_of_fld (d := d) (m := fld wd 21 5) (f9)), (fin_of_fld (d := a) (m := fld wd 16 5) (f8)), (fin_of_fld (d := b) (m := fld wd 11 5) (f7)), (fin_of_fld (d := s) (m := fld wd 8 2) (f5)), (bit_of_fld (b := l) (lo := 7) (w := wd) (f4)), (bit_of_fld (b := q) (lo := 6) (w := wd) (f3)), (bit_of_fld (b := f) (lo := 5) (w := wd) (f2)), (bit_of_fld (b := w) (lo := 4) (w := wd) (f1))]

theorem EncodeDecode.amocas (d : Fin 32) (a : Fin 32) (b : Fin 32) (s : Fin 4) (l : Bool) (q : Bool) (f : Bool) (w : Bool) : EncodeDecode.Statement (.amocas d a b s l q f w) := by
  intro wd hwf hw
  have hw : 1409286153 + d.val * 2097152 + a.val * 65536 + b.val * 2048 + s.val * 256 + l.toNat * 128 + q.toNat * 64 + f.toNat * 32 + w.toNat * 16 = wd := Option.some.inj hw
  have hw : wd = atop 4 9 (atop 1 w.toNat (atop 1 f.toNat (atop 1 q.toNat (atop 1 l.toNat (atop 2 s.val (atop 1 0 (atop 5 b.val (atop 5 a.val (atop 5 d.val (21)))))))))) := by unfold atop; omega
  obtain ⟨f0, f1, f2, f3, f4, f5, f6, f7, f8, f9, ho⟩ := unpack10 (n1 := 4)  (n2 := 1)  (n3 := 1)  (n4 := 1)  (n5 := 1)  (n6 := 2)  (n7 := 1)  (n8 := 5)  (n9 := 5)  (n10 := 5) (by decide) w.toNat_lt f.toNat_lt q.toNat_lt l.toNat_lt s.isLt (by decide) b.isLt a.isLt d.isLt hw
  have ho : wd / 67108864 = 21 := ho
  refine decode_of_raw (by rw [ho]; rfl) ?_ hwf
  unfold decodeRaw
  rw [ho]
  show decodeOp15 wd = _
  unfold decodeOp15
  have c0 : fld wd 0 4 = 9 := f0
  have c1 : fld wd 10 1 = 0 := f6
  refine Eq.trans ((if_neg (fun hh => absurd (c0.symm.trans hh.1) (by decide))).trans ((if_neg (fun hh => absurd (c0.symm.trans hh.1) (by decide))).trans ((if_neg (fun hh => absurd (c0.symm.trans hh.1) (by decide))).trans ((if_neg (fun hh => absurd (c0.symm.trans hh.1) (by decide))).trans ((if_neg (fun hh => absurd (c0.symm.trans hh.1) (by decide))).trans ((if_neg (fun hh => absurd (c0.symm.trans hh.1) (by decide))).trans ((if_neg (fun hh => absurd (c0.symm.trans hh.1) (by decide))).trans ((if_neg (fun hh => absurd (c0.symm.trans hh.1) (by decide))).trans ((if_neg (fun hh => absurd (c0.symm.trans hh.1) (by decide))).trans ((if_pos ⟨c0, c1⟩))))))))))) ?_
  rw [(fin_of_fld (d := d) (m := fld wd 21 5) (f9)), (fin_of_fld (d := a) (m := fld wd 16 5) (f8)), (fin_of_fld (d := b) (m := fld wd 11 5) (f7)), (fin_of_fld (d := s) (m := fld wd 8 2) (f5)), (bit_of_fld (b := l) (lo := 7) (w := wd) (f4)), (bit_of_fld (b := q) (lo := 6) (w := wd) (f3)), (bit_of_fld (b := f) (lo := 5) (w := wd) (f2)), (bit_of_fld (b := w) (lo := 4) (w := wd) (f1))]

theorem EncodeDecode.fence (l : Bool) (q : Bool) (s : Scope) (t : Dir) : EncodeDecode.Statement (.fence l q s t) := by
  intro wd hwf hw
  have hw : 1476395008 + l.toNat * 32 + q.toNat * 16 + s.code * 4 + t.code = wd := Option.some.inj hw
  have hw : wd = atop 2 t.code (atop 2 s.code (atop 1 q.toNat (atop 1 l.toNat (atop 20 0 (22))))) := by unfold atop; omega
  obtain ⟨f0, f1, f2, f3, f4, ho⟩ := unpack5 (n1 := 2)  (n2 := 2)  (n3 := 1)  (n4 := 1)  (n5 := 20) (Dir.code_lt t) (Scope.code_lt s) q.toNat_lt l.toNat_lt (by decide) hw
  have ho : wd / 67108864 = 22 := ho
  refine decode_of_raw (by rw [ho]; rfl) ?_ hwf
  unfold decodeRaw
  rw [ho]
  show decodeOp16 wd = _
  unfold decodeOp16
  have c0 : fld wd 6 20 = 0 := f4
  refine Eq.trans ((if_pos c0)) ?_
  rw [(bit_of_fld (b := l) (lo := 5) (w := wd) (f3)), (bit_of_fld (b := q) (lo := 4) (w := wd) (f2)), (scope_of_fld (p := s) (m := fld wd 2 2) (f1)), (dir_of_fld (p := t) (m := fld wd 0 2) (f0))]

theorem EncodeDecode.cinv (a : Fin 32) (i : BitVec 11) : EncodeDecode.Statement (.cinv a i) := by
  intro wd hwf hw
  have hw : 1543503872 + a.val * 65536 + i.toNat = wd := Option.some.inj hw
  have hw : wd = atop 11 i.toNat (atop 5 0 (atop 5 a.val (atop 5 0 (23)))) := by unfold atop; omega
  obtain ⟨f0, f1, f2, f3, ho⟩ := unpack4 (n1 := 11)  (n2 := 5)  (n3 := 5)  (n4 := 5) i.isLt (by decide) a.isLt (by decide) hw
  have ho : wd / 67108864 = 23 := ho
  refine decode_of_raw (by rw [ho]; rfl) ?_ hwf
  unfold decodeRaw
  rw [ho]
  show decodeOp17 wd = _
  unfold decodeOp17
  have c0 : fld wd 11 5 = 0 := f1
  have c1 : fld wd 21 5 = 0 := f3
  refine Eq.trans ((if_pos ⟨c0, c1⟩)) ?_
  rw [(fin_of_fld (d := a) (m := fld wd 16 5) (f2)), (vec_of_fld (v := i) (m := fld wd 0 11) (f0))]

theorem EncodeDecode.cinvI (a : Fin 32) (i : BitVec 11) : EncodeDecode.Statement (.cinvI a i) := by
  intro wd hwf hw
  have hw : 1543505920 + a.val * 65536 + i.toNat = wd := Option.some.inj hw
  have hw : wd = atop 11 i.toNat (atop 5 1 (atop 5 a.val (atop 5 0 (23)))) := by unfold atop; omega
  obtain ⟨f0, f1, f2, f3, ho⟩ := unpack4 (n1 := 11)  (n2 := 5)  (n3 := 5)  (n4 := 5) i.isLt (by decide) a.isLt (by decide) hw
  have ho : wd / 67108864 = 23 := ho
  refine decode_of_raw (by rw [ho]; rfl) ?_ hwf
  unfold decodeRaw
  rw [ho]
  show decodeOp17 wd = _
  unfold decodeOp17
  have c0 : fld wd 11 5 = 1 := f1
  have c1 : fld wd 21 5 = 0 := f3
  refine Eq.trans ((if_neg (fun hh => absurd (c0.symm.trans hh.1) (by decide))).trans ((if_pos ⟨c0, c1⟩))) ?_
  rw [(fin_of_fld (d := a) (m := fld wd 16 5) (f2)), (vec_of_fld (v := i) (m := fld wd 0 11) (f0))]

theorem EncodeDecode.cwb (a : Fin 32) (i : BitVec 11) : EncodeDecode.Statement (.cwb a i) := by
  intro wd hwf hw
  have hw : 1545601024 + a.val * 65536 + i.toNat = wd := Option.some.inj hw
  have hw : wd = atop 11 i.toNat (atop 5 0 (atop 5 a.val (atop 5 1 (23)))) := by unfold atop; omega
  obtain ⟨f0, f1, f2, f3, ho⟩ := unpack4 (n1 := 11)  (n2 := 5)  (n3 := 5)  (n4 := 5) i.isLt (by decide) a.isLt (by decide) hw
  have ho : wd / 67108864 = 23 := ho
  refine decode_of_raw (by rw [ho]; rfl) ?_ hwf
  unfold decodeRaw
  rw [ho]
  show decodeOp17 wd = _
  unfold decodeOp17
  have c0 : fld wd 11 5 = 0 := f1
  have c1 : fld wd 21 5 = 1 := f3
  refine Eq.trans ((if_neg (fun hh => absurd (c1.symm.trans hh.2) (by decide))).trans ((if_neg (fun hh => absurd (c0.symm.trans hh.1) (by decide))).trans ((if_pos ⟨c0, c1⟩)))) ?_
  rw [(fin_of_fld (d := a) (m := fld wd 16 5) (f2)), (vec_of_fld (v := i) (m := fld wd 0 11) (f0))]

theorem EncodeDecode.czero (a : Fin 32) (i : BitVec 11) : EncodeDecode.Statement (.czero a i) := by
  intro wd hwf hw
  have hw : 1547698176 + a.val * 65536 + i.toNat = wd := Option.some.inj hw
  have hw : wd = atop 11 i.toNat (atop 5 0 (atop 5 a.val (atop 5 2 (23)))) := by unfold atop; omega
  obtain ⟨f0, f1, f2, f3, ho⟩ := unpack4 (n1 := 11)  (n2 := 5)  (n3 := 5)  (n4 := 5) i.isLt (by decide) a.isLt (by decide) hw
  have ho : wd / 67108864 = 23 := ho
  refine decode_of_raw (by rw [ho]; rfl) ?_ hwf
  unfold decodeRaw
  rw [ho]
  show decodeOp17 wd = _
  unfold decodeOp17
  have c0 : fld wd 11 5 = 0 := f1
  have c1 : fld wd 21 5 = 2 := f3
  refine Eq.trans ((if_neg (fun hh => absurd (c1.symm.trans hh.2) (by decide))).trans ((if_neg (fun hh => absurd (c0.symm.trans hh.1) (by decide))).trans ((if_neg (fun hh => absurd (c1.symm.trans hh.2) (by decide))).trans ((if_pos ⟨c0, c1⟩))))) ?_
  rw [(fin_of_fld (d := a) (m := fld wd 16 5) (f2)), (vec_of_fld (v := i) (m := fld wd 0 11) (f0))]

theorem EncodeDecode.pref (a : Fin 32) (p : Policy) (w : Bool) (i : BitVec 11) : EncodeDecode.Statement (.pref a p w i) := by
  intro wd hwf hw
  have hw : 1549795328 + a.val * 65536 + p.code * 16384 + w.toNat * 2048 + i.toNat = wd := Option.some.inj hw
  have hw : wd = atop 11 i.toNat (atop 1 w.toNat (atop 2 0 (atop 2 p.code (atop 5 a.val (atop 5 3 (23)))))) := by unfold atop; omega
  obtain ⟨f0, f1, f2, f3, f4, f5, ho⟩ := unpack6 (n1 := 11)  (n2 := 1)  (n3 := 2)  (n4 := 2)  (n5 := 5)  (n6 := 5) i.isLt w.toNat_lt (by decide) (Policy.code_lt p) a.isLt (by decide) hw
  have ho : wd / 67108864 = 23 := ho
  refine decode_of_raw (by rw [ho]; rfl) ?_ hwf
  unfold decodeRaw
  rw [ho]
  show decodeOp17 wd = _
  unfold decodeOp17
  have c0 : fld wd 12 2 = 0 := f2
  have c1 : fld wd 21 5 = 3 := f5
  refine Eq.trans ((if_neg (fun hh => absurd (c1.symm.trans hh.2) (by decide))).trans ((if_neg (fun hh => absurd (c1.symm.trans hh.2) (by decide))).trans ((if_neg (fun hh => absurd (c1.symm.trans hh.2) (by decide))).trans ((if_neg (fun hh => absurd (c1.symm.trans hh.2) (by decide))).trans ((if_pos ⟨c0, c1⟩)))))) ?_
  rw [(fin_of_fld (d := a) (m := fld wd 16 5) (f4)), (policy_of_fld (p := p) (m := fld wd 14 2) (f3)), (bit_of_fld (b := w) (lo := 11) (w := wd) (f1)), (vec_of_fld (v := i) (m := fld wd 0 11) (f0))]

theorem EncodeDecode.csrr (d : Fin 32) (n : BitVec 12) : EncodeDecode.Statement (.csrr d n) := by
  intro wd hwf hw
  have hw : 1610612736 + d.val * 2097152 + n.toNat = wd := Option.some.inj hw
  have hw : wd = atop 12 n.toNat (atop 9 0 (atop 5 d.val (24))) := by unfold atop; omega
  obtain ⟨f0, f1, f2, ho⟩ := unpack3 (n1 := 12)  (n2 := 9)  (n3 := 5) n.isLt (by decide) d.isLt hw
  have ho : wd / 67108864 = 24 := ho
  refine decode_of_raw (by rw [ho]; rfl) ?_ hwf
  unfold decodeRaw
  rw [ho]
  show decodeOp18 wd = _
  unfold decodeOp18
  have c0 : fld wd 12 9 = 0 := f1
  refine Eq.trans ((if_pos c0)) ?_
  rw [(fin_of_fld (d := d) (m := fld wd 21 5) (f2)), (vec_of_fld (v := n) (m := fld wd 0 12) (f0))]

theorem EncodeDecode.csrw (d : Fin 32) (a : Fin 32) (n : BitVec 12) : EncodeDecode.Statement (.csrw d a n) := by
  intro wd hwf hw
  have hw : 1610616832 + d.val * 2097152 + a.val * 65536 + n.toNat = wd := Option.some.inj hw
  have hw : wd = atop 12 n.toNat (atop 4 1 (atop 5 a.val (atop 5 d.val (24)))) := by unfold atop; omega
  obtain ⟨f0, f1, f2, f3, ho⟩ := unpack4 (n1 := 12)  (n2 := 4)  (n3 := 5)  (n4 := 5) n.isLt (by decide) a.isLt d.isLt hw
  have ho : wd / 67108864 = 24 := ho
  refine decode_of_raw (by rw [ho]; rfl) ?_ hwf
  unfold decodeRaw
  rw [ho]
  show decodeOp18 wd = _
  unfold decodeOp18
  have c0 : fld wd 12 4 = 1 := f1
  refine Eq.trans ((if_neg (fun hh => fld_short c0 hh (by decide) (by decide))).trans ((if_pos c0))) ?_
  rw [(fin_of_fld (d := d) (m := fld wd 21 5) (f3)), (fin_of_fld (d := a) (m := fld wd 16 5) (f2)), (vec_of_fld (v := n) (m := fld wd 0 12) (f0))]

theorem EncodeDecode.csrs (d : Fin 32) (a : Fin 32) (n : BitVec 12) : EncodeDecode.Statement (.csrs d a n) := by
  intro wd hwf hw
  have hw : 1610620928 + d.val * 2097152 + a.val * 65536 + n.toNat = wd := Option.some.inj hw
  have hw : wd = atop 12 n.toNat (atop 4 2 (atop 5 a.val (atop 5 d.val (24)))) := by unfold atop; omega
  obtain ⟨f0, f1, f2, f3, ho⟩ := unpack4 (n1 := 12)  (n2 := 4)  (n3 := 5)  (n4 := 5) n.isLt (by decide) a.isLt d.isLt hw
  have ho : wd / 67108864 = 24 := ho
  refine decode_of_raw (by rw [ho]; rfl) ?_ hwf
  unfold decodeRaw
  rw [ho]
  show decodeOp18 wd = _
  unfold decodeOp18
  have c0 : fld wd 12 4 = 2 := f1
  refine Eq.trans ((if_neg (fun hh => fld_short c0 hh (by decide) (by decide))).trans ((if_neg (fun hh => absurd (c0.symm.trans hh) (by decide))).trans ((if_pos c0)))) ?_
  rw [(fin_of_fld (d := d) (m := fld wd 21 5) (f3)), (fin_of_fld (d := a) (m := fld wd 16 5) (f2)), (vec_of_fld (v := n) (m := fld wd 0 12) (f0))]

theorem EncodeDecode.csrc (d : Fin 32) (a : Fin 32) (n : BitVec 12) : EncodeDecode.Statement (.csrc d a n) := by
  intro wd hwf hw
  have hw : 1610625024 + d.val * 2097152 + a.val * 65536 + n.toNat = wd := Option.some.inj hw
  have hw : wd = atop 12 n.toNat (atop 4 3 (atop 5 a.val (atop 5 d.val (24)))) := by unfold atop; omega
  obtain ⟨f0, f1, f2, f3, ho⟩ := unpack4 (n1 := 12)  (n2 := 4)  (n3 := 5)  (n4 := 5) n.isLt (by decide) a.isLt d.isLt hw
  have ho : wd / 67108864 = 24 := ho
  refine decode_of_raw (by rw [ho]; rfl) ?_ hwf
  unfold decodeRaw
  rw [ho]
  show decodeOp18 wd = _
  unfold decodeOp18
  have c0 : fld wd 12 4 = 3 := f1
  refine Eq.trans ((if_neg (fun hh => fld_short c0 hh (by decide) (by decide))).trans ((if_neg (fun hh => absurd (c0.symm.trans hh) (by decide))).trans ((if_neg (fun hh => absurd (c0.symm.trans hh) (by decide))).trans ((if_pos c0))))) ?_
  rw [(fin_of_fld (d := d) (m := fld wd 21 5) (f3)), (fin_of_fld (d := a) (m := fld wd 16 5) (f2)), (vec_of_fld (v := n) (m := fld wd 0 12) (f0))]

theorem EncodeDecode.csrwi (d : Fin 32) (i : BitVec 5) (n : BitVec 12) : EncodeDecode.Statement (.csrwi d i n) := by
  intro wd hwf hw
  have hw : 1610629120 + d.val * 2097152 + i.toNat * 65536 + n.toNat = wd := Option.some.inj hw
  have hw : wd = atop 12 n.toNat (atop 4 4 (atop 5 i.toNat (atop 5 d.val (24)))) := by unfold atop; omega
  obtain ⟨f0, f1, f2, f3, ho⟩ := unpack4 (n1 := 12)  (n2 := 4)  (n3 := 5)  (n4 := 5) n.isLt (by decide) i.isLt d.isLt hw
  have ho : wd / 67108864 = 24 := ho
  refine decode_of_raw (by rw [ho]; rfl) ?_ hwf
  unfold decodeRaw
  rw [ho]
  show decodeOp18 wd = _
  unfold decodeOp18
  have c0 : fld wd 12 4 = 4 := f1
  refine Eq.trans ((if_neg (fun hh => fld_short c0 hh (by decide) (by decide))).trans ((if_neg (fun hh => absurd (c0.symm.trans hh) (by decide))).trans ((if_neg (fun hh => absurd (c0.symm.trans hh) (by decide))).trans ((if_neg (fun hh => absurd (c0.symm.trans hh) (by decide))).trans ((if_pos c0)))))) ?_
  rw [(fin_of_fld (d := d) (m := fld wd 21 5) (f3)), (vec_of_fld (v := i) (m := fld wd 16 5) (f2)), (vec_of_fld (v := n) (m := fld wd 0 12) (f0))]

theorem EncodeDecode.csrsi (d : Fin 32) (i : BitVec 5) (n : BitVec 12) : EncodeDecode.Statement (.csrsi d i n) := by
  intro wd hwf hw
  have hw : 1610633216 + d.val * 2097152 + i.toNat * 65536 + n.toNat = wd := Option.some.inj hw
  have hw : wd = atop 12 n.toNat (atop 4 5 (atop 5 i.toNat (atop 5 d.val (24)))) := by unfold atop; omega
  obtain ⟨f0, f1, f2, f3, ho⟩ := unpack4 (n1 := 12)  (n2 := 4)  (n3 := 5)  (n4 := 5) n.isLt (by decide) i.isLt d.isLt hw
  have ho : wd / 67108864 = 24 := ho
  refine decode_of_raw (by rw [ho]; rfl) ?_ hwf
  unfold decodeRaw
  rw [ho]
  show decodeOp18 wd = _
  unfold decodeOp18
  have c0 : fld wd 12 4 = 5 := f1
  refine Eq.trans ((if_neg (fun hh => fld_short c0 hh (by decide) (by decide))).trans ((if_neg (fun hh => absurd (c0.symm.trans hh) (by decide))).trans ((if_neg (fun hh => absurd (c0.symm.trans hh) (by decide))).trans ((if_neg (fun hh => absurd (c0.symm.trans hh) (by decide))).trans ((if_neg (fun hh => absurd (c0.symm.trans hh) (by decide))).trans ((if_pos c0))))))) ?_
  rw [(fin_of_fld (d := d) (m := fld wd 21 5) (f3)), (vec_of_fld (v := i) (m := fld wd 16 5) (f2)), (vec_of_fld (v := n) (m := fld wd 0 12) (f0))]

theorem EncodeDecode.csrci (d : Fin 32) (i : BitVec 5) (n : BitVec 12) : EncodeDecode.Statement (.csrci d i n) := by
  intro wd hwf hw
  have hw : 1610637312 + d.val * 2097152 + i.toNat * 65536 + n.toNat = wd := Option.some.inj hw
  have hw : wd = atop 12 n.toNat (atop 4 6 (atop 5 i.toNat (atop 5 d.val (24)))) := by unfold atop; omega
  obtain ⟨f0, f1, f2, f3, ho⟩ := unpack4 (n1 := 12)  (n2 := 4)  (n3 := 5)  (n4 := 5) n.isLt (by decide) i.isLt d.isLt hw
  have ho : wd / 67108864 = 24 := ho
  refine decode_of_raw (by rw [ho]; rfl) ?_ hwf
  unfold decodeRaw
  rw [ho]
  show decodeOp18 wd = _
  unfold decodeOp18
  have c0 : fld wd 12 4 = 6 := f1
  refine Eq.trans ((if_neg (fun hh => fld_short c0 hh (by decide) (by decide))).trans ((if_neg (fun hh => absurd (c0.symm.trans hh) (by decide))).trans ((if_neg (fun hh => absurd (c0.symm.trans hh) (by decide))).trans ((if_neg (fun hh => absurd (c0.symm.trans hh) (by decide))).trans ((if_neg (fun hh => absurd (c0.symm.trans hh) (by decide))).trans ((if_neg (fun hh => absurd (c0.symm.trans hh) (by decide))).trans ((if_pos c0)))))))) ?_
  rw [(fin_of_fld (d := d) (m := fld wd 21 5) (f3)), (vec_of_fld (v := i) (m := fld wd 16 5) (f2)), (vec_of_fld (v := n) (m := fld wd 0 12) (f0))]

theorem EncodeDecode.ecall : EncodeDecode.Statement (.ecall) := by
  intro wd hwf hw
  have hw : 1677721600 = wd := Option.some.inj hw
  have hw : wd = atop 26 0 (25) := by unfold atop; omega
  obtain ⟨f0, ho⟩ := unpack1 (n1 := 26) (by decide) hw
  have ho : wd / 67108864 = 25 := ho
  refine decode_of_raw (by rw [ho]; rfl) ?_ hwf
  unfold decodeRaw
  rw [ho]
  show decodeOp19 wd = _
  unfold decodeOp19
  have c0 : fld wd 0 26 = 0 := f0
  refine Eq.trans ((if_pos c0)) ?_
  rfl

theorem EncodeDecode.ebreak : EncodeDecode.Statement (.ebreak) := by
  intro wd hwf hw
  have hw : 1677721601 = wd := Option.some.inj hw
  have hw : wd = atop 26 1 (25) := by unfold atop; omega
  obtain ⟨f0, ho⟩ := unpack1 (n1 := 26) (by decide) hw
  have ho : wd / 67108864 = 25 := ho
  refine decode_of_raw (by rw [ho]; rfl) ?_ hwf
  unfold decodeRaw
  rw [ho]
  show decodeOp19 wd = _
  unfold decodeOp19
  have c0 : fld wd 0 26 = 1 := f0
  refine Eq.trans ((if_neg (fun hh => absurd (c0.symm.trans hh) (by decide))).trans ((if_pos c0))) ?_
  rfl

theorem EncodeDecode.tret : EncodeDecode.Statement (.tret) := by
  intro wd hwf hw
  have hw : 1677721602 = wd := Option.some.inj hw
  have hw : wd = atop 26 2 (25) := by unfold atop; omega
  obtain ⟨f0, ho⟩ := unpack1 (n1 := 26) (by decide) hw
  have ho : wd / 67108864 = 25 := ho
  refine decode_of_raw (by rw [ho]; rfl) ?_ hwf
  unfold decodeRaw
  rw [ho]
  show decodeOp19 wd = _
  unfold decodeOp19
  have c0 : fld wd 0 26 = 2 := f0
  refine Eq.trans ((if_neg (fun hh => absurd (c0.symm.trans hh) (by decide))).trans ((if_neg (fun hh => absurd (c0.symm.trans hh) (by decide))).trans ((if_pos c0)))) ?_
  rfl

theorem EncodeDecode.wfi : EncodeDecode.Statement (.wfi) := by
  intro wd hwf hw
  have hw : 1677721603 = wd := Option.some.inj hw
  have hw : wd = atop 26 3 (25) := by unfold atop; omega
  obtain ⟨f0, ho⟩ := unpack1 (n1 := 26) (by decide) hw
  have ho : wd / 67108864 = 25 := ho
  refine decode_of_raw (by rw [ho]; rfl) ?_ hwf
  unfold decodeRaw
  rw [ho]
  show decodeOp19 wd = _
  unfold decodeOp19
  have c0 : fld wd 0 26 = 3 := f0
  refine Eq.trans ((if_neg (fun hh => absurd (c0.symm.trans hh) (by decide))).trans ((if_neg (fun hh => absurd (c0.symm.trans hh) (by decide))).trans ((if_neg (fun hh => absurd (c0.symm.trans hh) (by decide))).trans ((if_pos c0))))) ?_
  rfl

theorem EncodeDecode.sfence (a : Fin 32) (b : Fin 32) : EncodeDecode.Statement (.sfence a b) := by
  intro wd hwf hw
  have hw : 1677721604 + a.val * 65536 + b.val * 2048 = wd := Option.some.inj hw
  have hw : wd = atop 11 4 (atop 5 b.val (atop 5 a.val (atop 5 0 (25)))) := by unfold atop; omega
  obtain ⟨f0, f1, f2, f3, ho⟩ := unpack4 (n1 := 11)  (n2 := 5)  (n3 := 5)  (n4 := 5) (by decide) b.isLt a.isLt (by decide) hw
  have ho : wd / 67108864 = 25 := ho
  refine decode_of_raw (by rw [ho]; rfl) ?_ hwf
  unfold decodeRaw
  rw [ho]
  show decodeOp19 wd = _
  unfold decodeOp19
  have c0 : fld wd 0 11 = 4 := f0
  have c1 : fld wd 21 5 = 0 := f3
  refine Eq.trans ((if_neg (fun hh => fld_short c0 hh (by decide) (by decide))).trans ((if_neg (fun hh => fld_short c0 hh (by decide) (by decide))).trans ((if_neg (fun hh => fld_short c0 hh (by decide) (by decide))).trans ((if_neg (fun hh => fld_short c0 hh (by decide) (by decide))).trans ((if_pos ⟨c0, c1⟩)))))) ?_
  rw [(fin_of_fld (d := a) (m := fld wd 16 5) (f2)), (fin_of_fld (d := b) (m := fld wd 11 5) (f1))]

theorem EncodeDecode.yield : EncodeDecode.Statement (.yield) := by
  intro wd hwf hw
  have hw : 1677721605 = wd := Option.some.inj hw
  have hw : wd = atop 26 5 (25) := by unfold atop; omega
  obtain ⟨f0, ho⟩ := unpack1 (n1 := 26) (by decide) hw
  have ho : wd / 67108864 = 25 := ho
  refine decode_of_raw (by rw [ho]; rfl) ?_ hwf
  unfold decodeRaw
  rw [ho]
  show decodeOp19 wd = _
  unfold decodeOp19
  have c0 : fld wd 0 26 = 5 := f0
  refine Eq.trans ((if_neg (fun hh => absurd (c0.symm.trans hh) (by decide))).trans ((if_neg (fun hh => absurd (c0.symm.trans hh) (by decide))).trans ((if_neg (fun hh => absurd (c0.symm.trans hh) (by decide))).trans ((if_neg (fun hh => absurd (c0.symm.trans hh) (by decide))).trans ((if_neg (fun hh => fld_short hh.1 c0 (by decide) (by decide))).trans ((if_pos c0))))))) ?_
  rfl

theorem EncodeDecode.halt : EncodeDecode.Statement (.halt) := by
  intro wd hwf hw
  have hw : 1677721606 = wd := Option.some.inj hw
  have hw : wd = atop 26 6 (25) := by unfold atop; omega
  obtain ⟨f0, ho⟩ := unpack1 (n1 := 26) (by decide) hw
  have ho : wd / 67108864 = 25 := ho
  refine decode_of_raw (by rw [ho]; rfl) ?_ hwf
  unfold decodeRaw
  rw [ho]
  show decodeOp19 wd = _
  unfold decodeOp19
  have c0 : fld wd 0 26 = 6 := f0
  refine Eq.trans ((if_neg (fun hh => absurd (c0.symm.trans hh) (by decide))).trans ((if_neg (fun hh => absurd (c0.symm.trans hh) (by decide))).trans ((if_neg (fun hh => absurd (c0.symm.trans hh) (by decide))).trans ((if_neg (fun hh => absurd (c0.symm.trans hh) (by decide))).trans ((if_neg (fun hh => fld_short hh.1 c0 (by decide) (by decide))).trans ((if_neg (fun hh => absurd (c0.symm.trans hh) (by decide))).trans ((if_pos c0)))))))) ?_
  rfl

theorem EncodeDecode.thaw (a : Fin 32) : EncodeDecode.Statement (.thaw a) := by
  intro wd hwf hw
  have hw : 1677721607 + a.val * 65536 = wd := Option.some.inj hw
  have hw : wd = atop 16 7 (atop 5 a.val (atop 5 0 (25))) := by unfold atop; omega
  obtain ⟨f0, f1, f2, ho⟩ := unpack3 (n1 := 16)  (n2 := 5)  (n3 := 5) (by decide) a.isLt (by decide) hw
  have ho : wd / 67108864 = 25 := ho
  refine decode_of_raw (by rw [ho]; rfl) ?_ hwf
  unfold decodeRaw
  rw [ho]
  show decodeOp19 wd = _
  unfold decodeOp19
  have c0 : fld wd 0 16 = 7 := f0
  have c1 : fld wd 21 5 = 0 := f2
  refine Eq.trans ((if_neg (fun hh => fld_short c0 hh (by decide) (by decide))).trans ((if_neg (fun hh => fld_short c0 hh (by decide) (by decide))).trans ((if_neg (fun hh => fld_short c0 hh (by decide) (by decide))).trans ((if_neg (fun hh => fld_short c0 hh (by decide) (by decide))).trans ((if_neg (fun hh => fld_short hh.1 c0 (by decide) (by decide))).trans ((if_neg (fun hh => fld_short c0 hh (by decide) (by decide))).trans ((if_neg (fun hh => fld_short c0 hh (by decide) (by decide))).trans ((if_pos ⟨c0, c1⟩))))))))) ?_
  rw [(fin_of_fld (d := a) (m := fld wd 16 5) (f1))]

theorem EncodeDecode.ipop (d : Fin 32) (b : Fin 32) : EncodeDecode.Statement (.ipop d b) := by
  intro wd hwf hw
  have hw : 1744830464 + d.val * 2097152 + b.val * 2048 = wd := Option.some.inj hw
  have hw : wd = atop 11 0 (atop 5 b.val (atop 5 0 (atop 5 d.val (26)))) := by unfold atop; omega
  obtain ⟨f0, f1, f2, f3, ho⟩ := unpack4 (n1 := 11)  (n2 := 5)  (n3 := 5)  (n4 := 5) (by decide) b.isLt (by decide) d.isLt hw
  have ho : wd / 67108864 = 26 := ho
  refine decode_of_raw (by rw [ho]; rfl) ?_ hwf
  unfold decodeRaw
  rw [ho]
  show decodeOp1A wd = _
  unfold decodeOp1A
  have c0 : fld wd 0 11 = 0 := f0
  have c1 : fld wd 16 5 = 0 := f2
  refine Eq.trans ((if_pos ⟨c0, c1⟩)) ?_
  rw [(fin_of_fld (d := d) (m := fld wd 21 5) (f3)), (fin_of_fld (d := b) (m := fld wd 11 5) (f1))]

theorem EncodeDecode.ipopnb (d : Fin 32) (b : Fin 32) : EncodeDecode.Statement (.ipopnb d b) := by
  intro wd hwf hw
  have hw : 1744830465 + d.val * 2097152 + b.val * 2048 = wd := Option.some.inj hw
  have hw : wd = atop 11 1 (atop 5 b.val (atop 5 0 (atop 5 d.val (26)))) := by unfold atop; omega
  obtain ⟨f0, f1, f2, f3, ho⟩ := unpack4 (n1 := 11)  (n2 := 5)  (n3 := 5)  (n4 := 5) (by decide) b.isLt (by decide) d.isLt hw
  have ho : wd / 67108864 = 26 := ho
  refine decode_of_raw (by rw [ho]; rfl) ?_ hwf
  unfold decodeRaw
  rw [ho]
  show decodeOp1A wd = _
  unfold decodeOp1A
  have c0 : fld wd 0 11 = 1 := f0
  have c1 : fld wd 16 5 = 0 := f2
  refine Eq.trans ((if_neg (fun hh => absurd (c0.symm.trans hh.1) (by decide))).trans ((if_pos ⟨c0, c1⟩))) ?_
  rw [(fin_of_fld (d := d) (m := fld wd 21 5) (f3)), (fin_of_fld (d := b) (m := fld wd 11 5) (f1))]

theorem EncodeDecode.wmbind (a : Fin 32) (b : Fin 32) : EncodeDecode.Statement (.wmbind a b) := by
  intro wd hwf hw
  have hw : 1744830466 + a.val * 65536 + b.val * 2048 = wd := Option.some.inj hw
  have hw : wd = atop 11 2 (atop 5 b.val (atop 5 a.val (atop 5 0 (26)))) := by unfold atop; omega
  obtain ⟨f0, f1, f2, f3, ho⟩ := unpack4 (n1 := 11)  (n2 := 5)  (n3 := 5)  (n4 := 5) (by decide) b.isLt a.isLt (by decide) hw
  have ho : wd / 67108864 = 26 := ho
  refine decode_of_raw (by rw [ho]; rfl) ?_ hwf
  unfold decodeRaw
  rw [ho]
  show decodeOp1A wd = _
  unfold decodeOp1A
  have c0 : fld wd 0 11 = 2 := f0
  have c1 : fld wd 21 5 = 0 := f3
  refine Eq.trans ((if_neg (fun hh => absurd (c0.symm.trans hh.1) (by decide))).trans ((if_neg (fun hh => absurd (c0.symm.trans hh.1) (by decide))).trans ((if_pos ⟨c0, c1⟩)))) ?_
  rw [(fin_of_fld (d := a) (m := fld wd 16 5) (f2)), (fin_of_fld (d := b) (m := fld wd 11 5) (f1))]

theorem EncodeDecode.wmpub (a : Fin 32) (b : Fin 32) : EncodeDecode.Statement (.wmpub a b) := by
  intro wd hwf hw
  have hw : 1744830467 + a.val * 65536 + b.val * 2048 = wd := Option.some.inj hw
  have hw : wd = atop 11 3 (atop 5 b.val (atop 5 a.val (atop 5 0 (26)))) := by unfold atop; omega
  obtain ⟨f0, f1, f2, f3, ho⟩ := unpack4 (n1 := 11)  (n2 := 5)  (n3 := 5)  (n4 := 5) (by decide) b.isLt a.isLt (by decide) hw
  have ho : wd / 67108864 = 26 := ho
  refine decode_of_raw (by rw [ho]; rfl) ?_ hwf
  unfold decodeRaw
  rw [ho]
  show decodeOp1A wd = _
  unfold decodeOp1A
  have c0 : fld wd 0 11 = 3 := f0
  have c1 : fld wd 21 5 = 0 := f3
  refine Eq.trans ((if_neg (fun hh => absurd (c0.symm.trans hh.1) (by decide))).trans ((if_neg (fun hh => absurd (c0.symm.trans hh.1) (by decide))).trans ((if_neg (fun hh => absurd (c0.symm.trans hh.1) (by decide))).trans ((if_pos ⟨c0, c1⟩))))) ?_
  rw [(fin_of_fld (d := a) (m := fld wd 16 5) (f2)), (fin_of_fld (d := b) (m := fld wd 11 5) (f1))]

theorem EncodeDecode.wmread (d : Fin 32) (a : Fin 32) : EncodeDecode.Statement (.wmread d a) := by
  intro wd hwf hw
  have hw : 1744830468 + d.val * 2097152 + a.val * 65536 = wd := Option.some.inj hw
  have hw : wd = atop 16 4 (atop 5 a.val (atop 5 d.val (26))) := by unfold atop; omega
  obtain ⟨f0, f1, f2, ho⟩ := unpack3 (n1 := 16)  (n2 := 5)  (n3 := 5) (by decide) a.isLt d.isLt hw
  have ho : wd / 67108864 = 26 := ho
  refine decode_of_raw (by rw [ho]; rfl) ?_ hwf
  unfold decodeRaw
  rw [ho]
  show decodeOp1A wd = _
  unfold decodeOp1A
  have c0 : fld wd 0 16 = 4 := f0
  refine Eq.trans ((if_neg (fun hh => fld_short hh.1 c0 (by decide) (by decide))).trans ((if_neg (fun hh => fld_short hh.1 c0 (by decide) (by decide))).trans ((if_neg (fun hh => fld_short hh.1 c0 (by decide) (by decide))).trans ((if_neg (fun hh => fld_short hh.1 c0 (by decide) (by decide))).trans ((if_pos c0)))))) ?_
  rw [(fin_of_fld (d := d) (m := fld wd 21 5) (f2)), (fin_of_fld (d := a) (m := fld wd 16 5) (f1))]

theorem EncodeDecode.pfx (v : Bool) (n : Bool) (p : Fin 32) (c : Fin 32) : EncodeDecode.Statement (.pfx v n p c) := by
  intro wd hwf hw
  have hw : 1811939328 + v.toNat * 33554432 + n.toNat * 16777216 + p.val * 524288 + c.val * 16384 = wd := Option.some.inj hw
  have hw : wd = atop 14 0 (atop 5 c.val (atop 5 p.val (atop 1 n.toNat (atop 1 v.toNat (27))))) := by unfold atop; omega
  obtain ⟨f0, f1, f2, f3, f4, ho⟩ := unpack5 (n1 := 14)  (n2 := 5)  (n3 := 5)  (n4 := 1)  (n5 := 1) (by decide) c.isLt p.isLt n.toNat_lt v.toNat_lt hw
  have ho : wd / 67108864 = 27 := ho
  refine decode_of_raw (by rw [ho]; rfl) ?_ hwf
  unfold decodeRaw
  rw [ho]
  show decodeOp1B wd = _
  unfold decodeOp1B
  have c0 : fld wd 0 14 = 0 := f0
  refine Eq.trans ((if_pos c0)) ?_
  rw [(bit_of_fld (b := v) (lo := 25) (w := wd) (f4)), (bit_of_fld (b := n) (lo := 24) (w := wd) (f3)), (fin_of_fld (d := p) (m := fld wd 19 5) (f2)), (fin_of_fld (d := c) (m := fld wd 14 5) (f1))]

theorem EncodeDecode.vsetl (d : Fin 32) (a : Fin 32) (g : Fin 4) (e : Fin 8) : EncodeDecode.Statement (.vsetl d a g e) := by
  intro wd hwf hw
  have hw : 2147483648 + d.val * 2097152 + a.val * 65536 + g.val * 8 + e.val = wd := Option.some.inj hw
  have hw : wd = atop 3 e.val (atop 2 g.val (atop 11 0 (atop 5 a.val (atop 5 d.val (32))))) := by unfold atop; omega
  obtain ⟨f0, f1, f2, f3, f4, ho⟩ := unpack5 (n1 := 3)  (n2 := 2)  (n3 := 11)  (n4 := 5)  (n5 := 5) e.isLt g.isLt (by decide) a.isLt d.isLt hw
  have ho : wd / 67108864 = 32 := ho
  refine decode_of_raw (by rw [ho]; rfl) ?_ hwf
  unfold decodeRaw
  rw [ho]
  show decodeOp20 wd = _
  unfold decodeOp20
  have c0 : fld wd 5 11 = 0 := f2
  refine Eq.trans ((if_pos c0)) ?_
  rw [(fin_of_fld (d := d) (m := fld wd 21 5) (f4)), (fin_of_fld (d := a) (m := fld wd 16 5) (f3)), (fin_of_fld (d := g) (m := fld wd 3 2) (f1)), (fin_of_fld (d := e) (m := fld wd 0 3) (f0))]

theorem EncodeDecode.vadd (d : Fin 32) (a : Fin 32) (b : Fin 32) (x : Bool) (y : Bool) (k : Fin 8) : EncodeDecode.Statement (.vadd d a b x y k) := by
  intro wd hwf hw
  have hw : 2214592512 + d.val * 2097152 + a.val * 65536 + b.val * 2048 + x.toNat * 1024 + y.toNat * 512 + k.val * 64 = wd := Option.some.inj hw
  have hw : wd = atop 6 0 (atop 3 k.val (atop 1 y.toNat (atop 1 x.toNat (atop 5 b.val (atop 5 a.val (atop 5 d.val (33))))))) := by unfold atop; omega
  obtain ⟨f0, f1, f2, f3, f4, f5, f6, ho⟩ := unpack7 (n1 := 6)  (n2 := 3)  (n3 := 1)  (n4 := 1)  (n5 := 5)  (n6 := 5)  (n7 := 5) (by decide) k.isLt y.toNat_lt x.toNat_lt b.isLt a.isLt d.isLt hw
  have ho : wd / 67108864 = 33 := ho
  refine decode_of_raw (by rw [ho]; rfl) ?_ hwf
  unfold decodeRaw
  rw [ho]
  show decodeOp21 wd = _
  unfold decodeOp21
  have c0 : fld wd 0 6 = 0 := f0
  refine Eq.trans ((if_pos c0)) ?_
  rw [(fin_of_fld (d := d) (m := fld wd 21 5) (f6)), (fin_of_fld (d := a) (m := fld wd 16 5) (f5)), (fin_of_fld (d := b) (m := fld wd 11 5) (f4)), (bit_of_fld (b := x) (lo := 10) (w := wd) (f3)), (bit_of_fld (b := y) (lo := 9) (w := wd) (f2)), (fin_of_fld (d := k) (m := fld wd 6 3) (f1))]

theorem EncodeDecode.vsub (d : Fin 32) (a : Fin 32) (b : Fin 32) (x : Bool) (y : Bool) (k : Fin 8) : EncodeDecode.Statement (.vsub d a b x y k) := by
  intro wd hwf hw
  have hw : 2214592513 + d.val * 2097152 + a.val * 65536 + b.val * 2048 + x.toNat * 1024 + y.toNat * 512 + k.val * 64 = wd := Option.some.inj hw
  have hw : wd = atop 6 1 (atop 3 k.val (atop 1 y.toNat (atop 1 x.toNat (atop 5 b.val (atop 5 a.val (atop 5 d.val (33))))))) := by unfold atop; omega
  obtain ⟨f0, f1, f2, f3, f4, f5, f6, ho⟩ := unpack7 (n1 := 6)  (n2 := 3)  (n3 := 1)  (n4 := 1)  (n5 := 5)  (n6 := 5)  (n7 := 5) (by decide) k.isLt y.toNat_lt x.toNat_lt b.isLt a.isLt d.isLt hw
  have ho : wd / 67108864 = 33 := ho
  refine decode_of_raw (by rw [ho]; rfl) ?_ hwf
  unfold decodeRaw
  rw [ho]
  show decodeOp21 wd = _
  unfold decodeOp21
  have c0 : fld wd 0 6 = 1 := f0
  refine Eq.trans ((if_neg (fun hh => absurd (c0.symm.trans hh) (by decide))).trans ((if_pos c0))) ?_
  rw [(fin_of_fld (d := d) (m := fld wd 21 5) (f6)), (fin_of_fld (d := a) (m := fld wd 16 5) (f5)), (fin_of_fld (d := b) (m := fld wd 11 5) (f4)), (bit_of_fld (b := x) (lo := 10) (w := wd) (f3)), (bit_of_fld (b := y) (lo := 9) (w := wd) (f2)), (fin_of_fld (d := k) (m := fld wd 6 3) (f1))]

theorem EncodeDecode.vand (d : Fin 32) (a : Fin 32) (b : Fin 32) (x : Bool) (y : Bool) (k : Fin 8) : EncodeDecode.Statement (.vand d a b x y k) := by
  intro wd hwf hw
  have hw : 2214592514 + d.val * 2097152 + a.val * 65536 + b.val * 2048 + x.toNat * 1024 + y.toNat * 512 + k.val * 64 = wd := Option.some.inj hw
  have hw : wd = atop 6 2 (atop 3 k.val (atop 1 y.toNat (atop 1 x.toNat (atop 5 b.val (atop 5 a.val (atop 5 d.val (33))))))) := by unfold atop; omega
  obtain ⟨f0, f1, f2, f3, f4, f5, f6, ho⟩ := unpack7 (n1 := 6)  (n2 := 3)  (n3 := 1)  (n4 := 1)  (n5 := 5)  (n6 := 5)  (n7 := 5) (by decide) k.isLt y.toNat_lt x.toNat_lt b.isLt a.isLt d.isLt hw
  have ho : wd / 67108864 = 33 := ho
  refine decode_of_raw (by rw [ho]; rfl) ?_ hwf
  unfold decodeRaw
  rw [ho]
  show decodeOp21 wd = _
  unfold decodeOp21
  have c0 : fld wd 0 6 = 2 := f0
  refine Eq.trans ((if_neg (fun hh => absurd (c0.symm.trans hh) (by decide))).trans ((if_neg (fun hh => absurd (c0.symm.trans hh) (by decide))).trans ((if_pos c0)))) ?_
  rw [(fin_of_fld (d := d) (m := fld wd 21 5) (f6)), (fin_of_fld (d := a) (m := fld wd 16 5) (f5)), (fin_of_fld (d := b) (m := fld wd 11 5) (f4)), (bit_of_fld (b := x) (lo := 10) (w := wd) (f3)), (bit_of_fld (b := y) (lo := 9) (w := wd) (f2)), (fin_of_fld (d := k) (m := fld wd 6 3) (f1))]

theorem EncodeDecode.vor (d : Fin 32) (a : Fin 32) (b : Fin 32) (x : Bool) (y : Bool) (k : Fin 8) : EncodeDecode.Statement (.vor d a b x y k) := by
  intro wd hwf hw
  have hw : 2214592515 + d.val * 2097152 + a.val * 65536 + b.val * 2048 + x.toNat * 1024 + y.toNat * 512 + k.val * 64 = wd := Option.some.inj hw
  have hw : wd = atop 6 3 (atop 3 k.val (atop 1 y.toNat (atop 1 x.toNat (atop 5 b.val (atop 5 a.val (atop 5 d.val (33))))))) := by unfold atop; omega
  obtain ⟨f0, f1, f2, f3, f4, f5, f6, ho⟩ := unpack7 (n1 := 6)  (n2 := 3)  (n3 := 1)  (n4 := 1)  (n5 := 5)  (n6 := 5)  (n7 := 5) (by decide) k.isLt y.toNat_lt x.toNat_lt b.isLt a.isLt d.isLt hw
  have ho : wd / 67108864 = 33 := ho
  refine decode_of_raw (by rw [ho]; rfl) ?_ hwf
  unfold decodeRaw
  rw [ho]
  show decodeOp21 wd = _
  unfold decodeOp21
  have c0 : fld wd 0 6 = 3 := f0
  refine Eq.trans ((if_neg (fun hh => absurd (c0.symm.trans hh) (by decide))).trans ((if_neg (fun hh => absurd (c0.symm.trans hh) (by decide))).trans ((if_neg (fun hh => absurd (c0.symm.trans hh) (by decide))).trans ((if_pos c0))))) ?_
  rw [(fin_of_fld (d := d) (m := fld wd 21 5) (f6)), (fin_of_fld (d := a) (m := fld wd 16 5) (f5)), (fin_of_fld (d := b) (m := fld wd 11 5) (f4)), (bit_of_fld (b := x) (lo := 10) (w := wd) (f3)), (bit_of_fld (b := y) (lo := 9) (w := wd) (f2)), (fin_of_fld (d := k) (m := fld wd 6 3) (f1))]

theorem EncodeDecode.vxor (d : Fin 32) (a : Fin 32) (b : Fin 32) (x : Bool) (y : Bool) (k : Fin 8) : EncodeDecode.Statement (.vxor d a b x y k) := by
  intro wd hwf hw
  have hw : 2214592516 + d.val * 2097152 + a.val * 65536 + b.val * 2048 + x.toNat * 1024 + y.toNat * 512 + k.val * 64 = wd := Option.some.inj hw
  have hw : wd = atop 6 4 (atop 3 k.val (atop 1 y.toNat (atop 1 x.toNat (atop 5 b.val (atop 5 a.val (atop 5 d.val (33))))))) := by unfold atop; omega
  obtain ⟨f0, f1, f2, f3, f4, f5, f6, ho⟩ := unpack7 (n1 := 6)  (n2 := 3)  (n3 := 1)  (n4 := 1)  (n5 := 5)  (n6 := 5)  (n7 := 5) (by decide) k.isLt y.toNat_lt x.toNat_lt b.isLt a.isLt d.isLt hw
  have ho : wd / 67108864 = 33 := ho
  refine decode_of_raw (by rw [ho]; rfl) ?_ hwf
  unfold decodeRaw
  rw [ho]
  show decodeOp21 wd = _
  unfold decodeOp21
  have c0 : fld wd 0 6 = 4 := f0
  refine Eq.trans ((if_neg (fun hh => absurd (c0.symm.trans hh) (by decide))).trans ((if_neg (fun hh => absurd (c0.symm.trans hh) (by decide))).trans ((if_neg (fun hh => absurd (c0.symm.trans hh) (by decide))).trans ((if_neg (fun hh => absurd (c0.symm.trans hh) (by decide))).trans ((if_pos c0)))))) ?_
  rw [(fin_of_fld (d := d) (m := fld wd 21 5) (f6)), (fin_of_fld (d := a) (m := fld wd 16 5) (f5)), (fin_of_fld (d := b) (m := fld wd 11 5) (f4)), (bit_of_fld (b := x) (lo := 10) (w := wd) (f3)), (bit_of_fld (b := y) (lo := 9) (w := wd) (f2)), (fin_of_fld (d := k) (m := fld wd 6 3) (f1))]

theorem EncodeDecode.vandn (d : Fin 32) (a : Fin 32) (b : Fin 32) (x : Bool) (y : Bool) (k : Fin 8) : EncodeDecode.Statement (.vandn d a b x y k) := by
  intro wd hwf hw
  have hw : 2214592517 + d.val * 2097152 + a.val * 65536 + b.val * 2048 + x.toNat * 1024 + y.toNat * 512 + k.val * 64 = wd := Option.some.inj hw
  have hw : wd = atop 6 5 (atop 3 k.val (atop 1 y.toNat (atop 1 x.toNat (atop 5 b.val (atop 5 a.val (atop 5 d.val (33))))))) := by unfold atop; omega
  obtain ⟨f0, f1, f2, f3, f4, f5, f6, ho⟩ := unpack7 (n1 := 6)  (n2 := 3)  (n3 := 1)  (n4 := 1)  (n5 := 5)  (n6 := 5)  (n7 := 5) (by decide) k.isLt y.toNat_lt x.toNat_lt b.isLt a.isLt d.isLt hw
  have ho : wd / 67108864 = 33 := ho
  refine decode_of_raw (by rw [ho]; rfl) ?_ hwf
  unfold decodeRaw
  rw [ho]
  show decodeOp21 wd = _
  unfold decodeOp21
  have c0 : fld wd 0 6 = 5 := f0
  refine Eq.trans ((if_neg (fun hh => absurd (c0.symm.trans hh) (by decide))).trans ((if_neg (fun hh => absurd (c0.symm.trans hh) (by decide))).trans ((if_neg (fun hh => absurd (c0.symm.trans hh) (by decide))).trans ((if_neg (fun hh => absurd (c0.symm.trans hh) (by decide))).trans ((if_neg (fun hh => absurd (c0.symm.trans hh) (by decide))).trans ((if_pos c0))))))) ?_
  rw [(fin_of_fld (d := d) (m := fld wd 21 5) (f6)), (fin_of_fld (d := a) (m := fld wd 16 5) (f5)), (fin_of_fld (d := b) (m := fld wd 11 5) (f4)), (bit_of_fld (b := x) (lo := 10) (w := wd) (f3)), (bit_of_fld (b := y) (lo := 9) (w := wd) (f2)), (fin_of_fld (d := k) (m := fld wd 6 3) (f1))]

theorem EncodeDecode.vsll (d : Fin 32) (a : Fin 32) (b : Fin 32) (x : Bool) (y : Bool) (k : Fin 8) : EncodeDecode.Statement (.vsll d a b x y k) := by
  intro wd hwf hw
  have hw : 2214592518 + d.val * 2097152 + a.val * 65536 + b.val * 2048 + x.toNat * 1024 + y.toNat * 512 + k.val * 64 = wd := Option.some.inj hw
  have hw : wd = atop 6 6 (atop 3 k.val (atop 1 y.toNat (atop 1 x.toNat (atop 5 b.val (atop 5 a.val (atop 5 d.val (33))))))) := by unfold atop; omega
  obtain ⟨f0, f1, f2, f3, f4, f5, f6, ho⟩ := unpack7 (n1 := 6)  (n2 := 3)  (n3 := 1)  (n4 := 1)  (n5 := 5)  (n6 := 5)  (n7 := 5) (by decide) k.isLt y.toNat_lt x.toNat_lt b.isLt a.isLt d.isLt hw
  have ho : wd / 67108864 = 33 := ho
  refine decode_of_raw (by rw [ho]; rfl) ?_ hwf
  unfold decodeRaw
  rw [ho]
  show decodeOp21 wd = _
  unfold decodeOp21
  have c0 : fld wd 0 6 = 6 := f0
  refine Eq.trans ((if_neg (fun hh => absurd (c0.symm.trans hh) (by decide))).trans ((if_neg (fun hh => absurd (c0.symm.trans hh) (by decide))).trans ((if_neg (fun hh => absurd (c0.symm.trans hh) (by decide))).trans ((if_neg (fun hh => absurd (c0.symm.trans hh) (by decide))).trans ((if_neg (fun hh => absurd (c0.symm.trans hh) (by decide))).trans ((if_neg (fun hh => absurd (c0.symm.trans hh) (by decide))).trans ((if_pos c0)))))))) ?_
  rw [(fin_of_fld (d := d) (m := fld wd 21 5) (f6)), (fin_of_fld (d := a) (m := fld wd 16 5) (f5)), (fin_of_fld (d := b) (m := fld wd 11 5) (f4)), (bit_of_fld (b := x) (lo := 10) (w := wd) (f3)), (bit_of_fld (b := y) (lo := 9) (w := wd) (f2)), (fin_of_fld (d := k) (m := fld wd 6 3) (f1))]

theorem EncodeDecode.vsrl (d : Fin 32) (a : Fin 32) (b : Fin 32) (x : Bool) (y : Bool) (k : Fin 8) : EncodeDecode.Statement (.vsrl d a b x y k) := by
  intro wd hwf hw
  have hw : 2214592519 + d.val * 2097152 + a.val * 65536 + b.val * 2048 + x.toNat * 1024 + y.toNat * 512 + k.val * 64 = wd := Option.some.inj hw
  have hw : wd = atop 6 7 (atop 3 k.val (atop 1 y.toNat (atop 1 x.toNat (atop 5 b.val (atop 5 a.val (atop 5 d.val (33))))))) := by unfold atop; omega
  obtain ⟨f0, f1, f2, f3, f4, f5, f6, ho⟩ := unpack7 (n1 := 6)  (n2 := 3)  (n3 := 1)  (n4 := 1)  (n5 := 5)  (n6 := 5)  (n7 := 5) (by decide) k.isLt y.toNat_lt x.toNat_lt b.isLt a.isLt d.isLt hw
  have ho : wd / 67108864 = 33 := ho
  refine decode_of_raw (by rw [ho]; rfl) ?_ hwf
  unfold decodeRaw
  rw [ho]
  show decodeOp21 wd = _
  unfold decodeOp21
  have c0 : fld wd 0 6 = 7 := f0
  refine Eq.trans ((if_neg (fun hh => absurd (c0.symm.trans hh) (by decide))).trans ((if_neg (fun hh => absurd (c0.symm.trans hh) (by decide))).trans ((if_neg (fun hh => absurd (c0.symm.trans hh) (by decide))).trans ((if_neg (fun hh => absurd (c0.symm.trans hh) (by decide))).trans ((if_neg (fun hh => absurd (c0.symm.trans hh) (by decide))).trans ((if_neg (fun hh => absurd (c0.symm.trans hh) (by decide))).trans ((if_neg (fun hh => absurd (c0.symm.trans hh) (by decide))).trans ((if_pos c0))))))))) ?_
  rw [(fin_of_fld (d := d) (m := fld wd 21 5) (f6)), (fin_of_fld (d := a) (m := fld wd 16 5) (f5)), (fin_of_fld (d := b) (m := fld wd 11 5) (f4)), (bit_of_fld (b := x) (lo := 10) (w := wd) (f3)), (bit_of_fld (b := y) (lo := 9) (w := wd) (f2)), (fin_of_fld (d := k) (m := fld wd 6 3) (f1))]

theorem EncodeDecode.vsra (d : Fin 32) (a : Fin 32) (b : Fin 32) (x : Bool) (y : Bool) (k : Fin 8) : EncodeDecode.Statement (.vsra d a b x y k) := by
  intro wd hwf hw
  have hw : 2214592520 + d.val * 2097152 + a.val * 65536 + b.val * 2048 + x.toNat * 1024 + y.toNat * 512 + k.val * 64 = wd := Option.some.inj hw
  have hw : wd = atop 6 8 (atop 3 k.val (atop 1 y.toNat (atop 1 x.toNat (atop 5 b.val (atop 5 a.val (atop 5 d.val (33))))))) := by unfold atop; omega
  obtain ⟨f0, f1, f2, f3, f4, f5, f6, ho⟩ := unpack7 (n1 := 6)  (n2 := 3)  (n3 := 1)  (n4 := 1)  (n5 := 5)  (n6 := 5)  (n7 := 5) (by decide) k.isLt y.toNat_lt x.toNat_lt b.isLt a.isLt d.isLt hw
  have ho : wd / 67108864 = 33 := ho
  refine decode_of_raw (by rw [ho]; rfl) ?_ hwf
  unfold decodeRaw
  rw [ho]
  show decodeOp21 wd = _
  unfold decodeOp21
  have c0 : fld wd 0 6 = 8 := f0
  refine Eq.trans ((if_neg (fun hh => absurd (c0.symm.trans hh) (by decide))).trans ((if_neg (fun hh => absurd (c0.symm.trans hh) (by decide))).trans ((if_neg (fun hh => absurd (c0.symm.trans hh) (by decide))).trans ((if_neg (fun hh => absurd (c0.symm.trans hh) (by decide))).trans ((if_neg (fun hh => absurd (c0.symm.trans hh) (by decide))).trans ((if_neg (fun hh => absurd (c0.symm.trans hh) (by decide))).trans ((if_neg (fun hh => absurd (c0.symm.trans hh) (by decide))).trans ((if_neg (fun hh => absurd (c0.symm.trans hh) (by decide))).trans ((if_pos c0)))))))))) ?_
  rw [(fin_of_fld (d := d) (m := fld wd 21 5) (f6)), (fin_of_fld (d := a) (m := fld wd 16 5) (f5)), (fin_of_fld (d := b) (m := fld wd 11 5) (f4)), (bit_of_fld (b := x) (lo := 10) (w := wd) (f3)), (bit_of_fld (b := y) (lo := 9) (w := wd) (f2)), (fin_of_fld (d := k) (m := fld wd 6 3) (f1))]

theorem EncodeDecode.vmin (d : Fin 32) (a : Fin 32) (b : Fin 32) (x : Bool) (y : Bool) (k : Fin 8) : EncodeDecode.Statement (.vmin d a b x y k) := by
  intro wd hwf hw
  have hw : 2214592521 + d.val * 2097152 + a.val * 65536 + b.val * 2048 + x.toNat * 1024 + y.toNat * 512 + k.val * 64 = wd := Option.some.inj hw
  have hw : wd = atop 6 9 (atop 3 k.val (atop 1 y.toNat (atop 1 x.toNat (atop 5 b.val (atop 5 a.val (atop 5 d.val (33))))))) := by unfold atop; omega
  obtain ⟨f0, f1, f2, f3, f4, f5, f6, ho⟩ := unpack7 (n1 := 6)  (n2 := 3)  (n3 := 1)  (n4 := 1)  (n5 := 5)  (n6 := 5)  (n7 := 5) (by decide) k.isLt y.toNat_lt x.toNat_lt b.isLt a.isLt d.isLt hw
  have ho : wd / 67108864 = 33 := ho
  refine decode_of_raw (by rw [ho]; rfl) ?_ hwf
  unfold decodeRaw
  rw [ho]
  show decodeOp21 wd = _
  unfold decodeOp21
  have c0 : fld wd 0 6 = 9 := f0
  refine Eq.trans ((if_neg (fun hh => absurd (c0.symm.trans hh) (by decide))).trans ((if_neg (fun hh => absurd (c0.symm.trans hh) (by decide))).trans ((if_neg (fun hh => absurd (c0.symm.trans hh) (by decide))).trans ((if_neg (fun hh => absurd (c0.symm.trans hh) (by decide))).trans ((if_neg (fun hh => absurd (c0.symm.trans hh) (by decide))).trans ((if_neg (fun hh => absurd (c0.symm.trans hh) (by decide))).trans ((if_neg (fun hh => absurd (c0.symm.trans hh) (by decide))).trans ((if_neg (fun hh => absurd (c0.symm.trans hh) (by decide))).trans ((if_neg (fun hh => absurd (c0.symm.trans hh) (by decide))).trans ((if_pos c0))))))))))) ?_
  rw [(fin_of_fld (d := d) (m := fld wd 21 5) (f6)), (fin_of_fld (d := a) (m := fld wd 16 5) (f5)), (fin_of_fld (d := b) (m := fld wd 11 5) (f4)), (bit_of_fld (b := x) (lo := 10) (w := wd) (f3)), (bit_of_fld (b := y) (lo := 9) (w := wd) (f2)), (fin_of_fld (d := k) (m := fld wd 6 3) (f1))]

theorem EncodeDecode.vmax (d : Fin 32) (a : Fin 32) (b : Fin 32) (x : Bool) (y : Bool) (k : Fin 8) : EncodeDecode.Statement (.vmax d a b x y k) := by
  intro wd hwf hw
  have hw : 2214592522 + d.val * 2097152 + a.val * 65536 + b.val * 2048 + x.toNat * 1024 + y.toNat * 512 + k.val * 64 = wd := Option.some.inj hw
  have hw : wd = atop 6 10 (atop 3 k.val (atop 1 y.toNat (atop 1 x.toNat (atop 5 b.val (atop 5 a.val (atop 5 d.val (33))))))) := by unfold atop; omega
  obtain ⟨f0, f1, f2, f3, f4, f5, f6, ho⟩ := unpack7 (n1 := 6)  (n2 := 3)  (n3 := 1)  (n4 := 1)  (n5 := 5)  (n6 := 5)  (n7 := 5) (by decide) k.isLt y.toNat_lt x.toNat_lt b.isLt a.isLt d.isLt hw
  have ho : wd / 67108864 = 33 := ho
  refine decode_of_raw (by rw [ho]; rfl) ?_ hwf
  unfold decodeRaw
  rw [ho]
  show decodeOp21 wd = _
  unfold decodeOp21
  have c0 : fld wd 0 6 = 10 := f0
  refine Eq.trans ((if_neg (fun hh => absurd (c0.symm.trans hh) (by decide))).trans ((if_neg (fun hh => absurd (c0.symm.trans hh) (by decide))).trans ((if_neg (fun hh => absurd (c0.symm.trans hh) (by decide))).trans ((if_neg (fun hh => absurd (c0.symm.trans hh) (by decide))).trans ((if_neg (fun hh => absurd (c0.symm.trans hh) (by decide))).trans ((if_neg (fun hh => absurd (c0.symm.trans hh) (by decide))).trans ((if_neg (fun hh => absurd (c0.symm.trans hh) (by decide))).trans ((if_neg (fun hh => absurd (c0.symm.trans hh) (by decide))).trans ((if_neg (fun hh => absurd (c0.symm.trans hh) (by decide))).trans ((if_neg (fun hh => absurd (c0.symm.trans hh) (by decide))).trans ((if_pos c0)))))))))))) ?_
  rw [(fin_of_fld (d := d) (m := fld wd 21 5) (f6)), (fin_of_fld (d := a) (m := fld wd 16 5) (f5)), (fin_of_fld (d := b) (m := fld wd 11 5) (f4)), (bit_of_fld (b := x) (lo := 10) (w := wd) (f3)), (bit_of_fld (b := y) (lo := 9) (w := wd) (f2)), (fin_of_fld (d := k) (m := fld wd 6 3) (f1))]

theorem EncodeDecode.vminu (d : Fin 32) (a : Fin 32) (b : Fin 32) (x : Bool) (y : Bool) (k : Fin 8) : EncodeDecode.Statement (.vminu d a b x y k) := by
  intro wd hwf hw
  have hw : 2214592523 + d.val * 2097152 + a.val * 65536 + b.val * 2048 + x.toNat * 1024 + y.toNat * 512 + k.val * 64 = wd := Option.some.inj hw
  have hw : wd = atop 6 11 (atop 3 k.val (atop 1 y.toNat (atop 1 x.toNat (atop 5 b.val (atop 5 a.val (atop 5 d.val (33))))))) := by unfold atop; omega
  obtain ⟨f0, f1, f2, f3, f4, f5, f6, ho⟩ := unpack7 (n1 := 6)  (n2 := 3)  (n3 := 1)  (n4 := 1)  (n5 := 5)  (n6 := 5)  (n7 := 5) (by decide) k.isLt y.toNat_lt x.toNat_lt b.isLt a.isLt d.isLt hw
  have ho : wd / 67108864 = 33 := ho
  refine decode_of_raw (by rw [ho]; rfl) ?_ hwf
  unfold decodeRaw
  rw [ho]
  show decodeOp21 wd = _
  unfold decodeOp21
  have c0 : fld wd 0 6 = 11 := f0
  refine Eq.trans ((if_neg (fun hh => absurd (c0.symm.trans hh) (by decide))).trans ((if_neg (fun hh => absurd (c0.symm.trans hh) (by decide))).trans ((if_neg (fun hh => absurd (c0.symm.trans hh) (by decide))).trans ((if_neg (fun hh => absurd (c0.symm.trans hh) (by decide))).trans ((if_neg (fun hh => absurd (c0.symm.trans hh) (by decide))).trans ((if_neg (fun hh => absurd (c0.symm.trans hh) (by decide))).trans ((if_neg (fun hh => absurd (c0.symm.trans hh) (by decide))).trans ((if_neg (fun hh => absurd (c0.symm.trans hh) (by decide))).trans ((if_neg (fun hh => absurd (c0.symm.trans hh) (by decide))).trans ((if_neg (fun hh => absurd (c0.symm.trans hh) (by decide))).trans ((if_neg (fun hh => absurd (c0.symm.trans hh) (by decide))).trans ((if_pos c0))))))))))))) ?_
  rw [(fin_of_fld (d := d) (m := fld wd 21 5) (f6)), (fin_of_fld (d := a) (m := fld wd 16 5) (f5)), (fin_of_fld (d := b) (m := fld wd 11 5) (f4)), (bit_of_fld (b := x) (lo := 10) (w := wd) (f3)), (bit_of_fld (b := y) (lo := 9) (w := wd) (f2)), (fin_of_fld (d := k) (m := fld wd 6 3) (f1))]

theorem EncodeDecode.vmaxu (d : Fin 32) (a : Fin 32) (b : Fin 32) (x : Bool) (y : Bool) (k : Fin 8) : EncodeDecode.Statement (.vmaxu d a b x y k) := by
  intro wd hwf hw
  have hw : 2214592524 + d.val * 2097152 + a.val * 65536 + b.val * 2048 + x.toNat * 1024 + y.toNat * 512 + k.val * 64 = wd := Option.some.inj hw
  have hw : wd = atop 6 12 (atop 3 k.val (atop 1 y.toNat (atop 1 x.toNat (atop 5 b.val (atop 5 a.val (atop 5 d.val (33))))))) := by unfold atop; omega
  obtain ⟨f0, f1, f2, f3, f4, f5, f6, ho⟩ := unpack7 (n1 := 6)  (n2 := 3)  (n3 := 1)  (n4 := 1)  (n5 := 5)  (n6 := 5)  (n7 := 5) (by decide) k.isLt y.toNat_lt x.toNat_lt b.isLt a.isLt d.isLt hw
  have ho : wd / 67108864 = 33 := ho
  refine decode_of_raw (by rw [ho]; rfl) ?_ hwf
  unfold decodeRaw
  rw [ho]
  show decodeOp21 wd = _
  unfold decodeOp21
  have c0 : fld wd 0 6 = 12 := f0
  refine Eq.trans ((if_neg (fun hh => absurd (c0.symm.trans hh) (by decide))).trans ((if_neg (fun hh => absurd (c0.symm.trans hh) (by decide))).trans ((if_neg (fun hh => absurd (c0.symm.trans hh) (by decide))).trans ((if_neg (fun hh => absurd (c0.symm.trans hh) (by decide))).trans ((if_neg (fun hh => absurd (c0.symm.trans hh) (by decide))).trans ((if_neg (fun hh => absurd (c0.symm.trans hh) (by decide))).trans ((if_neg (fun hh => absurd (c0.symm.trans hh) (by decide))).trans ((if_neg (fun hh => absurd (c0.symm.trans hh) (by decide))).trans ((if_neg (fun hh => absurd (c0.symm.trans hh) (by decide))).trans ((if_neg (fun hh => absurd (c0.symm.trans hh) (by decide))).trans ((if_neg (fun hh => absurd (c0.symm.trans hh) (by decide))).trans ((if_neg (fun hh => absurd (c0.symm.trans hh) (by decide))).trans ((if_pos c0)))))))))))))) ?_
  rw [(fin_of_fld (d := d) (m := fld wd 21 5) (f6)), (fin_of_fld (d := a) (m := fld wd 16 5) (f5)), (fin_of_fld (d := b) (m := fld wd 11 5) (f4)), (bit_of_fld (b := x) (lo := 10) (w := wd) (f3)), (bit_of_fld (b := y) (lo := 9) (w := wd) (f2)), (fin_of_fld (d := k) (m := fld wd 6 3) (f1))]

theorem EncodeDecode.vmul (d : Fin 32) (a : Fin 32) (b : Fin 32) (x : Bool) (y : Bool) (k : Fin 8) : EncodeDecode.Statement (.vmul d a b x y k) := by
  intro wd hwf hw
  have hw : 2214592525 + d.val * 2097152 + a.val * 65536 + b.val * 2048 + x.toNat * 1024 + y.toNat * 512 + k.val * 64 = wd := Option.some.inj hw
  have hw : wd = atop 6 13 (atop 3 k.val (atop 1 y.toNat (atop 1 x.toNat (atop 5 b.val (atop 5 a.val (atop 5 d.val (33))))))) := by unfold atop; omega
  obtain ⟨f0, f1, f2, f3, f4, f5, f6, ho⟩ := unpack7 (n1 := 6)  (n2 := 3)  (n3 := 1)  (n4 := 1)  (n5 := 5)  (n6 := 5)  (n7 := 5) (by decide) k.isLt y.toNat_lt x.toNat_lt b.isLt a.isLt d.isLt hw
  have ho : wd / 67108864 = 33 := ho
  refine decode_of_raw (by rw [ho]; rfl) ?_ hwf
  unfold decodeRaw
  rw [ho]
  show decodeOp21 wd = _
  unfold decodeOp21
  have c0 : fld wd 0 6 = 13 := f0
  refine Eq.trans ((if_neg (fun hh => absurd (c0.symm.trans hh) (by decide))).trans ((if_neg (fun hh => absurd (c0.symm.trans hh) (by decide))).trans ((if_neg (fun hh => absurd (c0.symm.trans hh) (by decide))).trans ((if_neg (fun hh => absurd (c0.symm.trans hh) (by decide))).trans ((if_neg (fun hh => absurd (c0.symm.trans hh) (by decide))).trans ((if_neg (fun hh => absurd (c0.symm.trans hh) (by decide))).trans ((if_neg (fun hh => absurd (c0.symm.trans hh) (by decide))).trans ((if_neg (fun hh => absurd (c0.symm.trans hh) (by decide))).trans ((if_neg (fun hh => absurd (c0.symm.trans hh) (by decide))).trans ((if_neg (fun hh => absurd (c0.symm.trans hh) (by decide))).trans ((if_neg (fun hh => absurd (c0.symm.trans hh) (by decide))).trans ((if_neg (fun hh => absurd (c0.symm.trans hh) (by decide))).trans ((if_neg (fun hh => absurd (c0.symm.trans hh) (by decide))).trans ((if_pos c0))))))))))))))) ?_
  rw [(fin_of_fld (d := d) (m := fld wd 21 5) (f6)), (fin_of_fld (d := a) (m := fld wd 16 5) (f5)), (fin_of_fld (d := b) (m := fld wd 11 5) (f4)), (bit_of_fld (b := x) (lo := 10) (w := wd) (f3)), (bit_of_fld (b := y) (lo := 9) (w := wd) (f2)), (fin_of_fld (d := k) (m := fld wd 6 3) (f1))]

theorem EncodeDecode.vmulh (d : Fin 32) (a : Fin 32) (b : Fin 32) (x : Bool) (y : Bool) (k : Fin 8) : EncodeDecode.Statement (.vmulh d a b x y k) := by
  intro wd hwf hw
  have hw : 2214592526 + d.val * 2097152 + a.val * 65536 + b.val * 2048 + x.toNat * 1024 + y.toNat * 512 + k.val * 64 = wd := Option.some.inj hw
  have hw : wd = atop 6 14 (atop 3 k.val (atop 1 y.toNat (atop 1 x.toNat (atop 5 b.val (atop 5 a.val (atop 5 d.val (33))))))) := by unfold atop; omega
  obtain ⟨f0, f1, f2, f3, f4, f5, f6, ho⟩ := unpack7 (n1 := 6)  (n2 := 3)  (n3 := 1)  (n4 := 1)  (n5 := 5)  (n6 := 5)  (n7 := 5) (by decide) k.isLt y.toNat_lt x.toNat_lt b.isLt a.isLt d.isLt hw
  have ho : wd / 67108864 = 33 := ho
  refine decode_of_raw (by rw [ho]; rfl) ?_ hwf
  unfold decodeRaw
  rw [ho]
  show decodeOp21 wd = _
  unfold decodeOp21
  have c0 : fld wd 0 6 = 14 := f0
  refine Eq.trans ((if_neg (fun hh => absurd (c0.symm.trans hh) (by decide))).trans ((if_neg (fun hh => absurd (c0.symm.trans hh) (by decide))).trans ((if_neg (fun hh => absurd (c0.symm.trans hh) (by decide))).trans ((if_neg (fun hh => absurd (c0.symm.trans hh) (by decide))).trans ((if_neg (fun hh => absurd (c0.symm.trans hh) (by decide))).trans ((if_neg (fun hh => absurd (c0.symm.trans hh) (by decide))).trans ((if_neg (fun hh => absurd (c0.symm.trans hh) (by decide))).trans ((if_neg (fun hh => absurd (c0.symm.trans hh) (by decide))).trans ((if_neg (fun hh => absurd (c0.symm.trans hh) (by decide))).trans ((if_neg (fun hh => absurd (c0.symm.trans hh) (by decide))).trans ((if_neg (fun hh => absurd (c0.symm.trans hh) (by decide))).trans ((if_neg (fun hh => absurd (c0.symm.trans hh) (by decide))).trans ((if_neg (fun hh => absurd (c0.symm.trans hh) (by decide))).trans ((if_neg (fun hh => absurd (c0.symm.trans hh) (by decide))).trans ((if_pos c0)))))))))))))))) ?_
  rw [(fin_of_fld (d := d) (m := fld wd 21 5) (f6)), (fin_of_fld (d := a) (m := fld wd 16 5) (f5)), (fin_of_fld (d := b) (m := fld wd 11 5) (f4)), (bit_of_fld (b := x) (lo := 10) (w := wd) (f3)), (bit_of_fld (b := y) (lo := 9) (w := wd) (f2)), (fin_of_fld (d := k) (m := fld wd 6 3) (f1))]

theorem EncodeDecode.vmulhu (d : Fin 32) (a : Fin 32) (b : Fin 32) (x : Bool) (y : Bool) (k : Fin 8) : EncodeDecode.Statement (.vmulhu d a b x y k) := by
  intro wd hwf hw
  have hw : 2214592527 + d.val * 2097152 + a.val * 65536 + b.val * 2048 + x.toNat * 1024 + y.toNat * 512 + k.val * 64 = wd := Option.some.inj hw
  have hw : wd = atop 6 15 (atop 3 k.val (atop 1 y.toNat (atop 1 x.toNat (atop 5 b.val (atop 5 a.val (atop 5 d.val (33))))))) := by unfold atop; omega
  obtain ⟨f0, f1, f2, f3, f4, f5, f6, ho⟩ := unpack7 (n1 := 6)  (n2 := 3)  (n3 := 1)  (n4 := 1)  (n5 := 5)  (n6 := 5)  (n7 := 5) (by decide) k.isLt y.toNat_lt x.toNat_lt b.isLt a.isLt d.isLt hw
  have ho : wd / 67108864 = 33 := ho
  refine decode_of_raw (by rw [ho]; rfl) ?_ hwf
  unfold decodeRaw
  rw [ho]
  show decodeOp21 wd = _
  unfold decodeOp21
  have c0 : fld wd 0 6 = 15 := f0
  refine Eq.trans ((if_neg (fun hh => absurd (c0.symm.trans hh) (by decide))).trans ((if_neg (fun hh => absurd (c0.symm.trans hh) (by decide))).trans ((if_neg (fun hh => absurd (c0.symm.trans hh) (by decide))).trans ((if_neg (fun hh => absurd (c0.symm.trans hh) (by decide))).trans ((if_neg (fun hh => absurd (c0.symm.trans hh) (by decide))).trans ((if_neg (fun hh => absurd (c0.symm.trans hh) (by decide))).trans ((if_neg (fun hh => absurd (c0.symm.trans hh) (by decide))).trans ((if_neg (fun hh => absurd (c0.symm.trans hh) (by decide))).trans ((if_neg (fun hh => absurd (c0.symm.trans hh) (by decide))).trans ((if_neg (fun hh => absurd (c0.symm.trans hh) (by decide))).trans ((if_neg (fun hh => absurd (c0.symm.trans hh) (by decide))).trans ((if_neg (fun hh => absurd (c0.symm.trans hh) (by decide))).trans ((if_neg (fun hh => absurd (c0.symm.trans hh) (by decide))).trans ((if_neg (fun hh => absurd (c0.symm.trans hh) (by decide))).trans ((if_neg (fun hh => absurd (c0.symm.trans hh) (by decide))).trans ((if_pos c0))))))))))))))))) ?_
  rw [(fin_of_fld (d := d) (m := fld wd 21 5) (f6)), (fin_of_fld (d := a) (m := fld wd 16 5) (f5)), (fin_of_fld (d := b) (m := fld wd 11 5) (f4)), (bit_of_fld (b := x) (lo := 10) (w := wd) (f3)), (bit_of_fld (b := y) (lo := 9) (w := wd) (f2)), (fin_of_fld (d := k) (m := fld wd 6 3) (f1))]

theorem EncodeDecode.vdiv (d : Fin 32) (a : Fin 32) (b : Fin 32) (x : Bool) (y : Bool) (k : Fin 8) : EncodeDecode.Statement (.vdiv d a b x y k) := by
  intro wd hwf hw
  have hw : 2214592528 + d.val * 2097152 + a.val * 65536 + b.val * 2048 + x.toNat * 1024 + y.toNat * 512 + k.val * 64 = wd := Option.some.inj hw
  have hw : wd = atop 6 16 (atop 3 k.val (atop 1 y.toNat (atop 1 x.toNat (atop 5 b.val (atop 5 a.val (atop 5 d.val (33))))))) := by unfold atop; omega
  obtain ⟨f0, f1, f2, f3, f4, f5, f6, ho⟩ := unpack7 (n1 := 6)  (n2 := 3)  (n3 := 1)  (n4 := 1)  (n5 := 5)  (n6 := 5)  (n7 := 5) (by decide) k.isLt y.toNat_lt x.toNat_lt b.isLt a.isLt d.isLt hw
  have ho : wd / 67108864 = 33 := ho
  refine decode_of_raw (by rw [ho]; rfl) ?_ hwf
  unfold decodeRaw
  rw [ho]
  show decodeOp21 wd = _
  unfold decodeOp21
  have c0 : fld wd 0 6 = 16 := f0
  refine Eq.trans ((if_neg (fun hh => absurd (c0.symm.trans hh) (by decide))).trans ((if_neg (fun hh => absurd (c0.symm.trans hh) (by decide))).trans ((if_neg (fun hh => absurd (c0.symm.trans hh) (by decide))).trans ((if_neg (fun hh => absurd (c0.symm.trans hh) (by decide))).trans ((if_neg (fun hh => absurd (c0.symm.trans hh) (by decide))).trans ((if_neg (fun hh => absurd (c0.symm.trans hh) (by decide))).trans ((if_neg (fun hh => absurd (c0.symm.trans hh) (by decide))).trans ((if_neg (fun hh => absurd (c0.symm.trans hh) (by decide))).trans ((if_neg (fun hh => absurd (c0.symm.trans hh) (by decide))).trans ((if_neg (fun hh => absurd (c0.symm.trans hh) (by decide))).trans ((if_neg (fun hh => absurd (c0.symm.trans hh) (by decide))).trans ((if_neg (fun hh => absurd (c0.symm.trans hh) (by decide))).trans ((if_neg (fun hh => absurd (c0.symm.trans hh) (by decide))).trans ((if_neg (fun hh => absurd (c0.symm.trans hh) (by decide))).trans ((if_neg (fun hh => absurd (c0.symm.trans hh) (by decide))).trans ((if_neg (fun hh => absurd (c0.symm.trans hh) (by decide))).trans ((if_pos c0)))))))))))))))))) ?_
  rw [(fin_of_fld (d := d) (m := fld wd 21 5) (f6)), (fin_of_fld (d := a) (m := fld wd 16 5) (f5)), (fin_of_fld (d := b) (m := fld wd 11 5) (f4)), (bit_of_fld (b := x) (lo := 10) (w := wd) (f3)), (bit_of_fld (b := y) (lo := 9) (w := wd) (f2)), (fin_of_fld (d := k) (m := fld wd 6 3) (f1))]

theorem EncodeDecode.vdivu (d : Fin 32) (a : Fin 32) (b : Fin 32) (x : Bool) (y : Bool) (k : Fin 8) : EncodeDecode.Statement (.vdivu d a b x y k) := by
  intro wd hwf hw
  have hw : 2214592529 + d.val * 2097152 + a.val * 65536 + b.val * 2048 + x.toNat * 1024 + y.toNat * 512 + k.val * 64 = wd := Option.some.inj hw
  have hw : wd = atop 6 17 (atop 3 k.val (atop 1 y.toNat (atop 1 x.toNat (atop 5 b.val (atop 5 a.val (atop 5 d.val (33))))))) := by unfold atop; omega
  obtain ⟨f0, f1, f2, f3, f4, f5, f6, ho⟩ := unpack7 (n1 := 6)  (n2 := 3)  (n3 := 1)  (n4 := 1)  (n5 := 5)  (n6 := 5)  (n7 := 5) (by decide) k.isLt y.toNat_lt x.toNat_lt b.isLt a.isLt d.isLt hw
  have ho : wd / 67108864 = 33 := ho
  refine decode_of_raw (by rw [ho]; rfl) ?_ hwf
  unfold decodeRaw
  rw [ho]
  show decodeOp21 wd = _
  unfold decodeOp21
  have c0 : fld wd 0 6 = 17 := f0
  refine Eq.trans ((if_neg (fun hh => absurd (c0.symm.trans hh) (by decide))).trans ((if_neg (fun hh => absurd (c0.symm.trans hh) (by decide))).trans ((if_neg (fun hh => absurd (c0.symm.trans hh) (by decide))).trans ((if_neg (fun hh => absurd (c0.symm.trans hh) (by decide))).trans ((if_neg (fun hh => absurd (c0.symm.trans hh) (by decide))).trans ((if_neg (fun hh => absurd (c0.symm.trans hh) (by decide))).trans ((if_neg (fun hh => absurd (c0.symm.trans hh) (by decide))).trans ((if_neg (fun hh => absurd (c0.symm.trans hh) (by decide))).trans ((if_neg (fun hh => absurd (c0.symm.trans hh) (by decide))).trans ((if_neg (fun hh => absurd (c0.symm.trans hh) (by decide))).trans ((if_neg (fun hh => absurd (c0.symm.trans hh) (by decide))).trans ((if_neg (fun hh => absurd (c0.symm.trans hh) (by decide))).trans ((if_neg (fun hh => absurd (c0.symm.trans hh) (by decide))).trans ((if_neg (fun hh => absurd (c0.symm.trans hh) (by decide))).trans ((if_neg (fun hh => absurd (c0.symm.trans hh) (by decide))).trans ((if_neg (fun hh => absurd (c0.symm.trans hh) (by decide))).trans ((if_neg (fun hh => absurd (c0.symm.trans hh) (by decide))).trans ((if_pos c0))))))))))))))))))) ?_
  rw [(fin_of_fld (d := d) (m := fld wd 21 5) (f6)), (fin_of_fld (d := a) (m := fld wd 16 5) (f5)), (fin_of_fld (d := b) (m := fld wd 11 5) (f4)), (bit_of_fld (b := x) (lo := 10) (w := wd) (f3)), (bit_of_fld (b := y) (lo := 9) (w := wd) (f2)), (fin_of_fld (d := k) (m := fld wd 6 3) (f1))]

theorem EncodeDecode.vrem (d : Fin 32) (a : Fin 32) (b : Fin 32) (x : Bool) (y : Bool) (k : Fin 8) : EncodeDecode.Statement (.vrem d a b x y k) := by
  intro wd hwf hw
  have hw : 2214592530 + d.val * 2097152 + a.val * 65536 + b.val * 2048 + x.toNat * 1024 + y.toNat * 512 + k.val * 64 = wd := Option.some.inj hw
  have hw : wd = atop 6 18 (atop 3 k.val (atop 1 y.toNat (atop 1 x.toNat (atop 5 b.val (atop 5 a.val (atop 5 d.val (33))))))) := by unfold atop; omega
  obtain ⟨f0, f1, f2, f3, f4, f5, f6, ho⟩ := unpack7 (n1 := 6)  (n2 := 3)  (n3 := 1)  (n4 := 1)  (n5 := 5)  (n6 := 5)  (n7 := 5) (by decide) k.isLt y.toNat_lt x.toNat_lt b.isLt a.isLt d.isLt hw
  have ho : wd / 67108864 = 33 := ho
  refine decode_of_raw (by rw [ho]; rfl) ?_ hwf
  unfold decodeRaw
  rw [ho]
  show decodeOp21 wd = _
  unfold decodeOp21
  have c0 : fld wd 0 6 = 18 := f0
  refine Eq.trans ((if_neg (fun hh => absurd (c0.symm.trans hh) (by decide))).trans ((if_neg (fun hh => absurd (c0.symm.trans hh) (by decide))).trans ((if_neg (fun hh => absurd (c0.symm.trans hh) (by decide))).trans ((if_neg (fun hh => absurd (c0.symm.trans hh) (by decide))).trans ((if_neg (fun hh => absurd (c0.symm.trans hh) (by decide))).trans ((if_neg (fun hh => absurd (c0.symm.trans hh) (by decide))).trans ((if_neg (fun hh => absurd (c0.symm.trans hh) (by decide))).trans ((if_neg (fun hh => absurd (c0.symm.trans hh) (by decide))).trans ((if_neg (fun hh => absurd (c0.symm.trans hh) (by decide))).trans ((if_neg (fun hh => absurd (c0.symm.trans hh) (by decide))).trans ((if_neg (fun hh => absurd (c0.symm.trans hh) (by decide))).trans ((if_neg (fun hh => absurd (c0.symm.trans hh) (by decide))).trans ((if_neg (fun hh => absurd (c0.symm.trans hh) (by decide))).trans ((if_neg (fun hh => absurd (c0.symm.trans hh) (by decide))).trans ((if_neg (fun hh => absurd (c0.symm.trans hh) (by decide))).trans ((if_neg (fun hh => absurd (c0.symm.trans hh) (by decide))).trans ((if_neg (fun hh => absurd (c0.symm.trans hh) (by decide))).trans ((if_neg (fun hh => absurd (c0.symm.trans hh) (by decide))).trans ((if_pos c0)))))))))))))))))))) ?_
  rw [(fin_of_fld (d := d) (m := fld wd 21 5) (f6)), (fin_of_fld (d := a) (m := fld wd 16 5) (f5)), (fin_of_fld (d := b) (m := fld wd 11 5) (f4)), (bit_of_fld (b := x) (lo := 10) (w := wd) (f3)), (bit_of_fld (b := y) (lo := 9) (w := wd) (f2)), (fin_of_fld (d := k) (m := fld wd 6 3) (f1))]

theorem EncodeDecode.vremu (d : Fin 32) (a : Fin 32) (b : Fin 32) (x : Bool) (y : Bool) (k : Fin 8) : EncodeDecode.Statement (.vremu d a b x y k) := by
  intro wd hwf hw
  have hw : 2214592531 + d.val * 2097152 + a.val * 65536 + b.val * 2048 + x.toNat * 1024 + y.toNat * 512 + k.val * 64 = wd := Option.some.inj hw
  have hw : wd = atop 6 19 (atop 3 k.val (atop 1 y.toNat (atop 1 x.toNat (atop 5 b.val (atop 5 a.val (atop 5 d.val (33))))))) := by unfold atop; omega
  obtain ⟨f0, f1, f2, f3, f4, f5, f6, ho⟩ := unpack7 (n1 := 6)  (n2 := 3)  (n3 := 1)  (n4 := 1)  (n5 := 5)  (n6 := 5)  (n7 := 5) (by decide) k.isLt y.toNat_lt x.toNat_lt b.isLt a.isLt d.isLt hw
  have ho : wd / 67108864 = 33 := ho
  refine decode_of_raw (by rw [ho]; rfl) ?_ hwf
  unfold decodeRaw
  rw [ho]
  show decodeOp21 wd = _
  unfold decodeOp21
  have c0 : fld wd 0 6 = 19 := f0
  refine Eq.trans ((if_neg (fun hh => absurd (c0.symm.trans hh) (by decide))).trans ((if_neg (fun hh => absurd (c0.symm.trans hh) (by decide))).trans ((if_neg (fun hh => absurd (c0.symm.trans hh) (by decide))).trans ((if_neg (fun hh => absurd (c0.symm.trans hh) (by decide))).trans ((if_neg (fun hh => absurd (c0.symm.trans hh) (by decide))).trans ((if_neg (fun hh => absurd (c0.symm.trans hh) (by decide))).trans ((if_neg (fun hh => absurd (c0.symm.trans hh) (by decide))).trans ((if_neg (fun hh => absurd (c0.symm.trans hh) (by decide))).trans ((if_neg (fun hh => absurd (c0.symm.trans hh) (by decide))).trans ((if_neg (fun hh => absurd (c0.symm.trans hh) (by decide))).trans ((if_neg (fun hh => absurd (c0.symm.trans hh) (by decide))).trans ((if_neg (fun hh => absurd (c0.symm.trans hh) (by decide))).trans ((if_neg (fun hh => absurd (c0.symm.trans hh) (by decide))).trans ((if_neg (fun hh => absurd (c0.symm.trans hh) (by decide))).trans ((if_neg (fun hh => absurd (c0.symm.trans hh) (by decide))).trans ((if_neg (fun hh => absurd (c0.symm.trans hh) (by decide))).trans ((if_neg (fun hh => absurd (c0.symm.trans hh) (by decide))).trans ((if_neg (fun hh => absurd (c0.symm.trans hh) (by decide))).trans ((if_neg (fun hh => absurd (c0.symm.trans hh) (by decide))).trans ((if_pos c0))))))))))))))))))))) ?_
  rw [(fin_of_fld (d := d) (m := fld wd 21 5) (f6)), (fin_of_fld (d := a) (m := fld wd 16 5) (f5)), (fin_of_fld (d := b) (m := fld wd 11 5) (f4)), (bit_of_fld (b := x) (lo := 10) (w := wd) (f3)), (bit_of_fld (b := y) (lo := 9) (w := wd) (f2)), (fin_of_fld (d := k) (m := fld wd 6 3) (f1))]

theorem EncodeDecode.vmacc (d : Fin 32) (a : Fin 32) (b : Fin 32) (x : Bool) (y : Bool) (k : Fin 8) : EncodeDecode.Statement (.vmacc d a b x y k) := by
  intro wd hwf hw
  have hw : 2214592532 + d.val * 2097152 + a.val * 65536 + b.val * 2048 + x.toNat * 1024 + y.toNat * 512 + k.val * 64 = wd := Option.some.inj hw
  have hw : wd = atop 6 20 (atop 3 k.val (atop 1 y.toNat (atop 1 x.toNat (atop 5 b.val (atop 5 a.val (atop 5 d.val (33))))))) := by unfold atop; omega
  obtain ⟨f0, f1, f2, f3, f4, f5, f6, ho⟩ := unpack7 (n1 := 6)  (n2 := 3)  (n3 := 1)  (n4 := 1)  (n5 := 5)  (n6 := 5)  (n7 := 5) (by decide) k.isLt y.toNat_lt x.toNat_lt b.isLt a.isLt d.isLt hw
  have ho : wd / 67108864 = 33 := ho
  refine decode_of_raw (by rw [ho]; rfl) ?_ hwf
  unfold decodeRaw
  rw [ho]
  show decodeOp21 wd = _
  unfold decodeOp21
  have c0 : fld wd 0 6 = 20 := f0
  refine Eq.trans ((if_neg (fun hh => absurd (c0.symm.trans hh) (by decide))).trans ((if_neg (fun hh => absurd (c0.symm.trans hh) (by decide))).trans ((if_neg (fun hh => absurd (c0.symm.trans hh) (by decide))).trans ((if_neg (fun hh => absurd (c0.symm.trans hh) (by decide))).trans ((if_neg (fun hh => absurd (c0.symm.trans hh) (by decide))).trans ((if_neg (fun hh => absurd (c0.symm.trans hh) (by decide))).trans ((if_neg (fun hh => absurd (c0.symm.trans hh) (by decide))).trans ((if_neg (fun hh => absurd (c0.symm.trans hh) (by decide))).trans ((if_neg (fun hh => absurd (c0.symm.trans hh) (by decide))).trans ((if_neg (fun hh => absurd (c0.symm.trans hh) (by decide))).trans ((if_neg (fun hh => absurd (c0.symm.trans hh) (by decide))).trans ((if_neg (fun hh => absurd (c0.symm.trans hh) (by decide))).trans ((if_neg (fun hh => absurd (c0.symm.trans hh) (by decide))).trans ((if_neg (fun hh => absurd (c0.symm.trans hh) (by decide))).trans ((if_neg (fun hh => absurd (c0.symm.trans hh) (by decide))).trans ((if_neg (fun hh => absurd (c0.symm.trans hh) (by decide))).trans ((if_neg (fun hh => absurd (c0.symm.trans hh) (by decide))).trans ((if_neg (fun hh => absurd (c0.symm.trans hh) (by decide))).trans ((if_neg (fun hh => absurd (c0.symm.trans hh) (by decide))).trans ((if_neg (fun hh => absurd (c0.symm.trans hh) (by decide))).trans ((if_pos c0)))))))))))))))))))))) ?_
  rw [(fin_of_fld (d := d) (m := fld wd 21 5) (f6)), (fin_of_fld (d := a) (m := fld wd 16 5) (f5)), (fin_of_fld (d := b) (m := fld wd 11 5) (f4)), (bit_of_fld (b := x) (lo := 10) (w := wd) (f3)), (bit_of_fld (b := y) (lo := 9) (w := wd) (f2)), (fin_of_fld (d := k) (m := fld wd 6 3) (f1))]

theorem EncodeDecode.vsadd (d : Fin 32) (a : Fin 32) (b : Fin 32) (x : Bool) (y : Bool) (k : Fin 8) : EncodeDecode.Statement (.vsadd d a b x y k) := by
  intro wd hwf hw
  have hw : 2214592533 + d.val * 2097152 + a.val * 65536 + b.val * 2048 + x.toNat * 1024 + y.toNat * 512 + k.val * 64 = wd := Option.some.inj hw
  have hw : wd = atop 6 21 (atop 3 k.val (atop 1 y.toNat (atop 1 x.toNat (atop 5 b.val (atop 5 a.val (atop 5 d.val (33))))))) := by unfold atop; omega
  obtain ⟨f0, f1, f2, f3, f4, f5, f6, ho⟩ := unpack7 (n1 := 6)  (n2 := 3)  (n3 := 1)  (n4 := 1)  (n5 := 5)  (n6 := 5)  (n7 := 5) (by decide) k.isLt y.toNat_lt x.toNat_lt b.isLt a.isLt d.isLt hw
  have ho : wd / 67108864 = 33 := ho
  refine decode_of_raw (by rw [ho]; rfl) ?_ hwf
  unfold decodeRaw
  rw [ho]
  show decodeOp21 wd = _
  unfold decodeOp21
  have c0 : fld wd 0 6 = 21 := f0
  refine Eq.trans ((if_neg (fun hh => absurd (c0.symm.trans hh) (by decide))).trans ((if_neg (fun hh => absurd (c0.symm.trans hh) (by decide))).trans ((if_neg (fun hh => absurd (c0.symm.trans hh) (by decide))).trans ((if_neg (fun hh => absurd (c0.symm.trans hh) (by decide))).trans ((if_neg (fun hh => absurd (c0.symm.trans hh) (by decide))).trans ((if_neg (fun hh => absurd (c0.symm.trans hh) (by decide))).trans ((if_neg (fun hh => absurd (c0.symm.trans hh) (by decide))).trans ((if_neg (fun hh => absurd (c0.symm.trans hh) (by decide))).trans ((if_neg (fun hh => absurd (c0.symm.trans hh) (by decide))).trans ((if_neg (fun hh => absurd (c0.symm.trans hh) (by decide))).trans ((if_neg (fun hh => absurd (c0.symm.trans hh) (by decide))).trans ((if_neg (fun hh => absurd (c0.symm.trans hh) (by decide))).trans ((if_neg (fun hh => absurd (c0.symm.trans hh) (by decide))).trans ((if_neg (fun hh => absurd (c0.symm.trans hh) (by decide))).trans ((if_neg (fun hh => absurd (c0.symm.trans hh) (by decide))).trans ((if_neg (fun hh => absurd (c0.symm.trans hh) (by decide))).trans ((if_neg (fun hh => absurd (c0.symm.trans hh) (by decide))).trans ((if_neg (fun hh => absurd (c0.symm.trans hh) (by decide))).trans ((if_neg (fun hh => absurd (c0.symm.trans hh) (by decide))).trans ((if_neg (fun hh => absurd (c0.symm.trans hh) (by decide))).trans ((if_neg (fun hh => absurd (c0.symm.trans hh) (by decide))).trans ((if_pos c0))))))))))))))))))))))) ?_
  rw [(fin_of_fld (d := d) (m := fld wd 21 5) (f6)), (fin_of_fld (d := a) (m := fld wd 16 5) (f5)), (fin_of_fld (d := b) (m := fld wd 11 5) (f4)), (bit_of_fld (b := x) (lo := 10) (w := wd) (f3)), (bit_of_fld (b := y) (lo := 9) (w := wd) (f2)), (fin_of_fld (d := k) (m := fld wd 6 3) (f1))]

theorem EncodeDecode.vsaddu (d : Fin 32) (a : Fin 32) (b : Fin 32) (x : Bool) (y : Bool) (k : Fin 8) : EncodeDecode.Statement (.vsaddu d a b x y k) := by
  intro wd hwf hw
  have hw : 2214592534 + d.val * 2097152 + a.val * 65536 + b.val * 2048 + x.toNat * 1024 + y.toNat * 512 + k.val * 64 = wd := Option.some.inj hw
  have hw : wd = atop 6 22 (atop 3 k.val (atop 1 y.toNat (atop 1 x.toNat (atop 5 b.val (atop 5 a.val (atop 5 d.val (33))))))) := by unfold atop; omega
  obtain ⟨f0, f1, f2, f3, f4, f5, f6, ho⟩ := unpack7 (n1 := 6)  (n2 := 3)  (n3 := 1)  (n4 := 1)  (n5 := 5)  (n6 := 5)  (n7 := 5) (by decide) k.isLt y.toNat_lt x.toNat_lt b.isLt a.isLt d.isLt hw
  have ho : wd / 67108864 = 33 := ho
  refine decode_of_raw (by rw [ho]; rfl) ?_ hwf
  unfold decodeRaw
  rw [ho]
  show decodeOp21 wd = _
  unfold decodeOp21
  have c0 : fld wd 0 6 = 22 := f0
  refine Eq.trans ((if_neg (fun hh => absurd (c0.symm.trans hh) (by decide))).trans ((if_neg (fun hh => absurd (c0.symm.trans hh) (by decide))).trans ((if_neg (fun hh => absurd (c0.symm.trans hh) (by decide))).trans ((if_neg (fun hh => absurd (c0.symm.trans hh) (by decide))).trans ((if_neg (fun hh => absurd (c0.symm.trans hh) (by decide))).trans ((if_neg (fun hh => absurd (c0.symm.trans hh) (by decide))).trans ((if_neg (fun hh => absurd (c0.symm.trans hh) (by decide))).trans ((if_neg (fun hh => absurd (c0.symm.trans hh) (by decide))).trans ((if_neg (fun hh => absurd (c0.symm.trans hh) (by decide))).trans ((if_neg (fun hh => absurd (c0.symm.trans hh) (by decide))).trans ((if_neg (fun hh => absurd (c0.symm.trans hh) (by decide))).trans ((if_neg (fun hh => absurd (c0.symm.trans hh) (by decide))).trans ((if_neg (fun hh => absurd (c0.symm.trans hh) (by decide))).trans ((if_neg (fun hh => absurd (c0.symm.trans hh) (by decide))).trans ((if_neg (fun hh => absurd (c0.symm.trans hh) (by decide))).trans ((if_neg (fun hh => absurd (c0.symm.trans hh) (by decide))).trans ((if_neg (fun hh => absurd (c0.symm.trans hh) (by decide))).trans ((if_neg (fun hh => absurd (c0.symm.trans hh) (by decide))).trans ((if_neg (fun hh => absurd (c0.symm.trans hh) (by decide))).trans ((if_neg (fun hh => absurd (c0.symm.trans hh) (by decide))).trans ((if_neg (fun hh => absurd (c0.symm.trans hh) (by decide))).trans ((if_neg (fun hh => absurd (c0.symm.trans hh) (by decide))).trans ((if_pos c0)))))))))))))))))))))))) ?_
  rw [(fin_of_fld (d := d) (m := fld wd 21 5) (f6)), (fin_of_fld (d := a) (m := fld wd 16 5) (f5)), (fin_of_fld (d := b) (m := fld wd 11 5) (f4)), (bit_of_fld (b := x) (lo := 10) (w := wd) (f3)), (bit_of_fld (b := y) (lo := 9) (w := wd) (f2)), (fin_of_fld (d := k) (m := fld wd 6 3) (f1))]

theorem EncodeDecode.vssub (d : Fin 32) (a : Fin 32) (b : Fin 32) (x : Bool) (y : Bool) (k : Fin 8) : EncodeDecode.Statement (.vssub d a b x y k) := by
  intro wd hwf hw
  have hw : 2214592535 + d.val * 2097152 + a.val * 65536 + b.val * 2048 + x.toNat * 1024 + y.toNat * 512 + k.val * 64 = wd := Option.some.inj hw
  have hw : wd = atop 6 23 (atop 3 k.val (atop 1 y.toNat (atop 1 x.toNat (atop 5 b.val (atop 5 a.val (atop 5 d.val (33))))))) := by unfold atop; omega
  obtain ⟨f0, f1, f2, f3, f4, f5, f6, ho⟩ := unpack7 (n1 := 6)  (n2 := 3)  (n3 := 1)  (n4 := 1)  (n5 := 5)  (n6 := 5)  (n7 := 5) (by decide) k.isLt y.toNat_lt x.toNat_lt b.isLt a.isLt d.isLt hw
  have ho : wd / 67108864 = 33 := ho
  refine decode_of_raw (by rw [ho]; rfl) ?_ hwf
  unfold decodeRaw
  rw [ho]
  show decodeOp21 wd = _
  unfold decodeOp21
  have c0 : fld wd 0 6 = 23 := f0
  refine Eq.trans ((if_neg (fun hh => absurd (c0.symm.trans hh) (by decide))).trans ((if_neg (fun hh => absurd (c0.symm.trans hh) (by decide))).trans ((if_neg (fun hh => absurd (c0.symm.trans hh) (by decide))).trans ((if_neg (fun hh => absurd (c0.symm.trans hh) (by decide))).trans ((if_neg (fun hh => absurd (c0.symm.trans hh) (by decide))).trans ((if_neg (fun hh => absurd (c0.symm.trans hh) (by decide))).trans ((if_neg (fun hh => absurd (c0.symm.trans hh) (by decide))).trans ((if_neg (fun hh => absurd (c0.symm.trans hh) (by decide))).trans ((if_neg (fun hh => absurd (c0.symm.trans hh) (by decide))).trans ((if_neg (fun hh => absurd (c0.symm.trans hh) (by decide))).trans ((if_neg (fun hh => absurd (c0.symm.trans hh) (by decide))).trans ((if_neg (fun hh => absurd (c0.symm.trans hh) (by decide))).trans ((if_neg (fun hh => absurd (c0.symm.trans hh) (by decide))).trans ((if_neg (fun hh => absurd (c0.symm.trans hh) (by decide))).trans ((if_neg (fun hh => absurd (c0.symm.trans hh) (by decide))).trans ((if_neg (fun hh => absurd (c0.symm.trans hh) (by decide))).trans ((if_neg (fun hh => absurd (c0.symm.trans hh) (by decide))).trans ((if_neg (fun hh => absurd (c0.symm.trans hh) (by decide))).trans ((if_neg (fun hh => absurd (c0.symm.trans hh) (by decide))).trans ((if_neg (fun hh => absurd (c0.symm.trans hh) (by decide))).trans ((if_neg (fun hh => absurd (c0.symm.trans hh) (by decide))).trans ((if_neg (fun hh => absurd (c0.symm.trans hh) (by decide))).trans ((if_neg (fun hh => absurd (c0.symm.trans hh) (by decide))).trans ((if_pos c0))))))))))))))))))))))))) ?_
  rw [(fin_of_fld (d := d) (m := fld wd 21 5) (f6)), (fin_of_fld (d := a) (m := fld wd 16 5) (f5)), (fin_of_fld (d := b) (m := fld wd 11 5) (f4)), (bit_of_fld (b := x) (lo := 10) (w := wd) (f3)), (bit_of_fld (b := y) (lo := 9) (w := wd) (f2)), (fin_of_fld (d := k) (m := fld wd 6 3) (f1))]

theorem EncodeDecode.vssubu (d : Fin 32) (a : Fin 32) (b : Fin 32) (x : Bool) (y : Bool) (k : Fin 8) : EncodeDecode.Statement (.vssubu d a b x y k) := by
  intro wd hwf hw
  have hw : 2214592536 + d.val * 2097152 + a.val * 65536 + b.val * 2048 + x.toNat * 1024 + y.toNat * 512 + k.val * 64 = wd := Option.some.inj hw
  have hw : wd = atop 6 24 (atop 3 k.val (atop 1 y.toNat (atop 1 x.toNat (atop 5 b.val (atop 5 a.val (atop 5 d.val (33))))))) := by unfold atop; omega
  obtain ⟨f0, f1, f2, f3, f4, f5, f6, ho⟩ := unpack7 (n1 := 6)  (n2 := 3)  (n3 := 1)  (n4 := 1)  (n5 := 5)  (n6 := 5)  (n7 := 5) (by decide) k.isLt y.toNat_lt x.toNat_lt b.isLt a.isLt d.isLt hw
  have ho : wd / 67108864 = 33 := ho
  refine decode_of_raw (by rw [ho]; rfl) ?_ hwf
  unfold decodeRaw
  rw [ho]
  show decodeOp21 wd = _
  unfold decodeOp21
  have c0 : fld wd 0 6 = 24 := f0
  refine Eq.trans ((if_neg (fun hh => absurd (c0.symm.trans hh) (by decide))).trans ((if_neg (fun hh => absurd (c0.symm.trans hh) (by decide))).trans ((if_neg (fun hh => absurd (c0.symm.trans hh) (by decide))).trans ((if_neg (fun hh => absurd (c0.symm.trans hh) (by decide))).trans ((if_neg (fun hh => absurd (c0.symm.trans hh) (by decide))).trans ((if_neg (fun hh => absurd (c0.symm.trans hh) (by decide))).trans ((if_neg (fun hh => absurd (c0.symm.trans hh) (by decide))).trans ((if_neg (fun hh => absurd (c0.symm.trans hh) (by decide))).trans ((if_neg (fun hh => absurd (c0.symm.trans hh) (by decide))).trans ((if_neg (fun hh => absurd (c0.symm.trans hh) (by decide))).trans ((if_neg (fun hh => absurd (c0.symm.trans hh) (by decide))).trans ((if_neg (fun hh => absurd (c0.symm.trans hh) (by decide))).trans ((if_neg (fun hh => absurd (c0.symm.trans hh) (by decide))).trans ((if_neg (fun hh => absurd (c0.symm.trans hh) (by decide))).trans ((if_neg (fun hh => absurd (c0.symm.trans hh) (by decide))).trans ((if_neg (fun hh => absurd (c0.symm.trans hh) (by decide))).trans ((if_neg (fun hh => absurd (c0.symm.trans hh) (by decide))).trans ((if_neg (fun hh => absurd (c0.symm.trans hh) (by decide))).trans ((if_neg (fun hh => absurd (c0.symm.trans hh) (by decide))).trans ((if_neg (fun hh => absurd (c0.symm.trans hh) (by decide))).trans ((if_neg (fun hh => absurd (c0.symm.trans hh) (by decide))).trans ((if_neg (fun hh => absurd (c0.symm.trans hh) (by decide))).trans ((if_neg (fun hh => absurd (c0.symm.trans hh) (by decide))).trans ((if_neg (fun hh => absurd (c0.symm.trans hh) (by decide))).trans ((if_pos c0)))))))))))))))))))))))))) ?_
  rw [(fin_of_fld (d := d) (m := fld wd 21 5) (f6)), (fin_of_fld (d := a) (m := fld wd 16 5) (f5)), (fin_of_fld (d := b) (m := fld wd 11 5) (f4)), (bit_of_fld (b := x) (lo := 10) (w := wd) (f3)), (bit_of_fld (b := y) (lo := 9) (w := wd) (f2)), (fin_of_fld (d := k) (m := fld wd 6 3) (f1))]

theorem EncodeDecode.vabsd (d : Fin 32) (a : Fin 32) (b : Fin 32) (x : Bool) (y : Bool) (k : Fin 8) : EncodeDecode.Statement (.vabsd d a b x y k) := by
  intro wd hwf hw
  have hw : 2214592537 + d.val * 2097152 + a.val * 65536 + b.val * 2048 + x.toNat * 1024 + y.toNat * 512 + k.val * 64 = wd := Option.some.inj hw
  have hw : wd = atop 6 25 (atop 3 k.val (atop 1 y.toNat (atop 1 x.toNat (atop 5 b.val (atop 5 a.val (atop 5 d.val (33))))))) := by unfold atop; omega
  obtain ⟨f0, f1, f2, f3, f4, f5, f6, ho⟩ := unpack7 (n1 := 6)  (n2 := 3)  (n3 := 1)  (n4 := 1)  (n5 := 5)  (n6 := 5)  (n7 := 5) (by decide) k.isLt y.toNat_lt x.toNat_lt b.isLt a.isLt d.isLt hw
  have ho : wd / 67108864 = 33 := ho
  refine decode_of_raw (by rw [ho]; rfl) ?_ hwf
  unfold decodeRaw
  rw [ho]
  show decodeOp21 wd = _
  unfold decodeOp21
  have c0 : fld wd 0 6 = 25 := f0
  refine Eq.trans ((if_neg (fun hh => absurd (c0.symm.trans hh) (by decide))).trans ((if_neg (fun hh => absurd (c0.symm.trans hh) (by decide))).trans ((if_neg (fun hh => absurd (c0.symm.trans hh) (by decide))).trans ((if_neg (fun hh => absurd (c0.symm.trans hh) (by decide))).trans ((if_neg (fun hh => absurd (c0.symm.trans hh) (by decide))).trans ((if_neg (fun hh => absurd (c0.symm.trans hh) (by decide))).trans ((if_neg (fun hh => absurd (c0.symm.trans hh) (by decide))).trans ((if_neg (fun hh => absurd (c0.symm.trans hh) (by decide))).trans ((if_neg (fun hh => absurd (c0.symm.trans hh) (by decide))).trans ((if_neg (fun hh => absurd (c0.symm.trans hh) (by decide))).trans ((if_neg (fun hh => absurd (c0.symm.trans hh) (by decide))).trans ((if_neg (fun hh => absurd (c0.symm.trans hh) (by decide))).trans ((if_neg (fun hh => absurd (c0.symm.trans hh) (by decide))).trans ((if_neg (fun hh => absurd (c0.symm.trans hh) (by decide))).trans ((if_neg (fun hh => absurd (c0.symm.trans hh) (by decide))).trans ((if_neg (fun hh => absurd (c0.symm.trans hh) (by decide))).trans ((if_neg (fun hh => absurd (c0.symm.trans hh) (by decide))).trans ((if_neg (fun hh => absurd (c0.symm.trans hh) (by decide))).trans ((if_neg (fun hh => absurd (c0.symm.trans hh) (by decide))).trans ((if_neg (fun hh => absurd (c0.symm.trans hh) (by decide))).trans ((if_neg (fun hh => absurd (c0.symm.trans hh) (by decide))).trans ((if_neg (fun hh => absurd (c0.symm.trans hh) (by decide))).trans ((if_neg (fun hh => absurd (c0.symm.trans hh) (by decide))).trans ((if_neg (fun hh => absurd (c0.symm.trans hh) (by decide))).trans ((if_neg (fun hh => absurd (c0.symm.trans hh) (by decide))).trans ((if_pos c0))))))))))))))))))))))))))) ?_
  rw [(fin_of_fld (d := d) (m := fld wd 21 5) (f6)), (fin_of_fld (d := a) (m := fld wd 16 5) (f5)), (fin_of_fld (d := b) (m := fld wd 11 5) (f4)), (bit_of_fld (b := x) (lo := 10) (w := wd) (f3)), (bit_of_fld (b := y) (lo := 9) (w := wd) (f2)), (fin_of_fld (d := k) (m := fld wd 6 3) (f1))]

theorem EncodeDecode.vclz (d : Fin 32) (a : Fin 32) (x : Bool) (k : Fin 8) : EncodeDecode.Statement (.vclz d a x k) := by
  intro wd hwf hw
  have hw : 2214592538 + d.val * 2097152 + a.val * 65536 + x.toNat * 1024 + k.val * 64 = wd := Option.some.inj hw
  have hw : wd = atop 6 26 (atop 3 k.val (atop 1 0 (atop 1 x.toNat (atop 5 0 (atop 5 a.val (atop 5 d.val (33))))))) := by unfold atop; omega
  obtain ⟨f0, f1, f2, f3, f4, f5, f6, ho⟩ := unpack7 (n1 := 6)  (n2 := 3)  (n3 := 1)  (n4 := 1)  (n5 := 5)  (n6 := 5)  (n7 := 5) (by decide) k.isLt (by decide) x.toNat_lt (by decide) a.isLt d.isLt hw
  have ho : wd / 67108864 = 33 := ho
  refine decode_of_raw (by rw [ho]; rfl) ?_ hwf
  unfold decodeRaw
  rw [ho]
  show decodeOp21 wd = _
  unfold decodeOp21
  have c0 : fld wd 0 6 = 26 := f0
  have c1 : fld wd 9 1 = 0 := f2
  have c2 : fld wd 11 5 = 0 := f4
  refine Eq.trans ((if_neg (fun hh => absurd (c0.symm.trans hh) (by decide))).trans ((if_neg (fun hh => absurd (c0.symm.trans hh) (by decide))).trans ((if_neg (fun hh => absurd (c0.symm.trans hh) (by decide))).trans ((if_neg (fun hh => absurd (c0.symm.trans hh) (by decide))).trans ((if_neg (fun hh => absurd (c0.symm.trans hh) (by decide))).trans ((if_neg (fun hh => absurd (c0.symm.trans hh) (by decide))).trans ((if_neg (fun hh => absurd (c0.symm.trans hh) (by decide))).trans ((if_neg (fun hh => absurd (c0.symm.trans hh) (by decide))).trans ((if_neg (fun hh => absurd (c0.symm.trans hh) (by decide))).trans ((if_neg (fun hh => absurd (c0.symm.trans hh) (by decide))).trans ((if_neg (fun hh => absurd (c0.symm.trans hh) (by decide))).trans ((if_neg (fun hh => absurd (c0.symm.trans hh) (by decide))).trans ((if_neg (fun hh => absurd (c0.symm.trans hh) (by decide))).trans ((if_neg (fun hh => absurd (c0.symm.trans hh) (by decide))).trans ((if_neg (fun hh => absurd (c0.symm.trans hh) (by decide))).trans ((if_neg (fun hh => absurd (c0.symm.trans hh) (by decide))).trans ((if_neg (fun hh => absurd (c0.symm.trans hh) (by decide))).trans ((if_neg (fun hh => absurd (c0.symm.trans hh) (by decide))).trans ((if_neg (fun hh => absurd (c0.symm.trans hh) (by decide))).trans ((if_neg (fun hh => absurd (c0.symm.trans hh) (by decide))).trans ((if_neg (fun hh => absurd (c0.symm.trans hh) (by decide))).trans ((if_neg (fun hh => absurd (c0.symm.trans hh) (by decide))).trans ((if_neg (fun hh => absurd (c0.symm.trans hh) (by decide))).trans ((if_neg (fun hh => absurd (c0.symm.trans hh) (by decide))).trans ((if_neg (fun hh => absurd (c0.symm.trans hh) (by decide))).trans ((if_neg (fun hh => absurd (c0.symm.trans hh) (by decide))).trans ((if_pos ⟨c0, c1, c2⟩)))))))))))))))))))))))))))) ?_
  rw [(fin_of_fld (d := d) (m := fld wd 21 5) (f6)), (fin_of_fld (d := a) (m := fld wd 16 5) (f5)), (bit_of_fld (b := x) (lo := 10) (w := wd) (f3)), (fin_of_fld (d := k) (m := fld wd 6 3) (f1))]

theorem EncodeDecode.vctz (d : Fin 32) (a : Fin 32) (x : Bool) (k : Fin 8) : EncodeDecode.Statement (.vctz d a x k) := by
  intro wd hwf hw
  have hw : 2214592539 + d.val * 2097152 + a.val * 65536 + x.toNat * 1024 + k.val * 64 = wd := Option.some.inj hw
  have hw : wd = atop 6 27 (atop 3 k.val (atop 1 0 (atop 1 x.toNat (atop 5 0 (atop 5 a.val (atop 5 d.val (33))))))) := by unfold atop; omega
  obtain ⟨f0, f1, f2, f3, f4, f5, f6, ho⟩ := unpack7 (n1 := 6)  (n2 := 3)  (n3 := 1)  (n4 := 1)  (n5 := 5)  (n6 := 5)  (n7 := 5) (by decide) k.isLt (by decide) x.toNat_lt (by decide) a.isLt d.isLt hw
  have ho : wd / 67108864 = 33 := ho
  refine decode_of_raw (by rw [ho]; rfl) ?_ hwf
  unfold decodeRaw
  rw [ho]
  show decodeOp21 wd = _
  unfold decodeOp21
  have c0 : fld wd 0 6 = 27 := f0
  have c1 : fld wd 9 1 = 0 := f2
  have c2 : fld wd 11 5 = 0 := f4
  refine Eq.trans ((if_neg (fun hh => absurd (c0.symm.trans hh) (by decide))).trans ((if_neg (fun hh => absurd (c0.symm.trans hh) (by decide))).trans ((if_neg (fun hh => absurd (c0.symm.trans hh) (by decide))).trans ((if_neg (fun hh => absurd (c0.symm.trans hh) (by decide))).trans ((if_neg (fun hh => absurd (c0.symm.trans hh) (by decide))).trans ((if_neg (fun hh => absurd (c0.symm.trans hh) (by decide))).trans ((if_neg (fun hh => absurd (c0.symm.trans hh) (by decide))).trans ((if_neg (fun hh => absurd (c0.symm.trans hh) (by decide))).trans ((if_neg (fun hh => absurd (c0.symm.trans hh) (by decide))).trans ((if_neg (fun hh => absurd (c0.symm.trans hh) (by decide))).trans ((if_neg (fun hh => absurd (c0.symm.trans hh) (by decide))).trans ((if_neg (fun hh => absurd (c0.symm.trans hh) (by decide))).trans ((if_neg (fun hh => absurd (c0.symm.trans hh) (by decide))).trans ((if_neg (fun hh => absurd (c0.symm.trans hh) (by decide))).trans ((if_neg (fun hh => absurd (c0.symm.trans hh) (by decide))).trans ((if_neg (fun hh => absurd (c0.symm.trans hh) (by decide))).trans ((if_neg (fun hh => absurd (c0.symm.trans hh) (by decide))).trans ((if_neg (fun hh => absurd (c0.symm.trans hh) (by decide))).trans ((if_neg (fun hh => absurd (c0.symm.trans hh) (by decide))).trans ((if_neg (fun hh => absurd (c0.symm.trans hh) (by decide))).trans ((if_neg (fun hh => absurd (c0.symm.trans hh) (by decide))).trans ((if_neg (fun hh => absurd (c0.symm.trans hh) (by decide))).trans ((if_neg (fun hh => absurd (c0.symm.trans hh) (by decide))).trans ((if_neg (fun hh => absurd (c0.symm.trans hh) (by decide))).trans ((if_neg (fun hh => absurd (c0.symm.trans hh) (by decide))).trans ((if_neg (fun hh => absurd (c0.symm.trans hh) (by decide))).trans ((if_neg (fun hh => absurd (c0.symm.trans hh.1) (by decide))).trans ((if_pos ⟨c0, c1, c2⟩))))))))))))))))))))))))))))) ?_
  rw [(fin_of_fld (d := d) (m := fld wd 21 5) (f6)), (fin_of_fld (d := a) (m := fld wd 16 5) (f5)), (bit_of_fld (b := x) (lo := 10) (w := wd) (f3)), (fin_of_fld (d := k) (m := fld wd 6 3) (f1))]

theorem EncodeDecode.vpopc (d : Fin 32) (a : Fin 32) (x : Bool) (k : Fin 8) : EncodeDecode.Statement (.vpopc d a x k) := by
  intro wd hwf hw
  have hw : 2214592540 + d.val * 2097152 + a.val * 65536 + x.toNat * 1024 + k.val * 64 = wd := Option.some.inj hw
  have hw : wd = atop 6 28 (atop 3 k.val (atop 1 0 (atop 1 x.toNat (atop 5 0 (atop 5 a.val (atop 5 d.val (33))))))) := by unfold atop; omega
  obtain ⟨f0, f1, f2, f3, f4, f5, f6, ho⟩ := unpack7 (n1 := 6)  (n2 := 3)  (n3 := 1)  (n4 := 1)  (n5 := 5)  (n6 := 5)  (n7 := 5) (by decide) k.isLt (by decide) x.toNat_lt (by decide) a.isLt d.isLt hw
  have ho : wd / 67108864 = 33 := ho
  refine decode_of_raw (by rw [ho]; rfl) ?_ hwf
  unfold decodeRaw
  rw [ho]
  show decodeOp21 wd = _
  unfold decodeOp21
  have c0 : fld wd 0 6 = 28 := f0
  have c1 : fld wd 9 1 = 0 := f2
  have c2 : fld wd 11 5 = 0 := f4
  refine Eq.trans ((if_neg (fun hh => absurd (c0.symm.trans hh) (by decide))).trans ((if_neg (fun hh => absurd (c0.symm.trans hh) (by decide))).trans ((if_neg (fun hh => absurd (c0.symm.trans hh) (by decide))).trans ((if_neg (fun hh => absurd (c0.symm.trans hh) (by decide))).trans ((if_neg (fun hh => absurd (c0.symm.trans hh) (by decide))).trans ((if_neg (fun hh => absurd (c0.symm.trans hh) (by decide))).trans ((if_neg (fun hh => absurd (c0.symm.trans hh) (by decide))).trans ((if_neg (fun hh => absurd (c0.symm.trans hh) (by decide))).trans ((if_neg (fun hh => absurd (c0.symm.trans hh) (by decide))).trans ((if_neg (fun hh => absurd (c0.symm.trans hh) (by decide))).trans ((if_neg (fun hh => absurd (c0.symm.trans hh) (by decide))).trans ((if_neg (fun hh => absurd (c0.symm.trans hh) (by decide))).trans ((if_neg (fun hh => absurd (c0.symm.trans hh) (by decide))).trans ((if_neg (fun hh => absurd (c0.symm.trans hh) (by decide))).trans ((if_neg (fun hh => absurd (c0.symm.trans hh) (by decide))).trans ((if_neg (fun hh => absurd (c0.symm.trans hh) (by decide))).trans ((if_neg (fun hh => absurd (c0.symm.trans hh) (by decide))).trans ((if_neg (fun hh => absurd (c0.symm.trans hh) (by decide))).trans ((if_neg (fun hh => absurd (c0.symm.trans hh) (by decide))).trans ((if_neg (fun hh => absurd (c0.symm.trans hh) (by decide))).trans ((if_neg (fun hh => absurd (c0.symm.trans hh) (by decide))).trans ((if_neg (fun hh => absurd (c0.symm.trans hh) (by decide))).trans ((if_neg (fun hh => absurd (c0.symm.trans hh) (by decide))).trans ((if_neg (fun hh => absurd (c0.symm.trans hh) (by decide))).trans ((if_neg (fun hh => absurd (c0.symm.trans hh) (by decide))).trans ((if_neg (fun hh => absurd (c0.symm.trans hh) (by decide))).trans ((if_neg (fun hh => absurd (c0.symm.trans hh.1) (by decide))).trans ((if_neg (fun hh => absurd (c0.symm.trans hh.1) (by decide))).trans ((if_pos ⟨c0, c1, c2⟩)))))))))))))))))))))))))))))) ?_
  rw [(fin_of_fld (d := d) (m := fld wd 21 5) (f6)), (fin_of_fld (d := a) (m := fld wd 16 5) (f5)), (bit_of_fld (b := x) (lo := 10) (w := wd) (f3)), (fin_of_fld (d := k) (m := fld wd 6 3) (f1))]

theorem EncodeDecode.vmv (d : Fin 32) (a : Fin 32) (x : Bool) (k : Fin 8) : EncodeDecode.Statement (.vmv d a x k) := by
  intro wd hwf hw
  have hw : 2214592541 + d.val * 2097152 + a.val * 65536 + x.toNat * 1024 + k.val * 64 = wd := Option.some.inj hw
  have hw : wd = atop 6 29 (atop 3 k.val (atop 1 0 (atop 1 x.toNat (atop 5 0 (atop 5 a.val (atop 5 d.val (33))))))) := by unfold atop; omega
  obtain ⟨f0, f1, f2, f3, f4, f5, f6, ho⟩ := unpack7 (n1 := 6)  (n2 := 3)  (n3 := 1)  (n4 := 1)  (n5 := 5)  (n6 := 5)  (n7 := 5) (by decide) k.isLt (by decide) x.toNat_lt (by decide) a.isLt d.isLt hw
  have ho : wd / 67108864 = 33 := ho
  refine decode_of_raw (by rw [ho]; rfl) ?_ hwf
  unfold decodeRaw
  rw [ho]
  show decodeOp21 wd = _
  unfold decodeOp21
  have c0 : fld wd 0 6 = 29 := f0
  have c1 : fld wd 9 1 = 0 := f2
  have c2 : fld wd 11 5 = 0 := f4
  refine Eq.trans ((if_neg (fun hh => absurd (c0.symm.trans hh) (by decide))).trans ((if_neg (fun hh => absurd (c0.symm.trans hh) (by decide))).trans ((if_neg (fun hh => absurd (c0.symm.trans hh) (by decide))).trans ((if_neg (fun hh => absurd (c0.symm.trans hh) (by decide))).trans ((if_neg (fun hh => absurd (c0.symm.trans hh) (by decide))).trans ((if_neg (fun hh => absurd (c0.symm.trans hh) (by decide))).trans ((if_neg (fun hh => absurd (c0.symm.trans hh) (by decide))).trans ((if_neg (fun hh => absurd (c0.symm.trans hh) (by decide))).trans ((if_neg (fun hh => absurd (c0.symm.trans hh) (by decide))).trans ((if_neg (fun hh => absurd (c0.symm.trans hh) (by decide))).trans ((if_neg (fun hh => absurd (c0.symm.trans hh) (by decide))).trans ((if_neg (fun hh => absurd (c0.symm.trans hh) (by decide))).trans ((if_neg (fun hh => absurd (c0.symm.trans hh) (by decide))).trans ((if_neg (fun hh => absurd (c0.symm.trans hh) (by decide))).trans ((if_neg (fun hh => absurd (c0.symm.trans hh) (by decide))).trans ((if_neg (fun hh => absurd (c0.symm.trans hh) (by decide))).trans ((if_neg (fun hh => absurd (c0.symm.trans hh) (by decide))).trans ((if_neg (fun hh => absurd (c0.symm.trans hh) (by decide))).trans ((if_neg (fun hh => absurd (c0.symm.trans hh) (by decide))).trans ((if_neg (fun hh => absurd (c0.symm.trans hh) (by decide))).trans ((if_neg (fun hh => absurd (c0.symm.trans hh) (by decide))).trans ((if_neg (fun hh => absurd (c0.symm.trans hh) (by decide))).trans ((if_neg (fun hh => absurd (c0.symm.trans hh) (by decide))).trans ((if_neg (fun hh => absurd (c0.symm.trans hh) (by decide))).trans ((if_neg (fun hh => absurd (c0.symm.trans hh) (by decide))).trans ((if_neg (fun hh => absurd (c0.symm.trans hh) (by decide))).trans ((if_neg (fun hh => absurd (c0.symm.trans hh.1) (by decide))).trans ((if_neg (fun hh => absurd (c0.symm.trans hh.1) (by decide))).trans ((if_neg (fun hh => absurd (c0.symm.trans hh.1) (by decide))).trans ((if_pos ⟨c0, c1, c2⟩))))))))))))))))))))))))))))))) ?_
  rw [(fin_of_fld (d := d) (m := fld wd 21 5) (f6)), (fin_of_fld (d := a) (m := fld wd 16 5) (f5)), (bit_of_fld (b := x) (lo := 10) (w := wd) (f3)), (fin_of_fld (d := k) (m := fld wd 6 3) (f1))]

theorem EncodeDecode.vaddX (d : Fin 32) (a : Fin 32) (b : Fin 32) (x : Bool) (k : Fin 8) : EncodeDecode.Statement (.vaddX d a b x k) := by
  intro wd hwf hw
  have hw : 2281701376 + d.val * 2097152 + a.val * 65536 + b.val * 2048 + x.toNat * 1024 + k.val * 64 = wd := Option.some.inj hw
  have hw : wd = atop 6 0 (atop 3 k.val (atop 1 0 (atop 1 x.toNat (atop 5 b.val (atop 5 a.val (atop 5 d.val (34))))))) := by unfold atop; omega
  obtain ⟨f0, f1, f2, f3, f4, f5, f6, ho⟩ := unpack7 (n1 := 6)  (n2 := 3)  (n3 := 1)  (n4 := 1)  (n5 := 5)  (n6 := 5)  (n7 := 5) (by decide) k.isLt (by decide) x.toNat_lt b.isLt a.isLt d.isLt hw
  have ho : wd / 67108864 = 34 := ho
  refine decode_of_raw (by rw [ho]; rfl) ?_ hwf
  unfold decodeRaw
  rw [ho]
  show decodeOp22 wd = _
  unfold decodeOp22
  have c0 : fld wd 0 6 = 0 := f0
  have c1 : fld wd 9 1 = 0 := f2
  refine Eq.trans ((if_pos ⟨c0, c1⟩)) ?_
  rw [(fin_of_fld (d := d) (m := fld wd 21 5) (f6)), (fin_of_fld (d := a) (m := fld wd 16 5) (f5)), (fin_of_fld (d := b) (m := fld wd 11 5) (f4)), (bit_of_fld (b := x) (lo := 10) (w := wd) (f3)), (fin_of_fld (d := k) (m := fld wd 6 3) (f1))]

theorem EncodeDecode.vsubX (d : Fin 32) (a : Fin 32) (b : Fin 32) (x : Bool) (k : Fin 8) : EncodeDecode.Statement (.vsubX d a b x k) := by
  intro wd hwf hw
  have hw : 2281701377 + d.val * 2097152 + a.val * 65536 + b.val * 2048 + x.toNat * 1024 + k.val * 64 = wd := Option.some.inj hw
  have hw : wd = atop 6 1 (atop 3 k.val (atop 1 0 (atop 1 x.toNat (atop 5 b.val (atop 5 a.val (atop 5 d.val (34))))))) := by unfold atop; omega
  obtain ⟨f0, f1, f2, f3, f4, f5, f6, ho⟩ := unpack7 (n1 := 6)  (n2 := 3)  (n3 := 1)  (n4 := 1)  (n5 := 5)  (n6 := 5)  (n7 := 5) (by decide) k.isLt (by decide) x.toNat_lt b.isLt a.isLt d.isLt hw
  have ho : wd / 67108864 = 34 := ho
  refine decode_of_raw (by rw [ho]; rfl) ?_ hwf
  unfold decodeRaw
  rw [ho]
  show decodeOp22 wd = _
  unfold decodeOp22
  have c0 : fld wd 0 6 = 1 := f0
  have c1 : fld wd 9 1 = 0 := f2
  refine Eq.trans ((if_neg (fun hh => absurd (c0.symm.trans hh.1) (by decide))).trans ((if_pos ⟨c0, c1⟩))) ?_
  rw [(fin_of_fld (d := d) (m := fld wd 21 5) (f6)), (fin_of_fld (d := a) (m := fld wd 16 5) (f5)), (fin_of_fld (d := b) (m := fld wd 11 5) (f4)), (bit_of_fld (b := x) (lo := 10) (w := wd) (f3)), (fin_of_fld (d := k) (m := fld wd 6 3) (f1))]

theorem EncodeDecode.vandX (d : Fin 32) (a : Fin 32) (b : Fin 32) (x : Bool) (k : Fin 8) : EncodeDecode.Statement (.vandX d a b x k) := by
  intro wd hwf hw
  have hw : 2281701378 + d.val * 2097152 + a.val * 65536 + b.val * 2048 + x.toNat * 1024 + k.val * 64 = wd := Option.some.inj hw
  have hw : wd = atop 6 2 (atop 3 k.val (atop 1 0 (atop 1 x.toNat (atop 5 b.val (atop 5 a.val (atop 5 d.val (34))))))) := by unfold atop; omega
  obtain ⟨f0, f1, f2, f3, f4, f5, f6, ho⟩ := unpack7 (n1 := 6)  (n2 := 3)  (n3 := 1)  (n4 := 1)  (n5 := 5)  (n6 := 5)  (n7 := 5) (by decide) k.isLt (by decide) x.toNat_lt b.isLt a.isLt d.isLt hw
  have ho : wd / 67108864 = 34 := ho
  refine decode_of_raw (by rw [ho]; rfl) ?_ hwf
  unfold decodeRaw
  rw [ho]
  show decodeOp22 wd = _
  unfold decodeOp22
  have c0 : fld wd 0 6 = 2 := f0
  have c1 : fld wd 9 1 = 0 := f2
  refine Eq.trans ((if_neg (fun hh => absurd (c0.symm.trans hh.1) (by decide))).trans ((if_neg (fun hh => absurd (c0.symm.trans hh.1) (by decide))).trans ((if_pos ⟨c0, c1⟩)))) ?_
  rw [(fin_of_fld (d := d) (m := fld wd 21 5) (f6)), (fin_of_fld (d := a) (m := fld wd 16 5) (f5)), (fin_of_fld (d := b) (m := fld wd 11 5) (f4)), (bit_of_fld (b := x) (lo := 10) (w := wd) (f3)), (fin_of_fld (d := k) (m := fld wd 6 3) (f1))]

theorem EncodeDecode.vorX (d : Fin 32) (a : Fin 32) (b : Fin 32) (x : Bool) (k : Fin 8) : EncodeDecode.Statement (.vorX d a b x k) := by
  intro wd hwf hw
  have hw : 2281701379 + d.val * 2097152 + a.val * 65536 + b.val * 2048 + x.toNat * 1024 + k.val * 64 = wd := Option.some.inj hw
  have hw : wd = atop 6 3 (atop 3 k.val (atop 1 0 (atop 1 x.toNat (atop 5 b.val (atop 5 a.val (atop 5 d.val (34))))))) := by unfold atop; omega
  obtain ⟨f0, f1, f2, f3, f4, f5, f6, ho⟩ := unpack7 (n1 := 6)  (n2 := 3)  (n3 := 1)  (n4 := 1)  (n5 := 5)  (n6 := 5)  (n7 := 5) (by decide) k.isLt (by decide) x.toNat_lt b.isLt a.isLt d.isLt hw
  have ho : wd / 67108864 = 34 := ho
  refine decode_of_raw (by rw [ho]; rfl) ?_ hwf
  unfold decodeRaw
  rw [ho]
  show decodeOp22 wd = _
  unfold decodeOp22
  have c0 : fld wd 0 6 = 3 := f0
  have c1 : fld wd 9 1 = 0 := f2
  refine Eq.trans ((if_neg (fun hh => absurd (c0.symm.trans hh.1) (by decide))).trans ((if_neg (fun hh => absurd (c0.symm.trans hh.1) (by decide))).trans ((if_neg (fun hh => absurd (c0.symm.trans hh.1) (by decide))).trans ((if_pos ⟨c0, c1⟩))))) ?_
  rw [(fin_of_fld (d := d) (m := fld wd 21 5) (f6)), (fin_of_fld (d := a) (m := fld wd 16 5) (f5)), (fin_of_fld (d := b) (m := fld wd 11 5) (f4)), (bit_of_fld (b := x) (lo := 10) (w := wd) (f3)), (fin_of_fld (d := k) (m := fld wd 6 3) (f1))]

theorem EncodeDecode.vxorX (d : Fin 32) (a : Fin 32) (b : Fin 32) (x : Bool) (k : Fin 8) : EncodeDecode.Statement (.vxorX d a b x k) := by
  intro wd hwf hw
  have hw : 2281701380 + d.val * 2097152 + a.val * 65536 + b.val * 2048 + x.toNat * 1024 + k.val * 64 = wd := Option.some.inj hw
  have hw : wd = atop 6 4 (atop 3 k.val (atop 1 0 (atop 1 x.toNat (atop 5 b.val (atop 5 a.val (atop 5 d.val (34))))))) := by unfold atop; omega
  obtain ⟨f0, f1, f2, f3, f4, f5, f6, ho⟩ := unpack7 (n1 := 6)  (n2 := 3)  (n3 := 1)  (n4 := 1)  (n5 := 5)  (n6 := 5)  (n7 := 5) (by decide) k.isLt (by decide) x.toNat_lt b.isLt a.isLt d.isLt hw
  have ho : wd / 67108864 = 34 := ho
  refine decode_of_raw (by rw [ho]; rfl) ?_ hwf
  unfold decodeRaw
  rw [ho]
  show decodeOp22 wd = _
  unfold decodeOp22
  have c0 : fld wd 0 6 = 4 := f0
  have c1 : fld wd 9 1 = 0 := f2
  refine Eq.trans ((if_neg (fun hh => absurd (c0.symm.trans hh.1) (by decide))).trans ((if_neg (fun hh => absurd (c0.symm.trans hh.1) (by decide))).trans ((if_neg (fun hh => absurd (c0.symm.trans hh.1) (by decide))).trans ((if_neg (fun hh => absurd (c0.symm.trans hh.1) (by decide))).trans ((if_pos ⟨c0, c1⟩)))))) ?_
  rw [(fin_of_fld (d := d) (m := fld wd 21 5) (f6)), (fin_of_fld (d := a) (m := fld wd 16 5) (f5)), (fin_of_fld (d := b) (m := fld wd 11 5) (f4)), (bit_of_fld (b := x) (lo := 10) (w := wd) (f3)), (fin_of_fld (d := k) (m := fld wd 6 3) (f1))]

theorem EncodeDecode.vandnX (d : Fin 32) (a : Fin 32) (b : Fin 32) (x : Bool) (k : Fin 8) : EncodeDecode.Statement (.vandnX d a b x k) := by
  intro wd hwf hw
  have hw : 2281701381 + d.val * 2097152 + a.val * 65536 + b.val * 2048 + x.toNat * 1024 + k.val * 64 = wd := Option.some.inj hw
  have hw : wd = atop 6 5 (atop 3 k.val (atop 1 0 (atop 1 x.toNat (atop 5 b.val (atop 5 a.val (atop 5 d.val (34))))))) := by unfold atop; omega
  obtain ⟨f0, f1, f2, f3, f4, f5, f6, ho⟩ := unpack7 (n1 := 6)  (n2 := 3)  (n3 := 1)  (n4 := 1)  (n5 := 5)  (n6 := 5)  (n7 := 5) (by decide) k.isLt (by decide) x.toNat_lt b.isLt a.isLt d.isLt hw
  have ho : wd / 67108864 = 34 := ho
  refine decode_of_raw (by rw [ho]; rfl) ?_ hwf
  unfold decodeRaw
  rw [ho]
  show decodeOp22 wd = _
  unfold decodeOp22
  have c0 : fld wd 0 6 = 5 := f0
  have c1 : fld wd 9 1 = 0 := f2
  refine Eq.trans ((if_neg (fun hh => absurd (c0.symm.trans hh.1) (by decide))).trans ((if_neg (fun hh => absurd (c0.symm.trans hh.1) (by decide))).trans ((if_neg (fun hh => absurd (c0.symm.trans hh.1) (by decide))).trans ((if_neg (fun hh => absurd (c0.symm.trans hh.1) (by decide))).trans ((if_neg (fun hh => absurd (c0.symm.trans hh.1) (by decide))).trans ((if_pos ⟨c0, c1⟩))))))) ?_
  rw [(fin_of_fld (d := d) (m := fld wd 21 5) (f6)), (fin_of_fld (d := a) (m := fld wd 16 5) (f5)), (fin_of_fld (d := b) (m := fld wd 11 5) (f4)), (bit_of_fld (b := x) (lo := 10) (w := wd) (f3)), (fin_of_fld (d := k) (m := fld wd 6 3) (f1))]

theorem EncodeDecode.vsllX (d : Fin 32) (a : Fin 32) (b : Fin 32) (x : Bool) (k : Fin 8) : EncodeDecode.Statement (.vsllX d a b x k) := by
  intro wd hwf hw
  have hw : 2281701382 + d.val * 2097152 + a.val * 65536 + b.val * 2048 + x.toNat * 1024 + k.val * 64 = wd := Option.some.inj hw
  have hw : wd = atop 6 6 (atop 3 k.val (atop 1 0 (atop 1 x.toNat (atop 5 b.val (atop 5 a.val (atop 5 d.val (34))))))) := by unfold atop; omega
  obtain ⟨f0, f1, f2, f3, f4, f5, f6, ho⟩ := unpack7 (n1 := 6)  (n2 := 3)  (n3 := 1)  (n4 := 1)  (n5 := 5)  (n6 := 5)  (n7 := 5) (by decide) k.isLt (by decide) x.toNat_lt b.isLt a.isLt d.isLt hw
  have ho : wd / 67108864 = 34 := ho
  refine decode_of_raw (by rw [ho]; rfl) ?_ hwf
  unfold decodeRaw
  rw [ho]
  show decodeOp22 wd = _
  unfold decodeOp22
  have c0 : fld wd 0 6 = 6 := f0
  have c1 : fld wd 9 1 = 0 := f2
  refine Eq.trans ((if_neg (fun hh => absurd (c0.symm.trans hh.1) (by decide))).trans ((if_neg (fun hh => absurd (c0.symm.trans hh.1) (by decide))).trans ((if_neg (fun hh => absurd (c0.symm.trans hh.1) (by decide))).trans ((if_neg (fun hh => absurd (c0.symm.trans hh.1) (by decide))).trans ((if_neg (fun hh => absurd (c0.symm.trans hh.1) (by decide))).trans ((if_neg (fun hh => absurd (c0.symm.trans hh.1) (by decide))).trans ((if_pos ⟨c0, c1⟩)))))))) ?_
  rw [(fin_of_fld (d := d) (m := fld wd 21 5) (f6)), (fin_of_fld (d := a) (m := fld wd 16 5) (f5)), (fin_of_fld (d := b) (m := fld wd 11 5) (f4)), (bit_of_fld (b := x) (lo := 10) (w := wd) (f3)), (fin_of_fld (d := k) (m := fld wd 6 3) (f1))]

theorem EncodeDecode.vsrlX (d : Fin 32) (a : Fin 32) (b : Fin 32) (x : Bool) (k : Fin 8) : EncodeDecode.Statement (.vsrlX d a b x k) := by
  intro wd hwf hw
  have hw : 2281701383 + d.val * 2097152 + a.val * 65536 + b.val * 2048 + x.toNat * 1024 + k.val * 64 = wd := Option.some.inj hw
  have hw : wd = atop 6 7 (atop 3 k.val (atop 1 0 (atop 1 x.toNat (atop 5 b.val (atop 5 a.val (atop 5 d.val (34))))))) := by unfold atop; omega
  obtain ⟨f0, f1, f2, f3, f4, f5, f6, ho⟩ := unpack7 (n1 := 6)  (n2 := 3)  (n3 := 1)  (n4 := 1)  (n5 := 5)  (n6 := 5)  (n7 := 5) (by decide) k.isLt (by decide) x.toNat_lt b.isLt a.isLt d.isLt hw
  have ho : wd / 67108864 = 34 := ho
  refine decode_of_raw (by rw [ho]; rfl) ?_ hwf
  unfold decodeRaw
  rw [ho]
  show decodeOp22 wd = _
  unfold decodeOp22
  have c0 : fld wd 0 6 = 7 := f0
  have c1 : fld wd 9 1 = 0 := f2
  refine Eq.trans ((if_neg (fun hh => absurd (c0.symm.trans hh.1) (by decide))).trans ((if_neg (fun hh => absurd (c0.symm.trans hh.1) (by decide))).trans ((if_neg (fun hh => absurd (c0.symm.trans hh.1) (by decide))).trans ((if_neg (fun hh => absurd (c0.symm.trans hh.1) (by decide))).trans ((if_neg (fun hh => absurd (c0.symm.trans hh.1) (by decide))).trans ((if_neg (fun hh => absurd (c0.symm.trans hh.1) (by decide))).trans ((if_neg (fun hh => absurd (c0.symm.trans hh.1) (by decide))).trans ((if_pos ⟨c0, c1⟩))))))))) ?_
  rw [(fin_of_fld (d := d) (m := fld wd 21 5) (f6)), (fin_of_fld (d := a) (m := fld wd 16 5) (f5)), (fin_of_fld (d := b) (m := fld wd 11 5) (f4)), (bit_of_fld (b := x) (lo := 10) (w := wd) (f3)), (fin_of_fld (d := k) (m := fld wd 6 3) (f1))]

theorem EncodeDecode.vsraX (d : Fin 32) (a : Fin 32) (b : Fin 32) (x : Bool) (k : Fin 8) : EncodeDecode.Statement (.vsraX d a b x k) := by
  intro wd hwf hw
  have hw : 2281701384 + d.val * 2097152 + a.val * 65536 + b.val * 2048 + x.toNat * 1024 + k.val * 64 = wd := Option.some.inj hw
  have hw : wd = atop 6 8 (atop 3 k.val (atop 1 0 (atop 1 x.toNat (atop 5 b.val (atop 5 a.val (atop 5 d.val (34))))))) := by unfold atop; omega
  obtain ⟨f0, f1, f2, f3, f4, f5, f6, ho⟩ := unpack7 (n1 := 6)  (n2 := 3)  (n3 := 1)  (n4 := 1)  (n5 := 5)  (n6 := 5)  (n7 := 5) (by decide) k.isLt (by decide) x.toNat_lt b.isLt a.isLt d.isLt hw
  have ho : wd / 67108864 = 34 := ho
  refine decode_of_raw (by rw [ho]; rfl) ?_ hwf
  unfold decodeRaw
  rw [ho]
  show decodeOp22 wd = _
  unfold decodeOp22
  have c0 : fld wd 0 6 = 8 := f0
  have c1 : fld wd 9 1 = 0 := f2
  refine Eq.trans ((if_neg (fun hh => absurd (c0.symm.trans hh.1) (by decide))).trans ((if_neg (fun hh => absurd (c0.symm.trans hh.1) (by decide))).trans ((if_neg (fun hh => absurd (c0.symm.trans hh.1) (by decide))).trans ((if_neg (fun hh => absurd (c0.symm.trans hh.1) (by decide))).trans ((if_neg (fun hh => absurd (c0.symm.trans hh.1) (by decide))).trans ((if_neg (fun hh => absurd (c0.symm.trans hh.1) (by decide))).trans ((if_neg (fun hh => absurd (c0.symm.trans hh.1) (by decide))).trans ((if_neg (fun hh => absurd (c0.symm.trans hh.1) (by decide))).trans ((if_pos ⟨c0, c1⟩)))))))))) ?_
  rw [(fin_of_fld (d := d) (m := fld wd 21 5) (f6)), (fin_of_fld (d := a) (m := fld wd 16 5) (f5)), (fin_of_fld (d := b) (m := fld wd 11 5) (f4)), (bit_of_fld (b := x) (lo := 10) (w := wd) (f3)), (fin_of_fld (d := k) (m := fld wd 6 3) (f1))]

theorem EncodeDecode.vminX (d : Fin 32) (a : Fin 32) (b : Fin 32) (x : Bool) (k : Fin 8) : EncodeDecode.Statement (.vminX d a b x k) := by
  intro wd hwf hw
  have hw : 2281701385 + d.val * 2097152 + a.val * 65536 + b.val * 2048 + x.toNat * 1024 + k.val * 64 = wd := Option.some.inj hw
  have hw : wd = atop 6 9 (atop 3 k.val (atop 1 0 (atop 1 x.toNat (atop 5 b.val (atop 5 a.val (atop 5 d.val (34))))))) := by unfold atop; omega
  obtain ⟨f0, f1, f2, f3, f4, f5, f6, ho⟩ := unpack7 (n1 := 6)  (n2 := 3)  (n3 := 1)  (n4 := 1)  (n5 := 5)  (n6 := 5)  (n7 := 5) (by decide) k.isLt (by decide) x.toNat_lt b.isLt a.isLt d.isLt hw
  have ho : wd / 67108864 = 34 := ho
  refine decode_of_raw (by rw [ho]; rfl) ?_ hwf
  unfold decodeRaw
  rw [ho]
  show decodeOp22 wd = _
  unfold decodeOp22
  have c0 : fld wd 0 6 = 9 := f0
  have c1 : fld wd 9 1 = 0 := f2
  refine Eq.trans ((if_neg (fun hh => absurd (c0.symm.trans hh.1) (by decide))).trans ((if_neg (fun hh => absurd (c0.symm.trans hh.1) (by decide))).trans ((if_neg (fun hh => absurd (c0.symm.trans hh.1) (by decide))).trans ((if_neg (fun hh => absurd (c0.symm.trans hh.1) (by decide))).trans ((if_neg (fun hh => absurd (c0.symm.trans hh.1) (by decide))).trans ((if_neg (fun hh => absurd (c0.symm.trans hh.1) (by decide))).trans ((if_neg (fun hh => absurd (c0.symm.trans hh.1) (by decide))).trans ((if_neg (fun hh => absurd (c0.symm.trans hh.1) (by decide))).trans ((if_neg (fun hh => absurd (c0.symm.trans hh.1) (by decide))).trans ((if_pos ⟨c0, c1⟩))))))))))) ?_
  rw [(fin_of_fld (d := d) (m := fld wd 21 5) (f6)), (fin_of_fld (d := a) (m := fld wd 16 5) (f5)), (fin_of_fld (d := b) (m := fld wd 11 5) (f4)), (bit_of_fld (b := x) (lo := 10) (w := wd) (f3)), (fin_of_fld (d := k) (m := fld wd 6 3) (f1))]

theorem EncodeDecode.vmaxX (d : Fin 32) (a : Fin 32) (b : Fin 32) (x : Bool) (k : Fin 8) : EncodeDecode.Statement (.vmaxX d a b x k) := by
  intro wd hwf hw
  have hw : 2281701386 + d.val * 2097152 + a.val * 65536 + b.val * 2048 + x.toNat * 1024 + k.val * 64 = wd := Option.some.inj hw
  have hw : wd = atop 6 10 (atop 3 k.val (atop 1 0 (atop 1 x.toNat (atop 5 b.val (atop 5 a.val (atop 5 d.val (34))))))) := by unfold atop; omega
  obtain ⟨f0, f1, f2, f3, f4, f5, f6, ho⟩ := unpack7 (n1 := 6)  (n2 := 3)  (n3 := 1)  (n4 := 1)  (n5 := 5)  (n6 := 5)  (n7 := 5) (by decide) k.isLt (by decide) x.toNat_lt b.isLt a.isLt d.isLt hw
  have ho : wd / 67108864 = 34 := ho
  refine decode_of_raw (by rw [ho]; rfl) ?_ hwf
  unfold decodeRaw
  rw [ho]
  show decodeOp22 wd = _
  unfold decodeOp22
  have c0 : fld wd 0 6 = 10 := f0
  have c1 : fld wd 9 1 = 0 := f2
  refine Eq.trans ((if_neg (fun hh => absurd (c0.symm.trans hh.1) (by decide))).trans ((if_neg (fun hh => absurd (c0.symm.trans hh.1) (by decide))).trans ((if_neg (fun hh => absurd (c0.symm.trans hh.1) (by decide))).trans ((if_neg (fun hh => absurd (c0.symm.trans hh.1) (by decide))).trans ((if_neg (fun hh => absurd (c0.symm.trans hh.1) (by decide))).trans ((if_neg (fun hh => absurd (c0.symm.trans hh.1) (by decide))).trans ((if_neg (fun hh => absurd (c0.symm.trans hh.1) (by decide))).trans ((if_neg (fun hh => absurd (c0.symm.trans hh.1) (by decide))).trans ((if_neg (fun hh => absurd (c0.symm.trans hh.1) (by decide))).trans ((if_neg (fun hh => absurd (c0.symm.trans hh.1) (by decide))).trans ((if_pos ⟨c0, c1⟩)))))))))))) ?_
  rw [(fin_of_fld (d := d) (m := fld wd 21 5) (f6)), (fin_of_fld (d := a) (m := fld wd 16 5) (f5)), (fin_of_fld (d := b) (m := fld wd 11 5) (f4)), (bit_of_fld (b := x) (lo := 10) (w := wd) (f3)), (fin_of_fld (d := k) (m := fld wd 6 3) (f1))]

theorem EncodeDecode.vminuX (d : Fin 32) (a : Fin 32) (b : Fin 32) (x : Bool) (k : Fin 8) : EncodeDecode.Statement (.vminuX d a b x k) := by
  intro wd hwf hw
  have hw : 2281701387 + d.val * 2097152 + a.val * 65536 + b.val * 2048 + x.toNat * 1024 + k.val * 64 = wd := Option.some.inj hw
  have hw : wd = atop 6 11 (atop 3 k.val (atop 1 0 (atop 1 x.toNat (atop 5 b.val (atop 5 a.val (atop 5 d.val (34))))))) := by unfold atop; omega
  obtain ⟨f0, f1, f2, f3, f4, f5, f6, ho⟩ := unpack7 (n1 := 6)  (n2 := 3)  (n3 := 1)  (n4 := 1)  (n5 := 5)  (n6 := 5)  (n7 := 5) (by decide) k.isLt (by decide) x.toNat_lt b.isLt a.isLt d.isLt hw
  have ho : wd / 67108864 = 34 := ho
  refine decode_of_raw (by rw [ho]; rfl) ?_ hwf
  unfold decodeRaw
  rw [ho]
  show decodeOp22 wd = _
  unfold decodeOp22
  have c0 : fld wd 0 6 = 11 := f0
  have c1 : fld wd 9 1 = 0 := f2
  refine Eq.trans ((if_neg (fun hh => absurd (c0.symm.trans hh.1) (by decide))).trans ((if_neg (fun hh => absurd (c0.symm.trans hh.1) (by decide))).trans ((if_neg (fun hh => absurd (c0.symm.trans hh.1) (by decide))).trans ((if_neg (fun hh => absurd (c0.symm.trans hh.1) (by decide))).trans ((if_neg (fun hh => absurd (c0.symm.trans hh.1) (by decide))).trans ((if_neg (fun hh => absurd (c0.symm.trans hh.1) (by decide))).trans ((if_neg (fun hh => absurd (c0.symm.trans hh.1) (by decide))).trans ((if_neg (fun hh => absurd (c0.symm.trans hh.1) (by decide))).trans ((if_neg (fun hh => absurd (c0.symm.trans hh.1) (by decide))).trans ((if_neg (fun hh => absurd (c0.symm.trans hh.1) (by decide))).trans ((if_neg (fun hh => absurd (c0.symm.trans hh.1) (by decide))).trans ((if_pos ⟨c0, c1⟩))))))))))))) ?_
  rw [(fin_of_fld (d := d) (m := fld wd 21 5) (f6)), (fin_of_fld (d := a) (m := fld wd 16 5) (f5)), (fin_of_fld (d := b) (m := fld wd 11 5) (f4)), (bit_of_fld (b := x) (lo := 10) (w := wd) (f3)), (fin_of_fld (d := k) (m := fld wd 6 3) (f1))]

theorem EncodeDecode.vmaxuX (d : Fin 32) (a : Fin 32) (b : Fin 32) (x : Bool) (k : Fin 8) : EncodeDecode.Statement (.vmaxuX d a b x k) := by
  intro wd hwf hw
  have hw : 2281701388 + d.val * 2097152 + a.val * 65536 + b.val * 2048 + x.toNat * 1024 + k.val * 64 = wd := Option.some.inj hw
  have hw : wd = atop 6 12 (atop 3 k.val (atop 1 0 (atop 1 x.toNat (atop 5 b.val (atop 5 a.val (atop 5 d.val (34))))))) := by unfold atop; omega
  obtain ⟨f0, f1, f2, f3, f4, f5, f6, ho⟩ := unpack7 (n1 := 6)  (n2 := 3)  (n3 := 1)  (n4 := 1)  (n5 := 5)  (n6 := 5)  (n7 := 5) (by decide) k.isLt (by decide) x.toNat_lt b.isLt a.isLt d.isLt hw
  have ho : wd / 67108864 = 34 := ho
  refine decode_of_raw (by rw [ho]; rfl) ?_ hwf
  unfold decodeRaw
  rw [ho]
  show decodeOp22 wd = _
  unfold decodeOp22
  have c0 : fld wd 0 6 = 12 := f0
  have c1 : fld wd 9 1 = 0 := f2
  refine Eq.trans ((if_neg (fun hh => absurd (c0.symm.trans hh.1) (by decide))).trans ((if_neg (fun hh => absurd (c0.symm.trans hh.1) (by decide))).trans ((if_neg (fun hh => absurd (c0.symm.trans hh.1) (by decide))).trans ((if_neg (fun hh => absurd (c0.symm.trans hh.1) (by decide))).trans ((if_neg (fun hh => absurd (c0.symm.trans hh.1) (by decide))).trans ((if_neg (fun hh => absurd (c0.symm.trans hh.1) (by decide))).trans ((if_neg (fun hh => absurd (c0.symm.trans hh.1) (by decide))).trans ((if_neg (fun hh => absurd (c0.symm.trans hh.1) (by decide))).trans ((if_neg (fun hh => absurd (c0.symm.trans hh.1) (by decide))).trans ((if_neg (fun hh => absurd (c0.symm.trans hh.1) (by decide))).trans ((if_neg (fun hh => absurd (c0.symm.trans hh.1) (by decide))).trans ((if_neg (fun hh => absurd (c0.symm.trans hh.1) (by decide))).trans ((if_pos ⟨c0, c1⟩)))))))))))))) ?_
  rw [(fin_of_fld (d := d) (m := fld wd 21 5) (f6)), (fin_of_fld (d := a) (m := fld wd 16 5) (f5)), (fin_of_fld (d := b) (m := fld wd 11 5) (f4)), (bit_of_fld (b := x) (lo := 10) (w := wd) (f3)), (fin_of_fld (d := k) (m := fld wd 6 3) (f1))]

theorem EncodeDecode.vmulX (d : Fin 32) (a : Fin 32) (b : Fin 32) (x : Bool) (k : Fin 8) : EncodeDecode.Statement (.vmulX d a b x k) := by
  intro wd hwf hw
  have hw : 2281701389 + d.val * 2097152 + a.val * 65536 + b.val * 2048 + x.toNat * 1024 + k.val * 64 = wd := Option.some.inj hw
  have hw : wd = atop 6 13 (atop 3 k.val (atop 1 0 (atop 1 x.toNat (atop 5 b.val (atop 5 a.val (atop 5 d.val (34))))))) := by unfold atop; omega
  obtain ⟨f0, f1, f2, f3, f4, f5, f6, ho⟩ := unpack7 (n1 := 6)  (n2 := 3)  (n3 := 1)  (n4 := 1)  (n5 := 5)  (n6 := 5)  (n7 := 5) (by decide) k.isLt (by decide) x.toNat_lt b.isLt a.isLt d.isLt hw
  have ho : wd / 67108864 = 34 := ho
  refine decode_of_raw (by rw [ho]; rfl) ?_ hwf
  unfold decodeRaw
  rw [ho]
  show decodeOp22 wd = _
  unfold decodeOp22
  have c0 : fld wd 0 6 = 13 := f0
  have c1 : fld wd 9 1 = 0 := f2
  refine Eq.trans ((if_neg (fun hh => absurd (c0.symm.trans hh.1) (by decide))).trans ((if_neg (fun hh => absurd (c0.symm.trans hh.1) (by decide))).trans ((if_neg (fun hh => absurd (c0.symm.trans hh.1) (by decide))).trans ((if_neg (fun hh => absurd (c0.symm.trans hh.1) (by decide))).trans ((if_neg (fun hh => absurd (c0.symm.trans hh.1) (by decide))).trans ((if_neg (fun hh => absurd (c0.symm.trans hh.1) (by decide))).trans ((if_neg (fun hh => absurd (c0.symm.trans hh.1) (by decide))).trans ((if_neg (fun hh => absurd (c0.symm.trans hh.1) (by decide))).trans ((if_neg (fun hh => absurd (c0.symm.trans hh.1) (by decide))).trans ((if_neg (fun hh => absurd (c0.symm.trans hh.1) (by decide))).trans ((if_neg (fun hh => absurd (c0.symm.trans hh.1) (by decide))).trans ((if_neg (fun hh => absurd (c0.symm.trans hh.1) (by decide))).trans ((if_neg (fun hh => absurd (c0.symm.trans hh.1) (by decide))).trans ((if_pos ⟨c0, c1⟩))))))))))))))) ?_
  rw [(fin_of_fld (d := d) (m := fld wd 21 5) (f6)), (fin_of_fld (d := a) (m := fld wd 16 5) (f5)), (fin_of_fld (d := b) (m := fld wd 11 5) (f4)), (bit_of_fld (b := x) (lo := 10) (w := wd) (f3)), (fin_of_fld (d := k) (m := fld wd 6 3) (f1))]

theorem EncodeDecode.vmulhX (d : Fin 32) (a : Fin 32) (b : Fin 32) (x : Bool) (k : Fin 8) : EncodeDecode.Statement (.vmulhX d a b x k) := by
  intro wd hwf hw
  have hw : 2281701390 + d.val * 2097152 + a.val * 65536 + b.val * 2048 + x.toNat * 1024 + k.val * 64 = wd := Option.some.inj hw
  have hw : wd = atop 6 14 (atop 3 k.val (atop 1 0 (atop 1 x.toNat (atop 5 b.val (atop 5 a.val (atop 5 d.val (34))))))) := by unfold atop; omega
  obtain ⟨f0, f1, f2, f3, f4, f5, f6, ho⟩ := unpack7 (n1 := 6)  (n2 := 3)  (n3 := 1)  (n4 := 1)  (n5 := 5)  (n6 := 5)  (n7 := 5) (by decide) k.isLt (by decide) x.toNat_lt b.isLt a.isLt d.isLt hw
  have ho : wd / 67108864 = 34 := ho
  refine decode_of_raw (by rw [ho]; rfl) ?_ hwf
  unfold decodeRaw
  rw [ho]
  show decodeOp22 wd = _
  unfold decodeOp22
  have c0 : fld wd 0 6 = 14 := f0
  have c1 : fld wd 9 1 = 0 := f2
  refine Eq.trans ((if_neg (fun hh => absurd (c0.symm.trans hh.1) (by decide))).trans ((if_neg (fun hh => absurd (c0.symm.trans hh.1) (by decide))).trans ((if_neg (fun hh => absurd (c0.symm.trans hh.1) (by decide))).trans ((if_neg (fun hh => absurd (c0.symm.trans hh.1) (by decide))).trans ((if_neg (fun hh => absurd (c0.symm.trans hh.1) (by decide))).trans ((if_neg (fun hh => absurd (c0.symm.trans hh.1) (by decide))).trans ((if_neg (fun hh => absurd (c0.symm.trans hh.1) (by decide))).trans ((if_neg (fun hh => absurd (c0.symm.trans hh.1) (by decide))).trans ((if_neg (fun hh => absurd (c0.symm.trans hh.1) (by decide))).trans ((if_neg (fun hh => absurd (c0.symm.trans hh.1) (by decide))).trans ((if_neg (fun hh => absurd (c0.symm.trans hh.1) (by decide))).trans ((if_neg (fun hh => absurd (c0.symm.trans hh.1) (by decide))).trans ((if_neg (fun hh => absurd (c0.symm.trans hh.1) (by decide))).trans ((if_neg (fun hh => absurd (c0.symm.trans hh.1) (by decide))).trans ((if_pos ⟨c0, c1⟩)))))))))))))))) ?_
  rw [(fin_of_fld (d := d) (m := fld wd 21 5) (f6)), (fin_of_fld (d := a) (m := fld wd 16 5) (f5)), (fin_of_fld (d := b) (m := fld wd 11 5) (f4)), (bit_of_fld (b := x) (lo := 10) (w := wd) (f3)), (fin_of_fld (d := k) (m := fld wd 6 3) (f1))]

theorem EncodeDecode.vmulhuX (d : Fin 32) (a : Fin 32) (b : Fin 32) (x : Bool) (k : Fin 8) : EncodeDecode.Statement (.vmulhuX d a b x k) := by
  intro wd hwf hw
  have hw : 2281701391 + d.val * 2097152 + a.val * 65536 + b.val * 2048 + x.toNat * 1024 + k.val * 64 = wd := Option.some.inj hw
  have hw : wd = atop 6 15 (atop 3 k.val (atop 1 0 (atop 1 x.toNat (atop 5 b.val (atop 5 a.val (atop 5 d.val (34))))))) := by unfold atop; omega
  obtain ⟨f0, f1, f2, f3, f4, f5, f6, ho⟩ := unpack7 (n1 := 6)  (n2 := 3)  (n3 := 1)  (n4 := 1)  (n5 := 5)  (n6 := 5)  (n7 := 5) (by decide) k.isLt (by decide) x.toNat_lt b.isLt a.isLt d.isLt hw
  have ho : wd / 67108864 = 34 := ho
  refine decode_of_raw (by rw [ho]; rfl) ?_ hwf
  unfold decodeRaw
  rw [ho]
  show decodeOp22 wd = _
  unfold decodeOp22
  have c0 : fld wd 0 6 = 15 := f0
  have c1 : fld wd 9 1 = 0 := f2
  refine Eq.trans ((if_neg (fun hh => absurd (c0.symm.trans hh.1) (by decide))).trans ((if_neg (fun hh => absurd (c0.symm.trans hh.1) (by decide))).trans ((if_neg (fun hh => absurd (c0.symm.trans hh.1) (by decide))).trans ((if_neg (fun hh => absurd (c0.symm.trans hh.1) (by decide))).trans ((if_neg (fun hh => absurd (c0.symm.trans hh.1) (by decide))).trans ((if_neg (fun hh => absurd (c0.symm.trans hh.1) (by decide))).trans ((if_neg (fun hh => absurd (c0.symm.trans hh.1) (by decide))).trans ((if_neg (fun hh => absurd (c0.symm.trans hh.1) (by decide))).trans ((if_neg (fun hh => absurd (c0.symm.trans hh.1) (by decide))).trans ((if_neg (fun hh => absurd (c0.symm.trans hh.1) (by decide))).trans ((if_neg (fun hh => absurd (c0.symm.trans hh.1) (by decide))).trans ((if_neg (fun hh => absurd (c0.symm.trans hh.1) (by decide))).trans ((if_neg (fun hh => absurd (c0.symm.trans hh.1) (by decide))).trans ((if_neg (fun hh => absurd (c0.symm.trans hh.1) (by decide))).trans ((if_neg (fun hh => absurd (c0.symm.trans hh.1) (by decide))).trans ((if_pos ⟨c0, c1⟩))))))))))))))))) ?_
  rw [(fin_of_fld (d := d) (m := fld wd 21 5) (f6)), (fin_of_fld (d := a) (m := fld wd 16 5) (f5)), (fin_of_fld (d := b) (m := fld wd 11 5) (f4)), (bit_of_fld (b := x) (lo := 10) (w := wd) (f3)), (fin_of_fld (d := k) (m := fld wd 6 3) (f1))]

theorem EncodeDecode.vdivX (d : Fin 32) (a : Fin 32) (b : Fin 32) (x : Bool) (k : Fin 8) : EncodeDecode.Statement (.vdivX d a b x k) := by
  intro wd hwf hw
  have hw : 2281701392 + d.val * 2097152 + a.val * 65536 + b.val * 2048 + x.toNat * 1024 + k.val * 64 = wd := Option.some.inj hw
  have hw : wd = atop 6 16 (atop 3 k.val (atop 1 0 (atop 1 x.toNat (atop 5 b.val (atop 5 a.val (atop 5 d.val (34))))))) := by unfold atop; omega
  obtain ⟨f0, f1, f2, f3, f4, f5, f6, ho⟩ := unpack7 (n1 := 6)  (n2 := 3)  (n3 := 1)  (n4 := 1)  (n5 := 5)  (n6 := 5)  (n7 := 5) (by decide) k.isLt (by decide) x.toNat_lt b.isLt a.isLt d.isLt hw
  have ho : wd / 67108864 = 34 := ho
  refine decode_of_raw (by rw [ho]; rfl) ?_ hwf
  unfold decodeRaw
  rw [ho]
  show decodeOp22 wd = _
  unfold decodeOp22
  have c0 : fld wd 0 6 = 16 := f0
  have c1 : fld wd 9 1 = 0 := f2
  refine Eq.trans ((if_neg (fun hh => absurd (c0.symm.trans hh.1) (by decide))).trans ((if_neg (fun hh => absurd (c0.symm.trans hh.1) (by decide))).trans ((if_neg (fun hh => absurd (c0.symm.trans hh.1) (by decide))).trans ((if_neg (fun hh => absurd (c0.symm.trans hh.1) (by decide))).trans ((if_neg (fun hh => absurd (c0.symm.trans hh.1) (by decide))).trans ((if_neg (fun hh => absurd (c0.symm.trans hh.1) (by decide))).trans ((if_neg (fun hh => absurd (c0.symm.trans hh.1) (by decide))).trans ((if_neg (fun hh => absurd (c0.symm.trans hh.1) (by decide))).trans ((if_neg (fun hh => absurd (c0.symm.trans hh.1) (by decide))).trans ((if_neg (fun hh => absurd (c0.symm.trans hh.1) (by decide))).trans ((if_neg (fun hh => absurd (c0.symm.trans hh.1) (by decide))).trans ((if_neg (fun hh => absurd (c0.symm.trans hh.1) (by decide))).trans ((if_neg (fun hh => absurd (c0.symm.trans hh.1) (by decide))).trans ((if_neg (fun hh => absurd (c0.symm.trans hh.1) (by decide))).trans ((if_neg (fun hh => absurd (c0.symm.trans hh.1) (by decide))).trans ((if_neg (fun hh => absurd (c0.symm.trans hh.1) (by decide))).trans ((if_pos ⟨c0, c1⟩)))))))))))))))))) ?_
  rw [(fin_of_fld (d := d) (m := fld wd 21 5) (f6)), (fin_of_fld (d := a) (m := fld wd 16 5) (f5)), (fin_of_fld (d := b) (m := fld wd 11 5) (f4)), (bit_of_fld (b := x) (lo := 10) (w := wd) (f3)), (fin_of_fld (d := k) (m := fld wd 6 3) (f1))]

theorem EncodeDecode.vdivuX (d : Fin 32) (a : Fin 32) (b : Fin 32) (x : Bool) (k : Fin 8) : EncodeDecode.Statement (.vdivuX d a b x k) := by
  intro wd hwf hw
  have hw : 2281701393 + d.val * 2097152 + a.val * 65536 + b.val * 2048 + x.toNat * 1024 + k.val * 64 = wd := Option.some.inj hw
  have hw : wd = atop 6 17 (atop 3 k.val (atop 1 0 (atop 1 x.toNat (atop 5 b.val (atop 5 a.val (atop 5 d.val (34))))))) := by unfold atop; omega
  obtain ⟨f0, f1, f2, f3, f4, f5, f6, ho⟩ := unpack7 (n1 := 6)  (n2 := 3)  (n3 := 1)  (n4 := 1)  (n5 := 5)  (n6 := 5)  (n7 := 5) (by decide) k.isLt (by decide) x.toNat_lt b.isLt a.isLt d.isLt hw
  have ho : wd / 67108864 = 34 := ho
  refine decode_of_raw (by rw [ho]; rfl) ?_ hwf
  unfold decodeRaw
  rw [ho]
  show decodeOp22 wd = _
  unfold decodeOp22
  have c0 : fld wd 0 6 = 17 := f0
  have c1 : fld wd 9 1 = 0 := f2
  refine Eq.trans ((if_neg (fun hh => absurd (c0.symm.trans hh.1) (by decide))).trans ((if_neg (fun hh => absurd (c0.symm.trans hh.1) (by decide))).trans ((if_neg (fun hh => absurd (c0.symm.trans hh.1) (by decide))).trans ((if_neg (fun hh => absurd (c0.symm.trans hh.1) (by decide))).trans ((if_neg (fun hh => absurd (c0.symm.trans hh.1) (by decide))).trans ((if_neg (fun hh => absurd (c0.symm.trans hh.1) (by decide))).trans ((if_neg (fun hh => absurd (c0.symm.trans hh.1) (by decide))).trans ((if_neg (fun hh => absurd (c0.symm.trans hh.1) (by decide))).trans ((if_neg (fun hh => absurd (c0.symm.trans hh.1) (by decide))).trans ((if_neg (fun hh => absurd (c0.symm.trans hh.1) (by decide))).trans ((if_neg (fun hh => absurd (c0.symm.trans hh.1) (by decide))).trans ((if_neg (fun hh => absurd (c0.symm.trans hh.1) (by decide))).trans ((if_neg (fun hh => absurd (c0.symm.trans hh.1) (by decide))).trans ((if_neg (fun hh => absurd (c0.symm.trans hh.1) (by decide))).trans ((if_neg (fun hh => absurd (c0.symm.trans hh.1) (by decide))).trans ((if_neg (fun hh => absurd (c0.symm.trans hh.1) (by decide))).trans ((if_neg (fun hh => absurd (c0.symm.trans hh.1) (by decide))).trans ((if_pos ⟨c0, c1⟩))))))))))))))))))) ?_
  rw [(fin_of_fld (d := d) (m := fld wd 21 5) (f6)), (fin_of_fld (d := a) (m := fld wd 16 5) (f5)), (fin_of_fld (d := b) (m := fld wd 11 5) (f4)), (bit_of_fld (b := x) (lo := 10) (w := wd) (f3)), (fin_of_fld (d := k) (m := fld wd 6 3) (f1))]

theorem EncodeDecode.vremX (d : Fin 32) (a : Fin 32) (b : Fin 32) (x : Bool) (k : Fin 8) : EncodeDecode.Statement (.vremX d a b x k) := by
  intro wd hwf hw
  have hw : 2281701394 + d.val * 2097152 + a.val * 65536 + b.val * 2048 + x.toNat * 1024 + k.val * 64 = wd := Option.some.inj hw
  have hw : wd = atop 6 18 (atop 3 k.val (atop 1 0 (atop 1 x.toNat (atop 5 b.val (atop 5 a.val (atop 5 d.val (34))))))) := by unfold atop; omega
  obtain ⟨f0, f1, f2, f3, f4, f5, f6, ho⟩ := unpack7 (n1 := 6)  (n2 := 3)  (n3 := 1)  (n4 := 1)  (n5 := 5)  (n6 := 5)  (n7 := 5) (by decide) k.isLt (by decide) x.toNat_lt b.isLt a.isLt d.isLt hw
  have ho : wd / 67108864 = 34 := ho
  refine decode_of_raw (by rw [ho]; rfl) ?_ hwf
  unfold decodeRaw
  rw [ho]
  show decodeOp22 wd = _
  unfold decodeOp22
  have c0 : fld wd 0 6 = 18 := f0
  have c1 : fld wd 9 1 = 0 := f2
  refine Eq.trans ((if_neg (fun hh => absurd (c0.symm.trans hh.1) (by decide))).trans ((if_neg (fun hh => absurd (c0.symm.trans hh.1) (by decide))).trans ((if_neg (fun hh => absurd (c0.symm.trans hh.1) (by decide))).trans ((if_neg (fun hh => absurd (c0.symm.trans hh.1) (by decide))).trans ((if_neg (fun hh => absurd (c0.symm.trans hh.1) (by decide))).trans ((if_neg (fun hh => absurd (c0.symm.trans hh.1) (by decide))).trans ((if_neg (fun hh => absurd (c0.symm.trans hh.1) (by decide))).trans ((if_neg (fun hh => absurd (c0.symm.trans hh.1) (by decide))).trans ((if_neg (fun hh => absurd (c0.symm.trans hh.1) (by decide))).trans ((if_neg (fun hh => absurd (c0.symm.trans hh.1) (by decide))).trans ((if_neg (fun hh => absurd (c0.symm.trans hh.1) (by decide))).trans ((if_neg (fun hh => absurd (c0.symm.trans hh.1) (by decide))).trans ((if_neg (fun hh => absurd (c0.symm.trans hh.1) (by decide))).trans ((if_neg (fun hh => absurd (c0.symm.trans hh.1) (by decide))).trans ((if_neg (fun hh => absurd (c0.symm.trans hh.1) (by decide))).trans ((if_neg (fun hh => absurd (c0.symm.trans hh.1) (by decide))).trans ((if_neg (fun hh => absurd (c0.symm.trans hh.1) (by decide))).trans ((if_neg (fun hh => absurd (c0.symm.trans hh.1) (by decide))).trans ((if_pos ⟨c0, c1⟩)))))))))))))))))))) ?_
  rw [(fin_of_fld (d := d) (m := fld wd 21 5) (f6)), (fin_of_fld (d := a) (m := fld wd 16 5) (f5)), (fin_of_fld (d := b) (m := fld wd 11 5) (f4)), (bit_of_fld (b := x) (lo := 10) (w := wd) (f3)), (fin_of_fld (d := k) (m := fld wd 6 3) (f1))]

theorem EncodeDecode.vremuX (d : Fin 32) (a : Fin 32) (b : Fin 32) (x : Bool) (k : Fin 8) : EncodeDecode.Statement (.vremuX d a b x k) := by
  intro wd hwf hw
  have hw : 2281701395 + d.val * 2097152 + a.val * 65536 + b.val * 2048 + x.toNat * 1024 + k.val * 64 = wd := Option.some.inj hw
  have hw : wd = atop 6 19 (atop 3 k.val (atop 1 0 (atop 1 x.toNat (atop 5 b.val (atop 5 a.val (atop 5 d.val (34))))))) := by unfold atop; omega
  obtain ⟨f0, f1, f2, f3, f4, f5, f6, ho⟩ := unpack7 (n1 := 6)  (n2 := 3)  (n3 := 1)  (n4 := 1)  (n5 := 5)  (n6 := 5)  (n7 := 5) (by decide) k.isLt (by decide) x.toNat_lt b.isLt a.isLt d.isLt hw
  have ho : wd / 67108864 = 34 := ho
  refine decode_of_raw (by rw [ho]; rfl) ?_ hwf
  unfold decodeRaw
  rw [ho]
  show decodeOp22 wd = _
  unfold decodeOp22
  have c0 : fld wd 0 6 = 19 := f0
  have c1 : fld wd 9 1 = 0 := f2
  refine Eq.trans ((if_neg (fun hh => absurd (c0.symm.trans hh.1) (by decide))).trans ((if_neg (fun hh => absurd (c0.symm.trans hh.1) (by decide))).trans ((if_neg (fun hh => absurd (c0.symm.trans hh.1) (by decide))).trans ((if_neg (fun hh => absurd (c0.symm.trans hh.1) (by decide))).trans ((if_neg (fun hh => absurd (c0.symm.trans hh.1) (by decide))).trans ((if_neg (fun hh => absurd (c0.symm.trans hh.1) (by decide))).trans ((if_neg (fun hh => absurd (c0.symm.trans hh.1) (by decide))).trans ((if_neg (fun hh => absurd (c0.symm.trans hh.1) (by decide))).trans ((if_neg (fun hh => absurd (c0.symm.trans hh.1) (by decide))).trans ((if_neg (fun hh => absurd (c0.symm.trans hh.1) (by decide))).trans ((if_neg (fun hh => absurd (c0.symm.trans hh.1) (by decide))).trans ((if_neg (fun hh => absurd (c0.symm.trans hh.1) (by decide))).trans ((if_neg (fun hh => absurd (c0.symm.trans hh.1) (by decide))).trans ((if_neg (fun hh => absurd (c0.symm.trans hh.1) (by decide))).trans ((if_neg (fun hh => absurd (c0.symm.trans hh.1) (by decide))).trans ((if_neg (fun hh => absurd (c0.symm.trans hh.1) (by decide))).trans ((if_neg (fun hh => absurd (c0.symm.trans hh.1) (by decide))).trans ((if_neg (fun hh => absurd (c0.symm.trans hh.1) (by decide))).trans ((if_neg (fun hh => absurd (c0.symm.trans hh.1) (by decide))).trans ((if_pos ⟨c0, c1⟩))))))))))))))))))))) ?_
  rw [(fin_of_fld (d := d) (m := fld wd 21 5) (f6)), (fin_of_fld (d := a) (m := fld wd 16 5) (f5)), (fin_of_fld (d := b) (m := fld wd 11 5) (f4)), (bit_of_fld (b := x) (lo := 10) (w := wd) (f3)), (fin_of_fld (d := k) (m := fld wd 6 3) (f1))]

theorem EncodeDecode.vmaccX (d : Fin 32) (a : Fin 32) (b : Fin 32) (x : Bool) (k : Fin 8) : EncodeDecode.Statement (.vmaccX d a b x k) := by
  intro wd hwf hw
  have hw : 2281701396 + d.val * 2097152 + a.val * 65536 + b.val * 2048 + x.toNat * 1024 + k.val * 64 = wd := Option.some.inj hw
  have hw : wd = atop 6 20 (atop 3 k.val (atop 1 0 (atop 1 x.toNat (atop 5 b.val (atop 5 a.val (atop 5 d.val (34))))))) := by unfold atop; omega
  obtain ⟨f0, f1, f2, f3, f4, f5, f6, ho⟩ := unpack7 (n1 := 6)  (n2 := 3)  (n3 := 1)  (n4 := 1)  (n5 := 5)  (n6 := 5)  (n7 := 5) (by decide) k.isLt (by decide) x.toNat_lt b.isLt a.isLt d.isLt hw
  have ho : wd / 67108864 = 34 := ho
  refine decode_of_raw (by rw [ho]; rfl) ?_ hwf
  unfold decodeRaw
  rw [ho]
  show decodeOp22 wd = _
  unfold decodeOp22
  have c0 : fld wd 0 6 = 20 := f0
  have c1 : fld wd 9 1 = 0 := f2
  refine Eq.trans ((if_neg (fun hh => absurd (c0.symm.trans hh.1) (by decide))).trans ((if_neg (fun hh => absurd (c0.symm.trans hh.1) (by decide))).trans ((if_neg (fun hh => absurd (c0.symm.trans hh.1) (by decide))).trans ((if_neg (fun hh => absurd (c0.symm.trans hh.1) (by decide))).trans ((if_neg (fun hh => absurd (c0.symm.trans hh.1) (by decide))).trans ((if_neg (fun hh => absurd (c0.symm.trans hh.1) (by decide))).trans ((if_neg (fun hh => absurd (c0.symm.trans hh.1) (by decide))).trans ((if_neg (fun hh => absurd (c0.symm.trans hh.1) (by decide))).trans ((if_neg (fun hh => absurd (c0.symm.trans hh.1) (by decide))).trans ((if_neg (fun hh => absurd (c0.symm.trans hh.1) (by decide))).trans ((if_neg (fun hh => absurd (c0.symm.trans hh.1) (by decide))).trans ((if_neg (fun hh => absurd (c0.symm.trans hh.1) (by decide))).trans ((if_neg (fun hh => absurd (c0.symm.trans hh.1) (by decide))).trans ((if_neg (fun hh => absurd (c0.symm.trans hh.1) (by decide))).trans ((if_neg (fun hh => absurd (c0.symm.trans hh.1) (by decide))).trans ((if_neg (fun hh => absurd (c0.symm.trans hh.1) (by decide))).trans ((if_neg (fun hh => absurd (c0.symm.trans hh.1) (by decide))).trans ((if_neg (fun hh => absurd (c0.symm.trans hh.1) (by decide))).trans ((if_neg (fun hh => absurd (c0.symm.trans hh.1) (by decide))).trans ((if_neg (fun hh => absurd (c0.symm.trans hh.1) (by decide))).trans ((if_pos ⟨c0, c1⟩)))))))))))))))))))))) ?_
  rw [(fin_of_fld (d := d) (m := fld wd 21 5) (f6)), (fin_of_fld (d := a) (m := fld wd 16 5) (f5)), (fin_of_fld (d := b) (m := fld wd 11 5) (f4)), (bit_of_fld (b := x) (lo := 10) (w := wd) (f3)), (fin_of_fld (d := k) (m := fld wd 6 3) (f1))]

theorem EncodeDecode.vsaddX (d : Fin 32) (a : Fin 32) (b : Fin 32) (x : Bool) (k : Fin 8) : EncodeDecode.Statement (.vsaddX d a b x k) := by
  intro wd hwf hw
  have hw : 2281701397 + d.val * 2097152 + a.val * 65536 + b.val * 2048 + x.toNat * 1024 + k.val * 64 = wd := Option.some.inj hw
  have hw : wd = atop 6 21 (atop 3 k.val (atop 1 0 (atop 1 x.toNat (atop 5 b.val (atop 5 a.val (atop 5 d.val (34))))))) := by unfold atop; omega
  obtain ⟨f0, f1, f2, f3, f4, f5, f6, ho⟩ := unpack7 (n1 := 6)  (n2 := 3)  (n3 := 1)  (n4 := 1)  (n5 := 5)  (n6 := 5)  (n7 := 5) (by decide) k.isLt (by decide) x.toNat_lt b.isLt a.isLt d.isLt hw
  have ho : wd / 67108864 = 34 := ho
  refine decode_of_raw (by rw [ho]; rfl) ?_ hwf
  unfold decodeRaw
  rw [ho]
  show decodeOp22 wd = _
  unfold decodeOp22
  have c0 : fld wd 0 6 = 21 := f0
  have c1 : fld wd 9 1 = 0 := f2
  refine Eq.trans ((if_neg (fun hh => absurd (c0.symm.trans hh.1) (by decide))).trans ((if_neg (fun hh => absurd (c0.symm.trans hh.1) (by decide))).trans ((if_neg (fun hh => absurd (c0.symm.trans hh.1) (by decide))).trans ((if_neg (fun hh => absurd (c0.symm.trans hh.1) (by decide))).trans ((if_neg (fun hh => absurd (c0.symm.trans hh.1) (by decide))).trans ((if_neg (fun hh => absurd (c0.symm.trans hh.1) (by decide))).trans ((if_neg (fun hh => absurd (c0.symm.trans hh.1) (by decide))).trans ((if_neg (fun hh => absurd (c0.symm.trans hh.1) (by decide))).trans ((if_neg (fun hh => absurd (c0.symm.trans hh.1) (by decide))).trans ((if_neg (fun hh => absurd (c0.symm.trans hh.1) (by decide))).trans ((if_neg (fun hh => absurd (c0.symm.trans hh.1) (by decide))).trans ((if_neg (fun hh => absurd (c0.symm.trans hh.1) (by decide))).trans ((if_neg (fun hh => absurd (c0.symm.trans hh.1) (by decide))).trans ((if_neg (fun hh => absurd (c0.symm.trans hh.1) (by decide))).trans ((if_neg (fun hh => absurd (c0.symm.trans hh.1) (by decide))).trans ((if_neg (fun hh => absurd (c0.symm.trans hh.1) (by decide))).trans ((if_neg (fun hh => absurd (c0.symm.trans hh.1) (by decide))).trans ((if_neg (fun hh => absurd (c0.symm.trans hh.1) (by decide))).trans ((if_neg (fun hh => absurd (c0.symm.trans hh.1) (by decide))).trans ((if_neg (fun hh => absurd (c0.symm.trans hh.1) (by decide))).trans ((if_neg (fun hh => absurd (c0.symm.trans hh.1) (by decide))).trans ((if_pos ⟨c0, c1⟩))))))))))))))))))))))) ?_
  rw [(fin_of_fld (d := d) (m := fld wd 21 5) (f6)), (fin_of_fld (d := a) (m := fld wd 16 5) (f5)), (fin_of_fld (d := b) (m := fld wd 11 5) (f4)), (bit_of_fld (b := x) (lo := 10) (w := wd) (f3)), (fin_of_fld (d := k) (m := fld wd 6 3) (f1))]

theorem EncodeDecode.vsadduX (d : Fin 32) (a : Fin 32) (b : Fin 32) (x : Bool) (k : Fin 8) : EncodeDecode.Statement (.vsadduX d a b x k) := by
  intro wd hwf hw
  have hw : 2281701398 + d.val * 2097152 + a.val * 65536 + b.val * 2048 + x.toNat * 1024 + k.val * 64 = wd := Option.some.inj hw
  have hw : wd = atop 6 22 (atop 3 k.val (atop 1 0 (atop 1 x.toNat (atop 5 b.val (atop 5 a.val (atop 5 d.val (34))))))) := by unfold atop; omega
  obtain ⟨f0, f1, f2, f3, f4, f5, f6, ho⟩ := unpack7 (n1 := 6)  (n2 := 3)  (n3 := 1)  (n4 := 1)  (n5 := 5)  (n6 := 5)  (n7 := 5) (by decide) k.isLt (by decide) x.toNat_lt b.isLt a.isLt d.isLt hw
  have ho : wd / 67108864 = 34 := ho
  refine decode_of_raw (by rw [ho]; rfl) ?_ hwf
  unfold decodeRaw
  rw [ho]
  show decodeOp22 wd = _
  unfold decodeOp22
  have c0 : fld wd 0 6 = 22 := f0
  have c1 : fld wd 9 1 = 0 := f2
  refine Eq.trans ((if_neg (fun hh => absurd (c0.symm.trans hh.1) (by decide))).trans ((if_neg (fun hh => absurd (c0.symm.trans hh.1) (by decide))).trans ((if_neg (fun hh => absurd (c0.symm.trans hh.1) (by decide))).trans ((if_neg (fun hh => absurd (c0.symm.trans hh.1) (by decide))).trans ((if_neg (fun hh => absurd (c0.symm.trans hh.1) (by decide))).trans ((if_neg (fun hh => absurd (c0.symm.trans hh.1) (by decide))).trans ((if_neg (fun hh => absurd (c0.symm.trans hh.1) (by decide))).trans ((if_neg (fun hh => absurd (c0.symm.trans hh.1) (by decide))).trans ((if_neg (fun hh => absurd (c0.symm.trans hh.1) (by decide))).trans ((if_neg (fun hh => absurd (c0.symm.trans hh.1) (by decide))).trans ((if_neg (fun hh => absurd (c0.symm.trans hh.1) (by decide))).trans ((if_neg (fun hh => absurd (c0.symm.trans hh.1) (by decide))).trans ((if_neg (fun hh => absurd (c0.symm.trans hh.1) (by decide))).trans ((if_neg (fun hh => absurd (c0.symm.trans hh.1) (by decide))).trans ((if_neg (fun hh => absurd (c0.symm.trans hh.1) (by decide))).trans ((if_neg (fun hh => absurd (c0.symm.trans hh.1) (by decide))).trans ((if_neg (fun hh => absurd (c0.symm.trans hh.1) (by decide))).trans ((if_neg (fun hh => absurd (c0.symm.trans hh.1) (by decide))).trans ((if_neg (fun hh => absurd (c0.symm.trans hh.1) (by decide))).trans ((if_neg (fun hh => absurd (c0.symm.trans hh.1) (by decide))).trans ((if_neg (fun hh => absurd (c0.symm.trans hh.1) (by decide))).trans ((if_neg (fun hh => absurd (c0.symm.trans hh.1) (by decide))).trans ((if_pos ⟨c0, c1⟩)))))))))))))))))))))))) ?_
  rw [(fin_of_fld (d := d) (m := fld wd 21 5) (f6)), (fin_of_fld (d := a) (m := fld wd 16 5) (f5)), (fin_of_fld (d := b) (m := fld wd 11 5) (f4)), (bit_of_fld (b := x) (lo := 10) (w := wd) (f3)), (fin_of_fld (d := k) (m := fld wd 6 3) (f1))]

theorem EncodeDecode.vssubX (d : Fin 32) (a : Fin 32) (b : Fin 32) (x : Bool) (k : Fin 8) : EncodeDecode.Statement (.vssubX d a b x k) := by
  intro wd hwf hw
  have hw : 2281701399 + d.val * 2097152 + a.val * 65536 + b.val * 2048 + x.toNat * 1024 + k.val * 64 = wd := Option.some.inj hw
  have hw : wd = atop 6 23 (atop 3 k.val (atop 1 0 (atop 1 x.toNat (atop 5 b.val (atop 5 a.val (atop 5 d.val (34))))))) := by unfold atop; omega
  obtain ⟨f0, f1, f2, f3, f4, f5, f6, ho⟩ := unpack7 (n1 := 6)  (n2 := 3)  (n3 := 1)  (n4 := 1)  (n5 := 5)  (n6 := 5)  (n7 := 5) (by decide) k.isLt (by decide) x.toNat_lt b.isLt a.isLt d.isLt hw
  have ho : wd / 67108864 = 34 := ho
  refine decode_of_raw (by rw [ho]; rfl) ?_ hwf
  unfold decodeRaw
  rw [ho]
  show decodeOp22 wd = _
  unfold decodeOp22
  have c0 : fld wd 0 6 = 23 := f0
  have c1 : fld wd 9 1 = 0 := f2
  refine Eq.trans ((if_neg (fun hh => absurd (c0.symm.trans hh.1) (by decide))).trans ((if_neg (fun hh => absurd (c0.symm.trans hh.1) (by decide))).trans ((if_neg (fun hh => absurd (c0.symm.trans hh.1) (by decide))).trans ((if_neg (fun hh => absurd (c0.symm.trans hh.1) (by decide))).trans ((if_neg (fun hh => absurd (c0.symm.trans hh.1) (by decide))).trans ((if_neg (fun hh => absurd (c0.symm.trans hh.1) (by decide))).trans ((if_neg (fun hh => absurd (c0.symm.trans hh.1) (by decide))).trans ((if_neg (fun hh => absurd (c0.symm.trans hh.1) (by decide))).trans ((if_neg (fun hh => absurd (c0.symm.trans hh.1) (by decide))).trans ((if_neg (fun hh => absurd (c0.symm.trans hh.1) (by decide))).trans ((if_neg (fun hh => absurd (c0.symm.trans hh.1) (by decide))).trans ((if_neg (fun hh => absurd (c0.symm.trans hh.1) (by decide))).trans ((if_neg (fun hh => absurd (c0.symm.trans hh.1) (by decide))).trans ((if_neg (fun hh => absurd (c0.symm.trans hh.1) (by decide))).trans ((if_neg (fun hh => absurd (c0.symm.trans hh.1) (by decide))).trans ((if_neg (fun hh => absurd (c0.symm.trans hh.1) (by decide))).trans ((if_neg (fun hh => absurd (c0.symm.trans hh.1) (by decide))).trans ((if_neg (fun hh => absurd (c0.symm.trans hh.1) (by decide))).trans ((if_neg (fun hh => absurd (c0.symm.trans hh.1) (by decide))).trans ((if_neg (fun hh => absurd (c0.symm.trans hh.1) (by decide))).trans ((if_neg (fun hh => absurd (c0.symm.trans hh.1) (by decide))).trans ((if_neg (fun hh => absurd (c0.symm.trans hh.1) (by decide))).trans ((if_neg (fun hh => absurd (c0.symm.trans hh.1) (by decide))).trans ((if_pos ⟨c0, c1⟩))))))))))))))))))))))))) ?_
  rw [(fin_of_fld (d := d) (m := fld wd 21 5) (f6)), (fin_of_fld (d := a) (m := fld wd 16 5) (f5)), (fin_of_fld (d := b) (m := fld wd 11 5) (f4)), (bit_of_fld (b := x) (lo := 10) (w := wd) (f3)), (fin_of_fld (d := k) (m := fld wd 6 3) (f1))]

theorem EncodeDecode.vssubuX (d : Fin 32) (a : Fin 32) (b : Fin 32) (x : Bool) (k : Fin 8) : EncodeDecode.Statement (.vssubuX d a b x k) := by
  intro wd hwf hw
  have hw : 2281701400 + d.val * 2097152 + a.val * 65536 + b.val * 2048 + x.toNat * 1024 + k.val * 64 = wd := Option.some.inj hw
  have hw : wd = atop 6 24 (atop 3 k.val (atop 1 0 (atop 1 x.toNat (atop 5 b.val (atop 5 a.val (atop 5 d.val (34))))))) := by unfold atop; omega
  obtain ⟨f0, f1, f2, f3, f4, f5, f6, ho⟩ := unpack7 (n1 := 6)  (n2 := 3)  (n3 := 1)  (n4 := 1)  (n5 := 5)  (n6 := 5)  (n7 := 5) (by decide) k.isLt (by decide) x.toNat_lt b.isLt a.isLt d.isLt hw
  have ho : wd / 67108864 = 34 := ho
  refine decode_of_raw (by rw [ho]; rfl) ?_ hwf
  unfold decodeRaw
  rw [ho]
  show decodeOp22 wd = _
  unfold decodeOp22
  have c0 : fld wd 0 6 = 24 := f0
  have c1 : fld wd 9 1 = 0 := f2
  refine Eq.trans ((if_neg (fun hh => absurd (c0.symm.trans hh.1) (by decide))).trans ((if_neg (fun hh => absurd (c0.symm.trans hh.1) (by decide))).trans ((if_neg (fun hh => absurd (c0.symm.trans hh.1) (by decide))).trans ((if_neg (fun hh => absurd (c0.symm.trans hh.1) (by decide))).trans ((if_neg (fun hh => absurd (c0.symm.trans hh.1) (by decide))).trans ((if_neg (fun hh => absurd (c0.symm.trans hh.1) (by decide))).trans ((if_neg (fun hh => absurd (c0.symm.trans hh.1) (by decide))).trans ((if_neg (fun hh => absurd (c0.symm.trans hh.1) (by decide))).trans ((if_neg (fun hh => absurd (c0.symm.trans hh.1) (by decide))).trans ((if_neg (fun hh => absurd (c0.symm.trans hh.1) (by decide))).trans ((if_neg (fun hh => absurd (c0.symm.trans hh.1) (by decide))).trans ((if_neg (fun hh => absurd (c0.symm.trans hh.1) (by decide))).trans ((if_neg (fun hh => absurd (c0.symm.trans hh.1) (by decide))).trans ((if_neg (fun hh => absurd (c0.symm.trans hh.1) (by decide))).trans ((if_neg (fun hh => absurd (c0.symm.trans hh.1) (by decide))).trans ((if_neg (fun hh => absurd (c0.symm.trans hh.1) (by decide))).trans ((if_neg (fun hh => absurd (c0.symm.trans hh.1) (by decide))).trans ((if_neg (fun hh => absurd (c0.symm.trans hh.1) (by decide))).trans ((if_neg (fun hh => absurd (c0.symm.trans hh.1) (by decide))).trans ((if_neg (fun hh => absurd (c0.symm.trans hh.1) (by decide))).trans ((if_neg (fun hh => absurd (c0.symm.trans hh.1) (by decide))).trans ((if_neg (fun hh => absurd (c0.symm.trans hh.1) (by decide))).trans ((if_neg (fun hh => absurd (c0.symm.trans hh.1) (by decide))).trans ((if_neg (fun hh => absurd (c0.symm.trans hh.1) (by decide))).trans ((if_pos ⟨c0, c1⟩)))))))))))))))))))))))))) ?_
  rw [(fin_of_fld (d := d) (m := fld wd 21 5) (f6)), (fin_of_fld (d := a) (m := fld wd 16 5) (f5)), (fin_of_fld (d := b) (m := fld wd 11 5) (f4)), (bit_of_fld (b := x) (lo := 10) (w := wd) (f3)), (fin_of_fld (d := k) (m := fld wd 6 3) (f1))]

theorem EncodeDecode.vabsdX (d : Fin 32) (a : Fin 32) (b : Fin 32) (x : Bool) (k : Fin 8) : EncodeDecode.Statement (.vabsdX d a b x k) := by
  intro wd hwf hw
  have hw : 2281701401 + d.val * 2097152 + a.val * 65536 + b.val * 2048 + x.toNat * 1024 + k.val * 64 = wd := Option.some.inj hw
  have hw : wd = atop 6 25 (atop 3 k.val (atop 1 0 (atop 1 x.toNat (atop 5 b.val (atop 5 a.val (atop 5 d.val (34))))))) := by unfold atop; omega
  obtain ⟨f0, f1, f2, f3, f4, f5, f6, ho⟩ := unpack7 (n1 := 6)  (n2 := 3)  (n3 := 1)  (n4 := 1)  (n5 := 5)  (n6 := 5)  (n7 := 5) (by decide) k.isLt (by decide) x.toNat_lt b.isLt a.isLt d.isLt hw
  have ho : wd / 67108864 = 34 := ho
  refine decode_of_raw (by rw [ho]; rfl) ?_ hwf
  unfold decodeRaw
  rw [ho]
  show decodeOp22 wd = _
  unfold decodeOp22
  have c0 : fld wd 0 6 = 25 := f0
  have c1 : fld wd 9 1 = 0 := f2
  refine Eq.trans ((if_neg (fun hh => absurd (c0.symm.trans hh.1) (by decide))).trans ((if_neg (fun hh => absurd (c0.symm.trans hh.1) (by decide))).trans ((if_neg (fun hh => absurd (c0.symm.trans hh.1) (by decide))).trans ((if_neg (fun hh => absurd (c0.symm.trans hh.1) (by decide))).trans ((if_neg (fun hh => absurd (c0.symm.trans hh.1) (by decide))).trans ((if_neg (fun hh => absurd (c0.symm.trans hh.1) (by decide))).trans ((if_neg (fun hh => absurd (c0.symm.trans hh.1) (by decide))).trans ((if_neg (fun hh => absurd (c0.symm.trans hh.1) (by decide))).trans ((if_neg (fun hh => absurd (c0.symm.trans hh.1) (by decide))).trans ((if_neg (fun hh => absurd (c0.symm.trans hh.1) (by decide))).trans ((if_neg (fun hh => absurd (c0.symm.trans hh.1) (by decide))).trans ((if_neg (fun hh => absurd (c0.symm.trans hh.1) (by decide))).trans ((if_neg (fun hh => absurd (c0.symm.trans hh.1) (by decide))).trans ((if_neg (fun hh => absurd (c0.symm.trans hh.1) (by decide))).trans ((if_neg (fun hh => absurd (c0.symm.trans hh.1) (by decide))).trans ((if_neg (fun hh => absurd (c0.symm.trans hh.1) (by decide))).trans ((if_neg (fun hh => absurd (c0.symm.trans hh.1) (by decide))).trans ((if_neg (fun hh => absurd (c0.symm.trans hh.1) (by decide))).trans ((if_neg (fun hh => absurd (c0.symm.trans hh.1) (by decide))).trans ((if_neg (fun hh => absurd (c0.symm.trans hh.1) (by decide))).trans ((if_neg (fun hh => absurd (c0.symm.trans hh.1) (by decide))).trans ((if_neg (fun hh => absurd (c0.symm.trans hh.1) (by decide))).trans ((if_neg (fun hh => absurd (c0.symm.trans hh.1) (by decide))).trans ((if_neg (fun hh => absurd (c0.symm.trans hh.1) (by decide))).trans ((if_neg (fun hh => absurd (c0.symm.trans hh.1) (by decide))).trans ((if_pos ⟨c0, c1⟩))))))))))))))))))))))))))) ?_
  rw [(fin_of_fld (d := d) (m := fld wd 21 5) (f6)), (fin_of_fld (d := a) (m := fld wd 16 5) (f5)), (fin_of_fld (d := b) (m := fld wd 11 5) (f4)), (bit_of_fld (b := x) (lo := 10) (w := wd) (f3)), (fin_of_fld (d := k) (m := fld wd 6 3) (f1))]

theorem EncodeDecode.vmvX (d : Fin 32) (b : Fin 32) (k : Fin 8) : EncodeDecode.Statement (.vmvX d b k) := by
  intro wd hwf hw
  have hw : 2281701405 + d.val * 2097152 + b.val * 2048 + k.val * 64 = wd := Option.some.inj hw
  have hw : wd = atop 6 29 (atop 3 k.val (atop 2 0 (atop 5 b.val (atop 5 0 (atop 5 d.val (34)))))) := by unfold atop; omega
  obtain ⟨f0, f1, f2, f3, f4, f5, ho⟩ := unpack6 (n1 := 6)  (n2 := 3)  (n3 := 2)  (n4 := 5)  (n5 := 5)  (n6 := 5) (by decide) k.isLt (by decide) b.isLt (by decide) d.isLt hw
  have ho : wd / 67108864 = 34 := ho
  refine decode_of_raw (by rw [ho]; rfl) ?_ hwf
  unfold decodeRaw
  rw [ho]
  show decodeOp22 wd = _
  unfold decodeOp22
  have c0 : fld wd 0 6 = 29 := f0
  have c1 : fld wd 9 2 = 0 := f2
  have c2 : fld wd 16 5 = 0 := f4
  refine Eq.trans ((if_neg (fun hh => absurd (c0.symm.trans hh.1) (by decide))).trans ((if_neg (fun hh => absurd (c0.symm.trans hh.1) (by decide))).trans ((if_neg (fun hh => absurd (c0.symm.trans hh.1) (by decide))).trans ((if_neg (fun hh => absurd (c0.symm.trans hh.1) (by decide))).trans ((if_neg (fun hh => absurd (c0.symm.trans hh.1) (by decide))).trans ((if_neg (fun hh => absurd (c0.symm.trans hh.1) (by decide))).trans ((if_neg (fun hh => absurd (c0.symm.trans hh.1) (by decide))).trans ((if_neg (fun hh => absurd (c0.symm.trans hh.1) (by decide))).trans ((if_neg (fun hh => absurd (c0.symm.trans hh.1) (by decide))).trans ((if_neg (fun hh => absurd (c0.symm.trans hh.1) (by decide))).trans ((if_neg (fun hh => absurd (c0.symm.trans hh.1) (by decide))).trans ((if_neg (fun hh => absurd (c0.symm.trans hh.1) (by decide))).trans ((if_neg (fun hh => absurd (c0.symm.trans hh.1) (by decide))).trans ((if_neg (fun hh => absurd (c0.symm.trans hh.1) (by decide))).trans ((if_neg (fun hh => absurd (c0.symm.trans hh.1) (by decide))).trans ((if_neg (fun hh => absurd (c0.symm.trans hh.1) (by decide))).trans ((if_neg (fun hh => absurd (c0.symm.trans hh.1) (by decide))).trans ((if_neg (fun hh => absurd (c0.symm.trans hh.1) (by decide))).trans ((if_neg (fun hh => absurd (c0.symm.trans hh.1) (by decide))).trans ((if_neg (fun hh => absurd (c0.symm.trans hh.1) (by decide))).trans ((if_neg (fun hh => absurd (c0.symm.trans hh.1) (by decide))).trans ((if_neg (fun hh => absurd (c0.symm.trans hh.1) (by decide))).trans ((if_neg (fun hh => absurd (c0.symm.trans hh.1) (by decide))).trans ((if_neg (fun hh => absurd (c0.symm.trans hh.1) (by decide))).trans ((if_neg (fun hh => absurd (c0.symm.trans hh.1) (by decide))).trans ((if_neg (fun hh => absurd (c0.symm.trans hh.1) (by decide))).trans ((if_pos ⟨c0, c1, c2⟩)))))))))))))))))))))))))))) ?_
  rw [(fin_of_fld (d := d) (m := fld wd 21 5) (f5)), (fin_of_fld (d := b) (m := fld wd 11 5) (f3)), (fin_of_fld (d := k) (m := fld wd 6 3) (f1))]

theorem EncodeDecode.vfadd (d : Fin 32) (a : Fin 32) (b : Fin 32) (x : Bool) (y : Bool) (k : Fin 8) : EncodeDecode.Statement (.vfadd d a b x y k) := by
  intro wd hwf hw
  have hw : 2348810240 + d.val * 2097152 + a.val * 65536 + b.val * 2048 + x.toNat * 1024 + y.toNat * 512 + k.val * 64 = wd := Option.some.inj hw
  have hw : wd = atop 6 0 (atop 3 k.val (atop 1 y.toNat (atop 1 x.toNat (atop 5 b.val (atop 5 a.val (atop 5 d.val (35))))))) := by unfold atop; omega
  obtain ⟨f0, f1, f2, f3, f4, f5, f6, ho⟩ := unpack7 (n1 := 6)  (n2 := 3)  (n3 := 1)  (n4 := 1)  (n5 := 5)  (n6 := 5)  (n7 := 5) (by decide) k.isLt y.toNat_lt x.toNat_lt b.isLt a.isLt d.isLt hw
  have ho : wd / 67108864 = 35 := ho
  refine decode_of_raw (by rw [ho]; rfl) ?_ hwf
  unfold decodeRaw
  rw [ho]
  show decodeOp23 wd = _
  unfold decodeOp23
  have c0 : fld wd 0 6 = 0 := f0
  refine Eq.trans ((if_pos c0)) ?_
  rw [(fin_of_fld (d := d) (m := fld wd 21 5) (f6)), (fin_of_fld (d := a) (m := fld wd 16 5) (f5)), (fin_of_fld (d := b) (m := fld wd 11 5) (f4)), (bit_of_fld (b := x) (lo := 10) (w := wd) (f3)), (bit_of_fld (b := y) (lo := 9) (w := wd) (f2)), (fin_of_fld (d := k) (m := fld wd 6 3) (f1))]

theorem EncodeDecode.vfsub (d : Fin 32) (a : Fin 32) (b : Fin 32) (x : Bool) (y : Bool) (k : Fin 8) : EncodeDecode.Statement (.vfsub d a b x y k) := by
  intro wd hwf hw
  have hw : 2348810241 + d.val * 2097152 + a.val * 65536 + b.val * 2048 + x.toNat * 1024 + y.toNat * 512 + k.val * 64 = wd := Option.some.inj hw
  have hw : wd = atop 6 1 (atop 3 k.val (atop 1 y.toNat (atop 1 x.toNat (atop 5 b.val (atop 5 a.val (atop 5 d.val (35))))))) := by unfold atop; omega
  obtain ⟨f0, f1, f2, f3, f4, f5, f6, ho⟩ := unpack7 (n1 := 6)  (n2 := 3)  (n3 := 1)  (n4 := 1)  (n5 := 5)  (n6 := 5)  (n7 := 5) (by decide) k.isLt y.toNat_lt x.toNat_lt b.isLt a.isLt d.isLt hw
  have ho : wd / 67108864 = 35 := ho
  refine decode_of_raw (by rw [ho]; rfl) ?_ hwf
  unfold decodeRaw
  rw [ho]
  show decodeOp23 wd = _
  unfold decodeOp23
  have c0 : fld wd 0 6 = 1 := f0
  refine Eq.trans ((if_neg (fun hh => absurd (c0.symm.trans hh) (by decide))).trans ((if_pos c0))) ?_
  rw [(fin_of_fld (d := d) (m := fld wd 21 5) (f6)), (fin_of_fld (d := a) (m := fld wd 16 5) (f5)), (fin_of_fld (d := b) (m := fld wd 11 5) (f4)), (bit_of_fld (b := x) (lo := 10) (w := wd) (f3)), (bit_of_fld (b := y) (lo := 9) (w := wd) (f2)), (fin_of_fld (d := k) (m := fld wd 6 3) (f1))]

theorem EncodeDecode.vfmul (d : Fin 32) (a : Fin 32) (b : Fin 32) (x : Bool) (y : Bool) (k : Fin 8) : EncodeDecode.Statement (.vfmul d a b x y k) := by
  intro wd hwf hw
  have hw : 2348810242 + d.val * 2097152 + a.val * 65536 + b.val * 2048 + x.toNat * 1024 + y.toNat * 512 + k.val * 64 = wd := Option.some.inj hw
  have hw : wd = atop 6 2 (atop 3 k.val (atop 1 y.toNat (atop 1 x.toNat (atop 5 b.val (atop 5 a.val (atop 5 d.val (35))))))) := by unfold atop; omega
  obtain ⟨f0, f1, f2, f3, f4, f5, f6, ho⟩ := unpack7 (n1 := 6)  (n2 := 3)  (n3 := 1)  (n4 := 1)  (n5 := 5)  (n6 := 5)  (n7 := 5) (by decide) k.isLt y.toNat_lt x.toNat_lt b.isLt a.isLt d.isLt hw
  have ho : wd / 67108864 = 35 := ho
  refine decode_of_raw (by rw [ho]; rfl) ?_ hwf
  unfold decodeRaw
  rw [ho]
  show decodeOp23 wd = _
  unfold decodeOp23
  have c0 : fld wd 0 6 = 2 := f0
  refine Eq.trans ((if_neg (fun hh => absurd (c0.symm.trans hh) (by decide))).trans ((if_neg (fun hh => absurd (c0.symm.trans hh) (by decide))).trans ((if_pos c0)))) ?_
  rw [(fin_of_fld (d := d) (m := fld wd 21 5) (f6)), (fin_of_fld (d := a) (m := fld wd 16 5) (f5)), (fin_of_fld (d := b) (m := fld wd 11 5) (f4)), (bit_of_fld (b := x) (lo := 10) (w := wd) (f3)), (bit_of_fld (b := y) (lo := 9) (w := wd) (f2)), (fin_of_fld (d := k) (m := fld wd 6 3) (f1))]

theorem EncodeDecode.vfdiv (d : Fin 32) (a : Fin 32) (b : Fin 32) (x : Bool) (y : Bool) (k : Fin 8) : EncodeDecode.Statement (.vfdiv d a b x y k) := by
  intro wd hwf hw
  have hw : 2348810243 + d.val * 2097152 + a.val * 65536 + b.val * 2048 + x.toNat * 1024 + y.toNat * 512 + k.val * 64 = wd := Option.some.inj hw
  have hw : wd = atop 6 3 (atop 3 k.val (atop 1 y.toNat (atop 1 x.toNat (atop 5 b.val (atop 5 a.val (atop 5 d.val (35))))))) := by unfold atop; omega
  obtain ⟨f0, f1, f2, f3, f4, f5, f6, ho⟩ := unpack7 (n1 := 6)  (n2 := 3)  (n3 := 1)  (n4 := 1)  (n5 := 5)  (n6 := 5)  (n7 := 5) (by decide) k.isLt y.toNat_lt x.toNat_lt b.isLt a.isLt d.isLt hw
  have ho : wd / 67108864 = 35 := ho
  refine decode_of_raw (by rw [ho]; rfl) ?_ hwf
  unfold decodeRaw
  rw [ho]
  show decodeOp23 wd = _
  unfold decodeOp23
  have c0 : fld wd 0 6 = 3 := f0
  refine Eq.trans ((if_neg (fun hh => absurd (c0.symm.trans hh) (by decide))).trans ((if_neg (fun hh => absurd (c0.symm.trans hh) (by decide))).trans ((if_neg (fun hh => absurd (c0.symm.trans hh) (by decide))).trans ((if_pos c0))))) ?_
  rw [(fin_of_fld (d := d) (m := fld wd 21 5) (f6)), (fin_of_fld (d := a) (m := fld wd 16 5) (f5)), (fin_of_fld (d := b) (m := fld wd 11 5) (f4)), (bit_of_fld (b := x) (lo := 10) (w := wd) (f3)), (bit_of_fld (b := y) (lo := 9) (w := wd) (f2)), (fin_of_fld (d := k) (m := fld wd 6 3) (f1))]

theorem EncodeDecode.vfmin (d : Fin 32) (a : Fin 32) (b : Fin 32) (x : Bool) (y : Bool) (k : Fin 8) : EncodeDecode.Statement (.vfmin d a b x y k) := by
  intro wd hwf hw
  have hw : 2348810244 + d.val * 2097152 + a.val * 65536 + b.val * 2048 + x.toNat * 1024 + y.toNat * 512 + k.val * 64 = wd := Option.some.inj hw
  have hw : wd = atop 6 4 (atop 3 k.val (atop 1 y.toNat (atop 1 x.toNat (atop 5 b.val (atop 5 a.val (atop 5 d.val (35))))))) := by unfold atop; omega
  obtain ⟨f0, f1, f2, f3, f4, f5, f6, ho⟩ := unpack7 (n1 := 6)  (n2 := 3)  (n3 := 1)  (n4 := 1)  (n5 := 5)  (n6 := 5)  (n7 := 5) (by decide) k.isLt y.toNat_lt x.toNat_lt b.isLt a.isLt d.isLt hw
  have ho : wd / 67108864 = 35 := ho
  refine decode_of_raw (by rw [ho]; rfl) ?_ hwf
  unfold decodeRaw
  rw [ho]
  show decodeOp23 wd = _
  unfold decodeOp23
  have c0 : fld wd 0 6 = 4 := f0
  refine Eq.trans ((if_neg (fun hh => absurd (c0.symm.trans hh) (by decide))).trans ((if_neg (fun hh => absurd (c0.symm.trans hh) (by decide))).trans ((if_neg (fun hh => absurd (c0.symm.trans hh) (by decide))).trans ((if_neg (fun hh => absurd (c0.symm.trans hh) (by decide))).trans ((if_pos c0)))))) ?_
  rw [(fin_of_fld (d := d) (m := fld wd 21 5) (f6)), (fin_of_fld (d := a) (m := fld wd 16 5) (f5)), (fin_of_fld (d := b) (m := fld wd 11 5) (f4)), (bit_of_fld (b := x) (lo := 10) (w := wd) (f3)), (bit_of_fld (b := y) (lo := 9) (w := wd) (f2)), (fin_of_fld (d := k) (m := fld wd 6 3) (f1))]

theorem EncodeDecode.vfmax (d : Fin 32) (a : Fin 32) (b : Fin 32) (x : Bool) (y : Bool) (k : Fin 8) : EncodeDecode.Statement (.vfmax d a b x y k) := by
  intro wd hwf hw
  have hw : 2348810245 + d.val * 2097152 + a.val * 65536 + b.val * 2048 + x.toNat * 1024 + y.toNat * 512 + k.val * 64 = wd := Option.some.inj hw
  have hw : wd = atop 6 5 (atop 3 k.val (atop 1 y.toNat (atop 1 x.toNat (atop 5 b.val (atop 5 a.val (atop 5 d.val (35))))))) := by unfold atop; omega
  obtain ⟨f0, f1, f2, f3, f4, f5, f6, ho⟩ := unpack7 (n1 := 6)  (n2 := 3)  (n3 := 1)  (n4 := 1)  (n5 := 5)  (n6 := 5)  (n7 := 5) (by decide) k.isLt y.toNat_lt x.toNat_lt b.isLt a.isLt d.isLt hw
  have ho : wd / 67108864 = 35 := ho
  refine decode_of_raw (by rw [ho]; rfl) ?_ hwf
  unfold decodeRaw
  rw [ho]
  show decodeOp23 wd = _
  unfold decodeOp23
  have c0 : fld wd 0 6 = 5 := f0
  refine Eq.trans ((if_neg (fun hh => absurd (c0.symm.trans hh) (by decide))).trans ((if_neg (fun hh => absurd (c0.symm.trans hh) (by decide))).trans ((if_neg (fun hh => absurd (c0.symm.trans hh) (by decide))).trans ((if_neg (fun hh => absurd (c0.symm.trans hh) (by decide))).trans ((if_neg (fun hh => absurd (c0.symm.trans hh) (by decide))).trans ((if_pos c0))))))) ?_
  rw [(fin_of_fld (d := d) (m := fld wd 21 5) (f6)), (fin_of_fld (d := a) (m := fld wd 16 5) (f5)), (fin_of_fld (d := b) (m := fld wd 11 5) (f4)), (bit_of_fld (b := x) (lo := 10) (w := wd) (f3)), (bit_of_fld (b := y) (lo := 9) (w := wd) (f2)), (fin_of_fld (d := k) (m := fld wd 6 3) (f1))]

theorem EncodeDecode.vfmadd (d : Fin 32) (a : Fin 32) (b : Fin 32) (x : Bool) (y : Bool) (k : Fin 8) : EncodeDecode.Statement (.vfmadd d a b x y k) := by
  intro wd hwf hw
  have hw : 2348810246 + d.val * 2097152 + a.val * 65536 + b.val * 2048 + x.toNat * 1024 + y.toNat * 512 + k.val * 64 = wd := Option.some.inj hw
  have hw : wd = atop 6 6 (atop 3 k.val (atop 1 y.toNat (atop 1 x.toNat (atop 5 b.val (atop 5 a.val (atop 5 d.val (35))))))) := by unfold atop; omega
  obtain ⟨f0, f1, f2, f3, f4, f5, f6, ho⟩ := unpack7 (n1 := 6)  (n2 := 3)  (n3 := 1)  (n4 := 1)  (n5 := 5)  (n6 := 5)  (n7 := 5) (by decide) k.isLt y.toNat_lt x.toNat_lt b.isLt a.isLt d.isLt hw
  have ho : wd / 67108864 = 35 := ho
  refine decode_of_raw (by rw [ho]; rfl) ?_ hwf
  unfold decodeRaw
  rw [ho]
  show decodeOp23 wd = _
  unfold decodeOp23
  have c0 : fld wd 0 6 = 6 := f0
  refine Eq.trans ((if_neg (fun hh => absurd (c0.symm.trans hh) (by decide))).trans ((if_neg (fun hh => absurd (c0.symm.trans hh) (by decide))).trans ((if_neg (fun hh => absurd (c0.symm.trans hh) (by decide))).trans ((if_neg (fun hh => absurd (c0.symm.trans hh) (by decide))).trans ((if_neg (fun hh => absurd (c0.symm.trans hh) (by decide))).trans ((if_neg (fun hh => absurd (c0.symm.trans hh) (by decide))).trans ((if_pos c0)))))))) ?_
  rw [(fin_of_fld (d := d) (m := fld wd 21 5) (f6)), (fin_of_fld (d := a) (m := fld wd 16 5) (f5)), (fin_of_fld (d := b) (m := fld wd 11 5) (f4)), (bit_of_fld (b := x) (lo := 10) (w := wd) (f3)), (bit_of_fld (b := y) (lo := 9) (w := wd) (f2)), (fin_of_fld (d := k) (m := fld wd 6 3) (f1))]

theorem EncodeDecode.vfmsub (d : Fin 32) (a : Fin 32) (b : Fin 32) (x : Bool) (y : Bool) (k : Fin 8) : EncodeDecode.Statement (.vfmsub d a b x y k) := by
  intro wd hwf hw
  have hw : 2348810247 + d.val * 2097152 + a.val * 65536 + b.val * 2048 + x.toNat * 1024 + y.toNat * 512 + k.val * 64 = wd := Option.some.inj hw
  have hw : wd = atop 6 7 (atop 3 k.val (atop 1 y.toNat (atop 1 x.toNat (atop 5 b.val (atop 5 a.val (atop 5 d.val (35))))))) := by unfold atop; omega
  obtain ⟨f0, f1, f2, f3, f4, f5, f6, ho⟩ := unpack7 (n1 := 6)  (n2 := 3)  (n3 := 1)  (n4 := 1)  (n5 := 5)  (n6 := 5)  (n7 := 5) (by decide) k.isLt y.toNat_lt x.toNat_lt b.isLt a.isLt d.isLt hw
  have ho : wd / 67108864 = 35 := ho
  refine decode_of_raw (by rw [ho]; rfl) ?_ hwf
  unfold decodeRaw
  rw [ho]
  show decodeOp23 wd = _
  unfold decodeOp23
  have c0 : fld wd 0 6 = 7 := f0
  refine Eq.trans ((if_neg (fun hh => absurd (c0.symm.trans hh) (by decide))).trans ((if_neg (fun hh => absurd (c0.symm.trans hh) (by decide))).trans ((if_neg (fun hh => absurd (c0.symm.trans hh) (by decide))).trans ((if_neg (fun hh => absurd (c0.symm.trans hh) (by decide))).trans ((if_neg (fun hh => absurd (c0.symm.trans hh) (by decide))).trans ((if_neg (fun hh => absurd (c0.symm.trans hh) (by decide))).trans ((if_neg (fun hh => absurd (c0.symm.trans hh) (by decide))).trans ((if_pos c0))))))))) ?_
  rw [(fin_of_fld (d := d) (m := fld wd 21 5) (f6)), (fin_of_fld (d := a) (m := fld wd 16 5) (f5)), (fin_of_fld (d := b) (m := fld wd 11 5) (f4)), (bit_of_fld (b := x) (lo := 10) (w := wd) (f3)), (bit_of_fld (b := y) (lo := 9) (w := wd) (f2)), (fin_of_fld (d := k) (m := fld wd 6 3) (f1))]

theorem EncodeDecode.vfnmadd (d : Fin 32) (a : Fin 32) (b : Fin 32) (x : Bool) (y : Bool) (k : Fin 8) : EncodeDecode.Statement (.vfnmadd d a b x y k) := by
  intro wd hwf hw
  have hw : 2348810248 + d.val * 2097152 + a.val * 65536 + b.val * 2048 + x.toNat * 1024 + y.toNat * 512 + k.val * 64 = wd := Option.some.inj hw
  have hw : wd = atop 6 8 (atop 3 k.val (atop 1 y.toNat (atop 1 x.toNat (atop 5 b.val (atop 5 a.val (atop 5 d.val (35))))))) := by unfold atop; omega
  obtain ⟨f0, f1, f2, f3, f4, f5, f6, ho⟩ := unpack7 (n1 := 6)  (n2 := 3)  (n3 := 1)  (n4 := 1)  (n5 := 5)  (n6 := 5)  (n7 := 5) (by decide) k.isLt y.toNat_lt x.toNat_lt b.isLt a.isLt d.isLt hw
  have ho : wd / 67108864 = 35 := ho
  refine decode_of_raw (by rw [ho]; rfl) ?_ hwf
  unfold decodeRaw
  rw [ho]
  show decodeOp23 wd = _
  unfold decodeOp23
  have c0 : fld wd 0 6 = 8 := f0
  refine Eq.trans ((if_neg (fun hh => absurd (c0.symm.trans hh) (by decide))).trans ((if_neg (fun hh => absurd (c0.symm.trans hh) (by decide))).trans ((if_neg (fun hh => absurd (c0.symm.trans hh) (by decide))).trans ((if_neg (fun hh => absurd (c0.symm.trans hh) (by decide))).trans ((if_neg (fun hh => absurd (c0.symm.trans hh) (by decide))).trans ((if_neg (fun hh => absurd (c0.symm.trans hh) (by decide))).trans ((if_neg (fun hh => absurd (c0.symm.trans hh) (by decide))).trans ((if_neg (fun hh => absurd (c0.symm.trans hh) (by decide))).trans ((if_pos c0)))))))))) ?_
  rw [(fin_of_fld (d := d) (m := fld wd 21 5) (f6)), (fin_of_fld (d := a) (m := fld wd 16 5) (f5)), (fin_of_fld (d := b) (m := fld wd 11 5) (f4)), (bit_of_fld (b := x) (lo := 10) (w := wd) (f3)), (bit_of_fld (b := y) (lo := 9) (w := wd) (f2)), (fin_of_fld (d := k) (m := fld wd 6 3) (f1))]

theorem EncodeDecode.vfnmsub (d : Fin 32) (a : Fin 32) (b : Fin 32) (x : Bool) (y : Bool) (k : Fin 8) : EncodeDecode.Statement (.vfnmsub d a b x y k) := by
  intro wd hwf hw
  have hw : 2348810249 + d.val * 2097152 + a.val * 65536 + b.val * 2048 + x.toNat * 1024 + y.toNat * 512 + k.val * 64 = wd := Option.some.inj hw
  have hw : wd = atop 6 9 (atop 3 k.val (atop 1 y.toNat (atop 1 x.toNat (atop 5 b.val (atop 5 a.val (atop 5 d.val (35))))))) := by unfold atop; omega
  obtain ⟨f0, f1, f2, f3, f4, f5, f6, ho⟩ := unpack7 (n1 := 6)  (n2 := 3)  (n3 := 1)  (n4 := 1)  (n5 := 5)  (n6 := 5)  (n7 := 5) (by decide) k.isLt y.toNat_lt x.toNat_lt b.isLt a.isLt d.isLt hw
  have ho : wd / 67108864 = 35 := ho
  refine decode_of_raw (by rw [ho]; rfl) ?_ hwf
  unfold decodeRaw
  rw [ho]
  show decodeOp23 wd = _
  unfold decodeOp23
  have c0 : fld wd 0 6 = 9 := f0
  refine Eq.trans ((if_neg (fun hh => absurd (c0.symm.trans hh) (by decide))).trans ((if_neg (fun hh => absurd (c0.symm.trans hh) (by decide))).trans ((if_neg (fun hh => absurd (c0.symm.trans hh) (by decide))).trans ((if_neg (fun hh => absurd (c0.symm.trans hh) (by decide))).trans ((if_neg (fun hh => absurd (c0.symm.trans hh) (by decide))).trans ((if_neg (fun hh => absurd (c0.symm.trans hh) (by decide))).trans ((if_neg (fun hh => absurd (c0.symm.trans hh) (by decide))).trans ((if_neg (fun hh => absurd (c0.symm.trans hh) (by decide))).trans ((if_neg (fun hh => absurd (c0.symm.trans hh) (by decide))).trans ((if_pos c0))))))))))) ?_
  rw [(fin_of_fld (d := d) (m := fld wd 21 5) (f6)), (fin_of_fld (d := a) (m := fld wd 16 5) (f5)), (fin_of_fld (d := b) (m := fld wd 11 5) (f4)), (bit_of_fld (b := x) (lo := 10) (w := wd) (f3)), (bit_of_fld (b := y) (lo := 9) (w := wd) (f2)), (fin_of_fld (d := k) (m := fld wd 6 3) (f1))]

theorem EncodeDecode.vfsgnj (d : Fin 32) (a : Fin 32) (b : Fin 32) (x : Bool) (y : Bool) (k : Fin 8) : EncodeDecode.Statement (.vfsgnj d a b x y k) := by
  intro wd hwf hw
  have hw : 2348810250 + d.val * 2097152 + a.val * 65536 + b.val * 2048 + x.toNat * 1024 + y.toNat * 512 + k.val * 64 = wd := Option.some.inj hw
  have hw : wd = atop 6 10 (atop 3 k.val (atop 1 y.toNat (atop 1 x.toNat (atop 5 b.val (atop 5 a.val (atop 5 d.val (35))))))) := by unfold atop; omega
  obtain ⟨f0, f1, f2, f3, f4, f5, f6, ho⟩ := unpack7 (n1 := 6)  (n2 := 3)  (n3 := 1)  (n4 := 1)  (n5 := 5)  (n6 := 5)  (n7 := 5) (by decide) k.isLt y.toNat_lt x.toNat_lt b.isLt a.isLt d.isLt hw
  have ho : wd / 67108864 = 35 := ho
  refine decode_of_raw (by rw [ho]; rfl) ?_ hwf
  unfold decodeRaw
  rw [ho]
  show decodeOp23 wd = _
  unfold decodeOp23
  have c0 : fld wd 0 6 = 10 := f0
  refine Eq.trans ((if_neg (fun hh => absurd (c0.symm.trans hh) (by decide))).trans ((if_neg (fun hh => absurd (c0.symm.trans hh) (by decide))).trans ((if_neg (fun hh => absurd (c0.symm.trans hh) (by decide))).trans ((if_neg (fun hh => absurd (c0.symm.trans hh) (by decide))).trans ((if_neg (fun hh => absurd (c0.symm.trans hh) (by decide))).trans ((if_neg (fun hh => absurd (c0.symm.trans hh) (by decide))).trans ((if_neg (fun hh => absurd (c0.symm.trans hh) (by decide))).trans ((if_neg (fun hh => absurd (c0.symm.trans hh) (by decide))).trans ((if_neg (fun hh => absurd (c0.symm.trans hh) (by decide))).trans ((if_neg (fun hh => absurd (c0.symm.trans hh) (by decide))).trans ((if_pos c0)))))))))))) ?_
  rw [(fin_of_fld (d := d) (m := fld wd 21 5) (f6)), (fin_of_fld (d := a) (m := fld wd 16 5) (f5)), (fin_of_fld (d := b) (m := fld wd 11 5) (f4)), (bit_of_fld (b := x) (lo := 10) (w := wd) (f3)), (bit_of_fld (b := y) (lo := 9) (w := wd) (f2)), (fin_of_fld (d := k) (m := fld wd 6 3) (f1))]

theorem EncodeDecode.vfsgnjn (d : Fin 32) (a : Fin 32) (b : Fin 32) (x : Bool) (y : Bool) (k : Fin 8) : EncodeDecode.Statement (.vfsgnjn d a b x y k) := by
  intro wd hwf hw
  have hw : 2348810251 + d.val * 2097152 + a.val * 65536 + b.val * 2048 + x.toNat * 1024 + y.toNat * 512 + k.val * 64 = wd := Option.some.inj hw
  have hw : wd = atop 6 11 (atop 3 k.val (atop 1 y.toNat (atop 1 x.toNat (atop 5 b.val (atop 5 a.val (atop 5 d.val (35))))))) := by unfold atop; omega
  obtain ⟨f0, f1, f2, f3, f4, f5, f6, ho⟩ := unpack7 (n1 := 6)  (n2 := 3)  (n3 := 1)  (n4 := 1)  (n5 := 5)  (n6 := 5)  (n7 := 5) (by decide) k.isLt y.toNat_lt x.toNat_lt b.isLt a.isLt d.isLt hw
  have ho : wd / 67108864 = 35 := ho
  refine decode_of_raw (by rw [ho]; rfl) ?_ hwf
  unfold decodeRaw
  rw [ho]
  show decodeOp23 wd = _
  unfold decodeOp23
  have c0 : fld wd 0 6 = 11 := f0
  refine Eq.trans ((if_neg (fun hh => absurd (c0.symm.trans hh) (by decide))).trans ((if_neg (fun hh => absurd (c0.symm.trans hh) (by decide))).trans ((if_neg (fun hh => absurd (c0.symm.trans hh) (by decide))).trans ((if_neg (fun hh => absurd (c0.symm.trans hh) (by decide))).trans ((if_neg (fun hh => absurd (c0.symm.trans hh) (by decide))).trans ((if_neg (fun hh => absurd (c0.symm.trans hh) (by decide))).trans ((if_neg (fun hh => absurd (c0.symm.trans hh) (by decide))).trans ((if_neg (fun hh => absurd (c0.symm.trans hh) (by decide))).trans ((if_neg (fun hh => absurd (c0.symm.trans hh) (by decide))).trans ((if_neg (fun hh => absurd (c0.symm.trans hh) (by decide))).trans ((if_neg (fun hh => absurd (c0.symm.trans hh) (by decide))).trans ((if_pos c0))))))))))))) ?_
  rw [(fin_of_fld (d := d) (m := fld wd 21 5) (f6)), (fin_of_fld (d := a) (m := fld wd 16 5) (f5)), (fin_of_fld (d := b) (m := fld wd 11 5) (f4)), (bit_of_fld (b := x) (lo := 10) (w := wd) (f3)), (bit_of_fld (b := y) (lo := 9) (w := wd) (f2)), (fin_of_fld (d := k) (m := fld wd 6 3) (f1))]

theorem EncodeDecode.vfsqrt (d : Fin 32) (a : Fin 32) (x : Bool) (k : Fin 8) : EncodeDecode.Statement (.vfsqrt d a x k) := by
  intro wd hwf hw
  have hw : 2348810252 + d.val * 2097152 + a.val * 65536 + x.toNat * 1024 + k.val * 64 = wd := Option.some.inj hw
  have hw : wd = atop 6 12 (atop 3 k.val (atop 1 0 (atop 1 x.toNat (atop 5 0 (atop 5 a.val (atop 5 d.val (35))))))) := by unfold atop; omega
  obtain ⟨f0, f1, f2, f3, f4, f5, f6, ho⟩ := unpack7 (n1 := 6)  (n2 := 3)  (n3 := 1)  (n4 := 1)  (n5 := 5)  (n6 := 5)  (n7 := 5) (by decide) k.isLt (by decide) x.toNat_lt (by decide) a.isLt d.isLt hw
  have ho : wd / 67108864 = 35 := ho
  refine decode_of_raw (by rw [ho]; rfl) ?_ hwf
  unfold decodeRaw
  rw [ho]
  show decodeOp23 wd = _
  unfold decodeOp23
  have c0 : fld wd 0 6 = 12 := f0
  have c1 : fld wd 9 1 = 0 := f2
  have c2 : fld wd 11 5 = 0 := f4
  refine Eq.trans ((if_neg (fun hh => absurd (c0.symm.trans hh) (by decide))).trans ((if_neg (fun hh => absurd (c0.symm.trans hh) (by decide))).trans ((if_neg (fun hh => absurd (c0.symm.trans hh) (by decide))).trans ((if_neg (fun hh => absurd (c0.symm.trans hh) (by decide))).trans ((if_neg (fun hh => absurd (c0.symm.trans hh) (by decide))).trans ((if_neg (fun hh => absurd (c0.symm.trans hh) (by decide))).trans ((if_neg (fun hh => absurd (c0.symm.trans hh) (by decide))).trans ((if_neg (fun hh => absurd (c0.symm.trans hh) (by decide))).trans ((if_neg (fun hh => absurd (c0.symm.trans hh) (by decide))).trans ((if_neg (fun hh => absurd (c0.symm.trans hh) (by decide))).trans ((if_neg (fun hh => absurd (c0.symm.trans hh) (by decide))).trans ((if_neg (fun hh => absurd (c0.symm.trans hh) (by decide))).trans ((if_pos ⟨c0, c1, c2⟩)))))))))))))) ?_
  rw [(fin_of_fld (d := d) (m := fld wd 21 5) (f6)), (fin_of_fld (d := a) (m := fld wd 16 5) (f5)), (bit_of_fld (b := x) (lo := 10) (w := wd) (f3)), (fin_of_fld (d := k) (m := fld wd 6 3) (f1))]

theorem EncodeDecode.vfrcp (d : Fin 32) (a : Fin 32) (x : Bool) (k : Fin 8) : EncodeDecode.Statement (.vfrcp d a x k) := by
  intro wd hwf hw
  have hw : 2348810253 + d.val * 2097152 + a.val * 65536 + x.toNat * 1024 + k.val * 64 = wd := Option.some.inj hw
  have hw : wd = atop 6 13 (atop 3 k.val (atop 1 0 (atop 1 x.toNat (atop 5 0 (atop 5 a.val (atop 5 d.val (35))))))) := by unfold atop; omega
  obtain ⟨f0, f1, f2, f3, f4, f5, f6, ho⟩ := unpack7 (n1 := 6)  (n2 := 3)  (n3 := 1)  (n4 := 1)  (n5 := 5)  (n6 := 5)  (n7 := 5) (by decide) k.isLt (by decide) x.toNat_lt (by decide) a.isLt d.isLt hw
  have ho : wd / 67108864 = 35 := ho
  refine decode_of_raw (by rw [ho]; rfl) ?_ hwf
  unfold decodeRaw
  rw [ho]
  show decodeOp23 wd = _
  unfold decodeOp23
  have c0 : fld wd 0 6 = 13 := f0
  have c1 : fld wd 9 1 = 0 := f2
  have c2 : fld wd 11 5 = 0 := f4
  refine Eq.trans ((if_neg (fun hh => absurd (c0.symm.trans hh) (by decide))).trans ((if_neg (fun hh => absurd (c0.symm.trans hh) (by decide))).trans ((if_neg (fun hh => absurd (c0.symm.trans hh) (by decide))).trans ((if_neg (fun hh => absurd (c0.symm.trans hh) (by decide))).trans ((if_neg (fun hh => absurd (c0.symm.trans hh) (by decide))).trans ((if_neg (fun hh => absurd (c0.symm.trans hh) (by decide))).trans ((if_neg (fun hh => absurd (c0.symm.trans hh) (by decide))).trans ((if_neg (fun hh => absurd (c0.symm.trans hh) (by decide))).trans ((if_neg (fun hh => absurd (c0.symm.trans hh) (by decide))).trans ((if_neg (fun hh => absurd (c0.symm.trans hh) (by decide))).trans ((if_neg (fun hh => absurd (c0.symm.trans hh) (by decide))).trans ((if_neg (fun hh => absurd (c0.symm.trans hh) (by decide))).trans ((if_neg (fun hh => absurd (c0.symm.trans hh.1) (by decide))).trans ((if_pos ⟨c0, c1, c2⟩))))))))))))))) ?_
  rw [(fin_of_fld (d := d) (m := fld wd 21 5) (f6)), (fin_of_fld (d := a) (m := fld wd 16 5) (f5)), (bit_of_fld (b := x) (lo := 10) (w := wd) (f3)), (fin_of_fld (d := k) (m := fld wd 6 3) (f1))]

theorem EncodeDecode.vfrsq (d : Fin 32) (a : Fin 32) (x : Bool) (k : Fin 8) : EncodeDecode.Statement (.vfrsq d a x k) := by
  intro wd hwf hw
  have hw : 2348810254 + d.val * 2097152 + a.val * 65536 + x.toNat * 1024 + k.val * 64 = wd := Option.some.inj hw
  have hw : wd = atop 6 14 (atop 3 k.val (atop 1 0 (atop 1 x.toNat (atop 5 0 (atop 5 a.val (atop 5 d.val (35))))))) := by unfold atop; omega
  obtain ⟨f0, f1, f2, f3, f4, f5, f6, ho⟩ := unpack7 (n1 := 6)  (n2 := 3)  (n3 := 1)  (n4 := 1)  (n5 := 5)  (n6 := 5)  (n7 := 5) (by decide) k.isLt (by decide) x.toNat_lt (by decide) a.isLt d.isLt hw
  have ho : wd / 67108864 = 35 := ho
  refine decode_of_raw (by rw [ho]; rfl) ?_ hwf
  unfold decodeRaw
  rw [ho]
  show decodeOp23 wd = _
  unfold decodeOp23
  have c0 : fld wd 0 6 = 14 := f0
  have c1 : fld wd 9 1 = 0 := f2
  have c2 : fld wd 11 5 = 0 := f4
  refine Eq.trans ((if_neg (fun hh => absurd (c0.symm.trans hh) (by decide))).trans ((if_neg (fun hh => absurd (c0.symm.trans hh) (by decide))).trans ((if_neg (fun hh => absurd (c0.symm.trans hh) (by decide))).trans ((if_neg (fun hh => absurd (c0.symm.trans hh) (by decide))).trans ((if_neg (fun hh => absurd (c0.symm.trans hh) (by decide))).trans ((if_neg (fun hh => absurd (c0.symm.trans hh) (by decide))).trans ((if_neg (fun hh => absurd (c0.symm.trans hh) (by decide))).trans ((if_neg (fun hh => absurd (c0.symm.trans hh) (by decide))).trans ((if_neg (fun hh => absurd (c0.symm.trans hh) (by decide))).trans ((if_neg (fun hh => absurd (c0.symm.trans hh) (by decide))).trans ((if_neg (fun hh => absurd (c0.symm.trans hh) (by decide))).trans ((if_neg (fun hh => absurd (c0.symm.trans hh) (by decide))).trans ((if_neg (fun hh => absurd (c0.symm.trans hh.1) (by decide))).trans ((if_neg (fun hh => absurd (c0.symm.trans hh.1) (by decide))).trans ((if_pos ⟨c0, c1, c2⟩)))))))))))))))) ?_
  rw [(fin_of_fld (d := d) (m := fld wd 21 5) (f6)), (fin_of_fld (d := a) (m := fld wd 16 5) (f5)), (bit_of_fld (b := x) (lo := 10) (w := wd) (f3)), (fin_of_fld (d := k) (m := fld wd 6 3) (f1))]

theorem EncodeDecode.vfexp2 (d : Fin 32) (a : Fin 32) (x : Bool) (k : Fin 8) : EncodeDecode.Statement (.vfexp2 d a x k) := by
  intro wd hwf hw
  have hw : 2348810255 + d.val * 2097152 + a.val * 65536 + x.toNat * 1024 + k.val * 64 = wd := Option.some.inj hw
  have hw : wd = atop 6 15 (atop 3 k.val (atop 1 0 (atop 1 x.toNat (atop 5 0 (atop 5 a.val (atop 5 d.val (35))))))) := by unfold atop; omega
  obtain ⟨f0, f1, f2, f3, f4, f5, f6, ho⟩ := unpack7 (n1 := 6)  (n2 := 3)  (n3 := 1)  (n4 := 1)  (n5 := 5)  (n6 := 5)  (n7 := 5) (by decide) k.isLt (by decide) x.toNat_lt (by decide) a.isLt d.isLt hw
  have ho : wd / 67108864 = 35 := ho
  refine decode_of_raw (by rw [ho]; rfl) ?_ hwf
  unfold decodeRaw
  rw [ho]
  show decodeOp23 wd = _
  unfold decodeOp23
  have c0 : fld wd 0 6 = 15 := f0
  have c1 : fld wd 9 1 = 0 := f2
  have c2 : fld wd 11 5 = 0 := f4
  refine Eq.trans ((if_neg (fun hh => absurd (c0.symm.trans hh) (by decide))).trans ((if_neg (fun hh => absurd (c0.symm.trans hh) (by decide))).trans ((if_neg (fun hh => absurd (c0.symm.trans hh) (by decide))).trans ((if_neg (fun hh => absurd (c0.symm.trans hh) (by decide))).trans ((if_neg (fun hh => absurd (c0.symm.trans hh) (by decide))).trans ((if_neg (fun hh => absurd (c0.symm.trans hh) (by decide))).trans ((if_neg (fun hh => absurd (c0.symm.trans hh) (by decide))).trans ((if_neg (fun hh => absurd (c0.symm.trans hh) (by decide))).trans ((if_neg (fun hh => absurd (c0.symm.trans hh) (by decide))).trans ((if_neg (fun hh => absurd (c0.symm.trans hh) (by decide))).trans ((if_neg (fun hh => absurd (c0.symm.trans hh) (by decide))).trans ((if_neg (fun hh => absurd (c0.symm.trans hh) (by decide))).trans ((if_neg (fun hh => absurd (c0.symm.trans hh.1) (by decide))).trans ((if_neg (fun hh => absurd (c0.symm.trans hh.1) (by decide))).trans ((if_neg (fun hh => absurd (c0.symm.trans hh.1) (by decide))).trans ((if_pos ⟨c0, c1, c2⟩))))))))))))))))) ?_
  rw [(fin_of_fld (d := d) (m := fld wd 21 5) (f6)), (fin_of_fld (d := a) (m := fld wd 16 5) (f5)), (bit_of_fld (b := x) (lo := 10) (w := wd) (f3)), (fin_of_fld (d := k) (m := fld wd 6 3) (f1))]

theorem EncodeDecode.vflog2 (d : Fin 32) (a : Fin 32) (x : Bool) (k : Fin 8) : EncodeDecode.Statement (.vflog2 d a x k) := by
  intro wd hwf hw
  have hw : 2348810256 + d.val * 2097152 + a.val * 65536 + x.toNat * 1024 + k.val * 64 = wd := Option.some.inj hw
  have hw : wd = atop 6 16 (atop 3 k.val (atop 1 0 (atop 1 x.toNat (atop 5 0 (atop 5 a.val (atop 5 d.val (35))))))) := by unfold atop; omega
  obtain ⟨f0, f1, f2, f3, f4, f5, f6, ho⟩ := unpack7 (n1 := 6)  (n2 := 3)  (n3 := 1)  (n4 := 1)  (n5 := 5)  (n6 := 5)  (n7 := 5) (by decide) k.isLt (by decide) x.toNat_lt (by decide) a.isLt d.isLt hw
  have ho : wd / 67108864 = 35 := ho
  refine decode_of_raw (by rw [ho]; rfl) ?_ hwf
  unfold decodeRaw
  rw [ho]
  show decodeOp23 wd = _
  unfold decodeOp23
  have c0 : fld wd 0 6 = 16 := f0
  have c1 : fld wd 9 1 = 0 := f2
  have c2 : fld wd 11 5 = 0 := f4
  refine Eq.trans ((if_neg (fun hh => absurd (c0.symm.trans hh) (by decide))).trans ((if_neg (fun hh => absurd (c0.symm.trans hh) (by decide))).trans ((if_neg (fun hh => absurd (c0.symm.trans hh) (by decide))).trans ((if_neg (fun hh => absurd (c0.symm.trans hh) (by decide))).trans ((if_neg (fun hh => absurd (c0.symm.trans hh) (by decide))).trans ((if_neg (fun hh => absurd (c0.symm.trans hh) (by decide))).trans ((if_neg (fun hh => absurd (c0.symm.trans hh) (by decide))).trans ((if_neg (fun hh => absurd (c0.symm.trans hh) (by decide))).trans ((if_neg (fun hh => absurd (c0.symm.trans hh) (by decide))).trans ((if_neg (fun hh => absurd (c0.symm.trans hh) (by decide))).trans ((if_neg (fun hh => absurd (c0.symm.trans hh) (by decide))).trans ((if_neg (fun hh => absurd (c0.symm.trans hh) (by decide))).trans ((if_neg (fun hh => absurd (c0.symm.trans hh.1) (by decide))).trans ((if_neg (fun hh => absurd (c0.symm.trans hh.1) (by decide))).trans ((if_neg (fun hh => absurd (c0.symm.trans hh.1) (by decide))).trans ((if_neg (fun hh => absurd (c0.symm.trans hh.1) (by decide))).trans ((if_pos ⟨c0, c1, c2⟩)))))))))))))))))) ?_
  rw [(fin_of_fld (d := d) (m := fld wd 21 5) (f6)), (fin_of_fld (d := a) (m := fld wd 16 5) (f5)), (bit_of_fld (b := x) (lo := 10) (w := wd) (f3)), (fin_of_fld (d := k) (m := fld wd 6 3) (f1))]

theorem EncodeDecode.vfsin (d : Fin 32) (a : Fin 32) (x : Bool) (k : Fin 8) : EncodeDecode.Statement (.vfsin d a x k) := by
  intro wd hwf hw
  have hw : 2348810257 + d.val * 2097152 + a.val * 65536 + x.toNat * 1024 + k.val * 64 = wd := Option.some.inj hw
  have hw : wd = atop 6 17 (atop 3 k.val (atop 1 0 (atop 1 x.toNat (atop 5 0 (atop 5 a.val (atop 5 d.val (35))))))) := by unfold atop; omega
  obtain ⟨f0, f1, f2, f3, f4, f5, f6, ho⟩ := unpack7 (n1 := 6)  (n2 := 3)  (n3 := 1)  (n4 := 1)  (n5 := 5)  (n6 := 5)  (n7 := 5) (by decide) k.isLt (by decide) x.toNat_lt (by decide) a.isLt d.isLt hw
  have ho : wd / 67108864 = 35 := ho
  refine decode_of_raw (by rw [ho]; rfl) ?_ hwf
  unfold decodeRaw
  rw [ho]
  show decodeOp23 wd = _
  unfold decodeOp23
  have c0 : fld wd 0 6 = 17 := f0
  have c1 : fld wd 9 1 = 0 := f2
  have c2 : fld wd 11 5 = 0 := f4
  refine Eq.trans ((if_neg (fun hh => absurd (c0.symm.trans hh) (by decide))).trans ((if_neg (fun hh => absurd (c0.symm.trans hh) (by decide))).trans ((if_neg (fun hh => absurd (c0.symm.trans hh) (by decide))).trans ((if_neg (fun hh => absurd (c0.symm.trans hh) (by decide))).trans ((if_neg (fun hh => absurd (c0.symm.trans hh) (by decide))).trans ((if_neg (fun hh => absurd (c0.symm.trans hh) (by decide))).trans ((if_neg (fun hh => absurd (c0.symm.trans hh) (by decide))).trans ((if_neg (fun hh => absurd (c0.symm.trans hh) (by decide))).trans ((if_neg (fun hh => absurd (c0.symm.trans hh) (by decide))).trans ((if_neg (fun hh => absurd (c0.symm.trans hh) (by decide))).trans ((if_neg (fun hh => absurd (c0.symm.trans hh) (by decide))).trans ((if_neg (fun hh => absurd (c0.symm.trans hh) (by decide))).trans ((if_neg (fun hh => absurd (c0.symm.trans hh.1) (by decide))).trans ((if_neg (fun hh => absurd (c0.symm.trans hh.1) (by decide))).trans ((if_neg (fun hh => absurd (c0.symm.trans hh.1) (by decide))).trans ((if_neg (fun hh => absurd (c0.symm.trans hh.1) (by decide))).trans ((if_neg (fun hh => absurd (c0.symm.trans hh.1) (by decide))).trans ((if_pos ⟨c0, c1, c2⟩))))))))))))))))))) ?_
  rw [(fin_of_fld (d := d) (m := fld wd 21 5) (f6)), (fin_of_fld (d := a) (m := fld wd 16 5) (f5)), (bit_of_fld (b := x) (lo := 10) (w := wd) (f3)), (fin_of_fld (d := k) (m := fld wd 6 3) (f1))]

theorem EncodeDecode.vfcos (d : Fin 32) (a : Fin 32) (x : Bool) (k : Fin 8) : EncodeDecode.Statement (.vfcos d a x k) := by
  intro wd hwf hw
  have hw : 2348810258 + d.val * 2097152 + a.val * 65536 + x.toNat * 1024 + k.val * 64 = wd := Option.some.inj hw
  have hw : wd = atop 6 18 (atop 3 k.val (atop 1 0 (atop 1 x.toNat (atop 5 0 (atop 5 a.val (atop 5 d.val (35))))))) := by unfold atop; omega
  obtain ⟨f0, f1, f2, f3, f4, f5, f6, ho⟩ := unpack7 (n1 := 6)  (n2 := 3)  (n3 := 1)  (n4 := 1)  (n5 := 5)  (n6 := 5)  (n7 := 5) (by decide) k.isLt (by decide) x.toNat_lt (by decide) a.isLt d.isLt hw
  have ho : wd / 67108864 = 35 := ho
  refine decode_of_raw (by rw [ho]; rfl) ?_ hwf
  unfold decodeRaw
  rw [ho]
  show decodeOp23 wd = _
  unfold decodeOp23
  have c0 : fld wd 0 6 = 18 := f0
  have c1 : fld wd 9 1 = 0 := f2
  have c2 : fld wd 11 5 = 0 := f4
  refine Eq.trans ((if_neg (fun hh => absurd (c0.symm.trans hh) (by decide))).trans ((if_neg (fun hh => absurd (c0.symm.trans hh) (by decide))).trans ((if_neg (fun hh => absurd (c0.symm.trans hh) (by decide))).trans ((if_neg (fun hh => absurd (c0.symm.trans hh) (by decide))).trans ((if_neg (fun hh => absurd (c0.symm.trans hh) (by decide))).trans ((if_neg (fun hh => absurd (c0.symm.trans hh) (by decide))).trans ((if_neg (fun hh => absurd (c0.symm.trans hh) (by decide))).trans ((if_neg (fun hh => absurd (c0.symm.trans hh) (by decide))).trans ((if_neg (fun hh => absurd (c0.symm.trans hh) (by decide))).trans ((if_neg (fun hh => absurd (c0.symm.trans hh) (by decide))).trans ((if_neg (fun hh => absurd (c0.symm.trans hh) (by decide))).trans ((if_neg (fun hh => absurd (c0.symm.trans hh) (by decide))).trans ((if_neg (fun hh => absurd (c0.symm.trans hh.1) (by decide))).trans ((if_neg (fun hh => absurd (c0.symm.trans hh.1) (by decide))).trans ((if_neg (fun hh => absurd (c0.symm.trans hh.1) (by decide))).trans ((if_neg (fun hh => absurd (c0.symm.trans hh.1) (by decide))).trans ((if_neg (fun hh => absurd (c0.symm.trans hh.1) (by decide))).trans ((if_neg (fun hh => absurd (c0.symm.trans hh.1) (by decide))).trans ((if_pos ⟨c0, c1, c2⟩)))))))))))))))))))) ?_
  rw [(fin_of_fld (d := d) (m := fld wd 21 5) (f6)), (fin_of_fld (d := a) (m := fld wd 16 5) (f5)), (bit_of_fld (b := x) (lo := 10) (w := wd) (f3)), (fin_of_fld (d := k) (m := fld wd 6 3) (f1))]

theorem EncodeDecode.vfabs (d : Fin 32) (a : Fin 32) (x : Bool) (k : Fin 8) : EncodeDecode.Statement (.vfabs d a x k) := by
  intro wd hwf hw
  have hw : 2348810259 + d.val * 2097152 + a.val * 65536 + x.toNat * 1024 + k.val * 64 = wd := Option.some.inj hw
  have hw : wd = atop 6 19 (atop 3 k.val (atop 1 0 (atop 1 x.toNat (atop 5 0 (atop 5 a.val (atop 5 d.val (35))))))) := by unfold atop; omega
  obtain ⟨f0, f1, f2, f3, f4, f5, f6, ho⟩ := unpack7 (n1 := 6)  (n2 := 3)  (n3 := 1)  (n4 := 1)  (n5 := 5)  (n6 := 5)  (n7 := 5) (by decide) k.isLt (by decide) x.toNat_lt (by decide) a.isLt d.isLt hw
  have ho : wd / 67108864 = 35 := ho
  refine decode_of_raw (by rw [ho]; rfl) ?_ hwf
  unfold decodeRaw
  rw [ho]
  show decodeOp23 wd = _
  unfold decodeOp23
  have c0 : fld wd 0 6 = 19 := f0
  have c1 : fld wd 9 1 = 0 := f2
  have c2 : fld wd 11 5 = 0 := f4
  refine Eq.trans ((if_neg (fun hh => absurd (c0.symm.trans hh) (by decide))).trans ((if_neg (fun hh => absurd (c0.symm.trans hh) (by decide))).trans ((if_neg (fun hh => absurd (c0.symm.trans hh) (by decide))).trans ((if_neg (fun hh => absurd (c0.symm.trans hh) (by decide))).trans ((if_neg (fun hh => absurd (c0.symm.trans hh) (by decide))).trans ((if_neg (fun hh => absurd (c0.symm.trans hh) (by decide))).trans ((if_neg (fun hh => absurd (c0.symm.trans hh) (by decide))).trans ((if_neg (fun hh => absurd (c0.symm.trans hh) (by decide))).trans ((if_neg (fun hh => absurd (c0.symm.trans hh) (by decide))).trans ((if_neg (fun hh => absurd (c0.symm.trans hh) (by decide))).trans ((if_neg (fun hh => absurd (c0.symm.trans hh) (by decide))).trans ((if_neg (fun hh => absurd (c0.symm.trans hh) (by decide))).trans ((if_neg (fun hh => absurd (c0.symm.trans hh.1) (by decide))).trans ((if_neg (fun hh => absurd (c0.symm.trans hh.1) (by decide))).trans ((if_neg (fun hh => absurd (c0.symm.trans hh.1) (by decide))).trans ((if_neg (fun hh => absurd (c0.symm.trans hh.1) (by decide))).trans ((if_neg (fun hh => absurd (c0.symm.trans hh.1) (by decide))).trans ((if_neg (fun hh => absurd (c0.symm.trans hh.1) (by decide))).trans ((if_neg (fun hh => absurd (c0.symm.trans hh.1) (by decide))).trans ((if_pos ⟨c0, c1, c2⟩))))))))))))))))))))) ?_
  rw [(fin_of_fld (d := d) (m := fld wd 21 5) (f6)), (fin_of_fld (d := a) (m := fld wd 16 5) (f5)), (bit_of_fld (b := x) (lo := 10) (w := wd) (f3)), (fin_of_fld (d := k) (m := fld wd 6 3) (f1))]

theorem EncodeDecode.vfneg (d : Fin 32) (a : Fin 32) (x : Bool) (k : Fin 8) : EncodeDecode.Statement (.vfneg d a x k) := by
  intro wd hwf hw
  have hw : 2348810260 + d.val * 2097152 + a.val * 65536 + x.toNat * 1024 + k.val * 64 = wd := Option.some.inj hw
  have hw : wd = atop 6 20 (atop 3 k.val (atop 1 0 (atop 1 x.toNat (atop 5 0 (atop 5 a.val (atop 5 d.val (35))))))) := by unfold atop; omega
  obtain ⟨f0, f1, f2, f3, f4, f5, f6, ho⟩ := unpack7 (n1 := 6)  (n2 := 3)  (n3 := 1)  (n4 := 1)  (n5 := 5)  (n6 := 5)  (n7 := 5) (by decide) k.isLt (by decide) x.toNat_lt (by decide) a.isLt d.isLt hw
  have ho : wd / 67108864 = 35 := ho
  refine decode_of_raw (by rw [ho]; rfl) ?_ hwf
  unfold decodeRaw
  rw [ho]
  show decodeOp23 wd = _
  unfold decodeOp23
  have c0 : fld wd 0 6 = 20 := f0
  have c1 : fld wd 9 1 = 0 := f2
  have c2 : fld wd 11 5 = 0 := f4
  refine Eq.trans ((if_neg (fun hh => absurd (c0.symm.trans hh) (by decide))).trans ((if_neg (fun hh => absurd (c0.symm.trans hh) (by decide))).trans ((if_neg (fun hh => absurd (c0.symm.trans hh) (by decide))).trans ((if_neg (fun hh => absurd (c0.symm.trans hh) (by decide))).trans ((if_neg (fun hh => absurd (c0.symm.trans hh) (by decide))).trans ((if_neg (fun hh => absurd (c0.symm.trans hh) (by decide))).trans ((if_neg (fun hh => absurd (c0.symm.trans hh) (by decide))).trans ((if_neg (fun hh => absurd (c0.symm.trans hh) (by decide))).trans ((if_neg (fun hh => absurd (c0.symm.trans hh) (by decide))).trans ((if_neg (fun hh => absurd (c0.symm.trans hh) (by decide))).trans ((if_neg (fun hh => absurd (c0.symm.trans hh) (by decide))).trans ((if_neg (fun hh => absurd (c0.symm.trans hh) (by decide))).trans ((if_neg (fun hh => absurd (c0.symm.trans hh.1) (by decide))).trans ((if_neg (fun hh => absurd (c0.symm.trans hh.1) (by decide))).trans ((if_neg (fun hh => absurd (c0.symm.trans hh.1) (by decide))).trans ((if_neg (fun hh => absurd (c0.symm.trans hh.1) (by decide))).trans ((if_neg (fun hh => absurd (c0.symm.trans hh.1) (by decide))).trans ((if_neg (fun hh => absurd (c0.symm.trans hh.1) (by decide))).trans ((if_neg (fun hh => absurd (c0.symm.trans hh.1) (by decide))).trans ((if_neg (fun hh => absurd (c0.symm.trans hh.1) (by decide))).trans ((if_pos ⟨c0, c1, c2⟩)))))))))))))))))))))) ?_
  rw [(fin_of_fld (d := d) (m := fld wd 21 5) (f6)), (fin_of_fld (d := a) (m := fld wd 16 5) (f5)), (bit_of_fld (b := x) (lo := 10) (w := wd) (f3)), (fin_of_fld (d := k) (m := fld wd 6 3) (f1))]

theorem EncodeDecode.vfclass (d : Fin 32) (a : Fin 32) (x : Bool) (k : Fin 8) : EncodeDecode.Statement (.vfclass d a x k) := by
  intro wd hwf hw
  have hw : 2348810261 + d.val * 2097152 + a.val * 65536 + x.toNat * 1024 + k.val * 64 = wd := Option.some.inj hw
  have hw : wd = atop 6 21 (atop 3 k.val (atop 1 0 (atop 1 x.toNat (atop 5 0 (atop 5 a.val (atop 5 d.val (35))))))) := by unfold atop; omega
  obtain ⟨f0, f1, f2, f3, f4, f5, f6, ho⟩ := unpack7 (n1 := 6)  (n2 := 3)  (n3 := 1)  (n4 := 1)  (n5 := 5)  (n6 := 5)  (n7 := 5) (by decide) k.isLt (by decide) x.toNat_lt (by decide) a.isLt d.isLt hw
  have ho : wd / 67108864 = 35 := ho
  refine decode_of_raw (by rw [ho]; rfl) ?_ hwf
  unfold decodeRaw
  rw [ho]
  show decodeOp23 wd = _
  unfold decodeOp23
  have c0 : fld wd 0 6 = 21 := f0
  have c1 : fld wd 9 1 = 0 := f2
  have c2 : fld wd 11 5 = 0 := f4
  refine Eq.trans ((if_neg (fun hh => absurd (c0.symm.trans hh) (by decide))).trans ((if_neg (fun hh => absurd (c0.symm.trans hh) (by decide))).trans ((if_neg (fun hh => absurd (c0.symm.trans hh) (by decide))).trans ((if_neg (fun hh => absurd (c0.symm.trans hh) (by decide))).trans ((if_neg (fun hh => absurd (c0.symm.trans hh) (by decide))).trans ((if_neg (fun hh => absurd (c0.symm.trans hh) (by decide))).trans ((if_neg (fun hh => absurd (c0.symm.trans hh) (by decide))).trans ((if_neg (fun hh => absurd (c0.symm.trans hh) (by decide))).trans ((if_neg (fun hh => absurd (c0.symm.trans hh) (by decide))).trans ((if_neg (fun hh => absurd (c0.symm.trans hh) (by decide))).trans ((if_neg (fun hh => absurd (c0.symm.trans hh) (by decide))).trans ((if_neg (fun hh => absurd (c0.symm.trans hh) (by decide))).trans ((if_neg (fun hh => absurd (c0.symm.trans hh.1) (by decide))).trans ((if_neg (fun hh => absurd (c0.symm.trans hh.1) (by decide))).trans ((if_neg (fun hh => absurd (c0.symm.trans hh.1) (by decide))).trans ((if_neg (fun hh => absurd (c0.symm.trans hh.1) (by decide))).trans ((if_neg (fun hh => absurd (c0.symm.trans hh.1) (by decide))).trans ((if_neg (fun hh => absurd (c0.symm.trans hh.1) (by decide))).trans ((if_neg (fun hh => absurd (c0.symm.trans hh.1) (by decide))).trans ((if_neg (fun hh => absurd (c0.symm.trans hh.1) (by decide))).trans ((if_neg (fun hh => absurd (c0.symm.trans hh.1) (by decide))).trans ((if_pos ⟨c0, c1, c2⟩))))))))))))))))))))))) ?_
  rw [(fin_of_fld (d := d) (m := fld wd 21 5) (f6)), (fin_of_fld (d := a) (m := fld wd 16 5) (f5)), (bit_of_fld (b := x) (lo := 10) (w := wd) (f3)), (fin_of_fld (d := k) (m := fld wd 6 3) (f1))]

theorem EncodeDecode.vfaddX (d : Fin 32) (a : Fin 32) (b : Fin 32) (x : Bool) (k : Fin 8) : EncodeDecode.Statement (.vfaddX d a b x k) := by
  intro wd hwf hw
  have hw : 2415919104 + d.val * 2097152 + a.val * 65536 + b.val * 2048 + x.toNat * 1024 + k.val * 64 = wd := Option.some.inj hw
  have hw : wd = atop 6 0 (atop 3 k.val (atop 1 0 (atop 1 x.toNat (atop 5 b.val (atop 5 a.val (atop 5 d.val (36))))))) := by unfold atop; omega
  obtain ⟨f0, f1, f2, f3, f4, f5, f6, ho⟩ := unpack7 (n1 := 6)  (n2 := 3)  (n3 := 1)  (n4 := 1)  (n5 := 5)  (n6 := 5)  (n7 := 5) (by decide) k.isLt (by decide) x.toNat_lt b.isLt a.isLt d.isLt hw
  have ho : wd / 67108864 = 36 := ho
  refine decode_of_raw (by rw [ho]; rfl) ?_ hwf
  unfold decodeRaw
  rw [ho]
  show decodeOp24 wd = _
  unfold decodeOp24
  have c0 : fld wd 0 6 = 0 := f0
  have c1 : fld wd 9 1 = 0 := f2
  refine Eq.trans ((if_pos ⟨c0, c1⟩)) ?_
  rw [(fin_of_fld (d := d) (m := fld wd 21 5) (f6)), (fin_of_fld (d := a) (m := fld wd 16 5) (f5)), (fin_of_fld (d := b) (m := fld wd 11 5) (f4)), (bit_of_fld (b := x) (lo := 10) (w := wd) (f3)), (fin_of_fld (d := k) (m := fld wd 6 3) (f1))]

theorem EncodeDecode.vfsubX (d : Fin 32) (a : Fin 32) (b : Fin 32) (x : Bool) (k : Fin 8) : EncodeDecode.Statement (.vfsubX d a b x k) := by
  intro wd hwf hw
  have hw : 2415919105 + d.val * 2097152 + a.val * 65536 + b.val * 2048 + x.toNat * 1024 + k.val * 64 = wd := Option.some.inj hw
  have hw : wd = atop 6 1 (atop 3 k.val (atop 1 0 (atop 1 x.toNat (atop 5 b.val (atop 5 a.val (atop 5 d.val (36))))))) := by unfold atop; omega
  obtain ⟨f0, f1, f2, f3, f4, f5, f6, ho⟩ := unpack7 (n1 := 6)  (n2 := 3)  (n3 := 1)  (n4 := 1)  (n5 := 5)  (n6 := 5)  (n7 := 5) (by decide) k.isLt (by decide) x.toNat_lt b.isLt a.isLt d.isLt hw
  have ho : wd / 67108864 = 36 := ho
  refine decode_of_raw (by rw [ho]; rfl) ?_ hwf
  unfold decodeRaw
  rw [ho]
  show decodeOp24 wd = _
  unfold decodeOp24
  have c0 : fld wd 0 6 = 1 := f0
  have c1 : fld wd 9 1 = 0 := f2
  refine Eq.trans ((if_neg (fun hh => absurd (c0.symm.trans hh.1) (by decide))).trans ((if_pos ⟨c0, c1⟩))) ?_
  rw [(fin_of_fld (d := d) (m := fld wd 21 5) (f6)), (fin_of_fld (d := a) (m := fld wd 16 5) (f5)), (fin_of_fld (d := b) (m := fld wd 11 5) (f4)), (bit_of_fld (b := x) (lo := 10) (w := wd) (f3)), (fin_of_fld (d := k) (m := fld wd 6 3) (f1))]

theorem EncodeDecode.vfmulX (d : Fin 32) (a : Fin 32) (b : Fin 32) (x : Bool) (k : Fin 8) : EncodeDecode.Statement (.vfmulX d a b x k) := by
  intro wd hwf hw
  have hw : 2415919106 + d.val * 2097152 + a.val * 65536 + b.val * 2048 + x.toNat * 1024 + k.val * 64 = wd := Option.some.inj hw
  have hw : wd = atop 6 2 (atop 3 k.val (atop 1 0 (atop 1 x.toNat (atop 5 b.val (atop 5 a.val (atop 5 d.val (36))))))) := by unfold atop; omega
  obtain ⟨f0, f1, f2, f3, f4, f5, f6, ho⟩ := unpack7 (n1 := 6)  (n2 := 3)  (n3 := 1)  (n4 := 1)  (n5 := 5)  (n6 := 5)  (n7 := 5) (by decide) k.isLt (by decide) x.toNat_lt b.isLt a.isLt d.isLt hw
  have ho : wd / 67108864 = 36 := ho
  refine decode_of_raw (by rw [ho]; rfl) ?_ hwf
  unfold decodeRaw
  rw [ho]
  show decodeOp24 wd = _
  unfold decodeOp24
  have c0 : fld wd 0 6 = 2 := f0
  have c1 : fld wd 9 1 = 0 := f2
  refine Eq.trans ((if_neg (fun hh => absurd (c0.symm.trans hh.1) (by decide))).trans ((if_neg (fun hh => absurd (c0.symm.trans hh.1) (by decide))).trans ((if_pos ⟨c0, c1⟩)))) ?_
  rw [(fin_of_fld (d := d) (m := fld wd 21 5) (f6)), (fin_of_fld (d := a) (m := fld wd 16 5) (f5)), (fin_of_fld (d := b) (m := fld wd 11 5) (f4)), (bit_of_fld (b := x) (lo := 10) (w := wd) (f3)), (fin_of_fld (d := k) (m := fld wd 6 3) (f1))]

theorem EncodeDecode.vfdivX (d : Fin 32) (a : Fin 32) (b : Fin 32) (x : Bool) (k : Fin 8) : EncodeDecode.Statement (.vfdivX d a b x k) := by
  intro wd hwf hw
  have hw : 2415919107 + d.val * 2097152 + a.val * 65536 + b.val * 2048 + x.toNat * 1024 + k.val * 64 = wd := Option.some.inj hw
  have hw : wd = atop 6 3 (atop 3 k.val (atop 1 0 (atop 1 x.toNat (atop 5 b.val (atop 5 a.val (atop 5 d.val (36))))))) := by unfold atop; omega
  obtain ⟨f0, f1, f2, f3, f4, f5, f6, ho⟩ := unpack7 (n1 := 6)  (n2 := 3)  (n3 := 1)  (n4 := 1)  (n5 := 5)  (n6 := 5)  (n7 := 5) (by decide) k.isLt (by decide) x.toNat_lt b.isLt a.isLt d.isLt hw
  have ho : wd / 67108864 = 36 := ho
  refine decode_of_raw (by rw [ho]; rfl) ?_ hwf
  unfold decodeRaw
  rw [ho]
  show decodeOp24 wd = _
  unfold decodeOp24
  have c0 : fld wd 0 6 = 3 := f0
  have c1 : fld wd 9 1 = 0 := f2
  refine Eq.trans ((if_neg (fun hh => absurd (c0.symm.trans hh.1) (by decide))).trans ((if_neg (fun hh => absurd (c0.symm.trans hh.1) (by decide))).trans ((if_neg (fun hh => absurd (c0.symm.trans hh.1) (by decide))).trans ((if_pos ⟨c0, c1⟩))))) ?_
  rw [(fin_of_fld (d := d) (m := fld wd 21 5) (f6)), (fin_of_fld (d := a) (m := fld wd 16 5) (f5)), (fin_of_fld (d := b) (m := fld wd 11 5) (f4)), (bit_of_fld (b := x) (lo := 10) (w := wd) (f3)), (fin_of_fld (d := k) (m := fld wd 6 3) (f1))]

theorem EncodeDecode.vfminX (d : Fin 32) (a : Fin 32) (b : Fin 32) (x : Bool) (k : Fin 8) : EncodeDecode.Statement (.vfminX d a b x k) := by
  intro wd hwf hw
  have hw : 2415919108 + d.val * 2097152 + a.val * 65536 + b.val * 2048 + x.toNat * 1024 + k.val * 64 = wd := Option.some.inj hw
  have hw : wd = atop 6 4 (atop 3 k.val (atop 1 0 (atop 1 x.toNat (atop 5 b.val (atop 5 a.val (atop 5 d.val (36))))))) := by unfold atop; omega
  obtain ⟨f0, f1, f2, f3, f4, f5, f6, ho⟩ := unpack7 (n1 := 6)  (n2 := 3)  (n3 := 1)  (n4 := 1)  (n5 := 5)  (n6 := 5)  (n7 := 5) (by decide) k.isLt (by decide) x.toNat_lt b.isLt a.isLt d.isLt hw
  have ho : wd / 67108864 = 36 := ho
  refine decode_of_raw (by rw [ho]; rfl) ?_ hwf
  unfold decodeRaw
  rw [ho]
  show decodeOp24 wd = _
  unfold decodeOp24
  have c0 : fld wd 0 6 = 4 := f0
  have c1 : fld wd 9 1 = 0 := f2
  refine Eq.trans ((if_neg (fun hh => absurd (c0.symm.trans hh.1) (by decide))).trans ((if_neg (fun hh => absurd (c0.symm.trans hh.1) (by decide))).trans ((if_neg (fun hh => absurd (c0.symm.trans hh.1) (by decide))).trans ((if_neg (fun hh => absurd (c0.symm.trans hh.1) (by decide))).trans ((if_pos ⟨c0, c1⟩)))))) ?_
  rw [(fin_of_fld (d := d) (m := fld wd 21 5) (f6)), (fin_of_fld (d := a) (m := fld wd 16 5) (f5)), (fin_of_fld (d := b) (m := fld wd 11 5) (f4)), (bit_of_fld (b := x) (lo := 10) (w := wd) (f3)), (fin_of_fld (d := k) (m := fld wd 6 3) (f1))]

theorem EncodeDecode.vfmaxX (d : Fin 32) (a : Fin 32) (b : Fin 32) (x : Bool) (k : Fin 8) : EncodeDecode.Statement (.vfmaxX d a b x k) := by
  intro wd hwf hw
  have hw : 2415919109 + d.val * 2097152 + a.val * 65536 + b.val * 2048 + x.toNat * 1024 + k.val * 64 = wd := Option.some.inj hw
  have hw : wd = atop 6 5 (atop 3 k.val (atop 1 0 (atop 1 x.toNat (atop 5 b.val (atop 5 a.val (atop 5 d.val (36))))))) := by unfold atop; omega
  obtain ⟨f0, f1, f2, f3, f4, f5, f6, ho⟩ := unpack7 (n1 := 6)  (n2 := 3)  (n3 := 1)  (n4 := 1)  (n5 := 5)  (n6 := 5)  (n7 := 5) (by decide) k.isLt (by decide) x.toNat_lt b.isLt a.isLt d.isLt hw
  have ho : wd / 67108864 = 36 := ho
  refine decode_of_raw (by rw [ho]; rfl) ?_ hwf
  unfold decodeRaw
  rw [ho]
  show decodeOp24 wd = _
  unfold decodeOp24
  have c0 : fld wd 0 6 = 5 := f0
  have c1 : fld wd 9 1 = 0 := f2
  refine Eq.trans ((if_neg (fun hh => absurd (c0.symm.trans hh.1) (by decide))).trans ((if_neg (fun hh => absurd (c0.symm.trans hh.1) (by decide))).trans ((if_neg (fun hh => absurd (c0.symm.trans hh.1) (by decide))).trans ((if_neg (fun hh => absurd (c0.symm.trans hh.1) (by decide))).trans ((if_neg (fun hh => absurd (c0.symm.trans hh.1) (by decide))).trans ((if_pos ⟨c0, c1⟩))))))) ?_
  rw [(fin_of_fld (d := d) (m := fld wd 21 5) (f6)), (fin_of_fld (d := a) (m := fld wd 16 5) (f5)), (fin_of_fld (d := b) (m := fld wd 11 5) (f4)), (bit_of_fld (b := x) (lo := 10) (w := wd) (f3)), (fin_of_fld (d := k) (m := fld wd 6 3) (f1))]

theorem EncodeDecode.vfmaddX (d : Fin 32) (a : Fin 32) (b : Fin 32) (x : Bool) (k : Fin 8) : EncodeDecode.Statement (.vfmaddX d a b x k) := by
  intro wd hwf hw
  have hw : 2415919110 + d.val * 2097152 + a.val * 65536 + b.val * 2048 + x.toNat * 1024 + k.val * 64 = wd := Option.some.inj hw
  have hw : wd = atop 6 6 (atop 3 k.val (atop 1 0 (atop 1 x.toNat (atop 5 b.val (atop 5 a.val (atop 5 d.val (36))))))) := by unfold atop; omega
  obtain ⟨f0, f1, f2, f3, f4, f5, f6, ho⟩ := unpack7 (n1 := 6)  (n2 := 3)  (n3 := 1)  (n4 := 1)  (n5 := 5)  (n6 := 5)  (n7 := 5) (by decide) k.isLt (by decide) x.toNat_lt b.isLt a.isLt d.isLt hw
  have ho : wd / 67108864 = 36 := ho
  refine decode_of_raw (by rw [ho]; rfl) ?_ hwf
  unfold decodeRaw
  rw [ho]
  show decodeOp24 wd = _
  unfold decodeOp24
  have c0 : fld wd 0 6 = 6 := f0
  have c1 : fld wd 9 1 = 0 := f2
  refine Eq.trans ((if_neg (fun hh => absurd (c0.symm.trans hh.1) (by decide))).trans ((if_neg (fun hh => absurd (c0.symm.trans hh.1) (by decide))).trans ((if_neg (fun hh => absurd (c0.symm.trans hh.1) (by decide))).trans ((if_neg (fun hh => absurd (c0.symm.trans hh.1) (by decide))).trans ((if_neg (fun hh => absurd (c0.symm.trans hh.1) (by decide))).trans ((if_neg (fun hh => absurd (c0.symm.trans hh.1) (by decide))).trans ((if_pos ⟨c0, c1⟩)))))))) ?_
  rw [(fin_of_fld (d := d) (m := fld wd 21 5) (f6)), (fin_of_fld (d := a) (m := fld wd 16 5) (f5)), (fin_of_fld (d := b) (m := fld wd 11 5) (f4)), (bit_of_fld (b := x) (lo := 10) (w := wd) (f3)), (fin_of_fld (d := k) (m := fld wd 6 3) (f1))]

theorem EncodeDecode.vfmsubX (d : Fin 32) (a : Fin 32) (b : Fin 32) (x : Bool) (k : Fin 8) : EncodeDecode.Statement (.vfmsubX d a b x k) := by
  intro wd hwf hw
  have hw : 2415919111 + d.val * 2097152 + a.val * 65536 + b.val * 2048 + x.toNat * 1024 + k.val * 64 = wd := Option.some.inj hw
  have hw : wd = atop 6 7 (atop 3 k.val (atop 1 0 (atop 1 x.toNat (atop 5 b.val (atop 5 a.val (atop 5 d.val (36))))))) := by unfold atop; omega
  obtain ⟨f0, f1, f2, f3, f4, f5, f6, ho⟩ := unpack7 (n1 := 6)  (n2 := 3)  (n3 := 1)  (n4 := 1)  (n5 := 5)  (n6 := 5)  (n7 := 5) (by decide) k.isLt (by decide) x.toNat_lt b.isLt a.isLt d.isLt hw
  have ho : wd / 67108864 = 36 := ho
  refine decode_of_raw (by rw [ho]; rfl) ?_ hwf
  unfold decodeRaw
  rw [ho]
  show decodeOp24 wd = _
  unfold decodeOp24
  have c0 : fld wd 0 6 = 7 := f0
  have c1 : fld wd 9 1 = 0 := f2
  refine Eq.trans ((if_neg (fun hh => absurd (c0.symm.trans hh.1) (by decide))).trans ((if_neg (fun hh => absurd (c0.symm.trans hh.1) (by decide))).trans ((if_neg (fun hh => absurd (c0.symm.trans hh.1) (by decide))).trans ((if_neg (fun hh => absurd (c0.symm.trans hh.1) (by decide))).trans ((if_neg (fun hh => absurd (c0.symm.trans hh.1) (by decide))).trans ((if_neg (fun hh => absurd (c0.symm.trans hh.1) (by decide))).trans ((if_neg (fun hh => absurd (c0.symm.trans hh.1) (by decide))).trans ((if_pos ⟨c0, c1⟩))))))))) ?_
  rw [(fin_of_fld (d := d) (m := fld wd 21 5) (f6)), (fin_of_fld (d := a) (m := fld wd 16 5) (f5)), (fin_of_fld (d := b) (m := fld wd 11 5) (f4)), (bit_of_fld (b := x) (lo := 10) (w := wd) (f3)), (fin_of_fld (d := k) (m := fld wd 6 3) (f1))]

theorem EncodeDecode.vfnmaddX (d : Fin 32) (a : Fin 32) (b : Fin 32) (x : Bool) (k : Fin 8) : EncodeDecode.Statement (.vfnmaddX d a b x k) := by
  intro wd hwf hw
  have hw : 2415919112 + d.val * 2097152 + a.val * 65536 + b.val * 2048 + x.toNat * 1024 + k.val * 64 = wd := Option.some.inj hw
  have hw : wd = atop 6 8 (atop 3 k.val (atop 1 0 (atop 1 x.toNat (atop 5 b.val (atop 5 a.val (atop 5 d.val (36))))))) := by unfold atop; omega
  obtain ⟨f0, f1, f2, f3, f4, f5, f6, ho⟩ := unpack7 (n1 := 6)  (n2 := 3)  (n3 := 1)  (n4 := 1)  (n5 := 5)  (n6 := 5)  (n7 := 5) (by decide) k.isLt (by decide) x.toNat_lt b.isLt a.isLt d.isLt hw
  have ho : wd / 67108864 = 36 := ho
  refine decode_of_raw (by rw [ho]; rfl) ?_ hwf
  unfold decodeRaw
  rw [ho]
  show decodeOp24 wd = _
  unfold decodeOp24
  have c0 : fld wd 0 6 = 8 := f0
  have c1 : fld wd 9 1 = 0 := f2
  refine Eq.trans ((if_neg (fun hh => absurd (c0.symm.trans hh.1) (by decide))).trans ((if_neg (fun hh => absurd (c0.symm.trans hh.1) (by decide))).trans ((if_neg (fun hh => absurd (c0.symm.trans hh.1) (by decide))).trans ((if_neg (fun hh => absurd (c0.symm.trans hh.1) (by decide))).trans ((if_neg (fun hh => absurd (c0.symm.trans hh.1) (by decide))).trans ((if_neg (fun hh => absurd (c0.symm.trans hh.1) (by decide))).trans ((if_neg (fun hh => absurd (c0.symm.trans hh.1) (by decide))).trans ((if_neg (fun hh => absurd (c0.symm.trans hh.1) (by decide))).trans ((if_pos ⟨c0, c1⟩)))))))))) ?_
  rw [(fin_of_fld (d := d) (m := fld wd 21 5) (f6)), (fin_of_fld (d := a) (m := fld wd 16 5) (f5)), (fin_of_fld (d := b) (m := fld wd 11 5) (f4)), (bit_of_fld (b := x) (lo := 10) (w := wd) (f3)), (fin_of_fld (d := k) (m := fld wd 6 3) (f1))]

theorem EncodeDecode.vfnmsubX (d : Fin 32) (a : Fin 32) (b : Fin 32) (x : Bool) (k : Fin 8) : EncodeDecode.Statement (.vfnmsubX d a b x k) := by
  intro wd hwf hw
  have hw : 2415919113 + d.val * 2097152 + a.val * 65536 + b.val * 2048 + x.toNat * 1024 + k.val * 64 = wd := Option.some.inj hw
  have hw : wd = atop 6 9 (atop 3 k.val (atop 1 0 (atop 1 x.toNat (atop 5 b.val (atop 5 a.val (atop 5 d.val (36))))))) := by unfold atop; omega
  obtain ⟨f0, f1, f2, f3, f4, f5, f6, ho⟩ := unpack7 (n1 := 6)  (n2 := 3)  (n3 := 1)  (n4 := 1)  (n5 := 5)  (n6 := 5)  (n7 := 5) (by decide) k.isLt (by decide) x.toNat_lt b.isLt a.isLt d.isLt hw
  have ho : wd / 67108864 = 36 := ho
  refine decode_of_raw (by rw [ho]; rfl) ?_ hwf
  unfold decodeRaw
  rw [ho]
  show decodeOp24 wd = _
  unfold decodeOp24
  have c0 : fld wd 0 6 = 9 := f0
  have c1 : fld wd 9 1 = 0 := f2
  refine Eq.trans ((if_neg (fun hh => absurd (c0.symm.trans hh.1) (by decide))).trans ((if_neg (fun hh => absurd (c0.symm.trans hh.1) (by decide))).trans ((if_neg (fun hh => absurd (c0.symm.trans hh.1) (by decide))).trans ((if_neg (fun hh => absurd (c0.symm.trans hh.1) (by decide))).trans ((if_neg (fun hh => absurd (c0.symm.trans hh.1) (by decide))).trans ((if_neg (fun hh => absurd (c0.symm.trans hh.1) (by decide))).trans ((if_neg (fun hh => absurd (c0.symm.trans hh.1) (by decide))).trans ((if_neg (fun hh => absurd (c0.symm.trans hh.1) (by decide))).trans ((if_neg (fun hh => absurd (c0.symm.trans hh.1) (by decide))).trans ((if_pos ⟨c0, c1⟩))))))))))) ?_
  rw [(fin_of_fld (d := d) (m := fld wd 21 5) (f6)), (fin_of_fld (d := a) (m := fld wd 16 5) (f5)), (fin_of_fld (d := b) (m := fld wd 11 5) (f4)), (bit_of_fld (b := x) (lo := 10) (w := wd) (f3)), (fin_of_fld (d := k) (m := fld wd 6 3) (f1))]

theorem EncodeDecode.vfsgnjX (d : Fin 32) (a : Fin 32) (b : Fin 32) (x : Bool) (k : Fin 8) : EncodeDecode.Statement (.vfsgnjX d a b x k) := by
  intro wd hwf hw
  have hw : 2415919114 + d.val * 2097152 + a.val * 65536 + b.val * 2048 + x.toNat * 1024 + k.val * 64 = wd := Option.some.inj hw
  have hw : wd = atop 6 10 (atop 3 k.val (atop 1 0 (atop 1 x.toNat (atop 5 b.val (atop 5 a.val (atop 5 d.val (36))))))) := by unfold atop; omega
  obtain ⟨f0, f1, f2, f3, f4, f5, f6, ho⟩ := unpack7 (n1 := 6)  (n2 := 3)  (n3 := 1)  (n4 := 1)  (n5 := 5)  (n6 := 5)  (n7 := 5) (by decide) k.isLt (by decide) x.toNat_lt b.isLt a.isLt d.isLt hw
  have ho : wd / 67108864 = 36 := ho
  refine decode_of_raw (by rw [ho]; rfl) ?_ hwf
  unfold decodeRaw
  rw [ho]
  show decodeOp24 wd = _
  unfold decodeOp24
  have c0 : fld wd 0 6 = 10 := f0
  have c1 : fld wd 9 1 = 0 := f2
  refine Eq.trans ((if_neg (fun hh => absurd (c0.symm.trans hh.1) (by decide))).trans ((if_neg (fun hh => absurd (c0.symm.trans hh.1) (by decide))).trans ((if_neg (fun hh => absurd (c0.symm.trans hh.1) (by decide))).trans ((if_neg (fun hh => absurd (c0.symm.trans hh.1) (by decide))).trans ((if_neg (fun hh => absurd (c0.symm.trans hh.1) (by decide))).trans ((if_neg (fun hh => absurd (c0.symm.trans hh.1) (by decide))).trans ((if_neg (fun hh => absurd (c0.symm.trans hh.1) (by decide))).trans ((if_neg (fun hh => absurd (c0.symm.trans hh.1) (by decide))).trans ((if_neg (fun hh => absurd (c0.symm.trans hh.1) (by decide))).trans ((if_neg (fun hh => absurd (c0.symm.trans hh.1) (by decide))).trans ((if_pos ⟨c0, c1⟩)))))))))))) ?_
  rw [(fin_of_fld (d := d) (m := fld wd 21 5) (f6)), (fin_of_fld (d := a) (m := fld wd 16 5) (f5)), (fin_of_fld (d := b) (m := fld wd 11 5) (f4)), (bit_of_fld (b := x) (lo := 10) (w := wd) (f3)), (fin_of_fld (d := k) (m := fld wd 6 3) (f1))]

theorem EncodeDecode.vfsgnjnX (d : Fin 32) (a : Fin 32) (b : Fin 32) (x : Bool) (k : Fin 8) : EncodeDecode.Statement (.vfsgnjnX d a b x k) := by
  intro wd hwf hw
  have hw : 2415919115 + d.val * 2097152 + a.val * 65536 + b.val * 2048 + x.toNat * 1024 + k.val * 64 = wd := Option.some.inj hw
  have hw : wd = atop 6 11 (atop 3 k.val (atop 1 0 (atop 1 x.toNat (atop 5 b.val (atop 5 a.val (atop 5 d.val (36))))))) := by unfold atop; omega
  obtain ⟨f0, f1, f2, f3, f4, f5, f6, ho⟩ := unpack7 (n1 := 6)  (n2 := 3)  (n3 := 1)  (n4 := 1)  (n5 := 5)  (n6 := 5)  (n7 := 5) (by decide) k.isLt (by decide) x.toNat_lt b.isLt a.isLt d.isLt hw
  have ho : wd / 67108864 = 36 := ho
  refine decode_of_raw (by rw [ho]; rfl) ?_ hwf
  unfold decodeRaw
  rw [ho]
  show decodeOp24 wd = _
  unfold decodeOp24
  have c0 : fld wd 0 6 = 11 := f0
  have c1 : fld wd 9 1 = 0 := f2
  refine Eq.trans ((if_neg (fun hh => absurd (c0.symm.trans hh.1) (by decide))).trans ((if_neg (fun hh => absurd (c0.symm.trans hh.1) (by decide))).trans ((if_neg (fun hh => absurd (c0.symm.trans hh.1) (by decide))).trans ((if_neg (fun hh => absurd (c0.symm.trans hh.1) (by decide))).trans ((if_neg (fun hh => absurd (c0.symm.trans hh.1) (by decide))).trans ((if_neg (fun hh => absurd (c0.symm.trans hh.1) (by decide))).trans ((if_neg (fun hh => absurd (c0.symm.trans hh.1) (by decide))).trans ((if_neg (fun hh => absurd (c0.symm.trans hh.1) (by decide))).trans ((if_neg (fun hh => absurd (c0.symm.trans hh.1) (by decide))).trans ((if_neg (fun hh => absurd (c0.symm.trans hh.1) (by decide))).trans ((if_neg (fun hh => absurd (c0.symm.trans hh.1) (by decide))).trans ((if_pos ⟨c0, c1⟩))))))))))))) ?_
  rw [(fin_of_fld (d := d) (m := fld wd 21 5) (f6)), (fin_of_fld (d := a) (m := fld wd 16 5) (f5)), (fin_of_fld (d := b) (m := fld wd 11 5) (f4)), (bit_of_fld (b := x) (lo := 10) (w := wd) (f3)), (fin_of_fld (d := k) (m := fld wd 6 3) (f1))]

theorem EncodeDecode.vseq (d : Fin 8) (a : Fin 32) (b : Fin 32) (x : Bool) (y : Bool) (k : Fin 8) (z : Bool) : EncodeDecode.Statement (.vseq d a b x y k z) := by
  intro wd hwf hw
  have hw : 2483027968 + d.val * 2097152 + a.val * 65536 + b.val * 2048 + x.toNat * 1024 + y.toNat * 512 + k.val * 64 + z.toNat * 32 = wd := Option.some.inj hw
  have hw : wd = atop 5 0 (atop 1 z.toNat (atop 3 k.val (atop 1 y.toNat (atop 1 x.toNat (atop 5 b.val (atop 5 a.val (atop 3 d.val (atop 2 0 (37))))))))) := by unfold atop; omega
  obtain ⟨f0, f1, f2, f3, f4, f5, f6, f7, f8, ho⟩ := unpack9 (n1 := 5)  (n2 := 1)  (n3 := 3)  (n4 := 1)  (n5 := 1)  (n6 := 5)  (n7 := 5)  (n8 := 3)  (n9 := 2) (by decide) z.toNat_lt k.isLt y.toNat_lt x.toNat_lt b.isLt a.isLt d.isLt (by decide) hw
  have ho : wd / 67108864 = 37 := ho
  refine decode_of_raw (by rw [ho]; rfl) ?_ hwf
  unfold decodeRaw
  rw [ho]
  show decodeOp25 wd = _
  unfold decodeOp25
  have c0 : fld wd 0 5 = 0 := f0
  have c1 : fld wd 24 2 = 0 := f8
  refine Eq.trans ((if_pos ⟨c0, c1⟩)) ?_
  rw [(fin_of_fld (d := d) (m := fld wd 21 3) (f7)), (fin_of_fld (d := a) (m := fld wd 16 5) (f6)), (fin_of_fld (d := b) (m := fld wd 11 5) (f5)), (bit_of_fld (b := x) (lo := 10) (w := wd) (f4)), (bit_of_fld (b := y) (lo := 9) (w := wd) (f3)), (fin_of_fld (d := k) (m := fld wd 6 3) (f2)), (bit_of_fld (b := z) (lo := 5) (w := wd) (f1))]

theorem EncodeDecode.vsne (d : Fin 8) (a : Fin 32) (b : Fin 32) (x : Bool) (y : Bool) (k : Fin 8) (z : Bool) : EncodeDecode.Statement (.vsne d a b x y k z) := by
  intro wd hwf hw
  have hw : 2483027969 + d.val * 2097152 + a.val * 65536 + b.val * 2048 + x.toNat * 1024 + y.toNat * 512 + k.val * 64 + z.toNat * 32 = wd := Option.some.inj hw
  have hw : wd = atop 5 1 (atop 1 z.toNat (atop 3 k.val (atop 1 y.toNat (atop 1 x.toNat (atop 5 b.val (atop 5 a.val (atop 3 d.val (atop 2 0 (37))))))))) := by unfold atop; omega
  obtain ⟨f0, f1, f2, f3, f4, f5, f6, f7, f8, ho⟩ := unpack9 (n1 := 5)  (n2 := 1)  (n3 := 3)  (n4 := 1)  (n5 := 1)  (n6 := 5)  (n7 := 5)  (n8 := 3)  (n9 := 2) (by decide) z.toNat_lt k.isLt y.toNat_lt x.toNat_lt b.isLt a.isLt d.isLt (by decide) hw
  have ho : wd / 67108864 = 37 := ho
  refine decode_of_raw (by rw [ho]; rfl) ?_ hwf
  unfold decodeRaw
  rw [ho]
  show decodeOp25 wd = _
  unfold decodeOp25
  have c0 : fld wd 0 5 = 1 := f0
  have c1 : fld wd 24 2 = 0 := f8
  refine Eq.trans ((if_neg (fun hh => absurd (c0.symm.trans hh.1) (by decide))).trans ((if_pos ⟨c0, c1⟩))) ?_
  rw [(fin_of_fld (d := d) (m := fld wd 21 3) (f7)), (fin_of_fld (d := a) (m := fld wd 16 5) (f6)), (fin_of_fld (d := b) (m := fld wd 11 5) (f5)), (bit_of_fld (b := x) (lo := 10) (w := wd) (f4)), (bit_of_fld (b := y) (lo := 9) (w := wd) (f3)), (fin_of_fld (d := k) (m := fld wd 6 3) (f2)), (bit_of_fld (b := z) (lo := 5) (w := wd) (f1))]

theorem EncodeDecode.vslt (d : Fin 8) (a : Fin 32) (b : Fin 32) (x : Bool) (y : Bool) (k : Fin 8) (z : Bool) : EncodeDecode.Statement (.vslt d a b x y k z) := by
  intro wd hwf hw
  have hw : 2483027970 + d.val * 2097152 + a.val * 65536 + b.val * 2048 + x.toNat * 1024 + y.toNat * 512 + k.val * 64 + z.toNat * 32 = wd := Option.some.inj hw
  have hw : wd = atop 5 2 (atop 1 z.toNat (atop 3 k.val (atop 1 y.toNat (atop 1 x.toNat (atop 5 b.val (atop 5 a.val (atop 3 d.val (atop 2 0 (37))))))))) := by unfold atop; omega
  obtain ⟨f0, f1, f2, f3, f4, f5, f6, f7, f8, ho⟩ := unpack9 (n1 := 5)  (n2 := 1)  (n3 := 3)  (n4 := 1)  (n5 := 1)  (n6 := 5)  (n7 := 5)  (n8 := 3)  (n9 := 2) (by decide) z.toNat_lt k.isLt y.toNat_lt x.toNat_lt b.isLt a.isLt d.isLt (by decide) hw
  have ho : wd / 67108864 = 37 := ho
  refine decode_of_raw (by rw [ho]; rfl) ?_ hwf
  unfold decodeRaw
  rw [ho]
  show decodeOp25 wd = _
  unfold decodeOp25
  have c0 : fld wd 0 5 = 2 := f0
  have c1 : fld wd 24 2 = 0 := f8
  refine Eq.trans ((if_neg (fun hh => absurd (c0.symm.trans hh.1) (by decide))).trans ((if_neg (fun hh => absurd (c0.symm.trans hh.1) (by decide))).trans ((if_pos ⟨c0, c1⟩)))) ?_
  rw [(fin_of_fld (d := d) (m := fld wd 21 3) (f7)), (fin_of_fld (d := a) (m := fld wd 16 5) (f6)), (fin_of_fld (d := b) (m := fld wd 11 5) (f5)), (bit_of_fld (b := x) (lo := 10) (w := wd) (f4)), (bit_of_fld (b := y) (lo := 9) (w := wd) (f3)), (fin_of_fld (d := k) (m := fld wd 6 3) (f2)), (bit_of_fld (b := z) (lo := 5) (w := wd) (f1))]

theorem EncodeDecode.vsltu (d : Fin 8) (a : Fin 32) (b : Fin 32) (x : Bool) (y : Bool) (k : Fin 8) (z : Bool) : EncodeDecode.Statement (.vsltu d a b x y k z) := by
  intro wd hwf hw
  have hw : 2483027971 + d.val * 2097152 + a.val * 65536 + b.val * 2048 + x.toNat * 1024 + y.toNat * 512 + k.val * 64 + z.toNat * 32 = wd := Option.some.inj hw
  have hw : wd = atop 5 3 (atop 1 z.toNat (atop 3 k.val (atop 1 y.toNat (atop 1 x.toNat (atop 5 b.val (atop 5 a.val (atop 3 d.val (atop 2 0 (37))))))))) := by unfold atop; omega
  obtain ⟨f0, f1, f2, f3, f4, f5, f6, f7, f8, ho⟩ := unpack9 (n1 := 5)  (n2 := 1)  (n3 := 3)  (n4 := 1)  (n5 := 1)  (n6 := 5)  (n7 := 5)  (n8 := 3)  (n9 := 2) (by decide) z.toNat_lt k.isLt y.toNat_lt x.toNat_lt b.isLt a.isLt d.isLt (by decide) hw
  have ho : wd / 67108864 = 37 := ho
  refine decode_of_raw (by rw [ho]; rfl) ?_ hwf
  unfold decodeRaw
  rw [ho]
  show decodeOp25 wd = _
  unfold decodeOp25
  have c0 : fld wd 0 5 = 3 := f0
  have c1 : fld wd 24 2 = 0 := f8
  refine Eq.trans ((if_neg (fun hh => absurd (c0.symm.trans hh.1) (by decide))).trans ((if_neg (fun hh => absurd (c0.symm.trans hh.1) (by decide))).trans ((if_neg (fun hh => absurd (c0.symm.trans hh.1) (by decide))).trans ((if_pos ⟨c0, c1⟩))))) ?_
  rw [(fin_of_fld (d := d) (m := fld wd 21 3) (f7)), (fin_of_fld (d := a) (m := fld wd 16 5) (f6)), (fin_of_fld (d := b) (m := fld wd 11 5) (f5)), (bit_of_fld (b := x) (lo := 10) (w := wd) (f4)), (bit_of_fld (b := y) (lo := 9) (w := wd) (f3)), (fin_of_fld (d := k) (m := fld wd 6 3) (f2)), (bit_of_fld (b := z) (lo := 5) (w := wd) (f1))]

theorem EncodeDecode.vsle (d : Fin 8) (a : Fin 32) (b : Fin 32) (x : Bool) (y : Bool) (k : Fin 8) (z : Bool) : EncodeDecode.Statement (.vsle d a b x y k z) := by
  intro wd hwf hw
  have hw : 2483027972 + d.val * 2097152 + a.val * 65536 + b.val * 2048 + x.toNat * 1024 + y.toNat * 512 + k.val * 64 + z.toNat * 32 = wd := Option.some.inj hw
  have hw : wd = atop 5 4 (atop 1 z.toNat (atop 3 k.val (atop 1 y.toNat (atop 1 x.toNat (atop 5 b.val (atop 5 a.val (atop 3 d.val (atop 2 0 (37))))))))) := by unfold atop; omega
  obtain ⟨f0, f1, f2, f3, f4, f5, f6, f7, f8, ho⟩ := unpack9 (n1 := 5)  (n2 := 1)  (n3 := 3)  (n4 := 1)  (n5 := 1)  (n6 := 5)  (n7 := 5)  (n8 := 3)  (n9 := 2) (by decide) z.toNat_lt k.isLt y.toNat_lt x.toNat_lt b.isLt a.isLt d.isLt (by decide) hw
  have ho : wd / 67108864 = 37 := ho
  refine decode_of_raw (by rw [ho]; rfl) ?_ hwf
  unfold decodeRaw
  rw [ho]
  show decodeOp25 wd = _
  unfold decodeOp25
  have c0 : fld wd 0 5 = 4 := f0
  have c1 : fld wd 24 2 = 0 := f8
  refine Eq.trans ((if_neg (fun hh => absurd (c0.symm.trans hh.1) (by decide))).trans ((if_neg (fun hh => absurd (c0.symm.trans hh.1) (by decide))).trans ((if_neg (fun hh => absurd (c0.symm.trans hh.1) (by decide))).trans ((if_neg (fun hh => absurd (c0.symm.trans hh.1) (by decide))).trans ((if_pos ⟨c0, c1⟩)))))) ?_
  rw [(fin_of_fld (d := d) (m := fld wd 21 3) (f7)), (fin_of_fld (d := a) (m := fld wd 16 5) (f6)), (fin_of_fld (d := b) (m := fld wd 11 5) (f5)), (bit_of_fld (b := x) (lo := 10) (w := wd) (f4)), (bit_of_fld (b := y) (lo := 9) (w := wd) (f3)), (fin_of_fld (d := k) (m := fld wd 6 3) (f2)), (bit_of_fld (b := z) (lo := 5) (w := wd) (f1))]

theorem EncodeDecode.vsleu (d : Fin 8) (a : Fin 32) (b : Fin 32) (x : Bool) (y : Bool) (k : Fin 8) (z : Bool) : EncodeDecode.Statement (.vsleu d a b x y k z) := by
  intro wd hwf hw
  have hw : 2483027973 + d.val * 2097152 + a.val * 65536 + b.val * 2048 + x.toNat * 1024 + y.toNat * 512 + k.val * 64 + z.toNat * 32 = wd := Option.some.inj hw
  have hw : wd = atop 5 5 (atop 1 z.toNat (atop 3 k.val (atop 1 y.toNat (atop 1 x.toNat (atop 5 b.val (atop 5 a.val (atop 3 d.val (atop 2 0 (37))))))))) := by unfold atop; omega
  obtain ⟨f0, f1, f2, f3, f4, f5, f6, f7, f8, ho⟩ := unpack9 (n1 := 5)  (n2 := 1)  (n3 := 3)  (n4 := 1)  (n5 := 1)  (n6 := 5)  (n7 := 5)  (n8 := 3)  (n9 := 2) (by decide) z.toNat_lt k.isLt y.toNat_lt x.toNat_lt b.isLt a.isLt d.isLt (by decide) hw
  have ho : wd / 67108864 = 37 := ho
  refine decode_of_raw (by rw [ho]; rfl) ?_ hwf
  unfold decodeRaw
  rw [ho]
  show decodeOp25 wd = _
  unfold decodeOp25
  have c0 : fld wd 0 5 = 5 := f0
  have c1 : fld wd 24 2 = 0 := f8
  refine Eq.trans ((if_neg (fun hh => absurd (c0.symm.trans hh.1) (by decide))).trans ((if_neg (fun hh => absurd (c0.symm.trans hh.1) (by decide))).trans ((if_neg (fun hh => absurd (c0.symm.trans hh.1) (by decide))).trans ((if_neg (fun hh => absurd (c0.symm.trans hh.1) (by decide))).trans ((if_neg (fun hh => absurd (c0.symm.trans hh.1) (by decide))).trans ((if_pos ⟨c0, c1⟩))))))) ?_
  rw [(fin_of_fld (d := d) (m := fld wd 21 3) (f7)), (fin_of_fld (d := a) (m := fld wd 16 5) (f6)), (fin_of_fld (d := b) (m := fld wd 11 5) (f5)), (bit_of_fld (b := x) (lo := 10) (w := wd) (f4)), (bit_of_fld (b := y) (lo := 9) (w := wd) (f3)), (fin_of_fld (d := k) (m := fld wd 6 3) (f2)), (bit_of_fld (b := z) (lo := 5) (w := wd) (f1))]

theorem EncodeDecode.vsgt (d : Fin 8) (a : Fin 32) (b : Fin 32) (x : Bool) (y : Bool) (k : Fin 8) (z : Bool) : EncodeDecode.Statement (.vsgt d a b x y k z) := by
  intro wd hwf hw
  have hw : 2483027974 + d.val * 2097152 + a.val * 65536 + b.val * 2048 + x.toNat * 1024 + y.toNat * 512 + k.val * 64 + z.toNat * 32 = wd := Option.some.inj hw
  have hw : wd = atop 5 6 (atop 1 z.toNat (atop 3 k.val (atop 1 y.toNat (atop 1 x.toNat (atop 5 b.val (atop 5 a.val (atop 3 d.val (atop 2 0 (37))))))))) := by unfold atop; omega
  obtain ⟨f0, f1, f2, f3, f4, f5, f6, f7, f8, ho⟩ := unpack9 (n1 := 5)  (n2 := 1)  (n3 := 3)  (n4 := 1)  (n5 := 1)  (n6 := 5)  (n7 := 5)  (n8 := 3)  (n9 := 2) (by decide) z.toNat_lt k.isLt y.toNat_lt x.toNat_lt b.isLt a.isLt d.isLt (by decide) hw
  have ho : wd / 67108864 = 37 := ho
  refine decode_of_raw (by rw [ho]; rfl) ?_ hwf
  unfold decodeRaw
  rw [ho]
  show decodeOp25 wd = _
  unfold decodeOp25
  have c0 : fld wd 0 5 = 6 := f0
  have c1 : fld wd 24 2 = 0 := f8
  refine Eq.trans ((if_neg (fun hh => absurd (c0.symm.trans hh.1) (by decide))).trans ((if_neg (fun hh => absurd (c0.symm.trans hh.1) (by decide))).trans ((if_neg (fun hh => absurd (c0.symm.trans hh.1) (by decide))).trans ((if_neg (fun hh => absurd (c0.symm.trans hh.1) (by decide))).trans ((if_neg (fun hh => absurd (c0.symm.trans hh.1) (by decide))).trans ((if_neg (fun hh => absurd (c0.symm.trans hh.1) (by decide))).trans ((if_pos ⟨c0, c1⟩)))))))) ?_
  rw [(fin_of_fld (d := d) (m := fld wd 21 3) (f7)), (fin_of_fld (d := a) (m := fld wd 16 5) (f6)), (fin_of_fld (d := b) (m := fld wd 11 5) (f5)), (bit_of_fld (b := x) (lo := 10) (w := wd) (f4)), (bit_of_fld (b := y) (lo := 9) (w := wd) (f3)), (fin_of_fld (d := k) (m := fld wd 6 3) (f2)), (bit_of_fld (b := z) (lo := 5) (w := wd) (f1))]

theorem EncodeDecode.vsgtu (d : Fin 8) (a : Fin 32) (b : Fin 32) (x : Bool) (y : Bool) (k : Fin 8) (z : Bool) : EncodeDecode.Statement (.vsgtu d a b x y k z) := by
  intro wd hwf hw
  have hw : 2483027975 + d.val * 2097152 + a.val * 65536 + b.val * 2048 + x.toNat * 1024 + y.toNat * 512 + k.val * 64 + z.toNat * 32 = wd := Option.some.inj hw
  have hw : wd = atop 5 7 (atop 1 z.toNat (atop 3 k.val (atop 1 y.toNat (atop 1 x.toNat (atop 5 b.val (atop 5 a.val (atop 3 d.val (atop 2 0 (37))))))))) := by unfold atop; omega
  obtain ⟨f0, f1, f2, f3, f4, f5, f6, f7, f8, ho⟩ := unpack9 (n1 := 5)  (n2 := 1)  (n3 := 3)  (n4 := 1)  (n5 := 1)  (n6 := 5)  (n7 := 5)  (n8 := 3)  (n9 := 2) (by decide) z.toNat_lt k.isLt y.toNat_lt x.toNat_lt b.isLt a.isLt d.isLt (by decide) hw
  have ho : wd / 67108864 = 37 := ho
  refine decode_of_raw (by rw [ho]; rfl) ?_ hwf
  unfold decodeRaw
  rw [ho]
  show decodeOp25 wd = _
  unfold decodeOp25
  have c0 : fld wd 0 5 = 7 := f0
  have c1 : fld wd 24 2 = 0 := f8
  refine Eq.trans ((if_neg (fun hh => absurd (c0.symm.trans hh.1) (by decide))).trans ((if_neg (fun hh => absurd (c0.symm.trans hh.1) (by decide))).trans ((if_neg (fun hh => absurd (c0.symm.trans hh.1) (by decide))).trans ((if_neg (fun hh => absurd (c0.symm.trans hh.1) (by decide))).trans ((if_neg (fun hh => absurd (c0.symm.trans hh.1) (by decide))).trans ((if_neg (fun hh => absurd (c0.symm.trans hh.1) (by decide))).trans ((if_neg (fun hh => absurd (c0.symm.trans hh.1) (by decide))).trans ((if_pos ⟨c0, c1⟩))))))))) ?_
  rw [(fin_of_fld (d := d) (m := fld wd 21 3) (f7)), (fin_of_fld (d := a) (m := fld wd 16 5) (f6)), (fin_of_fld (d := b) (m := fld wd 11 5) (f5)), (bit_of_fld (b := x) (lo := 10) (w := wd) (f4)), (bit_of_fld (b := y) (lo := 9) (w := wd) (f3)), (fin_of_fld (d := k) (m := fld wd 6 3) (f2)), (bit_of_fld (b := z) (lo := 5) (w := wd) (f1))]

theorem EncodeDecode.vfeq (d : Fin 8) (a : Fin 32) (b : Fin 32) (x : Bool) (y : Bool) (k : Fin 8) (z : Bool) : EncodeDecode.Statement (.vfeq d a b x y k z) := by
  intro wd hwf hw
  have hw : 2483027976 + d.val * 2097152 + a.val * 65536 + b.val * 2048 + x.toNat * 1024 + y.toNat * 512 + k.val * 64 + z.toNat * 32 = wd := Option.some.inj hw
  have hw : wd = atop 5 8 (atop 1 z.toNat (atop 3 k.val (atop 1 y.toNat (atop 1 x.toNat (atop 5 b.val (atop 5 a.val (atop 3 d.val (atop 2 0 (37))))))))) := by unfold atop; omega
  obtain ⟨f0, f1, f2, f3, f4, f5, f6, f7, f8, ho⟩ := unpack9 (n1 := 5)  (n2 := 1)  (n3 := 3)  (n4 := 1)  (n5 := 1)  (n6 := 5)  (n7 := 5)  (n8 := 3)  (n9 := 2) (by decide) z.toNat_lt k.isLt y.toNat_lt x.toNat_lt b.isLt a.isLt d.isLt (by decide) hw
  have ho : wd / 67108864 = 37 := ho
  refine decode_of_raw (by rw [ho]; rfl) ?_ hwf
  unfold decodeRaw
  rw [ho]
  show decodeOp25 wd = _
  unfold decodeOp25
  have c0 : fld wd 0 5 = 8 := f0
  have c1 : fld wd 24 2 = 0 := f8
  refine Eq.trans ((if_neg (fun hh => absurd (c0.symm.trans hh.1) (by decide))).trans ((if_neg (fun hh => absurd (c0.symm.trans hh.1) (by decide))).trans ((if_neg (fun hh => absurd (c0.symm.trans hh.1) (by decide))).trans ((if_neg (fun hh => absurd (c0.symm.trans hh.1) (by decide))).trans ((if_neg (fun hh => absurd (c0.symm.trans hh.1) (by decide))).trans ((if_neg (fun hh => absurd (c0.symm.trans hh.1) (by decide))).trans ((if_neg (fun hh => absurd (c0.symm.trans hh.1) (by decide))).trans ((if_neg (fun hh => absurd (c0.symm.trans hh.1) (by decide))).trans ((if_pos ⟨c0, c1⟩)))))))))) ?_
  rw [(fin_of_fld (d := d) (m := fld wd 21 3) (f7)), (fin_of_fld (d := a) (m := fld wd 16 5) (f6)), (fin_of_fld (d := b) (m := fld wd 11 5) (f5)), (bit_of_fld (b := x) (lo := 10) (w := wd) (f4)), (bit_of_fld (b := y) (lo := 9) (w := wd) (f3)), (fin_of_fld (d := k) (m := fld wd 6 3) (f2)), (bit_of_fld (b := z) (lo := 5) (w := wd) (f1))]

theorem EncodeDecode.vfne (d : Fin 8) (a : Fin 32) (b : Fin 32) (x : Bool) (y : Bool) (k : Fin 8) (z : Bool) : EncodeDecode.Statement (.vfne d a b x y k z) := by
  intro wd hwf hw
  have hw : 2483027977 + d.val * 2097152 + a.val * 65536 + b.val * 2048 + x.toNat * 1024 + y.toNat * 512 + k.val * 64 + z.toNat * 32 = wd := Option.some.inj hw
  have hw : wd = atop 5 9 (atop 1 z.toNat (atop 3 k.val (atop 1 y.toNat (atop 1 x.toNat (atop 5 b.val (atop 5 a.val (atop 3 d.val (atop 2 0 (37))))))))) := by unfold atop; omega
  obtain ⟨f0, f1, f2, f3, f4, f5, f6, f7, f8, ho⟩ := unpack9 (n1 := 5)  (n2 := 1)  (n3 := 3)  (n4 := 1)  (n5 := 1)  (n6 := 5)  (n7 := 5)  (n8 := 3)  (n9 := 2) (by decide) z.toNat_lt k.isLt y.toNat_lt x.toNat_lt b.isLt a.isLt d.isLt (by decide) hw
  have ho : wd / 67108864 = 37 := ho
  refine decode_of_raw (by rw [ho]; rfl) ?_ hwf
  unfold decodeRaw
  rw [ho]
  show decodeOp25 wd = _
  unfold decodeOp25
  have c0 : fld wd 0 5 = 9 := f0
  have c1 : fld wd 24 2 = 0 := f8
  refine Eq.trans ((if_neg (fun hh => absurd (c0.symm.trans hh.1) (by decide))).trans ((if_neg (fun hh => absurd (c0.symm.trans hh.1) (by decide))).trans ((if_neg (fun hh => absurd (c0.symm.trans hh.1) (by decide))).trans ((if_neg (fun hh => absurd (c0.symm.trans hh.1) (by decide))).trans ((if_neg (fun hh => absurd (c0.symm.trans hh.1) (by decide))).trans ((if_neg (fun hh => absurd (c0.symm.trans hh.1) (by decide))).trans ((if_neg (fun hh => absurd (c0.symm.trans hh.1) (by decide))).trans ((if_neg (fun hh => absurd (c0.symm.trans hh.1) (by decide))).trans ((if_neg (fun hh => absurd (c0.symm.trans hh.1) (by decide))).trans ((if_pos ⟨c0, c1⟩))))))))))) ?_
  rw [(fin_of_fld (d := d) (m := fld wd 21 3) (f7)), (fin_of_fld (d := a) (m := fld wd 16 5) (f6)), (fin_of_fld (d := b) (m := fld wd 11 5) (f5)), (bit_of_fld (b := x) (lo := 10) (w := wd) (f4)), (bit_of_fld (b := y) (lo := 9) (w := wd) (f3)), (fin_of_fld (d := k) (m := fld wd 6 3) (f2)), (bit_of_fld (b := z) (lo := 5) (w := wd) (f1))]

theorem EncodeDecode.vflt (d : Fin 8) (a : Fin 32) (b : Fin 32) (x : Bool) (y : Bool) (k : Fin 8) (z : Bool) : EncodeDecode.Statement (.vflt d a b x y k z) := by
  intro wd hwf hw
  have hw : 2483027978 + d.val * 2097152 + a.val * 65536 + b.val * 2048 + x.toNat * 1024 + y.toNat * 512 + k.val * 64 + z.toNat * 32 = wd := Option.some.inj hw
  have hw : wd = atop 5 10 (atop 1 z.toNat (atop 3 k.val (atop 1 y.toNat (atop 1 x.toNat (atop 5 b.val (atop 5 a.val (atop 3 d.val (atop 2 0 (37))))))))) := by unfold atop; omega
  obtain ⟨f0, f1, f2, f3, f4, f5, f6, f7, f8, ho⟩ := unpack9 (n1 := 5)  (n2 := 1)  (n3 := 3)  (n4 := 1)  (n5 := 1)  (n6 := 5)  (n7 := 5)  (n8 := 3)  (n9 := 2) (by decide) z.toNat_lt k.isLt y.toNat_lt x.toNat_lt b.isLt a.isLt d.isLt (by decide) hw
  have ho : wd / 67108864 = 37 := ho
  refine decode_of_raw (by rw [ho]; rfl) ?_ hwf
  unfold decodeRaw
  rw [ho]
  show decodeOp25 wd = _
  unfold decodeOp25
  have c0 : fld wd 0 5 = 10 := f0
  have c1 : fld wd 24 2 = 0 := f8
  refine Eq.trans ((if_neg (fun hh => absurd (c0.symm.trans hh.1) (by decide))).trans ((if_neg (fun hh => absurd (c0.symm.trans hh.1) (by decide))).trans ((if_neg (fun hh => absurd (c0.symm.trans hh.1) (by decide))).trans ((if_neg (fun hh => absurd (c0.symm.trans hh.1) (by decide))).trans ((if_neg (fun hh => absurd (c0.symm.trans hh.1) (by decide))).trans ((if_neg (fun hh => absurd (c0.symm.trans hh.1) (by decide))).trans ((if_neg (fun hh => absurd (c0.symm.trans hh.1) (by decide))).trans ((if_neg (fun hh => absurd (c0.symm.trans hh.1) (by decide))).trans ((if_neg (fun hh => absurd (c0.symm.trans hh.1) (by decide))).trans ((if_neg (fun hh => absurd (c0.symm.trans hh.1) (by decide))).trans ((if_pos ⟨c0, c1⟩)))))))))))) ?_
  rw [(fin_of_fld (d := d) (m := fld wd 21 3) (f7)), (fin_of_fld (d := a) (m := fld wd 16 5) (f6)), (fin_of_fld (d := b) (m := fld wd 11 5) (f5)), (bit_of_fld (b := x) (lo := 10) (w := wd) (f4)), (bit_of_fld (b := y) (lo := 9) (w := wd) (f3)), (fin_of_fld (d := k) (m := fld wd 6 3) (f2)), (bit_of_fld (b := z) (lo := 5) (w := wd) (f1))]

theorem EncodeDecode.vfle (d : Fin 8) (a : Fin 32) (b : Fin 32) (x : Bool) (y : Bool) (k : Fin 8) (z : Bool) : EncodeDecode.Statement (.vfle d a b x y k z) := by
  intro wd hwf hw
  have hw : 2483027979 + d.val * 2097152 + a.val * 65536 + b.val * 2048 + x.toNat * 1024 + y.toNat * 512 + k.val * 64 + z.toNat * 32 = wd := Option.some.inj hw
  have hw : wd = atop 5 11 (atop 1 z.toNat (atop 3 k.val (atop 1 y.toNat (atop 1 x.toNat (atop 5 b.val (atop 5 a.val (atop 3 d.val (atop 2 0 (37))))))))) := by unfold atop; omega
  obtain ⟨f0, f1, f2, f3, f4, f5, f6, f7, f8, ho⟩ := unpack9 (n1 := 5)  (n2 := 1)  (n3 := 3)  (n4 := 1)  (n5 := 1)  (n6 := 5)  (n7 := 5)  (n8 := 3)  (n9 := 2) (by decide) z.toNat_lt k.isLt y.toNat_lt x.toNat_lt b.isLt a.isLt d.isLt (by decide) hw
  have ho : wd / 67108864 = 37 := ho
  refine decode_of_raw (by rw [ho]; rfl) ?_ hwf
  unfold decodeRaw
  rw [ho]
  show decodeOp25 wd = _
  unfold decodeOp25
  have c0 : fld wd 0 5 = 11 := f0
  have c1 : fld wd 24 2 = 0 := f8
  refine Eq.trans ((if_neg (fun hh => absurd (c0.symm.trans hh.1) (by decide))).trans ((if_neg (fun hh => absurd (c0.symm.trans hh.1) (by decide))).trans ((if_neg (fun hh => absurd (c0.symm.trans hh.1) (by decide))).trans ((if_neg (fun hh => absurd (c0.symm.trans hh.1) (by decide))).trans ((if_neg (fun hh => absurd (c0.symm.trans hh.1) (by decide))).trans ((if_neg (fun hh => absurd (c0.symm.trans hh.1) (by decide))).trans ((if_neg (fun hh => absurd (c0.symm.trans hh.1) (by decide))).trans ((if_neg (fun hh => absurd (c0.symm.trans hh.1) (by decide))).trans ((if_neg (fun hh => absurd (c0.symm.trans hh.1) (by decide))).trans ((if_neg (fun hh => absurd (c0.symm.trans hh.1) (by decide))).trans ((if_neg (fun hh => absurd (c0.symm.trans hh.1) (by decide))).trans ((if_pos ⟨c0, c1⟩))))))))))))) ?_
  rw [(fin_of_fld (d := d) (m := fld wd 21 3) (f7)), (fin_of_fld (d := a) (m := fld wd 16 5) (f6)), (fin_of_fld (d := b) (m := fld wd 11 5) (f5)), (bit_of_fld (b := x) (lo := 10) (w := wd) (f4)), (bit_of_fld (b := y) (lo := 9) (w := wd) (f3)), (fin_of_fld (d := k) (m := fld wd 6 3) (f2)), (bit_of_fld (b := z) (lo := 5) (w := wd) (f1))]

theorem EncodeDecode.vfunord (d : Fin 8) (a : Fin 32) (b : Fin 32) (x : Bool) (y : Bool) (k : Fin 8) (z : Bool) : EncodeDecode.Statement (.vfunord d a b x y k z) := by
  intro wd hwf hw
  have hw : 2483027980 + d.val * 2097152 + a.val * 65536 + b.val * 2048 + x.toNat * 1024 + y.toNat * 512 + k.val * 64 + z.toNat * 32 = wd := Option.some.inj hw
  have hw : wd = atop 5 12 (atop 1 z.toNat (atop 3 k.val (atop 1 y.toNat (atop 1 x.toNat (atop 5 b.val (atop 5 a.val (atop 3 d.val (atop 2 0 (37))))))))) := by unfold atop; omega
  obtain ⟨f0, f1, f2, f3, f4, f5, f6, f7, f8, ho⟩ := unpack9 (n1 := 5)  (n2 := 1)  (n3 := 3)  (n4 := 1)  (n5 := 1)  (n6 := 5)  (n7 := 5)  (n8 := 3)  (n9 := 2) (by decide) z.toNat_lt k.isLt y.toNat_lt x.toNat_lt b.isLt a.isLt d.isLt (by decide) hw
  have ho : wd / 67108864 = 37 := ho
  refine decode_of_raw (by rw [ho]; rfl) ?_ hwf
  unfold decodeRaw
  rw [ho]
  show decodeOp25 wd = _
  unfold decodeOp25
  have c0 : fld wd 0 5 = 12 := f0
  have c1 : fld wd 24 2 = 0 := f8
  refine Eq.trans ((if_neg (fun hh => absurd (c0.symm.trans hh.1) (by decide))).trans ((if_neg (fun hh => absurd (c0.symm.trans hh.1) (by decide))).trans ((if_neg (fun hh => absurd (c0.symm.trans hh.1) (by decide))).trans ((if_neg (fun hh => absurd (c0.symm.trans hh.1) (by decide))).trans ((if_neg (fun hh => absurd (c0.symm.trans hh.1) (by decide))).trans ((if_neg (fun hh => absurd (c0.symm.trans hh.1) (by decide))).trans ((if_neg (fun hh => absurd (c0.symm.trans hh.1) (by decide))).trans ((if_neg (fun hh => absurd (c0.symm.trans hh.1) (by decide))).trans ((if_neg (fun hh => absurd (c0.symm.trans hh.1) (by decide))).trans ((if_neg (fun hh => absurd (c0.symm.trans hh.1) (by decide))).trans ((if_neg (fun hh => absurd (c0.symm.trans hh.1) (by decide))).trans ((if_neg (fun hh => absurd (c0.symm.trans hh.1) (by decide))).trans ((if_pos ⟨c0, c1⟩)))))))))))))) ?_
  rw [(fin_of_fld (d := d) (m := fld wd 21 3) (f7)), (fin_of_fld (d := a) (m := fld wd 16 5) (f6)), (fin_of_fld (d := b) (m := fld wd 11 5) (f5)), (bit_of_fld (b := x) (lo := 10) (w := wd) (f4)), (bit_of_fld (b := y) (lo := 9) (w := wd) (f3)), (fin_of_fld (d := k) (m := fld wd 6 3) (f2)), (bit_of_fld (b := z) (lo := 5) (w := wd) (f1))]

theorem EncodeDecode.kand (d : Fin 8) (a : Fin 8) (b : Fin 8) (k : Fin 8) : EncodeDecode.Statement (.kand d a b k) := by
  intro wd hwf hw
  have hw : 2550136832 + d.val * 2097152 + a.val * 65536 + b.val * 2048 + k.val * 64 = wd := Option.some.inj hw
  have hw : wd = atop 6 0 (atop 3 k.val (atop 2 0 (atop 3 b.val (atop 2 0 (atop 3 a.val (atop 2 0 (atop 3 d.val (atop 2 0 (38))))))))) := by unfold atop; omega
  obtain ⟨f0, f1, f2, f3, f4, f5, f6, f7, f8, ho⟩ := unpack9 (n1 := 6)  (n2 := 3)  (n3 := 2)  (n4 := 3)  (n5 := 2)  (n6 := 3)  (n7 := 2)  (n8 := 3)  (n9 := 2) (by decide) k.isLt (by decide) b.isLt (by decide) a.isLt (by decide) d.isLt (by decide) hw
  have ho : wd / 67108864 = 38 := ho
  refine decode_of_raw (by rw [ho]; rfl) ?_ hwf
  unfold decodeRaw
  rw [ho]
  show decodeOp26 wd = _
  unfold decodeOp26
  have c0 : fld wd 0 6 = 0 := f0
  have c1 : fld wd 9 2 = 0 := f2
  have c2 : fld wd 14 2 = 0 := f4
  have c3 : fld wd 19 2 = 0 := f6
  have c4 : fld wd 24 2 = 0 := f8
  refine Eq.trans ((if_pos ⟨c0, c1, c2, c3, c4⟩)) ?_
  rw [(fin_of_fld (d := d) (m := fld wd 21 3) (f7)), (fin_of_fld (d := a) (m := fld wd 16 3) (f5)), (fin_of_fld (d := b) (m := fld wd 11 3) (f3)), (fin_of_fld (d := k) (m := fld wd 6 3) (f1))]

theorem EncodeDecode.kor (d : Fin 8) (a : Fin 8) (b : Fin 8) (k : Fin 8) : EncodeDecode.Statement (.kor d a b k) := by
  intro wd hwf hw
  have hw : 2550136833 + d.val * 2097152 + a.val * 65536 + b.val * 2048 + k.val * 64 = wd := Option.some.inj hw
  have hw : wd = atop 6 1 (atop 3 k.val (atop 2 0 (atop 3 b.val (atop 2 0 (atop 3 a.val (atop 2 0 (atop 3 d.val (atop 2 0 (38))))))))) := by unfold atop; omega
  obtain ⟨f0, f1, f2, f3, f4, f5, f6, f7, f8, ho⟩ := unpack9 (n1 := 6)  (n2 := 3)  (n3 := 2)  (n4 := 3)  (n5 := 2)  (n6 := 3)  (n7 := 2)  (n8 := 3)  (n9 := 2) (by decide) k.isLt (by decide) b.isLt (by decide) a.isLt (by decide) d.isLt (by decide) hw
  have ho : wd / 67108864 = 38 := ho
  refine decode_of_raw (by rw [ho]; rfl) ?_ hwf
  unfold decodeRaw
  rw [ho]
  show decodeOp26 wd = _
  unfold decodeOp26
  have c0 : fld wd 0 6 = 1 := f0
  have c1 : fld wd 9 2 = 0 := f2
  have c2 : fld wd 14 2 = 0 := f4
  have c3 : fld wd 19 2 = 0 := f6
  have c4 : fld wd 24 2 = 0 := f8
  refine Eq.trans ((if_neg (fun hh => absurd (c0.symm.trans hh.1) (by decide))).trans ((if_pos ⟨c0, c1, c2, c3, c4⟩))) ?_
  rw [(fin_of_fld (d := d) (m := fld wd 21 3) (f7)), (fin_of_fld (d := a) (m := fld wd 16 3) (f5)), (fin_of_fld (d := b) (m := fld wd 11 3) (f3)), (fin_of_fld (d := k) (m := fld wd 6 3) (f1))]

theorem EncodeDecode.kxor (d : Fin 8) (a : Fin 8) (b : Fin 8) (k : Fin 8) : EncodeDecode.Statement (.kxor d a b k) := by
  intro wd hwf hw
  have hw : 2550136834 + d.val * 2097152 + a.val * 65536 + b.val * 2048 + k.val * 64 = wd := Option.some.inj hw
  have hw : wd = atop 6 2 (atop 3 k.val (atop 2 0 (atop 3 b.val (atop 2 0 (atop 3 a.val (atop 2 0 (atop 3 d.val (atop 2 0 (38))))))))) := by unfold atop; omega
  obtain ⟨f0, f1, f2, f3, f4, f5, f6, f7, f8, ho⟩ := unpack9 (n1 := 6)  (n2 := 3)  (n3 := 2)  (n4 := 3)  (n5 := 2)  (n6 := 3)  (n7 := 2)  (n8 := 3)  (n9 := 2) (by decide) k.isLt (by decide) b.isLt (by decide) a.isLt (by decide) d.isLt (by decide) hw
  have ho : wd / 67108864 = 38 := ho
  refine decode_of_raw (by rw [ho]; rfl) ?_ hwf
  unfold decodeRaw
  rw [ho]
  show decodeOp26 wd = _
  unfold decodeOp26
  have c0 : fld wd 0 6 = 2 := f0
  have c1 : fld wd 9 2 = 0 := f2
  have c2 : fld wd 14 2 = 0 := f4
  have c3 : fld wd 19 2 = 0 := f6
  have c4 : fld wd 24 2 = 0 := f8
  refine Eq.trans ((if_neg (fun hh => absurd (c0.symm.trans hh.1) (by decide))).trans ((if_neg (fun hh => absurd (c0.symm.trans hh.1) (by decide))).trans ((if_pos ⟨c0, c1, c2, c3, c4⟩)))) ?_
  rw [(fin_of_fld (d := d) (m := fld wd 21 3) (f7)), (fin_of_fld (d := a) (m := fld wd 16 3) (f5)), (fin_of_fld (d := b) (m := fld wd 11 3) (f3)), (fin_of_fld (d := k) (m := fld wd 6 3) (f1))]

theorem EncodeDecode.kandn (d : Fin 8) (a : Fin 8) (b : Fin 8) (k : Fin 8) : EncodeDecode.Statement (.kandn d a b k) := by
  intro wd hwf hw
  have hw : 2550136835 + d.val * 2097152 + a.val * 65536 + b.val * 2048 + k.val * 64 = wd := Option.some.inj hw
  have hw : wd = atop 6 3 (atop 3 k.val (atop 2 0 (atop 3 b.val (atop 2 0 (atop 3 a.val (atop 2 0 (atop 3 d.val (atop 2 0 (38))))))))) := by unfold atop; omega
  obtain ⟨f0, f1, f2, f3, f4, f5, f6, f7, f8, ho⟩ := unpack9 (n1 := 6)  (n2 := 3)  (n3 := 2)  (n4 := 3)  (n5 := 2)  (n6 := 3)  (n7 := 2)  (n8 := 3)  (n9 := 2) (by decide) k.isLt (by decide) b.isLt (by decide) a.isLt (by decide) d.isLt (by decide) hw
  have ho : wd / 67108864 = 38 := ho
  refine decode_of_raw (by rw [ho]; rfl) ?_ hwf
  unfold decodeRaw
  rw [ho]
  show decodeOp26 wd = _
  unfold decodeOp26
  have c0 : fld wd 0 6 = 3 := f0
  have c1 : fld wd 9 2 = 0 := f2
  have c2 : fld wd 14 2 = 0 := f4
  have c3 : fld wd 19 2 = 0 := f6
  have c4 : fld wd 24 2 = 0 := f8
  refine Eq.trans ((if_neg (fun hh => absurd (c0.symm.trans hh.1) (by decide))).trans ((if_neg (fun hh => absurd (c0.symm.trans hh.1) (by decide))).trans ((if_neg (fun hh => absurd (c0.symm.trans hh.1) (by decide))).trans ((if_pos ⟨c0, c1, c2, c3, c4⟩))))) ?_
  rw [(fin_of_fld (d := d) (m := fld wd 21 3) (f7)), (fin_of_fld (d := a) (m := fld wd 16 3) (f5)), (fin_of_fld (d := b) (m := fld wd 11 3) (f3)), (fin_of_fld (d := k) (m := fld wd 6 3) (f1))]

theorem EncodeDecode.knot (d : Fin 8) (a : Fin 8) (k : Fin 8) : EncodeDecode.Statement (.knot d a k) := by
  intro wd hwf hw
  have hw : 2550136836 + d.val * 2097152 + a.val * 65536 + k.val * 64 = wd := Option.some.inj hw
  have hw : wd = atop 6 4 (atop 3 k.val (atop 7 0 (atop 3 a.val (atop 2 0 (atop 3 d.val (atop 2 0 (38))))))) := by unfold atop; omega
  obtain ⟨f0, f1, f2, f3, f4, f5, f6, ho⟩ := unpack7 (n1 := 6)  (n2 := 3)  (n3 := 7)  (n4 := 3)  (n5 := 2)  (n6 := 3)  (n7 := 2) (by decide) k.isLt (by decide) a.isLt (by decide) d.isLt (by decide) hw
  have ho : wd / 67108864 = 38 := ho
  refine decode_of_raw (by rw [ho]; rfl) ?_ hwf
  unfold decodeRaw
  rw [ho]
  show decodeOp26 wd = _
  unfold decodeOp26
  have c0 : fld wd 0 6 = 4 := f0
  have c1 : fld wd 9 7 = 0 := f2
  have c2 : fld wd 19 2 = 0 := f4
  have c3 : fld wd 24 2 = 0 := f6
  refine Eq.trans ((if_neg (fun hh => absurd (c0.symm.trans hh.1) (by decide))).trans ((if_neg (fun hh => absurd (c0.symm.trans hh.1) (by decide))).trans ((if_neg (fun hh => absurd (c0.symm.trans hh.1) (by decide))).trans ((if_neg (fun hh => absurd (c0.symm.trans hh.1) (by decide))).trans ((if_pos ⟨c0, c1, c2, c3⟩)))))) ?_
  rw [(fin_of_fld (d := d) (m := fld wd 21 3) (f5)), (fin_of_fld (d := a) (m := fld wd 16 3) (f3)), (fin_of_fld (d := k) (m := fld wd 6 3) (f1))]

theorem EncodeDecode.kmov (d : Fin 8) (a : Fin 8) (k : Fin 8) : EncodeDecode.Statement (.kmov d a k) := by
  intro wd hwf hw
  have hw : 2550136837 + d.val * 2097152 + a.val * 65536 + k.val * 64 = wd := Option.some.inj hw
  have hw : wd = atop 6 5 (atop 3 k.val (atop 7 0 (atop 3 a.val (atop 2 0 (atop 3 d.val (atop 2 0 (38))))))) := by unfold atop; omega
  obtain ⟨f0, f1, f2, f3, f4, f5, f6, ho⟩ := unpack7 (n1 := 6)  (n2 := 3)  (n3 := 7)  (n4 := 3)  (n5 := 2)  (n6 := 3)  (n7 := 2) (by decide) k.isLt (by decide) a.isLt (by decide) d.isLt (by decide) hw
  have ho : wd / 67108864 = 38 := ho
  refine decode_of_raw (by rw [ho]; rfl) ?_ hwf
  unfold decodeRaw
  rw [ho]
  show decodeOp26 wd = _
  unfold decodeOp26
  have c0 : fld wd 0 6 = 5 := f0
  have c1 : fld wd 9 7 = 0 := f2
  have c2 : fld wd 19 2 = 0 := f4
  have c3 : fld wd 24 2 = 0 := f6
  refine Eq.trans ((if_neg (fun hh => absurd (c0.symm.trans hh.1) (by decide))).trans ((if_neg (fun hh => absurd (c0.symm.trans hh.1) (by decide))).trans ((if_neg (fun hh => absurd (c0.symm.trans hh.1) (by decide))).trans ((if_neg (fun hh => absurd (c0.symm.trans hh.1) (by decide))).trans ((if_neg (fun hh => absurd (c0.symm.trans hh.1) (by decide))).trans ((if_pos ⟨c0, c1, c2, c3⟩))))))) ?_
  rw [(fin_of_fld (d := d) (m := fld wd 21 3) (f5)), (fin_of_fld (d := a) (m := fld wd 16 3) (f3)), (fin_of_fld (d := k) (m := fld wd 6 3) (f1))]

theorem EncodeDecode.kset (d : Fin 8) (k : Fin 8) : EncodeDecode.Statement (.kset d k) := by
  intro wd hwf hw
  have hw : 2550136838 + d.val * 2097152 + k.val * 64 = wd := Option.some.inj hw
  have hw : wd = atop 6 6 (atop 3 k.val (atop 12 0 (atop 3 d.val (atop 2 0 (38))))) := by unfold atop; omega
  obtain ⟨f0, f1, f2, f3, f4, ho⟩ := unpack5 (n1 := 6)  (n2 := 3)  (n3 := 12)  (n4 := 3)  (n5 := 2) (by decide) k.isLt (by decide) d.isLt (by decide) hw
  have ho : wd / 67108864 = 38 := ho
  refine decode_of_raw (by rw [ho]; rfl) ?_ hwf
  unfold decodeRaw
  rw [ho]
  show decodeOp26 wd = _
  unfold decodeOp26
  have c0 : fld wd 0 6 = 6 := f0
  have c1 : fld wd 9 12 = 0 := f2
  have c2 : fld wd 24 2 = 0 := f4
  refine Eq.trans ((if_neg (fun hh => absurd (c0.symm.trans hh.1) (by decide))).trans ((if_neg (fun hh => absurd (c0.symm.trans hh.1) (by decide))).trans ((if_neg (fun hh => absurd (c0.symm.trans hh.1) (by decide))).trans ((if_neg (fun hh => absurd (c0.symm.trans hh.1) (by decide))).trans ((if_neg (fun hh => absurd (c0.symm.trans hh.1) (by decide))).trans ((if_neg (fun hh => absurd (c0.symm.trans hh.1) (by decide))).trans ((if_pos ⟨c0, c1, c2⟩)))))))) ?_
  rw [(fin_of_fld (d := d) (m := fld wd 21 3) (f3)), (fin_of_fld (d := k) (m := fld wd 6 3) (f1))]

theorem EncodeDecode.kclr (d : Fin 8) (k : Fin 8) : EncodeDecode.Statement (.kclr d k) := by
  intro wd hwf hw
  have hw : 2550136839 + d.val * 2097152 + k.val * 64 = wd := Option.some.inj hw
  have hw : wd = atop 6 7 (atop 3 k.val (atop 12 0 (atop 3 d.val (atop 2 0 (38))))) := by unfold atop; omega
  obtain ⟨f0, f1, f2, f3, f4, ho⟩ := unpack5 (n1 := 6)  (n2 := 3)  (n3 := 12)  (n4 := 3)  (n5 := 2) (by decide) k.isLt (by decide) d.isLt (by decide) hw
  have ho : wd / 67108864 = 38 := ho
  refine decode_of_raw (by rw [ho]; rfl) ?_ hwf
  unfold decodeRaw
  rw [ho]
  show decodeOp26 wd = _
  unfold decodeOp26
  have c0 : fld wd 0 6 = 7 := f0
  have c1 : fld wd 9 12 = 0 := f2
  have c2 : fld wd 24 2 = 0 := f4
  refine Eq.trans ((if_neg (fun hh => absurd (c0.symm.trans hh.1) (by decide))).trans ((if_neg (fun hh => absurd (c0.symm.trans hh.1) (by decide))).trans ((if_neg (fun hh => absurd (c0.symm.trans hh.1) (by decide))).trans ((if_neg (fun hh => absurd (c0.symm.trans hh.1) (by decide))).trans ((if_neg (fun hh => absurd (c0.symm.trans hh.1) (by decide))).trans ((if_neg (fun hh => absurd (c0.symm.trans hh.1) (by decide))).trans ((if_neg (fun hh => absurd (c0.symm.trans hh.1) (by decide))).trans ((if_pos ⟨c0, c1, c2⟩))))))))) ?_
  rw [(fin_of_fld (d := d) (m := fld wd 21 3) (f3)), (fin_of_fld (d := k) (m := fld wd 6 3) (f1))]

theorem EncodeDecode.kpopc (d : Fin 32) (a : Fin 8) (k : Fin 8) : EncodeDecode.Statement (.kpopc d a k) := by
  intro wd hwf hw
  have hw : 2550136840 + d.val * 2097152 + a.val * 65536 + k.val * 64 = wd := Option.some.inj hw
  have hw : wd = atop 6 8 (atop 3 k.val (atop 7 0 (atop 3 a.val (atop 2 0 (atop 5 d.val (38)))))) := by unfold atop; omega
  obtain ⟨f0, f1, f2, f3, f4, f5, ho⟩ := unpack6 (n1 := 6)  (n2 := 3)  (n3 := 7)  (n4 := 3)  (n5 := 2)  (n6 := 5) (by decide) k.isLt (by decide) a.isLt (by decide) d.isLt hw
  have ho : wd / 67108864 = 38 := ho
  refine decode_of_raw (by rw [ho]; rfl) ?_ hwf
  unfold decodeRaw
  rw [ho]
  show decodeOp26 wd = _
  unfold decodeOp26
  have c0 : fld wd 0 6 = 8 := f0
  have c1 : fld wd 9 7 = 0 := f2
  have c2 : fld wd 19 2 = 0 := f4
  refine Eq.trans ((if_neg (fun hh => absurd (c0.symm.trans hh.1) (by decide))).trans ((if_neg (fun hh => absurd (c0.symm.trans hh.1) (by decide))).trans ((if_neg (fun hh => absurd (c0.symm.trans hh.1) (by decide))).trans ((if_neg (fun hh => absurd (c0.symm.trans hh.1) (by decide))).trans ((if_neg (fun hh => absurd (c0.symm.trans hh.1) (by decide))).trans ((if_neg (fun hh => absurd (c0.symm.trans hh.1) (by decide))).trans ((if_neg (fun hh => absurd (c0.symm.trans hh.1) (by decide))).trans ((if_neg (fun hh => absurd (c0.symm.trans hh.1) (by decide))).trans ((if_pos ⟨c0, c1, c2⟩)))))))))) ?_
  rw [(fin_of_fld (d := d) (m := fld wd 21 5) (f5)), (fin_of_fld (d := a) (m := fld wd 16 3) (f3)), (fin_of_fld (d := k) (m := fld wd 6 3) (f1))]

theorem EncodeDecode.kfirst (d : Fin 32) (a : Fin 8) (k : Fin 8) : EncodeDecode.Statement (.kfirst d a k) := by
  intro wd hwf hw
  have hw : 2550136841 + d.val * 2097152 + a.val * 65536 + k.val * 64 = wd := Option.some.inj hw
  have hw : wd = atop 6 9 (atop 3 k.val (atop 7 0 (atop 3 a.val (atop 2 0 (atop 5 d.val (38)))))) := by unfold atop; omega
  obtain ⟨f0, f1, f2, f3, f4, f5, ho⟩ := unpack6 (n1 := 6)  (n2 := 3)  (n3 := 7)  (n4 := 3)  (n5 := 2)  (n6 := 5) (by decide) k.isLt (by decide) a.isLt (by decide) d.isLt hw
  have ho : wd / 67108864 = 38 := ho
  refine decode_of_raw (by rw [ho]; rfl) ?_ hwf
  unfold decodeRaw
  rw [ho]
  show decodeOp26 wd = _
  unfold decodeOp26
  have c0 : fld wd 0 6 = 9 := f0
  have c1 : fld wd 9 7 = 0 := f2
  have c2 : fld wd 19 2 = 0 := f4
  refine Eq.trans ((if_neg (fun hh => absurd (c0.symm.trans hh.1) (by decide))).trans ((if_neg (fun hh => absurd (c0.symm.trans hh.1) (by decide))).trans ((if_neg (fun hh => absurd (c0.symm.trans hh.1) (by decide))).trans ((if_neg (fun hh => absurd (c0.symm.trans hh.1) (by decide))).trans ((if_neg (fun hh => absurd (c0.symm.trans hh.1) (by decide))).trans ((if_neg (fun hh => absurd (c0.symm.trans hh.1) (by decide))).trans ((if_neg (fun hh => absurd (c0.symm.trans hh.1) (by decide))).trans ((if_neg (fun hh => absurd (c0.symm.trans hh.1) (by decide))).trans ((if_neg (fun hh => absurd (c0.symm.trans hh.1) (by decide))).trans ((if_pos ⟨c0, c1, c2⟩))))))))))) ?_
  rw [(fin_of_fld (d := d) (m := fld wd 21 5) (f5)), (fin_of_fld (d := a) (m := fld wd 16 3) (f3)), (fin_of_fld (d := k) (m := fld wd 6 3) (f1))]

theorem EncodeDecode.ksbf (d : Fin 8) (a : Fin 8) (k : Fin 8) : EncodeDecode.Statement (.ksbf d a k) := by
  intro wd hwf hw
  have hw : 2550136842 + d.val * 2097152 + a.val * 65536 + k.val * 64 = wd := Option.some.inj hw
  have hw : wd = atop 6 10 (atop 3 k.val (atop 7 0 (atop 3 a.val (atop 2 0 (atop 3 d.val (atop 2 0 (38))))))) := by unfold atop; omega
  obtain ⟨f0, f1, f2, f3, f4, f5, f6, ho⟩ := unpack7 (n1 := 6)  (n2 := 3)  (n3 := 7)  (n4 := 3)  (n5 := 2)  (n6 := 3)  (n7 := 2) (by decide) k.isLt (by decide) a.isLt (by decide) d.isLt (by decide) hw
  have ho : wd / 67108864 = 38 := ho
  refine decode_of_raw (by rw [ho]; rfl) ?_ hwf
  unfold decodeRaw
  rw [ho]
  show decodeOp26 wd = _
  unfold decodeOp26
  have c0 : fld wd 0 6 = 10 := f0
  have c1 : fld wd 9 7 = 0 := f2
  have c2 : fld wd 19 2 = 0 := f4
  have c3 : fld wd 24 2 = 0 := f6
  refine Eq.trans ((if_neg (fun hh => absurd (c0.symm.trans hh.1) (by decide))).trans ((if_neg (fun hh => absurd (c0.symm.trans hh.1) (by decide))).trans ((if_neg (fun hh => absurd (c0.symm.trans hh.1) (by decide))).trans ((if_neg (fun hh => absurd (c0.symm.trans hh.1) (by decide))).trans ((if_neg (fun hh => absurd (c0.symm.trans hh.1) (by decide))).trans ((if_neg (fun hh => absurd (c0.symm.trans hh.1) (by decide))).trans ((if_neg (fun hh => absurd (c0.symm.trans hh.1) (by decide))).trans ((if_neg (fun hh => absurd (c0.symm.trans hh.1) (by decide))).trans ((if_neg (fun hh => absurd (c0.symm.trans hh.1) (by decide))).trans ((if_neg (fun hh => absurd (c0.symm.trans hh.1) (by decide))).trans ((if_pos ⟨c0, c1, c2, c3⟩)))))))))))) ?_
  rw [(fin_of_fld (d := d) (m := fld wd 21 3) (f5)), (fin_of_fld (d := a) (m := fld wd 16 3) (f3)), (fin_of_fld (d := k) (m := fld wd 6 3) (f1))]

theorem EncodeDecode.ksif (d : Fin 8) (a : Fin 8) (k : Fin 8) : EncodeDecode.Statement (.ksif d a k) := by
  intro wd hwf hw
  have hw : 2550136843 + d.val * 2097152 + a.val * 65536 + k.val * 64 = wd := Option.some.inj hw
  have hw : wd = atop 6 11 (atop 3 k.val (atop 7 0 (atop 3 a.val (atop 2 0 (atop 3 d.val (atop 2 0 (38))))))) := by unfold atop; omega
  obtain ⟨f0, f1, f2, f3, f4, f5, f6, ho⟩ := unpack7 (n1 := 6)  (n2 := 3)  (n3 := 7)  (n4 := 3)  (n5 := 2)  (n6 := 3)  (n7 := 2) (by decide) k.isLt (by decide) a.isLt (by decide) d.isLt (by decide) hw
  have ho : wd / 67108864 = 38 := ho
  refine decode_of_raw (by rw [ho]; rfl) ?_ hwf
  unfold decodeRaw
  rw [ho]
  show decodeOp26 wd = _
  unfold decodeOp26
  have c0 : fld wd 0 6 = 11 := f0
  have c1 : fld wd 9 7 = 0 := f2
  have c2 : fld wd 19 2 = 0 := f4
  have c3 : fld wd 24 2 = 0 := f6
  refine Eq.trans ((if_neg (fun hh => absurd (c0.symm.trans hh.1) (by decide))).trans ((if_neg (fun hh => absurd (c0.symm.trans hh.1) (by decide))).trans ((if_neg (fun hh => absurd (c0.symm.trans hh.1) (by decide))).trans ((if_neg (fun hh => absurd (c0.symm.trans hh.1) (by decide))).trans ((if_neg (fun hh => absurd (c0.symm.trans hh.1) (by decide))).trans ((if_neg (fun hh => absurd (c0.symm.trans hh.1) (by decide))).trans ((if_neg (fun hh => absurd (c0.symm.trans hh.1) (by decide))).trans ((if_neg (fun hh => absurd (c0.symm.trans hh.1) (by decide))).trans ((if_neg (fun hh => absurd (c0.symm.trans hh.1) (by decide))).trans ((if_neg (fun hh => absurd (c0.symm.trans hh.1) (by decide))).trans ((if_neg (fun hh => absurd (c0.symm.trans hh.1) (by decide))).trans ((if_pos ⟨c0, c1, c2, c3⟩))))))))))))) ?_
  rw [(fin_of_fld (d := d) (m := fld wd 21 3) (f5)), (fin_of_fld (d := a) (m := fld wd 16 3) (f3)), (fin_of_fld (d := k) (m := fld wd 6 3) (f1))]

theorem EncodeDecode.ksof (d : Fin 8) (a : Fin 8) (k : Fin 8) : EncodeDecode.Statement (.ksof d a k) := by
  intro wd hwf hw
  have hw : 2550136844 + d.val * 2097152 + a.val * 65536 + k.val * 64 = wd := Option.some.inj hw
  have hw : wd = atop 6 12 (atop 3 k.val (atop 7 0 (atop 3 a.val (atop 2 0 (atop 3 d.val (atop 2 0 (38))))))) := by unfold atop; omega
  obtain ⟨f0, f1, f2, f3, f4, f5, f6, ho⟩ := unpack7 (n1 := 6)  (n2 := 3)  (n3 := 7)  (n4 := 3)  (n5 := 2)  (n6 := 3)  (n7 := 2) (by decide) k.isLt (by decide) a.isLt (by decide) d.isLt (by decide) hw
  have ho : wd / 67108864 = 38 := ho
  refine decode_of_raw (by rw [ho]; rfl) ?_ hwf
  unfold decodeRaw
  rw [ho]
  show decodeOp26 wd = _
  unfold decodeOp26
  have c0 : fld wd 0 6 = 12 := f0
  have c1 : fld wd 9 7 = 0 := f2
  have c2 : fld wd 19 2 = 0 := f4
  have c3 : fld wd 24 2 = 0 := f6
  refine Eq.trans ((if_neg (fun hh => absurd (c0.symm.trans hh.1) (by decide))).trans ((if_neg (fun hh => absurd (c0.symm.trans hh.1) (by decide))).trans ((if_neg (fun hh => absurd (c0.symm.trans hh.1) (by decide))).trans ((if_neg (fun hh => absurd (c0.symm.trans hh.1) (by decide))).trans ((if_neg (fun hh => absurd (c0.symm.trans hh.1) (by decide))).trans ((if_neg (fun hh => absurd (c0.symm.trans hh.1) (by decide))).trans ((if_neg (fun hh => absurd (c0.symm.trans hh.1) (by decide))).trans ((if_neg (fun hh => absurd (c0.symm.trans hh.1) (by decide))).trans ((if_neg (fun hh => absurd (c0.symm.trans hh.1) (by decide))).trans ((if_neg (fun hh => absurd (c0.symm.trans hh.1) (by decide))).trans ((if_neg (fun hh => absurd (c0.symm.trans hh.1) (by decide))).trans ((if_neg (fun hh => absurd (c0.symm.trans hh.1) (by decide))).trans ((if_pos ⟨c0, c1, c2, c3⟩)))))))))))))) ?_
  rw [(fin_of_fld (d := d) (m := fld wd 21 3) (f5)), (fin_of_fld (d := a) (m := fld wd 16 3) (f3)), (fin_of_fld (d := k) (m := fld wd 6 3) (f1))]

theorem EncodeDecode.pushm (k : Fin 8) : EncodeDecode.Statement (.pushm k) := by
  intro wd hwf hw
  have hw : 2617245696 + k.val * 64 = wd := Option.some.inj hw
  have hw : wd = atop 6 0 (atop 3 k.val (atop 17 0 (39))) := by unfold atop; omega
  obtain ⟨f0, f1, f2, ho⟩ := unpack3 (n1 := 6)  (n2 := 3)  (n3 := 17) (by decide) k.isLt (by decide) hw
  have ho : wd / 67108864 = 39 := ho
  refine decode_of_raw (by rw [ho]; rfl) ?_ hwf
  unfold decodeRaw
  rw [ho]
  show decodeOp27 wd = _
  unfold decodeOp27
  have c0 : fld wd 0 6 = 0 := f0
  have c1 : fld wd 9 17 = 0 := f2
  refine Eq.trans ((if_pos ⟨c0, c1⟩)) ?_
  rw [(fin_of_fld (d := k) (m := fld wd 6 3) (f1))]

theorem EncodeDecode.elsem (k : Fin 8) : EncodeDecode.Statement (.elsem k) := by
  intro wd hwf hw
  have hw : 2617245697 + k.val * 64 = wd := Option.some.inj hw
  have hw : wd = atop 6 1 (atop 3 k.val (atop 17 0 (39))) := by unfold atop; omega
  obtain ⟨f0, f1, f2, ho⟩ := unpack3 (n1 := 6)  (n2 := 3)  (n3 := 17) (by decide) k.isLt (by decide) hw
  have ho : wd / 67108864 = 39 := ho
  refine decode_of_raw (by rw [ho]; rfl) ?_ hwf
  unfold decodeRaw
  rw [ho]
  show decodeOp27 wd = _
  unfold decodeOp27
  have c0 : fld wd 0 6 = 1 := f0
  have c1 : fld wd 9 17 = 0 := f2
  refine Eq.trans ((if_neg (fun hh => absurd (c0.symm.trans hh.1) (by decide))).trans ((if_pos ⟨c0, c1⟩))) ?_
  rw [(fin_of_fld (d := k) (m := fld wd 6 3) (f1))]

theorem EncodeDecode.popm : EncodeDecode.Statement (.popm) := by
  intro wd hwf hw
  have hw : 2617245698 = wd := Option.some.inj hw
  have hw : wd = atop 26 2 (39) := by unfold atop; omega
  obtain ⟨f0, ho⟩ := unpack1 (n1 := 26) (by decide) hw
  have ho : wd / 67108864 = 39 := ho
  refine decode_of_raw (by rw [ho]; rfl) ?_ hwf
  unfold decodeRaw
  rw [ho]
  show decodeOp27 wd = _
  unfold decodeOp27
  have c0 : fld wd 0 26 = 2 := f0
  refine Eq.trans ((if_neg (fun hh => fld_short hh.1 c0 (by decide) (by decide))).trans ((if_neg (fun hh => fld_short hh.1 c0 (by decide) (by decide))).trans ((if_pos c0)))) ?_
  rfl

theorem EncodeDecode.kbreak (k : Fin 8) : EncodeDecode.Statement (.kbreak k) := by
  intro wd hwf hw
  have hw : 2617245699 + k.val * 64 = wd := Option.some.inj hw
  have hw : wd = atop 6 3 (atop 3 k.val (atop 17 0 (39))) := by unfold atop; omega
  obtain ⟨f0, f1, f2, ho⟩ := unpack3 (n1 := 6)  (n2 := 3)  (n3 := 17) (by decide) k.isLt (by decide) hw
  have ho : wd / 67108864 = 39 := ho
  refine decode_of_raw (by rw [ho]; rfl) ?_ hwf
  unfold decodeRaw
  rw [ho]
  show decodeOp27 wd = _
  unfold decodeOp27
  have c0 : fld wd 0 6 = 3 := f0
  have c1 : fld wd 9 17 = 0 := f2
  refine Eq.trans ((if_neg (fun hh => absurd (c0.symm.trans hh.1) (by decide))).trans ((if_neg (fun hh => absurd (c0.symm.trans hh.1) (by decide))).trans ((if_neg (fun hh => fld_short c0 hh (by decide) (by decide))).trans ((if_pos ⟨c0, c1⟩))))) ?_
  rw [(fin_of_fld (d := k) (m := fld wd 6 3) (f1))]

theorem EncodeDecode.region (k : Fin 8) (o : BitVec 16) : EncodeDecode.Statement (.region k o) := by
  intro wd hwf hw
  have hw : 2684354560 + k.val * 2097152 + o.toNat = wd := Option.some.inj hw
  have hw : wd = atop 16 o.toNat (atop 5 0 (atop 3 k.val (atop 2 0 (40)))) := by unfold atop; omega
  obtain ⟨f0, f1, f2, f3, ho⟩ := unpack4 (n1 := 16)  (n2 := 5)  (n3 := 3)  (n4 := 2) o.isLt (by decide) k.isLt (by decide) hw
  have ho : wd / 67108864 = 40 := ho
  refine decode_of_raw (by rw [ho]; rfl) ?_ hwf
  unfold decodeRaw
  rw [ho]
  show decodeOp28 wd = _
  unfold decodeOp28
  have c0 : fld wd 16 5 = 0 := f1
  have c1 : fld wd 24 2 = 0 := f3
  refine Eq.trans ((if_pos ⟨c0, c1⟩)) ?_
  rw [(fin_of_fld (d := k) (m := fld wd 21 3) (f2)), (vec_of_fld (v := o) (m := fld wd 0 16) (f0))]

theorem EncodeDecode.vgather (d : Fin 32) (a : Fin 32) (b : Fin 32) (x : Bool) (y : Bool) (k : Fin 8) : EncodeDecode.Statement (.vgather d a b x y k) := by
  intro wd hwf hw
  have hw : 2751463424 + d.val * 2097152 + a.val * 65536 + b.val * 2048 + x.toNat * 1024 + y.toNat * 512 + k.val * 64 = wd := Option.some.inj hw
  have hw : wd = atop 6 0 (atop 3 k.val (atop 1 y.toNat (atop 1 x.toNat (atop 5 b.val (atop 5 a.val (atop 5 d.val (41))))))) := by unfold atop; omega
  obtain ⟨f0, f1, f2, f3, f4, f5, f6, ho⟩ := unpack7 (n1 := 6)  (n2 := 3)  (n3 := 1)  (n4 := 1)  (n5 := 5)  (n6 := 5)  (n7 := 5) (by decide) k.isLt y.toNat_lt x.toNat_lt b.isLt a.isLt d.isLt hw
  have ho : wd / 67108864 = 41 := ho
  refine decode_of_raw (by rw [ho]; rfl) ?_ hwf
  unfold decodeRaw
  rw [ho]
  show decodeOp29 wd = _
  unfold decodeOp29
  have c0 : fld wd 0 6 = 0 := f0
  refine Eq.trans ((if_pos c0)) ?_
  rw [(fin_of_fld (d := d) (m := fld wd 21 5) (f6)), (fin_of_fld (d := a) (m := fld wd 16 5) (f5)), (fin_of_fld (d := b) (m := fld wd 11 5) (f4)), (bit_of_fld (b := x) (lo := 10) (w := wd) (f3)), (bit_of_fld (b := y) (lo := 9) (w := wd) (f2)), (fin_of_fld (d := k) (m := fld wd 6 3) (f1))]

theorem EncodeDecode.vslideup (d : Fin 32) (a : Fin 32) (b : Fin 32) (x : Bool) (k : Fin 8) : EncodeDecode.Statement (.vslideup d a b x k) := by
  intro wd hwf hw
  have hw : 2751463425 + d.val * 2097152 + a.val * 65536 + b.val * 2048 + x.toNat * 1024 + k.val * 64 = wd := Option.some.inj hw
  have hw : wd = atop 6 1 (atop 3 k.val (atop 1 0 (atop 1 x.toNat (atop 5 b.val (atop 5 a.val (atop 5 d.val (41))))))) := by unfold atop; omega
  obtain ⟨f0, f1, f2, f3, f4, f5, f6, ho⟩ := unpack7 (n1 := 6)  (n2 := 3)  (n3 := 1)  (n4 := 1)  (n5 := 5)  (n6 := 5)  (n7 := 5) (by decide) k.isLt (by decide) x.toNat_lt b.isLt a.isLt d.isLt hw
  have ho : wd / 67108864 = 41 := ho
  refine decode_of_raw (by rw [ho]; rfl) ?_ hwf
  unfold decodeRaw
  rw [ho]
  show decodeOp29 wd = _
  unfold decodeOp29
  have c0 : fld wd 0 6 = 1 := f0
  have c1 : fld wd 9 1 = 0 := f2
  refine Eq.trans ((if_neg (fun hh => absurd (c0.symm.trans hh) (by decide))).trans ((if_pos ⟨c0, c1⟩))) ?_
  rw [(fin_of_fld (d := d) (m := fld wd 21 5) (f6)), (fin_of_fld (d := a) (m := fld wd 16 5) (f5)), (fin_of_fld (d := b) (m := fld wd 11 5) (f4)), (bit_of_fld (b := x) (lo := 10) (w := wd) (f3)), (fin_of_fld (d := k) (m := fld wd 6 3) (f1))]

theorem EncodeDecode.vslidedn (d : Fin 32) (a : Fin 32) (b : Fin 32) (x : Bool) (k : Fin 8) : EncodeDecode.Statement (.vslidedn d a b x k) := by
  intro wd hwf hw
  have hw : 2751463426 + d.val * 2097152 + a.val * 65536 + b.val * 2048 + x.toNat * 1024 + k.val * 64 = wd := Option.some.inj hw
  have hw : wd = atop 6 2 (atop 3 k.val (atop 1 0 (atop 1 x.toNat (atop 5 b.val (atop 5 a.val (atop 5 d.val (41))))))) := by unfold atop; omega
  obtain ⟨f0, f1, f2, f3, f4, f5, f6, ho⟩ := unpack7 (n1 := 6)  (n2 := 3)  (n3 := 1)  (n4 := 1)  (n5 := 5)  (n6 := 5)  (n7 := 5) (by decide) k.isLt (by decide) x.toNat_lt b.isLt a.isLt d.isLt hw
  have ho : wd / 67108864 = 41 := ho
  refine decode_of_raw (by rw [ho]; rfl) ?_ hwf
  unfold decodeRaw
  rw [ho]
  show decodeOp29 wd = _
  unfold decodeOp29
  have c0 : fld wd 0 6 = 2 := f0
  have c1 : fld wd 9 1 = 0 := f2
  refine Eq.trans ((if_neg (fun hh => absurd (c0.symm.trans hh) (by decide))).trans ((if_neg (fun hh => absurd (c0.symm.trans hh.1) (by decide))).trans ((if_pos ⟨c0, c1⟩)))) ?_
  rw [(fin_of_fld (d := d) (m := fld wd 21 5) (f6)), (fin_of_fld (d := a) (m := fld wd 16 5) (f5)), (fin_of_fld (d := b) (m := fld wd 11 5) (f4)), (bit_of_fld (b := x) (lo := 10) (w := wd) (f3)), (fin_of_fld (d := k) (m := fld wd 6 3) (f1))]

theorem EncodeDecode.vslide1up (d : Fin 32) (a : Fin 32) (b : Fin 32) (x : Bool) (k : Fin 8) : EncodeDecode.Statement (.vslide1up d a b x k) := by
  intro wd hwf hw
  have hw : 2751463427 + d.val * 2097152 + a.val * 65536 + b.val * 2048 + x.toNat * 1024 + k.val * 64 = wd := Option.some.inj hw
  have hw : wd = atop 6 3 (atop 3 k.val (atop 1 0 (atop 1 x.toNat (atop 5 b.val (atop 5 a.val (atop 5 d.val (41))))))) := by unfold atop; omega
  obtain ⟨f0, f1, f2, f3, f4, f5, f6, ho⟩ := unpack7 (n1 := 6)  (n2 := 3)  (n3 := 1)  (n4 := 1)  (n5 := 5)  (n6 := 5)  (n7 := 5) (by decide) k.isLt (by decide) x.toNat_lt b.isLt a.isLt d.isLt hw
  have ho : wd / 67108864 = 41 := ho
  refine decode_of_raw (by rw [ho]; rfl) ?_ hwf
  unfold decodeRaw
  rw [ho]
  show decodeOp29 wd = _
  unfold decodeOp29
  have c0 : fld wd 0 6 = 3 := f0
  have c1 : fld wd 9 1 = 0 := f2
  refine Eq.trans ((if_neg (fun hh => absurd (c0.symm.trans hh) (by decide))).trans ((if_neg (fun hh => absurd (c0.symm.trans hh.1) (by decide))).trans ((if_neg (fun hh => absurd (c0.symm.trans hh.1) (by decide))).trans ((if_pos ⟨c0, c1⟩))))) ?_
  rw [(fin_of_fld (d := d) (m := fld wd 21 5) (f6)), (fin_of_fld (d := a) (m := fld wd 16 5) (f5)), (fin_of_fld (d := b) (m := fld wd 11 5) (f4)), (bit_of_fld (b := x) (lo := 10) (w := wd) (f3)), (fin_of_fld (d := k) (m := fld wd 6 3) (f1))]

theorem EncodeDecode.vslide1dn (d : Fin 32) (a : Fin 32) (b : Fin 32) (x : Bool) (k : Fin 8) : EncodeDecode.Statement (.vslide1dn d a b x k) := by
  intro wd hwf hw
  have hw : 2751463428 + d.val * 2097152 + a.val * 65536 + b.val * 2048 + x.toNat * 1024 + k.val * 64 = wd := Option.some.inj hw
  have hw : wd = atop 6 4 (atop 3 k.val (atop 1 0 (atop 1 x.toNat (atop 5 b.val (atop 5 a.val (atop 5 d.val (41))))))) := by unfold atop; omega
  obtain ⟨f0, f1, f2, f3, f4, f5, f6, ho⟩ := unpack7 (n1 := 6)  (n2 := 3)  (n3 := 1)  (n4 := 1)  (n5 := 5)  (n6 := 5)  (n7 := 5) (by decide) k.isLt (by decide) x.toNat_lt b.isLt a.isLt d.isLt hw
  have ho : wd / 67108864 = 41 := ho
  refine decode_of_raw (by rw [ho]; rfl) ?_ hwf
  unfold decodeRaw
  rw [ho]
  show decodeOp29 wd = _
  unfold decodeOp29
  have c0 : fld wd 0 6 = 4 := f0
  have c1 : fld wd 9 1 = 0 := f2
  refine Eq.trans ((if_neg (fun hh => absurd (c0.symm.trans hh) (by decide))).trans ((if_neg (fun hh => absurd (c0.symm.trans hh.1) (by decide))).trans ((if_neg (fun hh => absurd (c0.symm.trans hh.1) (by decide))).trans ((if_neg (fun hh => absurd (c0.symm.trans hh.1) (by decide))).trans ((if_pos ⟨c0, c1⟩)))))) ?_
  rw [(fin_of_fld (d := d) (m := fld wd 21 5) (f6)), (fin_of_fld (d := a) (m := fld wd 16 5) (f5)), (fin_of_fld (d := b) (m := fld wd 11 5) (f4)), (bit_of_fld (b := x) (lo := 10) (w := wd) (f3)), (fin_of_fld (d := k) (m := fld wd 6 3) (f1))]

theorem EncodeDecode.vcompress (d : Fin 32) (a : Fin 32) (x : Bool) (k : Fin 8) : EncodeDecode.Statement (.vcompress d a x k) := by
  intro wd hwf hw
  have hw : 2751463429 + d.val * 2097152 + a.val * 65536 + x.toNat * 1024 + k.val * 64 = wd := Option.some.inj hw
  have hw : wd = atop 6 5 (atop 3 k.val (atop 1 0 (atop 1 x.toNat (atop 5 0 (atop 5 a.val (atop 5 d.val (41))))))) := by unfold atop; omega
  obtain ⟨f0, f1, f2, f3, f4, f5, f6, ho⟩ := unpack7 (n1 := 6)  (n2 := 3)  (n3 := 1)  (n4 := 1)  (n5 := 5)  (n6 := 5)  (n7 := 5) (by decide) k.isLt (by decide) x.toNat_lt (by decide) a.isLt d.isLt hw
  have ho : wd / 67108864 = 41 := ho
  refine decode_of_raw (by rw [ho]; rfl) ?_ hwf
  unfold decodeRaw
  rw [ho]
  show decodeOp29 wd = _
  unfold decodeOp29
  have c0 : fld wd 0 6 = 5 := f0
  have c1 : fld wd 9 1 = 0 := f2
  have c2 : fld wd 11 5 = 0 := f4
  refine Eq.trans ((if_neg (fun hh => absurd (c0.symm.trans hh) (by decide))).trans ((if_neg (fun hh => absurd (c0.symm.trans hh.1) (by decide))).trans ((if_neg (fun hh => absurd (c0.symm.trans hh.1) (by decide))).trans ((if_neg (fun hh => absurd (c0.symm.trans hh.1) (by decide))).trans ((if_neg (fun hh => absurd (c0.symm.trans hh.1) (by decide))).trans ((if_pos ⟨c0, c1, c2⟩))))))) ?_
  rw [(fin_of_fld (d := d) (m := fld wd 21 5) (f6)), (fin_of_fld (d := a) (m := fld wd 16 5) (f5)), (bit_of_fld (b := x) (lo := 10) (w := wd) (f3)), (fin_of_fld (d := k) (m := fld wd 6 3) (f1))]

theorem EncodeDecode.vexpand (d : Fin 32) (a : Fin 32) (x : Bool) (k : Fin 8) : EncodeDecode.Statement (.vexpand d a x k) := by
  intro wd hwf hw
  have hw : 2751463430 + d.val * 2097152 + a.val * 65536 + x.toNat * 1024 + k.val * 64 = wd := Option.some.inj hw
  have hw : wd = atop 6 6 (atop 3 k.val (atop 1 0 (atop 1 x.toNat (atop 5 0 (atop 5 a.val (atop 5 d.val (41))))))) := by unfold atop; omega
  obtain ⟨f0, f1, f2, f3, f4, f5, f6, ho⟩ := unpack7 (n1 := 6)  (n2 := 3)  (n3 := 1)  (n4 := 1)  (n5 := 5)  (n6 := 5)  (n7 := 5) (by decide) k.isLt (by decide) x.toNat_lt (by decide) a.isLt d.isLt hw
  have ho : wd / 67108864 = 41 := ho
  refine decode_of_raw (by rw [ho]; rfl) ?_ hwf
  unfold decodeRaw
  rw [ho]
  show decodeOp29 wd = _
  unfold decodeOp29
  have c0 : fld wd 0 6 = 6 := f0
  have c1 : fld wd 9 1 = 0 := f2
  have c2 : fld wd 11 5 = 0 := f4
  refine Eq.trans ((if_neg (fun hh => absurd (c0.symm.trans hh) (by decide))).trans ((if_neg (fun hh => absurd (c0.symm.trans hh.1) (by decide))).trans ((if_neg (fun hh => absurd (c0.symm.trans hh.1) (by decide))).trans ((if_neg (fun hh => absurd (c0.symm.trans hh.1) (by decide))).trans ((if_neg (fun hh => absurd (c0.symm.trans hh.1) (by decide))).trans ((if_neg (fun hh => absurd (c0.symm.trans hh.1) (by decide))).trans ((if_pos ⟨c0, c1, c2⟩)))))))) ?_
  rw [(fin_of_fld (d := d) (m := fld wd 21 5) (f6)), (fin_of_fld (d := a) (m := fld wd 16 5) (f5)), (bit_of_fld (b := x) (lo := 10) (w := wd) (f3)), (fin_of_fld (d := k) (m := fld wd 6 3) (f1))]

theorem EncodeDecode.viota (d : Fin 32) (k : Fin 8) : EncodeDecode.Statement (.viota d k) := by
  intro wd hwf hw
  have hw : 2751463431 + d.val * 2097152 + k.val * 64 = wd := Option.some.inj hw
  have hw : wd = atop 6 7 (atop 3 k.val (atop 12 0 (atop 5 d.val (41)))) := by unfold atop; omega
  obtain ⟨f0, f1, f2, f3, ho⟩ := unpack4 (n1 := 6)  (n2 := 3)  (n3 := 12)  (n4 := 5) (by decide) k.isLt (by decide) d.isLt hw
  have ho : wd / 67108864 = 41 := ho
  refine decode_of_raw (by rw [ho]; rfl) ?_ hwf
  unfold decodeRaw
  rw [ho]
  show decodeOp29 wd = _
  unfold decodeOp29
  have c0 : fld wd 0 6 = 7 := f0
  have c1 : fld wd 9 12 = 0 := f2
  refine Eq.trans ((if_neg (fun hh => absurd (c0.symm.trans hh) (by decide))).trans ((if_neg (fun hh => absurd (c0.symm.trans hh.1) (by decide))).trans ((if_neg (fun hh => absurd (c0.symm.trans hh.1) (by decide))).trans ((if_neg (fun hh => absurd (c0.symm.trans hh.1) (by decide))).trans ((if_neg (fun hh => absurd (c0.symm.trans hh.1) (by decide))).trans ((if_neg (fun hh => absurd (c0.symm.trans hh.1) (by decide))).trans ((if_neg (fun hh => absurd (c0.symm.trans hh.1) (by decide))).trans ((if_pos ⟨c0, c1⟩))))))))) ?_
  rw [(fin_of_fld (d := d) (m := fld wd 21 5) (f3)), (fin_of_fld (d := k) (m := fld wd 6 3) (f1))]

theorem EncodeDecode.vbcast (d : Fin 32) (a : Fin 32) (b : Fin 32) (x : Bool) (k : Fin 8) : EncodeDecode.Statement (.vbcast d a b x k) := by
  intro wd hwf hw
  have hw : 2751463432 + d.val * 2097152 + a.val * 65536 + b.val * 2048 + x.toNat * 1024 + k.val * 64 = wd := Option.some.inj hw
  have hw : wd = atop 6 8 (atop 3 k.val (atop 1 0 (atop 1 x.toNat (atop 5 b.val (atop 5 a.val (atop 5 d.val (41))))))) := by unfold atop; omega
  obtain ⟨f0, f1, f2, f3, f4, f5, f6, ho⟩ := unpack7 (n1 := 6)  (n2 := 3)  (n3 := 1)  (n4 := 1)  (n5 := 5)  (n6 := 5)  (n7 := 5) (by decide) k.isLt (by decide) x.toNat_lt b.isLt a.isLt d.isLt hw
  have ho : wd / 67108864 = 41 := ho
  refine decode_of_raw (by rw [ho]; rfl) ?_ hwf
  unfold decodeRaw
  rw [ho]
  show decodeOp29 wd = _
  unfold decodeOp29
  have c0 : fld wd 0 6 = 8 := f0
  have c1 : fld wd 9 1 = 0 := f2
  refine Eq.trans ((if_neg (fun hh => absurd (c0.symm.trans hh) (by decide))).trans ((if_neg (fun hh => absurd (c0.symm.trans hh.1) (by decide))).trans ((if_neg (fun hh => absurd (c0.symm.trans hh.1) (by decide))).trans ((if_neg (fun hh => absurd (c0.symm.trans hh.1) (by decide))).trans ((if_neg (fun hh => absurd (c0.symm.trans hh.1) (by decide))).trans ((if_neg (fun hh => absurd (c0.symm.trans hh.1) (by decide))).trans ((if_neg (fun hh => absurd (c0.symm.trans hh.1) (by decide))).trans ((if_neg (fun hh => absurd (c0.symm.trans hh.1) (by decide))).trans ((if_pos ⟨c0, c1⟩)))))))))) ?_
  rw [(fin_of_fld (d := d) (m := fld wd 21 5) (f6)), (fin_of_fld (d := a) (m := fld wd 16 5) (f5)), (fin_of_fld (d := b) (m := fld wd 11 5) (f4)), (bit_of_fld (b := x) (lo := 10) (w := wd) (f3)), (fin_of_fld (d := k) (m := fld wd 6 3) (f1))]

theorem EncodeDecode.vext (d : Fin 32) (a : Fin 32) (b : Fin 32) (x : Bool) : EncodeDecode.Statement (.vext d a b x) := by
  intro wd hwf hw
  have hw : 2751463433 + d.val * 2097152 + a.val * 65536 + b.val * 2048 + x.toNat * 1024 = wd := Option.some.inj hw
  have hw : wd = atop 10 9 (atop 1 x.toNat (atop 5 b.val (atop 5 a.val (atop 5 d.val (41))))) := by unfold atop; omega
  obtain ⟨f0, f1, f2, f3, f4, ho⟩ := unpack5 (n1 := 10)  (n2 := 1)  (n3 := 5)  (n4 := 5)  (n5 := 5) (by decide) x.toNat_lt b.isLt a.isLt d.isLt hw
  have ho : wd / 67108864 = 41 := ho
  refine decode_of_raw (by rw [ho]; rfl) ?_ hwf
  unfold decodeRaw
  rw [ho]
  show decodeOp29 wd = _
  unfold decodeOp29
  have c0 : fld wd 0 10 = 9 := f0
  refine Eq.trans ((if_neg (fun hh => fld_short hh c0 (by decide) (by decide))).trans ((if_neg (fun hh => fld_short hh.1 c0 (by decide) (by decide))).trans ((if_neg (fun hh => fld_short hh.1 c0 (by decide) (by decide))).trans ((if_neg (fun hh => fld_short hh.1 c0 (by decide) (by decide))).trans ((if_neg (fun hh => fld_short hh.1 c0 (by decide) (by decide))).trans ((if_neg (fun hh => fld_short hh.1 c0 (by decide) (by decide))).trans ((if_neg (fun hh => fld_short hh.1 c0 (by decide) (by decide))).trans ((if_neg (fun hh => fld_short hh.1 c0 (by decide) (by decide))).trans ((if_neg (fun hh => fld_short hh.1 c0 (by decide) (by decide))).trans ((if_pos c0))))))))))) ?_
  rw [(fin_of_fld (d := d) (m := fld wd 21 5) (f4)), (fin_of_fld (d := a) (m := fld wd 16 5) (f3)), (fin_of_fld (d := b) (m := fld wd 11 5) (f2)), (bit_of_fld (b := x) (lo := 10) (w := wd) (f1))]

theorem EncodeDecode.vins (d : Fin 32) (a : Fin 32) (b : Fin 32) (k : Fin 8) : EncodeDecode.Statement (.vins d a b k) := by
  intro wd hwf hw
  have hw : 2751463434 + d.val * 2097152 + a.val * 65536 + b.val * 2048 + k.val * 64 = wd := Option.some.inj hw
  have hw : wd = atop 6 10 (atop 3 k.val (atop 2 0 (atop 5 b.val (atop 5 a.val (atop 5 d.val (41)))))) := by unfold atop; omega
  obtain ⟨f0, f1, f2, f3, f4, f5, ho⟩ := unpack6 (n1 := 6)  (n2 := 3)  (n3 := 2)  (n4 := 5)  (n5 := 5)  (n6 := 5) (by decide) k.isLt (by decide) b.isLt a.isLt d.isLt hw
  have ho : wd / 67108864 = 41 := ho
  refine decode_of_raw (by rw [ho]; rfl) ?_ hwf
  unfold decodeRaw
  rw [ho]
  show decodeOp29 wd = _
  unfold decodeOp29
  have c0 : fld wd 0 6 = 10 := f0
  have c1 : fld wd 9 2 = 0 := f2
  refine Eq.trans ((if_neg (fun hh => absurd (c0.symm.trans hh) (by decide))).trans ((if_neg (fun hh => absurd (c0.symm.trans hh.1) (by decide))).trans ((if_neg (fun hh => absurd (c0.symm.trans hh.1) (by decide))).trans ((if_neg (fun hh => absurd (c0.symm.trans hh.1) (by decide))).trans ((if_neg (fun hh => absurd (c0.symm.trans hh.1) (by decide))).trans ((if_neg (fun hh => absurd (c0.symm.trans hh.1) (by decide))).trans ((if_neg (fun hh => absurd (c0.symm.trans hh.1) (by decide))).trans ((if_neg (fun hh => absurd (c0.symm.trans hh.1) (by decide))).trans ((if_neg (fun hh => absurd (c0.symm.trans hh.1) (by decide))).trans ((if_neg (fun hh => fld_short c0 hh (by decide) (by decide))).trans ((if_pos ⟨c0, c1⟩)))))))))))) ?_
  rw [(fin_of_fld (d := d) (m := fld wd 21 5) (f5)), (fin_of_fld (d := a) (m := fld wd 16 5) (f4)), (fin_of_fld (d := b) (m := fld wd 11 5) (f3)), (fin_of_fld (d := k) (m := fld wd 6 3) (f1))]

theorem EncodeDecode.vconflict (d : Fin 32) (a : Fin 32) (x : Bool) (k : Fin 8) : EncodeDecode.Statement (.vconflict d a x k) := by
  intro wd hwf hw
  have hw : 2751463435 + d.val * 2097152 + a.val * 65536 + x.toNat * 1024 + k.val * 64 = wd := Option.some.inj hw
  have hw : wd = atop 6 11 (atop 3 k.val (atop 1 0 (atop 1 x.toNat (atop 5 0 (atop 5 a.val (atop 5 d.val (41))))))) := by unfold atop; omega
  obtain ⟨f0, f1, f2, f3, f4, f5, f6, ho⟩ := unpack7 (n1 := 6)  (n2 := 3)  (n3 := 1)  (n4 := 1)  (n5 := 5)  (n6 := 5)  (n7 := 5) (by decide) k.isLt (by decide) x.toNat_lt (by decide) a.isLt d.isLt hw
  have ho : wd / 67108864 = 41 := ho
  refine decode_of_raw (by rw [ho]; rfl) ?_ hwf
  unfold decodeRaw
  rw [ho]
  show decodeOp29 wd = _
  unfold decodeOp29
  have c0 : fld wd 0 6 = 11 := f0
  have c1 : fld wd 9 1 = 0 := f2
  have c2 : fld wd 11 5 = 0 := f4
  refine Eq.trans ((if_neg (fun hh => absurd (c0.symm.trans hh) (by decide))).trans ((if_neg (fun hh => absurd (c0.symm.trans hh.1) (by decide))).trans ((if_neg (fun hh => absurd (c0.symm.trans hh.1) (by decide))).trans ((if_neg (fun hh => absurd (c0.symm.trans hh.1) (by decide))).trans ((if_neg (fun hh => absurd (c0.symm.trans hh.1) (by decide))).trans ((if_neg (fun hh => absurd (c0.symm.trans hh.1) (by decide))).trans ((if_neg (fun hh => absurd (c0.symm.trans hh.1) (by decide))).trans ((if_neg (fun hh => absurd (c0.symm.trans hh.1) (by decide))).trans ((if_neg (fun hh => absurd (c0.symm.trans hh.1) (by decide))).trans ((if_neg (fun hh => fld_short c0 hh (by decide) (by decide))).trans ((if_neg (fun hh => absurd (c0.symm.trans hh.1) (by decide))).trans ((if_pos ⟨c0, c1, c2⟩))))))))))))) ?_
  rw [(fin_of_fld (d := d) (m := fld wd 21 5) (f6)), (fin_of_fld (d := a) (m := fld wd 16 5) (f5)), (bit_of_fld (b := x) (lo := 10) (w := wd) (f3)), (fin_of_fld (d := k) (m := fld wd 6 3) (f1))]

theorem EncodeDecode.vredSum (d : Fin 32) (a : Fin 32) (b : Fin 32) (x : Bool) (y : Bool) (k : Fin 8) : EncodeDecode.Statement (.vredSum d a b x y k) := by
  intro wd hwf hw
  have hw : 2818572288 + d.val * 2097152 + a.val * 65536 + b.val * 2048 + x.toNat * 1024 + y.toNat * 512 + k.val * 64 = wd := Option.some.inj hw
  have hw : wd = atop 6 0 (atop 3 k.val (atop 1 y.toNat (atop 1 x.toNat (atop 5 b.val (atop 5 a.val (atop 5 d.val (42))))))) := by unfold atop; omega
  obtain ⟨f0, f1, f2, f3, f4, f5, f6, ho⟩ := unpack7 (n1 := 6)  (n2 := 3)  (n3 := 1)  (n4 := 1)  (n5 := 5)  (n6 := 5)  (n7 := 5) (by decide) k.isLt y.toNat_lt x.toNat_lt b.isLt a.isLt d.isLt hw
  have ho : wd / 67108864 = 42 := ho
  refine decode_of_raw (by rw [ho]; rfl) ?_ hwf
  unfold decodeRaw
  rw [ho]
  show decodeOp2A wd = _
  unfold decodeOp2A
  have c0 : fld wd 0 6 = 0 := f0
  refine Eq.trans ((if_pos c0)) ?_
  rw [(fin_of_fld (d := d) (m := fld wd 21 5) (f6)), (fin_of_fld (d := a) (m := fld wd 16 5) (f5)), (fin_of_fld (d := b) (m := fld wd 11 5) (f4)), (bit_of_fld (b := x) (lo := 10) (w := wd) (f3)), (bit_of_fld (b := y) (lo := 9) (w := wd) (f2)), (fin_of_fld (d := k) (m := fld wd 6 3) (f1))]

theorem EncodeDecode.vredMin (d : Fin 32) (a : Fin 32) (b : Fin 32) (x : Bool) (y : Bool) (k : Fin 8) : EncodeDecode.Statement (.vredMin d a b x y k) := by
  intro wd hwf hw
  have hw : 2818572289 + d.val * 2097152 + a.val * 65536 + b.val * 2048 + x.toNat * 1024 + y.toNat * 512 + k.val * 64 = wd := Option.some.inj hw
  have hw : wd = atop 6 1 (atop 3 k.val (atop 1 y.toNat (atop 1 x.toNat (atop 5 b.val (atop 5 a.val (atop 5 d.val (42))))))) := by unfold atop; omega
  obtain ⟨f0, f1, f2, f3, f4, f5, f6, ho⟩ := unpack7 (n1 := 6)  (n2 := 3)  (n3 := 1)  (n4 := 1)  (n5 := 5)  (n6 := 5)  (n7 := 5) (by decide) k.isLt y.toNat_lt x.toNat_lt b.isLt a.isLt d.isLt hw
  have ho : wd / 67108864 = 42 := ho
  refine decode_of_raw (by rw [ho]; rfl) ?_ hwf
  unfold decodeRaw
  rw [ho]
  show decodeOp2A wd = _
  unfold decodeOp2A
  have c0 : fld wd 0 6 = 1 := f0
  refine Eq.trans ((if_neg (fun hh => absurd (c0.symm.trans hh) (by decide))).trans ((if_pos c0))) ?_
  rw [(fin_of_fld (d := d) (m := fld wd 21 5) (f6)), (fin_of_fld (d := a) (m := fld wd 16 5) (f5)), (fin_of_fld (d := b) (m := fld wd 11 5) (f4)), (bit_of_fld (b := x) (lo := 10) (w := wd) (f3)), (bit_of_fld (b := y) (lo := 9) (w := wd) (f2)), (fin_of_fld (d := k) (m := fld wd 6 3) (f1))]

theorem EncodeDecode.vredMax (d : Fin 32) (a : Fin 32) (b : Fin 32) (x : Bool) (y : Bool) (k : Fin 8) : EncodeDecode.Statement (.vredMax d a b x y k) := by
  intro wd hwf hw
  have hw : 2818572290 + d.val * 2097152 + a.val * 65536 + b.val * 2048 + x.toNat * 1024 + y.toNat * 512 + k.val * 64 = wd := Option.some.inj hw
  have hw : wd = atop 6 2 (atop 3 k.val (atop 1 y.toNat (atop 1 x.toNat (atop 5 b.val (atop 5 a.val (atop 5 d.val (42))))))) := by unfold atop; omega
  obtain ⟨f0, f1, f2, f3, f4, f5, f6, ho⟩ := unpack7 (n1 := 6)  (n2 := 3)  (n3 := 1)  (n4 := 1)  (n5 := 5)  (n6 := 5)  (n7 := 5) (by decide) k.isLt y.toNat_lt x.toNat_lt b.isLt a.isLt d.isLt hw
  have ho : wd / 67108864 = 42 := ho
  refine decode_of_raw (by rw [ho]; rfl) ?_ hwf
  unfold decodeRaw
  rw [ho]
  show decodeOp2A wd = _
  unfold decodeOp2A
  have c0 : fld wd 0 6 = 2 := f0
  refine Eq.trans ((if_neg (fun hh => absurd (c0.symm.trans hh) (by decide))).trans ((if_neg (fun hh => absurd (c0.symm.trans hh) (by decide))).trans ((if_pos c0)))) ?_
  rw [(fin_of_fld (d := d) (m := fld wd 21 5) (f6)), (fin_of_fld (d := a) (m := fld wd 16 5) (f5)), (fin_of_fld (d := b) (m := fld wd 11 5) (f4)), (bit_of_fld (b := x) (lo := 10) (w := wd) (f3)), (bit_of_fld (b := y) (lo := 9) (w := wd) (f2)), (fin_of_fld (d := k) (m := fld wd 6 3) (f1))]

theorem EncodeDecode.vredMinu (d : Fin 32) (a : Fin 32) (b : Fin 32) (x : Bool) (y : Bool) (k : Fin 8) : EncodeDecode.Statement (.vredMinu d a b x y k) := by
  intro wd hwf hw
  have hw : 2818572291 + d.val * 2097152 + a.val * 65536 + b.val * 2048 + x.toNat * 1024 + y.toNat * 512 + k.val * 64 = wd := Option.some.inj hw
  have hw : wd = atop 6 3 (atop 3 k.val (atop 1 y.toNat (atop 1 x.toNat (atop 5 b.val (atop 5 a.val (atop 5 d.val (42))))))) := by unfold atop; omega
  obtain ⟨f0, f1, f2, f3, f4, f5, f6, ho⟩ := unpack7 (n1 := 6)  (n2 := 3)  (n3 := 1)  (n4 := 1)  (n5 := 5)  (n6 := 5)  (n7 := 5) (by decide) k.isLt y.toNat_lt x.toNat_lt b.isLt a.isLt d.isLt hw
  have ho : wd / 67108864 = 42 := ho
  refine decode_of_raw (by rw [ho]; rfl) ?_ hwf
  unfold decodeRaw
  rw [ho]
  show decodeOp2A wd = _
  unfold decodeOp2A
  have c0 : fld wd 0 6 = 3 := f0
  refine Eq.trans ((if_neg (fun hh => absurd (c0.symm.trans hh) (by decide))).trans ((if_neg (fun hh => absurd (c0.symm.trans hh) (by decide))).trans ((if_neg (fun hh => absurd (c0.symm.trans hh) (by decide))).trans ((if_pos c0))))) ?_
  rw [(fin_of_fld (d := d) (m := fld wd 21 5) (f6)), (fin_of_fld (d := a) (m := fld wd 16 5) (f5)), (fin_of_fld (d := b) (m := fld wd 11 5) (f4)), (bit_of_fld (b := x) (lo := 10) (w := wd) (f3)), (bit_of_fld (b := y) (lo := 9) (w := wd) (f2)), (fin_of_fld (d := k) (m := fld wd 6 3) (f1))]

theorem EncodeDecode.vredMaxu (d : Fin 32) (a : Fin 32) (b : Fin 32) (x : Bool) (y : Bool) (k : Fin 8) : EncodeDecode.Statement (.vredMaxu d a b x y k) := by
  intro wd hwf hw
  have hw : 2818572292 + d.val * 2097152 + a.val * 65536 + b.val * 2048 + x.toNat * 1024 + y.toNat * 512 + k.val * 64 = wd := Option.some.inj hw
  have hw : wd = atop 6 4 (atop 3 k.val (atop 1 y.toNat (atop 1 x.toNat (atop 5 b.val (atop 5 a.val (atop 5 d.val (42))))))) := by unfold atop; omega
  obtain ⟨f0, f1, f2, f3, f4, f5, f6, ho⟩ := unpack7 (n1 := 6)  (n2 := 3)  (n3 := 1)  (n4 := 1)  (n5 := 5)  (n6 := 5)  (n7 := 5) (by decide) k.isLt y.toNat_lt x.toNat_lt b.isLt a.isLt d.isLt hw
  have ho : wd / 67108864 = 42 := ho
  refine decode_of_raw (by rw [ho]; rfl) ?_ hwf
  unfold decodeRaw
  rw [ho]
  show decodeOp2A wd = _
  unfold decodeOp2A
  have c0 : fld wd 0 6 = 4 := f0
  refine Eq.trans ((if_neg (fun hh => absurd (c0.symm.trans hh) (by decide))).trans ((if_neg (fun hh => absurd (c0.symm.trans hh) (by decide))).trans ((if_neg (fun hh => absurd (c0.symm.trans hh) (by decide))).trans ((if_neg (fun hh => absurd (c0.symm.trans hh) (by decide))).trans ((if_pos c0)))))) ?_
  rw [(fin_of_fld (d := d) (m := fld wd 21 5) (f6)), (fin_of_fld (d := a) (m := fld wd 16 5) (f5)), (fin_of_fld (d := b) (m := fld wd 11 5) (f4)), (bit_of_fld (b := x) (lo := 10) (w := wd) (f3)), (bit_of_fld (b := y) (lo := 9) (w := wd) (f2)), (fin_of_fld (d := k) (m := fld wd 6 3) (f1))]

theorem EncodeDecode.vredAnd (d : Fin 32) (a : Fin 32) (b : Fin 32) (x : Bool) (y : Bool) (k : Fin 8) : EncodeDecode.Statement (.vredAnd d a b x y k) := by
  intro wd hwf hw
  have hw : 2818572293 + d.val * 2097152 + a.val * 65536 + b.val * 2048 + x.toNat * 1024 + y.toNat * 512 + k.val * 64 = wd := Option.some.inj hw
  have hw : wd = atop 6 5 (atop 3 k.val (atop 1 y.toNat (atop 1 x.toNat (atop 5 b.val (atop 5 a.val (atop 5 d.val (42))))))) := by unfold atop; omega
  obtain ⟨f0, f1, f2, f3, f4, f5, f6, ho⟩ := unpack7 (n1 := 6)  (n2 := 3)  (n3 := 1)  (n4 := 1)  (n5 := 5)  (n6 := 5)  (n7 := 5) (by decide) k.isLt y.toNat_lt x.toNat_lt b.isLt a.isLt d.isLt hw
  have ho : wd / 67108864 = 42 := ho
  refine decode_of_raw (by rw [ho]; rfl) ?_ hwf
  unfold decodeRaw
  rw [ho]
  show decodeOp2A wd = _
  unfold decodeOp2A
  have c0 : fld wd 0 6 = 5 := f0
  refine Eq.trans ((if_neg (fun hh => absurd (c0.symm.trans hh) (by decide))).trans ((if_neg (fun hh => absurd (c0.symm.trans hh) (by decide))).trans ((if_neg (fun hh => absurd (c0.symm.trans hh) (by decide))).trans ((if_neg (fun hh => absurd (c0.symm.trans hh) (by decide))).trans ((if_neg (fun hh => absurd (c0.symm.trans hh) (by decide))).trans ((if_pos c0))))))) ?_
  rw [(fin_of_fld (d := d) (m := fld wd 21 5) (f6)), (fin_of_fld (d := a) (m := fld wd 16 5) (f5)), (fin_of_fld (d := b) (m := fld wd 11 5) (f4)), (bit_of_fld (b := x) (lo := 10) (w := wd) (f3)), (bit_of_fld (b := y) (lo := 9) (w := wd) (f2)), (fin_of_fld (d := k) (m := fld wd 6 3) (f1))]

theorem EncodeDecode.vredOr (d : Fin 32) (a : Fin 32) (b : Fin 32) (x : Bool) (y : Bool) (k : Fin 8) : EncodeDecode.Statement (.vredOr d a b x y k) := by
  intro wd hwf hw
  have hw : 2818572294 + d.val * 2097152 + a.val * 65536 + b.val * 2048 + x.toNat * 1024 + y.toNat * 512 + k.val * 64 = wd := Option.some.inj hw
  have hw : wd = atop 6 6 (atop 3 k.val (atop 1 y.toNat (atop 1 x.toNat (atop 5 b.val (atop 5 a.val (atop 5 d.val (42))))))) := by unfold atop; omega
  obtain ⟨f0, f1, f2, f3, f4, f5, f6, ho⟩ := unpack7 (n1 := 6)  (n2 := 3)  (n3 := 1)  (n4 := 1)  (n5 := 5)  (n6 := 5)  (n7 := 5) (by decide) k.isLt y.toNat_lt x.toNat_lt b.isLt a.isLt d.isLt hw
  have ho : wd / 67108864 = 42 := ho
  refine decode_of_raw (by rw [ho]; rfl) ?_ hwf
  unfold decodeRaw
  rw [ho]
  show decodeOp2A wd = _
  unfold decodeOp2A
  have c0 : fld wd 0 6 = 6 := f0
  refine Eq.trans ((if_neg (fun hh => absurd (c0.symm.trans hh) (by decide))).trans ((if_neg (fun hh => absurd (c0.symm.trans hh) (by decide))).trans ((if_neg (fun hh => absurd (c0.symm.trans hh) (by decide))).trans ((if_neg (fun hh => absurd (c0.symm.trans hh) (by decide))).trans ((if_neg (fun hh => absurd (c0.symm.trans hh) (by decide))).trans ((if_neg (fun hh => absurd (c0.symm.trans hh) (by decide))).trans ((if_pos c0)))))))) ?_
  rw [(fin_of_fld (d := d) (m := fld wd 21 5) (f6)), (fin_of_fld (d := a) (m := fld wd 16 5) (f5)), (fin_of_fld (d := b) (m := fld wd 11 5) (f4)), (bit_of_fld (b := x) (lo := 10) (w := wd) (f3)), (bit_of_fld (b := y) (lo := 9) (w := wd) (f2)), (fin_of_fld (d := k) (m := fld wd 6 3) (f1))]

theorem EncodeDecode.vredXor (d : Fin 32) (a : Fin 32) (b : Fin 32) (x : Bool) (y : Bool) (k : Fin 8) : EncodeDecode.Statement (.vredXor d a b x y k) := by
  intro wd hwf hw
  have hw : 2818572295 + d.val * 2097152 + a.val * 65536 + b.val * 2048 + x.toNat * 1024 + y.toNat * 512 + k.val * 64 = wd := Option.some.inj hw
  have hw : wd = atop 6 7 (atop 3 k.val (atop 1 y.toNat (atop 1 x.toNat (atop 5 b.val (atop 5 a.val (atop 5 d.val (42))))))) := by unfold atop; omega
  obtain ⟨f0, f1, f2, f3, f4, f5, f6, ho⟩ := unpack7 (n1 := 6)  (n2 := 3)  (n3 := 1)  (n4 := 1)  (n5 := 5)  (n6 := 5)  (n7 := 5) (by decide) k.isLt y.toNat_lt x.toNat_lt b.isLt a.isLt d.isLt hw
  have ho : wd / 67108864 = 42 := ho
  refine decode_of_raw (by rw [ho]; rfl) ?_ hwf
  unfold decodeRaw
  rw [ho]
  show decodeOp2A wd = _
  unfold decodeOp2A
  have c0 : fld wd 0 6 = 7 := f0
  refine Eq.trans ((if_neg (fun hh => absurd (c0.symm.trans hh) (by decide))).trans ((if_neg (fun hh => absurd (c0.symm.trans hh) (by decide))).trans ((if_neg (fun hh => absurd (c0.symm.trans hh) (by decide))).trans ((if_neg (fun hh => absurd (c0.symm.trans hh) (by decide))).trans ((if_neg (fun hh => absurd (c0.symm.trans hh) (by decide))).trans ((if_neg (fun hh => absurd (c0.symm.trans hh) (by decide))).trans ((if_neg (fun hh => absurd (c0.symm.trans hh) (by decide))).trans ((if_pos c0))))))))) ?_
  rw [(fin_of_fld (d := d) (m := fld wd 21 5) (f6)), (fin_of_fld (d := a) (m := fld wd 16 5) (f5)), (fin_of_fld (d := b) (m := fld wd 11 5) (f4)), (bit_of_fld (b := x) (lo := 10) (w := wd) (f3)), (bit_of_fld (b := y) (lo := 9) (w := wd) (f2)), (fin_of_fld (d := k) (m := fld wd 6 3) (f1))]

theorem EncodeDecode.vredFsum (d : Fin 32) (a : Fin 32) (b : Fin 32) (x : Bool) (y : Bool) (k : Fin 8) : EncodeDecode.Statement (.vredFsum d a b x y k) := by
  intro wd hwf hw
  have hw : 2818572296 + d.val * 2097152 + a.val * 65536 + b.val * 2048 + x.toNat * 1024 + y.toNat * 512 + k.val * 64 = wd := Option.some.inj hw
  have hw : wd = atop 6 8 (atop 3 k.val (atop 1 y.toNat (atop 1 x.toNat (atop 5 b.val (atop 5 a.val (atop 5 d.val (42))))))) := by unfold atop; omega
  obtain ⟨f0, f1, f2, f3, f4, f5, f6, ho⟩ := unpack7 (n1 := 6)  (n2 := 3)  (n3 := 1)  (n4 := 1)  (n5 := 5)  (n6 := 5)  (n7 := 5) (by decide) k.isLt y.toNat_lt x.toNat_lt b.isLt a.isLt d.isLt hw
  have ho : wd / 67108864 = 42 := ho
  refine decode_of_raw (by rw [ho]; rfl) ?_ hwf
  unfold decodeRaw
  rw [ho]
  show decodeOp2A wd = _
  unfold decodeOp2A
  have c0 : fld wd 0 6 = 8 := f0
  refine Eq.trans ((if_neg (fun hh => absurd (c0.symm.trans hh) (by decide))).trans ((if_neg (fun hh => absurd (c0.symm.trans hh) (by decide))).trans ((if_neg (fun hh => absurd (c0.symm.trans hh) (by decide))).trans ((if_neg (fun hh => absurd (c0.symm.trans hh) (by decide))).trans ((if_neg (fun hh => absurd (c0.symm.trans hh) (by decide))).trans ((if_neg (fun hh => absurd (c0.symm.trans hh) (by decide))).trans ((if_neg (fun hh => absurd (c0.symm.trans hh) (by decide))).trans ((if_neg (fun hh => absurd (c0.symm.trans hh) (by decide))).trans ((if_pos c0)))))))))) ?_
  rw [(fin_of_fld (d := d) (m := fld wd 21 5) (f6)), (fin_of_fld (d := a) (m := fld wd 16 5) (f5)), (fin_of_fld (d := b) (m := fld wd 11 5) (f4)), (bit_of_fld (b := x) (lo := 10) (w := wd) (f3)), (bit_of_fld (b := y) (lo := 9) (w := wd) (f2)), (fin_of_fld (d := k) (m := fld wd 6 3) (f1))]

theorem EncodeDecode.vredFmin (d : Fin 32) (a : Fin 32) (b : Fin 32) (x : Bool) (y : Bool) (k : Fin 8) : EncodeDecode.Statement (.vredFmin d a b x y k) := by
  intro wd hwf hw
  have hw : 2818572297 + d.val * 2097152 + a.val * 65536 + b.val * 2048 + x.toNat * 1024 + y.toNat * 512 + k.val * 64 = wd := Option.some.inj hw
  have hw : wd = atop 6 9 (atop 3 k.val (atop 1 y.toNat (atop 1 x.toNat (atop 5 b.val (atop 5 a.val (atop 5 d.val (42))))))) := by unfold atop; omega
  obtain ⟨f0, f1, f2, f3, f4, f5, f6, ho⟩ := unpack7 (n1 := 6)  (n2 := 3)  (n3 := 1)  (n4 := 1)  (n5 := 5)  (n6 := 5)  (n7 := 5) (by decide) k.isLt y.toNat_lt x.toNat_lt b.isLt a.isLt d.isLt hw
  have ho : wd / 67108864 = 42 := ho
  refine decode_of_raw (by rw [ho]; rfl) ?_ hwf
  unfold decodeRaw
  rw [ho]
  show decodeOp2A wd = _
  unfold decodeOp2A
  have c0 : fld wd 0 6 = 9 := f0
  refine Eq.trans ((if_neg (fun hh => absurd (c0.symm.trans hh) (by decide))).trans ((if_neg (fun hh => absurd (c0.symm.trans hh) (by decide))).trans ((if_neg (fun hh => absurd (c0.symm.trans hh) (by decide))).trans ((if_neg (fun hh => absurd (c0.symm.trans hh) (by decide))).trans ((if_neg (fun hh => absurd (c0.symm.trans hh) (by decide))).trans ((if_neg (fun hh => absurd (c0.symm.trans hh) (by decide))).trans ((if_neg (fun hh => absurd (c0.symm.trans hh) (by decide))).trans ((if_neg (fun hh => absurd (c0.symm.trans hh) (by decide))).trans ((if_neg (fun hh => absurd (c0.symm.trans hh) (by decide))).trans ((if_pos c0))))))))))) ?_
  rw [(fin_of_fld (d := d) (m := fld wd 21 5) (f6)), (fin_of_fld (d := a) (m := fld wd 16 5) (f5)), (fin_of_fld (d := b) (m := fld wd 11 5) (f4)), (bit_of_fld (b := x) (lo := 10) (w := wd) (f3)), (bit_of_fld (b := y) (lo := 9) (w := wd) (f2)), (fin_of_fld (d := k) (m := fld wd 6 3) (f1))]

theorem EncodeDecode.vredFmax (d : Fin 32) (a : Fin 32) (b : Fin 32) (x : Bool) (y : Bool) (k : Fin 8) : EncodeDecode.Statement (.vredFmax d a b x y k) := by
  intro wd hwf hw
  have hw : 2818572298 + d.val * 2097152 + a.val * 65536 + b.val * 2048 + x.toNat * 1024 + y.toNat * 512 + k.val * 64 = wd := Option.some.inj hw
  have hw : wd = atop 6 10 (atop 3 k.val (atop 1 y.toNat (atop 1 x.toNat (atop 5 b.val (atop 5 a.val (atop 5 d.val (42))))))) := by unfold atop; omega
  obtain ⟨f0, f1, f2, f3, f4, f5, f6, ho⟩ := unpack7 (n1 := 6)  (n2 := 3)  (n3 := 1)  (n4 := 1)  (n5 := 5)  (n6 := 5)  (n7 := 5) (by decide) k.isLt y.toNat_lt x.toNat_lt b.isLt a.isLt d.isLt hw
  have ho : wd / 67108864 = 42 := ho
  refine decode_of_raw (by rw [ho]; rfl) ?_ hwf
  unfold decodeRaw
  rw [ho]
  show decodeOp2A wd = _
  unfold decodeOp2A
  have c0 : fld wd 0 6 = 10 := f0
  refine Eq.trans ((if_neg (fun hh => absurd (c0.symm.trans hh) (by decide))).trans ((if_neg (fun hh => absurd (c0.symm.trans hh) (by decide))).trans ((if_neg (fun hh => absurd (c0.symm.trans hh) (by decide))).trans ((if_neg (fun hh => absurd (c0.symm.trans hh) (by decide))).trans ((if_neg (fun hh => absurd (c0.symm.trans hh) (by decide))).trans ((if_neg (fun hh => absurd (c0.symm.trans hh) (by decide))).trans ((if_neg (fun hh => absurd (c0.symm.trans hh) (by decide))).trans ((if_neg (fun hh => absurd (c0.symm.trans hh) (by decide))).trans ((if_neg (fun hh => absurd (c0.symm.trans hh) (by decide))).trans ((if_neg (fun hh => absurd (c0.symm.trans hh) (by decide))).trans ((if_pos c0)))))))))))) ?_
  rw [(fin_of_fld (d := d) (m := fld wd 21 5) (f6)), (fin_of_fld (d := a) (m := fld wd 16 5) (f5)), (fin_of_fld (d := b) (m := fld wd 11 5) (f4)), (bit_of_fld (b := x) (lo := 10) (w := wd) (f3)), (bit_of_fld (b := y) (lo := 9) (w := wd) (f2)), (fin_of_fld (d := k) (m := fld wd 6 3) (f1))]

theorem EncodeDecode.vscanSum (d : Fin 32) (a : Fin 32) (x : Bool) (k : Fin 8) : EncodeDecode.Statement (.vscanSum d a x k) := by
  intro wd hwf hw
  have hw : 2818572299 + d.val * 2097152 + a.val * 65536 + x.toNat * 1024 + k.val * 64 = wd := Option.some.inj hw
  have hw : wd = atop 6 11 (atop 3 k.val (atop 1 0 (atop 1 x.toNat (atop 5 0 (atop 5 a.val (atop 5 d.val (42))))))) := by unfold atop; omega
  obtain ⟨f0, f1, f2, f3, f4, f5, f6, ho⟩ := unpack7 (n1 := 6)  (n2 := 3)  (n3 := 1)  (n4 := 1)  (n5 := 5)  (n6 := 5)  (n7 := 5) (by decide) k.isLt (by decide) x.toNat_lt (by decide) a.isLt d.isLt hw
  have ho : wd / 67108864 = 42 := ho
  refine decode_of_raw (by rw [ho]; rfl) ?_ hwf
  unfold decodeRaw
  rw [ho]
  show decodeOp2A wd = _
  unfold decodeOp2A
  have c0 : fld wd 0 6 = 11 := f0
  have c1 : fld wd 9 1 = 0 := f2
  have c2 : fld wd 11 5 = 0 := f4
  refine Eq.trans ((if_neg (fun hh => absurd (c0.symm.trans hh) (by decide))).trans ((if_neg (fun hh => absurd (c0.symm.trans hh) (by decide))).trans ((if_neg (fun hh => absurd (c0.symm.trans hh) (by decide))).trans ((if_neg (fun hh => absurd (c0.symm.trans hh) (by decide))).trans ((if_neg (fun hh => absurd (c0.symm.trans hh) (by decide))).trans ((if_neg (fun hh => absurd (c0.symm.trans hh) (by decide))).trans ((if_neg (fun hh => absurd (c0.symm.trans hh) (by decide))).trans ((if_neg (fun hh => absurd (c0.symm.trans hh) (by decide))).trans ((if_neg (fun hh => absurd (c0.symm.trans hh) (by decide))).trans ((if_neg (fun hh => absurd (c0.symm.trans hh) (by decide))).trans ((if_neg (fun hh => absurd (c0.symm.trans hh) (by decide))).trans ((if_pos ⟨c0, c1, c2⟩))))))))))))) ?_
  rw [(fin_of_fld (d := d) (m := fld wd 21 5) (f6)), (fin_of_fld (d := a) (m := fld wd 16 5) (f5)), (bit_of_fld (b := x) (lo := 10) (w := wd) (f3)), (fin_of_fld (d := k) (m := fld wd 6 3) (f1))]

theorem EncodeDecode.vscanFsum (d : Fin 32) (a : Fin 32) (x : Bool) (k : Fin 8) : EncodeDecode.Statement (.vscanFsum d a x k) := by
  intro wd hwf hw
  have hw : 2818572300 + d.val * 2097152 + a.val * 65536 + x.toNat * 1024 + k.val * 64 = wd := Option.some.inj hw
  have hw : wd = atop 6 12 (atop 3 k.val (atop 1 0 (atop 1 x.toNat (atop 5 0 (atop 5 a.val (atop 5 d.val (42))))))) := by unfold atop; omega
  obtain ⟨f0, f1, f2, f3, f4, f5, f6, ho⟩ := unpack7 (n1 := 6)  (n2 := 3)  (n3 := 1)  (n4 := 1)  (n5 := 5)  (n6 := 5)  (n7 := 5) (by decide) k.isLt (by decide) x.toNat_lt (by decide) a.isLt d.isLt hw
  have ho : wd / 67108864 = 42 := ho
  refine decode_of_raw (by rw [ho]; rfl) ?_ hwf
  unfold decodeRaw
  rw [ho]
  show decodeOp2A wd = _
  unfold decodeOp2A
  have c0 : fld wd 0 6 = 12 := f0
  have c1 : fld wd 9 1 = 0 := f2
  have c2 : fld wd 11 5 = 0 := f4
  refine Eq.trans ((if_neg (fun hh => absurd (c0.symm.trans hh) (by decide))).trans ((if_neg (fun hh => absurd (c0.symm.trans hh) (by decide))).trans ((if_neg (fun hh => absurd (c0.symm.trans hh) (by decide))).trans ((if_neg (fun hh => absurd (c0.symm.trans hh) (by decide))).trans ((if_neg (fun hh => absurd (c0.symm.trans hh) (by decide))).trans ((if_neg (fun hh => absurd (c0.symm.trans hh) (by decide))).trans ((if_neg (fun hh => absurd (c0.symm.trans hh) (by decide))).trans ((if_neg (fun hh => absurd (c0.symm.trans hh) (by decide))).trans ((if_neg (fun hh => absurd (c0.symm.trans hh) (by decide))).trans ((if_neg (fun hh => absurd (c0.symm.trans hh) (by decide))).trans ((if_neg (fun hh => absurd (c0.symm.trans hh) (by decide))).trans ((if_neg (fun hh => absurd (c0.symm.trans hh.1) (by decide))).trans ((if_pos ⟨c0, c1, c2⟩)))))))))))))) ?_
  rw [(fin_of_fld (d := d) (m := fld wd 21 5) (f6)), (fin_of_fld (d := a) (m := fld wd 16 5) (f5)), (bit_of_fld (b := x) (lo := 10) (w := wd) (f3)), (fin_of_fld (d := k) (m := fld wd 6 3) (f1))]

theorem EncodeDecode.vcvt (d : Fin 32) (a : Fin 32) (x : Bool) (k : Fin 8) (u : Bool) (t : Fin 16) : EncodeDecode.Statement (.vcvt d a x k u t) := by
  intro wd hwf hw
  have hw : 2885681152 + d.val * 2097152 + a.val * 65536 + x.toNat * 1024 + k.val * 64 + u.toNat * 16 + t.val = wd := Option.some.inj hw
  have hw : wd = atop 4 t.val (atop 1 u.toNat (atop 1 0 (atop 3 k.val (atop 1 0 (atop 1 x.toNat (atop 5 0 (atop 5 a.val (atop 5 d.val (43))))))))) := by unfold atop; omega
  obtain ⟨f0, f1, f2, f3, f4, f5, f6, f7, f8, ho⟩ := unpack9 (n1 := 4)  (n2 := 1)  (n3 := 1)  (n4 := 3)  (n5 := 1)  (n6 := 1)  (n7 := 5)  (n8 := 5)  (n9 := 5) t.isLt u.toNat_lt (by decide) k.isLt (by decide) x.toNat_lt (by decide) a.isLt d.isLt hw
  have ho : wd / 67108864 = 43 := ho
  refine decode_of_raw (by rw [ho]; rfl) ?_ hwf
  unfold decodeRaw
  rw [ho]
  show decodeOp2B wd = _
  unfold decodeOp2B
  have c0 : fld wd 5 1 = 0 := f2
  have c1 : fld wd 9 1 = 0 := f4
  have c2 : fld wd 11 5 = 0 := f6
  refine Eq.trans ((if_pos ⟨c0, c1, c2⟩)) ?_
  rw [(fin_of_fld (d := d) (m := fld wd 21 5) (f8)), (fin_of_fld (d := a) (m := fld wd 16 5) (f7)), (bit_of_fld (b := x) (lo := 10) (w := wd) (f5)), (fin_of_fld (d := k) (m := fld wd 6 3) (f3)), (bit_of_fld (b := u) (lo := 4) (w := wd) (f1)), (fin_of_fld (d := t) (m := fld wd 0 4) (f0))]

theorem EncodeDecode.vldUnit (d : Fin 32) (a : Fin 32) (k : Fin 8) (p : Policy) (w : Fin 4) : EncodeDecode.Statement (.vldUnit d a k p w) := by
  intro wd hwf hw
  have hw : 2952790016 + d.val * 2097152 + a.val * 65536 + k.val * 128 + p.code * 8 + w.val * 2 = wd := Option.some.inj hw
  have hw : wd = atop 1 0 (atop 2 w.val (atop 2 p.code (atop 2 0 (atop 3 k.val (atop 6 0 (atop 5 a.val (atop 5 d.val (44)))))))) := by unfold atop; omega
  obtain ⟨f0, f1, f2, f3, f4, f5, f6, f7, ho⟩ := unpack8 (n1 := 1)  (n2 := 2)  (n3 := 2)  (n4 := 2)  (n5 := 3)  (n6 := 6)  (n7 := 5)  (n8 := 5) (by decide) w.isLt (Policy.code_lt p) (by decide) k.isLt (by decide) a.isLt d.isLt hw
  have ho : wd / 67108864 = 44 := ho
  refine decode_of_raw (by rw [ho]; rfl) ?_ hwf
  unfold decodeRaw
  rw [ho]
  show decodeOp2C wd = _
  unfold decodeOp2C
  have c0 : fld wd 0 1 = 0 := f0
  have c1 : fld wd 5 2 = 0 := f3
  have c2 : fld wd 10 6 = 0 := f5
  refine Eq.trans ((if_pos ⟨c0, c1, c2⟩)) ?_
  rw [(fin_of_fld (d := d) (m := fld wd 21 5) (f7)), (fin_of_fld (d := a) (m := fld wd 16 5) (f6)), (fin_of_fld (d := k) (m := fld wd 7 3) (f4)), (policy_of_fld (p := p) (m := fld wd 3 2) (f2)), (fin_of_fld (d := w) (m := fld wd 1 2) (f1))]

theorem EncodeDecode.vldStrided (d : Fin 32) (a : Fin 32) (b : Fin 32) (k : Fin 8) (p : Policy) (w : Fin 4) : EncodeDecode.Statement (.vldStrided d a b k p w) := by
  intro wd hwf hw
  have hw : 2952790048 + d.val * 2097152 + a.val * 65536 + b.val * 2048 + k.val * 128 + p.code * 8 + w.val * 2 = wd := Option.some.inj hw
  have hw : wd = atop 1 0 (atop 2 w.val (atop 2 p.code (atop 2 1 (atop 3 k.val (atop 1 0 (atop 5 b.val (atop 5 a.val (atop 5 d.val (44))))))))) := by unfold atop; omega
  obtain ⟨f0, f1, f2, f3, f4, f5, f6, f7, f8, ho⟩ := unpack9 (n1 := 1)  (n2 := 2)  (n3 := 2)  (n4 := 2)  (n5 := 3)  (n6 := 1)  (n7 := 5)  (n8 := 5)  (n9 := 5) (by decide) w.isLt (Policy.code_lt p) (by decide) k.isLt (by decide) b.isLt a.isLt d.isLt hw
  have ho : wd / 67108864 = 44 := ho
  refine decode_of_raw (by rw [ho]; rfl) ?_ hwf
  unfold decodeRaw
  rw [ho]
  show decodeOp2C wd = _
  unfold decodeOp2C
  have c0 : fld wd 0 1 = 0 := f0
  have c1 : fld wd 5 2 = 1 := f3
  have c2 : fld wd 10 1 = 0 := f5
  refine Eq.trans ((if_neg (fun hh => absurd (c1.symm.trans hh.2.1) (by decide))).trans ((if_pos ⟨c0, c1, c2⟩))) ?_
  rw [(fin_of_fld (d := d) (m := fld wd 21 5) (f8)), (fin_of_fld (d := a) (m := fld wd 16 5) (f7)), (fin_of_fld (d := b) (m := fld wd 11 5) (f6)), (fin_of_fld (d := k) (m := fld wd 7 3) (f4)), (policy_of_fld (p := p) (m := fld wd 3 2) (f2)), (fin_of_fld (d := w) (m := fld wd 1 2) (f1))]

theorem EncodeDecode.vldIndexed (d : Fin 32) (a : Fin 32) (b : Fin 32) (y : Bool) (k : Fin 8) (p : Policy) (w : Fin 4) : EncodeDecode.Statement (.vldIndexed d a b y k p w) := by
  intro wd hwf hw
  have hw : 2952790080 + d.val * 2097152 + a.val * 65536 + b.val * 2048 + y.toNat * 1024 + k.val * 128 + p.code * 8 + w.val * 2 = wd := Option.some.inj hw
  have hw : wd = atop 1 0 (atop 2 w.val (atop 2 p.code (atop 2 2 (atop 3 k.val (atop 1 y.toNat (atop 5 b.val (atop 5 a.val (atop 5 d.val (44))))))))) := by unfold atop; omega
  obtain ⟨f0, f1, f2, f3, f4, f5, f6, f7, f8, ho⟩ := unpack9 (n1 := 1)  (n2 := 2)  (n3 := 2)  (n4 := 2)  (n5 := 3)  (n6 := 1)  (n7 := 5)  (n8 := 5)  (n9 := 5) (by decide) w.isLt (Policy.code_lt p) (by decide) k.isLt y.toNat_lt b.isLt a.isLt d.isLt hw
  have ho : wd / 67108864 = 44 := ho
  refine decode_of_raw (by rw [ho]; rfl) ?_ hwf
  unfold decodeRaw
  rw [ho]
  show decodeOp2C wd = _
  unfold decodeOp2C
  have c0 : fld wd 0 1 = 0 := f0
  have c1 : fld wd 5 2 = 2 := f3
  refine Eq.trans ((if_neg (fun hh => absurd (c1.symm.trans hh.2.1) (by decide))).trans ((if_neg (fun hh => absurd (c1.symm.trans hh.2.1) (by decide))).trans ((if_pos ⟨c0, c1⟩)))) ?_
  rw [(fin_of_fld (d := d) (m := fld wd 21 5) (f8)), (fin_of_fld (d := a) (m := fld wd 16 5) (f7)), (fin_of_fld (d := b) (m := fld wd 11 5) (f6)), (bit_of_fld (b := y) (lo := 10) (w := wd) (f5)), (fin_of_fld (d := k) (m := fld wd 7 3) (f4)), (policy_of_fld (p := p) (m := fld wd 3 2) (f2)), (fin_of_fld (d := w) (m := fld wd 1 2) (f1))]

theorem EncodeDecode.vldSegment (d : Fin 32) (a : Fin 32) (f : Fin 32) (k : Fin 8) (p : Policy) (w : Fin 4) : EncodeDecode.Statement (.vldSegment d a f k p w) := by
  intro wd hwf hw
  have hw : 2952790112 + d.val * 2097152 + a.val * 65536 + f.val * 2048 + k.val * 128 + p.code * 8 + w.val * 2 = wd := Option.some.inj hw
  have hw : wd = atop 1 0 (atop 2 w.val (atop 2 p.code (atop 2 3 (atop 3 k.val (atop 1 0 (atop 5 f.val (atop 5 a.val (atop 5 d.val (44))))))))) := by unfold atop; omega
  obtain ⟨f0, f1, f2, f3, f4, f5, f6, f7, f8, ho⟩ := unpack9 (n1 := 1)  (n2 := 2)  (n3 := 2)  (n4 := 2)  (n5 := 3)  (n6 := 1)  (n7 := 5)  (n8 := 5)  (n9 := 5) (by decide) w.isLt (Policy.code_lt p) (by decide) k.isLt (by decide) f.isLt a.isLt d.isLt hw
  have ho : wd / 67108864 = 44 := ho
  refine decode_of_raw (by rw [ho]; rfl) ?_ hwf
  unfold decodeRaw
  rw [ho]
  show decodeOp2C wd = _
  unfold decodeOp2C
  have c0 : fld wd 0 1 = 0 := f0
  have c1 : fld wd 5 2 = 3 := f3
  have c2 : fld wd 10 1 = 0 := f5
  refine Eq.trans ((if_neg (fun hh => absurd (c1.symm.trans hh.2.1) (by decide))).trans ((if_neg (fun hh => absurd (c1.symm.trans hh.2.1) (by decide))).trans ((if_neg (fun hh => absurd (c1.symm.trans hh.2) (by decide))).trans ((if_pos ⟨c0, c1, c2⟩))))) ?_
  rw [(fin_of_fld (d := d) (m := fld wd 21 5) (f8)), (fin_of_fld (d := a) (m := fld wd 16 5) (f7)), (fin_of_fld (d := f) (m := fld wd 11 5) (f6)), (fin_of_fld (d := k) (m := fld wd 7 3) (f4)), (policy_of_fld (p := p) (m := fld wd 3 2) (f2)), (fin_of_fld (d := w) (m := fld wd 1 2) (f1))]

theorem EncodeDecode.vstUnit (d : Fin 32) (a : Fin 32) (k : Fin 8) (p : Policy) (w : Fin 4) : EncodeDecode.Statement (.vstUnit d a k p w) := by
  intro wd hwf hw
  have hw : 3019898880 + d.val * 2097152 + a.val * 65536 + k.val * 128 + p.code * 8 + w.val * 2 = wd := Option.some.inj hw
  have hw : wd = atop 1 0 (atop 2 w.val (atop 2 p.code (atop 2 0 (atop 3 k.val (atop 6 0 (atop 5 a.val (atop 5 d.val (45)))))))) := by unfold atop; omega
  obtain ⟨f0, f1, f2, f3, f4, f5, f6, f7, ho⟩ := unpack8 (n1 := 1)  (n2 := 2)  (n3 := 2)  (n4 := 2)  (n5 := 3)  (n6 := 6)  (n7 := 5)  (n8 := 5) (by decide) w.isLt (Policy.code_lt p) (by decide) k.isLt (by decide) a.isLt d.isLt hw
  have ho : wd / 67108864 = 45 := ho
  refine decode_of_raw (by rw [ho]; rfl) ?_ hwf
  unfold decodeRaw
  rw [ho]
  show decodeOp2D wd = _
  unfold decodeOp2D
  have c0 : fld wd 0 1 = 0 := f0
  have c1 : fld wd 5 2 = 0 := f3
  have c2 : fld wd 10 6 = 0 := f5
  refine Eq.trans ((if_pos ⟨c0, c1, c2⟩)) ?_
  rw [(fin_of_fld (d := d) (m := fld wd 21 5) (f7)), (fin_of_fld (d := a) (m := fld wd 16 5) (f6)), (fin_of_fld (d := k) (m := fld wd 7 3) (f4)), (policy_of_fld (p := p) (m := fld wd 3 2) (f2)), (fin_of_fld (d := w) (m := fld wd 1 2) (f1))]

theorem EncodeDecode.vstStrided (d : Fin 32) (a : Fin 32) (b : Fin 32) (k : Fin 8) (p : Policy) (w : Fin 4) : EncodeDecode.Statement (.vstStrided d a b k p w) := by
  intro wd hwf hw
  have hw : 3019898912 + d.val * 2097152 + a.val * 65536 + b.val * 2048 + k.val * 128 + p.code * 8 + w.val * 2 = wd := Option.some.inj hw
  have hw : wd = atop 1 0 (atop 2 w.val (atop 2 p.code (atop 2 1 (atop 3 k.val (atop 1 0 (atop 5 b.val (atop 5 a.val (atop 5 d.val (45))))))))) := by unfold atop; omega
  obtain ⟨f0, f1, f2, f3, f4, f5, f6, f7, f8, ho⟩ := unpack9 (n1 := 1)  (n2 := 2)  (n3 := 2)  (n4 := 2)  (n5 := 3)  (n6 := 1)  (n7 := 5)  (n8 := 5)  (n9 := 5) (by decide) w.isLt (Policy.code_lt p) (by decide) k.isLt (by decide) b.isLt a.isLt d.isLt hw
  have ho : wd / 67108864 = 45 := ho
  refine decode_of_raw (by rw [ho]; rfl) ?_ hwf
  unfold decodeRaw
  rw [ho]
  show decodeOp2D wd = _
  unfold decodeOp2D
  have c0 : fld wd 0 1 = 0 := f0
  have c1 : fld wd 5 2 = 1 := f3
  have c2 : fld wd 10 1 = 0 := f5
  refine Eq.trans ((if_neg (fun hh => absurd (c1.symm.trans hh.2.1) (by decide))).trans ((if_pos ⟨c0, c1, c2⟩))) ?_
  rw [(fin_of_fld (d := d) (m := fld wd 21 5) (f8)), (fin_of_fld (d := a) (m := fld wd 16 5) (f7)), (fin_of_fld (d := b) (m := fld wd 11 5) (f6)), (fin_of_fld (d := k) (m := fld wd 7 3) (f4)), (policy_of_fld (p := p) (m := fld wd 3 2) (f2)), (fin_of_fld (d := w) (m := fld wd 1 2) (f1))]

theorem EncodeDecode.vstIndexed (d : Fin 32) (a : Fin 32) (b : Fin 32) (y : Bool) (k : Fin 8) (p : Policy) (w : Fin 4) : EncodeDecode.Statement (.vstIndexed d a b y k p w) := by
  intro wd hwf hw
  have hw : 3019898944 + d.val * 2097152 + a.val * 65536 + b.val * 2048 + y.toNat * 1024 + k.val * 128 + p.code * 8 + w.val * 2 = wd := Option.some.inj hw
  have hw : wd = atop 1 0 (atop 2 w.val (atop 2 p.code (atop 2 2 (atop 3 k.val (atop 1 y.toNat (atop 5 b.val (atop 5 a.val (atop 5 d.val (45))))))))) := by unfold atop; omega
  obtain ⟨f0, f1, f2, f3, f4, f5, f6, f7, f8, ho⟩ := unpack9 (n1 := 1)  (n2 := 2)  (n3 := 2)  (n4 := 2)  (n5 := 3)  (n6 := 1)  (n7 := 5)  (n8 := 5)  (n9 := 5) (by decide) w.isLt (Policy.code_lt p) (by decide) k.isLt y.toNat_lt b.isLt a.isLt d.isLt hw
  have ho : wd / 67108864 = 45 := ho
  refine decode_of_raw (by rw [ho]; rfl) ?_ hwf
  unfold decodeRaw
  rw [ho]
  show decodeOp2D wd = _
  unfold decodeOp2D
  have c0 : fld wd 0 1 = 0 := f0
  have c1 : fld wd 5 2 = 2 := f3
  refine Eq.trans ((if_neg (fun hh => absurd (c1.symm.trans hh.2.1) (by decide))).trans ((if_neg (fun hh => absurd (c1.symm.trans hh.2.1) (by decide))).trans ((if_pos ⟨c0, c1⟩)))) ?_
  rw [(fin_of_fld (d := d) (m := fld wd 21 5) (f8)), (fin_of_fld (d := a) (m := fld wd 16 5) (f7)), (fin_of_fld (d := b) (m := fld wd 11 5) (f6)), (bit_of_fld (b := y) (lo := 10) (w := wd) (f5)), (fin_of_fld (d := k) (m := fld wd 7 3) (f4)), (policy_of_fld (p := p) (m := fld wd 3 2) (f2)), (fin_of_fld (d := w) (m := fld wd 1 2) (f1))]

theorem EncodeDecode.vstSegment (d : Fin 32) (a : Fin 32) (f : Fin 32) (k : Fin 8) (p : Policy) (w : Fin 4) : EncodeDecode.Statement (.vstSegment d a f k p w) := by
  intro wd hwf hw
  have hw : 3019898976 + d.val * 2097152 + a.val * 65536 + f.val * 2048 + k.val * 128 + p.code * 8 + w.val * 2 = wd := Option.some.inj hw
  have hw : wd = atop 1 0 (atop 2 w.val (atop 2 p.code (atop 2 3 (atop 3 k.val (atop 1 0 (atop 5 f.val (atop 5 a.val (atop 5 d.val (45))))))))) := by unfold atop; omega
  obtain ⟨f0, f1, f2, f3, f4, f5, f6, f7, f8, ho⟩ := unpack9 (n1 := 1)  (n2 := 2)  (n3 := 2)  (n4 := 2)  (n5 := 3)  (n6 := 1)  (n7 := 5)  (n8 := 5)  (n9 := 5) (by decide) w.isLt (Policy.code_lt p) (by decide) k.isLt (by decide) f.isLt a.isLt d.isLt hw
  have ho : wd / 67108864 = 45 := ho
  refine decode_of_raw (by rw [ho]; rfl) ?_ hwf
  unfold decodeRaw
  rw [ho]
  show decodeOp2D wd = _
  unfold decodeOp2D
  have c0 : fld wd 0 1 = 0 := f0
  have c1 : fld wd 5 2 = 3 := f3
  have c2 : fld wd 10 1 = 0 := f5
  refine Eq.trans ((if_neg (fun hh => absurd (c1.symm.trans hh.2.1) (by decide))).trans ((if_neg (fun hh => absurd (c1.symm.trans hh.2.1) (by decide))).trans ((if_neg (fun hh => absurd (c1.symm.trans hh.2) (by decide))).trans ((if_pos ⟨c0, c1, c2⟩))))) ?_
  rw [(fin_of_fld (d := d) (m := fld wd 21 5) (f8)), (fin_of_fld (d := a) (m := fld wd 16 5) (f7)), (fin_of_fld (d := f) (m := fld wd 11 5) (f6)), (fin_of_fld (d := k) (m := fld wd 7 3) (f4)), (policy_of_fld (p := p) (m := fld wd 3 2) (f2)), (fin_of_fld (d := w) (m := fld wd 1 2) (f1))]

theorem EncodeDecode.vldff (d : Fin 32) (a : Fin 32) (k : Fin 8) (p : Policy) (w : Fin 4) : EncodeDecode.Statement (.vldff d a k p w) := by
  intro wd hwf hw
  have hw : 3087007744 + d.val * 2097152 + a.val * 65536 + k.val * 128 + p.code * 8 + w.val * 2 = wd := Option.some.inj hw
  have hw : wd = atop 1 0 (atop 2 w.val (atop 2 p.code (atop 2 0 (atop 3 k.val (atop 6 0 (atop 5 a.val (atop 5 d.val (46)))))))) := by unfold atop; omega
  obtain ⟨f0, f1, f2, f3, f4, f5, f6, f7, ho⟩ := unpack8 (n1 := 1)  (n2 := 2)  (n3 := 2)  (n4 := 2)  (n5 := 3)  (n6 := 6)  (n7 := 5)  (n8 := 5) (by decide) w.isLt (Policy.code_lt p) (by decide) k.isLt (by decide) a.isLt d.isLt hw
  have ho : wd / 67108864 = 46 := ho
  refine decode_of_raw (by rw [ho]; rfl) ?_ hwf
  unfold decodeRaw
  rw [ho]
  show decodeOp2E wd = _
  unfold decodeOp2E
  have c0 : fld wd 0 1 = 0 := f0
  have c1 : fld wd 5 2 = 0 := f3
  have c2 : fld wd 10 6 = 0 := f5
  refine Eq.trans ((if_pos ⟨c0, c1, c2⟩)) ?_
  rw [(fin_of_fld (d := d) (m := fld wd 21 5) (f7)), (fin_of_fld (d := a) (m := fld wd 16 5) (f6)), (fin_of_fld (d := k) (m := fld wd 7 3) (f4)), (policy_of_fld (p := p) (m := fld wd 3 2) (f2)), (fin_of_fld (d := w) (m := fld wd 1 2) (f1))]

theorem EncodeDecode.vldw (d : Fin 32) (a : Fin 32) (p : Policy) : EncodeDecode.Statement (.vldw d a p) := by
  intro wd hwf hw
  have hw : 3087007776 + d.val * 2097152 + a.val * 65536 + p.code * 8 = wd := Option.some.inj hw
  have hw : wd = atop 3 0 (atop 2 p.code (atop 11 1 (atop 5 a.val (atop 5 d.val (46))))) := by unfold atop; omega
  obtain ⟨f0, f1, f2, f3, f4, ho⟩ := unpack5 (n1 := 3)  (n2 := 2)  (n3 := 11)  (n4 := 5)  (n5 := 5) (by decide) (Policy.code_lt p) (by decide) a.isLt d.isLt hw
  have ho : wd / 67108864 = 46 := ho
  refine decode_of_raw (by rw [ho]; rfl) ?_ hwf
  unfold decodeRaw
  rw [ho]
  show decodeOp2E wd = _
  unfold decodeOp2E
  have c0 : fld wd 0 3 = 0 := f0
  have c1 : fld wd 5 11 = 1 := f2
  refine Eq.trans ((if_neg (fun hh => fld_short hh.2.1 c1 (by decide) (by decide))).trans ((if_pos ⟨c0, c1⟩))) ?_
  rw [(fin_of_fld (d := d) (m := fld wd 21 5) (f4)), (fin_of_fld (d := a) (m := fld wd 16 5) (f3)), (policy_of_fld (p := p) (m := fld wd 3 2) (f1))]

theorem EncodeDecode.vstw (d : Fin 32) (a : Fin 32) (p : Policy) : EncodeDecode.Statement (.vstw d a p) := by
  intro wd hwf hw
  have hw : 3087007808 + d.val * 2097152 + a.val * 65536 + p.code * 8 = wd := Option.some.inj hw
  have hw : wd = atop 3 0 (atop 2 p.code (atop 11 2 (atop 5 a.val (atop 5 d.val (46))))) := by unfold atop; omega
  obtain ⟨f0, f1, f2, f3, f4, ho⟩ := unpack5 (n1 := 3)  (n2 := 2)  (n3 := 11)  (n4 := 5)  (n5 := 5) (by decide) (Policy.code_lt p) (by decide) a.isLt d.isLt hw
  have ho : wd / 67108864 = 46 := ho
  refine decode_of_raw (by rw [ho]; rfl) ?_ hwf
  unfold decodeRaw
  rw [ho]
  show decodeOp2E wd = _
  unfold decodeOp2E
  have c0 : fld wd 0 3 = 0 := f0
  have c1 : fld wd 5 11 = 2 := f2
  refine Eq.trans ((if_neg (fun hh => fld_short hh.2.1 c1 (by decide) (by decide))).trans ((if_neg (fun hh => absurd (c1.symm.trans hh.2) (by decide))).trans ((if_pos ⟨c0, c1⟩)))) ?_
  rw [(fin_of_fld (d := d) (m := fld wd 21 5) (f4)), (fin_of_fld (d := a) (m := fld wd 16 5) (f3)), (policy_of_fld (p := p) (m := fld wd 3 2) (f1))]

theorem EncodeDecode.vldslide (d : Fin 32) (a : Fin 32) (b : Fin 32) (k : Fin 8) (p : Policy) (w : Fin 4) : EncodeDecode.Statement (.vldslide d a b k p w) := by
  intro wd hwf hw
  have hw : 3087007840 + d.val * 2097152 + a.val * 65536 + b.val * 2048 + k.val * 128 + p.code * 8 + w.val * 2 = wd := Option.some.inj hw
  have hw : wd = atop 1 0 (atop 2 w.val (atop 2 p.code (atop 2 3 (atop 3 k.val (atop 1 0 (atop 5 b.val (atop 5 a.val (atop 5 d.val (46))))))))) := by unfold atop; omega
  obtain ⟨f0, f1, f2, f3, f4, f5, f6, f7, f8, ho⟩ := unpack9 (n1 := 1)  (n2 := 2)  (n3 := 2)  (n4 := 2)  (n5 := 3)  (n6 := 1)  (n7 := 5)  (n8 := 5)  (n9 := 5) (by decide) w.isLt (Policy.code_lt p) (by decide) k.isLt (by decide) b.isLt a.isLt d.isLt hw
  have ho : wd / 67108864 = 46 := ho
  refine decode_of_raw (by rw [ho]; rfl) ?_ hwf
  unfold decodeRaw
  rw [ho]
  show decodeOp2E wd = _
  unfold decodeOp2E
  have c0 : fld wd 0 1 = 0 := f0
  have c1 : fld wd 5 2 = 3 := f3
  have c2 : fld wd 10 1 = 0 := f5
  refine Eq.trans ((if_neg (fun hh => absurd (c1.symm.trans hh.2.1) (by decide))).trans ((if_neg (fun hh => fld_short c1 hh.2 (by decide) (by decide))).trans ((if_neg (fun hh => fld_short c1 hh.2 (by decide) (by decide))).trans ((if_pos ⟨c0, c1, c2⟩))))) ?_
  rw [(fin_of_fld (d := d) (m := fld wd 21 5) (f8)), (fin_of_fld (d := a) (m := fld wd 16 5) (f7)), (fin_of_fld (d := b) (m := fld wd 11 5) (f6)), (fin_of_fld (d := k) (m := fld wd 7 3) (f4)), (policy_of_fld (p := p) (m := fld wd 3 2) (f2)), (fin_of_fld (d := w) (m := fld wd 1 2) (f1))]

theorem EncodeDecode.vamoswap (d : Fin 32) (a : Fin 32) (b : Fin 32) (y : Bool) (k : Fin 8) : EncodeDecode.Statement (.vamoswap d a b y k) := by
  intro wd hwf hw
  have hw : 3154116608 + d.val * 2097152 + a.val * 65536 + b.val * 2048 + y.toNat * 1024 + k.val * 128 = wd := Option.some.inj hw
  have hw : wd = atop 7 0 (atop 3 k.val (atop 1 y.toNat (atop 5 b.val (atop 5 a.val (atop 5 d.val (47)))))) := by unfold atop; omega
  obtain ⟨f0, f1, f2, f3, f4, f5, ho⟩ := unpack6 (n1 := 7)  (n2 := 3)  (n3 := 1)  (n4 := 5)  (n5 := 5)  (n6 := 5) (by decide) k.isLt y.toNat_lt b.isLt a.isLt d.isLt hw
  have ho : wd / 67108864 = 47 := ho
  refine decode_of_raw (by rw [ho]; rfl) ?_ hwf
  unfold decodeRaw
  rw [ho]
  show decodeOp2F wd = _
  unfold decodeOp2F
  have c0 : fld wd 0 7 = 0 := f0
  refine Eq.trans ((if_pos c0)) ?_
  rw [(fin_of_fld (d := d) (m := fld wd 21 5) (f5)), (fin_of_fld (d := a) (m := fld wd 16 5) (f4)), (fin_of_fld (d := b) (m := fld wd 11 5) (f3)), (bit_of_fld (b := y) (lo := 10) (w := wd) (f2)), (fin_of_fld (d := k) (m := fld wd 7 3) (f1))]

theorem EncodeDecode.vamoadd (d : Fin 32) (a : Fin 32) (b : Fin 32) (y : Bool) (k : Fin 8) : EncodeDecode.Statement (.vamoadd d a b y k) := by
  intro wd hwf hw
  have hw : 3154116616 + d.val * 2097152 + a.val * 65536 + b.val * 2048 + y.toNat * 1024 + k.val * 128 = wd := Option.some.inj hw
  have hw : wd = atop 7 8 (atop 3 k.val (atop 1 y.toNat (atop 5 b.val (atop 5 a.val (atop 5 d.val (47)))))) := by unfold atop; omega
  obtain ⟨f0, f1, f2, f3, f4, f5, ho⟩ := unpack6 (n1 := 7)  (n2 := 3)  (n3 := 1)  (n4 := 5)  (n5 := 5)  (n6 := 5) (by decide) k.isLt y.toNat_lt b.isLt a.isLt d.isLt hw
  have ho : wd / 67108864 = 47 := ho
  refine decode_of_raw (by rw [ho]; rfl) ?_ hwf
  unfold decodeRaw
  rw [ho]
  show decodeOp2F wd = _
  unfold decodeOp2F
  have c0 : fld wd 0 7 = 8 := f0
  refine Eq.trans ((if_neg (fun hh => absurd (c0.symm.trans hh) (by decide))).trans ((if_pos c0))) ?_
  rw [(fin_of_fld (d := d) (m := fld wd 21 5) (f5)), (fin_of_fld (d := a) (m := fld wd 16 5) (f4)), (fin_of_fld (d := b) (m := fld wd 11 5) (f3)), (bit_of_fld (b := y) (lo := 10) (w := wd) (f2)), (fin_of_fld (d := k) (m := fld wd 7 3) (f1))]

theorem EncodeDecode.vamoand (d : Fin 32) (a : Fin 32) (b : Fin 32) (y : Bool) (k : Fin 8) : EncodeDecode.Statement (.vamoand d a b y k) := by
  intro wd hwf hw
  have hw : 3154116624 + d.val * 2097152 + a.val * 65536 + b.val * 2048 + y.toNat * 1024 + k.val * 128 = wd := Option.some.inj hw
  have hw : wd = atop 7 16 (atop 3 k.val (atop 1 y.toNat (atop 5 b.val (atop 5 a.val (atop 5 d.val (47)))))) := by unfold atop; omega
  obtain ⟨f0, f1, f2, f3, f4, f5, ho⟩ := unpack6 (n1 := 7)  (n2 := 3)  (n3 := 1)  (n4 := 5)  (n5 := 5)  (n6 := 5) (by decide) k.isLt y.toNat_lt b.isLt a.isLt d.isLt hw
  have ho : wd / 67108864 = 47 := ho
  refine decode_of_raw (by rw [ho]; rfl) ?_ hwf
  unfold decodeRaw
  rw [ho]
  show decodeOp2F wd = _
  unfold decodeOp2F
  have c0 : fld wd 0 7 = 16 := f0
  refine Eq.trans ((if_neg (fun hh => absurd (c0.symm.trans hh) (by decide))).trans ((if_neg (fun hh => absurd (c0.symm.trans hh) (by decide))).trans ((if_pos c0)))) ?_
  rw [(fin_of_fld (d := d) (m := fld wd 21 5) (f5)), (fin_of_fld (d := a) (m := fld wd 16 5) (f4)), (fin_of_fld (d := b) (m := fld wd 11 5) (f3)), (bit_of_fld (b := y) (lo := 10) (w := wd) (f2)), (fin_of_fld (d := k) (m := fld wd 7 3) (f1))]

theorem EncodeDecode.vamoor (d : Fin 32) (a : Fin 32) (b : Fin 32) (y : Bool) (k : Fin 8) : EncodeDecode.Statement (.vamoor d a b y k) := by
  intro wd hwf hw
  have hw : 3154116632 + d.val * 2097152 + a.val * 65536 + b.val * 2048 + y.toNat * 1024 + k.val * 128 = wd := Option.some.inj hw
  have hw : wd = atop 7 24 (atop 3 k.val (atop 1 y.toNat (atop 5 b.val (atop 5 a.val (atop 5 d.val (47)))))) := by unfold atop; omega
  obtain ⟨f0, f1, f2, f3, f4, f5, ho⟩ := unpack6 (n1 := 7)  (n2 := 3)  (n3 := 1)  (n4 := 5)  (n5 := 5)  (n6 := 5) (by decide) k.isLt y.toNat_lt b.isLt a.isLt d.isLt hw
  have ho : wd / 67108864 = 47 := ho
  refine decode_of_raw (by rw [ho]; rfl) ?_ hwf
  unfold decodeRaw
  rw [ho]
  show decodeOp2F wd = _
  unfold decodeOp2F
  have c0 : fld wd 0 7 = 24 := f0
  refine Eq.trans ((if_neg (fun hh => absurd (c0.symm.trans hh) (by decide))).trans ((if_neg (fun hh => absurd (c0.symm.trans hh) (by decide))).trans ((if_neg (fun hh => absurd (c0.symm.trans hh) (by decide))).trans ((if_pos c0))))) ?_
  rw [(fin_of_fld (d := d) (m := fld wd 21 5) (f5)), (fin_of_fld (d := a) (m := fld wd 16 5) (f4)), (fin_of_fld (d := b) (m := fld wd 11 5) (f3)), (bit_of_fld (b := y) (lo := 10) (w := wd) (f2)), (fin_of_fld (d := k) (m := fld wd 7 3) (f1))]

theorem EncodeDecode.vamoxor (d : Fin 32) (a : Fin 32) (b : Fin 32) (y : Bool) (k : Fin 8) : EncodeDecode.Statement (.vamoxor d a b y k) := by
  intro wd hwf hw
  have hw : 3154116640 + d.val * 2097152 + a.val * 65536 + b.val * 2048 + y.toNat * 1024 + k.val * 128 = wd := Option.some.inj hw
  have hw : wd = atop 7 32 (atop 3 k.val (atop 1 y.toNat (atop 5 b.val (atop 5 a.val (atop 5 d.val (47)))))) := by unfold atop; omega
  obtain ⟨f0, f1, f2, f3, f4, f5, ho⟩ := unpack6 (n1 := 7)  (n2 := 3)  (n3 := 1)  (n4 := 5)  (n5 := 5)  (n6 := 5) (by decide) k.isLt y.toNat_lt b.isLt a.isLt d.isLt hw
  have ho : wd / 67108864 = 47 := ho
  refine decode_of_raw (by rw [ho]; rfl) ?_ hwf
  unfold decodeRaw
  rw [ho]
  show decodeOp2F wd = _
  unfold decodeOp2F
  have c0 : fld wd 0 7 = 32 := f0
  refine Eq.trans ((if_neg (fun hh => absurd (c0.symm.trans hh) (by decide))).trans ((if_neg (fun hh => absurd (c0.symm.trans hh) (by decide))).trans ((if_neg (fun hh => absurd (c0.symm.trans hh) (by decide))).trans ((if_neg (fun hh => absurd (c0.symm.trans hh) (by decide))).trans ((if_pos c0)))))) ?_
  rw [(fin_of_fld (d := d) (m := fld wd 21 5) (f5)), (fin_of_fld (d := a) (m := fld wd 16 5) (f4)), (fin_of_fld (d := b) (m := fld wd 11 5) (f3)), (bit_of_fld (b := y) (lo := 10) (w := wd) (f2)), (fin_of_fld (d := k) (m := fld wd 7 3) (f1))]

theorem EncodeDecode.vamomin (d : Fin 32) (a : Fin 32) (b : Fin 32) (y : Bool) (k : Fin 8) : EncodeDecode.Statement (.vamomin d a b y k) := by
  intro wd hwf hw
  have hw : 3154116648 + d.val * 2097152 + a.val * 65536 + b.val * 2048 + y.toNat * 1024 + k.val * 128 = wd := Option.some.inj hw
  have hw : wd = atop 7 40 (atop 3 k.val (atop 1 y.toNat (atop 5 b.val (atop 5 a.val (atop 5 d.val (47)))))) := by unfold atop; omega
  obtain ⟨f0, f1, f2, f3, f4, f5, ho⟩ := unpack6 (n1 := 7)  (n2 := 3)  (n3 := 1)  (n4 := 5)  (n5 := 5)  (n6 := 5) (by decide) k.isLt y.toNat_lt b.isLt a.isLt d.isLt hw
  have ho : wd / 67108864 = 47 := ho
  refine decode_of_raw (by rw [ho]; rfl) ?_ hwf
  unfold decodeRaw
  rw [ho]
  show decodeOp2F wd = _
  unfold decodeOp2F
  have c0 : fld wd 0 7 = 40 := f0
  refine Eq.trans ((if_neg (fun hh => absurd (c0.symm.trans hh) (by decide))).trans ((if_neg (fun hh => absurd (c0.symm.trans hh) (by decide))).trans ((if_neg (fun hh => absurd (c0.symm.trans hh) (by decide))).trans ((if_neg (fun hh => absurd (c0.symm.trans hh) (by decide))).trans ((if_neg (fun hh => absurd (c0.symm.trans hh) (by decide))).trans ((if_pos c0))))))) ?_
  rw [(fin_of_fld (d := d) (m := fld wd 21 5) (f5)), (fin_of_fld (d := a) (m := fld wd 16 5) (f4)), (fin_of_fld (d := b) (m := fld wd 11 5) (f3)), (bit_of_fld (b := y) (lo := 10) (w := wd) (f2)), (fin_of_fld (d := k) (m := fld wd 7 3) (f1))]

theorem EncodeDecode.vamomax (d : Fin 32) (a : Fin 32) (b : Fin 32) (y : Bool) (k : Fin 8) : EncodeDecode.Statement (.vamomax d a b y k) := by
  intro wd hwf hw
  have hw : 3154116656 + d.val * 2097152 + a.val * 65536 + b.val * 2048 + y.toNat * 1024 + k.val * 128 = wd := Option.some.inj hw
  have hw : wd = atop 7 48 (atop 3 k.val (atop 1 y.toNat (atop 5 b.val (atop 5 a.val (atop 5 d.val (47)))))) := by unfold atop; omega
  obtain ⟨f0, f1, f2, f3, f4, f5, ho⟩ := unpack6 (n1 := 7)  (n2 := 3)  (n3 := 1)  (n4 := 5)  (n5 := 5)  (n6 := 5) (by decide) k.isLt y.toNat_lt b.isLt a.isLt d.isLt hw
  have ho : wd / 67108864 = 47 := ho
  refine decode_of_raw (by rw [ho]; rfl) ?_ hwf
  unfold decodeRaw
  rw [ho]
  show decodeOp2F wd = _
  unfold decodeOp2F
  have c0 : fld wd 0 7 = 48 := f0
  refine Eq.trans ((if_neg (fun hh => absurd (c0.symm.trans hh) (by decide))).trans ((if_neg (fun hh => absurd (c0.symm.trans hh) (by decide))).trans ((if_neg (fun hh => absurd (c0.symm.trans hh) (by decide))).trans ((if_neg (fun hh => absurd (c0.symm.trans hh) (by decide))).trans ((if_neg (fun hh => absurd (c0.symm.trans hh) (by decide))).trans ((if_neg (fun hh => absurd (c0.symm.trans hh) (by decide))).trans ((if_pos c0)))))))) ?_
  rw [(fin_of_fld (d := d) (m := fld wd 21 5) (f5)), (fin_of_fld (d := a) (m := fld wd 16 5) (f4)), (fin_of_fld (d := b) (m := fld wd 11 5) (f3)), (bit_of_fld (b := y) (lo := 10) (w := wd) (f2)), (fin_of_fld (d := k) (m := fld wd 7 3) (f1))]

theorem EncodeDecode.vamominu (d : Fin 32) (a : Fin 32) (b : Fin 32) (y : Bool) (k : Fin 8) : EncodeDecode.Statement (.vamominu d a b y k) := by
  intro wd hwf hw
  have hw : 3154116664 + d.val * 2097152 + a.val * 65536 + b.val * 2048 + y.toNat * 1024 + k.val * 128 = wd := Option.some.inj hw
  have hw : wd = atop 7 56 (atop 3 k.val (atop 1 y.toNat (atop 5 b.val (atop 5 a.val (atop 5 d.val (47)))))) := by unfold atop; omega
  obtain ⟨f0, f1, f2, f3, f4, f5, ho⟩ := unpack6 (n1 := 7)  (n2 := 3)  (n3 := 1)  (n4 := 5)  (n5 := 5)  (n6 := 5) (by decide) k.isLt y.toNat_lt b.isLt a.isLt d.isLt hw
  have ho : wd / 67108864 = 47 := ho
  refine decode_of_raw (by rw [ho]; rfl) ?_ hwf
  unfold decodeRaw
  rw [ho]
  show decodeOp2F wd = _
  unfold decodeOp2F
  have c0 : fld wd 0 7 = 56 := f0
  refine Eq.trans ((if_neg (fun hh => absurd (c0.symm.trans hh) (by decide))).trans ((if_neg (fun hh => absurd (c0.symm.trans hh) (by decide))).trans ((if_neg (fun hh => absurd (c0.symm.trans hh) (by decide))).trans ((if_neg (fun hh => absurd (c0.symm.trans hh) (by decide))).trans ((if_neg (fun hh => absurd (c0.symm.trans hh) (by decide))).trans ((if_neg (fun hh => absurd (c0.symm.trans hh) (by decide))).trans ((if_neg (fun hh => absurd (c0.symm.trans hh) (by decide))).trans ((if_pos c0))))))))) ?_
  rw [(fin_of_fld (d := d) (m := fld wd 21 5) (f5)), (fin_of_fld (d := a) (m := fld wd 16 5) (f4)), (fin_of_fld (d := b) (m := fld wd 11 5) (f3)), (bit_of_fld (b := y) (lo := 10) (w := wd) (f2)), (fin_of_fld (d := k) (m := fld wd 7 3) (f1))]

theorem EncodeDecode.vamomaxu (d : Fin 32) (a : Fin 32) (b : Fin 32) (y : Bool) (k : Fin 8) : EncodeDecode.Statement (.vamomaxu d a b y k) := by
  intro wd hwf hw
  have hw : 3154116672 + d.val * 2097152 + a.val * 65536 + b.val * 2048 + y.toNat * 1024 + k.val * 128 = wd := Option.some.inj hw
  have hw : wd = atop 7 64 (atop 3 k.val (atop 1 y.toNat (atop 5 b.val (atop 5 a.val (atop 5 d.val (47)))))) := by unfold atop; omega
  obtain ⟨f0, f1, f2, f3, f4, f5, ho⟩ := unpack6 (n1 := 7)  (n2 := 3)  (n3 := 1)  (n4 := 5)  (n5 := 5)  (n6 := 5) (by decide) k.isLt y.toNat_lt b.isLt a.isLt d.isLt hw
  have ho : wd / 67108864 = 47 := ho
  refine decode_of_raw (by rw [ho]; rfl) ?_ hwf
  unfold decodeRaw
  rw [ho]
  show decodeOp2F wd = _
  unfold decodeOp2F
  have c0 : fld wd 0 7 = 64 := f0
  refine Eq.trans ((if_neg (fun hh => absurd (c0.symm.trans hh) (by decide))).trans ((if_neg (fun hh => absurd (c0.symm.trans hh) (by decide))).trans ((if_neg (fun hh => absurd (c0.symm.trans hh) (by decide))).trans ((if_neg (fun hh => absurd (c0.symm.trans hh) (by decide))).trans ((if_neg (fun hh => absurd (c0.symm.trans hh) (by decide))).trans ((if_neg (fun hh => absurd (c0.symm.trans hh) (by decide))).trans ((if_neg (fun hh => absurd (c0.symm.trans hh) (by decide))).trans ((if_neg (fun hh => absurd (c0.symm.trans hh) (by decide))).trans ((if_pos c0)))))))))) ?_
  rw [(fin_of_fld (d := d) (m := fld wd 21 5) (f5)), (fin_of_fld (d := a) (m := fld wd 16 5) (f4)), (fin_of_fld (d := b) (m := fld wd 11 5) (f3)), (bit_of_fld (b := y) (lo := 10) (w := wd) (f2)), (fin_of_fld (d := k) (m := fld wd 7 3) (f1))]

theorem EncodeDecode.vamocas (d : Fin 32) (a : Fin 32) (b : Fin 32) (y : Bool) (k : Fin 8) : EncodeDecode.Statement (.vamocas d a b y k) := by
  intro wd hwf hw
  have hw : 3154116680 + d.val * 2097152 + a.val * 65536 + b.val * 2048 + y.toNat * 1024 + k.val * 128 = wd := Option.some.inj hw
  have hw : wd = atop 7 72 (atop 3 k.val (atop 1 y.toNat (atop 5 b.val (atop 5 a.val (atop 5 d.val (47)))))) := by unfold atop; omega
  obtain ⟨f0, f1, f2, f3, f4, f5, ho⟩ := unpack6 (n1 := 7)  (n2 := 3)  (n3 := 1)  (n4 := 5)  (n5 := 5)  (n6 := 5) (by decide) k.isLt y.toNat_lt b.isLt a.isLt d.isLt hw
  have ho : wd / 67108864 = 47 := ho
  refine decode_of_raw (by rw [ho]; rfl) ?_ hwf
  unfold decodeRaw
  rw [ho]
  show decodeOp2F wd = _
  unfold decodeOp2F
  have c0 : fld wd 0 7 = 72 := f0
  refine Eq.trans ((if_neg (fun hh => absurd (c0.symm.trans hh) (by decide))).trans ((if_neg (fun hh => absurd (c0.symm.trans hh) (by decide))).trans ((if_neg (fun hh => absurd (c0.symm.trans hh) (by decide))).trans ((if_neg (fun hh => absurd (c0.symm.trans hh) (by decide))).trans ((if_neg (fun hh => absurd (c0.symm.trans hh) (by decide))).trans ((if_neg (fun hh => absurd (c0.symm.trans hh) (by decide))).trans ((if_neg (fun hh => absurd (c0.symm.trans hh) (by decide))).trans ((if_neg (fun hh => absurd (c0.symm.trans hh) (by decide))).trans ((if_neg (fun hh => absurd (c0.symm.trans hh) (by decide))).trans ((if_pos c0))))))))))) ?_
  rw [(fin_of_fld (d := d) (m := fld wd 21 5) (f5)), (fin_of_fld (d := a) (m := fld wd 16 5) (f4)), (fin_of_fld (d := b) (m := fld wd 11 5) (f3)), (bit_of_fld (b := y) (lo := 10) (w := wd) (f2)), (fin_of_fld (d := k) (m := fld wd 7 3) (f1))]

theorem EncodeDecode.yattach (a : Fin 32) : EncodeDecode.Statement (.yattach a) := by
  intro wd hwf hw
  have hw : 3221225472 + a.val * 65536 = wd := Option.some.inj hw
  have hw : wd = atop 16 0 (atop 5 a.val (atop 5 0 (48))) := by unfold atop; omega
  obtain ⟨f0, f1, f2, ho⟩ := unpack3 (n1 := 16)  (n2 := 5)  (n3 := 5) (by decide) a.isLt (by decide) hw
  have ho : wd / 67108864 = 48 := ho
  refine decode_of_raw (by rw [ho]; rfl) ?_ hwf
  unfold decodeRaw
  rw [ho]
  show decodeOp30 wd = _
  unfold decodeOp30
  have c0 : fld wd 0 16 = 0 := f0
  have c1 : fld wd 21 5 = 0 := f2
  refine Eq.trans ((if_pos ⟨c0, c1⟩)) ?_
  rw [(fin_of_fld (d := a) (m := fld wd 16 5) (f1))]

theorem EncodeDecode.ydetach : EncodeDecode.Statement (.ydetach) := by
  intro wd hwf hw
  have hw : 3221225473 = wd := Option.some.inj hw
  have hw : wd = atop 26 1 (48) := by unfold atop; omega
  obtain ⟨f0, ho⟩ := unpack1 (n1 := 26) (by decide) hw
  have ho : wd / 67108864 = 48 := ho
  refine decode_of_raw (by rw [ho]; rfl) ?_ hwf
  unfold decodeRaw
  rw [ho]
  show decodeOp30 wd = _
  unfold decodeOp30
  have c0 : fld wd 0 26 = 1 := f0
  refine Eq.trans ((if_neg (fun hh => fld_short hh.1 c0 (by decide) (by decide))).trans ((if_pos c0))) ?_
  rfl

theorem EncodeDecode.yzero (a : Fin 32) : EncodeDecode.Statement (.yzero a) := by
  intro wd hwf hw
  have hw : 3221225474 + a.val * 65536 = wd := Option.some.inj hw
  have hw : wd = atop 16 2 (atop 5 a.val (atop 5 0 (48))) := by unfold atop; omega
  obtain ⟨f0, f1, f2, ho⟩ := unpack3 (n1 := 16)  (n2 := 5)  (n3 := 5) (by decide) a.isLt (by decide) hw
  have ho : wd / 67108864 = 48 := ho
  refine decode_of_raw (by rw [ho]; rfl) ?_ hwf
  unfold decodeRaw
  rw [ho]
  show decodeOp30 wd = _
  unfold decodeOp30
  have c0 : fld wd 0 16 = 2 := f0
  have c1 : fld wd 21 5 = 0 := f2
  refine Eq.trans ((if_neg (fun hh => absurd (c0.symm.trans hh.1) (by decide))).trans ((if_neg (fun hh => fld_short c0 hh (by decide) (by decide))).trans ((if_pos ⟨c0, c1⟩)))) ?_
  rw [(fin_of_fld (d := a) (m := fld wd 16 5) (f1))]

theorem EncodeDecode.yldb (a : Fin 32) (b : Fin 32) : EncodeDecode.Statement (.yldb a b) := by
  intro wd hwf hw
  have hw : 3221225475 + a.val * 65536 + b.val * 2048 = wd := Option.some.inj hw
  have hw : wd = atop 11 3 (atop 5 b.val (atop 5 a.val (atop 5 0 (48)))) := by unfold atop; omega
  obtain ⟨f0, f1, f2, f3, ho⟩ := unpack4 (n1 := 11)  (n2 := 5)  (n3 := 5)  (n4 := 5) (by decide) b.isLt a.isLt (by decide) hw
  have ho : wd / 67108864 = 48 := ho
  refine decode_of_raw (by rw [ho]; rfl) ?_ hwf
  unfold decodeRaw
  rw [ho]
  show decodeOp30 wd = _
  unfold decodeOp30
  have c0 : fld wd 0 11 = 3 := f0
  have c1 : fld wd 21 5 = 0 := f3
  refine Eq.trans ((if_neg (fun hh => fld_short c0 hh.1 (by decide) (by decide))).trans ((if_neg (fun hh => fld_short c0 hh (by decide) (by decide))).trans ((if_neg (fun hh => fld_short c0 hh.1 (by decide) (by decide))).trans ((if_pos ⟨c0, c1⟩))))) ?_
  rw [(fin_of_fld (d := a) (m := fld wd 16 5) (f2)), (fin_of_fld (d := b) (m := fld wd 11 5) (f1))]

theorem EncodeDecode.ymma (a : Fin 32) (b : Fin 32) : EncodeDecode.Statement (.ymma a b) := by
  intro wd hwf hw
  have hw : 3221225476 + a.val * 65536 + b.val * 2048 = wd := Option.some.inj hw
  have hw : wd = atop 11 4 (atop 5 b.val (atop 5 a.val (atop 5 0 (48)))) := by unfold atop; omega
  obtain ⟨f0, f1, f2, f3, ho⟩ := unpack4 (n1 := 11)  (n2 := 5)  (n3 := 5)  (n4 := 5) (by decide) b.isLt a.isLt (by decide) hw
  have ho : wd / 67108864 = 48 := ho
  refine decode_of_raw (by rw [ho]; rfl) ?_ hwf
  unfold decodeRaw
  rw [ho]
  show decodeOp30 wd = _
  unfold decodeOp30
  have c0 : fld wd 0 11 = 4 := f0
  have c1 : fld wd 21 5 = 0 := f3
  refine Eq.trans ((if_neg (fun hh => fld_short c0 hh.1 (by decide) (by decide))).trans ((if_neg (fun hh => fld_short c0 hh (by decide) (by decide))).trans ((if_neg (fun hh => fld_short c0 hh.1 (by decide) (by decide))).trans ((if_neg (fun hh => absurd (c0.symm.trans hh.1) (by decide))).trans ((if_pos ⟨c0, c1⟩)))))) ?_
  rw [(fin_of_fld (d := a) (m := fld wd 16 5) (f2)), (fin_of_fld (d := b) (m := fld wd 11 5) (f1))]

theorem EncodeDecode.yrot : EncodeDecode.Statement (.yrot) := by
  intro wd hwf hw
  have hw : 3221225477 = wd := Option.some.inj hw
  have hw : wd = atop 26 5 (48) := by unfold atop; omega
  obtain ⟨f0, ho⟩ := unpack1 (n1 := 26) (by decide) hw
  have ho : wd / 67108864 = 48 := ho
  refine decode_of_raw (by rw [ho]; rfl) ?_ hwf
  unfold decodeRaw
  rw [ho]
  show decodeOp30 wd = _
  unfold decodeOp30
  have c0 : fld wd 0 26 = 5 := f0
  refine Eq.trans ((if_neg (fun hh => fld_short hh.1 c0 (by decide) (by decide))).trans ((if_neg (fun hh => absurd (c0.symm.trans hh) (by decide))).trans ((if_neg (fun hh => fld_short hh.1 c0 (by decide) (by decide))).trans ((if_neg (fun hh => fld_short hh.1 c0 (by decide) (by decide))).trans ((if_neg (fun hh => fld_short hh.1 c0 (by decide) (by decide))).trans ((if_pos c0))))))) ?_
  rfl

theorem EncodeDecode.ydrain (d : Fin 32) (a : Fin 32) (t : Fin 16) : EncodeDecode.Statement (.ydrain d a t) := by
  intro wd hwf hw
  have hw : 3221225478 + d.val * 2097152 + a.val * 65536 + t.val * 16 = wd := Option.some.inj hw
  have hw : wd = atop 4 6 (atop 4 t.val (atop 8 0 (atop 5 a.val (atop 5 d.val (48))))) := by unfold atop; omega
  obtain ⟨f0, f1, f2, f3, f4, ho⟩ := unpack5 (n1 := 4)  (n2 := 4)  (n3 := 8)  (n4 := 5)  (n5 := 5) (by decide) t.isLt (by decide) a.isLt d.isLt hw
  have ho : wd / 67108864 = 48 := ho
  refine decode_of_raw (by rw [ho]; rfl) ?_ hwf
  unfold decodeRaw
  rw [ho]
  show decodeOp30 wd = _
  unfold decodeOp30
  have c0 : fld wd 0 4 = 6 := f0
  have c1 : fld wd 8 8 = 0 := f2
  refine Eq.trans ((if_neg (fun hh => fld_short c0 hh.1 (by decide) (by decide))).trans ((if_neg (fun hh => fld_short c0 hh (by decide) (by decide))).trans ((if_neg (fun hh => fld_short c0 hh.1 (by decide) (by decide))).trans ((if_neg (fun hh => fld_short c0 hh.1 (by decide) (by decide))).trans ((if_neg (fun hh => fld_short c0 hh.1 (by decide) (by decide))).trans ((if_neg (fun hh => fld_short c0 hh (by decide) (by decide))).trans ((if_pos ⟨c0, c1⟩)))))))) ?_
  rw [(fin_of_fld (d := d) (m := fld wd 21 5) (f4)), (fin_of_fld (d := a) (m := fld wd 16 5) (f3)), (fin_of_fld (d := t) (m := fld wd 4 4) (f1))]

theorem EncodeDecode.ywait : EncodeDecode.Statement (.ywait) := by
  intro wd hwf hw
  have hw : 3221225479 = wd := Option.some.inj hw
  have hw : wd = atop 26 7 (48) := by unfold atop; omega
  obtain ⟨f0, ho⟩ := unpack1 (n1 := 26) (by decide) hw
  have ho : wd / 67108864 = 48 := ho
  refine decode_of_raw (by rw [ho]; rfl) ?_ hwf
  unfold decodeRaw
  rw [ho]
  show decodeOp30 wd = _
  unfold decodeOp30
  have c0 : fld wd 0 26 = 7 := f0
  refine Eq.trans ((if_neg (fun hh => fld_short hh.1 c0 (by decide) (by decide))).trans ((if_neg (fun hh => absurd (c0.symm.trans hh) (by decide))).trans ((if_neg (fun hh => fld_short hh.1 c0 (by decide) (by decide))).trans ((if_neg (fun hh => fld_short hh.1 c0 (by decide) (by decide))).trans ((if_neg (fun hh => fld_short hh.1 c0 (by decide) (by decide))).trans ((if_neg (fun hh => absurd (c0.symm.trans hh) (by decide))).trans ((if_neg (fun hh => fld_short hh.1 c0 (by decide) (by decide))).trans ((if_pos c0))))))))) ?_
  rfl

theorem EncodeDecode.sbind (d : Fin 32) (a : Fin 32) (s : Fin 8) : EncodeDecode.Statement (.sbind d a s) := by
  intro wd hwf hw
  have hw : 3288334336 + d.val * 2097152 + a.val * 65536 + s.val * 2048 = wd := Option.some.inj hw
  have hw : wd = atop 11 0 (atop 3 s.val (atop 2 0 (atop 5 a.val (atop 5 d.val (49))))) := by unfold atop; omega
  obtain ⟨f0, f1, f2, f3, f4, ho⟩ := unpack5 (n1 := 11)  (n2 := 3)  (n3 := 2)  (n4 := 5)  (n5 := 5) (by decide) s.isLt (by decide) a.isLt d.isLt hw
  have ho : wd / 67108864 = 49 := ho
  refine decode_of_raw (by rw [ho]; rfl) ?_ hwf
  unfold decodeRaw
  rw [ho]
  show decodeOp31 wd = _
  unfold decodeOp31
  have c0 : fld wd 0 11 = 0 := f0
  have c1 : fld wd 14 2 = 0 := f2
  refine Eq.trans ((if_pos ⟨c0, c1⟩)) ?_
  rw [(fin_of_fld (d := d) (m := fld wd 21 5) (f4)), (fin_of_fld (d := a) (m := fld wd 16 5) (f3)), (fin_of_fld (d := s) (m := fld wd 11 3) (f1))]

theorem EncodeDecode.sunbind (s : Fin 8) : EncodeDecode.Statement (.sunbind s) := by
  intro wd hwf hw
  have hw : 3288334337 + s.val * 2048 = wd := Option.some.inj hw
  have hw : wd = atop 11 1 (atop 3 s.val (atop 12 0 (49))) := by unfold atop; omega
  obtain ⟨f0, f1, f2, ho⟩ := unpack3 (n1 := 11)  (n2 := 3)  (n3 := 12) (by decide) s.isLt (by decide) hw
  have ho : wd / 67108864 = 49 := ho
  refine decode_of_raw (by rw [ho]; rfl) ?_ hwf
  unfold decodeRaw
  rw [ho]
  show decodeOp31 wd = _
  unfold decodeOp31
  have c0 : fld wd 0 11 = 1 := f0
  have c1 : fld wd 14 12 = 0 := f2
  refine Eq.trans ((if_neg (fun hh => absurd (c0.symm.trans hh.1) (by decide))).trans ((if_pos ⟨c0, c1⟩))) ?_
  rw [(fin_of_fld (d := s) (m := fld wd 11 3) (f1))]

theorem EncodeDecode.scopy (d : Fin 32) (a : Fin 32) : EncodeDecode.Statement (.scopy d a) := by
  intro wd hwf hw
  have hw : 3288334338 + d.val * 2097152 + a.val * 65536 = wd := Option.some.inj hw
  have hw : wd = atop 16 2 (atop 5 a.val (atop 5 d.val (49))) := by unfold atop; omega
  obtain ⟨f0, f1, f2, ho⟩ := unpack3 (n1 := 16)  (n2 := 5)  (n3 := 5) (by decide) a.isLt d.isLt hw
  have ho : wd / 67108864 = 49 := ho
  refine decode_of_raw (by rw [ho]; rfl) ?_ hwf
  unfold decodeRaw
  rw [ho]
  show decodeOp31 wd = _
  unfold decodeOp31
  have c0 : fld wd 0 16 = 2 := f0
  refine Eq.trans ((if_neg (fun hh => fld_short hh.1 c0 (by decide) (by decide))).trans ((if_neg (fun hh => fld_short hh.1 c0 (by decide) (by decide))).trans ((if_pos c0)))) ?_
  rw [(fin_of_fld (d := d) (m := fld wd 21 5) (f2)), (fin_of_fld (d := a) (m := fld wd 16 5) (f1))]

theorem EncodeDecode.savail (d : Fin 32) (s : Fin 8) : EncodeDecode.Statement (.savail d s) := by
  intro wd hwf hw
  have hw : 3288334339 + d.val * 2097152 + s.val * 2048 = wd := Option.some.inj hw
  have hw : wd = atop 11 3 (atop 3 s.val (atop 7 0 (atop 5 d.val (49)))) := by unfold atop; omega
  obtain ⟨f0, f1, f2, f3, ho⟩ := unpack4 (n1 := 11)  (n2 := 3)  (n3 := 7)  (n4 := 5) (by decide) s.isLt (by decide) d.isLt hw
  have ho : wd / 67108864 = 49 := ho
  refine decode_of_raw (by rw [ho]; rfl) ?_ hwf
  unfold decodeRaw
  rw [ho]
  show decodeOp31 wd = _
  unfold decodeOp31
  have c0 : fld wd 0 11 = 3 := f0
  have c1 : fld wd 14 7 = 0 := f2
  refine Eq.trans ((if_neg (fun hh => absurd (c0.symm.trans hh.1) (by decide))).trans ((if_neg (fun hh => absurd (c0.symm.trans hh.1) (by decide))).trans ((if_neg (fun hh => fld_short c0 hh (by decide) (by decide))).trans ((if_pos ⟨c0, c1⟩))))) ?_
  rw [(fin_of_fld (d := d) (m := fld wd 21 5) (f3)), (fin_of_fld (d := s) (m := fld wd 11 3) (f1))]

theorem EncodeDecode.xall (d : Fin 32) (a : Fin 32) : EncodeDecode.Statement (.xall d a) := by
  intro wd hwf hw
  have hw : 3355443200 + d.val * 2097152 + a.val * 65536 = wd := Option.some.inj hw
  have hw : wd = atop 16 0 (atop 5 a.val (atop 5 d.val (50))) := by unfold atop; omega
  obtain ⟨f0, f1, f2, ho⟩ := unpack3 (n1 := 16)  (n2 := 5)  (n3 := 5) (by decide) a.isLt d.isLt hw
  have ho : wd / 67108864 = 50 := ho
  refine decode_of_raw (by rw [ho]; rfl) ?_ hwf
  unfold decodeRaw
  rw [ho]
  show decodeOp32 wd = _
  unfold decodeOp32
  have c0 : fld wd 0 16 = 0 := f0
  refine Eq.trans ((if_pos c0)) ?_
  rw [(fin_of_fld (d := d) (m := fld wd 21 5) (f2)), (fin_of_fld (d := a) (m := fld wd 16 5) (f1))]

theorem EncodeDecode.xred (d : Fin 32) (a : Fin 32) : EncodeDecode.Statement (.xred d a) := by
  intro wd hwf hw
  have hw : 3355443201 + d.val * 2097152 + a.val * 65536 = wd := Option.some.inj hw
  have hw : wd = atop 16 1 (atop 5 a.val (atop 5 d.val (50))) := by unfold atop; omega
  obtain ⟨f0, f1, f2, ho⟩ := unpack3 (n1 := 16)  (n2 := 5)  (n3 := 5) (by decide) a.isLt d.isLt hw
  have ho : wd / 67108864 = 50 := ho
  refine decode_of_raw (by rw [ho]; rfl) ?_ hwf
  unfold decodeRaw
  rw [ho]
  show decodeOp32 wd = _
  unfold decodeOp32
  have c0 : fld wd 0 16 = 1 := f0
  refine Eq.trans ((if_neg (fun hh => absurd (c0.symm.trans hh) (by decide))).trans ((if_pos c0))) ?_
  rw [(fin_of_fld (d := d) (m := fld wd 21 5) (f2)), (fin_of_fld (d := a) (m := fld wd 16 5) (f1))]

theorem EncodeDecode.tex (d : Fin 32) (a : Fin 32) (b : Fin 32) (x : Bool) (k : Fin 8) : EncodeDecode.Statement (.tex d a b x k) := by
  intro wd hwf hw
  have hw : 3422552064 + d.val * 2097152 + a.val * 65536 + b.val * 2048 + x.toNat * 1024 + k.val * 64 = wd := Option.some.inj hw
  have hw : wd = atop 6 0 (atop 3 k.val (atop 1 0 (atop 1 x.toNat (atop 5 b.val (atop 5 a.val (atop 5 d.val (51))))))) := by unfold atop; omega
  obtain ⟨f0, f1, f2, f3, f4, f5, f6, ho⟩ := unpack7 (n1 := 6)  (n2 := 3)  (n3 := 1)  (n4 := 1)  (n5 := 5)  (n6 := 5)  (n7 := 5) (by decide) k.isLt (by decide) x.toNat_lt b.isLt a.isLt d.isLt hw
  have ho : wd / 67108864 = 51 := ho
  refine decode_of_raw (by rw [ho]; rfl) ?_ hwf
  unfold decodeRaw
  rw [ho]
  show decodeOp33 wd = _
  unfold decodeOp33
  have c0 : fld wd 0 6 = 0 := f0
  have c1 : fld wd 9 1 = 0 := f2
  refine Eq.trans ((if_pos ⟨c0, c1⟩)) ?_
  rw [(fin_of_fld (d := d) (m := fld wd 21 5) (f6)), (fin_of_fld (d := a) (m := fld wd 16 5) (f5)), (fin_of_fld (d := b) (m := fld wd 11 5) (f4)), (bit_of_fld (b := x) (lo := 10) (w := wd) (f3)), (fin_of_fld (d := k) (m := fld wd 6 3) (f1))]

theorem EncodeDecode.span (d : Fin 32) : EncodeDecode.Statement (.span d) := by
  intro wd hwf hw
  have hw : 3422552065 + d.val * 2097152 = wd := Option.some.inj hw
  have hw : wd = atop 21 1 (atop 5 d.val (51)) := by unfold atop; omega
  obtain ⟨f0, f1, ho⟩ := unpack2 (n1 := 21)  (n2 := 5) (by decide) d.isLt hw
  have ho : wd / 67108864 = 51 := ho
  refine decode_of_raw (by rw [ho]; rfl) ?_ hwf
  unfold decodeRaw
  rw [ho]
  show decodeOp33 wd = _
  unfold decodeOp33
  have c0 : fld wd 0 21 = 1 := f0
  refine Eq.trans ((if_neg (fun hh => fld_short hh.1 c0 (by decide) (by decide))).trans ((if_pos c0))) ?_
  rw [(fin_of_fld (d := d) (m := fld wd 21 5) (f1))]

theorem EncodeDecode.blend (d : Fin 32) (a : Fin 32) (b : Fin 32) (x : Bool) (k : Fin 8) : EncodeDecode.Statement (.blend d a b x k) := by
  intro wd hwf hw
  have hw : 3422552066 + d.val * 2097152 + a.val * 65536 + b.val * 2048 + x.toNat * 1024 + k.val * 64 = wd := Option.some.inj hw
  have hw : wd = atop 6 2 (atop 3 k.val (atop 1 0 (atop 1 x.toNat (atop 5 b.val (atop 5 a.val (atop 5 d.val (51))))))) := by unfold atop; omega
  obtain ⟨f0, f1, f2, f3, f4, f5, f6, ho⟩ := unpack7 (n1 := 6)  (n2 := 3)  (n3 := 1)  (n4 := 1)  (n5 := 5)  (n6 := 5)  (n7 := 5) (by decide) k.isLt (by decide) x.toNat_lt b.isLt a.isLt d.isLt hw
  have ho : wd / 67108864 = 51 := ho
  refine decode_of_raw (by rw [ho]; rfl) ?_ hwf
  unfold decodeRaw
  rw [ho]
  show decodeOp33 wd = _
  unfold decodeOp33
  have c0 : fld wd 0 6 = 2 := f0
  have c1 : fld wd 9 1 = 0 := f2
  refine Eq.trans ((if_neg (fun hh => absurd (c0.symm.trans hh.1) (by decide))).trans ((if_neg (fun hh => fld_short c0 hh (by decide) (by decide))).trans ((if_pos ⟨c0, c1⟩)))) ?_
  rw [(fin_of_fld (d := d) (m := fld wd 21 5) (f6)), (fin_of_fld (d := a) (m := fld wd 16 5) (f5)), (fin_of_fld (d := b) (m := fld wd 11 5) (f4)), (bit_of_fld (b := x) (lo := 10) (w := wd) (f3)), (fin_of_fld (d := k) (m := fld wd 6 3) (f1))]

theorem EncodeDecode.hizq (d : Fin 8) (a : Fin 32) (b : Fin 32) (x : Bool) (k : Fin 8) : EncodeDecode.Statement (.hizq d a b x k) := by
  intro wd hwf hw
  have hw : 3422552067 + d.val * 2097152 + a.val * 65536 + b.val * 2048 + x.toNat * 1024 + k.val * 64 = wd := Option.some.inj hw
  have hw : wd = atop 6 3 (atop 3 k.val (atop 1 0 (atop 1 x.toNat (atop 5 b.val (atop 5 a.val (atop 3 d.val (atop 2 0 (51)))))))) := by unfold atop; omega
  obtain ⟨f0, f1, f2, f3, f4, f5, f6, f7, ho⟩ := unpack8 (n1 := 6)  (n2 := 3)  (n3 := 1)  (n4 := 1)  (n5 := 5)  (n6 := 5)  (n7 := 3)  (n8 := 2) (by decide) k.isLt (by decide) x.toNat_lt b.isLt a.isLt d.isLt (by decide) hw
  have ho : wd / 67108864 = 51 := ho
  refine decode_of_raw (by rw [ho]; rfl) ?_ hwf
  unfold decodeRaw
  rw [ho]
  show decodeOp33 wd = _
  unfold decodeOp33
  have c0 : fld wd 0 6 = 3 := f0
  have c1 : fld wd 9 1 = 0 := f2
  have c2 : fld wd 24 2 = 0 := f7
  refine Eq.trans ((if_neg (fun hh => absurd (c0.symm.trans hh.1) (by decide))).trans ((if_neg (fun hh => fld_short c0 hh (by decide) (by decide))).trans ((if_neg (fun hh => absurd (c0.symm.trans hh.1) (by decide))).trans ((if_pos ⟨c0, c1, c2⟩))))) ?_
  rw [(fin_of_fld (d := d) (m := fld wd 21 3) (f6)), (fin_of_fld (d := a) (m := fld wd 16 5) (f5)), (fin_of_fld (d := b) (m := fld wd 11 5) (f4)), (bit_of_fld (b := x) (lo := 10) (w := wd) (f3)), (fin_of_fld (d := k) (m := fld wd 6 3) (f1))]

theorem EncodeDecode.gbox (d : Fin 32) (a : Fin 32) (b : Fin 32) (x : Bool) (y : Bool) (k : Fin 8) : EncodeDecode.Statement (.gbox d a b x y k) := by
  intro wd hwf hw
  have hw : 3489660928 + d.val * 2097152 + a.val * 65536 + b.val * 2048 + x.toNat * 1024 + y.toNat * 512 + k.val * 64 = wd := Option.some.inj hw
  have hw : wd = atop 6 0 (atop 3 k.val (atop 1 y.toNat (atop 1 x.toNat (atop 5 b.val (atop 5 a.val (atop 5 d.val (52))))))) := by unfold atop; omega
  obtain ⟨f0, f1, f2, f3, f4, f5, f6, ho⟩ := unpack7 (n1 := 6)  (n2 := 3)  (n3 := 1)  (n4 := 1)  (n5 := 5)  (n6 := 5)  (n7 := 5) (by decide) k.isLt y.toNat_lt x.toNat_lt b.isLt a.isLt d.isLt hw
  have ho : wd / 67108864 = 52 := ho
  refine decode_of_raw (by rw [ho]; rfl) ?_ hwf
  unfold decodeRaw
  rw [ho]
  show decodeOp34 wd = _
  unfold decodeOp34
  have c0 : fld wd 0 6 = 0 := f0
  refine Eq.trans ((if_pos c0)) ?_
  rw [(fin_of_fld (d := d) (m := fld wd 21 5) (f6)), (fin_of_fld (d := a) (m := fld wd 16 5) (f5)), (fin_of_fld (d := b) (m := fld wd 11 5) (f4)), (bit_of_fld (b := x) (lo := 10) (w := wd) (f3)), (bit_of_fld (b := y) (lo := 9) (w := wd) (f2)), (fin_of_fld (d := k) (m := fld wd 6 3) (f1))]

theorem EncodeDecode.gtri (d : Fin 32) (a : Fin 32) (b : Fin 32) (x : Bool) (y : Bool) (k : Fin 8) : EncodeDecode.Statement (.gtri d a b x y k) := by
  intro wd hwf hw
  have hw : 3489660929 + d.val * 2097152 + a.val * 65536 + b.val * 2048 + x.toNat * 1024 + y.toNat * 512 + k.val * 64 = wd := Option.some.inj hw
  have hw : wd = atop 6 1 (atop 3 k.val (atop 1 y.toNat (atop 1 x.toNat (atop 5 b.val (atop 5 a.val (atop 5 d.val (52))))))) := by unfold atop; omega
  obtain ⟨f0, f1, f2, f3, f4, f5, f6, ho⟩ := unpack7 (n1 := 6)  (n2 := 3)  (n3 := 1)  (n4 := 1)  (n5 := 5)  (n6 := 5)  (n7 := 5) (by decide) k.isLt y.toNat_lt x.toNat_lt b.isLt a.isLt d.isLt hw
  have ho : wd / 67108864 = 52 := ho
  refine decode_of_raw (by rw [ho]; rfl) ?_ hwf
  unfold decodeRaw
  rw [ho]
  show decodeOp34 wd = _
  unfold decodeOp34
  have c0 : fld wd 0 6 = 1 := f0
  refine Eq.trans ((if_neg (fun hh => absurd (c0.symm.trans hh) (by decide))).trans ((if_pos c0))) ?_
  rw [(fin_of_fld (d := d) (m := fld wd 21 5) (f6)), (fin_of_fld (d := a) (m := fld wd 16 5) (f5)), (fin_of_fld (d := b) (m := fld wd 11 5) (f4)), (bit_of_fld (b := x) (lo := 10) (w := wd) (f3)), (bit_of_fld (b := y) (lo := 9) (w := wd) (f2)), (fin_of_fld (d := k) (m := fld wd 6 3) (f1))]

theorem EncodeDecode.gwalk (d : Fin 32) (a : Fin 32) (b : Fin 32) (x : Bool) (k : Fin 8) : EncodeDecode.Statement (.gwalk d a b x k) := by
  intro wd hwf hw
  have hw : 3489660930 + d.val * 2097152 + a.val * 65536 + b.val * 2048 + x.toNat * 1024 + k.val * 64 = wd := Option.some.inj hw
  have hw : wd = atop 6 2 (atop 3 k.val (atop 1 0 (atop 1 x.toNat (atop 5 b.val (atop 5 a.val (atop 5 d.val (52))))))) := by unfold atop; omega
  obtain ⟨f0, f1, f2, f3, f4, f5, f6, ho⟩ := unpack7 (n1 := 6)  (n2 := 3)  (n3 := 1)  (n4 := 1)  (n5 := 5)  (n6 := 5)  (n7 := 5) (by decide) k.isLt (by decide) x.toNat_lt b.isLt a.isLt d.isLt hw
  have ho : wd / 67108864 = 52 := ho
  refine decode_of_raw (by rw [ho]; rfl) ?_ hwf
  unfold decodeRaw
  rw [ho]
  show decodeOp34 wd = _
  unfold decodeOp34
  have c0 : fld wd 0 6 = 2 := f0
  have c1 : fld wd 9 1 = 0 := f2
  refine Eq.trans ((if_neg (fun hh => absurd (c0.symm.trans hh) (by decide))).trans ((if_neg (fun hh => absurd (c0.symm.trans hh) (by decide))).trans ((if_pos ⟨c0, c1⟩)))) ?_
  rw [(fin_of_fld (d := d) (m := fld wd 21 5) (f6)), (fin_of_fld (d := a) (m := fld wd 16 5) (f5)), (fin_of_fld (d := b) (m := fld wd 11 5) (f4)), (bit_of_fld (b := x) (lo := 10) (w := wd) (f3)), (fin_of_fld (d := k) (m := fld wd 6 3) (f1))]

theorem EncodeDecode.ghit (d : Fin 32) (a : Fin 32) (b : Fin 32) (x : Bool) (k : Fin 8) : EncodeDecode.Statement (.ghit d a b x k) := by
  intro wd hwf hw
  have hw : 3489660931 + d.val * 2097152 + a.val * 65536 + b.val * 2048 + x.toNat * 1024 + k.val * 64 = wd := Option.some.inj hw
  have hw : wd = atop 6 3 (atop 3 k.val (atop 1 0 (atop 1 x.toNat (atop 5 b.val (atop 5 a.val (atop 5 d.val (52))))))) := by unfold atop; omega
  obtain ⟨f0, f1, f2, f3, f4, f5, f6, ho⟩ := unpack7 (n1 := 6)  (n2 := 3)  (n3 := 1)  (n4 := 1)  (n5 := 5)  (n6 := 5)  (n7 := 5) (by decide) k.isLt (by decide) x.toNat_lt b.isLt a.isLt d.isLt hw
  have ho : wd / 67108864 = 52 := ho
  refine decode_of_raw (by rw [ho]; rfl) ?_ hwf
  unfold decodeRaw
  rw [ho]
  show decodeOp34 wd = _
  unfold decodeOp34
  have c0 : fld wd 0 6 = 3 := f0
  have c1 : fld wd 9 1 = 0 := f2
  refine Eq.trans ((if_neg (fun hh => absurd (c0.symm.trans hh) (by decide))).trans ((if_neg (fun hh => absurd (c0.symm.trans hh) (by decide))).trans ((if_neg (fun hh => absurd (c0.symm.trans hh.1) (by decide))).trans ((if_pos ⟨c0, c1⟩))))) ?_
  rw [(fin_of_fld (d := d) (m := fld wd 21 5) (f6)), (fin_of_fld (d := a) (m := fld wd 16 5) (f5)), (fin_of_fld (d := b) (m := fld wd 11 5) (f4)), (bit_of_fld (b := x) (lo := 10) (w := wd) (f3)), (fin_of_fld (d := k) (m := fld wd 6 3) (f1))]

theorem EncodeDecode.vmarch (d : Fin 32) (a : Fin 32) (b : Fin 32) (x : Bool) (k : Fin 8) : EncodeDecode.Statement (.vmarch d a b x k) := by
  intro wd hwf hw
  have hw : 3489660932 + d.val * 2097152 + a.val * 65536 + b.val * 2048 + x.toNat * 1024 + k.val * 64 = wd := Option.some.inj hw
  have hw : wd = atop 6 4 (atop 3 k.val (atop 1 0 (atop 1 x.toNat (atop 5 b.val (atop 5 a.val (atop 5 d.val (52))))))) := by unfold atop; omega
  obtain ⟨f0, f1, f2, f3, f4, f5, f6, ho⟩ := unpack7 (n1 := 6)  (n2 := 3)  (n3 := 1)  (n4 := 1)  (n5 := 5)  (n6 := 5)  (n7 := 5) (by decide) k.isLt (by decide) x.toNat_lt b.isLt a.isLt d.isLt hw
  have ho : wd / 67108864 = 52 := ho
  refine decode_of_raw (by rw [ho]; rfl) ?_ hwf
  unfold decodeRaw
  rw [ho]
  show decodeOp34 wd = _
  unfold decodeOp34
  have c0 : fld wd 0 6 = 4 := f0
  have c1 : fld wd 9 1 = 0 := f2
  refine Eq.trans ((if_neg (fun hh => absurd (c0.symm.trans hh) (by decide))).trans ((if_neg (fun hh => absurd (c0.symm.trans hh) (by decide))).trans ((if_neg (fun hh => absurd (c0.symm.trans hh.1) (by decide))).trans ((if_neg (fun hh => absurd (c0.symm.trans hh.1) (by decide))).trans ((if_pos ⟨c0, c1⟩)))))) ?_
  rw [(fin_of_fld (d := d) (m := fld wd 21 5) (f6)), (fin_of_fld (d := a) (m := fld wd 16 5) (f5)), (fin_of_fld (d := b) (m := fld wd 11 5) (f4)), (bit_of_fld (b := x) (lo := 10) (w := wd) (f3)), (fin_of_fld (d := k) (m := fld wd 6 3) (f1))]

theorem EncodeDecode.vrand (d : Fin 32) (a : Fin 32) (b : Fin 32) (x : Bool) (k : Fin 8) : EncodeDecode.Statement (.vrand d a b x k) := by
  intro wd hwf hw
  have hw : 3489660933 + d.val * 2097152 + a.val * 65536 + b.val * 2048 + x.toNat * 1024 + k.val * 64 = wd := Option.some.inj hw
  have hw : wd = atop 6 5 (atop 3 k.val (atop 1 0 (atop 1 x.toNat (atop 5 b.val (atop 5 a.val (atop 5 d.val (52))))))) := by unfold atop; omega
  obtain ⟨f0, f1, f2, f3, f4, f5, f6, ho⟩ := unpack7 (n1 := 6)  (n2 := 3)  (n3 := 1)  (n4 := 1)  (n5 := 5)  (n6 := 5)  (n7 := 5) (by decide) k.isLt (by decide) x.toNat_lt b.isLt a.isLt d.isLt hw
  have ho : wd / 67108864 = 52 := ho
  refine decode_of_raw (by rw [ho]; rfl) ?_ hwf
  unfold decodeRaw
  rw [ho]
  show decodeOp34 wd = _
  unfold decodeOp34
  have c0 : fld wd 0 6 = 5 := f0
  have c1 : fld wd 9 1 = 0 := f2
  refine Eq.trans ((if_neg (fun hh => absurd (c0.symm.trans hh) (by decide))).trans ((if_neg (fun hh => absurd (c0.symm.trans hh) (by decide))).trans ((if_neg (fun hh => absurd (c0.symm.trans hh.1) (by decide))).trans ((if_neg (fun hh => absurd (c0.symm.trans hh.1) (by decide))).trans ((if_neg (fun hh => absurd (c0.symm.trans hh.1) (by decide))).trans ((if_pos ⟨c0, c1⟩))))))) ?_
  rw [(fin_of_fld (d := d) (m := fld wd 21 5) (f6)), (fin_of_fld (d := a) (m := fld wd 16 5) (f5)), (fin_of_fld (d := b) (m := fld wd 11 5) (f4)), (bit_of_fld (b := x) (lo := 10) (w := wd) (f3)), (fin_of_fld (d := k) (m := fld wd 6 3) (f1))]

theorem EncodeDecode.vectorStart (h : Nat) : EncodeDecode.Statement (.vectorStart h) := fun _ _ h => by cases h

theorem EncodeDecode.loadDataReturn (h : Nat) : EncodeDecode.Statement (.loadDataReturn h) := fun _ _ h => by cases h

theorem EncodeDecode.wfiWake (h : Nat) : EncodeDecode.Statement (.wfiWake h) := fun _ _ h => by cases h

theorem EncodeDecode.interrupt (h : Nat) : EncodeDecode.Statement (.interrupt h) := fun _ _ h => by cases h

theorem EncodeDecode.faultRecordWrite : EncodeDecode.Statement (.faultRecordWrite) := fun _ _ h => by cases h

theorem EncodeDecode.frespReplay (token : Nat) : EncodeDecode.Statement (.frespReplay token) := fun _ _ h => by cases h

theorem EncodeDecode.frespToSupervisor (token : Nat) : EncodeDecode.Statement (.frespToSupervisor token) := fun _ _ h => by cases h

theorem EncodeDecode.frespEndLaunch (token : Nat) : EncodeDecode.Statement (.frespEndLaunch token) := fun _ _ h => by cases h

theorem EncodeDecode.faultServiceTimeout (token : Nat) : EncodeDecode.Statement (.faultServiceTimeout token) := fun _ _ h => by cases h

theorem EncodeDecode.watchdogExpire (h : Nat) : EncodeDecode.Statement (.watchdogExpire h) := fun _ _ h => by cases h

theorem EncodeDecode.homeSelfFill (core : Nat) (addr : Nat) : EncodeDecode.Statement (.homeSelfFill core addr) := fun _ _ h => by cases h

theorem EncodeDecode.homeTrkLoad (core : Nat) (addr : Nat) : EncodeDecode.Statement (.homeTrkLoad core addr) := fun _ _ h => by cases h

theorem EncodeDecode.homeOwnership (core : Nat) (addr : Nat) : EncodeDecode.Statement (.homeOwnership core addr) := fun _ _ h => by cases h

theorem EncodeDecode.homeThruLoad (core : Option Nat) (addr : Nat) : EncodeDecode.Statement (.homeThruLoad core addr) := fun _ _ h => by cases h

theorem EncodeDecode.homeTrkStore (core : Nat) (addr : Nat) (mask : BitVec 8) (data : Word) : EncodeDecode.Statement (.homeTrkStore core addr mask data) := fun _ _ h => by cases h

theorem EncodeDecode.homeThruStore (core : Option Nat) (addr : Nat) (mask : BitVec 8) (data : Word) : EncodeDecode.Statement (.homeThruStore core addr mask data) := fun _ _ h => by cases h

theorem EncodeDecode.homeDrain (core : Nat) (addr : Nat) : EncodeDecode.Statement (.homeDrain core addr) := fun _ _ h => by cases h

theorem EncodeDecode.homeFarOperation (core : Nat) (addr : Nat) (op : Fin 10) (wide : Bool) (b : Word) (cmp : Word) : EncodeDecode.Statement (.homeFarOperation core addr op wide b cmp) := fun _ _ h => by cases h

theorem EncodeDecode.homeWritebackCwb (core : Nat) (addr : Nat) : EncodeDecode.Statement (.homeWritebackCwb core addr) := fun _ _ h => by cases h

theorem EncodeDecode.homeEvictNotice (core : Nat) (addr : Nat) : EncodeDecode.Statement (.homeEvictNotice core addr) := fun _ _ h => by cases h

theorem EncodeDecode.homeWritebackEvict (core : Nat) (addr : Nat) : EncodeDecode.Statement (.homeWritebackEvict core addr) := fun _ _ h => by cases h

theorem EncodeDecode.homeAcknowledgement (core : Nat) (addr : Nat) : EncodeDecode.Statement (.homeAcknowledgement core addr) := fun _ _ h => by cases h

theorem EncodeDecode.l1Invalidation (core : Nat) (addr : Nat) : EncodeDecode.Statement (.l1Invalidation core addr) := fun _ _ h => by cases h

theorem EncodeDecode.l1Update (core : Nat) (addr : Nat) : EncodeDecode.Statement (.l1Update core addr) := fun _ _ h => by cases h

theorem EncodeDecode.l1Recall (core : Nat) (addr : Nat) : EncodeDecode.Statement (.l1Recall core addr) := fun _ _ h => by cases h

theorem EncodeDecode.l1Fetch (core : Nat) (addr : Nat) : EncodeDecode.Statement (.l1Fetch core addr) := fun _ _ h => by cases h

theorem EncodeDecode.coreAckReceive (core : Nat) (addr : Nat) : EncodeDecode.Statement (.coreAckReceive core addr) := fun _ _ h => by cases h

theorem EncodeDecode.selfDrainTimeout (core : Nat) (addr : Nat) : EncodeDecode.Statement (.selfDrainTimeout core addr) := fun _ _ h => by cases h

theorem EncodeDecode.migrationEntryUpdate (gran : Nat) (die : Nat) : EncodeDecode.Statement (.migrationEntryUpdate gran die) := fun _ _ h => by cases h

theorem EncodeDecode.migrationForwardComplete (gran : Nat) : EncodeDecode.Statement (.migrationForwardComplete gran) := fun _ _ h => by cases h

theorem EncodeDecode.epochRollover : EncodeDecode.Statement (.epochRollover) := fun _ _ h => by cases h

theorem EncodeDecode.pageRetire (addr : Nat) : EncodeDecode.Statement (.pageRetire addr) := fun _ _ h => by cases h

theorem EncodeDecode.pageWalk (h : Nat) (va : Word) : EncodeDecode.Statement (.pageWalk h va) := fun _ _ h => by cases h

theorem EncodeDecode.pteMovingReread (h : Nat) : EncodeDecode.Statement (.pteMovingReread h) := fun _ _ h => by cases h

theorem EncodeDecode.fenceEntryWrite (n : Nat) (reg : Fin 3) (v : Word) : EncodeDecode.Statement (.fenceEntryWrite n reg v) := fun _ _ h => by cases h

theorem EncodeDecode.mlanemapWrite (n : Nat) (v : Word) : EncodeDecode.Statement (.mlanemapWrite n v) := fun _ _ h => by cases h

theorem EncodeDecode.laneMapTakeup (core : Nat) : EncodeDecode.Statement (.laneMapTakeup core) := fun _ _ h => by cases h

theorem EncodeDecode.mhbeatWrite (n : Nat) (v : Word) : EncodeDecode.Statement (.mhbeatWrite n v) := fun _ _ h => by cases h

theorem EncodeDecode.mantleSilentReport (n : Nat) : EncodeDecode.Statement (.mantleSilentReport n) := fun _ _ h => by cases h

theorem EncodeDecode.fwquiQuiesce : EncodeDecode.Statement (.fwquiQuiesce) := fun _ _ h => by cases h

theorem EncodeDecode.fwquiResume : EncodeDecode.Statement (.fwquiResume) := fun _ _ h => by cases h

theorem EncodeDecode.mantlePacketBoundaryStop (n : Nat) : EncodeDecode.Statement (.mantlePacketBoundaryStop n) := fun _ _ h => by cases h

theorem EncodeDecode.fwcmdInstall : EncodeDecode.Statement (.fwcmdInstall) := fun _ _ h => by cases h

theorem EncodeDecode.installComplete : EncodeDecode.Statement (.installComplete) := fun _ _ h => by cases h

theorem EncodeDecode.fwcmdMeasure : EncodeDecode.Statement (.fwcmdMeasure) := fun _ _ h => by cases h

theorem EncodeDecode.measureComplete : EncodeDecode.Statement (.measureComplete) := fun _ _ h => by cases h

theorem EncodeDecode.fwcmdSwitch : EncodeDecode.Statement (.fwcmdSwitch) := fun _ _ h => by cases h

theorem EncodeDecode.fwcmdIgnored (v : Word) : EncodeDecode.Statement (.fwcmdIgnored v) := fun _ _ h => by cases h

theorem EncodeDecode.fwstatOoClear : EncodeDecode.Statement (.fwstatOoClear) := fun _ _ h => by cases h

theorem EncodeDecode.heartbeatWindowExpire : EncodeDecode.Statement (.heartbeatWindowExpire) := fun _ _ h => by cases h

theorem EncodeDecode.qnotify (q : Nat) (v : Word) : EncodeDecode.Statement (.qnotify q v) := fun _ _ h => by cases h

theorem EncodeDecode.qctlEnable (q : Nat) (v : Word) : EncodeDecode.Statement (.qctlEnable q v) := fun _ _ h => by cases h

theorem EncodeDecode.qctlDisable (q : Nat) (v : Word) : EncodeDecode.Statement (.qctlDisable q v) := fun _ _ h => by cases h

theorem EncodeDecode.launch (q : Nat) (ctxid : Nat) (part : Nat) : EncodeDecode.Statement (.launch q ctxid part) := fun _ _ h => by cases h

theorem EncodeDecode.launchComplete (l : Nat) : EncodeDecode.Statement (.launchComplete l) := fun _ _ h => by cases h

theorem EncodeDecode.wait (q : Nat) : EncodeDecode.Statement (.wait q) := fun _ _ h => by cases h

theorem EncodeDecode.waitComplete (q : Nat) : EncodeDecode.Statement (.waitComplete q) := fun _ _ h => by cases h

theorem EncodeDecode.signal (q : Nat) : EncodeDecode.Statement (.signal q) := fun _ _ h => by cases h

theorem EncodeDecode.draw (q : Nat) (ctxid : Nat) (part : Nat) : EncodeDecode.Statement (.draw q ctxid part) := fun _ _ h => by cases h

theorem EncodeDecode.drawComplete (l : Nat) : EncodeDecode.Statement (.drawComplete l) := fun _ _ h => by cases h

theorem EncodeDecode.debugHalt (q : Nat) : EncodeDecode.Statement (.debugHalt q) := fun _ _ h => by cases h

theorem EncodeDecode.debugInspect (q : Nat) : EncodeDecode.Statement (.debugInspect q) := fun _ _ h => by cases h

theorem EncodeDecode.debugResume (q : Nat) : EncodeDecode.Statement (.debugResume q) := fun _ _ h => by cases h

theorem EncodeDecode.traceOn (q : Nat) : EncodeDecode.Statement (.traceOn q) := fun _ _ h => by cases h

theorem EncodeDecode.traceOff (q : Nat) : EncodeDecode.Statement (.traceOff q) := fun _ _ h => by cases h

theorem EncodeDecode.sample (q : Nat) : EncodeDecode.Statement (.sample q) := fun _ _ h => by cases h

theorem EncodeDecode.stripBreakpoint (q : Nat) : EncodeDecode.Statement (.stripBreakpoint q) := fun _ _ h => by cases h

theorem EncodeDecode.clearBreakpoint (q : Nat) : EncodeDecode.Statement (.clearBreakpoint q) := fun _ _ h => by cases h

theorem EncodeDecode.debugStripStop (h : Nat) : EncodeDecode.Statement (.debugStripStop h) := fun _ _ h => by cases h

theorem EncodeDecode.debugHaltTimeout (h : Nat) : EncodeDecode.Statement (.debugHaltTimeout h) := fun _ _ h => by cases h

theorem EncodeDecode.traceSampleTick (h : Nat) : EncodeDecode.Statement (.traceSampleTick h) := fun _ _ h => by cases h

theorem EncodeDecode.schedulerTick : EncodeDecode.Statement (.schedulerTick) := fun _ _ h => by cases h

theorem EncodeDecode.mantleDecision : EncodeDecode.Statement (.mantleDecision) := fun _ _ h => by cases h

theorem EncodeDecode.levelAging (l : Nat) : EncodeDecode.Statement (.levelAging l) := fun _ _ h => by cases h

theorem EncodeDecode.contextSave (l : Nat) : EncodeDecode.Statement (.contextSave l) := fun _ _ h => by cases h

theorem EncodeDecode.watermarkStallEnd (h : Nat) : EncodeDecode.Statement (.watermarkStallEnd h) := fun _ _ h => by cases h

theorem EncodeDecode.streamPrefetch (h : Nat) (slot : Nat) : EncodeDecode.Statement (.streamPrefetch h slot) := fun _ _ h => by cases h

theorem EncodeDecode.scopyComplete (h : Nat) (i : Nat) : EncodeDecode.Statement (.scopyComplete h i) := fun _ _ h => by cases h

theorem EncodeDecode.sunbindWriteComplete (h : Nat) (slot : Nat) : EncodeDecode.Statement (.sunbindWriteComplete h slot) := fun _ _ h => by cases h

theorem EncodeDecode.xallArrivalAdd (h : Nat) (i : Nat) (j : Nat) : EncodeDecode.Statement (.xallArrivalAdd h i j) := fun _ _ h => by cases h

theorem EncodeDecode.xallComplete (h : Nat) (i : Nat) : EncodeDecode.Statement (.xallComplete h i) := fun _ _ h => by cases h

theorem EncodeDecode.xredChunkArrive (h : Nat) (i : Nat) (k : Nat) : EncodeDecode.Statement (.xredChunkArrive h i k) := fun _ _ h => by cases h

theorem EncodeDecode.xredChunkResend (h : Nat) (i : Nat) (k : Nat) : EncodeDecode.Statement (.xredChunkResend h i k) := fun _ _ h => by cases h

theorem EncodeDecode.xredBusyTimeout (h : Nat) (i : Nat) : EncodeDecode.Statement (.xredBusyTimeout h i) := fun _ _ h => by cases h

theorem EncodeDecode.xredComplete (h : Nat) (i : Nat) : EncodeDecode.Statement (.xredComplete h i) := fun _ _ h => by cases h

theorem EncodeDecode.yokeRendezvous (quad : Nat) : EncodeDecode.Statement (.yokeRendezvous quad) := fun _ _ h => by cases h

theorem EncodeDecode.latchSwap (quad : Nat) : EncodeDecode.Statement (.latchSwap quad) := fun _ _ h => by cases h

theorem EncodeDecode.yokeOpComplete (h : Nat) : EncodeDecode.Statement (.yokeOpComplete h) := fun _ _ h => by cases h

theorem EncodeDecode.meshletDispatch (l : Nat) : EncodeDecode.Statement (.meshletDispatch l) := fun _ _ h => by cases h

theorem EncodeDecode.sashNotify (h : Nat) (cluster : Nat) : EncodeDecode.Statement (.sashNotify h cluster) := fun _ _ h => by cases h

theorem EncodeDecode.sashSetup (cluster : Nat) : EncodeDecode.Statement (.sashSetup cluster) := fun _ _ h => by cases h

theorem EncodeDecode.spanEmit (cluster : Nat) : EncodeDecode.Statement (.spanEmit cluster) := fun _ _ h => by cases h

theorem EncodeDecode.hemRelease (l : Nat) (px : Nat) (py : Nat) : EncodeDecode.Statement (.hemRelease l px py) := fun _ _ h => by cases h

theorem EncodeDecode.hemTileLoad (l : Nat) (tx : Nat) (ty : Nat) : EncodeDecode.Statement (.hemTileLoad l tx ty) := fun _ _ h => by cases h

theorem EncodeDecode.hemTileEvict (l : Nat) (tx : Nat) (ty : Nat) : EncodeDecode.Statement (.hemTileEvict l tx ty) := fun _ _ h => by cases h

theorem EncodeDecode.hostCxlMemRead (addr : Nat) (n : Nat) : EncodeDecode.Statement (.hostCxlMemRead addr n) := fun _ _ h => by cases h

theorem EncodeDecode.hostCxlMemWrite (addr : Nat) (data : List Byte) : EncodeDecode.Statement (.hostCxlMemWrite addr data) := fun _ _ h => by cases h

theorem EncodeDecode.hostSnoop (addr : Nat) : EncodeDecode.Statement (.hostSnoop addr) := fun _ _ h => by cases h

theorem EncodeDecode.flitReceive (p : Nat) (flit : BitVec 2048) : EncodeDecode.Statement (.flitReceive p flit) := fun _ _ h => by cases h

theorem EncodeDecode.flitNak (p : Nat) (seq : Nat) : EncodeDecode.Statement (.flitNak p seq) := fun _ _ h => by cases h

theorem EncodeDecode.portDown (p : Nat) : EncodeDecode.Statement (.portDown p) := fun _ _ h => by cases h

theorem EncodeDecode.portRetrainComplete (p : Nat) : EncodeDecode.Statement (.portRetrainComplete p) := fun _ _ h => by cases h

theorem EncodeDecode.routeDownTimeout (m : Nat) : EncodeDecode.Statement (.routeDownTimeout m) := fun _ _ h => by cases h

theorem EncodeDecode.peerRequestArrival (p : Nat) (part : Nat) (kind : Fin 4) (addr : Nat) (mask : BitVec 8) (data : Word) (cmp : Word) (op : Fin 10) : EncodeDecode.Statement (.peerRequestArrival p part kind addr mask data cmp op) := fun _ _ h => by cases h

theorem EncodeDecode.packageReset : EncodeDecode.Statement (.packageReset) := fun _ _ h => by cases h

theorem EncodeDecode.d3hotEntry : EncodeDecode.Statement (.d3hotEntry) := fun _ _ h => by cases h

theorem EncodeDecode.d3hotExit : EncodeDecode.Statement (.d3hotExit) := fun _ _ h => by cases h

theorem EncodeDecode.throttleRaiseTick (die : Nat) : EncodeDecode.Statement (.throttleRaiseTick die) := fun _ _ h => by cases h

theorem EncodeDecode.throttleLowerTick (die : Nat) : EncodeDecode.Statement (.throttleLowerTick die) := fun _ _ h => by cases h

theorem EncodeDecode.overcurrentThrottle : EncodeDecode.Statement (.overcurrentThrottle) := fun _ _ h => by cases h

theorem EncodeDecode.thermalShutdown : EncodeDecode.Statement (.thermalShutdown) := fun _ _ h => by cases h

theorem EncodeDecode.setPowerCap (watts : Nat) (digest : BitVec 384) : EncodeDecode.Statement (.setPowerCap watts digest) := fun _ _ h => by cases h

theorem EncodeDecode.raiseSvnRevoke (svn : Nat) (revoke : Nat) : EncodeDecode.Statement (.raiseSvnRevoke svn revoke) := fun _ _ h => by cases h

theorem EncodeDecode.getVersion : EncodeDecode.Statement (.getVersion) := fun _ _ h => by cases h

theorem EncodeDecode.getCapabilities : EncodeDecode.Statement (.getCapabilities) := fun _ _ h => by cases h

theorem EncodeDecode.negotiateAlgorithms : EncodeDecode.Statement (.negotiateAlgorithms) := fun _ _ h => by cases h

theorem EncodeDecode.getDigests : EncodeDecode.Statement (.getDigests) := fun _ _ h => by cases h

theorem EncodeDecode.getCertificate (off : Nat) (len : Nat) : EncodeDecode.Statement (.getCertificate off len) := fun _ _ h => by cases h

theorem EncodeDecode.challenge (nonce : Nat) : EncodeDecode.Statement (.challenge nonce) := fun _ _ h => by cases h

theorem EncodeDecode.getMeasurements : EncodeDecode.Statement (.getMeasurements) := fun _ _ h => by cases h

theorem EncodeDecode.spdmVendorSignature (nonce : Nat) : EncodeDecode.Statement (.spdmVendorSignature nonce) := fun _ _ h => by cases h

theorem EncodeDecode.pldmSensorRead (sensor : Nat) : EncodeDecode.Statement (.pldmSensorRead sensor) := fun _ _ h => by cases h

theorem EncodeDecode.registerWrite (reg : Nat) (v : Word) : EncodeDecode.Statement (.registerWrite reg v) := fun _ _ h => by cases h

theorem EncodeDecode.powerLoss : EncodeDecode.Statement (.powerLoss) := fun _ _ h => by cases h

theorem EncodeDecode.configurationRequest : EncodeDecode.Statement (.configurationRequest) := fun _ _ h => by cases h

theorem EncodeDecode.cxlCacheResponse (addr : Nat) (data : List Byte) : EncodeDecode.Statement (.cxlCacheResponse addr data) := fun _ _ h => by cases h

theorem EncodeDecode.elementGroupComplete (h : Nat) : EncodeDecode.Statement (.elementGroupComplete h) := fun _ _ h => by cases h

theorem EncodeDecode.streamDataArrival (h : Nat) (slot : Nat) : EncodeDecode.Statement (.streamDataArrival h slot) := fun _ _ h => by cases h

theorem EncodeDecode.hostPageMigration (src : Nat) (dst : Nat) : EncodeDecode.Statement (.hostPageMigration src dst) := fun _ _ h => by cases h

theorem EncodeDecode.bitError (store : Nat) (core : Nat) (addr : Nat) (double : Bool) : EncodeDecode.Statement (.bitError store core addr double) := fun _ _ h => by cases h

end Sys2Proof.Laws
end

