-- ==== Sys2Proof/Laws/Shared.lean ====
section
/-! SUPPORT. What the shared operations can do, once for each: registers (R37, R47), the start of a vector instruction
(R35, R374, R415), its elements (R251), taking a trap (R170, R408) and leaving off an instruction. -/

namespace Sys2Proof.Machine

/-! ### Registers -/

/-- x0 reads as zero. -/
@[simp] theorem Hart.get_zero (h : Hart) : h.get 0 = 0 := by simp [Hart.get]

/-- A register write changes that register alone, and x0 never. -/
theorem Hart.get_set (h : Hart) (d r : Fin 32) (v : Word) :
    (h.set d v).get r = if r = 0 then 0 else if r = d then v else h.get r := by
  unfold Hart.get Hart.set
  by_cases h0 : r = 0
  · simp [h0]
  · by_cases hd : d = 0
    · subst hd; simp [h0]
    · by_cases e : r = d
      · subst e; simp [h0]
      · have : d.val ≠ r.val := fun h => e (Fin.ext h.symm)
        simp [h0, hd, e, this]

/-- A result reaches its register and the prefix's copy register, and no other (R37). -/
theorem State.x_wr (s : State) (d r : Fin 32) (v : Word) :
    (s.wr d v).x r = if r = 0 then 0 else if r = d ∨ s.h.copyReg = some r then v else s.x r := by
  have hx : s.x r = s.h.get r := rfl
  unfold State.wr State.x
  cases hc : s.h.copyReg with
  | none => simp [Hart.get_set]
  | some c =>
    show ((s.h.set d v).set c v).get r = _
    simp only [Hart.get_set, Option.some.injEq]
    by_cases h0 : r = 0
    · simp [h0]
    · by_cases e1 : r = c
      · simp [e1]
      · by_cases e2 : r = d
        · subst e2; simp [h0]
        · simp only [h0, e1, e2, if_false, Ne.symm e1, false_or]

/-! ### Leaving off an instruction -/

@[simp] theorem State.stopWith_trap (s : State) (t : TrapInfo) : s.stopWith (.trap t) = s.takeTrap t := rfl
@[simp] theorem State.stopWith_freeze (s : State) (f : FreezeInfo) : s.stopWith (.freeze f) = s.freeze f := rfl
@[simp] theorem State.stopWith_wait (s : State) (w : Wait) :
    s.stopWith (.wait w) = { s with h := { s.h with status := .wait w } } := rfl
@[simp] theorem Res.done_ok {α : Type} (a : α) (s : State) (f : α → State → State) : (Res.ok a s).done f = .next (f a s) := rfl
@[simp] theorem Res.done_stop {α : Type} (w : Stop) (s : State) (f : α → State → State) :
    (Res.stop w s : Res α).done f = .next (s.stopWith w) := rfl

/-- A trap is delivered to the supervisor, hands the hart to the host, or does the first and tells the host. -/
theorem State.takeTrap_cases (s : State) (t : TrapInfo) :
    (s.h.claim t = 1 ∧ (s.takeTrap t).h.status = .hostFault s.host.token t ∧ (s.takeTrap t).h.pc = s.h.pc ∧
      (s.takeTrap t).mem = s.mem) ∨
    (s.h.claim t = 2 ∧ s.takeTrap t = (s.addRecord t 3).deliver t) ∨
    (s.h.claim t ≠ 1 ∧ s.h.claim t ≠ 2 ∧ s.takeTrap t = s.deliver t) := by
  unfold State.takeTrap
  split
  · rename_i h; exact .inl ⟨h, rfl, rfl, rfl⟩
  · rename_i h; exact .inr (.inl ⟨h, rfl⟩)
  · rename_i h1 h2; exact .inr (.inr ⟨h1, h2, rfl⟩)

/-- The supervisor's handler is entered, unless its launch ends (R410), which waits until the queues run (R149). -/
theorem State.deliver_cases (s : State) (t : TrapInfo) :
    s.deliver t = { s with h := s.h.enter t } ∨
    (∃ l, s.h.lc.launch = some l ∧ s.h.trap.fresh = some t.key ∧
      s.deliver t = if s.queuesRun then s.endLaunch l 8 else s) := by
  unfold State.deliver
  split
  · rename_i l h
    split
    · exact .inr ⟨l, h, ‹_›, rfl⟩
    · exact .inl rfl
  · exact .inl rfl

/-! ### Vector instructions -/

/-- A vector instruction traps illegal-instruction, traps on an uncorrectable source, stops for want of room behind a bound
destination, stops at its bound sources, or runs its own part. -/
theorem State.vbegin_cases (s : State) (u : VUse) (body : State → State) :
    ((s.h.vectorOk && u.ok) = false ∧ s.vbegin u body = .next s.illegal) ∨
    ((s.h.vectorOk && u.ok) = true ∧ s.h.badUse u = true ∧
      s.vbegin u body = .next (s.vstop s.h.first (.trap (uncorrectable (BitVec.allOnes 64))))) ∨
    ((s.h.vectorOk && u.ok) = true ∧ s.h.badUse u = false ∧
      ((∃ w t, (s.readUse u).rooms u.dsts = .stop w t ∧ s.vbegin u body = .next (t.vstop t.h.first w)) ∨
       ∃ r, (s.readUse u).rooms u.dsts = .ok () r ∧
        ((∃ w t, r.consume u.srcs = .stop w t ∧ s.vbegin u body = .next (t.vstop t.h.first w)) ∨
         ∃ t, r.consume u.srcs = .ok () t ∧ s.vbegin u body = .next (body t)))) := by
  unfold State.vbegin
  cases ho : s.h.vectorOk && u.ok with
  | false => exact .inl ⟨rfl, rfl⟩
  | true =>
    cases hb : s.h.badUse u with
    | true => exact .inr (.inl ⟨rfl, rfl, rfl⟩)
    | false =>
      refine .inr (.inr ⟨rfl, rfl, ?_⟩)
      cases hr : (s.readUse u).rooms u.dsts with
      | stop w t => exact .inl ⟨w, t, rfl, by simp⟩
      | ok _ r =>
        refine .inr ⟨r, rfl, ?_⟩
        cases hc : r.consume u.srcs with
        | stop w t => exact .inl ⟨w, t, rfl, by simp [hc]⟩
        | ok _ t => exact .inr ⟨t, rfl, by simp [hc]⟩

/-- A vector instruction always answers a next state. -/
theorem State.vbegin_next (s : State) (u : VUse) (body : State → State) : ∃ t, s.vbegin u body = .next t := by
  rcases s.vbegin_cases u body with h | h | ⟨-, -, h | h⟩
  · exact ⟨_, h.2⟩
  · exact ⟨_, h.2.2⟩
  · obtain ⟨w, t, -, h⟩ := h; exact ⟨_, h⟩
  · obtain ⟨r, -, ⟨w, t, -, h⟩ | ⟨t, -, h⟩⟩ := h <;> exact ⟨_, h⟩

/-- Sources that are not bound consume nothing (R374). -/
theorem State.consume_unbound (s : State) (srcs : List Nat) (h : s.h.feeds srcs = []) : s.consume srcs = .ok () s := by
  simp [State.consume, h]

/-- What f keeps on every element, whether it goes on or stops, the loop over the elements keeps (R251). -/
theorem State.vloop_keeps (P : State → Prop) (f : Nat → State → Res Unit)
    (hok : ∀ i s t, P s → f i s = .ok () t → P t) (hstop : ∀ i s w t, P s → f i s = .stop w t → P t) :
    ∀ (is : List Nat) (s : State), P s → P (s.vloop f is).2
  | [], _, h => h
  | i :: is, s, h => by
    unfold State.vloop
    cases hf : f i s with
    | ok a t => exact State.vloop_keeps P f hok hstop is t (hok i s t h hf)
    | stop w t => exact hstop i s w t h hf

/-- A loop that does not stop has performed every element. -/
theorem State.vloop_ok (f : Nat → State → Res Unit) (g : Nat → State → State) :
    ∀ (is : List Nat) (s : State), (∀ i t, f i t = .ok () (g i t)) →
      s.vloop f is = (none, is.foldl (fun t i => g i t) s)
  | [], _, _ => rfl
  | i :: is, s, h => by
    unfold State.vloop
    rw [h i s]
    exact State.vloop_ok f g is (g i s) h

/-! ### The Yoke -/

/-- A hart that waits for Yoke operations takes a held failure, waits, or goes on unchanged (R446, R366). -/
theorem State.yokeWait_cases (s : State) (p : YokeOp → Bool) :
    (∃ f os, takeFail p s.h.yops = some (f, os) ∧ s.yokeWait p = .stop (.trap f.trap) { s with h := { s.h with yops := os } }) ∨
    (takeFail p s.h.yops = none ∧ s.h.yops.any (fun o => p o && o.isOpen) = true ∧ s.yokeWait p = .stop (.wait .yoke) s) ∨
    (takeFail p s.h.yops = none ∧ s.h.yops.any (fun o => p o && o.isOpen) = false ∧ s.yokeWait p = .ok () s) := by
  unfold State.yokeWait
  cases hf : takeFail p s.h.yops with
  | some r => exact .inl ⟨r.1, r.2, rfl, rfl⟩
  | none =>
    cases ha : s.h.yops.any fun o => p o && o.isOpen with
    | true => exact .inr (.inl ⟨rfl, rfl, by simp⟩)
    | false => exact .inr (.inr ⟨rfl, rfl, by simp⟩)

end Sys2Proof.Machine
end

