-- ==== Sys2Proof/Laws/State.lean ====
section
/-! SUPPORT. What each update of the state leaves as it was: one lemma for each field and update, so that no proof unfolds a
record update; and what it writes. -/

namespace Sys2Proof.Machine

/-! ### Registers (R47) -/

@[simp] theorem Hart.set_id (h : Hart) (r : Fin 32) (v : Word) : (h.set r v).id = h.id := by unfold Hart.set; split <;> rfl
@[simp] theorem Hart.set_ctxid (h : Hart) (r : Fin 32) (v : Word) : (h.set r v).ctxid = h.ctxid := by unfold Hart.set; split <;> rfl
@[simp] theorem Hart.set_mode (h : Hart) (r : Fin 32) (v : Word) : (h.set r v).mode = h.mode := by unfold Hart.set; split <;> rfl
@[simp] theorem Hart.set_pc (h : Hart) (r : Fin 32) (v : Word) : (h.set r v).pc = h.pc := by unfold Hart.set; split <;> rfl
@[simp] theorem Hart.set_ir (h : Hart) (r : Fin 32) (v : Word) : (h.set r v).ir = h.ir := by unfold Hart.set; split <;> rfl
@[simp] theorem Hart.set_instret (h : Hart) (r : Fin 32) (v : Word) : (h.set r v).instret = h.instret := by unfold Hart.set; split <;> rfl
@[simp] theorem Hart.set_stripord (h : Hart) (r : Fin 32) (v : Word) : (h.set r v).stripord = h.stripord := by unfold Hart.set; split <;> rfl
@[simp] theorem Hart.set_ygrant (h : Hart) (r : Fin 32) (v : Word) : (h.set r v).ygrant = h.ygrant := by unfold Hart.set; split <;> rfl
@[simp] theorem Hart.set_sptbase (h : Hart) (r : Fin 32) (v : Word) : (h.set r v).sptbase = h.sptbase := by unfold Hart.set; split <;> rfl
@[simp] theorem Hart.set_vec (h : Hart) (r : Fin 32) (v : Word) : (h.set r v).vec = h.vec := by unfold Hart.set; split <;> rfl
@[simp] theorem Hart.set_trap (h : Hart) (r : Fin 32) (v : Word) : (h.set r v).trap = h.trap := by unfold Hart.set; split <;> rfl
@[simp] theorem Hart.set_mant (h : Hart) (r : Fin 32) (v : Word) : (h.set r v).mant = h.mant := by unfold Hart.set; split <;> rfl
@[simp] theorem Hart.set_scratch (h : Hart) (r : Fin 32) (v : Word) : (h.set r v).scratch = h.scratch := by unfold Hart.set; split <;> rfl
@[simp] theorem Hart.set_acc (h : Hart) (r : Fin 32) (v : Word) : (h.set r v).acc = h.acc := by unfold Hart.set; split <;> rfl
@[simp] theorem Hart.set_inbox (h : Hart) (r : Fin 32) (v : Word) : (h.set r v).inbox = h.inbox := by unfold Hart.set; split <;> rfl
@[simp] theorem Hart.set_sleeves (h : Hart) (r : Fin 32) (v : Word) : (h.set r v).sleeves = h.sleeves := by unfold Hart.set; split <;> rfl
@[simp] theorem Hart.set_yops (h : Hart) (r : Fin 32) (v : Word) : (h.set r v).yops = h.yops := by unfold Hart.set; split <;> rfl
@[simp] theorem Hart.set_yjoin (h : Hart) (r : Fin 32) (v : Word) : (h.set r v).yjoin = h.yjoin := by unfold Hart.set; split <;> rfl
@[simp] theorem Hart.set_ybase (h : Hart) (r : Fin 32) (v : Word) : (h.set r v).ybase = h.ybase := by unfold Hart.set; split <;> rfl
@[simp] theorem Hart.set_ysave (h : Hart) (r : Fin 32) (v : Word) : (h.set r v).ysave = h.ysave := by unfold Hart.set; split <;> rfl
@[simp] theorem Hart.set_copies (h : Hart) (r : Fin 32) (v : Word) : (h.set r v).copies = h.copies := by unfold Hart.set; split <;> rfl
@[simp] theorem Hart.set_colls (h : Hart) (r : Fin 32) (v : Word) : (h.set r v).colls = h.colls := by unfold Hart.set; split <;> rfl
@[simp] theorem Hart.set_ncopy (h : Hart) (r : Fin 32) (v : Word) : (h.set r v).ncopy = h.ncopy := by unfold Hart.set; split <;> rfl
@[simp] theorem Hart.set_viq (h : Hart) (r : Fin 32) (v : Word) : (h.set r v).viq = h.viq := by unfold Hart.set; split <;> rfl
@[simp] theorem Hart.set_window (h : Hart) (r : Fin 32) (v : Word) : (h.set r v).window = h.window := by unfold Hart.set; split <;> rfl
@[simp] theorem Hart.set_lim (h : Hart) (r : Fin 32) (v : Word) : (h.set r v).lim = h.lim := by unfold Hart.set; split <;> rfl
@[simp] theorem Hart.set_cap (h : Hart) (r : Fin 32) (v : Word) : (h.set r v).cap = h.cap := by unfold Hart.set; split <;> rfl
@[simp] theorem Hart.set_region (h : Hart) (r : Fin 32) (v : Word) : (h.set r v).region = h.region := by unfold Hart.set; split <;> rfl
@[simp] theorem Hart.set_status (h : Hart) (r : Fin 32) (v : Word) : (h.set r v).status = h.status := by unfold Hart.set; split <;> rfl
@[simp] theorem Hart.set_yielded (h : Hart) (r : Fin 32) (v : Word) : (h.set r v).yielded = h.yielded := by unfold Hart.set; split <;> rfl
@[simp] theorem Hart.set_spans (h : Hart) (r : Fin 32) (v : Word) : (h.set r v).spans = h.spans := by unfold Hart.set; split <;> rfl
@[simp] theorem Hart.set_strip (h : Hart) (r : Fin 32) (v : Word) : (h.set r v).strip = h.strip := by unfold Hart.set; split <;> rfl
@[simp] theorem Hart.set_walks (h : Hart) (r : Fin 32) (v : Word) : (h.set r v).walks = h.walks := by unfold Hart.set; split <;> rfl
@[simp] theorem Hart.set_irqs (h : Hart) (r : Fin 32) (v : Word) : (h.set r v).irqs = h.irqs := by unfold Hart.set; split <;> rfl
@[simp] theorem Hart.set_badPool (h : Hart) (r : Fin 32) (v : Word) : (h.set r v).badPool = h.badPool := by unfold Hart.set; split <;> rfl
@[simp] theorem Hart.set_back (h : Hart) (r : Fin 32) (v : Word) : (h.set r v).back = h.back := by unfold Hart.set; split <;> rfl
@[simp] theorem Hart.set_cur (h : Hart) (r : Fin 32) (v : Word) : (h.set r v).cur = h.cur := by unfold Hart.set; split <;> rfl
@[simp] theorem Hart.set_chase (h : Hart) (r : Fin 32) (v : Word) : (h.set r v).chase = h.chase := by unfold Hart.set; split <;> rfl
@[simp] theorem Hart.set_halting (h : Hart) (r : Fin 32) (v : Word) : (h.set r v).halting = h.halting := by unfold Hart.set; split <;> rfl
@[simp] theorem Hart.set_met (h : Hart) (r : Fin 32) (v : Word) : (h.set r v).met = h.met := by unfold Hart.set; split <;> rfl
@[simp] theorem Hart.set_ahead (h : Hart) (r : Fin 32) (v : Word) : (h.set r v).ahead = h.ahead := by unfold Hart.set; split <;> rfl
@[simp] theorem Hart.set_unconf (h : Hart) (r : Fin 32) (v : Word) : (h.set r v).unconf = h.unconf := by unfold Hart.set; split <;> rfl
@[simp] theorem Hart.set_staging (h : Hart) (r : Fin 32) (v : Word) : (h.set r v).staging = h.staging := by unfold Hart.set; split <;> rfl
@[simp] theorem Hart.set_ring (h : Hart) (r : Fin 32) (v : Word) : (h.set r v).ring = h.ring := by unfold Hart.set; split <;> rfl
@[simp] theorem Hart.set_draws (h : Hart) (r : Fin 32) (v : Word) : (h.set r v).draws = h.draws := by unfold Hart.set; split <;> rfl
@[simp] theorem Hart.set_weakPool (h : Hart) (r : Fin 32) (v : Word) : (h.set r v).weakPool = h.weakPool := by unfold Hart.set; split <;> rfl
@[simp] theorem Hart.set_lc (h : Hart) (r : Fin 32) (v : Word) : (h.set r v).lc = h.lc := by unfold Hart.set; split <;> rfl

@[simp] theorem State.wr_others (s : State) (d : Fin 32) (v : Word) : (s.wr d v).others = s.others := by unfold State.wr; split <;> rfl
@[simp] theorem State.wr_mem (s : State) (d : Fin 32) (v : Word) : (s.wr d v).mem = s.mem := by unfold State.wr; split <;> rfl
@[simp] theorem State.wr_coh (s : State) (d : Fin 32) (v : Word) : (s.wr d v).coh = s.coh := by unfold State.wr; split <;> rfl
@[simp] theorem State.wr_mmu (s : State) (d : Fin 32) (v : Word) : (s.wr d v).mmu = s.mmu := by unfold State.wr; split <;> rfl
@[simp] theorem State.wr_sched (s : State) (d : Fin 32) (v : Word) : (s.wr d v).sched = s.sched := by unfold State.wr; split <;> rfl
@[simp] theorem State.wr_yokes (s : State) (d : Fin 32) (v : Word) : (s.wr d v).yokes = s.yokes := by unfold State.wr; split <;> rfl
@[simp] theorem State.wr_maps (s : State) (d : Fin 32) (v : Word) : (s.wr d v).maps = s.maps := by unfold State.wr; split <;> rfl
@[simp] theorem State.wr_gfx (s : State) (d : Fin 32) (v : Word) : (s.wr d v).gfx = s.gfx := by unfold State.wr; split <;> rfl
@[simp] theorem State.wr_fw (s : State) (d : Fin 32) (v : Word) : (s.wr d v).fw = s.fw := by unfold State.wr; split <;> rfl
@[simp] theorem State.wr_host (s : State) (d : Fin 32) (v : Word) : (s.wr d v).host = s.host := by unfold State.wr; split <;> rfl
@[simp] theorem State.wr_link (s : State) (d : Fin 32) (v : Word) : (s.wr d v).link = s.link := by unfold State.wr; split <;> rfl
@[simp] theorem State.wr_pow (s : State) (d : Fin 32) (v : Word) : (s.wr d v).pow = s.pow := by unfold State.wr; split <;> rfl
@[simp] theorem State.wr_agenda (s : State) (d : Fin 32) (v : Word) : (s.wr d v).agenda = s.agenda := by unfold State.wr; split <;> rfl
@[simp] theorem State.wr_tick (s : State) (d : Fin 32) (v : Word) : (s.wr d v).tick = s.tick := by unfold State.wr; split <;> rfl

@[simp] theorem State.wr_h_id (s : State) (d : Fin 32) (v : Word) : (s.wr d v).h.id = s.h.id := by unfold State.wr; split <;> simp
@[simp] theorem State.wr_h_ctxid (s : State) (d : Fin 32) (v : Word) : (s.wr d v).h.ctxid = s.h.ctxid := by unfold State.wr; split <;> simp
@[simp] theorem State.wr_h_mode (s : State) (d : Fin 32) (v : Word) : (s.wr d v).h.mode = s.h.mode := by unfold State.wr; split <;> simp
@[simp] theorem State.wr_h_pc (s : State) (d : Fin 32) (v : Word) : (s.wr d v).h.pc = s.h.pc := by unfold State.wr; split <;> simp
@[simp] theorem State.wr_h_ir (s : State) (d : Fin 32) (v : Word) : (s.wr d v).h.ir = s.h.ir := by unfold State.wr; split <;> simp
@[simp] theorem State.wr_h_instret (s : State) (d : Fin 32) (v : Word) : (s.wr d v).h.instret = s.h.instret := by unfold State.wr; split <;> simp
@[simp] theorem State.wr_h_stripord (s : State) (d : Fin 32) (v : Word) : (s.wr d v).h.stripord = s.h.stripord := by unfold State.wr; split <;> simp
@[simp] theorem State.wr_h_ygrant (s : State) (d : Fin 32) (v : Word) : (s.wr d v).h.ygrant = s.h.ygrant := by unfold State.wr; split <;> simp
@[simp] theorem State.wr_h_sptbase (s : State) (d : Fin 32) (v : Word) : (s.wr d v).h.sptbase = s.h.sptbase := by unfold State.wr; split <;> simp
@[simp] theorem State.wr_h_vec (s : State) (d : Fin 32) (v : Word) : (s.wr d v).h.vec = s.h.vec := by unfold State.wr; split <;> simp
@[simp] theorem State.wr_h_trap (s : State) (d : Fin 32) (v : Word) : (s.wr d v).h.trap = s.h.trap := by unfold State.wr; split <;> simp
@[simp] theorem State.wr_h_mant (s : State) (d : Fin 32) (v : Word) : (s.wr d v).h.mant = s.h.mant := by unfold State.wr; split <;> simp
@[simp] theorem State.wr_h_scratch (s : State) (d : Fin 32) (v : Word) : (s.wr d v).h.scratch = s.h.scratch := by unfold State.wr; split <;> simp
@[simp] theorem State.wr_h_acc (s : State) (d : Fin 32) (v : Word) : (s.wr d v).h.acc = s.h.acc := by unfold State.wr; split <;> simp
@[simp] theorem State.wr_h_inbox (s : State) (d : Fin 32) (v : Word) : (s.wr d v).h.inbox = s.h.inbox := by unfold State.wr; split <;> simp
@[simp] theorem State.wr_h_sleeves (s : State) (d : Fin 32) (v : Word) : (s.wr d v).h.sleeves = s.h.sleeves := by unfold State.wr; split <;> simp
@[simp] theorem State.wr_h_yops (s : State) (d : Fin 32) (v : Word) : (s.wr d v).h.yops = s.h.yops := by unfold State.wr; split <;> simp
@[simp] theorem State.wr_h_yjoin (s : State) (d : Fin 32) (v : Word) : (s.wr d v).h.yjoin = s.h.yjoin := by unfold State.wr; split <;> simp
@[simp] theorem State.wr_h_ybase (s : State) (d : Fin 32) (v : Word) : (s.wr d v).h.ybase = s.h.ybase := by unfold State.wr; split <;> simp
@[simp] theorem State.wr_h_ysave (s : State) (d : Fin 32) (v : Word) : (s.wr d v).h.ysave = s.h.ysave := by unfold State.wr; split <;> simp
@[simp] theorem State.wr_h_copies (s : State) (d : Fin 32) (v : Word) : (s.wr d v).h.copies = s.h.copies := by unfold State.wr; split <;> simp
@[simp] theorem State.wr_h_colls (s : State) (d : Fin 32) (v : Word) : (s.wr d v).h.colls = s.h.colls := by unfold State.wr; split <;> simp
@[simp] theorem State.wr_h_ncopy (s : State) (d : Fin 32) (v : Word) : (s.wr d v).h.ncopy = s.h.ncopy := by unfold State.wr; split <;> simp
@[simp] theorem State.wr_h_viq (s : State) (d : Fin 32) (v : Word) : (s.wr d v).h.viq = s.h.viq := by unfold State.wr; split <;> simp
@[simp] theorem State.wr_h_window (s : State) (d : Fin 32) (v : Word) : (s.wr d v).h.window = s.h.window := by unfold State.wr; split <;> simp
@[simp] theorem State.wr_h_lim (s : State) (d : Fin 32) (v : Word) : (s.wr d v).h.lim = s.h.lim := by unfold State.wr; split <;> simp
@[simp] theorem State.wr_h_cap (s : State) (d : Fin 32) (v : Word) : (s.wr d v).h.cap = s.h.cap := by unfold State.wr; split <;> simp
@[simp] theorem State.wr_h_region (s : State) (d : Fin 32) (v : Word) : (s.wr d v).h.region = s.h.region := by unfold State.wr; split <;> simp
@[simp] theorem State.wr_h_status (s : State) (d : Fin 32) (v : Word) : (s.wr d v).h.status = s.h.status := by unfold State.wr; split <;> simp
@[simp] theorem State.wr_h_yielded (s : State) (d : Fin 32) (v : Word) : (s.wr d v).h.yielded = s.h.yielded := by unfold State.wr; split <;> simp
@[simp] theorem State.wr_h_spans (s : State) (d : Fin 32) (v : Word) : (s.wr d v).h.spans = s.h.spans := by unfold State.wr; split <;> simp
@[simp] theorem State.wr_h_strip (s : State) (d : Fin 32) (v : Word) : (s.wr d v).h.strip = s.h.strip := by unfold State.wr; split <;> simp
@[simp] theorem State.wr_h_walks (s : State) (d : Fin 32) (v : Word) : (s.wr d v).h.walks = s.h.walks := by unfold State.wr; split <;> simp
@[simp] theorem State.wr_h_irqs (s : State) (d : Fin 32) (v : Word) : (s.wr d v).h.irqs = s.h.irqs := by unfold State.wr; split <;> simp
@[simp] theorem State.wr_h_badPool (s : State) (d : Fin 32) (v : Word) : (s.wr d v).h.badPool = s.h.badPool := by unfold State.wr; split <;> simp
@[simp] theorem State.wr_h_back (s : State) (d : Fin 32) (v : Word) : (s.wr d v).h.back = s.h.back := by unfold State.wr; split <;> simp
@[simp] theorem State.wr_h_cur (s : State) (d : Fin 32) (v : Word) : (s.wr d v).h.cur = s.h.cur := by unfold State.wr; split <;> simp
@[simp] theorem State.wr_h_chase (s : State) (d : Fin 32) (v : Word) : (s.wr d v).h.chase = s.h.chase := by unfold State.wr; split <;> simp
@[simp] theorem State.wr_h_halting (s : State) (d : Fin 32) (v : Word) : (s.wr d v).h.halting = s.h.halting := by unfold State.wr; split <;> simp
@[simp] theorem State.wr_h_met (s : State) (d : Fin 32) (v : Word) : (s.wr d v).h.met = s.h.met := by unfold State.wr; split <;> simp
@[simp] theorem State.wr_h_ahead (s : State) (d : Fin 32) (v : Word) : (s.wr d v).h.ahead = s.h.ahead := by unfold State.wr; split <;> simp
@[simp] theorem State.wr_h_unconf (s : State) (d : Fin 32) (v : Word) : (s.wr d v).h.unconf = s.h.unconf := by unfold State.wr; split <;> simp
@[simp] theorem State.wr_h_staging (s : State) (d : Fin 32) (v : Word) : (s.wr d v).h.staging = s.h.staging := by unfold State.wr; split <;> simp
@[simp] theorem State.wr_h_ring (s : State) (d : Fin 32) (v : Word) : (s.wr d v).h.ring = s.h.ring := by unfold State.wr; split <;> simp
@[simp] theorem State.wr_h_draws (s : State) (d : Fin 32) (v : Word) : (s.wr d v).h.draws = s.h.draws := by unfold State.wr; split <;> simp
@[simp] theorem State.wr_h_weakPool (s : State) (d : Fin 32) (v : Word) : (s.wr d v).h.weakPool = s.h.weakPool := by unfold State.wr; split <;> simp
@[simp] theorem State.wr_h_lc (s : State) (d : Fin 32) (v : Word) : (s.wr d v).h.lc = s.h.lc := by unfold State.wr; split <;> simp

/-! ### Retiring (R75, R77, R410) -/

@[simp] theorem Hart.retired_id (h : Hart) (npc : Word) : (h.retired npc).id = h.id := rfl
@[simp] theorem Hart.retired_ctxid (h : Hart) (npc : Word) : (h.retired npc).ctxid = h.ctxid := rfl
@[simp] theorem Hart.retired_mode (h : Hart) (npc : Word) : (h.retired npc).mode = h.mode := rfl
@[simp] theorem Hart.retired_ir (h : Hart) (npc : Word) : (h.retired npc).ir = h.ir := rfl
@[simp] theorem Hart.retired_x (h : Hart) (npc : Word) : (h.retired npc).x = h.x := rfl
@[simp] theorem Hart.retired_stripord (h : Hart) (npc : Word) : (h.retired npc).stripord = h.stripord := rfl
@[simp] theorem Hart.retired_ygrant (h : Hart) (npc : Word) : (h.retired npc).ygrant = h.ygrant := rfl
@[simp] theorem Hart.retired_sptbase (h : Hart) (npc : Word) : (h.retired npc).sptbase = h.sptbase := rfl
@[simp] theorem Hart.retired_vec (h : Hart) (npc : Word) : (h.retired npc).vec = h.vec := rfl
@[simp] theorem Hart.retired_mant (h : Hart) (npc : Word) : (h.retired npc).mant = h.mant := rfl
@[simp] theorem Hart.retired_scratch (h : Hart) (npc : Word) : (h.retired npc).scratch = h.scratch := rfl
@[simp] theorem Hart.retired_acc (h : Hart) (npc : Word) : (h.retired npc).acc = h.acc := rfl
@[simp] theorem Hart.retired_inbox (h : Hart) (npc : Word) : (h.retired npc).inbox = h.inbox := rfl
@[simp] theorem Hart.retired_sleeves (h : Hart) (npc : Word) : (h.retired npc).sleeves = h.sleeves := rfl
@[simp] theorem Hart.retired_yops (h : Hart) (npc : Word) : (h.retired npc).yops = h.yops := rfl
@[simp] theorem Hart.retired_yjoin (h : Hart) (npc : Word) : (h.retired npc).yjoin = h.yjoin := rfl
@[simp] theorem Hart.retired_ybase (h : Hart) (npc : Word) : (h.retired npc).ybase = h.ybase := rfl
@[simp] theorem Hart.retired_ysave (h : Hart) (npc : Word) : (h.retired npc).ysave = h.ysave := rfl
@[simp] theorem Hart.retired_copies (h : Hart) (npc : Word) : (h.retired npc).copies = h.copies := rfl
@[simp] theorem Hart.retired_colls (h : Hart) (npc : Word) : (h.retired npc).colls = h.colls := rfl
@[simp] theorem Hart.retired_ncopy (h : Hart) (npc : Word) : (h.retired npc).ncopy = h.ncopy := rfl
@[simp] theorem Hart.retired_viq (h : Hart) (npc : Word) : (h.retired npc).viq = h.viq := rfl
@[simp] theorem Hart.retired_region (h : Hart) (npc : Word) : (h.retired npc).region = h.region := rfl
@[simp] theorem Hart.retired_yielded (h : Hart) (npc : Word) : (h.retired npc).yielded = h.yielded := rfl
@[simp] theorem Hart.retired_spans (h : Hart) (npc : Word) : (h.retired npc).spans = h.spans := rfl
@[simp] theorem Hart.retired_strip (h : Hart) (npc : Word) : (h.retired npc).strip = h.strip := rfl
@[simp] theorem Hart.retired_walks (h : Hart) (npc : Word) : (h.retired npc).walks = h.walks := rfl
@[simp] theorem Hart.retired_irqs (h : Hart) (npc : Word) : (h.retired npc).irqs = h.irqs := rfl
@[simp] theorem Hart.retired_badPool (h : Hart) (npc : Word) : (h.retired npc).badPool = h.badPool := rfl
@[simp] theorem Hart.retired_halting (h : Hart) (npc : Word) : (h.retired npc).halting = h.halting := rfl
@[simp] theorem Hart.retired_met (h : Hart) (npc : Word) : (h.retired npc).met = h.met := rfl
@[simp] theorem Hart.retired_ahead (h : Hart) (npc : Word) : (h.retired npc).ahead = h.ahead := rfl
@[simp] theorem Hart.retired_staging (h : Hart) (npc : Word) : (h.retired npc).staging = h.staging := rfl
@[simp] theorem Hart.retired_ring (h : Hart) (npc : Word) : (h.retired npc).ring = h.ring := rfl
@[simp] theorem Hart.retired_draws (h : Hart) (npc : Word) : (h.retired npc).draws = h.draws := rfl
@[simp] theorem Hart.retired_weakPool (h : Hart) (npc : Word) : (h.retired npc).weakPool = h.weakPool := rfl
@[simp] theorem Hart.retired_lc (h : Hart) (npc : Word) : (h.retired npc).lc = h.lc := rfl

@[simp] theorem Hart.retired_trap_tvec (h : Hart) (npc : Word) : (h.retired npc).trap.tvec = h.trap.tvec := rfl
@[simp] theorem Hart.retired_trap_tcause (h : Hart) (npc : Word) : (h.retired npc).trap.tcause = h.trap.tcause := rfl
@[simp] theorem Hart.retired_trap_tval (h : Hart) (npc : Word) : (h.retired npc).trap.tval = h.trap.tval := rfl
@[simp] theorem Hart.retired_trap_tepc (h : Hart) (npc : Word) : (h.retired npc).trap.tepc = h.trap.tepc := rfl
@[simp] theorem Hart.retired_trap_tstatus (h : Hart) (npc : Word) : (h.retired npc).trap.tstatus = h.trap.tstatus := rfl
@[simp] theorem Hart.retired_trap_tscratch (h : Hart) (npc : Word) : (h.retired npc).trap.tscratch = h.trap.tscratch := rfl
@[simp] theorem Hart.retired_trap_claimcfg (h : Hart) (npc : Word) : (h.retired npc).trap.claimcfg = h.trap.claimcfg := rfl
@[simp] theorem Hart.retired_trap_tchain (h : Hart) (npc : Word) : (h.retired npc).trap.tchain = h.trap.tchain := rfl
@[simp] theorem Hart.retired_trap_chain (h : Hart) (npc : Word) : (h.retired npc).trap.chain = h.trap.chain := rfl

@[simp] theorem Hart.retired_instret (h : Hart) (npc : Word) : (h.retired npc).instret = h.instret + 1 := rfl
@[simp] theorem Hart.retired_pc (h : Hart) (npc : Word) : (h.retired npc).pc = h.back.getD npc := rfl
@[simp] theorem Hart.retired_window (h : Hart) (npc : Word) : (h.retired npc).window = if h.back.isSome then h.window.eraseIdx h.cur else h.window := rfl
@[simp] theorem Hart.retired_unconf (h : Hart) (npc : Word) : (h.retired npc).unconf = if h.back.isSome then confirmOne h.unconf else h.unconf := rfl
@[simp] theorem Hart.retired_back (h : Hart) (npc : Word) : (h.retired npc).back = none := rfl
@[simp] theorem Hart.retired_cur (h : Hart) (npc : Word) : (h.retired npc).cur = 0 := rfl
@[simp] theorem Hart.retired_chase (h : Hart) (npc : Word) : (h.retired npc).chase = 0 := rfl
@[simp] theorem Hart.retired_trap_pfxstate (h : Hart) (npc : Word) : (h.retired npc).trap.pfxstate = if h.back.isNone && h.trap.pfxLive then 0 else h.trap.pfxstate := rfl
@[simp] theorem Hart.retired_trap_pfxLive (h : Hart) (npc : Word) : (h.retired npc).trap.pfxLive = (h.back.isSome && h.trap.pfxLive) := rfl
@[simp] theorem Hart.retired_trap_pfxTret (h : Hart) (npc : Word) : (h.retired npc).trap.pfxTret = (h.back.isSome && h.trap.pfxTret) := rfl
@[simp] theorem Hart.retired_trap_haltHold (h : Hart) (npc : Word) : (h.retired npc).trap.haltHold = h.trap.haltHold := rfl
@[simp] theorem Hart.retired_status (h : Hart) (npc : Word) : (h.retired npc).status = .run := rfl
@[simp] theorem Hart.retired_lim (h : Hart) (npc : Word) : (h.retired npc).lim = none := rfl
@[simp] theorem Hart.retired_cap (h : Hart) (npc : Word) : (h.retired npc).cap = none := rfl
@[simp] theorem Hart.retired_trap_fresh (h : Hart) (npc : Word) : (h.retired npc).trap.fresh = none := rfl

@[simp] theorem State.retireAt_others (s : State) (npc : Word) : (s.retireAt npc).others = s.others := rfl
@[simp] theorem State.retireAt_mem (s : State) (npc : Word) : (s.retireAt npc).mem = s.mem := rfl
@[simp] theorem State.retireAt_coh (s : State) (npc : Word) : (s.retireAt npc).coh = s.coh := rfl
@[simp] theorem State.retireAt_mmu (s : State) (npc : Word) : (s.retireAt npc).mmu = s.mmu := rfl
@[simp] theorem State.retireAt_sched (s : State) (npc : Word) : (s.retireAt npc).sched = s.sched := rfl
@[simp] theorem State.retireAt_yokes (s : State) (npc : Word) : (s.retireAt npc).yokes = s.yokes := rfl
@[simp] theorem State.retireAt_maps (s : State) (npc : Word) : (s.retireAt npc).maps = s.maps := rfl
@[simp] theorem State.retireAt_gfx (s : State) (npc : Word) : (s.retireAt npc).gfx = s.gfx := rfl
@[simp] theorem State.retireAt_fw (s : State) (npc : Word) : (s.retireAt npc).fw = s.fw := rfl
@[simp] theorem State.retireAt_host (s : State) (npc : Word) : (s.retireAt npc).host = s.host := rfl
@[simp] theorem State.retireAt_link (s : State) (npc : Word) : (s.retireAt npc).link = s.link := rfl
@[simp] theorem State.retireAt_pow (s : State) (npc : Word) : (s.retireAt npc).pow = s.pow := rfl
@[simp] theorem State.retireAt_agenda (s : State) (npc : Word) : (s.retireAt npc).agenda = s.agenda := rfl
@[simp] theorem State.retireAt_tick (s : State) (npc : Word) : (s.retireAt npc).tick = s.tick := rfl

@[simp] theorem State.retireAt_h (s : State) (npc : Word) : (s.retireAt npc).h = s.h.retired npc := rfl
@[simp] theorem State.finish_others (s : State) : (s.finish).others = s.others := rfl
@[simp] theorem State.finish_mem (s : State) : (s.finish).mem = s.mem := rfl
@[simp] theorem State.finish_coh (s : State) : (s.finish).coh = s.coh := rfl
@[simp] theorem State.finish_mmu (s : State) : (s.finish).mmu = s.mmu := rfl
@[simp] theorem State.finish_sched (s : State) : (s.finish).sched = s.sched := rfl
@[simp] theorem State.finish_yokes (s : State) : (s.finish).yokes = s.yokes := rfl
@[simp] theorem State.finish_maps (s : State) : (s.finish).maps = s.maps := rfl
@[simp] theorem State.finish_gfx (s : State) : (s.finish).gfx = s.gfx := rfl
@[simp] theorem State.finish_fw (s : State) : (s.finish).fw = s.fw := rfl
@[simp] theorem State.finish_host (s : State) : (s.finish).host = s.host := rfl
@[simp] theorem State.finish_link (s : State) : (s.finish).link = s.link := rfl
@[simp] theorem State.finish_pow (s : State) : (s.finish).pow = s.pow := rfl
@[simp] theorem State.finish_agenda (s : State) : (s.finish).agenda = s.agenda := rfl
@[simp] theorem State.finish_tick (s : State) : (s.finish).tick = s.tick := rfl

@[simp] theorem State.finish_h (s : State) : s.finish.h = s.h.retired (s.h.pc + 4) := rfl

/-! ### Traps (R408, R411) -/

@[simp] theorem Hart.enter_id (h : Hart) (t : TrapInfo) : (h.enter t).id = h.id := rfl
@[simp] theorem Hart.enter_ctxid (h : Hart) (t : TrapInfo) : (h.enter t).ctxid = h.ctxid := rfl
@[simp] theorem Hart.enter_ir (h : Hart) (t : TrapInfo) : (h.enter t).ir = h.ir := rfl
@[simp] theorem Hart.enter_x (h : Hart) (t : TrapInfo) : (h.enter t).x = h.x := rfl
@[simp] theorem Hart.enter_instret (h : Hart) (t : TrapInfo) : (h.enter t).instret = h.instret := rfl
@[simp] theorem Hart.enter_stripord (h : Hart) (t : TrapInfo) : (h.enter t).stripord = h.stripord := rfl
@[simp] theorem Hart.enter_ygrant (h : Hart) (t : TrapInfo) : (h.enter t).ygrant = h.ygrant := rfl
@[simp] theorem Hart.enter_sptbase (h : Hart) (t : TrapInfo) : (h.enter t).sptbase = h.sptbase := rfl
@[simp] theorem Hart.enter_mant (h : Hart) (t : TrapInfo) : (h.enter t).mant = h.mant := rfl
@[simp] theorem Hart.enter_scratch (h : Hart) (t : TrapInfo) : (h.enter t).scratch = h.scratch := rfl
@[simp] theorem Hart.enter_acc (h : Hart) (t : TrapInfo) : (h.enter t).acc = h.acc := rfl
@[simp] theorem Hart.enter_inbox (h : Hart) (t : TrapInfo) : (h.enter t).inbox = h.inbox := rfl
@[simp] theorem Hart.enter_sleeves (h : Hart) (t : TrapInfo) : (h.enter t).sleeves = h.sleeves := rfl
@[simp] theorem Hart.enter_yops (h : Hart) (t : TrapInfo) : (h.enter t).yops = h.yops := rfl
@[simp] theorem Hart.enter_yjoin (h : Hart) (t : TrapInfo) : (h.enter t).yjoin = h.yjoin := rfl
@[simp] theorem Hart.enter_ybase (h : Hart) (t : TrapInfo) : (h.enter t).ybase = h.ybase := rfl
@[simp] theorem Hart.enter_ysave (h : Hart) (t : TrapInfo) : (h.enter t).ysave = h.ysave := rfl
@[simp] theorem Hart.enter_copies (h : Hart) (t : TrapInfo) : (h.enter t).copies = h.copies := rfl
@[simp] theorem Hart.enter_colls (h : Hart) (t : TrapInfo) : (h.enter t).colls = h.colls := rfl
@[simp] theorem Hart.enter_ncopy (h : Hart) (t : TrapInfo) : (h.enter t).ncopy = h.ncopy := rfl
@[simp] theorem Hart.enter_region (h : Hart) (t : TrapInfo) : (h.enter t).region = h.region := rfl
@[simp] theorem Hart.enter_yielded (h : Hart) (t : TrapInfo) : (h.enter t).yielded = h.yielded := rfl
@[simp] theorem Hart.enter_spans (h : Hart) (t : TrapInfo) : (h.enter t).spans = h.spans := rfl
@[simp] theorem Hart.enter_strip (h : Hart) (t : TrapInfo) : (h.enter t).strip = h.strip := rfl
@[simp] theorem Hart.enter_walks (h : Hart) (t : TrapInfo) : (h.enter t).walks = h.walks := rfl
@[simp] theorem Hart.enter_irqs (h : Hart) (t : TrapInfo) : (h.enter t).irqs = h.irqs := rfl
@[simp] theorem Hart.enter_badPool (h : Hart) (t : TrapInfo) : (h.enter t).badPool = h.badPool := rfl
@[simp] theorem Hart.enter_ahead (h : Hart) (t : TrapInfo) : (h.enter t).ahead = h.ahead := rfl
@[simp] theorem Hart.enter_unconf (h : Hart) (t : TrapInfo) : (h.enter t).unconf = h.unconf := rfl
@[simp] theorem Hart.enter_staging (h : Hart) (t : TrapInfo) : (h.enter t).staging = h.staging := rfl
@[simp] theorem Hart.enter_ring (h : Hart) (t : TrapInfo) : (h.enter t).ring = h.ring := rfl
@[simp] theorem Hart.enter_draws (h : Hart) (t : TrapInfo) : (h.enter t).draws = h.draws := rfl
@[simp] theorem Hart.enter_weakPool (h : Hart) (t : TrapInfo) : (h.enter t).weakPool = h.weakPool := rfl
@[simp] theorem Hart.enter_lc (h : Hart) (t : TrapInfo) : (h.enter t).lc = h.lc := rfl

@[simp] theorem Hart.enter_vec_v (h : Hart) (t : TrapInfo) : (h.enter t).vec.v = h.vec.v := rfl
@[simp] theorem Hart.enter_vec_k (h : Hart) (t : TrapInfo) : (h.enter t).vec.k = h.vec.k := rfl
@[simp] theorem Hart.enter_vec_e (h : Hart) (t : TrapInfo) : (h.enter t).vec.e = h.vec.e := rfl
@[simp] theorem Hart.enter_vec_stack (h : Hart) (t : TrapInfo) : (h.enter t).vec.stack = h.vec.stack := rfl
@[simp] theorem Hart.enter_vec_kc (h : Hart) (t : TrapInfo) : (h.enter t).vec.kc = h.vec.kc := rfl
@[simp] theorem Hart.enter_vec_vcfg (h : Hart) (t : TrapInfo) : (h.enter t).vec.vcfg = h.vec.vcfg := rfl
@[simp] theorem Hart.enter_vec_vl (h : Hart) (t : TrapInfo) : (h.enter t).vec.vl = h.vec.vl := rfl
@[simp] theorem Hart.enter_vec_vrb (h : Hart) (t : TrapInfo) : (h.enter t).vec.vrb = h.vec.vrb := rfl
@[simp] theorem Hart.enter_vec_vrnd (h : Hart) (t : TrapInfo) : (h.enter t).vec.vrnd = h.vec.vrnd := rfl
@[simp] theorem Hart.enter_vec_vsrkey (h : Hart) (t : TrapInfo) : (h.enter t).vec.vsrkey = h.vec.vsrkey := rfl
@[simp] theorem Hart.enter_vec_vflags (h : Hart) (t : TrapInfo) : (h.enter t).vec.vflags = h.vec.vflags := rfl
@[simp] theorem Hart.enter_vec_ext (h : Hart) (t : TrapInfo) : (h.enter t).vec.ext = h.vec.ext := rfl

/-- What an update of the trap registers on entry leaves, whatever it writes. -/
theorem TrapState.entered (k : TrapState) (a b c d e : Word) (p : Bool) (q : Bool) (es : List ChainEntry) (f : Option Nat)
    (n : Nat) :
    let g : TrapState := { k with
      tepc := a, tcause := b, tval := c, tstatus := d, pfxLive := p, pfxTret := q, tchain := e, chain := es, fresh := f
      haltHold := n }
    g.tvec = k.tvec ∧ g.tscratch = k.tscratch ∧ g.claimcfg = k.claimcfg ∧ g.pfxstate = k.pfxstate := ⟨rfl, rfl, rfl, rfl⟩

@[simp] theorem Hart.enter_trap_tvec (h : Hart) (t : TrapInfo) : (h.enter t).trap.tvec = h.trap.tvec := (TrapState.entered _ _ _ _ _ _ _ _ _ _ _).1
@[simp] theorem Hart.enter_trap_tscratch (h : Hart) (t : TrapInfo) : (h.enter t).trap.tscratch = h.trap.tscratch := (TrapState.entered _ _ _ _ _ _ _ _ _ _ _).2.1
@[simp] theorem Hart.enter_trap_claimcfg (h : Hart) (t : TrapInfo) : (h.enter t).trap.claimcfg = h.trap.claimcfg := (TrapState.entered _ _ _ _ _ _ _ _ _ _ _).2.2.1
@[simp] theorem Hart.enter_trap_pfxstate (h : Hart) (t : TrapInfo) : (h.enter t).trap.pfxstate = h.trap.pfxstate := (TrapState.entered _ _ _ _ _ _ _ _ _ _ _).2.2.2

@[simp] theorem Hart.enter_pc (h : Hart) (t : TrapInfo) : (h.enter t).pc = h.trap.tvec := rfl
@[simp] theorem Hart.enter_status (h : Hart) (t : TrapInfo) : (h.enter t).status = .run := rfl
@[simp] theorem Hart.enter_viq (h : Hart) (t : TrapInfo) : (h.enter t).viq = [] := rfl
@[simp] theorem Hart.enter_window (h : Hart) (t : TrapInfo) : (h.enter t).window = [] := rfl
@[simp] theorem Hart.enter_back (h : Hart) (t : TrapInfo) : (h.enter t).back = none := rfl
@[simp] theorem Hart.enter_cur (h : Hart) (t : TrapInfo) : (h.enter t).cur = 0 := rfl
@[simp] theorem Hart.enter_chase (h : Hart) (t : TrapInfo) : (h.enter t).chase = 0 := rfl
@[simp] theorem Hart.enter_halting (h : Hart) (t : TrapInfo) : (h.enter t).halting = false := rfl
@[simp] theorem Hart.enter_cap (h : Hart) (t : TrapInfo) : (h.enter t).cap = none := rfl
@[simp] theorem Hart.enter_lim (h : Hart) (t : TrapInfo) : (h.enter t).lim = none := rfl
@[simp] theorem Hart.enter_trap_tval (h : Hart) (t : TrapInfo) : (h.enter t).trap.tval = t.tval := rfl
@[simp] theorem Hart.enter_trap_tcause (h : Hart) (t : TrapInfo) : (h.enter t).trap.tcause = t.cause := rfl
@[simp] theorem Hart.enter_trap_pfxLive (h : Hart) (t : TrapInfo) : (h.enter t).trap.pfxLive = false := rfl
@[simp] theorem Hart.enter_trap_fresh (h : Hart) (t : TrapInfo) : (h.enter t).trap.fresh = some t.key := rfl

@[simp] theorem Hart.tret_id (h : Hart) : (h.tret).id = h.id := rfl
@[simp] theorem Hart.tret_ctxid (h : Hart) : (h.tret).ctxid = h.ctxid := rfl
@[simp] theorem Hart.tret_ir (h : Hart) : (h.tret).ir = h.ir := rfl
@[simp] theorem Hart.tret_x (h : Hart) : (h.tret).x = h.x := rfl
@[simp] theorem Hart.tret_stripord (h : Hart) : (h.tret).stripord = h.stripord := rfl
@[simp] theorem Hart.tret_ygrant (h : Hart) : (h.tret).ygrant = h.ygrant := rfl
@[simp] theorem Hart.tret_sptbase (h : Hart) : (h.tret).sptbase = h.sptbase := rfl
@[simp] theorem Hart.tret_vec (h : Hart) : (h.tret).vec = h.vec := rfl
@[simp] theorem Hart.tret_mant (h : Hart) : (h.tret).mant = h.mant := rfl
@[simp] theorem Hart.tret_scratch (h : Hart) : (h.tret).scratch = h.scratch := rfl
@[simp] theorem Hart.tret_acc (h : Hart) : (h.tret).acc = h.acc := rfl
@[simp] theorem Hart.tret_inbox (h : Hart) : (h.tret).inbox = h.inbox := rfl
@[simp] theorem Hart.tret_sleeves (h : Hart) : (h.tret).sleeves = h.sleeves := rfl
@[simp] theorem Hart.tret_yops (h : Hart) : (h.tret).yops = h.yops := rfl
@[simp] theorem Hart.tret_yjoin (h : Hart) : (h.tret).yjoin = h.yjoin := rfl
@[simp] theorem Hart.tret_ybase (h : Hart) : (h.tret).ybase = h.ybase := rfl
@[simp] theorem Hart.tret_ysave (h : Hart) : (h.tret).ysave = h.ysave := rfl
@[simp] theorem Hart.tret_copies (h : Hart) : (h.tret).copies = h.copies := rfl
@[simp] theorem Hart.tret_colls (h : Hart) : (h.tret).colls = h.colls := rfl
@[simp] theorem Hart.tret_ncopy (h : Hart) : (h.tret).ncopy = h.ncopy := rfl
@[simp] theorem Hart.tret_lim (h : Hart) : (h.tret).lim = h.lim := rfl
@[simp] theorem Hart.tret_cap (h : Hart) : (h.tret).cap = h.cap := rfl
@[simp] theorem Hart.tret_region (h : Hart) : (h.tret).region = h.region := rfl
@[simp] theorem Hart.tret_yielded (h : Hart) : (h.tret).yielded = h.yielded := rfl
@[simp] theorem Hart.tret_spans (h : Hart) : (h.tret).spans = h.spans := rfl
@[simp] theorem Hart.tret_strip (h : Hart) : (h.tret).strip = h.strip := rfl
@[simp] theorem Hart.tret_walks (h : Hart) : (h.tret).walks = h.walks := rfl
@[simp] theorem Hart.tret_irqs (h : Hart) : (h.tret).irqs = h.irqs := rfl
@[simp] theorem Hart.tret_badPool (h : Hart) : (h.tret).badPool = h.badPool := rfl
@[simp] theorem Hart.tret_back (h : Hart) : (h.tret).back = h.back := rfl
@[simp] theorem Hart.tret_cur (h : Hart) : (h.tret).cur = h.cur := rfl
@[simp] theorem Hart.tret_chase (h : Hart) : (h.tret).chase = h.chase := rfl
@[simp] theorem Hart.tret_halting (h : Hart) : (h.tret).halting = h.halting := rfl
@[simp] theorem Hart.tret_met (h : Hart) : (h.tret).met = h.met := rfl
@[simp] theorem Hart.tret_ahead (h : Hart) : (h.tret).ahead = h.ahead := rfl
@[simp] theorem Hart.tret_unconf (h : Hart) : (h.tret).unconf = h.unconf := rfl
@[simp] theorem Hart.tret_staging (h : Hart) : (h.tret).staging = h.staging := rfl
@[simp] theorem Hart.tret_ring (h : Hart) : (h.tret).ring = h.ring := rfl
@[simp] theorem Hart.tret_draws (h : Hart) : (h.tret).draws = h.draws := rfl
@[simp] theorem Hart.tret_weakPool (h : Hart) : (h.tret).weakPool = h.weakPool := rfl
@[simp] theorem Hart.tret_lc (h : Hart) : (h.tret).lc = h.lc := rfl

@[simp] theorem Hart.tret_trap_tvec (h : Hart) : (h.tret).trap.tvec = h.trap.tvec := rfl
@[simp] theorem Hart.tret_trap_tscratch (h : Hart) : (h.tret).trap.tscratch = h.trap.tscratch := rfl
@[simp] theorem Hart.tret_trap_claimcfg (h : Hart) : (h.tret).trap.claimcfg = h.trap.claimcfg := rfl
@[simp] theorem Hart.tret_trap_pfxstate (h : Hart) : (h.tret).trap.pfxstate = h.trap.pfxstate := rfl
@[simp] theorem Hart.tret_trap_tcause (h : Hart) : (h.tret).trap.tcause = h.trap.tcause := rfl
@[simp] theorem Hart.tret_trap_tval (h : Hart) : (h.tret).trap.tval = h.trap.tval := rfl
@[simp] theorem Hart.tret_trap_tepc (h : Hart) : (h.tret).trap.tepc = h.trap.tepc := rfl

@[simp] theorem State.addRecord_h (s : State) (t : TrapInfo) (k : Nat) : (s.addRecord t k).h = s.h := rfl
@[simp] theorem State.addRecord_others (s : State) (t : TrapInfo) (k : Nat) : (s.addRecord t k).others = s.others := rfl
@[simp] theorem State.addRecord_mem (s : State) (t : TrapInfo) (k : Nat) : (s.addRecord t k).mem = s.mem := rfl
@[simp] theorem State.addRecord_coh (s : State) (t : TrapInfo) (k : Nat) : (s.addRecord t k).coh = s.coh := rfl
@[simp] theorem State.addRecord_mmu (s : State) (t : TrapInfo) (k : Nat) : (s.addRecord t k).mmu = s.mmu := rfl
@[simp] theorem State.addRecord_sched (s : State) (t : TrapInfo) (k : Nat) : (s.addRecord t k).sched = s.sched := rfl
@[simp] theorem State.addRecord_yokes (s : State) (t : TrapInfo) (k : Nat) : (s.addRecord t k).yokes = s.yokes := rfl
@[simp] theorem State.addRecord_maps (s : State) (t : TrapInfo) (k : Nat) : (s.addRecord t k).maps = s.maps := rfl
@[simp] theorem State.addRecord_gfx (s : State) (t : TrapInfo) (k : Nat) : (s.addRecord t k).gfx = s.gfx := rfl
@[simp] theorem State.addRecord_fw (s : State) (t : TrapInfo) (k : Nat) : (s.addRecord t k).fw = s.fw := rfl
@[simp] theorem State.addRecord_link (s : State) (t : TrapInfo) (k : Nat) : (s.addRecord t k).link = s.link := rfl
@[simp] theorem State.addRecord_pow (s : State) (t : TrapInfo) (k : Nat) : (s.addRecord t k).pow = s.pow := rfl
@[simp] theorem State.addRecord_agenda (s : State) (t : TrapInfo) (k : Nat) : (s.addRecord t k).agenda = s.agenda := rfl
@[simp] theorem State.addRecord_tick (s : State) (t : TrapInfo) (k : Nat) : (s.addRecord t k).tick = s.tick := rfl

/-! ### Harts, queues and launches -/

@[simp] theorem State.mapHarts_mem (s : State) (f : Hart → Hart) : (s.mapHarts f).mem = s.mem := rfl
@[simp] theorem State.mapHarts_coh (s : State) (f : Hart → Hart) : (s.mapHarts f).coh = s.coh := rfl
@[simp] theorem State.mapHarts_mmu (s : State) (f : Hart → Hart) : (s.mapHarts f).mmu = s.mmu := rfl
@[simp] theorem State.mapHarts_sched (s : State) (f : Hart → Hart) : (s.mapHarts f).sched = s.sched := rfl
@[simp] theorem State.mapHarts_yokes (s : State) (f : Hart → Hart) : (s.mapHarts f).yokes = s.yokes := rfl
@[simp] theorem State.mapHarts_maps (s : State) (f : Hart → Hart) : (s.mapHarts f).maps = s.maps := rfl
@[simp] theorem State.mapHarts_gfx (s : State) (f : Hart → Hart) : (s.mapHarts f).gfx = s.gfx := rfl
@[simp] theorem State.mapHarts_fw (s : State) (f : Hart → Hart) : (s.mapHarts f).fw = s.fw := rfl
@[simp] theorem State.mapHarts_host (s : State) (f : Hart → Hart) : (s.mapHarts f).host = s.host := rfl
@[simp] theorem State.mapHarts_link (s : State) (f : Hart → Hart) : (s.mapHarts f).link = s.link := rfl
@[simp] theorem State.mapHarts_pow (s : State) (f : Hart → Hart) : (s.mapHarts f).pow = s.pow := rfl
@[simp] theorem State.mapHarts_agenda (s : State) (f : Hart → Hart) : (s.mapHarts f).agenda = s.agenda := rfl
@[simp] theorem State.mapHarts_tick (s : State) (f : Hart → Hart) : (s.mapHarts f).tick = s.tick := rfl

@[simp] theorem State.mapHarts_h (s : State) (f : Hart → Hart) : (s.mapHarts f).h = f s.h := rfl
@[simp] theorem State.mapHarts_others (s : State) (f : Hart → Hart) : (s.mapHarts f).others = s.others.map f := rfl
@[simp] theorem State.mapHarts_harts (s : State) (f : Hart → Hart) : (s.mapHarts f).harts = s.harts.map f := rfl

@[simp] theorem State.raise_h (s : State) (v : Nat) : (s.raise v).h = s.h := rfl
@[simp] theorem State.raise_others (s : State) (v : Nat) : (s.raise v).others = s.others := rfl
@[simp] theorem State.raise_mem (s : State) (v : Nat) : (s.raise v).mem = s.mem := rfl
@[simp] theorem State.raise_coh (s : State) (v : Nat) : (s.raise v).coh = s.coh := rfl
@[simp] theorem State.raise_mmu (s : State) (v : Nat) : (s.raise v).mmu = s.mmu := rfl
@[simp] theorem State.raise_sched (s : State) (v : Nat) : (s.raise v).sched = s.sched := rfl
@[simp] theorem State.raise_yokes (s : State) (v : Nat) : (s.raise v).yokes = s.yokes := rfl
@[simp] theorem State.raise_maps (s : State) (v : Nat) : (s.raise v).maps = s.maps := rfl
@[simp] theorem State.raise_gfx (s : State) (v : Nat) : (s.raise v).gfx = s.gfx := rfl
@[simp] theorem State.raise_fw (s : State) (v : Nat) : (s.raise v).fw = s.fw := rfl
@[simp] theorem State.raise_link (s : State) (v : Nat) : (s.raise v).link = s.link := rfl
@[simp] theorem State.raise_pow (s : State) (v : Nat) : (s.raise v).pow = s.pow := rfl
@[simp] theorem State.raise_agenda (s : State) (v : Nat) : (s.raise v).agenda = s.agenda := rfl
@[simp] theorem State.raise_tick (s : State) (v : Nat) : (s.raise v).tick = s.tick := rfl

@[simp] theorem State.raise_host_fqbase (s : State) (v : Nat) : (s.raise v).host.fqbase = s.host.fqbase := rfl
@[simp] theorem State.raise_host_fqsize (s : State) (v : Nat) : (s.raise v).host.fqsize = s.host.fqsize := rfl
@[simp] theorem State.raise_host_fqtail (s : State) (v : Nat) : (s.raise v).host.fqtail = s.host.fqtail := rfl
@[simp] theorem State.raise_host_fqhead (s : State) (v : Nat) : (s.raise v).host.fqhead = s.host.fqhead := rfl
@[simp] theorem State.raise_host_recs (s : State) (v : Nat) : (s.raise v).host.recs = s.host.recs := rfl
@[simp] theorem State.raise_host_token (s : State) (v : Nat) : (s.raise v).host.token = s.host.token := rfl
@[simp] theorem State.raise_host_timers (s : State) (v : Nat) : (s.raise v).host.timers = s.host.timers := rfl
@[simp] theorem State.raise_host_notes (s : State) (v : Nat) : (s.raise v).host.notes = s.host.notes := rfl
@[simp] theorem State.raise_host_pages (s : State) (v : Nat) : (s.raise v).host.pages = s.host.pages := rfl
@[simp] theorem State.raise_host_mail (s : State) (v : Nat) : (s.raise v).host.mail = s.host.mail := rfl
@[simp] theorem State.raise_host_frozenEng (s : State) (v : Nat) : (s.raise v).host.frozenEng = s.host.frozenEng := rfl
@[simp] theorem State.raise_host_cfgOk (s : State) (v : Nat) : (s.raise v).host.cfgOk = s.host.cfgOk := rfl
@[simp] theorem State.raise_host_errs (s : State) (v : Nat) : (s.raise v).host.errs = s.host.errs := rfl
@[simp] theorem State.raise_host_reads (s : State) (v : Nat) : (s.raise v).host.reads = s.host.reads := rfl
@[simp] theorem State.raise_host_reqs (s : State) (v : Nat) : (s.raise v).host.reqs = s.host.reqs := rfl
@[simp] theorem State.raise_host_resps (s : State) (v : Nat) : (s.raise v).host.resps = s.host.resps := rfl

@[simp] theorem State.setQueue_h (s : State) (k : Queue) : (s.setQueue k).h = s.h := rfl
@[simp] theorem State.setQueue_others (s : State) (k : Queue) : (s.setQueue k).others = s.others := rfl
@[simp] theorem State.setQueue_mem (s : State) (k : Queue) : (s.setQueue k).mem = s.mem := rfl
@[simp] theorem State.setQueue_coh (s : State) (k : Queue) : (s.setQueue k).coh = s.coh := rfl
@[simp] theorem State.setQueue_mmu (s : State) (k : Queue) : (s.setQueue k).mmu = s.mmu := rfl
@[simp] theorem State.setQueue_yokes (s : State) (k : Queue) : (s.setQueue k).yokes = s.yokes := rfl
@[simp] theorem State.setQueue_maps (s : State) (k : Queue) : (s.setQueue k).maps = s.maps := rfl
@[simp] theorem State.setQueue_gfx (s : State) (k : Queue) : (s.setQueue k).gfx = s.gfx := rfl
@[simp] theorem State.setQueue_fw (s : State) (k : Queue) : (s.setQueue k).fw = s.fw := rfl
@[simp] theorem State.setQueue_host (s : State) (k : Queue) : (s.setQueue k).host = s.host := rfl
@[simp] theorem State.setQueue_link (s : State) (k : Queue) : (s.setQueue k).link = s.link := rfl
@[simp] theorem State.setQueue_pow (s : State) (k : Queue) : (s.setQueue k).pow = s.pow := rfl
@[simp] theorem State.setQueue_agenda (s : State) (k : Queue) : (s.setQueue k).agenda = s.agenda := rfl
@[simp] theorem State.setQueue_tick (s : State) (k : Queue) : (s.setQueue k).tick = s.tick := rfl

@[simp] theorem State.setQueue_sched_launches (s : State) (k : Queue) : (s.setQueue k).sched.launches = s.sched.launches := rfl
@[simp] theorem State.setQueue_sched_saved (s : State) (k : Queue) : (s.setQueue k).sched.saved = s.sched.saved := rfl
@[simp] theorem State.setQueue_sched_records (s : State) (k : Queue) : (s.setQueue k).sched.records = s.sched.records := rfl
@[simp] theorem State.setQueue_sched_wms (s : State) (k : Queue) : (s.setQueue k).sched.wms = s.sched.wms := rfl
@[simp] theorem State.setQueue_sched_served (s : State) (k : Queue) : (s.setQueue k).sched.served = s.sched.served := rfl
@[simp] theorem State.setQueue_sched_lanes (s : State) (k : Queue) : (s.setQueue k).sched.lanes = s.sched.lanes := rfl
@[simp] theorem State.setQueue_sched_live (s : State) (k : Queue) : (s.setQueue k).sched.live = s.sched.live := rfl
@[simp] theorem State.setQueue_sched_nlaunch (s : State) (k : Queue) : (s.setQueue k).sched.nlaunch = s.sched.nlaunch := rfl
@[simp] theorem State.setQueue_sched_counts (s : State) (k : Queue) : (s.setQueue k).sched.counts = s.sched.counts := rfl

@[simp] theorem State.setLaunch_h (s : State) (k : Launch) : (s.setLaunch k).h = s.h := rfl
@[simp] theorem State.setLaunch_others (s : State) (k : Launch) : (s.setLaunch k).others = s.others := rfl
@[simp] theorem State.setLaunch_mem (s : State) (k : Launch) : (s.setLaunch k).mem = s.mem := rfl
@[simp] theorem State.setLaunch_coh (s : State) (k : Launch) : (s.setLaunch k).coh = s.coh := rfl
@[simp] theorem State.setLaunch_mmu (s : State) (k : Launch) : (s.setLaunch k).mmu = s.mmu := rfl
@[simp] theorem State.setLaunch_yokes (s : State) (k : Launch) : (s.setLaunch k).yokes = s.yokes := rfl
@[simp] theorem State.setLaunch_maps (s : State) (k : Launch) : (s.setLaunch k).maps = s.maps := rfl
@[simp] theorem State.setLaunch_gfx (s : State) (k : Launch) : (s.setLaunch k).gfx = s.gfx := rfl
@[simp] theorem State.setLaunch_fw (s : State) (k : Launch) : (s.setLaunch k).fw = s.fw := rfl
@[simp] theorem State.setLaunch_host (s : State) (k : Launch) : (s.setLaunch k).host = s.host := rfl
@[simp] theorem State.setLaunch_link (s : State) (k : Launch) : (s.setLaunch k).link = s.link := rfl
@[simp] theorem State.setLaunch_pow (s : State) (k : Launch) : (s.setLaunch k).pow = s.pow := rfl
@[simp] theorem State.setLaunch_agenda (s : State) (k : Launch) : (s.setLaunch k).agenda = s.agenda := rfl
@[simp] theorem State.setLaunch_tick (s : State) (k : Launch) : (s.setLaunch k).tick = s.tick := rfl

@[simp] theorem State.setLaunch_sched_queues (s : State) (k : Launch) : (s.setLaunch k).sched.queues = s.sched.queues := rfl
@[simp] theorem State.setLaunch_sched_saved (s : State) (k : Launch) : (s.setLaunch k).sched.saved = s.sched.saved := rfl
@[simp] theorem State.setLaunch_sched_records (s : State) (k : Launch) : (s.setLaunch k).sched.records = s.sched.records := rfl
@[simp] theorem State.setLaunch_sched_wms (s : State) (k : Launch) : (s.setLaunch k).sched.wms = s.sched.wms := rfl
@[simp] theorem State.setLaunch_sched_served (s : State) (k : Launch) : (s.setLaunch k).sched.served = s.sched.served := rfl
@[simp] theorem State.setLaunch_sched_lanes (s : State) (k : Launch) : (s.setLaunch k).sched.lanes = s.sched.lanes := rfl
@[simp] theorem State.setLaunch_sched_live (s : State) (k : Launch) : (s.setLaunch k).sched.live = s.sched.live := rfl
@[simp] theorem State.setLaunch_sched_nlaunch (s : State) (k : Launch) : (s.setLaunch k).sched.nlaunch = s.sched.nlaunch := rfl
@[simp] theorem State.setLaunch_sched_counts (s : State) (k : Launch) : (s.setLaunch k).sched.counts = s.sched.counts := rfl

@[simp] theorem State.dropLaunch_h (s : State) (k : Launch) : (s.dropLaunch k).h = s.h := rfl
@[simp] theorem State.dropLaunch_others (s : State) (k : Launch) : (s.dropLaunch k).others = s.others := rfl
@[simp] theorem State.dropLaunch_mem (s : State) (k : Launch) : (s.dropLaunch k).mem = s.mem := rfl
@[simp] theorem State.dropLaunch_coh (s : State) (k : Launch) : (s.dropLaunch k).coh = s.coh := rfl
@[simp] theorem State.dropLaunch_mmu (s : State) (k : Launch) : (s.dropLaunch k).mmu = s.mmu := rfl
@[simp] theorem State.dropLaunch_yokes (s : State) (k : Launch) : (s.dropLaunch k).yokes = s.yokes := rfl
@[simp] theorem State.dropLaunch_gfx (s : State) (k : Launch) : (s.dropLaunch k).gfx = s.gfx := rfl
@[simp] theorem State.dropLaunch_fw (s : State) (k : Launch) : (s.dropLaunch k).fw = s.fw := rfl
@[simp] theorem State.dropLaunch_host (s : State) (k : Launch) : (s.dropLaunch k).host = s.host := rfl
@[simp] theorem State.dropLaunch_link (s : State) (k : Launch) : (s.dropLaunch k).link = s.link := rfl
@[simp] theorem State.dropLaunch_pow (s : State) (k : Launch) : (s.dropLaunch k).pow = s.pow := rfl
@[simp] theorem State.dropLaunch_agenda (s : State) (k : Launch) : (s.dropLaunch k).agenda = s.agenda := rfl
@[simp] theorem State.dropLaunch_tick (s : State) (k : Launch) : (s.dropLaunch k).tick = s.tick := rfl

@[simp] theorem State.releaseYokes_h (s : State) (l : Nat) : (s.releaseYokes l).h = s.h := rfl
@[simp] theorem State.releaseYokes_others (s : State) (l : Nat) : (s.releaseYokes l).others = s.others := rfl
@[simp] theorem State.releaseYokes_mem (s : State) (l : Nat) : (s.releaseYokes l).mem = s.mem := rfl
@[simp] theorem State.releaseYokes_coh (s : State) (l : Nat) : (s.releaseYokes l).coh = s.coh := rfl
@[simp] theorem State.releaseYokes_mmu (s : State) (l : Nat) : (s.releaseYokes l).mmu = s.mmu := rfl
@[simp] theorem State.releaseYokes_sched (s : State) (l : Nat) : (s.releaseYokes l).sched = s.sched := rfl
@[simp] theorem State.releaseYokes_maps (s : State) (l : Nat) : (s.releaseYokes l).maps = s.maps := rfl
@[simp] theorem State.releaseYokes_gfx (s : State) (l : Nat) : (s.releaseYokes l).gfx = s.gfx := rfl
@[simp] theorem State.releaseYokes_fw (s : State) (l : Nat) : (s.releaseYokes l).fw = s.fw := rfl
@[simp] theorem State.releaseYokes_host (s : State) (l : Nat) : (s.releaseYokes l).host = s.host := rfl
@[simp] theorem State.releaseYokes_link (s : State) (l : Nat) : (s.releaseYokes l).link = s.link := rfl
@[simp] theorem State.releaseYokes_pow (s : State) (l : Nat) : (s.releaseYokes l).pow = s.pow := rfl
@[simp] theorem State.releaseYokes_agenda (s : State) (l : Nat) : (s.releaseYokes l).agenda = s.agenda := rfl
@[simp] theorem State.releaseYokes_tick (s : State) (l : Nat) : (s.releaseYokes l).tick = s.tick := rfl

@[simp] theorem State.freeSlots_mem (s : State) (l : Nat) : (s.freeSlots l).mem = s.mem := rfl
@[simp] theorem State.freeSlots_coh (s : State) (l : Nat) : (s.freeSlots l).coh = s.coh := rfl
@[simp] theorem State.freeSlots_mmu (s : State) (l : Nat) : (s.freeSlots l).mmu = s.mmu := rfl
@[simp] theorem State.freeSlots_sched (s : State) (l : Nat) : (s.freeSlots l).sched = s.sched := rfl
@[simp] theorem State.freeSlots_yokes (s : State) (l : Nat) : (s.freeSlots l).yokes = s.yokes := rfl
@[simp] theorem State.freeSlots_maps (s : State) (l : Nat) : (s.freeSlots l).maps = s.maps := rfl
@[simp] theorem State.freeSlots_gfx (s : State) (l : Nat) : (s.freeSlots l).gfx = s.gfx := rfl
@[simp] theorem State.freeSlots_fw (s : State) (l : Nat) : (s.freeSlots l).fw = s.fw := rfl
@[simp] theorem State.freeSlots_host (s : State) (l : Nat) : (s.freeSlots l).host = s.host := rfl
@[simp] theorem State.freeSlots_link (s : State) (l : Nat) : (s.freeSlots l).link = s.link := rfl
@[simp] theorem State.freeSlots_pow (s : State) (l : Nat) : (s.freeSlots l).pow = s.pow := rfl
@[simp] theorem State.freeSlots_agenda (s : State) (l : Nat) : (s.freeSlots l).agenda = s.agenda := rfl
@[simp] theorem State.freeSlots_tick (s : State) (l : Nat) : (s.freeSlots l).tick = s.tick := rfl

/-! ### Memory, the L1s and the homes -/

@[simp] theorem State.setMem_h (s : State) (a : Nat) (v : Word) : (s.setMem a v).h = s.h := rfl
@[simp] theorem State.setMem_others (s : State) (a : Nat) (v : Word) : (s.setMem a v).others = s.others := rfl
@[simp] theorem State.setMem_coh (s : State) (a : Nat) (v : Word) : (s.setMem a v).coh = s.coh := rfl
@[simp] theorem State.setMem_mmu (s : State) (a : Nat) (v : Word) : (s.setMem a v).mmu = s.mmu := rfl
@[simp] theorem State.setMem_sched (s : State) (a : Nat) (v : Word) : (s.setMem a v).sched = s.sched := rfl
@[simp] theorem State.setMem_yokes (s : State) (a : Nat) (v : Word) : (s.setMem a v).yokes = s.yokes := rfl
@[simp] theorem State.setMem_maps (s : State) (a : Nat) (v : Word) : (s.setMem a v).maps = s.maps := rfl
@[simp] theorem State.setMem_gfx (s : State) (a : Nat) (v : Word) : (s.setMem a v).gfx = s.gfx := rfl
@[simp] theorem State.setMem_fw (s : State) (a : Nat) (v : Word) : (s.setMem a v).fw = s.fw := rfl
@[simp] theorem State.setMem_host (s : State) (a : Nat) (v : Word) : (s.setMem a v).host = s.host := rfl
@[simp] theorem State.setMem_link (s : State) (a : Nat) (v : Word) : (s.setMem a v).link = s.link := rfl
@[simp] theorem State.setMem_pow (s : State) (a : Nat) (v : Word) : (s.setMem a v).pow = s.pow := rfl
@[simp] theorem State.setMem_agenda (s : State) (a : Nat) (v : Word) : (s.setMem a v).agenda = s.agenda := rfl
@[simp] theorem State.setMem_tick (s : State) (a : Nat) (v : Word) : (s.setMem a v).tick = s.tick := rfl

@[simp] theorem State.setSeam_h (s : State) (a : Nat) (v : Option Seam) : (s.setSeam a v).h = s.h := rfl
@[simp] theorem State.setSeam_others (s : State) (a : Nat) (v : Option Seam) : (s.setSeam a v).others = s.others := rfl
@[simp] theorem State.setSeam_mem (s : State) (a : Nat) (v : Option Seam) : (s.setSeam a v).mem = s.mem := rfl
@[simp] theorem State.setSeam_mmu (s : State) (a : Nat) (v : Option Seam) : (s.setSeam a v).mmu = s.mmu := rfl
@[simp] theorem State.setSeam_sched (s : State) (a : Nat) (v : Option Seam) : (s.setSeam a v).sched = s.sched := rfl
@[simp] theorem State.setSeam_yokes (s : State) (a : Nat) (v : Option Seam) : (s.setSeam a v).yokes = s.yokes := rfl
@[simp] theorem State.setSeam_maps (s : State) (a : Nat) (v : Option Seam) : (s.setSeam a v).maps = s.maps := rfl
@[simp] theorem State.setSeam_gfx (s : State) (a : Nat) (v : Option Seam) : (s.setSeam a v).gfx = s.gfx := rfl
@[simp] theorem State.setSeam_fw (s : State) (a : Nat) (v : Option Seam) : (s.setSeam a v).fw = s.fw := rfl
@[simp] theorem State.setSeam_host (s : State) (a : Nat) (v : Option Seam) : (s.setSeam a v).host = s.host := rfl
@[simp] theorem State.setSeam_link (s : State) (a : Nat) (v : Option Seam) : (s.setSeam a v).link = s.link := rfl
@[simp] theorem State.setSeam_pow (s : State) (a : Nat) (v : Option Seam) : (s.setSeam a v).pow = s.pow := rfl
@[simp] theorem State.setSeam_agenda (s : State) (a : Nat) (v : Option Seam) : (s.setSeam a v).agenda = s.agenda := rfl
@[simp] theorem State.setSeam_tick (s : State) (a : Nat) (v : Option Seam) : (s.setSeam a v).tick = s.tick := rfl

@[simp] theorem State.setSeam_coh_l1 (s : State) (a : Nat) (v : Option Seam) : (s.setSeam a v).coh.l1 = s.coh.l1 := rfl
@[simp] theorem State.setSeam_coh_icache (s : State) (a : Nat) (v : Option Seam) : (s.setSeam a v).coh.icache = s.coh.icache := rfl
@[simp] theorem State.setSeam_coh_slices (s : State) (a : Nat) (v : Option Seam) : (s.setSeam a v).coh.slices = s.coh.slices := rfl
@[simp] theorem State.setSeam_coh_txns (s : State) (a : Nat) (v : Option Seam) : (s.setSeam a v).coh.txns = s.coh.txns := rfl
@[simp] theorem State.setSeam_coh_msgs (s : State) (a : Nat) (v : Option Seam) : (s.setSeam a v).coh.msgs = s.coh.msgs := rfl
@[simp] theorem State.setSeam_coh_reqs (s : State) (a : Nat) (v : Option Seam) : (s.setSeam a v).coh.reqs = s.coh.reqs := rfl
@[simp] theorem State.setSeam_coh_reps (s : State) (a : Nat) (v : Option Seam) : (s.setSeam a v).coh.reps = s.coh.reps := rfl
@[simp] theorem State.setSeam_coh_homes (s : State) (a : Nat) (v : Option Seam) : (s.setSeam a v).coh.homes = s.coh.homes := rfl
@[simp] theorem State.setSeam_coh_wcount (s : State) (a : Nat) (v : Option Seam) : (s.setSeam a v).coh.wcount = s.coh.wcount := rfl
@[simp] theorem State.setSeam_coh_pcount (s : State) (a : Nat) (v : Option Seam) : (s.setSeam a v).coh.pcount = s.coh.pcount := rfl
@[simp] theorem State.setSeam_coh_bad (s : State) (a : Nat) (v : Option Seam) : (s.setSeam a v).coh.bad = s.coh.bad := rfl
@[simp] theorem State.setSeam_coh_weak (s : State) (a : Nat) (v : Option Seam) : (s.setSeam a v).coh.weak = s.coh.weak := rfl
@[simp] theorem State.setSeam_coh_due (s : State) (a : Nat) (v : Option Seam) : (s.setSeam a v).coh.due = s.coh.due := rfl
@[simp] theorem State.setSeam_coh_lookup (s : State) (a : Nat) (v : Option Seam) : (s.setSeam a v).coh.lookup = s.coh.lookup := rfl
@[simp] theorem State.setSeam_coh_agent (s : State) (a : Nat) (v : Option Seam) : (s.setSeam a v).coh.agent = s.coh.agent := rfl
@[simp] theorem State.setSeam_coh_relDue (s : State) (a : Nat) (v : Option Seam) : (s.setSeam a v).coh.relDue = s.coh.relDue := rfl

@[simp] theorem State.setL1_h (s : State) (c a : Nat) (w : L1Word) : (s.setL1 c a w).h = s.h := rfl
@[simp] theorem State.setL1_others (s : State) (c a : Nat) (w : L1Word) : (s.setL1 c a w).others = s.others := rfl
@[simp] theorem State.setL1_mem (s : State) (c a : Nat) (w : L1Word) : (s.setL1 c a w).mem = s.mem := rfl
@[simp] theorem State.setL1_mmu (s : State) (c a : Nat) (w : L1Word) : (s.setL1 c a w).mmu = s.mmu := rfl
@[simp] theorem State.setL1_sched (s : State) (c a : Nat) (w : L1Word) : (s.setL1 c a w).sched = s.sched := rfl
@[simp] theorem State.setL1_yokes (s : State) (c a : Nat) (w : L1Word) : (s.setL1 c a w).yokes = s.yokes := rfl
@[simp] theorem State.setL1_maps (s : State) (c a : Nat) (w : L1Word) : (s.setL1 c a w).maps = s.maps := rfl
@[simp] theorem State.setL1_gfx (s : State) (c a : Nat) (w : L1Word) : (s.setL1 c a w).gfx = s.gfx := rfl
@[simp] theorem State.setL1_fw (s : State) (c a : Nat) (w : L1Word) : (s.setL1 c a w).fw = s.fw := rfl
@[simp] theorem State.setL1_host (s : State) (c a : Nat) (w : L1Word) : (s.setL1 c a w).host = s.host := rfl
@[simp] theorem State.setL1_link (s : State) (c a : Nat) (w : L1Word) : (s.setL1 c a w).link = s.link := rfl
@[simp] theorem State.setL1_pow (s : State) (c a : Nat) (w : L1Word) : (s.setL1 c a w).pow = s.pow := rfl
@[simp] theorem State.setL1_agenda (s : State) (c a : Nat) (w : L1Word) : (s.setL1 c a w).agenda = s.agenda := rfl
@[simp] theorem State.setL1_tick (s : State) (c a : Nat) (w : L1Word) : (s.setL1 c a w).tick = s.tick := rfl

@[simp] theorem State.setL1_coh_icache (s : State) (c a : Nat) (w : L1Word) : (s.setL1 c a w).coh.icache = s.coh.icache := rfl
@[simp] theorem State.setL1_coh_seam (s : State) (c a : Nat) (w : L1Word) : (s.setL1 c a w).coh.seam = s.coh.seam := rfl
@[simp] theorem State.setL1_coh_slices (s : State) (c a : Nat) (w : L1Word) : (s.setL1 c a w).coh.slices = s.coh.slices := rfl
@[simp] theorem State.setL1_coh_txns (s : State) (c a : Nat) (w : L1Word) : (s.setL1 c a w).coh.txns = s.coh.txns := rfl
@[simp] theorem State.setL1_coh_msgs (s : State) (c a : Nat) (w : L1Word) : (s.setL1 c a w).coh.msgs = s.coh.msgs := rfl
@[simp] theorem State.setL1_coh_reqs (s : State) (c a : Nat) (w : L1Word) : (s.setL1 c a w).coh.reqs = s.coh.reqs := rfl
@[simp] theorem State.setL1_coh_reps (s : State) (c a : Nat) (w : L1Word) : (s.setL1 c a w).coh.reps = s.coh.reps := rfl
@[simp] theorem State.setL1_coh_homes (s : State) (c a : Nat) (w : L1Word) : (s.setL1 c a w).coh.homes = s.coh.homes := rfl
@[simp] theorem State.setL1_coh_wcount (s : State) (c a : Nat) (w : L1Word) : (s.setL1 c a w).coh.wcount = s.coh.wcount := rfl
@[simp] theorem State.setL1_coh_pcount (s : State) (c a : Nat) (w : L1Word) : (s.setL1 c a w).coh.pcount = s.coh.pcount := rfl
@[simp] theorem State.setL1_coh_bad (s : State) (c a : Nat) (w : L1Word) : (s.setL1 c a w).coh.bad = s.coh.bad := rfl
@[simp] theorem State.setL1_coh_weak (s : State) (c a : Nat) (w : L1Word) : (s.setL1 c a w).coh.weak = s.coh.weak := rfl
@[simp] theorem State.setL1_coh_due (s : State) (c a : Nat) (w : L1Word) : (s.setL1 c a w).coh.due = s.coh.due := rfl
@[simp] theorem State.setL1_coh_lookup (s : State) (c a : Nat) (w : L1Word) : (s.setL1 c a w).coh.lookup = s.coh.lookup := rfl
@[simp] theorem State.setL1_coh_agent (s : State) (c a : Nat) (w : L1Word) : (s.setL1 c a w).coh.agent = s.coh.agent := rfl
@[simp] theorem State.setL1_coh_relDue (s : State) (c a : Nat) (w : L1Word) : (s.setL1 c a w).coh.relDue = s.coh.relDue := rfl

@[simp] theorem State.setBad_h (s : State) (a : Nat) (b : Bool) : (s.setBad a b).h = s.h := rfl
@[simp] theorem State.setBad_others (s : State) (a : Nat) (b : Bool) : (s.setBad a b).others = s.others := rfl
@[simp] theorem State.setBad_mem (s : State) (a : Nat) (b : Bool) : (s.setBad a b).mem = s.mem := rfl
@[simp] theorem State.setBad_mmu (s : State) (a : Nat) (b : Bool) : (s.setBad a b).mmu = s.mmu := rfl
@[simp] theorem State.setBad_sched (s : State) (a : Nat) (b : Bool) : (s.setBad a b).sched = s.sched := rfl
@[simp] theorem State.setBad_yokes (s : State) (a : Nat) (b : Bool) : (s.setBad a b).yokes = s.yokes := rfl
@[simp] theorem State.setBad_maps (s : State) (a : Nat) (b : Bool) : (s.setBad a b).maps = s.maps := rfl
@[simp] theorem State.setBad_gfx (s : State) (a : Nat) (b : Bool) : (s.setBad a b).gfx = s.gfx := rfl
@[simp] theorem State.setBad_fw (s : State) (a : Nat) (b : Bool) : (s.setBad a b).fw = s.fw := rfl
@[simp] theorem State.setBad_host (s : State) (a : Nat) (b : Bool) : (s.setBad a b).host = s.host := rfl
@[simp] theorem State.setBad_link (s : State) (a : Nat) (b : Bool) : (s.setBad a b).link = s.link := rfl
@[simp] theorem State.setBad_pow (s : State) (a : Nat) (b : Bool) : (s.setBad a b).pow = s.pow := rfl
@[simp] theorem State.setBad_agenda (s : State) (a : Nat) (b : Bool) : (s.setBad a b).agenda = s.agenda := rfl
@[simp] theorem State.setBad_tick (s : State) (a : Nat) (b : Bool) : (s.setBad a b).tick = s.tick := rfl

@[simp] theorem State.setBad_coh_l1 (s : State) (a : Nat) (b : Bool) : (s.setBad a b).coh.l1 = s.coh.l1 := rfl
@[simp] theorem State.setBad_coh_icache (s : State) (a : Nat) (b : Bool) : (s.setBad a b).coh.icache = s.coh.icache := rfl
@[simp] theorem State.setBad_coh_seam (s : State) (a : Nat) (b : Bool) : (s.setBad a b).coh.seam = s.coh.seam := rfl
@[simp] theorem State.setBad_coh_slices (s : State) (a : Nat) (b : Bool) : (s.setBad a b).coh.slices = s.coh.slices := rfl
@[simp] theorem State.setBad_coh_txns (s : State) (a : Nat) (b : Bool) : (s.setBad a b).coh.txns = s.coh.txns := rfl
@[simp] theorem State.setBad_coh_msgs (s : State) (a : Nat) (b : Bool) : (s.setBad a b).coh.msgs = s.coh.msgs := rfl
@[simp] theorem State.setBad_coh_reqs (s : State) (a : Nat) (b : Bool) : (s.setBad a b).coh.reqs = s.coh.reqs := rfl
@[simp] theorem State.setBad_coh_reps (s : State) (a : Nat) (b : Bool) : (s.setBad a b).coh.reps = s.coh.reps := rfl
@[simp] theorem State.setBad_coh_homes (s : State) (a : Nat) (b : Bool) : (s.setBad a b).coh.homes = s.coh.homes := rfl
@[simp] theorem State.setBad_coh_wcount (s : State) (a : Nat) (b : Bool) : (s.setBad a b).coh.wcount = s.coh.wcount := rfl
@[simp] theorem State.setBad_coh_pcount (s : State) (a : Nat) (b : Bool) : (s.setBad a b).coh.pcount = s.coh.pcount := rfl
@[simp] theorem State.setBad_coh_due (s : State) (a : Nat) (b : Bool) : (s.setBad a b).coh.due = s.coh.due := rfl
@[simp] theorem State.setBad_coh_lookup (s : State) (a : Nat) (b : Bool) : (s.setBad a b).coh.lookup = s.coh.lookup := rfl
@[simp] theorem State.setBad_coh_agent (s : State) (a : Nat) (b : Bool) : (s.setBad a b).coh.agent = s.coh.agent := rfl
@[simp] theorem State.setBad_coh_relDue (s : State) (a : Nat) (b : Bool) : (s.setBad a b).coh.relDue = s.coh.relDue := rfl

@[simp] theorem State.putHome_h (s : State) (a : Nat) (v : Word) (b : Bool) : (s.putHome a v b).h = s.h := rfl
@[simp] theorem State.putHome_others (s : State) (a : Nat) (v : Word) (b : Bool) : (s.putHome a v b).others = s.others := rfl
@[simp] theorem State.putHome_mmu (s : State) (a : Nat) (v : Word) (b : Bool) : (s.putHome a v b).mmu = s.mmu := rfl
@[simp] theorem State.putHome_sched (s : State) (a : Nat) (v : Word) (b : Bool) : (s.putHome a v b).sched = s.sched := rfl
@[simp] theorem State.putHome_yokes (s : State) (a : Nat) (v : Word) (b : Bool) : (s.putHome a v b).yokes = s.yokes := rfl
@[simp] theorem State.putHome_maps (s : State) (a : Nat) (v : Word) (b : Bool) : (s.putHome a v b).maps = s.maps := rfl
@[simp] theorem State.putHome_gfx (s : State) (a : Nat) (v : Word) (b : Bool) : (s.putHome a v b).gfx = s.gfx := rfl
@[simp] theorem State.putHome_fw (s : State) (a : Nat) (v : Word) (b : Bool) : (s.putHome a v b).fw = s.fw := rfl
@[simp] theorem State.putHome_host (s : State) (a : Nat) (v : Word) (b : Bool) : (s.putHome a v b).host = s.host := rfl
@[simp] theorem State.putHome_link (s : State) (a : Nat) (v : Word) (b : Bool) : (s.putHome a v b).link = s.link := rfl
@[simp] theorem State.putHome_pow (s : State) (a : Nat) (v : Word) (b : Bool) : (s.putHome a v b).pow = s.pow := rfl
@[simp] theorem State.putHome_agenda (s : State) (a : Nat) (v : Word) (b : Bool) : (s.putHome a v b).agenda = s.agenda := rfl
@[simp] theorem State.putHome_tick (s : State) (a : Nat) (v : Word) (b : Bool) : (s.putHome a v b).tick = s.tick := rfl

@[simp] theorem State.toSharers_h (s : State) (a : Nat) (cs ds : List Nat) (c : Option Nat) (f : L1Word → L1Word) : (s.toSharers a cs ds c f).h = s.h := rfl
@[simp] theorem State.toSharers_others (s : State) (a : Nat) (cs ds : List Nat) (c : Option Nat) (f : L1Word → L1Word) : (s.toSharers a cs ds c f).others = s.others := rfl
@[simp] theorem State.toSharers_mem (s : State) (a : Nat) (cs ds : List Nat) (c : Option Nat) (f : L1Word → L1Word) : (s.toSharers a cs ds c f).mem = s.mem := rfl
@[simp] theorem State.toSharers_mmu (s : State) (a : Nat) (cs ds : List Nat) (c : Option Nat) (f : L1Word → L1Word) : (s.toSharers a cs ds c f).mmu = s.mmu := rfl
@[simp] theorem State.toSharers_sched (s : State) (a : Nat) (cs ds : List Nat) (c : Option Nat) (f : L1Word → L1Word) : (s.toSharers a cs ds c f).sched = s.sched := rfl
@[simp] theorem State.toSharers_yokes (s : State) (a : Nat) (cs ds : List Nat) (c : Option Nat) (f : L1Word → L1Word) : (s.toSharers a cs ds c f).yokes = s.yokes := rfl
@[simp] theorem State.toSharers_maps (s : State) (a : Nat) (cs ds : List Nat) (c : Option Nat) (f : L1Word → L1Word) : (s.toSharers a cs ds c f).maps = s.maps := rfl
@[simp] theorem State.toSharers_gfx (s : State) (a : Nat) (cs ds : List Nat) (c : Option Nat) (f : L1Word → L1Word) : (s.toSharers a cs ds c f).gfx = s.gfx := rfl
@[simp] theorem State.toSharers_fw (s : State) (a : Nat) (cs ds : List Nat) (c : Option Nat) (f : L1Word → L1Word) : (s.toSharers a cs ds c f).fw = s.fw := rfl
@[simp] theorem State.toSharers_host (s : State) (a : Nat) (cs ds : List Nat) (c : Option Nat) (f : L1Word → L1Word) : (s.toSharers a cs ds c f).host = s.host := rfl
@[simp] theorem State.toSharers_link (s : State) (a : Nat) (cs ds : List Nat) (c : Option Nat) (f : L1Word → L1Word) : (s.toSharers a cs ds c f).link = s.link := rfl
@[simp] theorem State.toSharers_pow (s : State) (a : Nat) (cs ds : List Nat) (c : Option Nat) (f : L1Word → L1Word) : (s.toSharers a cs ds c f).pow = s.pow := rfl
@[simp] theorem State.toSharers_agenda (s : State) (a : Nat) (cs ds : List Nat) (c : Option Nat) (f : L1Word → L1Word) : (s.toSharers a cs ds c f).agenda = s.agenda := rfl
@[simp] theorem State.toSharers_tick (s : State) (a : Nat) (cs ds : List Nat) (c : Option Nat) (f : L1Word → L1Word) : (s.toSharers a cs ds c f).tick = s.tick := rfl

end Sys2Proof.Machine
end

