-- ==== Sys2Proof/Laws/Step.lean ====
section
/-! SUPPORT. What the end of a step does, and a step by what comes next: a proof about a step cites these and does not
unfold `step`. -/

namespace Sys2Proof.Machine

/-- With nothing waiting for it, the end of a step changes nothing. -/
theorem State.stepEnd_quiet (s : State) (hq : s.nothingDue = true) : s.stepEnd = s := by
  obtain ⟨h, others, mem, coh, mmu, sched, yokes, maps, gfx, fw, host, link, pow, agenda, tick⟩ := s
  obtain ⟨⟩ := coh
  obtain ⟨⟩ := host
  simp only [State.nothingDue, Bool.and_eq_true, List.isEmpty_iff] at hq
  obtain ⟨⟨⟨⟨rfl, rfl⟩, rfl⟩, rfl⟩, rfl⟩ := hq
  simp [State.stepEnd, State.freeReqs, State.serveHost, State.serveResps, State.startMoves]

/-- The step carries out an instruction that comes next, then goes on. -/
theorem step_run {s t v : State} {i : Instr} (h : s.nextAct = .run i t) (hv : exec i t = .next v) :
    step s = .next (v.after t.h).stepEnd := by simp only [step, h, hv, thenDo]

/-- The step carries out an event that comes next. -/
theorem step_event {s t v : State} {i : Instr} (h : s.nextAct = .event i t) (hv : exec i t = .next v) :
    step s = .next v.stepEnd := by simp only [step, h, hv, thenDo]

theorem step_turn {s t : State} (h : s.nextAct = .turn t) :
    step s = .next (t.after ((s.hart? t.h.id).getD t.h)).stepEnd := by simp only [step, h]

theorem step_idle {s t : State} (h : s.nextAct = .idle t) : step s = .next t.stepEnd := by simp only [step, h]

/-- A step that answers a next state: what came next, and what was done with it. -/
theorem step_cases {s u : State} (h : step s = .next u) :
    (∃ i t v, s.nextAct = .run i t ∧ exec i t = .next v ∧ u = (v.after t.h).stepEnd) ∨
    (∃ i t v, s.nextAct = .event i t ∧ exec i t = .next v ∧ u = v.stepEnd) ∨
    (∃ t, s.nextAct = .turn t ∧ u = (t.after ((s.hart? t.h.id).getD t.h)).stepEnd) ∨ (∃ t, s.nextAct = .idle t ∧ u = t.stepEnd) := by
  unfold step at h
  split at h
  · rename_i i t ha
    cases he : exec i t with
    | next v => rw [he] at h; cases h; exact .inl ⟨i, t, v, ha, he, rfl⟩
    | fault f => rw [he] at h; cases h
    | refused r => rw [he] at h; cases h
  · rename_i t ha; cases h; exact .inr (.inr (.inl ⟨t, ha, rfl⟩))
  · rename_i i t ha
    cases he : exec i t with
    | next v => rw [he] at h; cases h; exact .inr (.inl ⟨i, t, v, ha, he, rfl⟩)
    | fault f => rw [he] at h; cases h
    | refused r => rw [he] at h; cases h
  · rename_i t ha; cases h; exact .inr (.inr (.inr ⟨t, ha, rfl⟩))
  · cases h

end Sys2Proof.Machine
end

