-- ==== Sys2Proof/Tests/Slice0.lean ====
section
/-! SUPPORT. Tests of the model: a word of every instruction decodes to it; every static check refuses a term; small
results worked out from the spec; and for every statement with hypotheses, states and operands that meet them. -/

namespace Sys2Proof.Tests

open Sys2Proof.Machine Sys2Proof.Claims

set_option Elab.async false

/-! ### Small states -/

/-- The state that an instruction answers. -/
def out : Out → State
  | .next t => t
  | _ => State.reset

/-- Whether an access answers a value and a state as p says. -/
def okWith {α : Type} (r : Res α) (p : α → State → Bool) : Bool :=
  match r with
  | .ok v t => p v t
  | .stop .. => false

theorem exOk {α : Type} {r : Res α} {p : α → State → Bool} (h : okWith r p = true) : ∃ v t, r = .ok v t ∧ p v t = true := by
  cases r with
  | ok v t => exact ⟨v, t, rfl, h⟩
  | stop w t => exact absurd h (by simp [okWith])

/-- Whether an access stops as p says. -/
def stopWith {α : Type} (r : Res α) (p : Stop → Bool) : Bool :=
  match r with
  | .ok .. => false
  | .stop w _ => p w

theorem exStop {α : Type} {r : Res α} {p : Stop → Bool} (h : stopWith r p = true) : ∃ w t, r = .stop w t ∧ p w = true := by
  cases r with
  | ok v t => exact absurd h (by simp [stopWith])
  | stop w t => exact ⟨w, t, rfl, h⟩

/-- A compute hart in U mode with 4 KiB of scratchpad, 32 accumulator rows and registers of 64 bytes, at VL = 4 under
the type code ew. -/
def user (ew : Nat) : Hart :=
  { Hart.init 0 .u 0x100000 with
    vec := { VecState.init with vrb := 64, vl := 4, vcfg := .ofNat 64 ew }
    lc := { LaunchCtx.init with scratch := 4096, accRows := 32, yokeAttr := true } }

/-- The machine of that hart alone, with registers set. -/
def one (ew : Nat) (xs : List (Fin 32 × Word)) : State :=
  { State.reset with h := xs.foldl (fun h p => h.set p.1 p.2) (user ew), others := [] }

/-- The same hart in S mode, where the stores of a supervisor work without translation set up. -/
def inMode (md : Mode) (s : State) : State := { s with h := { s.h with mode := md } }

/-- A Mantle hart alone, the lead, with registers set: its addresses are physical (R427). -/
def lead (xs : List (Fin 32 × Word)) : State :=
  { State.reset with h := xs.foldl (fun h p => h.set p.1 p.2) (Hart.mantleInit 0), others := [] }


/-- R28, R29, R50: words of the ALU class. Each row of the table once, its fields at distinct values laid out by its bit ranges. -/
theorem test_words_alu :
    decode 0x06AA6840 = .ok (.add 21 10 13 true) ∧
    decode 0x06AA6841 = .ok (.sub 21 10 13 true) ∧
    decode 0x06AA6802 = .ok (.and 21 10 13) ∧
    decode 0x06AA6803 = .ok (.or 21 10 13) ∧
    decode 0x06AA6804 = .ok (.xor 21 10 13) ∧
    decode 0x06AA6805 = .ok (.andn 21 10 13) ∧
    decode 0x06AA6846 = .ok (.sll 21 10 13 true) ∧
    decode 0x06AA6847 = .ok (.srl 21 10 13 true) ∧
    decode 0x06AA6848 = .ok (.sra 21 10 13 true) ∧
    decode 0x06AA6809 = .ok (.slt 21 10 13) ∧
    decode 0x06AA680A = .ok (.sltu 21 10 13) ∧
    decode 0x06AA680B = .ok (.min 21 10 13) ∧
    decode 0x06AA680C = .ok (.max 21 10 13) ∧
    decode 0x06AA680D = .ok (.minu 21 10 13) ∧
    decode 0x06AA680E = .ok (.maxu 21 10 13) ∧
    decode 0x06AA684F = .ok (.mul 21 10 13 true) ∧
    decode 0x06AA6810 = .ok (.mulh 21 10 13) ∧
    decode 0x06AA6811 = .ok (.mulhu 21 10 13) ∧
    decode 0x06AA6852 = .ok (.div 21 10 13 true) ∧
    decode 0x06AA6853 = .ok (.divu 21 10 13 true) ∧
    decode 0x06AA6854 = .ok (.rem 21 10 13 true) ∧
    decode 0x06AA6855 = .ok (.remu 21 10 13 true) ∧
    decode 0x06AA0016 = .ok (.clz 21 10) ∧
    decode 0x06AA0017 = .ok (.ctz 21 10) ∧
    decode 0x06AA0018 = .ok (.popc 21 10) := by
  decide +kernel

/-- R53 to R57: the immediate, upper, jump and branch words. -/
theorem test_words_immediate :
    decode 0x0AAA92C5 = .ok (.addi 21 10 37573) ∧
    decode 0x0EAA92C5 = .ok (.andi 21 10 37573) ∧
    decode 0x12AA92C5 = .ok (.ori 21 10 37573) ∧
    decode 0x16AA92C5 = .ok (.xori 21 10 37573) ∧
    decode 0x1AAA92C5 = .ok (.slti 21 10 37573) ∧
    decode 0x1EAA92C5 = .ok (.sltiu 21 10 37573) ∧
    decode 0x22AA002D = .ok (.slli 21 10 false 45) ∧
    decode 0x22AA402D = .ok (.srli 21 10 false 45) ∧
    decode 0x22AA802D = .ok (.srai 21 10 false 45) ∧
    decode 0x22AAC02D = .ok (.rori 21 10 false 45) ∧
    decode 0x26B2AB35 = .ok (.lui 21 1223477) ∧
    decode 0x2AB2AB35 = .ok (.addpc 21 1223477) ∧
    decode 0x2EBC0F53 = .ok (.jal 21 1838931) ∧
    decode 0x32AA92C5 = .ok (.jalr 21 10 37573) ∧
    decode 0x354DA35B = .ok (.beq 10 13 41819) ∧
    decode 0x394DA35B = .ok (.bne 10 13 41819) ∧
    decode 0x3D4DA35B = .ok (.blt 10 13 41819) ∧
    decode 0x414DA35B = .ok (.bge 10 13 41819) ∧
    decode 0x454DA35B = .ok (.bltu 10 13 41819) ∧
    decode 0x494DA35B = .ok (.bgeu 10 13 41819) := by
  decide +kernel

/-- R58 to R66: the load, store and AMO words. -/
theorem test_words_memory :
    decode 0x4EAA84B5 = .ok (.lb 21 10 .own 1205) ∧
    decode 0x4EAA8CB5 = .ok (.lbu 21 10 .own 1205) ∧
    decode 0x4EAA94B5 = .ok (.lh 21 10 .own 1205) ∧
    decode 0x4EAA9CB5 = .ok (.lhu 21 10 .own 1205) ∧
    decode 0x4EAAA4B5 = .ok (.lw 21 10 .own 1205) ∧
    decode 0x4EAAACB5 = .ok (.lwu 21 10 .own 1205) ∧
    decode 0x4EAAB4B5 = .ok (.ld 21 10 .own 1205) ∧
    decode 0x52AA84B5 = .ok (.sb 21 10 .own 1205) ∧
    decode 0x52AA94B5 = .ok (.sh 21 10 .own 1205) ∧
    decode 0x52AAA4B5 = .ok (.sw 21 10 .own 1205) ∧
    decode 0x52AAB4B5 = .ok (.sd 21 10 .own 1205) ∧
    decode 0x56AA6A70 = .ok (.amoswap 21 10 13 2 false true true true) ∧
    decode 0x56AA6A71 = .ok (.amoadd 21 10 13 2 false true true true) ∧
    decode 0x56AA6A72 = .ok (.amoand 21 10 13 2 false true true true) ∧
    decode 0x56AA6A73 = .ok (.amoor 21 10 13 2 false true true true) ∧
    decode 0x56AA6A74 = .ok (.amoxor 21 10 13 2 false true true true) ∧
    decode 0x56AA6A75 = .ok (.amomin 21 10 13 2 false true true true) ∧
    decode 0x56AA6A76 = .ok (.amomax 21 10 13 2 false true true true) ∧
    decode 0x56AA6A77 = .ok (.amominu 21 10 13 2 false true true true) ∧
    decode 0x56AA6A78 = .ok (.amomaxu 21 10 13 2 false true true true) ∧
    decode 0x56AA6A79 = .ok (.amocas 21 10 13 2 false true true true) := by
  decide +kernel

/-- R67 to R71: the fence, cache and CSR words. -/
theorem test_words_csr :
    decode 0x58000019 = .ok (.fence false true .dev .vs) ∧
    decode 0x5C0A04B5 = .ok (.cinv 10 1205) ∧
    decode 0x5C0A0CB5 = .ok (.cinvI 10 1205) ∧
    decode 0x5C2A04B5 = .ok (.cwb 10 1205) ∧
    decode 0x5C4A04B5 = .ok (.czero 10 1205) ∧
    decode 0x5C6A8CB5 = .ok (.pref 10 .own true 1205) ∧
    decode 0x62A008E1 = .ok (.csrr 21 2273) ∧
    decode 0x62AA18E1 = .ok (.csrw 21 10 2273) ∧
    decode 0x62AA28E1 = .ok (.csrs 21 10 2273) ∧
    decode 0x62AA38E1 = .ok (.csrc 21 10 2273) ∧
    decode 0x62A548E1 = .ok (.csrwi 21 5 2273) ∧
    decode 0x62A558E1 = .ok (.csrsi 21 5 2273) ∧
    decode 0x62A568E1 = .ok (.csrci 21 5 2273) := by
  decide +kernel

/-- R78 to R85, R369, R383: the SYS, MSG and PFX words. -/
theorem test_words_system :
    decode 0x64000000 = .ok .ecall ∧
    decode 0x64000001 = .ok .ebreak ∧
    decode 0x64000002 = .ok .tret ∧
    decode 0x64000003 = .ok .wfi ∧
    decode 0x640A6804 = .ok (.sfence 10 13) ∧
    decode 0x64000005 = .ok .yield ∧
    decode 0x64000006 = .ok .halt ∧
    decode 0x640A0007 = .ok (.thaw 10) ∧
    decode 0x6AA06800 = .ok (.ipop 21 13) ∧
    decode 0x6AA06801 = .ok (.ipopnb 21 13) ∧
    decode 0x680A6802 = .ok (.wmbind 10 13) ∧
    decode 0x680A6803 = .ok (.wmpub 10 13) ∧
    decode 0x6AAA0004 = .ok (.wmread 21 10) ∧
    decode 0x6D118000 = .ok (.pfx false true 2 6) := by
  decide +kernel

/-- R203, R213: VSETL and the VI words. -/
theorem test_words_vi :
    decode 0x82AA0016 = .ok (.vsetl 21 10 2 6) ∧
    decode 0x86AA6B40 = .ok (.vadd 21 10 13 false true 5) ∧
    decode 0x86AA6D41 = .ok (.vsub 21 10 13 true false 5) ∧
    decode 0x86AA6B42 = .ok (.vand 21 10 13 false true 5) ∧
    decode 0x86AA6D43 = .ok (.vor 21 10 13 true false 5) ∧
    decode 0x86AA6B44 = .ok (.vxor 21 10 13 false true 5) ∧
    decode 0x86AA6D45 = .ok (.vandn 21 10 13 true false 5) ∧
    decode 0x86AA6B46 = .ok (.vsll 21 10 13 false true 5) ∧
    decode 0x86AA6D47 = .ok (.vsrl 21 10 13 true false 5) ∧
    decode 0x86AA6B48 = .ok (.vsra 21 10 13 false true 5) ∧
    decode 0x86AA6D49 = .ok (.vmin 21 10 13 true false 5) ∧
    decode 0x86AA6B4A = .ok (.vmax 21 10 13 false true 5) ∧
    decode 0x86AA6D4B = .ok (.vminu 21 10 13 true false 5) ∧
    decode 0x86AA6B4C = .ok (.vmaxu 21 10 13 false true 5) ∧
    decode 0x86AA6D4D = .ok (.vmul 21 10 13 true false 5) ∧
    decode 0x86AA6B4E = .ok (.vmulh 21 10 13 false true 5) ∧
    decode 0x86AA6D4F = .ok (.vmulhu 21 10 13 true false 5) ∧
    decode 0x86AA6B50 = .ok (.vdiv 21 10 13 false true 5) ∧
    decode 0x86AA6D51 = .ok (.vdivu 21 10 13 true false 5) ∧
    decode 0x86AA6B52 = .ok (.vrem 21 10 13 false true 5) ∧
    decode 0x86AA6D53 = .ok (.vremu 21 10 13 true false 5) ∧
    decode 0x86AA6B54 = .ok (.vmacc 21 10 13 false true 5) ∧
    decode 0x86AA6D55 = .ok (.vsadd 21 10 13 true false 5) ∧
    decode 0x86AA6B56 = .ok (.vsaddu 21 10 13 false true 5) ∧
    decode 0x86AA6D57 = .ok (.vssub 21 10 13 true false 5) ∧
    decode 0x86AA6B58 = .ok (.vssubu 21 10 13 false true 5) ∧
    decode 0x86AA6D59 = .ok (.vabsd 21 10 13 true false 5) ∧
    decode 0x86AA015A = .ok (.vclz 21 10 false 5) ∧
    decode 0x86AA055B = .ok (.vctz 21 10 true 5) ∧
    decode 0x86AA015C = .ok (.vpopc 21 10 false 5) ∧
    decode 0x86AA055D = .ok (.vmv 21 10 true 5) := by
  decide +kernel

/-- R213: the VIX words. -/
theorem test_words_vix :
    decode 0x8AAA6940 = .ok (.vaddX 21 10 13 false 5) ∧
    decode 0x8AAA6D41 = .ok (.vsubX 21 10 13 true 5) ∧
    decode 0x8AAA6942 = .ok (.vandX 21 10 13 false 5) ∧
    decode 0x8AAA6D43 = .ok (.vorX 21 10 13 true 5) ∧
    decode 0x8AAA6944 = .ok (.vxorX 21 10 13 false 5) ∧
    decode 0x8AAA6D45 = .ok (.vandnX 21 10 13 true 5) ∧
    decode 0x8AAA6946 = .ok (.vsllX 21 10 13 false 5) ∧
    decode 0x8AAA6D47 = .ok (.vsrlX 21 10 13 true 5) ∧
    decode 0x8AAA6948 = .ok (.vsraX 21 10 13 false 5) ∧
    decode 0x8AAA6D49 = .ok (.vminX 21 10 13 true 5) ∧
    decode 0x8AAA694A = .ok (.vmaxX 21 10 13 false 5) ∧
    decode 0x8AAA6D4B = .ok (.vminuX 21 10 13 true 5) ∧
    decode 0x8AAA694C = .ok (.vmaxuX 21 10 13 false 5) ∧
    decode 0x8AAA6D4D = .ok (.vmulX 21 10 13 true 5) ∧
    decode 0x8AAA694E = .ok (.vmulhX 21 10 13 false 5) ∧
    decode 0x8AAA6D4F = .ok (.vmulhuX 21 10 13 true 5) ∧
    decode 0x8AAA6950 = .ok (.vdivX 21 10 13 false 5) ∧
    decode 0x8AAA6D51 = .ok (.vdivuX 21 10 13 true 5) ∧
    decode 0x8AAA6952 = .ok (.vremX 21 10 13 false 5) ∧
    decode 0x8AAA6D53 = .ok (.vremuX 21 10 13 true 5) ∧
    decode 0x8AAA6954 = .ok (.vmaccX 21 10 13 false 5) ∧
    decode 0x8AAA6D55 = .ok (.vsaddX 21 10 13 true 5) ∧
    decode 0x8AAA6956 = .ok (.vsadduX 21 10 13 false 5) ∧
    decode 0x8AAA6D57 = .ok (.vssubX 21 10 13 true 5) ∧
    decode 0x8AAA6958 = .ok (.vssubuX 21 10 13 false 5) ∧
    decode 0x8AAA6D59 = .ok (.vabsdX 21 10 13 true 5) ∧
    decode 0x8AA0695D = .ok (.vmvX 21 13 5) := by
  decide +kernel

/-- R224: the VF words. -/
theorem test_words_vf :
    decode 0x8EAA6D40 = .ok (.vfadd 21 10 13 true false 5) ∧
    decode 0x8EAA6B41 = .ok (.vfsub 21 10 13 false true 5) ∧
    decode 0x8EAA6D42 = .ok (.vfmul 21 10 13 true false 5) ∧
    decode 0x8EAA6B43 = .ok (.vfdiv 21 10 13 false true 5) ∧
    decode 0x8EAA6D44 = .ok (.vfmin 21 10 13 true false 5) ∧
    decode 0x8EAA6B45 = .ok (.vfmax 21 10 13 false true 5) ∧
    decode 0x8EAA6D46 = .ok (.vfmadd 21 10 13 true false 5) ∧
    decode 0x8EAA6B47 = .ok (.vfmsub 21 10 13 false true 5) ∧
    decode 0x8EAA6D48 = .ok (.vfnmadd 21 10 13 true false 5) ∧
    decode 0x8EAA6B49 = .ok (.vfnmsub 21 10 13 false true 5) ∧
    decode 0x8EAA6D4A = .ok (.vfsgnj 21 10 13 true false 5) ∧
    decode 0x8EAA6B4B = .ok (.vfsgnjn 21 10 13 false true 5) ∧
    decode 0x8EAA054C = .ok (.vfsqrt 21 10 true 5) ∧
    decode 0x8EAA014D = .ok (.vfrcp 21 10 false 5) ∧
    decode 0x8EAA054E = .ok (.vfrsq 21 10 true 5) ∧
    decode 0x8EAA014F = .ok (.vfexp2 21 10 false 5) ∧
    decode 0x8EAA0550 = .ok (.vflog2 21 10 true 5) ∧
    decode 0x8EAA0151 = .ok (.vfsin 21 10 false 5) ∧
    decode 0x8EAA0552 = .ok (.vfcos 21 10 true 5) ∧
    decode 0x8EAA0153 = .ok (.vfabs 21 10 false 5) ∧
    decode 0x8EAA0554 = .ok (.vfneg 21 10 true 5) ∧
    decode 0x8EAA0155 = .ok (.vfclass 21 10 false 5) := by
  decide +kernel

/-- R224: the VFX words. -/
theorem test_words_vfx :
    decode 0x92AA6D40 = .ok (.vfaddX 21 10 13 true 5) ∧
    decode 0x92AA6941 = .ok (.vfsubX 21 10 13 false 5) ∧
    decode 0x92AA6D42 = .ok (.vfmulX 21 10 13 true 5) ∧
    decode 0x92AA6943 = .ok (.vfdivX 21 10 13 false 5) ∧
    decode 0x92AA6D44 = .ok (.vfminX 21 10 13 true 5) ∧
    decode 0x92AA6945 = .ok (.vfmaxX 21 10 13 false 5) ∧
    decode 0x92AA6D46 = .ok (.vfmaddX 21 10 13 true 5) ∧
    decode 0x92AA6947 = .ok (.vfmsubX 21 10 13 false 5) ∧
    decode 0x92AA6D48 = .ok (.vfnmaddX 21 10 13 true 5) ∧
    decode 0x92AA6949 = .ok (.vfnmsubX 21 10 13 false 5) ∧
    decode 0x92AA6D4A = .ok (.vfsgnjX 21 10 13 true 5) ∧
    decode 0x92AA694B = .ok (.vfsgnjnX 21 10 13 false 5) := by
  decide +kernel

/-- R216, R218, R245, R247: the VCMP, VK, VDIV and REGION words. -/
theorem test_words_vcmp :
    decode 0x946A6D60 = .ok (.vseq 3 10 13 true false 5 true) ∧
    decode 0x946A6961 = .ok (.vsne 3 10 13 false false 5 true) ∧
    decode 0x946A6D62 = .ok (.vslt 3 10 13 true false 5 true) ∧
    decode 0x946A6963 = .ok (.vsltu 3 10 13 false false 5 true) ∧
    decode 0x946A6D64 = .ok (.vsle 3 10 13 true false 5 true) ∧
    decode 0x946A6965 = .ok (.vsleu 3 10 13 false false 5 true) ∧
    decode 0x946A6D66 = .ok (.vsgt 3 10 13 true false 5 true) ∧
    decode 0x946A6967 = .ok (.vsgtu 3 10 13 false false 5 true) ∧
    decode 0x946A6D68 = .ok (.vfeq 3 10 13 true false 5 true) ∧
    decode 0x946A6969 = .ok (.vfne 3 10 13 false false 5 true) ∧
    decode 0x946A6D6A = .ok (.vflt 3 10 13 true false 5 true) ∧
    decode 0x946A696B = .ok (.vfle 3 10 13 false false 5 true) ∧
    decode 0x946A6D6C = .ok (.vfunord 3 10 13 true false 5 true) ∧
    decode 0x98661140 = .ok (.kand 3 6 2 5) ∧
    decode 0x98661141 = .ok (.kor 3 6 2 5) ∧
    decode 0x98661142 = .ok (.kxor 3 6 2 5) ∧
    decode 0x98661143 = .ok (.kandn 3 6 2 5) ∧
    decode 0x98660144 = .ok (.knot 3 6 5) ∧
    decode 0x98660145 = .ok (.kmov 3 6 5) ∧
    decode 0x98600146 = .ok (.kset 3 5) ∧
    decode 0x98600147 = .ok (.kclr 3 5) ∧
    decode 0x9AA60148 = .ok (.kpopc 21 6 5) ∧
    decode 0x9AA60149 = .ok (.kfirst 21 6 5) ∧
    decode 0x9866014A = .ok (.ksbf 3 6 5) ∧
    decode 0x9866014B = .ok (.ksif 3 6 5) ∧
    decode 0x9866014C = .ok (.ksof 3 6 5) ∧
    decode 0x9C000140 = .ok (.pushm 5) ∧
    decode 0x9C000141 = .ok (.elsem 5) ∧
    decode 0x9C000002 = .ok .popm ∧
    decode 0x9C000143 = .ok (.kbreak 5) ∧
    decode 0xA0A0A35B = .ok (.region 5 41819) := by
  decide +kernel

/-- R237, R241, R231: the VPERM, VRED and VCVT words. -/
theorem test_words_vperm :
    decode 0xA6AA6B40 = .ok (.vgather 21 10 13 false true 5) ∧
    decode 0xA6AA6D41 = .ok (.vslideup 21 10 13 true 5) ∧
    decode 0xA6AA6942 = .ok (.vslidedn 21 10 13 false 5) ∧
    decode 0xA6AA6D43 = .ok (.vslide1up 21 10 13 true 5) ∧
    decode 0xA6AA6944 = .ok (.vslide1dn 21 10 13 false 5) ∧
    decode 0xA6AA0545 = .ok (.vcompress 21 10 true 5) ∧
    decode 0xA6AA0146 = .ok (.vexpand 21 10 false 5) ∧
    decode 0xA6A00147 = .ok (.viota 21 5) ∧
    decode 0xA6AA6948 = .ok (.vbcast 21 10 13 false 5) ∧
    decode 0xA6AA6C09 = .ok (.vext 21 10 13 true) ∧
    decode 0xA6AA694A = .ok (.vins 21 10 13 5) ∧
    decode 0xA6AA054B = .ok (.vconflict 21 10 true 5) ∧
    decode 0xAAAA6B40 = .ok (.vredSum 21 10 13 false true 5) ∧
    decode 0xAAAA6D41 = .ok (.vredMin 21 10 13 true false 5) ∧
    decode 0xAAAA6B42 = .ok (.vredMax 21 10 13 false true 5) ∧
    decode 0xAAAA6D43 = .ok (.vredMinu 21 10 13 true false 5) ∧
    decode 0xAAAA6B44 = .ok (.vredMaxu 21 10 13 false true 5) ∧
    decode 0xAAAA6D45 = .ok (.vredAnd 21 10 13 true false 5) ∧
    decode 0xAAAA6B46 = .ok (.vredOr 21 10 13 false true 5) ∧
    decode 0xAAAA6D47 = .ok (.vredXor 21 10 13 true false 5) ∧
    decode 0xAAAA6B48 = .ok (.vredFsum 21 10 13 false true 5) ∧
    decode 0xAAAA6D49 = .ok (.vredFmin 21 10 13 true false 5) ∧
    decode 0xAAAA6B4A = .ok (.vredFmax 21 10 13 false true 5) ∧
    decode 0xAAAA054B = .ok (.vscanSum 21 10 true 5) ∧
    decode 0xAAAA014C = .ok (.vscanFsum 21 10 false 5) ∧
    decode 0xAEAA0559 = .ok (.vcvt 21 10 true 5 true 9) := by
  decide +kernel

/-- R250 to R258: the vector memory words. -/
theorem test_words_vmem :
    decode 0xB2AA0292 = .ok (.vldUnit 21 10 5 .own 1) ∧
    decode 0xB2AA6AB2 = .ok (.vldStrided 21 10 13 5 .own 1) ∧
    decode 0xB2AA6ED2 = .ok (.vldIndexed 21 10 13 true 5 .own 1) ∧
    decode 0xB2AA1AF2 = .ok (.vldSegment 21 10 3 5 .own 1) ∧
    decode 0xB6AA0292 = .ok (.vstUnit 21 10 5 .own 1) ∧
    decode 0xB6AA6AB2 = .ok (.vstStrided 21 10 13 5 .own 1) ∧
    decode 0xB6AA6ED2 = .ok (.vstIndexed 21 10 13 true 5 .own 1) ∧
    decode 0xB6AA1AF2 = .ok (.vstSegment 21 10 3 5 .own 1) ∧
    decode 0xBAAA0292 = .ok (.vldff 21 10 5 .own 1) ∧
    decode 0xBAAA0030 = .ok (.vldw 21 10 .own) ∧
    decode 0xBAAA0050 = .ok (.vstw 21 10 .own) ∧
    decode 0xBAAA6AF2 = .ok (.vldslide 21 10 13 5 .own 1) ∧
    decode 0xBEAA6E80 = .ok (.vamoswap 21 10 13 true 5) ∧
    decode 0xBEAA6A88 = .ok (.vamoadd 21 10 13 false 5) ∧
    decode 0xBEAA6E90 = .ok (.vamoand 21 10 13 true 5) ∧
    decode 0xBEAA6A98 = .ok (.vamoor 21 10 13 false 5) ∧
    decode 0xBEAA6EA0 = .ok (.vamoxor 21 10 13 true 5) ∧
    decode 0xBEAA6AA8 = .ok (.vamomin 21 10 13 false 5) ∧
    decode 0xBEAA6EB0 = .ok (.vamomax 21 10 13 true 5) ∧
    decode 0xBEAA6AB8 = .ok (.vamominu 21 10 13 false 5) ∧
    decode 0xBEAA6EC0 = .ok (.vamomaxu 21 10 13 true 5) ∧
    decode 0xBEAA6AC8 = .ok (.vamocas 21 10 13 false 5) := by
  decide +kernel

/-- R350, R368, R380: the YOKE, STRM and XCOL words. -/
theorem test_words_yoke :
    decode 0xC00A0000 = .ok (.yattach 10) ∧
    decode 0xC0000001 = .ok .ydetach ∧
    decode 0xC00A0002 = .ok (.yzero 10) ∧
    decode 0xC00A6803 = .ok (.yldb 10 13) ∧
    decode 0xC00A6804 = .ok (.ymma 10 13) ∧
    decode 0xC0000005 = .ok .yrot ∧
    decode 0xC2AA0016 = .ok (.ydrain 21 10 1) ∧
    decode 0xC0000007 = .ok .ywait ∧
    decode 0xC6AA1000 = .ok (.sbind 21 10 2) ∧
    decode 0xC4001001 = .ok (.sunbind 2) ∧
    decode 0xC6AA0002 = .ok (.scopy 21 10) ∧
    decode 0xC6A01003 = .ok (.savail 21 2) ∧
    decode 0xCAAA0000 = .ok (.xall 21 10) ∧
    decode 0xCAAA0001 = .ok (.xred 21 10) := by
  decide +kernel

/-- R285: the GFX and TRAV words. -/
theorem test_words_gfx :
    decode 0xCEAA6940 = .ok (.tex 21 10 13 false 5) ∧
    decode 0xCEA00001 = .ok (.span 21) ∧
    decode 0xCEAA6942 = .ok (.blend 21 10 13 false 5) ∧
    decode 0xCC6A6D43 = .ok (.hizq 3 10 13 true 5) ∧
    decode 0xD2AA6B40 = .ok (.gbox 21 10 13 false true 5) ∧
    decode 0xD2AA6D41 = .ok (.gtri 21 10 13 true false 5) ∧
    decode 0xD2AA6942 = .ok (.gwalk 21 10 13 false 5) ∧
    decode 0xD2AA6D43 = .ok (.ghit 21 10 13 true 5) ∧
    decode 0xD2AA6944 = .ok (.vmarch 21 10 13 false 5) ∧
    decode 0xD2AA6D45 = .ok (.vrand 21 10 13 true 5) := by
  decide +kernel


/-! ### States and operands that meet the hypotheses of the statements -/

theorem wit_jumps :
    ([0, 4].all fun (i : BitVec 16) => ((one 0 [(5, 0x1000)]).x 5 + .ofInt 64 i.toInt).toNat % 4 == 0) ∧
    ([1, 3, 0xFFFF].all fun (i : BitVec 16) => ((one 0 [(5, 0x1000)]).x 5 + .ofInt 64 i.toInt).toNat % 4 != 0) := by
  decide +kernel

/-- Loads and stores: of the local window, of physical memory, and ones that stop. -/
theorem wit_loadsAndStores : ∀ n ∈ [1, 2, 4, 8],
    okWith ((one 0 []).scalarLoad 0x7F0000000000 n .self) (fun v _ => decide (v < 256 ^ n)) ∧
    okWith ((lead []).scalarLoad 0x1000 n .thru) (fun v _ => decide (v < 256 ^ n)) ∧
    stopWith ((one 0 []).scalarLoad 0x1000000000000 n .self) (fun _ => true) ∧
    okWith ((lead []).scalarStore 0x1000 n .self 5) (fun b _ => !b) ∧
    stopWith ((one 0 []).scalarStore 0x7F0100000000 n .self 5) (fun _ => true) := by
  decide +kernel

/-- A Mantle hart that is lead, with firmware measured and quiesced. -/
def armed : State :=
  let s := lead [(7, 3)]
  { s with fw := { s.fw with req := true, state := 3 }, h := { s.h with mant := { s.h.mant with stopped := true } } }

/-- The lead's store to FWCMD that is accepted. -/
theorem wit_switchStore : okWith (armed.scalarStore 0x3FE00004018 8 .thru 3) (fun b _ => b) := by
  decide +kernel

/-- The first and the last piece of the scratchpad, with its words correct and not. -/
theorem wit_localWindow : ∀ n ∈ [1, 2, 4, 8],
    (InWindow (one 0 [(5, 0x7F0000000000)]) (addrOf (one 0 [(5, 0x7F0000000000)]) 5 0) n ∧
      InWindow (one 0 [(5, 0x7F0000001000 - .ofNat 64 n)]) (addrOf (one 0 [(5, 0x7F0000001000 - .ofNat 64 n)]) 5 0) n ∧
      (1, 0) ∉ (one 0 []).h.badPool ∧ (1, 0) ∈ ({ (user 0) with badPool := [(1, 0)] }).badPool) := by
  unfold InWindow; decide +kernel

/-- The ends of the address ranges of the checks. -/
theorem wit_addressChecks : ∀ n ∈ [1, 2, 4, 8],
    2 ^ 48 ≤ (addrOf (one 0 [(5, 0x1000000000000)]) 5 0).toNat ∧
    (let ea := addrOf (one 0 [(5, 0x7F0000001001 - .ofNat 64 n)]) 5 0
     0x7F0000000000 ≤ ea.toNat ∧ ea.toNat < 0x7F0100000000 ∧ (one 0 []).h.lc.scratch < windowOff ea + n) ∧
    (let ea := addrOf (one 0 [(5, 0x7F0000000001)]) 5 0
     n ≠ 1 → 0x7F0000000000 ≤ ea.toNat ∧ windowOff ea + n ≤ (one 0 []).h.lc.scratch ∧ ea.toNat % n ≠ 0) ∧
    (let ea := addrOf (one 0 [(5, 0x7F01FFFFFFFF)]) 5 0
     0x7F0100000000 ≤ ea.toNat ∧ ea.toNat < 0x7F0200000000) := by
  decide +kernel

/-- The core waits for a word: a request of another core is outstanding there. -/
def busyAt (s : State) (a : Nat) : State :=
  { s with coh := { s.coh with txns := [⟨Req.of .trkStore (some 9) a, [10]⟩] } }

/-- Atomics in physical memory, in the local window, at an address that faults, and at a word that is busy. -/
theorem wit_atomics : ∀ n ∈ [4, 8], ∀ f ∈ [true, false],
    okWith ((lead []).locate 0x1000 n true .both false 0) (fun l t =>
      okWith (t.amoLoc l 0x1000 n f .add 1 0) fun v _ => decide (v < 256 ^ n)) ∧
    stopWith ((one 0 []).locate 0x1000000000000 n true .both false 0) (fun _ => true) ∧
    okWith ((busyAt (lead []) 0x1000).locate 0x1000 n true .both false 0) (fun l t =>
      stopWith (t.amoLoc l 0x1000 n f .add 1 0) fun w => w == .wait (.word 0x1000)) ∧
    InWindow (one 0 [(5, 0x7F0000000FF8)]) ((one 0 [(5, 0x7F0000000FF8)]).x 5) n := by
  unfold InWindow; decide +kernel

/-- Cache operations in the local window, in memory, and at an address that faults. -/
theorem wit_caches : ∀ need ∈ [Need.read, .exec, .write],
    okWith ((one 0 []).locate 0x7F0000000FFF 1 false need false 0) (fun l _ => l == .scratch 4095) ∧
    okWith ((lead []).locate 0x1000 1 false need false 0) (fun l t => l == .phys 4096 && !t.lostPeer 4096) ∧
    stopWith ((one 0 []).locate 0x1000000000000 1 false need false 0) (fun _ => true) := by
  decide +kernel

/-- A CSR that a hart in U mode reads and writes, and one that makes a CSR instruction wait. -/
theorem wit_csrs : (user 0).csrReadable 0 = true ∧ (user 0).csrWritable 0 = true ∧
    ¬(csrWaits 0 = true ∧ (user 0).yokeBusy = true) ∧ (user 0).csrReadable 0x100 = true := by
  decide +kernel

/-- A trap of user code to the supervisor, one of the handler's first instruction, and one of the host's. -/
theorem wit_traps :
    (user 0).claim (.sync 1 8) = 0 ∧ (user 0).trap.fresh ≠ some (TrapInfo.sync 1 8).key ∧ (user 0).lc.launch = none ∧
    (let h : Hart := { user 0 with lc := { (user 0).lc with launch := some 3 }, trap := { (user 0).trap with fresh := some 1 } }
     h.claim (.sync 1 8) = 0 ∧ h.lc.launch = some 3 ∧ h.trap.fresh = some (TrapInfo.sync 1 8).key) ∧
    (user 0).claim (.sync 8 0) = 1 ∧ (user 0).mode = .u ∧ (inMode .s (one 0 [])).h.mode = .s ∧ (lead []).h.mode = .m ∧
    (TrapInfo.sync 0 0).code < 12 ∧ (TrapInfo.sync 11 0).code < 12 ∧ (TrapInfo.sync 0 0).intr = false := by
  decide +kernel

/-- A handler that returns to code with and without a window to run again. -/
theorem wit_trapReturn : (inMode .s (one 0 [])).h.mode ≠ .u ∧
    (flag (inMode .s (one 0 [])).h.trap.tstatus 5 && flag (inMode .s (one 0 [])).h.trap.tchain 63) = false ∧
    (let t : TrapState := { TrapState.init with tstatus := 32, tchain := 0x8000000000000000 }
     (flag t.tstatus 5 && flag t.tchain 63) = true) := by
  decide +kernel

/-- Each reason why a CSR instruction is illegal. -/
theorem wit_csrRefused :
    (user 0).csrExists 0xFFF = false ∧ ((user 0).mode = .u ∧ 1024 ≤ 0x400) ∧
    ((inMode .s (one 0 [])).h.mode = .s ∧ 2048 ≤ 0x800) ∧ 0x100 / 256 % 4 = 1 ∧ (0x200 / 256 % 4 = 2 ∧ (user 0).mode = .u) := by
  decide +kernel

/-- What wakes a WFI, and a prefix's word. -/
theorem wit_waitsAndPrefixes :
    ({ (user 0) with inbox := ⟨[(1, 2)], []⟩ }).inbox.posted ≠ [] ∧ ({ (user 0) with irqs := [(0, 0)] }).irqs ≠ [] ∧
    (user 0).inbox.posted = [] ∧ (user 0).irqs = [] ∧ (user 0).lc.haltReq = false ∧ (user 0).lc.preempt = false ∧
    encode (.pfx true true 7 31) = some 0x6F3FC000 := by
  decide +kernel

theorem wit_translationFence : (inMode .s (one 0 [])).h.mode ≠ .u ∧ ((one 0 [(6, 65535)]).x 6).toNat < 65536 := by
  decide +kernel

/-- Owner state of a THAW: hart 4 of core 1 in context c, with a status. -/
def withOther (s : State) (c : Nat) (w : Status) : State :=
  { s with others := [{ Hart.init 4 .u 0 with ctxid := c, status := w }] }

/-- A Yoke operation that is open, or one that has failed. -/
def pending (fail : Option YokeFail) : YokeOp :=
  { word := 0xC0000002, xa := 0, xb := 0, prog := 0, epoch := 0, head := [], src := none, bad := [], user := true, fail := fail }

def withOps (s : State) (ops : List YokeOp) : State := { s with h := { s.h with yops := ops } }

theorem wit_haltAndThaw :
    (lead []).h.mode = .m ∧ (one 0 []).h.mode ≠ .m ∧
    okWith ((one 0 []).yokeWait fun _ => true) (fun _ t => t.h.copies == [] && t.h.colls == [] && t.h.sleeves == []) ∧
    stopWith ((withOps (one 0 []) [pending none]).yokeWait fun _ => true) (fun w => w == .wait .yoke) ∧
    (∀ w ∈ [Status.frozen ⟨8, 8, 1, 0⟩, .run], ∀ c ∈ [0, 7],
      let s := withOther (inMode .s (one 0 [(5, 4)])) c w
      s.h.mode ≠ .u ∧ s.hart? 4 = some { Hart.init 4 .u 0 with ctxid := c, status := w } ∧
      s.link.module < 1024 ∧ s.x 5 = .ofNat 64 (s.link.module * 65536 + 4)) := by
  decide +kernel

theorem wit_inbox :
    (user 0).pfx = none ∧ ({ (user 0) with inbox := ⟨[(1, 2), (3, 4)], []⟩ }).inbox.posted = (1, 2) :: [(3, 4)] ∧
    (user 0).inbox.posted = [] ∧ (user 0).inbox.resv = [] ∧ ({ (user 0) with inbox := ⟨[], [(1, 1)]⟩ }).inbox.resv ≠ [] := by
  decide +kernel

/-- A watermark bound by ASID o. -/
def withWm (s : State) (o : Nat) : State :=
  { s with sched := { s.sched with wms := [{ num := 4095, base := 64, limit := 128, value := 3, owner := o }] } }

theorem wit_watermarks :
    4096 ≤ ((one 0 [(5, 4096)]).x 5).toNat ∧ ((one 0 [(5, 4095)]).x 5).toNat < 4096 ∧
    (∃ w, (withWm (one 0 []) 0).wm? 4095 = some w ∧ w.owner = 0) ∧
    (∃ w, (withWm (one 0 []) 7).wm? 4095 = some w ∧ (w.owner != 0) = true) ∧
    (one 0 []).wm? 4095 = none ∧ (inMode .s (one 0 [])).h.mode = .s ∧ (one 0 []).x 6 = 0 ∧
    ((one 0 [(6, 4)]).x 6).toNat % 8 ≠ 0 ∧ ((one 0 [(6, 0x7F0000000000)]).x 6).toNat % 8 = 0 ∧
    stopWith ((one 0 []).scalarLoad 0x1000000000000 8 .thru) (fun _ => true) ∧
    okWith ((one 0 []).scalarLoad 0x7F0000000000 8 .thru) (fun b t =>
      okWith (t.scalarLoad 0x7F0000000008 8 .thru) fun l _ => decide (b ≤ l)) ∧
    (let s := { (one 0 []) with h := { (user 0) with scratch := Memory.write [] 0 8 1 } }
     okWith (s.scalarLoad 0x7F0000000000 8 .thru) (fun b t =>
      okWith (t.scalarLoad 0x7F0000000008 8 .thru) fun l _ => decide (l < b))) :=
  ⟨by decide +kernel, by decide +kernel, ⟨_, rfl, rfl⟩, ⟨_, rfl, rfl⟩, by decide +kernel, by decide +kernel, by decide +kernel,
    by decide +kernel, by decide +kernel, by decide +kernel, by decide +kernel, by decide +kernel⟩

theorem wit_setVectorLength : (user 0).vectorOk = true ∧ (lead []).h.vectorOk = false := by decide +kernel

/-! Vector instructions: for each use that the statements name, a hart for which nothing stands in the way, and for one
use a hart for which each thing does. -/

/-- Whether an instruction that uses u of s gets to its own part. -/
def opens (s : State) (u : VUse) : Bool :=
  !s.h.isMantle && !flag s.h.trap.tchain 63 && u.ok && !s.h.badUse u &&
  okWith ((s.readUse u).rooms u.dsts) fun _ r => okWith (r.consume u.srcs) fun _ _ => true

/-- A binding of v8 in slot 3, to be read or written, of elements where no virtual address lies. -/
def binding (write : Bool) : Sleeve :=
  { slot := 3, reg := 8, base := 0x1000000000000, stride := 0, count := 4, fmt := 2, write := write, depth := 1,
    tag := 0, sbase := 0, sstride := 0, user := true, spt := 0, pos := 0, ahead := 0, held := none, pend := [],
    overf := false, failed := none, done := 0, closing := false }

/-- A hart whose v8 takes the elements of that stream. -/
def feedsNothing : State := { (one 2 []) with h := { (user 2) with sleeves := [binding false] } }

/-- A hart whose v8 goes to that stream, in whose buffer stand 16 KiB that its frozen engine does not write. -/
def fullBuffer : State := { (one 2 []) with
  h := { (user 2) with sleeves := [{ (binding true) with count := 8192, pend := List.replicate 4096 (2, 0) }] }
  host := { HostIf.init with frozenEng := [⟨engStream, 0, 0, 0, 2⟩] } }

theorem wit_runs_stopped :
    (lead []).h.isMantle = true ∧ ((user 6).use (decide ((user 6).ew < 4)) 4 [8, 12] 0 false).ok = false ∧
    ({ (user 2) with badPool := [(0, 4096)] }).badUse ((user 2).use true 4 [8, 12] 0 false) = true ∧
    okWith ((feedsNothing.readUse ((user 2).use true 4 [8, 12] 0 false)).rooms [4]) (fun _ r =>
      stopWith (r.consume [8, 12]) fun _ => true) ∧
    stopWith (fullBuffer.rooms [8]) (fun _ => true) ∧
    (feedsNothing.h.use true 4 [8, 12] 0 false).ok = true := by
  decide +kernel

/-- The uses of the element-wise, comparing, converting, permuting and reducing members. -/
theorem wit_runs_arithmetic :
    (∀ ew ∈ [0, 1, 2, 3], let h := user ew
      let i := decide (h.ew < 4)
      opens (one ew []) (h.use i 4 [8, 12] 1 false) ∧ opens (one ew []) (h.use i 4 [8] 1 false) ∧
      opens (one ew []) (h.use i 4 [8, 12] 1 true) ∧ opens (one ew []) (h.use i 4 [8] 1 true) ∧
      opens (one ew []) (h.use i 4 [] 1 false) ∧ opens (one ew []) (pickUse (one ew []) i 4 [8, 12] 1) ∧
      opens (one ew []) (redUse (one ew []) i 4 8 12 1) ∧ opens (one ew []) (cmpUse (one ew []) false 3 8 12 1 false) ∧
      opens (one ew []) (cmpUse (one ew []) false 3 8 12 1 true) ∧ opens (one ew []) (h.use (!decide (4 ≤ h.ew)) 4 [8, 12] 1 false)) ∧
    (∀ ew ∈ [4, 5, 6, 7], let h := user ew
      let f := decide (4 ≤ h.ew)
      opens (one ew []) (h.use f 4 [8, 12] 1 false) ∧ opens (one ew []) (h.use f 4 [8] 1 false) ∧
      opens (one ew []) (h.use f 4 [8, 12] 1 true) ∧ opens (one ew []) (h.use f 4 [8] 1 true) ∧
      opens (one ew []) (h.use true 4 [8, 12] 1 false) ∧ opens (one ew []) (h.use true 4 [] 1 false) ∧
      opens (one ew []) (cmpUse (one ew []) true 3 8 12 1 false) ∧ opens (one ew []) (cmpUse (one ew []) true 3 8 12 1 true)) ∧
    (∀ c ∈ [0, 6, 7, 10, 13], let h := user 6
      let gd := max 1 (h.grp * codeBytes c / h.eb)
      let ok := decide (c < 14) && !(false && decide (4 ≤ h.ew)) && decide (gd ≤ 8) &&
        (if gd = h.grp then (4 : Nat) == 8 || !overlap 4 gd 8 h.grp else !overlap 4 gd 8 h.grp) &&
        h.srcsOk [8] && h.destsOk 4 (cvtEw c) gd &&
        (decide (gd ≤ h.grp) || (h.runFree 4 gd && (h.vcpy == 0 || h.runFree h.vcpy gd)))
      opens (one 6 []) { ok := ok, srcs := [8], reads := [(8, h.eb)], masks := [1], act := some 1, dsts := h.dests 4 }) ∧
    opens (one 2 []) { ok := (user 2).srcsOk [8], srcs := [8], reads := [], masks := [], useE := false, whole := true,
                       only := [(8, 4, 3)] } := by
  decide +kernel

/-- The uses of the vector memory members. -/
theorem wit_runs_memory :
    (∀ m ∈ [VForm.unit, .stride 8, .indexed 12, .segment 8], let h := user 2
      opens (one 2 []) (h.loadUse m 4 1 2) ∧ opens (one 2 []) (storeUse h m 4 1 2)) ∧
    opens (one 2 []) { ok := runOk 4 (user 2).grp 1, srcs := [], reads := [], masks := [], useE := false } ∧
    opens (one 2 []) { (user 2).use ((user 2).widthOk 2) 4 [] 1 true with whole := true } ∧
    (∀ ew ∈ [2, 3], opens (one ew []) (vamoUse (user ew) .add 4 12 1) ∧ opens (one ew []) (vamoUse (user ew) .cas 4 12 1)) := by
  decide +kernel

/-- The uses of YDRAIN and of the pixel and traversal units. -/
theorem wit_runs_units : let s := one 6 []
    let h := s.h
    let f := h.ew == 6
    opens s (h.use (decide (4 ≤ 9) && decide ((0x9FFF : Word) &&& 0x9FFF = 0x9FFF)) 4 [] 0 false) ∧
    opens s { ok := f && (3 : Fin 8) != 0 && h.srcsOk [8], srcs := [8], reads := [(8, h.eb)], masks := [1], act := some 1 } ∧
    opens s (h.blendUse 4 8 1) ∧
    opens s (h.runUse f (some ⟨4, 4, false⟩) [⟨8, 4, false⟩] 1) ∧
    opens s (h.runUse f (some ⟨0, 6, true⟩) [⟨8, 8, false⟩, ⟨16, 2, true⟩] 1) ∧
    opens s (h.runUse f (some ⟨4, 4, false⟩) [⟨8, 8, false⟩, ⟨16, 2, true⟩] 1) ∧
    opens s (h.runUse f (some ⟨0, 8, true⟩) [⟨8, 10, true⟩] 1) ∧
    opens s (h.runUse f (some ⟨0, 10, true⟩) [⟨10, 9, false⟩] 1) ∧
    opens s (h.runUse f (some ⟨0, 3, true⟩) [⟨4, 10, true⟩] 1) ∧
    (let ok := [2, 3, 6, 7].contains h.ew && h.runLegal h.grp ⟨8, 2, true⟩ && h.destsOk 4 h.ew h.grp && !overlap 4 h.grp 8 2
     opens s { ok := ok, srcs := [], reads := [(8, 8)], masks := [1], act := some 1, dsts := h.dests 4 }) := by
  decide +kernel

theorem wit_floatNans : ∀ f ∈ [fmt16, fmtBf16, fmt32, fmt64],
    (f.decode f.nan).isNan = true ∧ (f.decode f.nan).isSig = false ∧ (f.decode 0).isNan = false ∧
    (f.decode ((2 ^ f.ebits - 1) * 2 ^ f.fbits + 1)).isSig = true := by
  decide +kernel

/-- A hart whose k1 has bits 1 and 3 set. -/
def masked : Hart := { (user 2) with vec := { (user 2).vec with k := (user 2).vec.k.set 1 10 } }

theorem wit_maskRegisters : IsFirst masked 1 0 1 ∧ IsFirst masked 2 0 4 ∧ masked.vectorOk = true ∧
    masked.badUse (maskUse true [0, 1, 2]) = false ∧ (lead []).h.vectorOk = false := by
  unfold IsFirst; decide +kernel

theorem wit_maskStack :
    (user 2).vectorOk = true ∧ (user 2).badUse (divUse (user 2) true [1] true true) = false ∧
    (user 2).badUse (divUse (user 2) true [1] false true) = false ∧ (user 2).vec.stack = [] ∧
    (List.replicate 15 ((0 : Mask), 4)).length ≠ 16 ∧ (List.replicate 16 ((0 : Mask), 4)).length = 16 ∧
    (1 : BitVec 16) ≠ 0 := by
  decide +kernel

theorem wit_elements : (∀ eb ∈ [1, 2, 4, 8], eb ∈ [1, 2, 4, 8] ∧ eb ≤ 8 ∧ 8 ≤ 4096 ∧ eb ≤ 4096 ∧ 4096 ≤ 4096) ∧
    (elemAddr 64 4 8 0 ≠ elemAddr 64 4 8 1) := by
  decide +kernel

/-- A hart under a vector prefix whose copy is v9. -/
def copying : Hart :=
  { (user 2) with trap := { (user 2).trap with pfxstate := 0x800000006E1A4000, pfxLive := true } }

theorem wit_elementWise : (user 2).lim = none ∧ (user 2).bound 4 = none ∧ (user 2).vcpy = 0 ∧
    copying.lim = none ∧ copying.bound 4 = none ∧ copying.vcpy = 9 ∧ copying.bound 9 = none := by
  decide +kernel

/-- A hart with a grant of 16 rows whose scratchpad holds at 0 a descriptor of word w. -/
def granted (w : Nat) (ops : Nat) : State :=
  { (one 2 [(6, 0)]) with h := { (user 2) with
      ygrant := 16, yops := List.replicate ops (pending none), scratch := Memory.write [] 0 4 w } }

theorem wit_yoke :
    okWith ((one 2 []).yokeWait fun _ => true) (fun _ _ => true) ∧
    stopWith ((withOps (one 2 []) [pending (some ⟨7, 0, 0⟩)]).yokeWait fun _ => true) (fun _ => true) ∧
    (granted 0 7).h.openOps < 8 ∧ 8 ≤ (granted 0 8).h.openOps ∧ (granted 0 0).h.grantRows ≠ 0 ∧
    (0x1F0000 : Word) &&& 0x1FFF1FFF = 0x1F0000 ∧ field (0x1F0000 : Word) 0 13 + field (0x1F0000 : Word) 16 13 + 1 ≤ 32 ∧
    (0x200000 : Word) &&& 0x1FFF1FFF = 0x200000 ∧ 32 < field (0x200000 : Word) 0 13 + field (0x200000 : Word) 16 13 + 1 ∧
    (let s := granted 0x1000000 0
     s.h.descFault 5 = none ∧ s.h.latchOk 5 6 = true ∧ (s.h.desc 5 0 4).testBit 8 = false ∧
     s.h.operandFault (s.h.desc 5 0 4 % 32) (s.h.desc 5 4 4) (s.h.desc 5 8 4) (s.h.desc 5 12 4) (s.h.desc 5 16 4)
       (s.h.xb 6).toNat (s.h.desc 5 0 4 / 2 ^ 24 % 16) 32 = none) ∧
    (let s := granted 0x300 0
     posOk (s.h.xb 6) = true ∧ s.h.descFault 5 = none ∧ s.h.aDescOk 5 = true ∧
     field (s.h.xb 6) 32 13 + (s.h.desc 5 0 4 / 256 + 1) ≤ s.h.lc.accRows ∧
     s.h.operandFault (s.h.desc 5 0 4 % 32) (s.h.desc 5 4 4) (s.h.desc 5 8 4) (s.h.desc 5 12 4) (s.h.desc 5 16 4)
       (field (s.h.xb 6) 0 16) (field (s.h.xb 6) 52 3 + 1) (s.h.desc 5 0 4 / 256 + 1) = none) := by
  decide +kernel

/-- A hart whose scratchpad holds at 0 a binding record of count n. -/
def record (n : Nat) : State :=
  { (one 2 [(5, 0x7F0000000000)]) with h := { (one 2 [(5, 0x7F0000000000)]).h with
      scratch := ((Memory.write [] 0 8 0x1000).write 16 8 n).write 24 8 0x10002 } }

theorem wit_streams :
    (record 1).h.vectorOk = true ∧ (record 1).h.feeding 3 = false ∧ ((record 1).x 5).toNat % 64 = 0 ∧
    okWith ((record 1).recordWords 0x7F0000000000 8) (fun ws t =>
      bindingOk ws && (t.h.bound 8).isNone && (t.h.unbind 3).isSome) ∧
    okWith ((record 0).recordWords 0x7F0000000000 8) (fun ws _ => !bindingOk ws) ∧
    ((one 2 [(5, 8)]).x 5).toNat % 64 ≠ 0 ∧
    (let h := { (user 2) with sleeves := [binding true], inbox := ⟨[], List.replicate 32 (0, 1)⟩ }
     h.unbind 3 = none ∧ ∃ c, h.bound 8 = some c ∧ c.slot ≠ 2) :=
  ⟨by decide +kernel, by decide +kernel, by decide +kernel, by decide +kernel, by decide +kernel, by decide +kernel,
    by decide +kernel, ⟨_, rfl, by decide⟩⟩

theorem wit_asynchronous :
    (user 2).vectorOk = true ∧ ((one 2 [(5, 64)]).x 5).toNat % 64 = 0 ∧ ((one 2 [(5, 32)]).x 5).toNat % 32 = 0 ∧
    ((one 2 [(5, 16)]).x 5).toNat % 32 ≠ 0 ∧ (user 2).inbox.posted.length + (user 2).inbox.resv.length < 32 ∧
    (let i : Inbox := ⟨[(0, 0)], List.replicate 30 (0, 1)⟩; i.posted.length + i.resv.length < 32) ∧
    (let i : Inbox := ⟨[(0, 0)], List.replicate 31 (0, 1)⟩; ¬i.posted.length + i.resv.length < 32) := by
  decide +kernel

/-- A pixel hart whose registers hold 64 elements, with the span ring ps. -/
def pixel (ps : List Span) : State :=
  { (one 6 []) with h := { (user 6) with
      vec := { (user 6).vec with vrb := 256 }, spans := ps
      lc := { (user 6).lc with kind := 2, launch := some 3 } } }

theorem wit_pixel :
    (pixel []).h.vectorOk = true ∧ 64 ≤ (pixel []).h.vlmax (pixel []).h.ew (pixel []).h.grp ∧
    ¬64 ≤ (user 6).vlmax (user 6).ew (user 6).grp ∧ (user 6).lc.kind ≠ 2 ∧
    (let t := (pixel [⟨0, 0, 0, 0, 0, 0, 64, false, false, []⟩]).resolveLatest
     t.h.lc.kind = 2 ∧ t.h.lc.launch ≠ none ∧
     t.h.spans.find? (fun p => !p.taken) = some ⟨0, 0, 0, 0, 0, 0, 64, false, false, []⟩) ∧
    (let t := (pixel []).resolveLatest
     t.h.lc.kind = 2 ∧ t.h.lc.launch ≠ none ∧ ∀ p ∈ t.h.spans, p.taken = true) := by
  decide +kernel

theorem wit_encodings :
    (Instr.add 31 0 31 true).wf = true ∧ encode (.add 31 0 31 true) = some 0x07E0F840 ∧
    decode 0x04A63840 = .ok (.add 5 6 7 true) := by
  decide +kernel

/-- The ends of the reserved ranges of opcodes and codes. -/
theorem wit_reserved :
    (0 : Nat) / 2 ^ 26 = 0 ∧ 0x70000000 / 2 ^ 26 = 0x1C ∧ 0x7FFFFFFF / 2 ^ 26 = 0x1F ∧ 0x35 ≤ 0xD4000000 / 2 ^ 26 ∧
    (0x04000019 / 2 ^ 26 = 1 ∧ 25 ≤ 0x04000019 % 64) ∧ (0x04000080 / 2 ^ 26 = 1 ∧ 0x04000080 / 128 % 16 ≠ 0) ∧
    (0x4C003800 / 2 ^ 26 = 0x13 ∧ 0x4C003800 / 2048 % 8 = 7) ∧ (0x50000800 / 2 ^ 26 = 0x14 ∧ 0x50000800 / 2048 % 2 = 1) ∧
    (0x5400000A / 2 ^ 26 = 0x15 ∧ 10 ≤ 0x5400000A % 16) ∧ (0x54000300 / 2 ^ 26 = 0x15 ∧ 0x54000300 / 256 % 4 = 3) ∧
    (0x64000008 / 2 ^ 26 = 0x19 ∧ 8 ≤ 0x64000008 % 2048) ∧ (0x68000005 / 2 ^ 26 = 0x1A ∧ 5 ≤ 0x68000005 % 2048) ∧
    (0x9800000D / 2 ^ 26 = 0x26 ∧ 13 ≤ 0x9800000D % 64) ∧ (0xC4000004 / 2 ^ 26 = 0x31 ∧ 4 ≤ 0xC4000004 % 2048) ∧
    (0xD0000006 / 2 ^ 26 = 0x34 ∧ 6 ≤ 0xD0000006 % 64) := by
  decide

/-- A machine whose next step fetches w. -/
noncomputable def aboutTo (w : Nat) : State := (lead []).withFetchWord 32 w

/-- Whether the machine fetches w next with nothing in the way. -/
noncomputable def fetchesNext (s : State) (w : IWord) (p : State → Bool) : Bool :=
  s.agenda.isEmpty && s.pow.state == .active && s.autoEvent.isNone && s.pick == some s.h.id && s.h.status == .run &&
  !s.h.irqDue && !s.h.lc.preempt && !s.h.halting && s.h.cap.isNone && s.h.unconf.isEmpty && s.h.window.isEmpty &&
  s.h.viq.isEmpty && s.h.region.isEmpty &&
  okWith s.fetch fun v t => v == w && t.h.inRegion.isNone && p t

/-- The hart runs under the live prefix word p. -/
def prefixed (p : Nat) (s : State) : State :=
  { s with h := { s.h with trap := { s.h.trap with pfxstate := .ofNat 64 (2 ^ 63 + p), pfxLive := true } } }

/-- An ADD, a reserved word, a vector word for a Mantle hart, an event; and under a live prefix a word that may not follow
it, and one that may, taken and not taken. -/
theorem wit_steps :
    fetchesNext (aboutTo 0x04A63840) 0x04A63840 (fun t => t.h.pfx == none && !t.h.isMantle) ∧
    fetchesNext (aboutTo 0x64000002) 0x64000002 (fun t => t.h.pfx == none && t.h.isMantle) ∧
    fetchesNext (aboutTo 0) 0 (fun t => t.h.pfx == none) ∧ (∃ e, decode 0 = .error e) ∧
    (let s := lead []
     fetchesNext { s with mem := s.mem.write s.h.pc.toNat 4 0x84642E00 } 0x84642E00 (fun t => t.h.isMantle && t.h.pfx == none) ∧
     0x20 ≤ 0x84642E00 / 2 ^ 26 ∧ decode 0x84642E00 = .ok (.vadd 3 4 5 true true 0)) := by
  refine ⟨by decide +kernel, by decide +kernel, by decide +kernel, ⟨_, rfl⟩, by decide +kernel⟩

theorem wit_prefixedSteps :
    fetchesNext (prefixed 0x6C324000 (aboutTo 0x04A74000)) 0x04A74000
      (fun t => t.h.pfx == some 0x6C324000 && !t.h.trap.pfxTret && pfxPairOk 0x6C324000 0x04A74000 (.add 5 7 8 false) &&
        t.x (Fin.ofNat 32 ((0x6C324000 : IWord).toNat / 2 ^ 19)) == 0) ∧
    fetchesNext (prefixed 0x6D324000 (aboutTo 0x04A74000)) 0x04A74000
      (fun t => t.h.pfx == some 0x6D324000 && pfxPairOk 0x6D324000 0x04A74000 (.add 5 7 8 false)) ∧
    fetchesNext (prefixed 0x6D324000 (aboutTo 0x64000003)) 0x64000003
      (fun t => t.h.pfx == some 0x6D324000 && !pfxPairOk 0x6D324000 0x64000003 .wfi) ∧
    decode 0x04A74000 = .ok (.add 5 7 8 false) ∧ decode 0x64000003 = .ok .wfi := by
  decide +kernel

/-- Whether a step goes on to a state as p says. -/
def goesTo (o : Out) (p : State → Bool) : Bool :=
  match o with
  | .next t => p t
  | _ => false

theorem wit_fuses : FusesAtLeast 0 0 (lead []) ∧
    goesTo (step { (lead []) with agenda := [.event (.raiseSvnRevoke 3 1)] }) (fun t => t.fw.svnMin == 3) ∧
    FusesAtLeast 3 1 (out (exec (.raiseSvnRevoke 3 1) (lead []))) := by
  unfold FusesAtLeast; decide +kernel

/-- The machine of the hart in a status. -/
def doing (w : Status) : State := { (one 2 []) with h := { (user 2) with status := w } }

/-- Each state that an event of a hart asks about. -/
theorem wit_hartEvents :
    ((one 2 []).switchTo 5).isNone ∧ (doing (.wait (.word 8))).switchTo 0 = some (doing (.wait (.word 8))) ∧
    (let s := withWm (doing (.wait (.watermark 4095 70))) 0
     s.switchTo 0 = some s ∧ s.h.status = .wait (.watermark 4095 70) ∧ (s.wm? 4095).isSome) ∧
    (doing (.wait (.moving 8))).switchTo 0 = some (doing (.wait (.moving 8))) ∧
    (doing (.wait .wfi)).switchTo 0 = some (doing (.wait .wfi)) ∧
    (let h := { (user 2) with irqs := [(1, 8)] }
     h.irqs = (1, 8) :: [] ∧ h.mode = .u ∧ h.cap = none ∧ h.status = .run) := by
  decide +kernel

theorem wit_hartEvents_more :
    (let s := inMode .s (one 2 [])
     s.h.mode = .s ∧ flag s.h.trap.tstatus 3 = false ∧ flag (8 : Word) 3 = true) ∧
    (let e : ChainEntry := ⟨0x100000, 0x84642E00, 1, 0, 0, 2, 4, none⟩
     let h := { (user 2) with viq := [e] }
     h.status = .run ∧ h.cap = none ∧ h.viq = e :: []) ∧
    (user 2).status = .run ∧ (user 2).viq = [] ∧ (doing (.wait .wfi)).h.status ≠ .run ∧
    (let s := doing (.wait (.sash 3))
     let t := { s with h := { s.h with lc := { s.h.lc with kind := 1, launch := some 3 } } }
     t.h.status = .wait (.sash 3) ∧ okWith (t.sashStore (apertureBase + 4096 * 3 + 0x40) 0) (fun _ _ => true) ∧ t.h.unconf = []) ∧
    (let h := { (user 2) with lc := { (user 2).lc with haltReq := true }, strip := ⟨0xFFFFC, 4, 0, 0⟩ }
     h.lc.haltReq = true ∧ h.status = .run ∧ h.window = [] ∧ h.viq = [] ∧ h.instret = h.strip.ret ∧ h.pc = h.strip.pc + 4) ∧
    (user 2).lc.haltReq = false := by
  decide +kernel

/-- A launch of queue 0 with every field plain, in a phase. -/
def launch (p : Phase) : Launch :=
  { num := 3, ord := 0, q := 0, seq := 0, tag := 0, base := 0, eff := 0, ctxid := 0, part := 0, phase := p, kdesc := [], args := 0, binds := [],
    done := none, wdog := 0, harts := 1, left := 1, ticks := 0, space := 0, draw := false, trace := none, sample := 0, brk := none,
    haltReq := false, ends := none }

/-- The machine with a launch that its hart belongs to. -/
def launched (p : Phase) : State :=
  { (one 2 []) with
    h := { (user 2) with lc := { (user 2).lc with launch := some 3 } }
    sched := { Sched.init with launches := [launch p] } }

theorem wit_launchEvents :
    (∃ l, (launched .resident).myLaunch = some l) ∧ (one 2 []).myLaunch = none ∧
    (∃ g, (launched .resident).hart? 0 = some g ∧ g.lc.launch = some 3 ∧ g.status = .run) :=
  ⟨⟨_, rfl⟩, rfl, ⟨_, rfl, rfl, rfl⟩⟩

/-- A fault waits for the host. -/
def faulting : State :=
  { (doing (.hostFault 6 (.sync 8 0))) with
    host := { HostIf.init with
      recs := [⟨6, 0, 0, 0, 8, 1, 0⟩], timers := [6] } }

theorem wit_faultService :
    faulting.host.recs = ⟨6, 0, 0, 0, 8, 1, 0⟩ :: [] ∧
    faulting.host.fqtail - faulting.host.fqhead.toNat < 2 ^ (min (field faulting.host.fqsize 0 4) 12 + 7) ∧
    (let h := { HostIf.init with fqtail := 128 }; ¬h.fqtail - h.fqhead.toNat < 2 ^ (min (field h.fqsize 0 4) 12 + 7)) ∧
    faulting.waiter 5 = none ∧ faulting.waiter 6 = some (0, .sync 8 0) ∧ faulting.fw.arm = false ∧ 6 ∈ faulting.host.timers := by
  decide +kernel

/-- The machine of a core whose L1 holds the word at 0x1000 in a state, with dirty bytes. -/
def holding (st : L1St) (dirty : BitVec 8) : State :=
  let w : L1Word := { st := st, data := 0, dirty := dirty, dval := 7, bad := false }
  { (one 2 []) with coh := { Coh.init with l1 := [{ core := 0, line := 32, low := false, words := List.replicate 16 w }] } }

/-- A granule that is moving to another die. -/
def movingGranule (s : State) (acks : List Nat) : State :=
  { s with coh := { s.coh with homes := [⟨0, 0, true, 5, acks, [], 0⟩] } }

theorem wit_homeRequests :
    homed ((one 2 []).evWord 0x1003) = true ∧ ((one 2 []).l1 0 0x1000).st = .i ∧ ((holding .v 0).l1 0 0x1000).st = .v ∧
    ((holding .k 0).l1 0 0x1000).st = .k ∧ ((holding .w 0).l1 0 0x1000).st = .w ∧ ((holding .k 0).l1 0 0x1000).st ≠ .w ∧
    ((holding .v 255).l1 0 0x1000).dirty ≠ 0 ∧ ((holding .v 255).l1 0 0x1000).bad = false ∧
    ((holding .v 0).l1 0 0x1000).dirty = 0 ∧ homed ((one 2 []).normPa 0x1FFFFFFFFFC) = true ∧
    (∀ w ∈ [true, false], (one 2 []).normPa 0x1FFFFFFFFF8 % (if w then 8 else 4) = 0) ∧
    coreDie 0 = (holding .k 0).homeDie 0x1000 ∧
    (movingGranule (one 2 []) []).moving 0xFFF8 = true ∧ (one 2 []).moving 0xFFF8 = false ∧
    (busyAt (one 2 []) 0x1000).moving 0x1000 = false ∧ (busyAt (one 2 []) 0x1000).wordBusy 0x1000 = true ∧
    (one 2 []).seam 0x1000 = none ∧ (one 2 []).isBad 0x1000 = false := by
  decide +kernel

/-- A message of a kind on its way to core 0. -/
def told (k : L1MsgKind) : State :=
  let s := holding .k 0
  { s with coh := { s.coh with msgs := [⟨0, 0x1000, k⟩], txns := [⟨Req.of .trkStore (some 9) 0x1000, [0]⟩] } }

theorem wit_homeMessages :
    (∀ k ∈ [L1MsgKind.inv, .upd 5, .recall, .fetch], (told k).l1Msg 0 0x1000 = some ⟨0, 0x1000, k⟩) ∧
    (one 2 []).l1Msg 0 0x1000 = none ∧
    (told .fetch).coh.txns.find? (fun t => t.req.addr == 0x1000) = some ⟨Req.of .trkStore (some 9) 0x1000, [0]⟩ ∧
    (∃ m ∈ (told .inv).coh.msgs, m.addr = 0x1000 ∧ m.core = 0) ∧ (∀ m ∈ (busyAt (one 2 []) 0x1000).coh.msgs, m.addr ≠ 0x1000) ∧
    (let r : Reply := ⟨Req.of .trkLoad (some 0) 0x1000, 0, false⟩
     [r].find? (fun r => r.req.core == some 0 && r.req.addr == 0x1000) = some r) ∧
    (one 2 []).wordBusy 0x1000 = false ∧
    (∀ acks ∈ [[], [0, 1, 2, 3, 4, 5, 6, 7, 8]], ∃ e, (movingGranule (one 2 []) acks).coh.home? 0 = some e ∧ e.moving = true ∧
      e.acks = acks) ∧
    (movingGranule (one 2 []) []).coh.txns = [] ∧ (∀ d < 9, d ∈ [0, 1, 2, 3, 4, 5, 6, 7, 8]) := by
  refine ⟨by decide +kernel, by decide +kernel, by decide +kernel, ⟨_, List.mem_cons_self .., rfl, rfl⟩, by decide +kernel,
    by decide +kernel, by decide +kernel, ?_, rfl, by decide⟩
  intro acks _
  exact ⟨_, rfl, rfl, rfl⟩

/-- The firmware block in a state. -/
def firmware (st : Nat) (busy : Bool) (cmd : Nat) (arm : Bool) : State :=
  { (lead []) with fw := { Fw.init with state := st, busy := busy, cmd := cmd, arm := arm } }

theorem wit_firmware :
    (∀ st ∈ [0, 2, 3, 5, 0x81, 0x82], (firmware st false 0 false).fw.state ∈ [0, 2, 3, 5, 0x81, 0x82] ∧
      (firmware st false 0 false).fw.busy = false) ∧
    ((firmware 6 false 0 false).fw.state = 6 ∧ (firmware 6 false 0 false).fw.arm = false) ∧
    (let f := (firmware 4 false 0 true).fw; f.arm = true ∧ f.state = 4 ∧ ¬(f.state ∈ [0, 2, 3, 5, 0x81, 0x82] ∨ (f.state = 6 ∧ f.arm = false))) ∧
    (let f := (firmware 6 false 0 true).fw; f.arm = true ∧ f.state ≠ 4) ∧
    (firmware 2 true 1 false).fw.busy = true ∧ (firmware 2 true 1 false).fw.cmd = 1 ∧
    (firmware 2 true 2 false).fw.cmd = 2 ∧ (firmware 2 true 2 false).fw.logStop = false ∧
    (firmware 2 true 2 false).fw.log.length < 4096 ∧
    (armed.fw.busy = false ∧ armed.fw.state = 3 ∧ armed.quiesced = true ∧ armed.fw.req = true) ∧
    (lead []).quiesced = false ∧ 0 ∉ (lead []).pow.silent ∧ (0 : Word).toNat ∉ [1, 2, 3] ∧ (4 : Word).toNat ∉ [1, 2, 3] ∧
    (State.reset.switchTo (mantleOf 47)).isSome := by
  decide +kernel

theorem wit_mantleRegisters :
    placeOf 0x1FFFFFFFFFF = .lpddr ∧
    (let s := { (lead []) with pow := { Power.init with reports := [(0, 1)] } }
     (∃ e ∈ s.pow.reports, e.2 = 0x1000 / 4096) ∧ 0x1000 / 4096 ∉ s.pow.retired) ∧
    ¬∃ e ∈ (lead []).pow.reports, e.2 = 0x1000 / 4096 := by
  decide +kernel

/-- Queue 0 with its ring at 0x100000 in a space with the page tables of the placed hart. -/
def queue : Queue :=
  { num := 0, qctl := 1, enabled := true, ring := 0x100000, size := 128, space := 0x101, ceiling := 7, user := true,
    errvec := 5, etag := 0, head := 0, tail := 1, stopped := false, code := 0, atEnable := false, waited := false, waits := [], notify := [] }

/-- A machine in whose queue stands a packet, with more words behind it at 0x100040. -/
def packet (ws more : List Nat) : State :=
  let put (m : Memory) (a : Nat) (vs : List Nat) : Memory := vs.zipIdx.foldl (fun m e => m.write (a + 8 * e.2) 8 e.1) m
  { (withWm (one 2 []) 0) with
    mem := placedTables (put (put [] 0x100000 ws) 0x100040 more)
    sched := { (withWm (one 2 []) 0).sched with queues := [queue] } }

theorem wit_queues :
    (packet [] []).queue? 0 = some queue ∧ (one 2 []).queue? 0 = none ∧ queue.enabled = true ∧
    ¬((packet [] []).fw.req = true ∨ (packet [] []).fw.arm = true) ∧ (armed.fw.req = true ∨ armed.fw.arm = true) ∧
    (let d := (128 + 2 ^ 32 - queue.head) % 2 ^ 32
     d ≤ queue.size ∧ (queue.tail + 2 ^ 32 - queue.head) % 2 ^ 32 ≤ d) ∧
    ¬(129 + 2 ^ 32 - queue.head) % 2 ^ 32 ≤ queue.size ∧ ({ queue with enabled := false }).enabled = false := by
  decide +kernel

/-- Whether queue 0 takes a packet of kind n, and p of its words and the state after. -/
def takes (s : State) (n : Nat) (p : List Word → State → Bool) : Bool :=
  match s.queue? 0 with
  | none => false
  | some k =>
    s.mayTake k &&
    (match s.fetchWords k.who (k.ring.toNat + 64 * (k.head % k.size)) 8 with
     | (.ok ws, u) => headerOk (ws.getD 0 0) && field (ws.getD 0 0) 0 8 == n && !flag (ws.getD 0 0) 8 &&
         p ws (u.setQueue { k with head := (k.head + 1) % 2 ^ 32, etag := (ws.getD 0 0).extractLsb' 32 32 })
     | _ => false)

theorem takes_spec {s : State} {n : Nat} {p : List Word → State → Bool} (h : takes s n p = true) :
    ∃ k ws t, Takes s 0 n k ws t ∧ p ws t = true := by
  unfold takes at h
  split at h
  · exact absurd h (by simp)
  · rename_i k hk
    simp only [Bool.and_eq_true] at h
    obtain ⟨h1, h2⟩ := h
    split at h2
    · rename_i ws u hf
      simp only [Bool.and_eq_true, beq_iff_eq, Bool.not_eq_true'] at h2
      obtain ⟨⟨⟨h3, h4⟩, h5⟩, h6⟩ := h2
      exact ⟨k, ws, _, ⟨hk, h1, ⟨u, hf, rfl⟩, h3, h4, fun hf => by rw [h5] at hf; exact absurd hf (by decide)⟩, h6⟩
    · exact absurd h2 (by simp)

/-- A kernel descriptor of a kind for one hart. -/
def kernel (kind : Nat) : List Nat := [0x100000, 0x81, 0, 0x10 + kind, 0x8000000100000001, 0, 0, 0]


theorem wit_launchPacket :
    takes (packet [1, 0x100040] (kernel 0)) 1 (fun ws t => launchOk ws && (ws.getD 1 0).toNat % 64 == 0 &&
      (bindList (ws.getD 3 0)).isEmpty && !flag (ws.getD 4 0) 15 &&
      match t.fetchWords queue.who (ws.getD 1 0).toNat 8 with
      | (.ok kd, u) => (match kernelOf kd with | some kn => kn.harts == 1 && !u.tooLarge kn.asks | none => false)
      | _ => false) ∧
    takes (packet [1, 8] []) 1 (fun ws _ => launchOk ws && (ws.getD 1 0).toNat % 64 != 0) ∧
    takes (packet [1, 0, 0, 0, 0, 0, 0, 1] []) 1 (fun ws _ => !launchOk ws) ∧
    (∃ j, ({ (launched .resident) with sched := { Sched.init with launches := [{ launch .resident with left := 0 }] } }).launch? 3 =
      some j ∧ j.left = 0 ∧ j.phase = .resident ∧ j.draw = false) ∧
    (∃ j, (launched .resident).launch? 3 = some j ∧ j.left ≠ 0) :=
  ⟨by decide +kernel, by decide +kernel, by decide +kernel, ⟨_, rfl, rfl, rfl, rfl⟩, ⟨_, rfl, by decide⟩⟩

theorem wit_otherPackets :
    takes (packet [2, 4095, 3] []) 2 (fun ws t => decide ((ws.getD 1 0).toNat < 4096) && (ws.drop 3).all (· == 0) &&
      (match t.wm? 4095 with | some w => w.owner == queue.asid && w.value == (ws.getD 2 0).toNat | none => false)) ∧
    takes (packet [2, 4095, 4] []) 2 (fun ws t => (match t.wm? 4095 with
      | some w => w.owner == queue.asid && decide (w.value < (ws.getD 2 0).toNat) | none => false) && (t.queue? 0).isSome) ∧
    takes (packet [2, 9] []) 2 (fun _ t => !t.wmOk queue 9) ∧
    takes (packet [3, 0x500010FFF, 9] []) 3 (fun ws t => field (ws.getD 1 0) 17 15 == 0 && (ws.drop 3).all (· == 0) &&
      decide (field (ws.getD 1 0) 0 16 < 4096) && t.wmOk queue (field (ws.getD 1 0) 0 16) && flag (ws.getD 1 0) 16) ∧
    takes (packet [4] []) 4 (fun ws _ => !drawPacketOk ws) := by
  decide +kernel

/-- Whether a DRAW packet reads its descriptors and becomes a draw. -/
def drawn (ws : List Word) (t : State) : Bool :=
  match t.fetchWords queue.who (ws.getD 1 0).toNat 8 with
  | (.ok md, u) =>
    match u.fetchWords queue.who (ws.getD 2 0).toNat 8 with
    | (.ok pd, v) =>
      match v.fetchWords queue.who (ws.getD 5 0).toNat 8 with
      | (.ok td, w) =>
        match kernelOf md, kernelOf pd with
        | some mk, some pk =>
          let l := w.newLaunch queue (ws.getD 0 0) 7 0 (md ++ pd) 0
          match drawFields ws td queue pk.early l with
          | some d => mk.kind == 1 && pk.kind == 2 && mk.scratch != 0 && pk.scratch != 0 && w.gfx.draws.isEmpty &&
              !w.tooLarge (drawAsks mk pk d.mharts d.pharts) && !d.loadH
          | none => false
        | _, _ => false
      | _ => false
    | _ => false
  | _ => false


theorem wit_drawPacket :
    takes (packet [4, 0x100040, 0x100080, 0, 0x1000100000001, 0x1000C0] (kernel 1 ++ kernel 2 ++ [0x80])) 4 (fun ws t =>
      drawPacketOk ws && !t.engFrozen engHem 7 && drawn ws t) := by
  decide +kernel


theorem wit_debugPackets : ∀ e ∈ [(1, 0, 0), (2, 0x100000, 0), (3, 0, 0), (4, 0x1000, 12), (5, 0, 0), (6, 0, 4096), (7, 8, 9), (8, 0, 0)],
    let s := packet [5, e.1 * 2 ^ 32, e.2.1, e.2.2] []
    takes { s with sched := { s.sched with launches := [launch .resident] } } 5 (fun ws t =>
      field (ws.getD 1 0) 0 32 == 0 && decide ((ws.getD 1 0).toNat < 2 ^ 40) && field (ws.getD 1 0) 32 32 == e.1 &&
      (ws.drop 4).all (· == 0) && debugArgsOk e.1 (ws.getD 2 0) (ws.getD 3 0) &&
      t.sched.launches.any fun l => l.ctxid == 0 && l.space.toNat / 2 ^ 48 == queue.space.toNat / 2 ^ 48) := by
  decide +kernel

theorem wit_debugElsewhere : takes (packet [5, 0x100000007] []) 5 (fun ws t =>
    field (ws.getD 1 0) 32 32 == 1 && decide ((ws.getD 1 0).toNat < 2 ^ 40) && (ws.drop 3).all (· == 0) &&
    t.sched.launches.all fun l => l.ctxid != 7) := by
  decide +kernel

/-- A launch in a phase, of one hart, by a kernel descriptor. -/
def launchOf (num q eff : Nat) (p : Phase) (kd : List Nat) : Launch :=
  { launch p with num := num, q := q, base := eff, eff := eff, left := 0, kdesc := kd.map fun n => .ofNat 64 n }

/-- A kernel of one hart, and one whose hart stands on die 0. -/
def freeKernel : List Nat := [0x100000, 0x81, 0, 0x10, 0x8000000100000001, 0, 0, 0]
def boundKernel : List Nat := [0x100000, 0xA0, 0, 0x10, 0x8000000200000001, 0, 0, 0]

/-- A machine with launches, whose die 0 has no free slot for the pool that boundKernel asks, all by launch 4. -/
def scheduled (ls : List Launch) (full : Bool) : State :=
  { State.reset with
    h := { (user 2) with id := 4095, lc := { (user 2).lc with launch := some 9 } }
    others := if full then (List.range 96).map fun n =>
      { Hart.init (n / 16 * 64 + n % 16 * 4) .u 0 with lc := { LaunchCtx.init with launch := some 4, regs := 64 }, status := .stopped false false false }
      else []
    sched := { Sched.init with launches := ls } }

theorem wit_scheduling :
    (let s := scheduled [] false
     ¬(s.fw.req = true ∨ s.fw.arm = true) ∧ s.chosen = none) ∧
    (armed.fw.req = true ∨ armed.fw.arm = true) ∧
    (let w := launchOf 3 0 5 .waiting freeKernel
     let s := scheduled [w] false
     s.chosen = some w ∧ (s.planLaunch w []).isSome = true ∧ s.queue? 0 = none ∧ w.phase = .waiting) ∧
    (let w := launchOf 3 0 5 .waiting freeKernel
     let s := { (scheduled [w] false) with sched := { (scheduled [w] false).sched with queues := [queue] } }
     s.launch? 3 = some w ∧ s.queue? 0 = some queue) := by
  decide +kernel

/-- A launch that fits only once the launch that is stopping is off its cores. -/
theorem wit_schedulingStopped :
    (let w := launchOf 3 0 5 .waiting boundKernel
     let s := scheduled [w, launchOf 4 1 2 .stopping boundKernel] true
     s.chosen = some w ∧ s.planLaunch w [] = none ∧ (s.planLaunch w s.stopping).isSome = true) := by
  decide +kernel

theorem wit_contextSave :
    (let s := scheduled [launchOf 4 1 2 .stopping freeKernel] true
     (∃ k, s.launch? 4 = some k ∧ k.phase = .stopping) ∧
     (∀ h ∈ s.residents.filter fun h => h.lc.launch == some 4, h.hasStopped = true)) ∧
    (let s := scheduled [launchOf 9 1 2 .stopping freeKernel] false
     (∃ k, s.launch? 9 = some k ∧ k.phase = .stopping) ∧
     ∃ h ∈ s.residents.filter fun h => h.lc.launch == some 9, h.hasStopped = false) ∧
    (∃ k, (scheduled [launchOf 3 0 5 .waiting freeKernel] false).launch? 3 = some k ∧ k.phase ≠ .stopping) ∧
    (∃ k, (launched .resident).launch? 3 = some k ∧ k.phase ≠ .waiting) :=
  ⟨⟨⟨_, rfl, rfl⟩, by decide +kernel⟩, ⟨⟨_, rfl, rfl⟩, by decide +kernel⟩, ⟨_, rfl, by decide⟩, ⟨_, rfl, by decide⟩⟩

/-- A hart in U mode whose page at 0x100000 is mapped and in whose scratchpad stand words at 0. -/
def worked (ws : List Nat) : State :=
  { State.reset with
    h := { placedHart with scratch := ws.zipIdx.foldl (fun m e => m.write (8 * e.2) 8 e.1) [] }
    others := [], mem := placedTables [] }

/-- A binding of words at the mapped page. -/
def readBinding : Sleeve := { (binding false) with base := 0x100000, stride := 4, count := 40, spt := 0x101 }

def bound (bs : List Sleeve) : State := { (worked []) with h := { (worked []).h with sleeves := bs } }

theorem wit_streamBindings :
    (bound []).h.slot? 3 = none ∧ (bound [readBinding]).h.slot? 3 = some readBinding ∧ readBinding.write = false ∧
    readBinding.pos + readBinding.ahead ≤ readBinding.count ∧ (binding true).write = true ∧
    (let b := { readBinding with base := 0x200000, ahead := 2 }
     let t := bound [b]
     t.h.slot? 3 = some b ∧ (match (t.strmReads engStream (b.who t.h) b.strm b.pos b.ahead).2.1 with
       | some (.trap _) => true | _ => false) = true) ∧
    takeClosing 3 (bound [readBinding]).h.sleeves = none ∧
    (let b := { (binding true) with closing := true }
     let t := bound [b]
     takeClosing 3 t.h.sleeves = some (b, []) ∧ t.engFrozen engStream t.h.ctxid = false ∧
     (t.flushFeed b true).1.pend = [] ∧ (t.flushFeed b true).1.failed = none ∧
     (t.flushFeed b true).2.engFrozen engStream t.h.ctxid = false) := by
  decide +kernel

/-- An open copy of n words by the descriptor at the start of the scratchpad. -/
def copyOf (n : Nat) : CopyOp :=
  { tag := 5, desc := 0x7F0000000000, n := n, pref := 0, user := true, spt := 0x101, viol := false }

def copyState (n : Nat) (ws : List Nat) : State := { (worked ws) with h := { (worked ws).h with copies := [copyOf n] } }

/-- Whether the copy's descriptor is read, and p of its words and the state after. -/
def copyReads (t : State) (p : List Word → State → Bool) : Bool :=
  match t.h.copies[0]? with
  | none => false
  | some c => !t.engFrozen engCopy t.h.ctxid && !c.viol && okWith (t.engWords engCopy (t.h.whoAs c.user c.spt) c.desc 8) p

theorem wit_copies :
    (worked []).h.copies[0]? = none ∧
    copyReads (copyState 1 [0, 0, 0, 0, 0, 0, 0, 1]) (fun ws _ => (copyDesc ws 1).isNone) ∧
    copyReads (copyState 1 [0x7F0000000100, 0x7F0000000200, 0, 0, 0x202]) (fun ws v => match copyDesc ws 1 with
      | some d => (v.copyRun ((copyState 1 []).h.whoAs true 0x101) d 1 2 0).2.1.isNone
      | none => false) := by
  decide +kernel

/-- An open collective by the descriptor at the start of the scratchpad. -/
def gathering (red : Bool) (acked : List Nat) : CollOp :=
  { red := red, tag := 5, desc := 0x7F0000000000, acked := acked, adds := [], refused := if red then [0] else [], user := true, spt := 0x101, viol := false }

def collState (red : Bool) (acked ws : List Nat) : State :=
  { (worked ws) with h := { (worked ws).h with colls := [gathering red acked] } }

/-- Whether the first collective has a descriptor with p of its words and the state after. -/
def coll (t : State) (red : Bool) (p : CollOp → List Word → State → Bool) : Bool :=
  match t.h.colls[0]? with
  | none => false
  | some c => c.red == red && !c.viol && !t.engFrozen engCollective t.h.ctxid &&
      okWith (t.engWords engCollective (t.h.whoAs c.user c.spt) c.desc 4) fun ws v => p c ws v

theorem coll_spec {t : State} {red : Bool} {p : CollOp → List Word → State → Bool} (h : coll t red p = true) :
    ∃ c ws v, Coll t 0 red c ws v ∧ p c ws v = true := by
  unfold coll at h
  split at h
  · exact absurd h (by simp)
  · rename_i c hc
    simp only [Bool.and_eq_true, beq_iff_eq, Bool.not_eq_true'] at h
    obtain ⟨⟨⟨h1, h2⟩, h3⟩, h4⟩ := h
    obtain ⟨ws, v, h5, h6⟩ := exOk h4
    exact ⟨c, ws, v, ⟨hc, h1, h2, h3, h5⟩, h6⟩

/-- XALL of two blocks from 0x7F0000000200, with the receivers' addresses at 0x7F0000000100. -/
def xallWords : List Nat := [0x7F0000000200, 0x7F0000000020, 128, 2, 0x7F0000000400, 0x7F0000000800]

theorem wit_xall :
    coll (collState false [] []) false (fun _ ws _ => !xallOk ws) ∧
    coll (collState false [0, 1] xallWords) false (fun c ws _ => xallOk ws &&
      (List.range (field (ws.getD 3 0) 0 16)).all c.acked.contains) ∧
    coll (collState false [0] xallWords) false (fun c ws v => xallOk ws &&
      decide (1 < field (ws.getD 3 0) 0 16) && !c.acked.contains 1 && c.adds.isEmpty &&
      let me := (worked []).h.whoAs c.user c.spt
      okWith (v.engRead engCollective me 9 (ws.getD 1 0 + 8) 8) fun r w =>
        okWith (w.moveWords me (ws.getD 0 0 + ws.getD 2 0) (.ofNat 64 r) 16) fun _ x =>
          (r + 256) % 8 == 0 && okWith ((x.setColl 0 { c with adds := [1] }).engFar me (.ofNat 64 r + 256) 8
            fun v => (v + 1) % 2 ^ 64) fun _ _ => true) := by
  decide +kernel

/-- XRED of two chunks at the mapped page, of sums of binary32. -/
def xredWords : List Nat := [0x7F0000000200, 0x100000, 1024, 0x20]

def withMaps (s : State) (ms : List Bitmap) : State := { s with maps := ms }

theorem wit_xred :
    coll (collState true [] [0, 8]) true (fun _ ws _ => !xredOk ws) ∧
    coll (collState true [0, 1] xredWords) true (fun c ws _ => xredOk ws && (List.range (xredChunks ws)).all c.acked.contains) ∧
    coll (collState true [0] xredWords) true (fun c ws _ => xredOk ws && decide (1 < xredChunks ws) && !c.acked.contains 1) ∧
    (let bit := { die := (worked []).homeDie 0x100200, sender := (worked []).link.module, ctxid := 0, copy := 0, chunks := [1] : Bitmap }
     let other := { bit with copy := 1 }
     let at' (s : State) (p : State → Bool) : Bool := coll s true fun c ws v => xredOk ws && !c.acked.contains 1 &&
       okWith (v.engLocate engCollective ((worked []).h.whoAs c.user c.spt) (ws.getD 1 0 + 512) (codeBytes 2) .both) fun l w =>
         l == .phys 0x100200 && p w
     at' (withMaps (collState true [0] xredWords) [bit]) (fun w => w.chunkDone w.link.module w.h.ctxid 0 1) ∧
     at' (withMaps (collState true [0] xredWords) (List.replicate 64 other)) (fun w =>
       (w.maps.all fun m => !m.isOf w.link.module w.h.ctxid 0) &&
       decide (64 ≤ (w.maps.filter fun m => m.die == w.homeDie 0x100200).length))) ∧
    (let h := { (user 2) with inbox := ⟨[], [(5, 4)]⟩, colls := [gathering true []] }
     h.colls[0]? = some (gathering true []) ∧ ((gathering true []).tag, 4) ∈ h.inbox.resv) := by
  decide +kernel

/-- A Yoke operation by its word, on rows 0 to 31 of the accumulator. -/
def yokeOp (kind : Nat) : YokeOp := { (pending none) with word := .ofNat 32 (0xC0000000 + kind), xa := 0x1F0000 }

/-- A machine whose hart holds Yoke operations, in a Yoke. -/
def yoked (ops : List YokeOp) (y : Yoke) : State := { (withOps (one 2 []) ops) with yokes := [y] }

/-- The Yoke of quad 0 with the hart attached. -/
def attached : Yoke := { Yoke.init 0 with grants := [(0, 0, 32)] }

theorem wit_yokeEvents :
    splitOps ([] : List YokeOp) = none ∧ splitOps [yokeOp 2] = some ([], yokeOp 2, []) ∧ (yokeOp 2).word.toNat % 16 = 2 ∧
    (let s := yoked [] { attached with fill := some [0] }
     (s.yoke 0).fill = some [0] ∧ s.h.usesEpoch 0 = false) ∧
    (let s := yoked [yokeOp 4] { attached with fill := some [0] }
     s.h.quad = 0 ∧ (0, 0, 32) ∈ (s.yoke 0).grants ∧ s.h.usesEpoch (s.yoke 0).epoch = true) ∧
    ((yoked [] attached).yoke 0).rvs = [] ∧ ((yoked [] { attached with fill := some [0], rvs := [([0], [])] }).yoke 0).fill.isSome ∧
    ((yoked [] attached).yoke 0).fill = none ∧
    (let s := yoked [] { attached with rvs := [([0, 4], [0])] }
     (s.yoke 0).rvs = ([0, 4], [0]) :: [] ∧ (4 : Nat) ∉ [0]) ∧
    (let s := yoked [yokeOp 3] { attached with rvs := [([0], [0])] }
     (s.yoke 0).rvs = ([0], [0]) :: [] ∧ (s.yoke 0).fill = none ∧ leadOf [0] = some s.h.id ∧ s.hart? s.h.id = some s.h ∧
     s.h.latchOp = some (yokeOp 3) ∧ (yokeOp 3).fail = none ∧ (yokeOp 3).word.toNat % 16 = 3 ∧
     s.h.hasStopped = false ∧ (s.performLdb (s.yoke 0).spare (yokeOp 3)).1.2 = true ∧
     (s.performLdb (s.yoke 0).spare (yokeOp 3)).2.h.id = s.h.id) := by
  decide +kernel

/-- A YMMA whose epoch is current, with formats that form a pair, and formats that form none. -/
theorem wit_yokeSlices :
    (let s := yoked [yokeOp 4] { attached with cur := { Latch.zero with fmt := 0 } }
     splitOps s.h.yops = some ([], yokeOp 4, []) ∧ (yokeOp 4).word.toNat % 16 = 4 ∧ s.h.hasStopped = false ∧
     (s.yoke s.h.quad).epoch = (yokeOp 4).epoch ∧ pairOk ((yokeOp 4).desc 0 4 % 32) (s.yoke s.h.quad).cur.fmt = true ∧
     s.h.badMma (yokeOp 4) (s.yoke s.h.quad).cur = false ∧ pairOk 0 2 = false) := by
  decide +kernel

/-- A draw of n triangles of one mesh hart into one pixel of the mapped page. -/
def drawOf (n : Nat) : Draw :=
  { launch := 3, ord := 0, idx := 0x100000, ntri := n, mharts := 1, pharts := 1, margs := 0, pargs := 0, space := 0x101, user := true,
    colour := 0x100000, depth := 0, hiz := 0, width := 1, height := 1, format := 0, dmode := 0, blend := 0, loadH := false,
    cpitch := 64, dpitch := 64, early := false, nextTri := 0, nextMesh := 0, starts := [], doneM := [], ctxid := 0, part := 0,
    q := 0, tag := 0, ended := false }

/-- The machine with that draw, and something in its pipeline. -/
def drawing (d : Draw) (g : Gfx) : State := { (worked []) with gfx := { g with draws := [d] } }

/-- A mesh hart of that draw waits. -/
def meshing (d : Draw) : State :=
  let s := drawing d Gfx.init
  { s with h := { s.h with status := .wait .meshlet, lc := { s.h.lc with kind := 1, launch := some 3 } } }

/-- An index buffer in which no two triangles share a vertex: the 129th vertex ends the meshlet at 42 triangles. -/
def distinct (s : State) : State :=
  { s with mem := placedTables ((List.range 129).foldl (fun m i => m.write (0x100000 + 4 * i) 4 i) []) }

theorem wit_meshlets :
    (drawing (drawOf 0) Gfx.init).draw? 3 = some (drawOf 0) ∧ (drawOf 0).nextTri = (drawOf 0).ntri ∧
    (drawing (drawOf 43) Gfx.init).meshHart (drawOf 43) = none ∧
    ((distinct (meshing (drawOf 43))).meshHart (drawOf 43)).isSome ∧ (drawOf 43).nextTri ≠ (drawOf 43).ntri ∧
    okWith ((distinct (meshing (drawOf 43))).cutMeshlet (drawOf 43) 256 0 [] []) (fun r _ => r.2.length == 42) := by
  decide +kernel

/-- A record of the second triangle, when none is expected or the first meshlet holds two. -/
def pushedOf : Pushed := { cluster := 0, launch := 3, hart := 0, mesh := 0, words := [1, 0, 0, 0, 0, 0x40000000, 0, 0, 0, 0x40000000] }

def spanOf : Emit := { cluster := 0, launch := 3, words := [0, 1, 0, 0, 0x10000] }

theorem wit_sash :
    (drawing (drawOf 2) Gfx.init).nextRecord 0 = none ∧
    (let s := drawing (drawOf 2) { Gfx.init with input := [pushedOf] }
     s.nextRecord 0 = some (drawOf 2, pushedOf) ∧ s.accepts (drawOf 2) pushedOf = false) ∧
    (let d := { (drawOf 2) with starts := [(0, 2)] }
     let s := drawing d { Gfx.init with input := [pushedOf] }
     s.nextRecord 0 = some (d, pushedOf) ∧ s.accepts d pushedOf = true) ∧
    (let s := drawing (drawOf 2) Gfx.init
     (firstEmits 0 [] s.gfx.emits).findSome? s.deal = none) ∧
    (let s := drawing (drawOf 2) { Gfx.init with emits := [spanOf] }
     let t := { s with h := { s.h with lc := { s.h.lc with kind := 2, launch := some 3, given := some (0, 0) } } }
     ((firstEmits 0 [] t.gfx.emits).findSome? t.deal).isSome = true) := by
  decide +kernel

/-- The pixel's tile, and an intent of its first triangle. -/
def tileOf : Tile := { launch := 3, tx := 0, ty := 0, colour := [], depth := [] }
def intentOf (f : Frag) : Intent := { launch := 3, px := 0, py := 0, order := 1, frag := f }

theorem wit_hem :
    (∀ f ∈ [Frag.empty, .discard, .full 0x3F800000 0 0 0 0],
      let s := drawing (drawOf 2) { Gfx.init with tiles := [tileOf], intents := [intentOf f] }
      s.draw? 3 = some (drawOf 2) ∧ s.tile? 3 0 0 = some tileOf ∧ headIntent 3 0 0 s.gfx.intents = some (intentOf f) ∧
      s.engFrozen engHem 0 = false) ∧ (drawOf 2).dmode ≠ 1 ∧
    (let s := drawing (drawOf 2) { Gfx.init with intents := [intentOf .discard] }
     s.tile? 3 0 0 = none ∧ (drawOf 2).dmode = 0 ∧ (∃ i ∈ s.gfx.intents, i.launch = 3 ∧ i.px / 64 = 0 ∧ i.py / 64 = 0) ∧
     okWith (s.gatherHem (fun p u => u.hemRead (drawOf 2) ((drawOf 2).colourAt 0 0 p) (drawOf 2).texel) ((drawOf 2).inside 0 0))
       fun cs _ => cs.length == 1) ∧
    (let s := drawing (drawOf 2) { Gfx.init with tiles := List.replicate 32 tileOf }
     32 ≤ (s.gfx.tiles.filter fun t => (t.tx + 5 * t.ty) % 48 == (0 + 5 * 0) % 48).length) ∧
    (let s := drawing (drawOf 2) { Gfx.init with tiles := [tileOf] }
     okWith (s.writeTile (drawOf 2) tileOf) fun _ _ => true) ∧
    (let d := { (drawOf 2) with nextTri := 2, ended := true }
     (drawing d Gfx.init).drawIdle d = true ∧ d.hiz = 0) ∧
    (drawing (drawOf 2) Gfx.init).drawIdle (drawOf 2) = false := by
  decide +kernel

theorem wit_hostMemory :
    0x1FFFBFFFFF8 + 8 ≤ 0x1FFFC000000 ∧ 0x1FFFC000000 < 0x1FFFBFFFFF8 + 9 ∧ 0x1FFFBFFFFF8 % 8 = 0 ∧
    (one 2 []).wordBusy 0x1FFFBFFFFF8 = false ∧ (busyAt (one 2 []) 0x1000).wordBusy (0x1007 / 8 * 8) = true ∧
    (∀ w ∈ hostLine 0x1000, (one 2 []).seam w = none) ∧
    placeOf 0x1000 = .lpddr ∧ isReserved 0x1000 = false ∧ placeOf 0x4000000000000 = .host ∧ placeOf 0x1000 ≠ .host := by
  decide +kernel

/-- A machine on the pod link, in which module 5 is routed by port 0 and the port is up or not. -/
def linked (up : Bool) : State :=
  { (one 2 []) with link := { Link.init with routes := [(5, 1)], ports := [{ Port.init 0 with up := up }] } }

theorem crc64_zeros (n : Nat) : crc64 (List.replicate n 0) = 0 := by
  unfold crc64
  induction n with
  | zero => rfl
  | succ n ih =>
    have h : crcByte 0 0 = 0 := by decide +kernel
    rw [List.replicate_succ, List.foldl_cons, h, ih]

/-- Flits of zeros under their CRC and under another. -/
theorem wit_flits :
    crc64 ((List.range 248).map fun i => (0 : BitVec 2048).extractLsb' (8 * i) 8) = ((0 : BitVec 2048).extractLsb' 1984 64).toNat ∧
    (let f := (1 : BitVec 2048) <<< 1984
     ¬crc64 ((List.range 248).map fun i => f.extractLsb' (8 * i) 8) = (f.extractLsb' 1984 64).toNat) := by
  have h0 : ((List.range 248).map fun i => (0 : BitVec 2048).extractLsb' (8 * i) 8) = List.replicate 248 0 := by decide +kernel
  have h1 : ((List.range 248).map fun i => ((1 : BitVec 2048) <<< 1984).extractLsb' (8 * i) 8) = List.replicate 248 0 := by
    decide +kernel
  refine ⟨by rw [h0, crc64_zeros]; decide +kernel, ?_⟩
  show ¬crc64 ((List.range 248).map fun i => ((1 : BitVec 2048) <<< 1984).extractLsb' (8 * i) 8) = _
  rw [h1, crc64_zeros]
  decide +kernel

/-- The fences of die 0, cluster 0 let partition 1 at its memory below 4 GiB. -/
def fenced (up : Bool) : State :=
  { (linked up) with mmu := { (linked up).mmu with fences := [⟨0, 0, 0, 0x100000000, 0x8000000100000007⟩] } }

theorem wit_podLink :
    (linked false).link.cutOff 5 = true ∧ (linked true).link.cutOff 5 = false ∧ 5 ∉ (linked false).link.unreach ∧
    (5 : Nat) < 1024 ∧ 5 ≠ (linked true).link.module ∧
    (Port.init 0).rx = (0 : BitVec 2048).toNat % 4096 ∧ (Port.init 0).up = true ∧ (Port.init 0).frozen = none := by
  decide +kernel

theorem wit_peerRequests :
    (linked true).link.ports.find? (fun p => p.num == 9) = none ∧
    (linked true).link.ports.find? (fun p => p.num == 0) = some (Port.init 0) ∧ placeOf ((linked true).normPa 0x1000 / 8 * 8) = .lpddr ∧
    (∀ k : Fin 4, (linked true).fenceOk 0 1 (0x1000 + maskLow 255) (maskCount 255) (peerNeed k) = false) ∧
    (∀ k : Fin 4, (fenced true).fenceOk 0 1 (0x1000 + maskLow 255) (maskCount 255) (peerNeed k) = true) ∧
    (fenced true).wordBusy 0x1000 = false ∧
    (busyAt (fenced true) 0x1000).fenceOk 0 1 (0x1000 + maskLow 255) (maskCount 255) (peerNeed 2) = true := by
  decide +kernel

/-- The machine in a state of power. -/
def powered (p : PState) : State := { (one 2 []) with pow := { Power.init with state := p } }

theorem wit_power :
    checkImage (one 2 []).fw.kept (one 2 []).fw.flashH (one 2 []).fw.lenH 1 matches .fail _ ∧
    (powered .active).pow.state = .active ∧ (powered .d3hot).pow.state = .d3hot ∧
    (powered .off).agenda = [] ∧ (powered .off).pow.state = .off ∧
    (∀ j, j = Instr.packageReset → Instr.powerLoss ≠ j) ∧ 0 < (powered .active).pow.demand.length ∧
    (powered .active).fw.logStop = false ∧ (powered .active).fw.log.length < 4096 ∧
    placeOf (wordAddr ((one 2 []).normPa 0x1007)) = .lpddr := by
  refine ⟨?_, by decide +kernel, by decide +kernel, rfl, rfl, ?_, by decide +kernel, by decide +kernel, by decide +kernel,
    by decide +kernel⟩
  · decide +kernel
  · intro j hj; subst hj; exact Instr.noConfusion

/-- A CSR that a hart reads and writes with no more effect, and one that it may not write. -/
theorem wit_registerWrites :
    (user 0).csrReadable 0x000 = true ∧ (user 0).csrWritable 0x000 = true ∧ 0x000 ∉ [0xC01, 0xC02, 0xC03, 0xC04, 0xC06] ∧
    (user 0).csrWritable 0xFFF = false ∧ (0x1000 : Word).toNat % 4096 = 0 ∧ (12 : Word).toNat % 16 ≤ 12 ∧ ¬(13 : Word).toNat % 16 ≤ 12 := by
  decide +kernel

/-! ### What the vector half, the stores held back and the units that stall ask about -/

/-- A started instruction of the word VADD v3, v4, v5, M, at an element. -/
def started (e : Nat) : ChainEntry := ⟨0x100000, 0x84642E00, e, 0, 0, 2, 4, none⟩

/-- The machine of a hart with a window and a queue of vector instructions. -/
def vectors (window viq : List ChainEntry) : State :=
  { (one 2 []) with h := { (user 2) with window := window, viq := viq, irqs := [(1, 8)], lc := { (user 2).lc with haltReq := true } } }

/-- A confirmed store of 8 bytes to the start of the scratchpad, or an unconfirmed instruction behind n older ones. -/
def heldStore (older : Nat) : Unconf :=
  { older := older, pc := 0, pfx := 0, pfxLive := false, pfxTret := false, regs := [], store := none, counts := true }

theorem wit_window :
    (let h := (vectors [started 1, started 0] []).h
     1 < h.window.length ∧ h.chase = 0 ∧ h.cap = none ∧ h.status = .run ∧ h.lc.haltReq = true ∧ h.irqs = (1, 8) :: [] ∧ h.mode = .u) ∧
    (let h := (vectors [] [started 0]).h
     h.window = [] ∧ h.viq = started 0 :: [] ∧ h.cap = none ∧ h.chase = 0 ∧ h.window.length ≤ 1) ∧
    3 ≤ (vectors [started 2, started 1, started 0] [started 0]).h.window.length ∧
    (vectors [] [started 0]).startOk (started 0) = true ∧
    (vectors [started 0] []).nextGroup.isSome = true ∧ (vectors [] []).nextGroup = none ∧
    (∃ e rest, (vectors [started 1] []).h.window = e :: rest) ∧
    (let s := { (doing (.wait (.sash 3))) with h := { (doing (.wait (.sash 3))).h with unconf := [heldStore 0] } }
     s.h.unconf ≠ [] ∧ okWith (s.flushHeld 1) fun _ _ => true) ∧
    ({ (user 2).trap with haltHold := 1 }).haltHold ≠ 0 :=
  ⟨by decide +kernel, by decide +kernel, by decide +kernel, by decide +kernel, by decide +kernel, by decide +kernel, ⟨_, _, rfl⟩,
    by decide +kernel, by decide +kernel⟩

/-- A started and a queued instruction of a hart on turn, at which the machine's next step begins. -/
theorem wit_vectorSteps :
    (let s := vectors [started 0] []
     let r := { s with agenda := [.hart 0], h := { s.h with irqs := [] } }
     r.pow.state = .active ∧ r.agenda = .hart r.h.id :: [] ∧ r.h.status = .run ∧ r.h.irqDue = false ∧ r.h.lc.preempt = false ∧
     r.h.halting = false ∧ r.h.cap = none ∧ r.h.unconf = [] ∧ r.h.chase = 0 ∧ r.h.window = started 0 :: []) ∧
    (let s := vectors [] [started 0]
     let r := { s with agenda := [.hart 0], h := { s.h with irqs := [] } }
     r.h.window = [] ∧ r.h.viq = started 0 :: [] ∧ r.h.irqDue = false) ∧
    decode (started 0).word.toNat = .ok (.vadd 3 4 5 true true 0) := by
  decide +kernel

/-- Lines of one set of core 0's L1, each with a request in flight. -/
def fullSet : State :=
  let w : L1Word := { st := .i, data := 0, dirty := 0, dval := 0, bad := false }
  { (one 2 []) with coh := { Coh.init with
      l1 := (List.range 8).map fun n => { core := 0, line := 256 * (n + 1), low := false, words := List.replicate 16 w }
      txns := (List.range 8).map fun n => ⟨Req.of .selfFill (some 0) (0x8000 * (n + 1)), [1]⟩ } }

/-- Words that the host's services, the firmware, a snoop, a migration and a purge find busy, and find free. -/
theorem wit_busyWords :
    (fullSet.installWait 0 0x1000 = none ∧ (fullSet.installWait 0 0).isSome = true) ∧
    (let entry := hostPa (faulting.host.fqbase.toNat + 32 * (faulting.host.fqtail % 2 ^ (min (field faulting.host.fqsize 0 4) 12 + 7)))
     faulting.rangeBusy entry 32 = none ∧ (busyAt faulting entry).rangeBusy entry 32 ≠ none) ∧
    (let s := firmware 2 true 1 false
     let t := { s with fw := { s.fw with src := 0x1000, len := 8 } }
     t.installBusy = false ∧ (busyAt t 0x1000).installBusy = true) ∧
    (∃ w ∈ hostLine 0x1000, (busyAt (one 2 []) w).wordBusy w = true) ∧ (∀ w ∈ hostLine 0x1000, (one 2 []).wordBusy w = false) ∧
    ((busyAt (lead []) 0x1000).rangeBusy 0x1000 4096).isSome = true ∧ ((lead []).rangeBusy 0x1000 4096).isSome = false ∧
    (lead []).reachable 0x1000 = true := by
  refine ⟨by decide +kernel, by decide +kernel, by decide +kernel, ?_, by decide +kernel, by decide +kernel, by decide +kernel,
    by decide +kernel⟩
  exact ⟨(hostLine 0x1000).getD 0 0, by decide +kernel, by decide +kernel⟩

/-- A machine whose hart's page at 0x100000 is the first host page, with a leaf of these low bits. -/
def hostMapped (bits : Nat) : State :=
  { (worked []) with mem := (placedTables []).write (0x100000 + 4096 + 12288 + 0x800) 8 (0x4000000000000 + bits) }

/-- The host's read of a register and a page's reassignment stand in the agenda. -/
theorem wit_hostTurns :
    (let s := { (packet [] []) with agenda := [.barRead 8 8] }
     s.agenda = .barRead 8 8 :: [] ∧ s.pow.state = .active) ∧
    (∃ off q, notifyReg off = .qctl q ∧ (packet [] []).queue? q = some queue ∧ off % 8 = 0) ∧
    (∃ off q, notifyReg off = .qstat q ∧ off % 8 = 0) ∧ (∃ off, notifyReg off = .hole ∧ off % 8 = 0) ∧
    (let s := { (lead []) with agenda := [.reassign 1] }
     s.agenda = .reassign 1 :: [] ∧ s.pow.state = .active) ∧
    (let s := { (powered .active) with agenda := [.fenceDigest 7] }
     s.agenda = .fenceDigest 7 :: [] ∧ s.pow.state ≠ .off ∧ s.fw.logStop = false ∧ s.fw.log.length < 4096) := by
  refine ⟨by decide +kernel, ⟨0x402000, 0, by decide +kernel⟩, ⟨8, 0, by decide +kernel⟩, ⟨16, by decide +kernel⟩, by decide +kernel, by decide +kernel⟩

theorem wit_waitAbove : takes (packet [2, 0xFFFF] []) 2 (fun ws _ =>
    decide (4096 ≤ (ws.getD 1 0).toNat) && decide ((ws.getD 1 0).toNat < 2 ^ 16) && (ws.drop 3).all (· == 0)) := by
  decide +kernel

/-- A launch whose save waits for a store that no older instruction confirms. -/
theorem wit_contextWaits :
    (let s := scheduled [launchOf 9 1 2 .stopping freeKernel] false
     let u := { s with h := { s.h with status := .stopped false false false, unconf := [heldStore 1] } }
     let settled := u.onHart 4095 State.settleStores
     (u.residents.filter fun h => h.lc.launch == some 9) = [u.h] ∧ u.h.id = 4095 ∧ u.h.hasStopped = true ∧
     ∃ h ∈ settled.residents.filter fun h => h.lc.launch == some 9, h.unconf ≠ []) ∧
    (let s := scheduled [launchOf 4 1 2 .stopping freeKernel] true
     ∀ h ∈ s.residents.filter fun h => h.lc.launch == some 4, h.unconf = [] ∧ s.releaseWait h.core = none) := by
  refine ⟨⟨by decide +kernel, by decide +kernel, by decide +kernel, ?_⟩, by decide +kernel⟩
  decide +kernel

/-- A participant of a rendezvous that has stopped, and one whose hart has stopped with an operation open. -/
theorem wit_yokeStopped :
    (let s := yoked [yokeOp 3] { attached with rvs := [([0], [0])] }
     let t := { s with h := { s.h with status := .stopped false false false } }
     (t.yoke 0).rvs = ([0], [0]) :: [] ∧ t.hart? 0 = some t.h ∧ t.h.hasStopped = true) := by
  decide +kernel

/-- A port that a violation froze, with the request's address and kind. -/
theorem wit_frozenPort :
    (let p := { (Port.init 0) with frozen := some ⟨0x1000, 1⟩ }
     p.frozen ≠ none ∧ p.up = true) := by
  decide +kernel

/-- The places where an uncorrectable error counts, and where it finds nothing. -/
theorem wit_bitErrors :
    (let s := { (one 2 []) with coh := { Coh.init with slices := [0x1000 / 128] } }
     0x1000 / 128 ∈ s.coh.slices ∧ placeOf (wordAddr (s.normPa 0x1000)) = .lpddr) ∧
    0x1000 / 128 ∉ (one 2 []).coh.slices ∧
    (∀ l ∈ (powered .active).pow.demand, l.length = 3 ∧ ∀ v ∈ l, v ≤ 14) := by
  decide +kernel

/-! ### Loads, stores and atomics of device memory -/

/-- A core's L1 that holds the line of 0x100000, all of it in a state with dirty bytes and a value for them. -/
def caching (st : L1St) (dirty : BitVec 8) : State :=
  let w : L1Word := { st := st, data := 5, dirty := dirty, dval := 7, bad := false }
  { (worked []) with coh := { Coh.init with
      l1 := [{ core := 0, line := 0x2000, low := false, words := List.replicate 16 w }] } }

theorem atRest_of {t : State} {st : L1St} {dirty : BitVec 8} (h1 : t.wordBusy 0x100000 = false) (h2 : t.isBad 0x100000 = false)
    (h3 : t.seam 0x100000 = none) (h4 : st ≠ .w) (h5 : t.coh.l1 = [] ∨ t.coh.l1 = (caching st dirty).coh.l1) :
    AtRest t 0x100000 := by
  refine ⟨h1, h2, fun c => ?_, fun l hl _ => ?_⟩
  · rw [h3]
    have e : t.l1 c 0x100000 = L1Word.none ∨ t.l1 c 0x100000 = { st := st, data := 5, dirty := dirty, dval := 7, bad := false } := by
      rcases h5 with h | h
      · exact .inl (by simp [State.l1, h])
      · by_cases hc : c = 0
        · subst hc; exact .inr (by simp only [State.l1, h]; rfl)
        · exact .inl (by simp [State.l1, h, caching, Ne.symm hc])
    rcases e with e | e <;> rw [e]
    · simp [L1Word.none]
    · simp [h4]
  · rcases h5 with h | h
    · simp [h] at hl
    · rw [h] at hl
      simp only [caching, List.mem_singleton] at hl
      subst hl; rfl

/-- A place of the mapped page that an access reaches with nothing in the way, where the L1 stands as in the state s. -/
def reaches (s : State) (n : Nat) (need : Need) : Bool :=
  okWith (s.locate (0x100008 - .ofNat 64 n) n true need true 0) fun l t => l == .phys (0x100008 - n) && t.h.unconf.isEmpty &&
    !t.h.ahead && t.h.lc.binds.isEmpty && !t.wordBusy 0x100000 && !t.isBad 0x100000 && t.seam 0x100000 == none &&
    decide (t.coh.l1 = s.coh.l1) && [Policy.self, .trk, .thru, .own].all fun p => t.accessWait t.h.core 0x100000 p == none

theorem reaches_spec {s : State} {n : Nat} {need : Need} {st : L1St} {dirty : BitVec 8} (h : reaches s n need = true) (h4 : st ≠ .w)
    (h5 : s.coh.l1 = [] ∨ s.coh.l1 = (caching st dirty).coh.l1) :
    ∃ t, s.locate (0x100008 - .ofNat 64 n) n true need true 0 = .ok (.phys (0x100008 - n)) t ∧ AtRest t 0x100000 ∧
      t.h.unconf = [] ∧ t.h.ahead = false ∧ t.h.lc.binds = [] ∧ ∀ p ∈ [Policy.self, .trk, .thru, .own],
        t.accessWait t.h.core 0x100000 p = none := by
  obtain ⟨l, t, e, h⟩ := exOk h
  simp only [Bool.and_eq_true, Bool.not_eq_true', beq_iff_eq, decide_eq_true_eq, List.isEmpty_iff, List.all_eq_true] at h
  obtain ⟨⟨⟨⟨⟨⟨⟨⟨rfl, a1⟩, a2⟩, a3⟩, a4⟩, a5⟩, a6⟩, a7⟩, a8⟩ := h
  exact ⟨t, e, atRest_of a4 a5 a6 h4 (a7 ▸ h5), a1, a2, a3, a8⟩

/-- Loads, stores and atomics of a mapped page: of a word that the L1 does not hold, holds in K, and holds dirty bytes of. -/
theorem wit_memoryAccess :
    (∀ n ∈ [1, 2, 4, 8], ∀ need ∈ [Need.read, .write, .both], ∀ s ∈ [worked [], caching .k 0, caching .v 0xF],
      reaches s n need = true) ∧
    (worked []).coh.l1 = [] ∧ hits (caching .k 0) 0 .trk 0x100000 (· < 8) ∧ ¬hits (worked []) 0 .own 0x100000 (· < 8) ∧
    hits (caching .v 0xF) 0 .self 0x100000 (· < 4) :=
  ⟨by decide +kernel, rfl, trivial, id, trivial⟩

/-- The checks of an address that is translated: an unmapped page, a page without the right, and a device window; and the
aperture's stores of a mesh hart. -/
theorem wit_addressTranslated :
    (∀ need ∈ [Need.read, .write],
      ((worked []).translate (worked []).h.who 0x200001 need true).1 = .error .notPresent ∧
      ((worked []).translate (worked []).h.who 0x200000 need true).1 = .error .notPresent) ∧
    (let s := { (worked []) with mem := (worked []).mem.write (0x100000 + 4096 + 12288 + 0x800) 8 (0x100000 + 0xDD) }
     (s.translate s.h.who 0x100000 .read true).1 = .error .permission) ∧
    (let s := { (worked []) with mem := (worked []).mem.write (0x100000 + 4096 + 12288 + 0x800) 8 (0x100000 + 0xFF) }
     (s.translate s.h.who 0x100000 .read true).1 = .error (.moving 0x100000)) ∧
    ((lead []).translate (lead []).h.who 0x3FE00004001 .read true).1 = .ok 0x3FE00004001 ∧ isWindow 0x3FE00004001 = true ∧
    (let h : Hart := { (user 0) with lc := { (user 0).lc with kind := 1, launch := some 3 } }
     h.lc.kind = 1 ∧ h.lc.launch ≠ none ∧ (0x7F010002FFC0 - 0x7F0100000000) / 4096 < 48 ∧ 0x7F010002F040 % 8 = 0 ∧
     (0x7F010002F040 - 0x7F0100000000) % 4096 = 0x40 ∧ (0x7F010002F038 - 0x7F0100000000) % 4096 < 0x40 ∧
     (one 0 []).stagedBy h 47 < 4) := by
  decide +kernel

/-- A release waits at a dirty word that is busy. -/
theorem wit_fenceWaits : (busyAt (holding .v 255) 0x1000).releaseWait 0 = some 0x1000 ∧ (holding .v 255).releaseWait 0 = none ∧
    (one 0 []).releaseWait 0 = none := by
  decide +kernel

/-- Cache operations that wait: a word of the line is in flight, or every line of its set awaits an answer. -/
theorem wit_cacheWaits :
    (busyAt (lead []) 0x1000).lineWait 0 32 = some 0x1000 ∧ (lead []).lineWait 0 32 = none ∧
    (∀ p ∈ [Policy.self, .trk, .own], (busyAt (lead []) 0x1000).prefWait 0 p 32 = some 0x1000) ∧
    (lead []).prefWait 0 .trk 32 = none ∧ (lead []).lostPeer 0x1000 = false ∧ fullSet.lostPeer 0 = false ∧
    (fullSet.installWait 0 0).isSome = true ∧ fullSet.installWait 0 0x1000 = none := by
  decide +kernel

/-- A hart whose launch is traced, with its ring's first word busy. -/
def traced : State :=
  busyAt { (launched .resident) with
    mem := placedTables []
    sched := { Sched.init with launches := [{ (launch .resident) with trace := some ⟨0x100000, 12, 0x101, true⟩ }] } } 0x100000

theorem wit_stripsTraced :
    okWith ((one 2 []).nextStrip 4) (fun _ _ => true) ∧ (one 2 []).myLaunch = none ∧
    stopWith (traced.nextStrip 4) (fun w => w == .wait (.word 0x100000)) ∧
    stopWith (traced.traceStrip 32) (fun _ => true) ∧
    okWith ((one 2 []).releaseRes) (fun _ r => okWith (r.ungrant.traceStrip 32) fun _ _ => true) ∧
    stopWith ((busyAt (holding .v 255) 0x1000).releaseRes) (fun w => w == .wait (.word 0x1000)) ∧
    (∀ g ∈ (one 2 []).others, g.unconf = []) := by
  decide +kernel

/-! ### Floating-point values, sums and what the units deliver -/

theorem wit_floatRounds :
    (∀ e ∈ [(5, 10), (8, 7), (8, 23), (11, 52)], IsFinite e.1 e.2 1 ∧ ¬IsFinite e.1 e.2 ((2 ^ e.1 - 1) * 2 ^ e.2)) ∧
    valueOf 8 23 0x3F800000 = 1 ∧ valueOf 8 23 0xC0000000 = -2 ∧ valueOf 5 10 1 ≠ 0 ∧ valueOf 11 52 0 = 0 ∧
    (⟨5, 2 ^ 25 - 1⟩ : Rnd).mode < 6 ∧ (⟨5, 2 ^ 25 - 1⟩ : Rnd).draw < 2 ^ 25 := by
  refine ⟨?_, ?_, ?_, ?_, ?_, by decide, by decide⟩
  · unfold IsFinite; decide
  · norm_num [valueOf]; decide +kernel
  · norm_num [valueOf]; decide +kernel
  · norm_num [valueOf]; split_ifs <;> norm_num
  · norm_num [valueOf]

theorem wit_conversionRounds :
    (4, 5, 10) ∈ floatCodes ++ [(8, 4, 3)] ∧ (3, 64, -2 ^ 63, 2 ^ 63 - 1) ∈ intCodes ∧ IsFinite 5 10 0x3C00 ∧
    valueOf 5 10 0x3C00 ≠ 0 ∧ valueOf 5 10 0x8000 = 0 ∧ (∃ f, codeFmt 4 = some f ∧ (f.decode 0x7E00).isNan = true) ∧
    ∃ g, codeFmt 8 = some g := by
  refine ⟨by decide, by simp [intCodes], by unfold IsFinite; decide, ?_, ?_, ⟨_, rfl, by decide +kernel⟩, _, rfl⟩
  · norm_num [valueOf]; split_ifs <;> norm_num
  · norm_num [valueOf]

/-- The smallest power of two that is at least VL, and terms with no NaN and with one. -/
theorem wit_sumTree : (user 6).vl ≤ 2 ^ 2 ∧ (∀ m, (user 6).vl ≤ 2 ^ m → 2 ≤ m) ∧
    (∀ p ∈ (user 6).velem 12 0 :: ((List.range (user 6).vl).filter ((user 6).active 0)).map ((user 6).velem 8),
      ((user 6).fmt.decode p).isNan = false) ∧
    (let h := { (user 6) with vec := { (user 6).vec with v := Memory.write [] (8 * 4096) 4 0x7F800001 } }
     h.velem 8 0 = 0x7F800001 ∧ h.active 0 0 = true ∧ (h.fmt.decode 0x7F800001).isSig = true) := by
  have hv : (user 6).vl = 4 := by decide +kernel
  refine ⟨by rw [hv]; decide, ?_, by decide +kernel, by decide +kernel⟩
  intro m hm
  rw [hv] at hm
  rcases m with _ | _ | m
  · omega
  · omega
  · omega

/-- REGION on the scalar half's turn and as an entry of the window. -/
theorem wit_regionOpens : (user 2).back = none ∧ ({ (user 2) with back := some 4 }).back ≠ none ∧
    (user 2).badUse (divUse (user 2) true [1] false true) = false ∧ (1 : BitVec 16) ≠ 0 := by
  decide +kernel

/-- A grant of rows whose descriptor lies outside, lies misaligned, is illegal, or names operands or rows that do not exist. -/
theorem wit_yokeFaults :
    (user 2).grantRows = 0 ∧ (granted 0 0).h.lc.scratch < 4065 + 32 ∧ 4064 + 32 ≤ (granted 0 0).h.lc.scratch ∧
    (4060 : Nat) % 32 ≠ 0 ∧ posOk (2 ^ 63) = false ∧
    (granted 0xFFFFFFFF 0).h.descFault 5 = none ∧ (granted 0xFFFFFFFF 0).h.latchOk 5 6 = false ∧
    (granted 0xFFFFFFFF 0).h.aDescOk 5 = false ∧
    (let s := granted 0x1000000 0
     let h := { s.h with scratch := s.h.scratch.write 4 4 4096 }
     h.latchOk 5 6 = true ∧ (h.operandFault (h.desc 5 0 4 % 32) (h.desc 5 4 4) (h.desc 5 8 4) (h.desc 5 12 4) (h.desc 5 16 4)
       (h.xb 6).toNat (h.desc 5 0 4 / 2 ^ 24 % 16) 32).isSome = true ∧ h.aDescOk 5 = false) ∧
    (let s := granted 0x300 0
     let h := { s.h with scratch := s.h.scratch.write 4 4 4096, x := s.h.x.set 6 0x1E00000000 }
     h.aDescOk 5 = true ∧ h.lc.accRows < field (h.xb 6) 32 13 + (h.desc 5 0 4 / 256 + 1) ∧
     (h.operandFault (h.desc 5 0 4 % 32) (h.desc 5 4 4) (h.desc 5 8 4) (h.desc 5 12 4) (h.desc 5 16 4)
       (field (h.xb 6) 0 16) (field (h.xb 6) 52 3 + 1) (h.desc 5 0 4 / 256 + 1)).isSome = true) := by
  decide +kernel

/-- A YLDB whose rows come from slot 3. -/
theorem wit_feeding : ({ (user 2) with yops := [{ (pending none) with
      word := 0xC0000003, head := (List.replicate 32 0).set 1 1 |>.set 2 3 }] }).feeding 3 = true ∧
    (user 2).feeding 3 = false := by
  decide +kernel

/-- A hart whose four elements of v4 to v13 are a GWALK's results of these statuses, with a record in the scratchpad. -/
def hits4 (sts : List Nat) : State :=
  let s := one 6 []
  { s with h := { s.h with
      scratch := Memory.write [] 0 8 0x1234
      vec := { s.h.vec with v := sts.zipIdx.foldl (fun m e => m.write (7 * 4096 + 4 * e.2) 4 e.1) [] } } }

/-- A table of two records at 0x7F0000000000, the second one null. -/
def tableOf2 (count ray : Nat) : Table := { base := 0x7F0000000000, stride := 64, count := count, ray := ray, mult := 1 }

theorem wit_hitRecords :
    (8 ∣ (hits4 []).h.vrb ∧ 0 < (hits4 []).h.vrb ∧ (hits4 []).h.vrb ≤ 4096 ∧ 3 < (hits4 []).h.vrb * (hits4 []).h.grp / 4) ∧
    ((List.range 4).map fun i => (hits4 [1, 0, 2, 0]).h.fld 4 3 i) = [1, 0, 2, 0] ∧
    okWith ((hits4 []).unitBytes 0x7F0000000000 8 0) (fun v _ => v == 0x1234) ∧
    okWith ((hits4 []).unitBytes 0x7F0000000040 8 0) (fun v _ => v == 0) ∧
    stopWith ((hits4 []).unitBytes 0x7F0000001000 8 0) (fun _ => true) ∧
    (let s := hits4 [0, 0, 0, 0]
     (tableOf2 1 1).count ≤ 1 ∧ s.h.first ≤ 0 ∧ s.h.active 0 0 = true ∧ s.h.fld 4 3 0 = 0) := by
  decide +kernel

/-! ### Turns, events of harts and of the host's services, and decisions -/

/-- A hart on turn that passes no region and whose units are free; and one whose memory pipe another hart of the core holds. -/
theorem wit_turns :
    (let s := vectors [] [started 0]
     s.h.skipping = false ∧ s.unitsFree (started 0).word = true ∧ s.outOfIssue s.h = false) ∧
    (aboutTo 0x04A63840).h.skipping = false ∧ (aboutTo 0x04A63840).unitsFree 0x04A63840 = true ∧
    (let s := vectors [] [{ (started 0) with word := 0xB0880000 }]
     let g := { Hart.init 4 .u 0 with window := [{ (started 1) with word := 0xB0880000 }] }
     let s := { s with others := [{ g with id := 1 }] }
     s.h.window = [] ∧ s.unitsFree 0xB0880000 = false) := by
  decide +kernel

/-- A window whose younger instruction goes through its element groups, and one where nothing has to come up. -/
theorem wit_mustComeUp : MustComeUp (vectors [started 1, started 0] []).h ∧ ¬MustComeUp (vectors [started 1] []).h ∧
    (vectors [started 1, started 0] []).h.chase = 0 ∧ (vectors [started 1, started 0] []).h.trapMet = false ∧
    (vectors [started 1, started 0] []).h.skipping = false ∧
    ({ (vectors [started 1] []).h with chase := 1, met := true }).trapMet = true ∧
    ({ (user 2) with region := [⟨0x100000, 0x100010, true⟩] }).skipping = true := by
  refine ⟨⟨started 0, by simp [vectors], by decide +kernel⟩, ?_, by decide +kernel, by decide +kernel, by decide +kernel,
    by decide +kernel, by decide +kernel⟩
  rintro ⟨e, he, -⟩
  exact absurd he (by simp [vectors])

/-- The host's answers while the Mantles run no queue. -/
theorem wit_heldAnswers :
    (let s := { faulting with fw := { faulting.fw with arm := true } }
     s.queuesRun = false ∧ s.waiter 6 = some (0, .sync 8 0) ∧ (s.hart? 0).isSome = true) ∧ faulting.queuesRun = true ∧
    (let h := { (user 2) with lc := { (user 2).lc with launch := some 3 }
                              trap := { (user 2).trap with fresh := some (TrapInfo.sync 8 0).key } }
     h.lc.launch ≠ none ∧ h.trap.fresh = some (TrapInfo.sync 8 0).key) := by
  decide +kernel

/-- A launch that fits only once the resident launch 4 is off its cores, one for which no launch may be pre-empted, and a
resident launch on a core whose new lane map waits. -/
theorem wit_victims :
    (let w := launchOf 3 0 5 .waiting boundKernel
     let v := launchOf 4 1 2 .resident boundKernel
     let s := scheduled [w, v] true
     s.laneVictims = [] ∧ s.chosen = some w ∧ s.planLaunch w [] = none ∧ s.planLaunch w s.stopping = none ∧
     s.sched.launches = [w, v] ∧ v.phase = .resident ∧ v.base < w.eff ∧
     (∀ h ∈ s.residents, h.lc.launch = some v.num → h.isFrozen = false) ∧
     (s.planLaunch w (offWith s [v] 1)).isSome = true) ∧
    (let w := launchOf 3 0 2 .waiting boundKernel
     let v := launchOf 4 1 5 .resident boundKernel
     let s := scheduled [w, v] true
     s.chosen = some w ∧ s.planLaunch w [] = none ∧ s.planLaunch w s.stopping = none ∧ ¬v.base < w.eff ∧ v.base ≠ w.eff) ∧
    (let v := launchOf 4 1 5 .resident boundKernel
     let s := scheduled [v] true
     let t := { s with sched := { s.sched with lanes := [(0, 15, 7, true)] } }
     t.laneVictims = [v]) := by
  decide +kernel

/-- A launch that is being ended, with its harts quiet or not. -/
theorem wit_savingEnds :
    (let k := { (launchOf 4 1 2 .stopping freeKernel) with ends := some 8 }
     let s := scheduled [k] true
     s.launch? 4 = some k ∧ ∀ h ∈ s.residents.filter fun h => h.lc.launch == some 4, h.quiet = true) ∧
    (let k := { (launchOf 9 1 2 .stopping freeKernel) with ends := some 8 }
     let s := scheduled [k] false
     s.launch? 9 = some k ∧ ∃ h ∈ s.residents.filter fun h => h.lc.launch == some 9, h.quiet = false) ∧
    (∃ k, (scheduled [launchOf 4 1 2 .stopping freeKernel] true).launch? 4 = some k ∧ k.ends = none ∧ k.left = 0) :=
  ⟨by decide +kernel, by decide +kernel, ⟨_, rfl, rfl, rfl⟩⟩

/-- A YROT that every participant has joined, whose next Yoke serves no hart of the context, opens no YROT, or opens one. -/
theorem wit_rotations :
    (let rot := { attached with rvs := [([0], [0])] }
     let s := yoked [yokeOp 5] rot
     (s.yoke 0).rvs = ([0], [0]) :: [] ∧ (s.yoke 0).fill = none ∧ leadOf [0] = some 0 ∧ s.hart? 0 = some s.h ∧
     s.h.latchOp = some (yokeOp 5) ∧ (yokeOp 5).fail = none ∧ (yokeOp 5).word.toNat % 16 = 5 ∧ s.h.hasStopped = false ∧
     (s.yoke 0).sent = false ∧ (s.yoke 1).ctx ≠ (s.yoke 0).ctx ∧ (s.yoke 1).fill = none ∧ (s.yoke 1).recv = none) ∧
    (let rot := { attached with rvs := [([0], [0])] }
     let next (n : Nat) (rv : List (List Nat × List Nat)) : Yoke := { Yoke.init n with grants := [(16, 0, 32)], rvs := rv }
     (next 1 []).ctx = rot.ctx ∧ (next 1 []).rvs = [] ∧ ({ rot with sent := true }).sent = true) := by
  decide +kernel

theorem wit_opensRot :
    (let s := yoked [yokeOp 5] { attached with rvs := [([0], [0])] }
     OpensRot s (s.yoke 0)) := by
  refine ⟨[0], [0], [], 0, _, yokeOp 5, ?_, ?_, ?_, rfl, ?_, ?_⟩ <;> decide +kernel

/-! ### The host, page migration, the link and power -/

/-- Requests of the host that wait, a busy word, and a line with a request in flight. -/
theorem wit_hostRequests :
    (∀ q ∈ (one 2 []).host.reqs, q.isBar = true) ∧
    (let s := { (busyAt (one 2 []) 0x1000) with host := { HostIf.init with reqs := [.read 0x1000 8] } }
     (¬∀ q ∈ s.host.reqs, q.isBar = true) ∧ s.host.reqs = [.read 0x1000 8] ∧ s.wordBusy (0x1004 / 8 * 8) = true) ∧
    (∃ d : List Byte, HostReq.write 0x1000 d = .write 0x1000 [1] ∧ d.length ≤ 8 ∧ d ≠ []) ∧
    (∀ w ∈ hostLine 0x1000, (∀ r ∈ (one 2 []).coh.reps, r.req.addr ≠ w) ∧ ∀ m ∈ (one 2 []).coh.msgs, m.addr ≠ w) ∧
    ((busyAt (one 2 []) ((hostLine 0x1000).getD 0 0)).coh.txns.filter fun x => (hostLine 0x1000).contains x.req.addr).length = 1 := by
  refine ⟨by decide +kernel, by decide +kernel, ⟨[1], rfl, by decide, by decide⟩, by decide +kernel, by decide +kernel⟩

/-- Reads and writes through BAR0 at each register that the map has, and ones that are not aligned. -/
theorem wit_barAccesses :
    (∀ r ∈ [0x00, 0x08, 0x10, 0x18, 0x20], notifyReg (0x404000 + r) = .faultQueue r ∧ (0x404000 + r) % 8 = 0) ∧
    notifyReg 0x1000 = .qnotify 1 ∧ notifyReg 0x402008 = .qctl 1 ∧ notifyReg 0x1008 = .qstat 1 ∧ notifyReg 0x1010 = .hole ∧
    (∀ e ∈ [(8, 0x402008, 1), (4, 0x402008, 1), (8, 0x402004, 0)], let s := { (packet [] []) with agenda := [.barWrite e.2.1 e.1 e.2.2] }
     s.agenda = .barWrite e.2.1 e.1 e.2.2 :: [] ∧ s.pow.state = .active ∧ (∀ q ∈ s.host.reqs, q.isBar = false) ∧
     (({ s with agenda := [] } : State).rangeBusy ((e.2.2 : Word).toNat / 64 * 64) 64).isSome = false) ∧
    (∀ a ∈ [0, 1, 2], (BitVec.ofNat 64 (a * 2 ^ 32 + 6)).toNat / 2 ^ 32 % 4 = a) := by
  decide +kernel

/-- A page that may move: its translations are to be marked, or are marked; and a retired page, and a hart that holds a
store, which keep it where it is. -/
theorem wit_pageMigration :
    (∀ e ∈ [(0xFD, false), (0xFF, true)],
      let s := hostMapped e.1
      (∀ h ∈ s.harts, h.unconf = []) ∧ placeOf 0x4000000000000 = .host ∧ placeOf 0x300000 = .lpddr ∧
      isReserved (0x300000 + 4096 - 1) = false ∧ s.pow.retired = [] ∧
      (s.leaves 0x4000000000 1).foldl (fun n l => max n (512 ^ l.2)) 1 = 1 ∧
      ((s.leaves 0x4000000000 1).map fun l => l.1).eraseDups = [0x104800] ∧ (s.homeView 0x104800).getLsbD 1 = e.2 ∧
      s.lostPeer 0x104800 = false ∧ ¬(0x300 ≤ 0x104800 / 4096 ∧ 0x104800 / 4096 < 0x300 + 1) ∧
      (s.rangeBusy 0x4000000000000 4096).isSome = false ∧ (s.rangeBusy 0x300000 4096).isSome = false ∧
      s.wordBusy 0x104800 = false) ∧
    (let s := hostMapped 0xFD
     let t := { s with pow := { s.pow with retired := [0x300] } }
     ¬∀ p ∈ t.pow.retired, ¬(0x300 ≤ p ∧ p < 0x300 + 1)) ∧
    (let s := hostMapped 0xFD
     let t := { (busyAt s 0x200000) with h := { s.h with unconf := [{ (heldStore 0) with store := some ⟨0x200000, some 0x200000, 8, .thru, 5⟩ }] } }
     ∃ g ∈ t.dischargeAll.harts, g.unconf ≠ []) := by
  decide +kernel

/-- What stands for replay before and after a NAK. -/
theorem wit_naks :
    (let p := { (Port.init 0) with replay := [⟨5, 0, 0, 0⟩], tries := 16 }
     p.up = true ∧ p.frozen = none ∧ p.replay.filter (fun e => (e.seq + 4096 - (4 % 4096 + 1) % 4096) % 4096 < 2048) = p.replay ∧
     p.replay.filter (fun e => (e.seq + 4096 - (5 % 4096 + 1) % 4096) % 4096 < 2048) = [] ∧ 16 ≤ p.tries) ∧
    (Port.init 0).tries < 16 := by
  decide +kernel

/-- A chunk of a peer's XRED that the fences keep out, and one that was applied before. -/
theorem wit_peerChunks :
    (let x : PeerChunk := { sender := 5, ctxid := 0, copy := 0, k := 1, op := 0, ty := 2, dst := 0x1000, vals := [1, 2] }
     let bit : Bitmap := { die := 0, sender := 5, ctxid := 0, copy := 0, chunks := [1] }
     ∀ s ∈ [linked true, withMaps (fenced true) [bit]],
       let r := { s with agenda := [.peerChunk 0 1 x] }
       let t := { r with agenda := [] }
       r.agenda = .peerChunk 0 1 x :: [] ∧ r.pow.state = .active ∧ x.sender ≠ r.link.module ∧ x.vals ≠ [] ∧
       placeOf (t.normPa x.dst) = .lpddr ∧ placeOf (t.normPa x.dst + x.vals.length * codeBytes x.ty - 1) = .lpddr ∧
       t.normPa x.dst % codeBytes x.ty = 0 ∧ t.fenceOk 0 1 (t.normPa x.dst) (x.vals.length * codeBytes x.ty) .both = !s.maps.isEmpty ∧
       (∀ i < 1, t.wordBusy (t.normPa x.dst / 8 * 8 + 8 * i) = false) ∧
       (s.maps ≠ [] → ∃ e ∈ t.maps, e.sender = x.sender ∧ e.ctxid = x.ctxid ∧ e.copy = x.copy ∧ x.k ∈ e.chunks)) := by
  decide +kernel

/-- The states of power with what may happen there standing first, what may not, and nothing. -/
theorem wit_powerSteps :
    (∀ p ∈ [PState.hot, .d3hot], (powered p).pow.state = p ∧ (powered p).agenda = []) ∧
    HostDie .packageReset ∧ HostDie (.challenge 3) ∧ HostDie (.setPowerCap 2000 0) ∧ ¬HostDie (.thermalShutdown) ∧
    ({ (one 2 []) with fw := { Fw.init with dead := true } }).fw.dead = true ∧ (one 2 []).fw.dead = false ∧
    (one 2 []).coh.txns = [] ∧ (one 2 []).coh.reps = [] ∧ (∀ e ∈ (one 2 []).coh.homes, e.held = []) ∧
    (∀ e ∈ (one 2 []).coh.seam, e.1 = 0x1000 ∨ e.1 + 8 ≤ 0x1000 ∨ 0x1000 + 8 ≤ e.1) ∧
    (∀ d : BitVec 384, Turn.hart 0 ≠ .fenceDigest d) := by
  refine ⟨by decide +kernel, .inl (by simp), .inr (.inl ⟨3, by simp⟩), .inr (.inr (.inr ⟨_, _, rfl⟩)), ?_, by decide +kernel,
    by decide +kernel, by decide +kernel, by decide +kernel, by decide +kernel, by decide +kernel, by simp⟩
  simp [HostDie]

/-! ### Terms that the static checks refuse -/

theorem test_refused :
    (∀ i ∈ [Instr.slli 1 2 true 32, .srli 1 2 true 63, .srai 1 2 true 32, .rori 1 2 true 32], i.wf = false) ∧
    (∀ i ∈ [Instr.amoswap 1 2 3 3 false false false true, .amoadd 1 2 3 3 false false false true,
      .amoand 1 2 3 3 false false false true, .amoor 1 2 3 3 false false false true, .amoxor 1 2 3 3 false false false true,
      .amomin 1 2 3 3 false false false true, .amomax 1 2 3 3 false false false true, .amominu 1 2 3 3 false false false true,
      .amomaxu 1 2 3 3 false false false true, .amocas 1 2 3 3 false false false true], i.wf = false) ∧
    (∀ i ∈ [Instr.pref 1 .thru false 0, .ipop 5 5, .ipopnb 31 31, .pfx true false 8 0, .region 1 0, .vcvt 1 2 false 0 false 14,
      .vldSegment 1 2 0 0 .self 0, .vldSegment 1 2 8 0 .self 0, .vstSegment 1 2 0 0 .self 0, .vstSegment 1 2 8 0 .self 0,
      .ydrain 1 2 10, .hizq 0 1 2 false 0], i.wf = false) := by
  decide +kernel

theorem test_refused_compares :
    (∀ z ∈ [true, false], let d : Fin 8 := if z then 1 else 0
      ∀ i ∈ [Instr.vseq d 1 2 false z 0 z, .vsne d 1 2 false z 0 z, .vslt d 1 2 false z 0 z, .vsltu d 1 2 false z 0 z,
        .vsle d 1 2 false z 0 z, .vsleu d 1 2 false z 0 z, .vsgt d 1 2 false z 0 z, .vsgtu d 1 2 false z 0 z,
        .vfeq d 1 2 false z 0 z, .vfne d 1 2 false z 0 z, .vflt d 1 2 false z 0 z, .vfle d 1 2 false z 0 z,
        .vfunord d 1 2 false z 0 z], i.wf = false) ∧
    (∀ i ∈ [Instr.kand 0 1 2 0, .kor 0 1 2 0, .kxor 0 1 2 0, .kandn 0 1 2 0, .knot 0 1 0, .kmov 0 1 0, .kset 0 0, .kclr 0 0,
      .ksbf 0 1 0, .ksif 0 1 0, .ksof 0 1 0], i.wf = false) := by
  decide +kernel

/-- Boundary values that the same checks take. -/
theorem test_accepted :
    ∀ i ∈ [Instr.slli 1 2 true 31, .rori 1 2 false 63, .amoadd 1 2 3 2 false false false true, .pref 1 .own false 0, .ipop 0 0,
      .ipopnb 5 6, .pfx true false 7 0, .pfx false false 31 0, .region 1 0xFFFF, .vcvt 1 2 false 0 false 13,
      .vldSegment 1 2 7 0 .self 0, .vstSegment 1 2 1 0 .self 0, .ydrain 1 2 9, .hizq 7 1 2 false 0, .vseq 7 1 2 false true 0 false,
      .kset 7 0], i.wf = true := by
  decide +kernel

/-! ### One instruction, by its word -/

/-- Whether the word decodes and runs to a state as p says. -/
noncomputable def runs (s : State) (w : Nat) (p : State → Bool) : Bool :=
  match decode w with
  | .ok i => goesTo (exec i s) p
  | .error _ => false

/-- SRL.w of 0x80000000 by 0 writes 0xFFFFFFFF80000000 (R51). -/
theorem test_srl_w : goesTo (exec (.srl 5 6 7 true) (one 2 [(6, 0x80000000)])) (fun t => t.x 5 == 0xFFFFFFFF80000000) := by
  decide +kernel

/-- x0 takes nothing (R49), and an ADD writes what its sources held. -/
theorem test_add : goesTo (exec (.add 0 6 7 false) (one 2 [(6, 3), (7, 4)])) (fun t => t.x 0 == 0) ∧
    goesTo (exec (.add 6 6 6 false) (one 2 [(6, 0x8000000000000003)])) (fun t => t.x 6 == 6) := by
  decide +kernel

/-- The division corners of R52. -/
theorem test_div : goesTo (exec (.div 5 6 7 false) (one 2 [(6, 0x8000000000000000), (7, -1)]))
      (fun t => t.x 5 == 0x8000000000000000) ∧
    goesTo (exec (.rem 5 6 7 true) (one 2 [(6, 0xFFFFFFFF80000005)])) (fun t => t.x 5 == 0xFFFFFFFF80000005) ∧
    goesTo (exec (.divu 5 6 7 true) (one 2 [(6, 9)])) (fun t => t.x 5 == 0xFFFFFFFFFFFFFFFF) := by
  decide +kernel

/-- The pc-relative pair of the worked encodings: ADDPC and ADDI form 0x10029F90. -/
theorem test_addpc : runs { (one 2 []) with h := { (user 2) with pc := 0x10000040 } } 0x28A00003 (fun t =>
    runs t 0x08A59F50 fun u => u.x 5 == 0x10029F90 && u.h.pc == 0x10000048) := by
  decide +kernel

/-- JAL links the next word, and a branch not taken goes on. -/
theorem test_jumps :
    goesTo (exec (.jal 1 0x1FFFFF) (one 2 [])) (fun t => t.x 1 == 0x100004 && t.h.pc == 0xFFFFC) ∧
    goesTo (exec (.bltu 5 6 2) (one 2 [(5, -1), (6, 1)])) (fun t => t.h.pc == 0x100004) ∧
    goesTo (exec (.blt 5 6 2) (one 2 [(5, -1), (6, 1)])) (fun t => t.h.pc == 0x100008) := by
  decide +kernel

/-- AMOCAS of four bytes takes a sign-extended comparand (the worked case of R64). -/
theorem test_amocas : goesTo (exec (.amocas 5 6 7 2 false false false false)
      { (one 2 [(5, -1), (6, 0x7F0000000010), (7, 0x12345678)]) with
        h := { (one 2 [(5, -1), (6, 0x7F0000000010), (7, 0x12345678)]).h with scratch := Memory.write [] 16 4 0xFFFFFFFF } })
      (fun t => t.x 5 == 0xFFFFFFFFFFFFFFFF && t.h.scratch.read 16 4 == 0x12345678) := by
  decide +kernel

/-- A byte stored and loaded back with its sign, and an address beyond the scratchpad. -/
theorem test_bytes : goesTo (exec (.sb 7 6 .self 1) (one 2 [(6, 0x7F0000000FFE), (7, 0x180)])) (fun t =>
      t.h.scratch == [(4095, 0x80)] && goesTo (exec (.lb 5 6 .self 1) t) fun u => u.x 5 == 0xFFFFFFFFFFFFFF80) ∧
    goesTo (exec (.lb 5 6 .self 2) (one 2 [(6, 0x7F0000000FFE)])) (fun t => t.h.mode == .s) := by
  decide +kernel

/-- ECALL and TRET: the pc, cause and mode that a trap keeps and its return takes back (R408, R411). -/
theorem test_ecall : goesTo (exec .ebreak (one 2 [])) (fun t => t.h.mode == .s && t.h.trap.tepc == 0x100000 &&
      goesTo (exec .tret t) fun u => u.h.mode == .u && u.h.pc == 0x100000) := by
  decide +kernel

/-- VSETL of the table of R203 under a VRB of 1,024 bytes: 1,000 elements asked, 512 given, then 488. -/
theorem test_vsetl : let s := one 2 [(6, 1000)]
    runs { s with h := { s.h with vec := { s.h.vec with vrb := 1024 } } } 0x80E6000E (fun t =>
      t.x 7 == 512 && t.h.vl == 512 && t.h.stripord == 1 && runs { t with h := t.h.set 6 488 } 0x80E6000E fun u =>
        u.x 7 == 488 && u.h.vl == 488 && u.h.stripord == 2) := by
  decide +kernel

/-- Bytes in v8, six of them below VL, under I8; k2 holds the mask of the worked case of R215. -/
def bytes (vs : List Nat) (x9 : Word) : State :=
  let s := one 0 [(9, x9)]
  { s with h := { s.h with vec := { s.h.vec with
      vl := 6, v := vs.zipIdx.foldl (fun m e => m.write (8 * 4096 + e.2) 1 e.1) [], k := s.h.vec.k.set 2 0x1B } } }

/-- The bytes of v8. -/
def v8 (s : State) : List Nat := (List.range 7).map fun i => s.h.vec.v.read (8 * 4096 + i) 1

/-- The table of R215: elements 1 and 4 saturate, 2 and 5 are inactive and 6 is of the tail. -/
theorem test_vsadd : runs (bytes [0x14, 0x64, 0xCE, 0x80, 0x1E, 5, 9] 100) 0x89084C95 (fun t =>
    v8 t == [0x78, 0x7F, 0xCE, 0xE4, 0x7F, 5, 9] && t.h.vec.vflags == 0 && t.h.vec.vstart == 0) := by
  decide +kernel

/-- The table of R220, on those results. -/
theorem test_masks : runs (bytes [120, 127, 0xCE, 0xE4, 0x7F, 5] 0) 0x94680422 (fun t =>
    t.h.vec.k[3] == 0xC && runs t 0x98A30008 (fun u => u.x 5 == 2) &&
    goesTo (exec (.kfirst 6 3 0) t) (fun u => u.x 6 == 2) && goesTo (exec (.ksbf 4 3 0) t) (fun u => u.h.vec.k[4] == 3) &&
    goesTo (exec (.ksif 5 3 0) t) (fun u => u.h.vec.k[5] == 7) && goesTo (exec (.ksof 6 3 0) t) (fun u => u.h.vec.k[6] == 4)) := by
  decide +kernel

/-- Six binary32 elements in v8 under the rounding mode r. -/
def floats (r : Nat) : State :=
  let s := one 6 []
  { s with h := { s.h with vec := { s.h.vec with
      vl := 6, vrnd := .ofNat 64 r
      v := [0x40200000, 0xC0200000, 0x471C4000, 0x7FC00001, 0x80000000, 0x3F400000].zipIdx.foldl
        (fun m e => m.write (8 * 4096 + 4 * e.2) 4 e.1) [] } } }

/-- The 16-bit elements of v4. -/
def v4 (s : State) : List Nat := (List.range 6).map fun i => s.h.vec.v.read (4 * 4096 + 2 * i) 2

/-- The worked conversion to I16 under the five modes: 2.5, -2.5, 40,000, a NaN, -0 and 0.75. -/
theorem test_vcvt : ∀ e ∈ [(0, [2, 0xFFFE, 0x7FFF, 0, 0, 1]), (1, [2, 0xFFFE, 0x7FFF, 0, 0, 0]), (2, [2, 0xFFFD, 0x7FFF, 0, 0, 0]),
      (3, [3, 0xFFFE, 0x7FFF, 0, 0, 1]), (4, [3, 0xFFFD, 0x7FFF, 0, 0, 1])],
    runs (floats e.1) 0xAC880401 (fun t => v4 t == e.2 && t.h.vec.vflags == 0x11) := by
  decide +kernel

/-- A scratchpad with 7 at 0 and 20 at 4, offsets 0, 4, 0, 0 in v8 and ones in v4. -/
def adds : State :=
  let s := one 2 [(10, 0x7F0000000000)]
  { s with h := { s.h with
      scratch := (Memory.write [] 0 4 7).write 4 4 20
      vec := { s.h.vec with v := ([1, 1, 1, 1].zipIdx.foldl (fun m e => m.write (4 * 4096 + 4 * e.2) 4 e.1)
        (Memory.write [] (8 * 4096 + 4) 4 4)) } } }

/-- The example of R258: the elements on one word are added in ascending order. -/
theorem test_vamoadd : runs adds 0xBC8A4408 (fun t =>
    ((List.range 4).map fun i => t.h.vec.v.read (4 * 4096 + 4 * i) 4) == [7, 20, 8, 9] &&
    t.h.scratch.read 0 4 == 10 && t.h.scratch.read 4 4 == 21) := by
  decide +kernel

/-- The pair PFX k3, v9 and VFADD v4, v8, v12 (worked encodings): the sum of active elements goes to v4 and v9. -/
theorem test_pair :
    let s := one 6 []
    let s := { s with h := { s.h with vec := { s.h.vec with
      v := (Memory.write [] (8 * 4096) 4 0x3F800000).write (8 * 4096 + 4) 4 0x40000000, k := s.h.vec.k.set 3 2 } } }
    runs s 0x6E1A4000 (fun t => let u := { t with h := { t.h with ir := 0x8C886600 } }
      runs u 0x8C886600 fun w => w.h.vec.v.read (4 * 4096) 4 == 0 && w.h.vec.v.read (4 * 4096 + 4) 4 == 0x40000000 &&
        w.h.vec.v.read (9 * 4096 + 4) 4 == 0x40000000 && w.h.vec.v.read (9 * 4096) 4 == 0) := by
  decide +kernel

/-- Three rays at a triangle (R297): a hit from behind, a miss, and a hit on an edge. -/
def rays : State :=
  let s := one 6 []
  let put (m : Memory) (r i v : Nat) : Memory := m.write (r * 4096 + 4 * i) 4 v
  let ray (m : Memory) (i x y : Nat) : Memory :=
    [x, y, 0xBF800000, 0, 0, 0x3F800000, 0, 0x41200000].zipIdx.foldl (fun m e => put m (8 + e.2) i e.1) m
  let ref (m : Memory) (i : Nat) : Memory := m.write (16 * 4096 + 8 * i) 8 0x7F0000000000
  { s with h := { s.h with scratch := (Memory.write [] 12 4 0x3F800000).write 28 4 0x3F800000, vec := { s.h.vec with
      vl := 3, v := [0, 1, 2].foldl ref (ray (ray (ray [] 0 0x3E800000 0x3E800000) 1 0x3F800000 0x3F800000) 2 0x3F000000 0x3F000000) } } }

theorem test_gtri : goesTo (exec (.gtri 4 8 16 false false 0) rays) (fun t =>
    ((List.range 3).map fun i => (List.range 4).map fun f => t.h.vec.v.read ((4 + f) * 4096 + 4 * i) 4) ==
      [[0x3F800000, 0x3E800000, 0x3E800000, 0xBF800000], [0x7F800000, 0, 0, 0], [0x3F800000, 0x3F000000, 0x3F000000, 0xBF800000]]) := by
  decide +kernel

/-- ASTC (R294): a block of one colour, written out from the layout of a void-extent block, and two illegal blocks: that
block with the bit of high dynamic range, and one whose mode is reserved. -/
theorem test_astc : astcTexel 4 4 0xDEF09ABC56781234FFFFFFFFFFFFFDFC 3 2 = [0x12, 0x56, 0x9A, 0xDE] ∧
    astcTexel 4 4 0xDEF09ABC56781234FFFFFFFFFFFFFFFC 0 0 = [255, 0, 255, 255] ∧
    astcTexel 4 4 0 0 0 = [255, 0, 255, 255] := by
  decide +kernel

/-- From reset with a word placed, the next step runs that word on a compute hart of the placed page (assumption 9). -/
theorem test_step : goesTo (step (State.reset.withFetchWord 32 0x08A59F50)) (fun t =>
    (t.harts.find? fun h => h.id == 0).any fun h => h.x[5] == 0xFFFFFFFFFFFF9F50 && h.pc == 0x100004) := by
  decide +kernel

end Sys2Proof.Tests
end

section
/-! PROOF. The registers whose writes are events of their own (R15, R71, R153, R154, R181, R271, R415, R436, R441). -/

namespace Sys2Proof.Machine

open Sys2Proof.Claims

/-! ### A turn given to another hart -/

@[simp] theorem State.onHart_of_none {s : State} {id : Nat} (h : s.switchTo id = none) (f : State → State) :
    s.onHart id f = s := by simp [State.onHart, h]

theorem State.onHart_of_some {s t : State} {id : Nat} (h : s.switchTo id = some t) (f : State → State) :
    s.onHart id f = ((f t).switchTo s.h.id).getD (f t) := by
  unfold State.onHart
  rw [h]
  cases hb : (f t).switchTo s.h.id <;> simp [hb]

/-- An event that applies f with the hart on turn does to that hart what f does. -/
theorem forHart_of_onHart {i : Instr} {s : State} {id : Nat} {f : State → State}
    (h : exec i s = .next (s.onHart id f)) : ForHart i s id fun t u => u = f t :=
  ⟨fun hn => by rw [h, State.onHart_of_none hn], fun t ht => ⟨f t, rfl, by rw [h, State.onHart_of_some ht]⟩⟩

@[simp] theorem State.onMantle_of_lt {s : State} {n : Nat} (h : n < 48) (f : State → State) :
    s.onMantle n f = s.onHart (mantleId n) f := if_pos h

@[simp] theorem State.onMantle_of_le {s : State} {n : Nat} (h : 48 ≤ n) (f : State → State) : s.onMantle n f = s :=
  if_neg (by omega)

/-! ### Page retirement (R415) -/

@[simp] theorem State.notice_mem (s : State) (c code : Nat) (v : Word) : (s.notice c code v).mem = s.mem := by
  unfold State.notice; split <;> rfl

@[simp] theorem State.notice_pow (s : State) (c code : Nat) (v : Word) : (s.notice c code v).pow = s.pow := by
  unfold State.notice; split <;> rfl

/-- Notices to any contexts leave memory, reports and retired pages as they are. -/
theorem State.foldl_notice_keeps (cs : List Nat) (code : Nat) (v : Word) (s : State) :
    (cs.foldl (fun t c => t.notice c code v) s).mem = s.mem ∧ (cs.foldl (fun t c => t.notice c code v) s).pow = s.pow := by
  induction cs generalizing s with
  | nil => exact ⟨rfl, rfl⟩
  | cons c cs ih => simpa using ih (s.notice c code v)

theorem State.pageReported_iff (s : State) (page : Nat) : s.pageReported page = true ↔ ∃ e ∈ s.pow.reports, e.2 = page := by
  simp [State.pageReported]

/-- A reported page that is not retired joins the list, and its reports are served. -/
theorem execPageRetire_reported {s : State} {addr : Nat} (hp : placeOf addr = .lpddr) (hr : s.pageReported (addr / 4096) = true)
    (hn : addr / 4096 ∉ s.pow.retired) : ∃ t, execPageRetire addr s = .next t ∧ t.mem = s.mem ∧ t.pow = { s.pow with
      retired := s.pow.retired ++ [addr / 4096], reports := s.pow.reports.filter fun e => e.2 != addr / 4096 } := by
  have hc : placeOf addr = .lpddr ∧ s.pageReported (addr / 4096) ∧ ¬ s.pow.retired.contains (addr / 4096) := by
    simp [hp, hr, hn]
  unfold execPageRetire
  rw [if_pos hc]
  exact ⟨_, rfl, State.foldl_notice_keeps ..⟩

theorem execPageRetire_of_not {s : State} {addr : Nat}
    (h : s.pageReported (addr / 4096) = false ∨ addr / 4096 ∈ s.pow.retired) : execPageRetire addr s = .next s := by
  unfold execPageRetire
  rw [if_neg]
  rintro ⟨-, hr, hn⟩
  rcases h with h | h
  · simp [h] at hr
  · simp [h] at hn

/-! ### The queue registers (R149, R153, R154) -/

theorem flag_or_one (v : Word) : flag (v ||| 1) 0 = true := by simp [flag]

theorem State.queuesRun_eq_false {s : State} : s.queuesRun = false ↔ s.fw.req = true ∨ s.fw.arm = true := by
  unfold State.queuesRun
  cases s.fw.req <;> simp

theorem Queue.accepts_iff (k : Queue) (t : Nat) : k.accepts t = true ↔
    (t + 2 ^ 32 - k.head) % 2 ^ 32 ≤ k.size ∧ (k.tail + 2 ^ 32 - k.head) % 2 ^ 32 ≤ (t + 2 ^ 32 - k.head) % 2 ^ 32 := by
  simp [Queue.accepts]

section
variable {s : State} {q : Nat}

/-- A write of QNOTIFY, QCTL_ENABLE or QCTL_DISABLE names one of 1,024 queues. -/
theorem execQueue_of_le (hq : 1024 ≤ q) (v : Word) : execQnotify q v s = .next s ∧ execQctlEnable q v s = .next s ∧
    execQctlDisable q v s = .next s := by
  simp [execQnotify, execQctlEnable, execQctlDisable, Nat.not_lt.mpr hq]

theorem State.qnotify_of_none (h : s.queue? q = none) (v : Word) : s.qnotify q v = s := by simp [State.qnotify, h]

theorem State.qctlOff_of_none (h : s.queue? q = none) (v : Word) :
    s.qctlOff q v = s.setQueue { Queue.init q with qctl := v &&& ~~~0x3E#64 } := by simp [State.qctlOff, h]

theorem State.qctlOff_of_some {k : Queue} (h : s.queue? q = some k) (v : Word) :
    s.qctlOff q v = s.setQueue { k with qctl := v &&& ~~~0x3E#64, enabled := false, tail := k.head, notify := [] } := by
  simp [State.qctlOff, h]

theorem State.qctlWait_disabled (h : ∀ k, s.queue? q = some k → k.enabled = false) {v : Word} (hv : flag v 0 = true) :
    s.qctlWait q v = s.rangeBusy (v.toNat / 64 * 64) 64 := by
  unfold State.qctlWait
  cases hk : s.queue? q with
  | none => simp [hv]
  | some k => simp [hv, h k hk]

theorem State.qctlWait_enabled {k : Queue} (h : s.queue? q = some k) (he : k.enabled = true) (v : Word) :
    s.qctlWait q v = none := by simp [State.qctlWait, h, he]

theorem State.qctlOn_disabled (h : ∀ k, s.queue? q = some k → k.enabled = false) (v : Word) :
    s.qctlOn q v = s.enableQueue q (v &&& ~~~0x3E#64) := by
  unfold State.qctlOn
  cases hk : s.queue? q with
  | none => rfl
  | some k => simp [h k hk]

/-- A running queue takes the new address at once; a stopped one goes on, unless its enable stopped it. -/
theorem State.qctlOn_enabled {k : Queue} (h : s.queue? q = some k) (he : k.enabled = true) (v : Word) :
    s.qctlOn q v = s.setQueue (if k.stopped = true ∧ k.atEnable = false then
      { k with qctl := v &&& ~~~0x3E#64, stopped := false, code := 0 } else { k with qctl := v &&& ~~~0x3E#64 }) := by
  simp only [State.qctlOn, h, he, if_true, Bool.and_eq_true, Bool.not_eq_true']
  split <;> rfl

/-- Enabling a queue that is not enabled waits while its descriptor has a busy word (R127). -/
theorem execQctlEnable_disabled (hq : q < 1024) (h : ∀ k, s.queue? q = some k → k.enabled = false) (v : Word) :
    execQctlEnable q v s = .next (if (s.rangeBusy ((v ||| 1).toNat / 64 * 64) 64).isSome then s
      else s.enableQueue q ((v ||| 1) &&& ~~~0x3E#64)) := by
  unfold execQctlEnable
  rw [State.qctlWait_disabled h (flag_or_one v), State.qctlOn_disabled h]
  cases s.rangeBusy ((v ||| 1).toNat / 64 * 64) 64 <;> simp [hq]

/-- Enabling a queue that is enabled waits for nothing. -/
theorem execQctlEnable_enabled {k : Queue} (hq : q < 1024) (h : s.queue? q = some k) (he : k.enabled = true) (v : Word) :
    execQctlEnable q v s = .next (s.qctlOn q (v ||| 1)) := by
  unfold execQctlEnable
  rw [State.qctlWait_enabled h he, if_pos ⟨hq, rfl⟩]

theorem State.qnotify_disabled {k : Queue} (h : s.queue? q = some k) (he : k.enabled = false) (v : Word) :
    s.qnotify q v = s := by simp [State.qnotify, h, he]

theorem State.qnotify_held {k : Queue} (h : s.queue? q = some k) (he : k.enabled = true) (hr : s.queuesRun = false)
    (v : Word) : s.qnotify q v = s.setQueue { k with notify := k.notify ++ [v.toNat % 2 ^ 32] } := by
  simp [State.qnotify, h, he, hr]

/-- While the queues run, a notify moves the tail where it fits, and else stops the queue with BAD-NOTIFY. -/
theorem State.qnotify_running {k : Queue} (h : s.queue? q = some k) (he : k.enabled = true) (hr : s.queuesRun = true)
    (v : Word) : s.qnotify q v = if k.accepts (v.toNat % 2 ^ 32) then s.setQueue { k with tail := v.toNat % 2 ^ 32 }
      else s.stopQueue q 5 := by
  simp [State.qnotify, State.applyNotify, h, he, hr]

end

/-! ### Plain registers (R15, R71, R143, R436, R441) -/

theorem execRegisterWrite_csr {n : Nat} (h : n < 0x1000) (v : Word) (s : State) : execRegisterWrite n v s =
    .next (if s.h.csrReadable n && s.h.csrWritable n && !csrActs n then s.csrWrite n v else s) := if_pos h

theorem execRegisterWrite_fqsize (v : Word) (s : State) : execRegisterWrite 0x2008 v s =
    .next (if v.toNat % 16 ≤ 12 then { s with host := { s.host with fqsize := v &&& 15 } } else s) := by
  simp [execRegisterWrite, State.fqWrite, field]

theorem execRegisterWrite_route {n : Nat} (h : n < 1024) (v : Word) (s : State) : execRegisterWrite (0x10000 + n) v s =
    .next { s with link := { s.link with routes := (n, v.toNat % 2 ^ 16) :: s.link.routes.filter fun e => e.1 != n } } := by
  unfold execRegisterWrite
  rw [if_neg (by omega), if_neg (by omega), if_neg (by omega), if_pos (by omega)]
  simp [field]

/-- A pair put before the list without its key is found under its key, and the others are found as before. -/
theorem find?_cons_filter_key {α : Type} (l : List (Nat × α)) (n k : Nat) (a : α) :
    ((n, a) :: l.filter fun e => e.1 != n).find? (fun e => e.1 == k) =
      if k = n then some (n, a) else l.find? fun e => e.1 == k := by
  by_cases h : k = n
  · simp [h]
  · have hf : ∀ e : Nat × α, decide ((e.1 != n) = true ∧ (e.1 == k) = true) = (e.1 == k) := fun e => by
      by_cases he : e.1 = k <;> simp [he, h]
    rw [List.find?_cons_of_neg (by simpa using Ne.symm h), List.find?_filter, if_neg h]
    simp only [hf]

end Sys2Proof.Machine

namespace Sys2Proof.Claims

open Sys2Proof.Machine

theorem mantleRegisters : MantleRegisters := by
  intro s n core addr reg v
  refine ⟨fun hn => ?_, fun hn => ?_, fun hn => ?_, rfl, fun hp => ⟨fun hr hn => ?_, fun h => ?_⟩⟩
  · exact forHart_of_onHart (by rw [exec_fenceEntryWrite, execFenceEntryWrite, State.onMantle_of_lt hn]; rfl)
  · exact forHart_of_onHart (by rw [exec_mlanemapWrite, execMlanemapWrite, State.onMantle_of_lt hn]; rfl)
  · simp [execFenceEntryWrite, execMlanemapWrite, hn]
  · obtain ⟨t, ht, hmem, hpow⟩ := execPageRetire_reported hp ((s.pageReported_iff _).mpr hr) hn
    exact ⟨t, ht, by rw [hpow], fun e => by simp [hpow], hmem⟩
  · exact execPageRetire_of_not (h.imp_left fun h => by simpa [← s.pageReported_iff] using h)

theorem queueRegisters : QueueRegisters := by
  intro s q v
  refine ⟨fun hq i hi => ?_, fun hq hn => ?_, fun k hq hk => ⟨fun he => ?_, fun he hh hf => ?_, fun he hh hf => ?_,
    fun he hh => ?_, ?_, fun he => ?_, fun he => ?_⟩⟩
  · obtain ⟨h1, h2, h3⟩ := execQueue_of_le (s := s) hq v
    fin_cases hi
    exacts [h1, h2, h3]
  · refine ⟨?_, execQctlEnable_disabled hq (fun k hk => by simp [hn] at hk) v, ?_⟩
    · simp [execQnotify, hq, State.qnotify_of_none hn]
    · simp [execQctlDisable, hq, State.qctlOff_of_none hn]
  · simp [execQnotify, State.qnotify_disabled hk he]
  · have hr : s.queuesRun = true := by simpa [← State.queuesRun_eq_false] using hh
    rw [exec_qnotify, execQnotify, if_pos hq, State.qnotify_running hk he hr, if_pos ((k.accepts_iff _).mpr hf)]
  · have hr : s.queuesRun = true := by simpa [← State.queuesRun_eq_false] using hh
    rw [exec_qnotify, execQnotify, if_pos hq, State.qnotify_running hk he hr, if_neg (mt (k.accepts_iff _).mp hf)]
  · simp [execQnotify, hq, State.qnotify_held hk he (State.queuesRun_eq_false.mpr hh)]
  · simp [execQctlDisable, hq, State.qctlOff_of_some hk]
  · rw [exec_qctlEnable, execQctlEnable_enabled hq hk he, State.qctlOn_enabled hk he]
  · exact execQctlEnable_disabled hq (fun j hj => by rw [hk] at hj; cases hj; exact he) v

theorem plainRegisterWrites : PlainRegisterWrites := by
  intro s n v
  refine ⟨fun hn hr hw ha => ?_, fun hn hw => ?_, rfl, rfl, rfl, ?_, rfl, fun hn => ?_⟩
  · have hc : csrActs n = false := by simpa [csrActs] using ha
    rw [exec_registerWrite, execRegisterWrite_csr hn]
    simp [hr, hw, hc]
  · rw [exec_registerWrite, execRegisterWrite_csr hn]
    simp [hw]
  · rw [exec_registerWrite, execRegisterWrite_fqsize]
  · refine ⟨_, execRegisterWrite_route hn v s, rfl, ?_, fun k hk => ?_⟩
    · rw [find?_cons_filter_key, if_pos rfl]
    · rw [find?_cons_filter_key, if_neg hk]

/-- Settles O60: the Mantle's registers, the queues' and the plain ones. -/
theorem registerEvents : Obligations.RegisterEvents := ⟨mantleRegisters, queueRegisters, plainRegisterWrites⟩

end Sys2Proof.Claims
end

section
/-! PROOF. Where the statement on what a step carries out fails: at a word that may not stand behind the live PFX word, on a
hart whose `back` names a pc though no vector instruction is on turn. The step traps then (R38, R75), while `State.illegal`,
which the statement names for it, sees in `back` a started vector instruction that is left off. -/

namespace Sys2Proof.Claims

open Sys2Proof.Machine

/-- PFX with p = x6, neg and cpy = x9 (R36): a scalar one. -/
def scalarPfxWord : IWord := 0x6D324000

/-- WFI, which no scalar PFX word may precede (R38). -/
def wfiWord : IWord := 0x64000003

/-- The lead Mantle hart alone, with the PFX word live and WFI at its pc. Its `back` and `cur` are those of a younger
instruction of the chain window, but its window is empty and `cap` holds nothing. -/
def strayBack : State :=
  let g := Hart.mantleInit 0
  { State.reset with
    h := { g with back := some 0, cur := 1, trap := { g.trap with pfxstate := scalarPfxWord.setWidth 64, pfxLive := true } }
    others := []
    mem := Memory.write [] g.pc.toNat 4 wfiWord.toNat
    agenda := [.hart g.id] }

/-- The machine in which the turn begins that stands on the agenda. -/
def strayTurn : State := { strayBack with agenda := [] }

theorem turns_strayBack : Turns strayBack strayTurn :=
  ⟨rfl, .inr ⟨[], rfl, rfl, by decide +kernel⟩, rfl, rfl, rfl, rfl, rfl, rfl, rfl⟩

/-- Whether a fetch answers WFI with the PFX word live and WFI's units free, and left to `State.illegal` the hart would
take no trap. -/
noncomputable def leavesOffWfi (r : Res IWord) : Bool :=
  match r with
  | .ok w t => w == wfiWord && t.unitsFree w && t.h.inRegion.isNone && t.h.pfx == some scalarPfxWord &&
      !t.h.trap.pfxTret && (turned strayBack (fetched t w).illegal).h.trap.tval == 0
  | .stop _ _ => false

/-- Whether the hart on turn has trapped at WFI: tval holds its word (R408). -/
def trapsWfi (o : Out) : Bool :=
  match o with
  | .next t => t.h.trap.tval == wfiWord.setWidth 64
  | _ => false

theorem fetches_strayBack : ∃ t, Fetches strayBack wfiWord t ∧ t.h.pfx = some scalarPfxWord ∧ t.h.trap.pfxTret = false ∧
    (turned strayBack (fetched t wfiWord).illegal).h.trap.tval = 0 := by
  have h : leavesOffWfi strayTurn.fetch = true := by decide +kernel
  cases hf : strayTurn.fetch with
  | stop w t => rw [hf] at h; cases h
  | ok w t =>
    simp only [hf, leavesOffWfi, Bool.and_eq_true, beq_iff_eq, Option.isNone_iff_eq_none, Bool.not_eq_true'] at h
    obtain ⟨⟨⟨⟨⟨rfl, hu⟩, hr⟩, hp⟩, ht⟩, hv⟩ := h
    exact ⟨t, ⟨strayTurn, turns_strayBack, rfl, rfl, rfl, hf, hr, hu⟩, hp, ht, hv⟩

theorem step_strayBack : trapsWfi (step strayBack) = true := by decide +kernel

/-- Refutes O46: of a word that may not stand behind the live PFX word the statement says that the step ends in
`State.illegal`, for any `back` and `cur` of the hart; in `strayBack` the step takes the trap and `State.illegal` does not. -/
theorem not_stepRunsDecodedInstruction : ¬ Obligations.StepRunsDecodedInstruction := by
  unfold Obligations.StepRunsDecodedInstruction
  rintro ⟨h, -⟩
  obtain ⟨t, hf, hp, ht, hv⟩ := fetches_strayBack
  obtain ⟨-, -, -, hpair⟩ := h strayBack t wfiWord hf
  obtain ⟨hbad, -⟩ := hpair .wfi scalarPfxWord hp ht rfl (fun hv => absurd hv.2 (by decide))
  have hs := step_strayBack
  rw [hbad (by decide), trapsWfi, hv] at hs
  exact absurd hs (by decide)

end Sys2Proof.Claims
end

section
/-! PROOF. The instruction word (R18 to R33): what encodes decodes back, what decodes encodes back, and which words are
refused. -/

namespace Sys2Proof.Laws

/-! ### A word and its fields -/

/-- What stands from bit lo of a word on. -/
def above (w lo : Nat) : Nat := w / 2 ^ lo

theorem above_zero (w : Nat) : above w 0 = w := Nat.div_one w

/-- A field with what stands above it. Over all the fields of a word these equations put the word together. -/
theorem fld_split (w lo n : Nat) : fld w lo n + 2 ^ n * above w (lo + n) = above w lo := by
  unfold fld above
  rw [pow_add, ← Nat.div_div_eq_div_mul, Nat.mod_add_div]

theorem fld_lt (w lo n : Nat) : fld w lo n < 2 ^ n := Nat.mod_lt _ (Nat.two_pow_pos n)

/-! ### The value of an operand is its field -/

theorem val_ofNat_fld {m n : Nat} [NeZero m] (w lo : Nat) (h : m = 2 ^ n) :
    (Fin.ofNat m (fld w lo n)).val = fld w lo n := Nat.mod_eq_of_lt (h ▸ fld_lt w lo n)

theorem toNat_ofNat_fld (w lo n : Nat) : (BitVec.ofNat n (fld w lo n)).toNat = fld w lo n :=
  Nat.mod_eq_of_lt (fld_lt w lo n)

theorem toNat_bit (w lo : Nat) : (bit w lo).toNat = fld w lo 1 := by
  obtain h | h : fld w lo 1 = 0 ∨ fld w lo 1 = 1 := Nat.mod_two_eq_zero_or_one (w / 2 ^ lo) <;> simp [bit, h]

theorem Policy.code_ofCode {m : Nat} (h : m < 4) : (Policy.ofCode m).code = m := by interval_cases m <;> rfl

theorem Scope.code_ofCode {m : Nat} (h : m < 4) : (Scope.ofCode m).code = m := by interval_cases m <;> rfl

theorem Dir.code_ofCode {m : Nat} (h : m < 4) : (Dir.ofCode m).code = m := by interval_cases m <;> rfl

theorem policyCode_fld (w lo : Nat) : (Policy.ofCode (fld w lo 2)).code = fld w lo 2 :=
  Policy.code_ofCode (fld_lt w lo 2)

theorem scopeCode_fld (w lo : Nat) : (Scope.ofCode (fld w lo 2)).code = fld w lo 2 := Scope.code_ofCode (fld_lt w lo 2)

theorem dirCode_fld (w lo : Nat) : (Dir.ofCode (fld w lo 2)).code = fld w lo 2 := Dir.code_ofCode (fld_lt w lo 2)

/-! ### The rows of a table -/

/-- What holds of a row's instruction where its condition holds, and of what the rows behind it answer. -/
theorem forall_mem_ite {c : Prop} {_ : Decidable c} {P : Instr → Prop} {i : Instr} {o : Option Instr}
    (ho : ∀ x ∈ o, P x) (h : c → P i) : ∀ x ∈ if c then some i else o, P x := by
  split
  · rintro _ ⟨⟩
    exact h ‹c›
  · exact ho

/-- Every instruction that a table answers has the word w. -/
def Encoded (w : Nat) (o : Option Instr) : Prop := ∀ i ∈ o, encode i = some w

theorem encoded_none {w : Nat} : Encoded w none := by simp [Encoded]

theorem encoded_some {w n : Nat} {i : Instr} (hn : encode i = some n) (h : n = above w 0) : Encoded w (some i) := by
  rintro _ ⟨⟩
  rw [hn, h, above_zero]

theorem encoded_ite {w n : Nat} {c : Prop} {_ : Decidable c} {i : Instr} {o : Option Instr} (hn : encode i = some n)
    (ho : Encoded w o) (h : c → n = above w 0) : Encoded w (if c then some i else o) :=
  forall_mem_ite ho fun hc => by rw [hn, h hc, above_zero]

/-- No instruction that a table answers is well-formed. -/
def Refused (o : Option Instr) : Prop := ∀ i ∈ o, i.wf = false

theorem refused_none : Refused none := by simp [Refused]

/-! ### The tables, by major opcode -/

noncomputable section

/-- The classes of one instruction each, whose opcode alone names it (R28). -/
def immediateTables (w : Nat) : List (Nat × Option Instr) :=
  [(0x02, decodeOp02 w), (0x03, decodeOp03 w), (0x04, decodeOp04 w), (0x05, decodeOp05 w), (0x06, decodeOp06 w),
   (0x07, decodeOp07 w), (0x09, decodeOp09 w), (0x0A, decodeOp0A w), (0x0B, decodeOp0B w), (0x0C, decodeOp0C w),
   (0x0D, decodeOp0D w), (0x0E, decodeOp0E w), (0x0F, decodeOp0F w), (0x10, decodeOp10 w), (0x11, decodeOp11 w),
   (0x12, decodeOp12 w)]

/-- The scalar classes with a function code (R28). -/
def scalarTables (w : Nat) : List (Nat × Option Instr) :=
  [(0x01, decodeOp01 w), (0x08, decodeOp08 w), (0x13, decodeOp13 w), (0x14, decodeOp14 w), (0x15, decodeOp15 w),
   (0x16, decodeOp16 w), (0x17, decodeOp17 w), (0x18, decodeOp18 w), (0x19, decodeOp19 w), (0x1A, decodeOp1A w),
   (0x1B, decodeOp1B w)]

/-- VSETL and the vector arithmetic classes (R28). -/
def arithmeticTables (w : Nat) : List (Nat × Option Instr) :=
  [(0x20, decodeOp20 w), (0x21, decodeOp21 w), (0x22, decodeOp22 w), (0x23, decodeOp23 w), (0x24, decodeOp24 w)]

/-- The compare, mask, divergence, permute, reduction and conversion classes (R28). -/
def maskTables (w : Nat) : List (Nat × Option Instr) :=
  [(0x25, decodeOp25 w), (0x26, decodeOp26 w), (0x27, decodeOp27 w), (0x28, decodeOp28 w), (0x29, decodeOp29 w),
   (0x2A, decodeOp2A w), (0x2B, decodeOp2B w)]

/-- The vector memory, YOKE, stream, message, graphics and traversal classes (R28). -/
def unitTables (w : Nat) : List (Nat × Option Instr) :=
  [(0x2C, decodeOp2C w), (0x2D, decodeOp2D w), (0x2E, decodeOp2E w), (0x2F, decodeOp2F w), (0x30, decodeOp30 w),
   (0x31, decodeOp31 w), (0x32, decodeOp32 w), (0x33, decodeOp33 w), (0x34, decodeOp34 w)]

/-- The tables of all the major opcodes of R28. -/
def tables (w : Nat) : List (Nat × Option Instr) :=
  immediateTables w ++ scalarTables w ++ arithmeticTables w ++ maskTables w ++ unitTables w

end

theorem decodeRaw_mem_tables (w : Nat) : decodeRaw w = none ∨ (above w 26, decodeRaw w) ∈ tables w := by
  rw [show above w 26 = w / 67108864 from rfl]
  unfold decodeRaw
  split
  all_goals simp [tables, immediateTables, scalarTables, arithmeticTables, maskTables, unitTables, *]

/-! In each table the row's condition fixes the fields of its code and its zeros, and the encoding is the sum of all the
fields: `fld_split` makes it the word. -/

theorem encoded_of_mem_immediateTables {w : Nat} {o : Option Instr} (h : (above w 26, o) ∈ immediateTables w) :
    Encoded w o := by
  generalize hop : above w 26 = op at h
  simp only [immediateTables, decodeOp02, decodeOp03, decodeOp04, decodeOp05, decodeOp06, decodeOp07, decodeOp09,
    decodeOp0A, decodeOp0B, decodeOp0C, decodeOp0D, decodeOp0E, decodeOp0F, decodeOp10, decodeOp11, decodeOp12,
    List.mem_cons, List.not_mem_nil, or_false, Prod.mk.injEq] at h
  rcases h with ⟨rfl, rfl⟩ | ⟨rfl, rfl⟩ | ⟨rfl, rfl⟩ | ⟨rfl, rfl⟩ | ⟨rfl, rfl⟩ | ⟨rfl, rfl⟩ | ⟨rfl, rfl⟩ | ⟨rfl, rfl⟩
    | ⟨rfl, rfl⟩ | ⟨rfl, rfl⟩ | ⟨rfl, rfl⟩ | ⟨rfl, rfl⟩ | ⟨rfl, rfl⟩ | ⟨rfl, rfl⟩ | ⟨rfl, rfl⟩ | ⟨rfl, rfl⟩
  all_goals
    refine encoded_some rfl ?_
    simp only [val_ofNat_fld, toNat_ofNat_fld, Nat.reducePow]
    grind only [fld_split]

theorem encoded_of_mem_scalarTables {w : Nat} {o : Option Instr} (h : (above w 26, o) ∈ scalarTables w) :
    Encoded w o := by
  generalize hop : above w 26 = op at h
  simp only [scalarTables, decodeOp01, decodeOp08, decodeOp13, decodeOp14, decodeOp15, decodeOp16, decodeOp17,
    decodeOp18, decodeOp19, decodeOp1A, decodeOp1B, List.mem_cons, List.not_mem_nil, or_false, Prod.mk.injEq] at h
  rcases h with ⟨rfl, rfl⟩ | ⟨rfl, rfl⟩ | ⟨rfl, rfl⟩ | ⟨rfl, rfl⟩ | ⟨rfl, rfl⟩ | ⟨rfl, rfl⟩ | ⟨rfl, rfl⟩ | ⟨rfl, rfl⟩
    | ⟨rfl, rfl⟩ | ⟨rfl, rfl⟩ | ⟨rfl, rfl⟩
  all_goals
    repeat refine encoded_ite rfl ?_ fun hc => ?_
    on_goal 1 => exact encoded_none
    all_goals try simp only [val_ofNat_fld, toNat_ofNat_fld, toNat_bit, policyCode_fld, scopeCode_fld,
      dirCode_fld, Nat.reducePow]
    all_goals grind only [fld_split]

theorem encoded_of_mem_arithmeticTables {w : Nat} {o : Option Instr} (h : (above w 26, o) ∈ arithmeticTables w) :
    Encoded w o := by
  generalize hop : above w 26 = op at h
  simp only [arithmeticTables, decodeOp20, decodeOp21, decodeOp22, decodeOp23, decodeOp24, List.mem_cons,
    List.not_mem_nil, or_false, Prod.mk.injEq] at h
  rcases h with ⟨rfl, rfl⟩ | ⟨rfl, rfl⟩ | ⟨rfl, rfl⟩ | ⟨rfl, rfl⟩ | ⟨rfl, rfl⟩
  all_goals
    repeat refine encoded_ite rfl ?_ fun hc => ?_
    on_goal 1 => exact encoded_none
    all_goals simp only [val_ofNat_fld, toNat_bit, Nat.reducePow]
    all_goals grind only [fld_split]

theorem encoded_of_mem_maskTables {w : Nat} {o : Option Instr} (h : (above w 26, o) ∈ maskTables w) :
    Encoded w o := by
  generalize hop : above w 26 = op at h
  simp only [maskTables, decodeOp25, decodeOp26, decodeOp27, decodeOp28, decodeOp29, decodeOp2A, decodeOp2B,
    List.mem_cons, List.not_mem_nil, or_false, Prod.mk.injEq] at h
  rcases h with ⟨rfl, rfl⟩ | ⟨rfl, rfl⟩ | ⟨rfl, rfl⟩ | ⟨rfl, rfl⟩ | ⟨rfl, rfl⟩ | ⟨rfl, rfl⟩ | ⟨rfl, rfl⟩
  all_goals
    repeat refine encoded_ite rfl ?_ fun hc => ?_
    on_goal 1 => exact encoded_none
    all_goals try simp only [val_ofNat_fld, toNat_ofNat_fld, toNat_bit, Nat.reducePow]
    all_goals grind only [fld_split]

theorem encoded_of_mem_unitTables {w : Nat} {o : Option Instr} (h : (above w 26, o) ∈ unitTables w) :
    Encoded w o := by
  generalize hop : above w 26 = op at h
  simp only [unitTables, decodeOp2C, decodeOp2D, decodeOp2E, decodeOp2F, decodeOp30, decodeOp31, decodeOp32,
    decodeOp33, decodeOp34, List.mem_cons, List.not_mem_nil, or_false, Prod.mk.injEq] at h
  rcases h with ⟨rfl, rfl⟩ | ⟨rfl, rfl⟩ | ⟨rfl, rfl⟩ | ⟨rfl, rfl⟩ | ⟨rfl, rfl⟩ | ⟨rfl, rfl⟩ | ⟨rfl, rfl⟩ | ⟨rfl, rfl⟩
    | ⟨rfl, rfl⟩
  all_goals
    repeat refine encoded_ite rfl ?_ fun hc => ?_
    on_goal 1 => exact encoded_none
    all_goals try simp only [val_ofNat_fld, toNat_bit, policyCode_fld, Nat.reducePow]
    all_goals grind only [fld_split]

theorem encoded_decodeRaw (w : Nat) : Encoded w (decodeRaw w) := by
  obtain h | h := decodeRaw_mem_tables w
  · rw [h]
    exact encoded_none
  · simp only [tables, List.mem_append] at h
    obtain (((h | h) | h) | h) | h := h
    · exact encoded_of_mem_immediateTables h
    · exact encoded_of_mem_scalarTables h
    · exact encoded_of_mem_arithmeticTables h
    · exact encoded_of_mem_maskTables h
    · exact encoded_of_mem_unitTables h

/-! ### The decoder -/

theorem opcodeListed_iff {op : Nat} : opcodeListed op = true ↔ (1 ≤ op ∧ op ≤ 0x1B) ∨ (0x20 ≤ op ∧ op ≤ 0x34) := by
  simp [opcodeListed]

/-- What the decoder answers comes from the table of a listed opcode, and is well-formed. -/
theorem decode_eq_ok {w : Nat} {i : Instr} (h : decode w = .ok i) :
    opcodeListed (w / 67108864) = true ∧ decodeRaw w = some i ∧ i.wf = true := by
  unfold decode at h
  split at h
  · split at h
    · split at h
      · cases h
        exact ⟨‹_›, ‹_›, ‹_›⟩
      · cases h
    · cases h
  · cases h

/-- A word that decodes has 32 bits. -/
theorem lt_of_decode_eq_ok {w : Nat} {i : Instr} (h : decode w = .ok i) : w < 2 ^ 32 := by
  have := opcodeListed_iff.mp (decode_eq_ok h).1
  omega

/-- A word is refused where its table answers nothing, or an instruction that is not well-formed. -/
theorem decode_ne_ok {w : Nat} (h : Refused (decodeRaw w)) (i : Instr) : decode w ≠ .ok i := by
  intro hd
  obtain ⟨-, hr, hwf⟩ := decode_eq_ok hd
  rw [h i hr] at hwf
  cases hwf

/-- The check that runs says what the predicate says: the instructions named here have a condition on their operands,
the others none. -/
theorem wellFormed_of_wf {i : Instr} (h : i.wf = true) : i.WellFormed := by
  cases i
  case slli | srli | srai | rori | amoswap | amoadd | amoand | amoor | amoxor | amomin | amomax | amominu | amomaxu |
    amocas | pref | ipop | ipopnb | pfx | vseq | vsne | vslt | vsltu | vsle | vsleu | vsgt | vsgtu | vfeq | vfne |
    vflt | vfle | vfunord | kand | kor | kxor | kandn | knot | kmov | kset | kclr | ksbf | ksif | ksof | region | vcvt
    | vldSegment | vstSegment | ydrain | hizq =>
    exact (of_decide_eq_true h :)
  all_goals trivial

/-- `EncodeDecode` for every instruction: the lemma of each row, in the order of the opcode table. -/
theorem EncodeDecode.statement (i : Instr) : Statement i :=
  i.casesOn (motive := Statement) add sub and or xor andn sll srl sra slt sltu min max minu maxu mul mulh mulhu div
    divu rem remu clz ctz popc addi andi ori xori slti sltiu slli srli srai rori lui addpc jal jalr beq bne blt bge
    bltu bgeu lb lbu lh lhu lw lwu ld sb sh sw sd amoswap amoadd amoand amoor amoxor amomin amomax amominu amomaxu
    amocas fence cinv cinvI cwb czero pref csrr csrw csrs csrc csrwi csrsi csrci ecall ebreak tret wfi sfence yield
    halt thaw ipop ipopnb wmbind wmpub wmread pfx vsetl vadd vsub vand vor vxor vandn vsll vsrl vsra vmin vmax vminu
    vmaxu vmul vmulh vmulhu vdiv vdivu vrem vremu vmacc vsadd vsaddu vssub vssubu vabsd vclz vctz vpopc vmv vaddX
    vsubX vandX vorX vxorX vandnX vsllX vsrlX vsraX vminX vmaxX vminuX vmaxuX vmulX vmulhX vmulhuX vdivX vdivuX vremX
    vremuX vmaccX vsaddX vsadduX vssubX vssubuX vabsdX vmvX vfadd vfsub vfmul vfdiv vfmin vfmax vfmadd vfmsub vfnmadd
    vfnmsub vfsgnj vfsgnjn vfsqrt vfrcp vfrsq vfexp2 vflog2 vfsin vfcos vfabs vfneg vfclass vfaddX vfsubX vfmulX
    vfdivX vfminX vfmaxX vfmaddX vfmsubX vfnmaddX vfnmsubX vfsgnjX vfsgnjnX vseq vsne vslt vsltu vsle vsleu vsgt vsgtu
    vfeq vfne vflt vfle vfunord kand kor kxor kandn knot kmov kset kclr kpopc kfirst ksbf ksif ksof pushm elsem popm
    kbreak region vgather vslideup vslidedn vslide1up vslide1dn vcompress vexpand viota vbcast vext vins vconflict
    vredSum vredMin vredMax vredMinu vredMaxu vredAnd vredOr vredXor vredFsum vredFmin vredFmax vscanSum vscanFsum
    vcvt vldUnit vldStrided vldIndexed vldSegment vstUnit vstStrided vstIndexed vstSegment vldff vldw vstw vldslide
    vamoswap vamoadd vamoand vamoor vamoxor vamomin vamomax vamominu vamomaxu vamocas yattach ydetach yzero yldb ymma
    yrot ydrain ywait sbind sunbind scopy savail xall xred tex span blend hizq gbox gtri gwalk ghit vmarch vrand
    vectorStart loadDataReturn wfiWake interrupt faultRecordWrite frespReplay frespToSupervisor frespEndLaunch
    faultServiceTimeout watchdogExpire homeSelfFill homeTrkLoad homeOwnership homeThruLoad homeTrkStore homeThruStore
    homeDrain homeFarOperation homeWritebackCwb homeEvictNotice homeWritebackEvict homeAcknowledgement l1Invalidation
    l1Update l1Recall l1Fetch coreAckReceive selfDrainTimeout migrationEntryUpdate migrationForwardComplete
    epochRollover pageRetire pageWalk pteMovingReread fenceEntryWrite mlanemapWrite laneMapTakeup mhbeatWrite
    mantleSilentReport fwquiQuiesce fwquiResume mantlePacketBoundaryStop fwcmdInstall installComplete fwcmdMeasure
    measureComplete fwcmdSwitch fwcmdIgnored fwstatOoClear heartbeatWindowExpire qnotify qctlEnable qctlDisable launch
    launchComplete wait waitComplete signal draw drawComplete debugHalt debugInspect debugResume traceOn traceOff
    sample stripBreakpoint clearBreakpoint debugStripStop debugHaltTimeout traceSampleTick schedulerTick
    mantleDecision levelAging contextSave watermarkStallEnd streamPrefetch scopyComplete sunbindWriteComplete
    xallArrivalAdd xallComplete xredChunkArrive xredChunkResend xredBusyTimeout xredComplete yokeRendezvous latchSwap
    yokeOpComplete meshletDispatch sashNotify sashSetup spanEmit hemRelease hemTileLoad hemTileEvict hostCxlMemRead
    hostCxlMemWrite hostSnoop flitReceive flitNak portDown portRetrainComplete routeDownTimeout peerRequestArrival
    packageReset d3hotEntry d3hotExit throttleRaiseTick throttleLowerTick overcurrentThrottle thermalShutdown
    setPowerCap raiseSvnRevoke getVersion getCapabilities negotiateAlgorithms getDigests getCertificate challenge
    getMeasurements spdmVendorSignature pldmSensorRead registerWrite powerLoss configurationRequest cxlCacheResponse
    elementGroupComplete streamDataArrival hostPageMigration bitError

/-! ### A word and its bytes -/

open Claims (bytesOf)

theorem wordOfBytes_bytesOf {w : Nat} (h : w < 2 ^ 32) :
    wordOfBytes (.ofNat 8 (w / 256 ^ 0)) (.ofNat 8 (w / 256 ^ 1)) (.ofNat 8 (w / 256 ^ 2)) (.ofNat 8 (w / 256 ^ 3)) =
      w := by
  simp only [wordOfBytes, BitVec.toNat_ofNat]
  omega

/-- The bytes of a word at the head of a stream are read as that word. -/
theorem decodeBytes_bytesOf_append {w : Nat} (h : w < 2 ^ 32) (rest : List Byte) :
    decodeBytes (bytesOf w ++ rest) = (decode w).map fun i => (i, rest) := by
  conv_rhs => rw [← wordOfBytes_bytesOf h]
  rfl

end Sys2Proof.Laws

namespace Sys2Proof.Claims

open Sys2Proof.Laws

/-- Settles O43, by the lemma of each row of the opcode table and by putting the word's bytes together. -/
theorem encodeThenDecode : Obligations.EncodeThenDecode := by
  intro i w hwf hw
  have hd : decode w = .ok i := EncodeDecode.statement i w hwf hw
  have hlt := lt_of_decode_eq_ok hd
  refine ⟨hlt, hd, fun rest => ?_⟩
  rw [decodeBytes_bytesOf_append hlt, hd]
  rfl

/-- Settles O44, table by table: each row fixes every bit of the word that no operand of its instruction holds. -/
theorem decodeThenEncode : Obligations.DecodeThenEncode := by
  intro w i h
  obtain ⟨-, hr, hwf⟩ := decode_eq_ok h
  exact ⟨hwf, encoded_decodeRaw w i hr, wellFormed_of_wf hwf⟩

/-- No row takes a word with a reserved code of its table (R28), or with a nonzero reserved field (R33). -/
theorem refused_of_reserved (w : Nat) :
    (25 ≤ w % 64 ∨ w / 128 % 16 ≠ 0 → Refused (decodeOp01 w)) ∧ (w / 2048 % 8 = 7 → Refused (decodeOp13 w)) ∧
    (w / 2048 % 2 = 1 → Refused (decodeOp14 w)) ∧ (8 ≤ w % 2048 → Refused (decodeOp19 w)) ∧
    (5 ≤ w % 2048 → Refused (decodeOp1A w)) ∧ (13 ≤ w % 64 → Refused (decodeOp26 w)) ∧
    (4 ≤ w % 2048 → Refused (decodeOp31 w)) ∧ (6 ≤ w % 64 → Refused (decodeOp34 w)) := by
  simp only [decodeOp01, decodeOp13, decodeOp14, decodeOp19, decodeOp1A, decodeOp26, decodeOp31, decodeOp34]
  and_intros
  all_goals
    intro h
    repeat refine forall_mem_ite ?_ fun hc => ?_
    on_goal 1 => exact refused_none
    all_goals
      simp only [fld] at hc
      omega

/-- An AMO whose code or bit 10 is reserved has no row, and one of scope 3 is not well-formed (R27). -/
theorem refused_decodeOp15 {w : Nat} (h : 10 ≤ w % 16 ∨ w / 256 % 4 = 3 ∨ w / 1024 % 2 = 1) :
    Refused (decodeOp15 w) := by
  have hv : (Fin.ofNat 4 (fld w 8 2)).val = w / 256 % 4 := val_ofNat_fld w 8 rfl
  unfold decodeOp15
  repeat refine forall_mem_ite ?_ fun hc => decide_eq_false fun hs => ?_
  · exact refused_none
  all_goals
    rw [hv] at hs
    simp only [fld] at hc
    omega

theorem reservedWordsRefused : ReservedWordsRefused := by
  intro w _ op
  obtain ⟨h01, h13, h14, h19, h1A, h26, h31, h34⟩ := refused_of_reserved w
  refine ⟨fun ho i hd => ?_, ?_⟩
  · have := opcodeListed_iff.mp (decode_eq_ok hd).1
    omega
  and_intros
  all_goals
    refine fun ho hc => decode_ne_ok ?_
    unfold decodeRaw
    rw [show w / 67108864 = _ from ho]
  exacts [h01 hc, h13 hc, h14 hc, refused_decodeOp15 hc, h19 hc, h1A hc, h26 hc, h31 hc, h34 hc]

theorem wordsDecode : WordsDecode := by
  and_intros
  all_goals exact EncodeDecode.statement _ _ rfl rfl

/-- Settles O45: no row of its table takes a reserved word, and each example is the word of its instruction. -/
theorem specWords : Obligations.SpecWords := ⟨reservedWordsRefused, wordsDecode⟩

end Sys2Proof.Claims
end

section
/-! PROOF. Scalar instructions that write a register and retire (R37, R47, R50 to R57, R75, R77). -/

namespace Sys2Proof.Laws

open Sys2Proof.Machine Sys2Proof.Claims

/-! ### Retiring -/

/-- What the statements call `left` is what retiring does to the hart. -/
theorem retired_eq_left (h : Hart) (npc : Word) : h.retired npc = left h npc := by
  unfold Hart.retired left
  cases h.back <;> simp

/-- Retiring neither reads nor writes the x registers. -/
theorem left_withX (h : Hart) (npc : Word) (xs : Vector Word 32) :
    left { h with x := xs } npc = { left h npc with x := xs } := by
  unfold left
  cases h.back <;> rfl

@[simp] theorem left_x (h : Hart) (npc : Word) : (left h npc).x = h.x := by
  unfold left
  cases h.back <;> rfl

@[simp] theorem x_retireAt (s : State) (npc : Word) (r : Fin 32) : (s.retireAt npc).x r = s.x r := rfl

@[simp] theorem x_finish (s : State) (r : Fin 32) : s.finish.x r = s.x r := rfl

theorem retireAt_eq (s : State) (npc : Word) : s.retireAt npc = { s with h := left s.h npc } := by
  rw [← retired_eq_left]; rfl

theorem finish_eq (s : State) : s.finish = { s with h := left s.h (s.h.pc + 4) } := retireAt_eq s _

/-- Retiring after a change of x registers alone. -/
theorem retired_retireAt_withX (s : State) (xs : Vector Word 32) (npc : Word) :
    Retired s ({ s with h := { s.h with x := xs } }.retireAt npc) npc := by
  rw [retireAt_eq]
  simp only [left_withX]
  exact ⟨rfl, fun _ => rfl⟩

/-- Retiring alone. -/
theorem retired_retireAt (s : State) (npc : Word) : Retired s (s.retireAt npc) npc :=
  retired_retireAt_withX s s.h.x npc

theorem retired_finish (s : State) : Retired s s.finish (s.h.pc + 4) := retired_retireAt s _

/-- An instruction that retires at npc and writes no register. -/
theorem exists_retired {o : Out} {s : State} {npc : Word} (h : o = .next (s.retireAt npc)) :
    ∃ t, o = .next t ∧ (∀ r, t.x r = s.x r) ∧ Retired s t npc := ⟨_, h, fun _ => rfl, retired_retireAt s npc⟩

/-! ### Writing a register -/

theorem exists_set_eq (h : Hart) (d : Fin 32) (v : Word) : ∃ xs, h.set d v = { h with x := xs } := by
  unfold Hart.set
  split
  · exact ⟨h.x, rfl⟩
  · exact ⟨_, rfl⟩

/-- A result changes x registers alone. -/
theorem exists_wr_eq (s : State) (d : Fin 32) (v : Word) : ∃ xs, s.wr d v = { s with h := { s.h with x := xs } } := by
  obtain ⟨xs, hx⟩ := exists_set_eq s.h d v
  unfold State.wr
  rw [hx]
  split
  · rename_i c _
    obtain ⟨ys, hy⟩ := exists_set_eq { s.h with x := xs } c v
    exact ⟨ys, by simp only [hy]⟩
  · exact ⟨xs, rfl⟩

/-- An instruction that writes v to x d and retires at npc. -/
theorem wroteX_retireAt (s : State) (d : Fin 32) (v npc : Word) :
    WroteX s ((s.wr d v).retireAt npc) d v ∧ Retired s ((s.wr d v).retireAt npc) npc := by
  refine ⟨fun r => by rw [x_retireAt, State.x_wr], ?_⟩
  obtain ⟨xs, hx⟩ := exists_wr_eq s d v
  rw [hx]
  exact retired_retireAt_withX s xs npc

theorem wroteX_finishWr (s : State) (d : Fin 32) (v : Word) :
    WroteX s (s.finishWr d v) d v ∧ Retired s (s.finishWr d v) (s.h.pc + 4) := by
  have hpc : (s.wr d v).h.pc = s.h.pc := by
    obtain ⟨xs, hx⟩ := exists_wr_eq s d v
    rw [hx]
  unfold State.finishWr State.finish
  rw [hpc]
  exact wroteX_retireAt s d v _

theorem gives_of_finishWr {i : Instr} {s : State} {d : Fin 32} {v w : Word} (h : exec i s = .next (s.finishWr d v))
    (hv : v = w) : Gives i s d w := by
  subst hv
  exact ⟨_, h, wroteX_finishWr s d v⟩

end Sys2Proof.Laws
end

section
/-! PROOF. The arithmetic of the scalar ALU classes (R50, R51): O1. -/

namespace Sys2Proof.Laws

open Sys2Proof.Machine Sys2Proof.Claims

/-! ### The .w forms (R51) -/

theorem toInt_setWidth32 (a : Word) : (a.setWidth 32).toInt = a.toInt.bmod (2 ^ 32) := by
  rw [BitVec.toInt_setWidth, BitVec.toInt_eq_toNat_bmod, Int.bmod_bmod_of_dvd (by decide)]

theorem sext32_ofInt (n : Int) : sext32 (.ofInt 64 n) = .ofInt 64 (n.bmod (2 ^ 32)) := by
  rw [sext32, BitVec.signExtend, toInt_setWidth32, BitVec.toInt_ofInt, Int.bmod_bmod_of_dvd (by decide)]

theorem narrow_ofInt (w : Bool) (n : Int) : narrow w (.ofInt 64 n) = form w n := by
  cases w
  · rfl
  · exact sext32_ofInt n

theorem narrow_ofNat (w : Bool) (n : Nat) : narrow w (.ofNat 64 n) = form w n := by
  rw [← narrow_ofInt, BitVec.ofInt_natCast]

theorem toInt_narrow (w : Bool) (a : Word) : (if w then sext32 a else a).toInt = sval w a := by
  cases w
  · rfl
  · show ((a.setWidth 32).signExtend 64).toInt = a.toInt.bmod (2 ^ 32)
    rw [BitVec.toInt_signExtend_of_le (by decide), toInt_setWidth32]

theorem toNat_zext (w : Bool) (a : Word) : (if w then zext32 a else a).toNat = uval w a := by
  cases w
  · rfl
  · show ((a.setWidth 32).setWidth 64).toNat = a.toNat % 2 ^ 32
    rw [BitVec.toNat_setWidth_of_le (by decide), BitVec.toNat_setWidth]

/-! ### Sums, products and shifts (R50) -/

theorem aluAdd_eq (w : Bool) (a b : Word) : aluAdd w a b = form w (a.toInt + b.toInt) := by
  rw [← narrow_ofInt, BitVec.ofInt_add, BitVec.ofInt_toInt, BitVec.ofInt_toInt, aluAdd]

theorem aluSub_eq (w : Bool) (a b : Word) : aluSub w a b = form w (a.toInt - b.toInt) := by
  rw [← narrow_ofInt, Int.sub_eq_add_neg, BitVec.ofInt_add, BitVec.ofInt_neg, BitVec.ofInt_toInt, BitVec.ofInt_toInt,
    ← BitVec.sub_eq_add_neg, aluSub]

theorem aluMul_eq (w : Bool) (a b : Word) : aluMul w a b = form w (a.toInt * b.toInt) := by
  rw [← narrow_ofInt, BitVec.ofInt_mul, BitVec.ofInt_toInt, BitVec.ofInt_toInt, aluMul]

theorem aluSll_eq (w : Bool) (a : Word) (n : Nat) : aluSll w a n = form w (a.toNat * 2 ^ n : Int) := by
  have h : a <<< n = .ofNat 64 (a.toNat * 2 ^ n) := by
    apply BitVec.eq_of_toNat_eq
    rw [BitVec.toNat_shiftLeft, BitVec.toNat_ofNat, Nat.shiftLeft_eq]
  rw [aluSll, h, narrow_ofNat]
  push_cast
  rfl

theorem aluSrl_eq (w : Bool) (a : Word) (n : Nat) : aluSrl w a n = form w ((uval w a / 2 ^ n : Nat) : Int) := by
  rw [aluSrl, ← narrow_ofNat, ← toNat_zext, ← Nat.shiftRight_eq_div_pow, ← BitVec.toNat_ushiftRight, BitVec.ofNat_toNat,
    BitVec.setWidth_eq]

theorem aluSra_eq (w : Bool) (a : Word) (n : Nat) : aluSra w a n = form w (sval w a / 2 ^ n) := by
  rw [aluSra, BitVec.sshiftRight_eq, toInt_narrow, narrow_ofInt, Int.shiftRight_eq_div_pow]
  push_cast
  rfl

theorem aluMulh_eq (a b : Word) : aluMulh a b = .ofInt 64 (a.toInt * b.toInt / 2 ^ 64) := by
  have h : a.signExtend 128 * b.signExtend 128 = .ofInt 128 (a.toInt * b.toInt) := by
    rw [BitVec.ofInt_mul, BitVec.signExtend, BitVec.signExtend]
  unfold aluMulh
  rw [h]
  generalize a.toInt * b.toInt = p
  apply BitVec.eq_of_toNat_eq
  rw [BitVec.toNat_setWidth, BitVec.toNat_ushiftRight, BitVec.toNat_ofInt, BitVec.toNat_ofInt, Nat.shiftRight_eq_div_pow]
  omega

theorem aluMulhu_eq (a b : Word) : aluMulhu a b = .ofNat 64 (a.toNat * b.toNat / 2 ^ 64) := by
  unfold aluMulhu
  apply BitVec.eq_of_toNat_eq
  have h : a.toNat * b.toNat < 2 ^ 64 * 2 ^ 64 := Nat.mul_lt_mul'' a.isLt b.isLt
  rw [BitVec.toNat_setWidth, BitVec.toNat_ushiftRight, BitVec.toNat_mul, BitVec.toNat_setWidth_of_le (by decide),
    BitVec.toNat_setWidth_of_le (by decide), BitVec.toNat_ofNat, Nat.shiftRight_eq_div_pow, Nat.mod_eq_of_lt (b := 2 ^ 128) h]

/-! ### Comparisons, minima and maxima (R50) -/

theorem boolWord_slt (a b : Word) : boolWord (a.slt b) = truth (a.toInt < b.toInt) := by
  rw [BitVec.slt_eq_decide]; rfl

theorem boolWord_ult (a b : Word) : boolWord (a.ult b) = truth (a.toNat < b.toNat) := by
  rw [BitVec.ult_eq_decide]; rfl

theorem min_toInt_eq (a b : Word) : (if b.slt a then b else a) = .ofInt 64 (min a.toInt b.toInt) := by
  simp only [BitVec.slt_iff_toInt_lt, min_comm a.toInt, min_def_lt, apply_ite (BitVec.ofInt 64), BitVec.ofInt_toInt]

theorem max_toInt_eq (a b : Word) : (if a.slt b then b else a) = .ofInt 64 (max a.toInt b.toInt) := by
  simp only [BitVec.slt_iff_toInt_lt, max_def_lt, apply_ite (BitVec.ofInt 64), BitVec.ofInt_toInt]

theorem min_toNat_eq (a b : Word) : (if b.ult a then b else a) = .ofNat 64 (min a.toNat b.toNat) := by
  simp only [BitVec.ult_iff_toNat_lt, min_comm a.toNat, min_def_lt, apply_ite (BitVec.ofNat 64), BitVec.ofNat_toNat,
    BitVec.setWidth_eq]

theorem max_toNat_eq (a b : Word) : (if a.ult b then b else a) = .ofNat 64 (max a.toNat b.toNat) := by
  simp only [BitVec.ult_iff_toNat_lt, max_def_lt, apply_ite (BitVec.ofNat 64), BitVec.ofNat_toNat, BitVec.setWidth_eq]

end Sys2Proof.Laws

namespace Sys2Proof.Claims

open Sys2Proof.Machine Sys2Proof.Laws

/-- Settles O1: what each member computes is the result that its rule names. -/
theorem scalarArithmetic : Obligations.ScalarArithmetic := by
  intro s d a b w
  constructor
  · simp only [List.forall_mem_cons, List.not_mem_nil, false_imp_iff, implies_true, and_true]
    and_intros
    · exact gives_of_finishWr (exec_add ..) (aluAdd_eq ..)
    · exact gives_of_finishWr (exec_sub ..) (aluSub_eq ..)
    · exact gives_of_finishWr (exec_mul ..) (aluMul_eq ..)
    · exact gives_of_finishWr (exec_sll ..) (aluSll_eq ..)
    · exact gives_of_finishWr (exec_srl ..) (aluSrl_eq ..)
    · exact gives_of_finishWr (exec_sra ..) (aluSra_eq ..)
  · simp only [List.forall_mem_cons, List.not_mem_nil, false_imp_iff, implies_true, and_true]
    and_intros
    · exact gives_of_finishWr (exec_and ..) rfl
    · exact gives_of_finishWr (exec_or ..) rfl
    · exact gives_of_finishWr (exec_xor ..) rfl
    · exact gives_of_finishWr (exec_andn ..) rfl
    · exact gives_of_finishWr (exec_slt ..) (boolWord_slt ..)
    · exact gives_of_finishWr (exec_sltu ..) (boolWord_ult ..)
    · exact gives_of_finishWr (exec_min ..) (min_toInt_eq ..)
    · exact gives_of_finishWr (exec_max ..) (max_toInt_eq ..)
    · exact gives_of_finishWr (exec_minu ..) (min_toNat_eq ..)
    · exact gives_of_finishWr (exec_maxu ..) (max_toNat_eq ..)
    · exact gives_of_finishWr (exec_mulh ..) (aluMulh_eq ..)
    · exact gives_of_finishWr (exec_mulhu ..) (aluMulhu_eq ..)

end Sys2Proof.Claims
end

section
/-! PROOF. Division, counts of bits, immediates, jumps and branches (R50 to R57): O2 to O6. -/

namespace Sys2Proof.Laws

open Sys2Proof.Machine Sys2Proof.Claims

/-! ### Division (R52) -/

theorem divS_eq {n : Nat} (a b : BitVec n) : divS a b = .ofInt n (if b.toInt = 0 then -1 else a.toInt.tdiv b.toInt) := by
  have h0 : b = 0 ↔ b.toInt = 0 := by rw [← BitVec.toInt_inj, BitVec.ofNat_eq_ofNat, BitVec.toInt_zero]
  unfold divS
  simp only [h0]
  split
  · rw [BitVec.ofInt_neg, BitVec.ofInt_ofNat, BitVec.neg_one_eq_allOnes]
  · apply BitVec.eq_of_toInt_eq
    rw [BitVec.toInt_sdiv, BitVec.toInt_ofInt]

theorem remS_eq {n : Nat} (a b : BitVec n) : remS a b = .ofInt n (if b.toInt = 0 then a.toInt else a.toInt.tmod b.toInt) := by
  have h0 : b = 0 ↔ b.toInt = 0 := by rw [← BitVec.toInt_inj, BitVec.ofNat_eq_ofNat, BitVec.toInt_zero]
  unfold remS
  simp only [h0]
  split
  · rw [BitVec.ofInt_toInt]
  · rw [← BitVec.toInt_srem, BitVec.ofInt_toInt]

theorem divU_eq {n : Nat} (a b : BitVec n) :
    divU a b = .ofInt n (if (b.toNat : Int) = 0 then -1 else (a.toNat : Int) / b.toNat) := by
  have h0 : b = 0 ↔ (b.toNat : Int) = 0 := by rw [Int.natCast_eq_zero, BitVec.toNat_eq]; rfl
  unfold divU
  simp only [h0]
  split
  · rw [BitVec.ofInt_neg, BitVec.ofInt_ofNat, BitVec.neg_one_eq_allOnes]
  · rw [← Int.natCast_ediv, BitVec.ofInt_natCast, ← BitVec.toNat_udiv, BitVec.ofNat_toNat, BitVec.setWidth_eq, BitVec.udiv_eq]

theorem remU_eq {n : Nat} (a b : BitVec n) :
    remU a b = .ofInt n (if (b.toNat : Int) = 0 then (a.toNat : Int) else (a.toNat : Int) % b.toNat) := by
  have h0 : b = 0 ↔ (b.toNat : Int) = 0 := by rw [Int.natCast_eq_zero, BitVec.toNat_eq]; rfl
  unfold remU
  simp only [h0]
  split
  · rw [BitVec.ofInt_natCast, BitVec.ofNat_toNat, BitVec.setWidth_eq]
  · rw [← Int.natCast_emod, BitVec.ofInt_natCast, ← BitVec.toNat_umod, BitVec.ofNat_toNat, BitVec.setWidth_eq, BitVec.umod_eq]

/-- A divide of signed numbers, in both widths. -/
theorem divForm_toInt {f : (n : Nat) → BitVec n → BitVec n → BitVec n} {g : Int → Int → Int}
    (h : ∀ n (a b : BitVec n), f n a b = .ofInt n (g a.toInt b.toInt)) (w : Bool) (a b : Word) :
    divForm w f a b = form w (g (sval w a) (sval w b)) := by
  cases w
  · exact h 64 a b
  · show (f 32 (a.setWidth 32) (b.setWidth 32)).signExtend 64 = _
    rw [h, toInt_setWidth32, toInt_setWidth32, BitVec.signExtend, BitVec.toInt_ofInt]
    rfl

/-- A divide of unsigned numbers, in both widths. -/
theorem divForm_toNat {f : (n : Nat) → BitVec n → BitVec n → BitVec n} {g : Int → Int → Int}
    (h : ∀ n (a b : BitVec n), f n a b = .ofInt n (g a.toNat b.toNat)) (w : Bool) (a b : Word) :
    divForm w f a b = form w (g (uval w a) (uval w b)) := by
  cases w
  · exact h 64 a b
  · show (f 32 (a.setWidth 32) (b.setWidth 32)).signExtend 64 = _
    rw [h, BitVec.toNat_setWidth, BitVec.toNat_setWidth, BitVec.signExtend, BitVec.toInt_ofInt]
    rfl

/-! ### Counts of bits (R50) -/

theorem clzNat_le {n v : Nat} : clzNat n v ≤ n := by
  unfold clzNat
  split <;> omega

/-- The bits above the highest one bit are zero. -/
theorem testBit_of_lt_clzNat {n v j : Nat} (h : j < clzNat n v) : v.testBit (n - 1 - j) = false := by
  unfold clzNat at h
  split at h
  · subst v; exact Nat.zero_testBit _
  · exact Nat.testBit_lt_two_pow (lt_of_lt_of_le Nat.lt_log2_self (Nat.pow_le_pow_right (by decide) (by omega)))

/-- The bit that ends the count of leading zeros is a one. -/
theorem testBit_clzNat {n v : Nat} (hv : v < 2 ^ n) (h : clzNat n v < n) : v.testBit (n - 1 - clzNat n v) = true := by
  unfold clzNat at h ⊢
  split at h
  · omega
  · rename_i h0
    have := (Nat.log2_lt h0).mpr hv
    rw [if_neg h0, show n - 1 - (n - 1 - v.log2) = v.log2 by omega]
    exact Nat.testBit_log2 h0

/-- What the search from bit i of k bits finds: where it ends, zeros up to there, and a one where it ends before the last. -/
theorem ctzFrom_spec (v k i : Nat) : i ≤ ctzFrom v k i ∧ ctzFrom v k i ≤ i + k ∧
    (∀ j, i ≤ j → j < ctzFrom v k i → v.testBit j = false) ∧
    (ctzFrom v k i < i + k → v.testBit (ctzFrom v k i) = true) := by
  induction k generalizing i with
  | zero => simp only [ctzFrom]; exact ⟨le_rfl, le_rfl, fun j _ _ => by omega, fun _ => by omega⟩
  | succ k ih =>
    obtain ⟨hge, hle, hzero, hone⟩ := ih (i + 1)
    unfold ctzFrom
    split
    · rename_i h
      exact ⟨le_rfl, by omega, fun j _ _ => by omega, fun _ => h⟩
    · rename_i h
      refine ⟨by omega, by omega, fun j hi hj => ?_, fun _ => hone (by omega)⟩
      by_cases hji : j = i
      · simpa [hji] using h
      · exact hzero j (by omega) hj

theorem foldl_count (p : Nat → Bool) (l : List Nat) (c : Nat) :
    l.foldl (fun c i => c + b2n (p i)) c = c + (l.filter p).length := by
  induction l generalizing c with
  | nil => rfl
  | cons a l ih =>
    rw [List.foldl_cons, ih, List.filter_cons]
    cases p a
    · simp [b2n]
    · simp only [b2n, if_true, List.length_cons]
      omega

theorem popNat_eq (n v : Nat) : popNat n v = ((List.range n).filter v.testBit).length := by
  rw [popNat, foldl_count, Nat.zero_add]

/-! ### Immediates (R53 to R56) -/

theorem sext_eq {n : Nat} (i : BitVec n) : sext i = .ofInt 64 i.toInt := rfl

theorem toInt_sext {n : Nat} (i : BitVec n) (h : n ≤ 64) : (sext i).toInt = i.toInt := BitVec.toInt_signExtend_of_le h

theorem sext_shiftLeft {n : Nat} (i : BitVec n) (k : Nat) : sext i <<< k = .ofInt 64 (i.toInt * 2 ^ k) := by
  rw [BitVec.ofInt_mul, ← sext_eq, BitVec.shiftLeft_eq_mul_twoPow]
  congr 1
  apply BitVec.eq_of_toNat_eq
  rw [BitVec.toNat_twoPow, show (2 ^ k : Int) = ((2 ^ k : Nat) : Int) by push_cast; rfl, BitVec.ofInt_natCast,
    BitVec.toNat_ofNat]

theorem addSext_eq {n : Nat} (a : Word) (i : BitVec n) : a + sext i = .ofInt 64 (a.toInt + i.toInt) := by
  rw [BitVec.ofInt_add, BitVec.ofInt_toInt, sext_eq]

/-- A rotated word, bit by bit. -/
theorem getLsbD_aluRor (w : Bool) (a : Word) {n j : Nat} (hn : n < 64) (hj : j < 64) :
    (aluRor w a n).getLsbD j = a.getLsbD (if w then (min j 31 + n) % 32 else (j + n) % 64) := by
  cases w
  · simp only [aluRor, Bool.false_eq_true, if_false, BitVec.getLsbD_rotateRight_of_lt hn]
    by_cases h : j < 64 - n
    · rw [decide_eq_true h, cond_true, Nat.mod_eq_of_lt (by omega), Nat.add_comm]
    · rw [decide_eq_false h, cond_false, decide_eq_true hj, Bool.true_and, show (j + n) % 64 = j - (64 - n) by omega]
  · have hbit (k : Nat) (hk : k < 32) : ((a.setWidth 32).rotateRight n).getLsbD k = a.getLsbD ((k + n) % 32) := by
      rw [BitVec.getLsbD_rotateRight]
      by_cases h : k < 32 - n % 32
      · rw [decide_eq_true h, cond_true, BitVec.getLsbD_setWidth, decide_eq_true (by omega), Bool.true_and,
          show (k + n) % 32 = n % 32 + k by omega]
      · rw [decide_eq_false h, cond_false, BitVec.getLsbD_setWidth, decide_eq_true hk, decide_eq_true (by omega),
          Bool.true_and, Bool.true_and, show (k + n) % 32 = k - (32 - n % 32) by omega]
    simp only [aluRor, if_true, BitVec.getLsbD_signExtend, decide_eq_true hj, Bool.true_and]
    split
    · rw [hbit j ‹_›, Nat.min_eq_left (by omega)]
    · rw [BitVec.msb_eq_getLsbD_last, hbit 31 (by decide), Nat.min_eq_right (by omega)]

end Sys2Proof.Laws

namespace Sys2Proof.Claims

open Sys2Proof.Machine Sys2Proof.Laws

/-- Settles O2: the quotient or remainder of each width and sign. -/
theorem scalarDivide : Obligations.ScalarDivide := by
  intro s d a b w
  refine ⟨gives_of_finishWr (exec_div ..) ?_, gives_of_finishWr (exec_rem ..) ?_, gives_of_finishWr (exec_divu ..) ?_,
    gives_of_finishWr (exec_remu ..) ?_⟩
  · exact divForm_toInt (g := fun n m => if m = 0 then -1 else n.tdiv m) (fun _ => divS_eq) w _ _
  · exact divForm_toInt (g := fun n m => if m = 0 then n else n.tmod m) (fun _ => remS_eq) w _ _
  · exact divForm_toNat (g := fun p q => if q = 0 then -1 else p / q) (fun _ => divU_eq) w _ _
  · exact divForm_toNat (g := fun p q => if q = 0 then p else p % q) (fun _ => remU_eq) w _ _

/-- Settles O3, by the counts of the value as a number. -/
theorem bitCounts : Obligations.BitCounts := by
  intro s d a v
  refine ⟨⟨clzNat 64 v.toNat, clzNat_le, gives_of_finishWr (exec_clz ..) rfl, fun j => testBit_of_lt_clzNat,
    testBit_clzNat v.isLt⟩, ?_, ?_⟩
  · obtain ⟨-, hle, hzero, hone⟩ := ctzFrom_spec v.toNat 64 0
    rw [Nat.zero_add] at hle hone
    exact ⟨ctzNat 64 v.toNat, hle, gives_of_finishWr (exec_ctz ..) rfl, fun j => hzero j (Nat.zero_le j), hone⟩
  · exact gives_of_finishWr (exec_popc ..) (by rw [popNat_eq]; rfl)

/-- Settles O4: what each immediate member computes is the result that its rule names. -/
theorem immediateArithmetic : Obligations.ImmediateArithmetic := by
  intro s d a i u w n
  refine ⟨?_, aluRor w (s.x a) n, gives_of_finishWr (exec_rori ..) rfl, fun j hj => getLsbD_aluRor w _ n.isLt hj⟩
  simp only [List.forall_mem_cons, List.not_mem_nil, false_imp_iff, implies_true, and_true]
  and_intros
  · exact gives_of_finishWr (exec_addi ..) (addSext_eq ..)
  · exact gives_of_finishWr (exec_andi ..) rfl
  · exact gives_of_finishWr (exec_ori ..) rfl
  · exact gives_of_finishWr (exec_xori ..) rfl
  · exact gives_of_finishWr (exec_slti ..) (by rw [boolWord_slt, toInt_sext i (by decide)])
  · exact gives_of_finishWr (exec_sltiu ..) (boolWord_ult ..)
  · exact gives_of_finishWr (exec_slli ..) (aluSll_eq ..)
  · exact gives_of_finishWr (exec_srli ..) (aluSrl_eq ..)
  · exact gives_of_finishWr (exec_srai ..) (aluSra_eq ..)
  · exact gives_of_finishWr (exec_lui ..) (sext_shiftLeft u 16)
  · exact gives_of_finishWr (exec_addpc ..) (by rw [sext_shiftLeft])

/-- The target of a jump or branch, as an address (R56, R57). -/
theorem target_sext {n : Nat} (s : State) (o : BitVec n) : s.target (sext o) = s.h.pc + .ofInt 64 (4 * o.toInt) := by
  rw [State.target, sext_shiftLeft, Int.mul_comm]
  rfl

/-- Settles O5, by whether the target of JALR is a word's address. -/
theorem jumps : Obligations.Jumps := by
  intro s d a o i tgt
  refine ⟨?_, fun h => ?_, fun h => ?_⟩
  · rw [← target_sext]
    exact ⟨_, exec_jal .., wroteX_retireAt ..⟩
  · exact ⟨_, (exec_jalr ..).trans (if_neg (not_not_intro h)), wroteX_retireAt ..⟩
  · exact (exec_jalr ..).trans (if_pos h)

/-- A branch retires at its target or at the next word. -/
theorem exists_branch {i : Instr} {s : State} {taken p : Bool} {o : BitVec 16} (h : exec i s = .next (s.branch taken o))
    (hp : taken = p) : ∃ t, exec i s = .next t ∧ (∀ r, t.x r = s.x r) ∧
      Retired s t (if p then s.h.pc + .ofInt 64 (4 * o.toInt) else s.h.pc + 4) := by
  subst hp
  cases taken
  · exact exists_retired h
  · exact exists_retired (h.trans (by rw [← target_sext]; rfl))

/-- Settles O6: each comparison is the one of the numbers that the registers hold. -/
theorem branches : Obligations.Branches := by
  intro s a b o
  simp only [List.forall_mem_cons, List.not_mem_nil, false_imp_iff, implies_true, and_true]
  and_intros
  · exact exists_branch (exec_beq ..) rfl
  · exact exists_branch (exec_bne ..) (by rw [decide_not]; rfl)
  · exact exists_branch (exec_blt ..) BitVec.slt_eq_decide
  · exact exists_branch (exec_bge ..) (by rw [BitVec.slt_eq_decide, ← decide_not]; simp only [Int.not_lt])
  · exact exists_branch (exec_bltu ..) BitVec.ult_eq_decide
  · exact exists_branch (exec_bgeu ..) (by rw [BitVec.ult_eq_decide, ← decide_not]; simp only [Nat.not_lt])

end Sys2Proof.Claims
end

section
/-! PROOF. What a CSR access does, what a write of a CSR leaves of the hart, and the fields of what is written (R70 to R76,
R145, R149, R170, R271, R407). -/

namespace Sys2Proof.Laws

open Sys2Proof.Machine Sys2Proof.Claims

/-- What no step of a fold changes, the fold does not change. -/
theorem foldl_keeps {α β γ : Type} (g : α → γ) {f : α → β → α} (h : ∀ a b, g (f a b) = g a) (l : List β) (a : α) :
    g (l.foldl f a) = g a := by
  induction l generalizing a with
  | nil => rfl
  | cons b l ih => rw [List.foldl_cons, ih, h]

/-! ### The CSR instructions (R71, R72) -/

/-- Each CSR instruction is the common operation, with the value that it writes. -/
theorem exec_csrs_eq {s : State} {d a : Fin 32} {i : BitVec 5} {n : BitVec 12} {old : Word} {m : Instr × Option Word}
    (hm : m ∈ csrs s d a i n old) :
    ∃ writes f, exec m.1 s = s.csrOp d n writes f ∧ m.2 = if writes then some (f old) else none := by
  have hz : BitVec.ofNat 64 i.toNat = i.setWidth 64 := BitVec.ofNat_toNat ..
  simp only [csrs, hz, List.mem_cons, List.not_mem_nil, or_false] at hm
  rcases hm with rfl | rfl | rfl | rfl | rfl | rfl | rfl
  · exact ⟨false, id, rfl, rfl⟩
  · exact ⟨true, fun _ => s.x a, rfl, rfl⟩
  · exact ⟨a != 0, fun v => v ||| s.x a, rfl, by by_cases h : a = 0 <;> simp [h]⟩
  · exact ⟨a != 0, fun v => v &&& ~~~s.x a, rfl, by by_cases h : a = 0 <;> simp [h]⟩
  · exact ⟨true, fun _ => i.setWidth 64, rfl, rfl⟩
  · exact ⟨i != 0, fun v => v ||| i.setWidth 64, rfl, by by_cases h : i = 0 <;> simp [h]⟩
  · exact ⟨i != 0, fun v => v &&& ~~~i.setWidth 64, rfl, by by_cases h : i = 0 <;> simp [h]⟩

/-- A CSR access that the mode does not permit is illegal. -/
theorem csrOp_refused {s : State} {d : Fin 32} {n : BitVec 12} {writes : Bool} {f : Word → Word}
    (h : s.h.csrReadable n.toNat = false ∨ (writes = true ∧ s.h.csrWritable n.toNat = false)) :
    s.csrOp d n writes f = .next s.illegal := by
  refine if_pos ?_
  rcases h with h | ⟨hw, h⟩ <;> simp [*]

/-- A CSR access that is permitted and need not wait reads the CSR and then writes it. -/
theorem csrOp_permitted {s : State} {d : Fin 32} {n : BitVec 12} {writes : Bool} {f : Word → Word}
    (hr : s.h.csrReadable n.toNat = true) (hw : writes = true → s.h.csrWritable n.toNat = true)
    (hy : ¬(csrWaits n.toNat = true ∧ s.h.yokeBusy = true)) :
    s.csrOp d n writes f = .next
      ((let t := if n.toNat = 0x100 then { s with tick := s.tick + 1 } else s
        if writes then t.csrWrite n.toNat (f (s.csrRead n.toNat)) else t).finishWr d (s.csrRead n.toNat)) := by
  unfold State.csrOp
  rw [if_neg, if_neg]
  · simpa using hy
  · cases writes <;> simp [hr, hw]

theorem csrWritable_eq_false {h : Hart} {n : Nat} (hn : n / 256 % 4 = 1 ∨ (n / 256 % 4 = 2 ∧ h.mode = .u)) :
    h.csrWritable n = false := by
  unfold Hart.csrWritable
  rcases hn with hn | ⟨hn, hu⟩
  · simp [hn]
  · simp [hn, hu]

theorem csrReadable_eq_false {h : Hart} {n : Nat}
    (hn : h.csrExists n = false ∨ (h.mode = .u ∧ 1024 ≤ n) ∨ (h.mode = .s ∧ 2048 ≤ n)) : h.csrReadable n = false := by
  rw [Hart.csrReadable, Bool.and_eq_false_iff, decide_eq_false_iff_not]
  rcases hn with hn | ⟨hm, hn⟩ | ⟨hm, hn⟩
  · exact .inl hn
  all_goals
    rw [hm]
    simp only [Mode.level]
    omega

/-! ### What a hart's CSRs hold (R73) -/

/-- What the CSRs of R73 are read from. -/
def hartView (s : State) : Hart × Link × Nat := (s.h, s.link, s.tick)

/-- The CSRs of R73 do not read the hart's Mantle registers. -/
theorem csrRead_congr {s t : State} {m : Nat} {f : MantleState} (hm : csrHart m = true)
    (h : hartView t = ({ s.h with mant := f }, s.link, s.tick)) : t.csrRead m = s.csrRead m := by
  simp only [hartView, Prod.mk.injEq] at h
  obtain ⟨hh, hl, ht⟩ := h
  simp only [csrHart, List.contains_cons, List.contains_nil, Bool.or_eq_true, beq_iff_eq, Bool.false_eq_true,
    or_false] at hm
  rcases hm with rfl | rfl | rfl | rfl | rfl | rfl | rfl | rfl | rfl | rfl | rfl | rfl | rfl | rfl | rfl | rfl | rfl | rfl
    | rfl | rfl | rfl | rfl | rfl | rfl | rfl
  all_goals simp only [State.csrRead, hh, hl, ht]

/-! ### Beats and the queues they resume (R145, R149) -/

theorem hartView_stopFor (s : State) (q code : Nat) (tag : Option (BitVec 32)) :
    hartView (s.stopFor q code tag) = hartView s := by
  unfold State.stopFor
  split
  · rfl
  · split
    · rfl
    · split <;> rfl

theorem hartView_applyNotify (s : State) (q t : Nat) : hartView (s.applyNotify q t) = hartView s := by
  unfold State.applyNotify
  split
  · rfl
  · split
    · rfl
    · split
      · rfl
      · exact hartView_stopFor ..

theorem hartView_resumeQueues (s : State) : hartView s.resumeQueues = hartView s := by
  unfold State.resumeQueues
  split
  · refine foldl_keeps hartView (fun t k => ?_) _ _
    rw [foldl_keeps hartView fun u v => hartView_applyNotify u _ v]
    split <;> rfl
  · rfl

theorem hartView_beatCheck (s : State) : hartView s.beatCheck = hartView s := by
  unfold State.beatCheck
  split
  · exact hartView_resumeQueues _
  · rfl

theorem hartView_writeBeat (s : State) (v : Word) : hartView (s.writeBeat v) =
    ({ s.h with mant := { s.h.mant with mhbeat := v, beaten := s.h.mant.beaten || v != 0 } }, s.link, s.tick) :=
  hartView_beatCheck _

/-! ### Fence entries and lane maps (R76, R271) -/

theorem fenceEnt_key (s : State) (c i : Nat) : (s.fenceEnt c i).cluster = c ∧ (s.fenceEnt c i).idx = i := by
  unfold State.fenceEnt
  split
  · rename_i e h
    simpa using List.find?_some h
  · exact ⟨rfl, rfl⟩

theorem fenceEnt_setFence {s : State} {e : FenceEnt} {c i : Nat} (hc : e.cluster = c) (hi : e.idx = i) :
    (s.setFence e).fenceEnt c i = e := by
  have h : (s.setFence e).mmu.fences.find? (fun f => f.cluster == c && f.idx == i) = some e :=
    List.find?_cons_of_pos (by simp [hc, hi])
  unfold State.fenceEnt
  rw [h]

theorem hartView_takeLaneMap (s : State) (core : Nat) : hartView (s.takeLaneMap core) = hartView s := by
  unfold State.takeLaneMap
  split <;> rfl

theorem hartView_setLaneMap (s : State) (core : Nat) (v : Word) : hartView (s.setLaneMap core v) = hartView s :=
  hartView_takeLaneMap _ core

/-- Taking up a lane map leaves what is to be read of each. -/
theorem laneMap_takeLaneMap (s : State) (core : Nat) : (s.takeLaneMap core).laneMap core = s.laneMap core := by
  unfold State.takeLaneMap
  split
  · rfl
  · simp only [State.laneMap, List.find?_map]
    have hf : ((fun e : Nat × Nat × Bool × Bool => e.1 == core) ∘ fun e : Nat × Nat × Bool × Bool =>
        if e.1 = core then (e.1, e.2.1, e.2.2.1, false) else e) = fun e => e.1 == core := by
      funext e
      by_cases h : e.1 = core <;> simp [h]
    rw [hf]
    cases s.sched.lanes.find? fun e => e.1 == core with
    | none => rfl
    | some e => by_cases h : e.1 = core <;> simp [h]

theorem laneMap_setLaneMap (s : State) (core : Nat) (v : Word) : (s.setLaneMap core v).laneMap core =
    (if pleatsOk (field v 0 4) then field v 0 4 else (s.laneMap core).1, flag v 8) := by
  unfold State.setLaneMap
  rw [laneMap_takeLaneMap, State.laneMap, List.find?_cons_of_pos (by simp)]

/-! ### Fields of numbers -/

/-- A sum of digits below 4, two bits each from bit 2 on, digit by digit. -/
theorem foldl_digits (f : Nat → Nat) (hf : ∀ i, f i < 4) (n : Nat) :
    let w := (List.range n).foldl (fun acc i => acc + f i * 2 ^ (2 * i + 2)) 0
    w % 4 = 0 ∧ w < 2 ^ (2 * n + 2) ∧ ∀ i < n, w / 2 ^ (2 * i + 2) % 4 = f i := by
  induction n with
  | zero => simp
  | succ n ih =>
    obtain ⟨hmod, hlt, hdig⟩ := ih
    simp only [List.range_succ, List.foldl_append, List.foldl_cons, List.foldl_nil]
    generalize (List.range n).foldl (fun acc i => acc + f i * 2 ^ (2 * i + 2)) 0 = w at *
    have hp : 2 ^ (2 * n + 2) = 4 * 2 ^ (2 * n) := by ring
    have hq : 2 ^ (2 * (n + 1) + 2) = 4 * 2 ^ (2 * n + 2) := by ring
    have hn := hf n
    refine ⟨?_, ?_, fun i hi => ?_⟩
    · rw [hp, Nat.mul_left_comm, Nat.add_mul_mod_self_left]
      exact hmod
    · rw [hq]
      have : f n * 2 ^ (2 * n + 2) ≤ 3 * 2 ^ (2 * n + 2) := Nat.mul_le_mul_right _ (by omega)
      omega
    · by_cases h : i = n
      · subst h
        rw [Nat.add_mul_div_right _ _ (Nat.two_pow_pos _), Nat.div_eq_of_lt hlt, Nat.zero_add, Nat.mod_eq_of_lt hn]
      · obtain ⟨k, rfl⟩ : ∃ k, n = i + 1 + k := ⟨n - i - 1, by omega⟩
        have hs : f (i + 1 + k) * 2 ^ (2 * (i + 1 + k) + 2) = f (i + 1 + k) * 2 ^ (2 * k) * 4 * 2 ^ (2 * i + 2) := by ring
        rw [hs, Nat.add_mul_div_right _ _ (Nat.two_pow_pos _), Nat.add_mul_mod_self_right]
        exact hdig i (by omega)

/-- A written claimcfg, field by field (R170). -/
theorem claimWrite_fields (old v : Word) :
    (claimWrite old v).toNat % 4 = 0 ∧ (claimWrite old v).toNat < 2 ^ 28 ∧ ∀ i < 13,
      (claimWrite old v).toNat / 2 ^ (2 * i + 2) % 4 = if v.toNat / 2 ^ (2 * i + 2) % 4 = 3 then
        old.toNat / 2 ^ (2 * i + 2) % 4 else v.toNat / 2 ^ (2 * i + 2) % 4 := by
  have h := foldl_digits (fun i => if field v (2 * i + 2) 2 = 3 then field old (2 * i + 2) 2 else field v (2 * i + 2) 2)
    (fun i => by split <;> exact Nat.mod_lt _ (by decide)) 13
  obtain ⟨hmod, hlt, hdig⟩ := h
  have ht : (claimWrite old v).toNat = (List.range 13).foldl (fun acc i =>
      acc + (if field v (2 * i + 2) 2 = 3 then field old (2 * i + 2) 2 else field v (2 * i + 2) 2) * 2 ^ (2 * i + 2)) 0 :=
    (BitVec.toNat_ofNat ..).trans (Nat.mod_eq_of_lt (lt_trans hlt (by decide)))
  rw [ht]
  exact ⟨hmod, hlt, hdig⟩

/-- A written tstatus: the mode where it is permitted, and bits 6:3 (R71, R407). -/
theorem tstatusWrite_toNat (h : Hart) (v : Word) : (h.tstatusWrite v).toNat = v.toNat / 8 % 16 * 8 +
    (if v.toNat % 4 = 2 ∨ (v.toNat % 4 = 3 ∧ h.isMantle = false) then h.trap.tstatus.toNat % 4 else v.toNat % 4) := by
  simp only [Hart.tstatusWrite, w64, field, pow_zero, Nat.div_one, BitVec.toNat_ofNat, Bool.not_eq_true',
    show 2 ^ 2 = 4 from rfl, show 2 ^ 3 = 8 from rfl, show 2 ^ 4 = 16 from rfl]
  split <;> omega

end Sys2Proof.Laws
end

section
/-! PROOF. The CSR instructions and what they write (R70 to R76, R170, R271, R407), and what the mode forbids (R48): O12,
O13 and O16. -/

namespace Sys2Proof.Laws

open Sys2Proof.Machine Sys2Proof.Claims

theorem csrHart_iff {n : Nat} : csrHart n = true ↔ n ∈ [0x000, 0x001, 0x002, 0x100, 0x101, 0x102, 0x103, 0x104, 0x105,
    0x106, 0x107, 0x108, 0x109, 0x10A, 0x200, 0x201, 0x202, 0x400, 0x401, 0x402, 0x403, 0x404, 0x405, 0x406, 0x407] :=
  List.contains_iff_mem

/-- A number that no write reaches. -/
theorem csrWrite_of_not_mem {n : Nat} (s : State) (v : Word)
    (hn : n ∉ [0x000, 0x001, 0x002, 0x200, 0x201, 0x400, 0x401, 0x402, 0x403, 0x404, 0x405, 0x406, 0x407])
    (hm : n ∉ [0xC00, 0xC01, 0xC02, 0xC03, 0xC04, 0xC05, 0xC06]) : s.csrWrite n v = s := by
  unfold State.csrWrite
  dsimp only
  split
  case h_21 => rfl
  case h_14 | h_15 | h_16 | h_17 | h_18 | h_19 | h_20 => exact absurd (by decide) hm
  all_goals exact absurd (by decide) hn

theorem csrWrite_claimcfg (s : State) (v : Word) : s.csrWrite 0x407 v =
    { s with h := { s.h with trap := { s.h.trap with claimcfg := claimWrite s.h.trap.claimcfg v } } } := rfl

theorem csrRead_withClaimcfg (s : State) (c : Word) {m : Nat} (hm : csrHart m = true) (hne : m ≠ 0x407) :
    ({ s with h := { s.h with trap := { s.h.trap with claimcfg := c } } } : State).csrRead m = s.csrRead m := by
  simp only [csrHart_iff, List.mem_cons, List.not_mem_nil, or_false] at hm
  rcases hm with rfl | rfl | rfl | rfl | rfl | rfl | rfl | rfl | rfl | rfl | rfl | rfl | rfl | rfl | rfl | rfl | rfl | rfl
    | rfl | rfl | rfl | rfl | rfl | rfl | rfl
  on_goal 25 => exact absurd rfl hne
  all_goals rfl

/-- A write of one CSR leaves what every other CSR of R73 reads. -/
theorem csrRead_csrWrite_other {s : State} {v : Word} {n m : Nat} (hm : csrHart m = true) (hne : m ≠ n) :
    (s.csrWrite n v).csrRead m = s.csrRead m := by
  by_cases hn : n ∈ [0x000, 0x001, 0x002, 0x200, 0x201, 0x400, 0x401, 0x402, 0x403, 0x404, 0x405, 0x406, 0x407]
  · simp only [List.mem_cons, List.not_mem_nil, or_false] at hn
    rcases hn with rfl | rfl | rfl | rfl | rfl | rfl | rfl | rfl | rfl | rfl | rfl | rfl | rfl
    on_goal 1 => by_cases hv : field v 0 3 < 6
    on_goal 2 => exact congrArg (State.csrRead · m) (if_neg hv)
    on_goal 1 =>
      rw [show s.csrWrite 0 v = { s with h := { s.h with vec := { s.h.vec with vrnd := v &&& 7 } } } from if_pos hv]
    on_goal 13 => exact (congrArg (State.csrRead · m) (csrWrite_claimcfg s v)).trans (csrRead_withClaimcfg s _ hm hne)
    all_goals
      simp only [csrHart_iff, List.mem_cons, List.not_mem_nil, or_false] at hm
      rcases hm with rfl | rfl | rfl | rfl | rfl | rfl | rfl | rfl | rfl | rfl | rfl | rfl | rfl | rfl | rfl | rfl | rfl
        | rfl | rfl | rfl | rfl | rfl | rfl | rfl | rfl
      any_goals exact absurd rfl hne
      all_goals rfl
  · by_cases hk : n ∈ [0xC00, 0xC01, 0xC02, 0xC03, 0xC04, 0xC05, 0xC06]
    · simp only [List.mem_cons, List.not_mem_nil, or_false] at hk
      rcases hk with rfl | rfl | rfl | rfl | rfl | rfl | rfl
      · exact csrRead_congr hm rfl
      · exact csrRead_congr (f := s.h.mant) hm rfl
      · exact csrRead_congr (f := s.h.mant) hm rfl
      · exact csrRead_congr (f := s.h.mant) hm rfl
      · exact csrRead_congr hm (hartView_writeBeat s v)
      · exact csrRead_congr hm rfl
      · exact csrRead_congr (f := s.h.mant) hm (hartView_setLaneMap ..)
    · rw [csrWrite_of_not_mem s v hn hk]

end Sys2Proof.Laws

namespace Sys2Proof.Claims

open Sys2Proof.Machine Sys2Proof.Laws

/-- Settles O12, by the common operation of the CSR instructions. -/
theorem csrInstructions : Obligations.CsrInstructions := by
  intro s d a i n old s' m hm hr hw hy t
  obtain ⟨writes, f, hexec, hval⟩ := exec_csrs_eq hm
  have hn : n = 0x100 ↔ n.toNat = 0x100 := BitVec.toNat_inj.symm
  have ht : t = if writes then s'.csrWrite n.toNat (f old) else s' := by
    simp only [t, hval]
    cases writes <;> rfl
  refine ⟨_, hexec.trans (csrOp_permitted hr (fun h => hw (by simp [hval, h])) hy), ?_⟩
  simp only [← hn]
  rw [ht]
  exact wroteX_finishWr ..

theorem csrRefused : CsrRefused := by
  intro s d a i n m hm h
  obtain ⟨writes, f, hexec, hval⟩ := exec_csrs_eq hm
  refine ⟨hexec.trans (csrOp_refused ?_), fun hb => by unfold State.illegal; rw [hb]⟩
  rcases h with h | h | h | ⟨hs, h⟩
  · exact .inl (csrReadable_eq_false (.inl h))
  · exact .inl (csrReadable_eq_false (.inr (.inl h)))
  · exact .inl (csrReadable_eq_false (.inr (.inr h)))
  · refine .inr ⟨?_, csrWritable_eq_false h⟩
    cases writes
    · simp [hval] at hs
    · rfl

theorem privilegedInUserMode : PrivilegedInUserMode := fun _ _ _ hu => ⟨if_pos hu, if_pos hu, if_pos hu⟩

/-- Settles O16: the checks of the CSR instructions, and the mode of TRET, SFENCE and THAW. -/
theorem illegalByPrivilege : Obligations.IllegalByPrivilege := ⟨csrRefused, privilegedInUserMode⟩

/-- A CSR that holds what is written under its mask. -/
theorem plain_csrs (s : State) (v : Word) :
    ∀ p ∈ plainCsrs ++ mantleCsrs, (s.csrWrite p.1 v).csrRead p.1 = v &&& p.2 := by
  have hall : v = v &&& BitVec.allOnes 64 := BitVec.and_allOnes.symm
  obtain ⟨hc, hi⟩ := fenceEnt_key s s.h.cluster (field s.h.mant.mpfsel 0 6)
  simp only [plainCsrs, mantleCsrs, List.cons_append, List.nil_append, List.forall_mem_cons, List.not_mem_nil,
    false_imp_iff, implies_true, and_true]
  refine ⟨hall, rfl, rfl, rfl, rfl, rfl, hall, rfl, hall, rfl, rfl, ?_, ?_, ?_, ?_, rfl⟩
  · exact congrArg FenceEnt.base (fenceEnt_setFence (e := { s.fenceEnt _ _ with base := v &&& ~~~0xFFF#64 }) hc hi)
  · exact congrArg FenceEnt.limit (fenceEnt_setFence (e := { s.fenceEnt _ _ with limit := v &&& ~~~0xFFF#64 }) hc hi)
  · exact congrArg FenceEnt.attr (fenceEnt_setFence (e := { s.fenceEnt _ _ with attr := v &&& 0x800000FF00000007 }) hc hi)
  · exact (congrArg (fun p => p.1.mant.mhbeat) (hartView_writeBeat s v)).trans hall

/-- Settles O13: CSR by CSR what a write leaves to be read. -/
theorem csrHoldsWhatIsWritten : Obligations.CsrHoldsWhatIsWritten := by
  intro s v wrote tst pm
  refine ⟨plain_csrs s v, fun n m => csrRead_csrWrite_other, ?_, rfl, tstatusWrite_toNat s.h v,
    claimWrite_fields s.h.trap.claimcfg v, ?_⟩
  · have hf : field v 0 3 = v.toNat % 8 := by simp [field]
    by_cases h : v.toNat % 8 < 6
    · rw [if_pos h]
      exact congrArg (State.csrRead · 0) (if_pos (hf ▸ h))
    · rw [if_neg h]
      exact congrArg (State.csrRead · 0) (if_neg (hf ▸ h))
  · have hcore : (s.csrWrite 0xC06 v).h.laneCore = s.h.laneCore :=
      congrArg (fun p => p.1.laneCore) (hartView_setLaneMap s s.h.laneCore v)
    have hmap := laneMap_setLaneMap s s.h.laneCore v
    show w64 (((s.setLaneMap s.h.laneCore v).laneMap (s.csrWrite 0xC06 v).h.laneCore).1 +
      256 * b2n ((s.setLaneMap s.h.laneCore v).laneMap (s.csrWrite 0xC06 v).h.laneCore).2) = _
    have hok : pleatsOk (field v 0 4) = true ↔ field v 0 4 ∈ [15, 14, 13, 11, 7] := List.contains_iff_mem
    have hflag : b2n (flag v 8) = v.toNat / 256 % 2 := by
      rw [flag, BitVec.getLsbD, Nat.testBit_eq_decide_div_mod_eq]
      rcases Nat.mod_two_eq_zero_or_one (v.toNat / 256) with h | h <;> simp [b2n, h]
    simp only [hcore, hmap, hok, hflag]
    simp only [field, pow_zero, Nat.div_one, Nat.mul_comm 256]
    rfl

end Sys2Proof.Claims
end

section
/-! PROOF. TRET (R79, R411), ECALL, EBREAK, WFI, YIELD and PFX (R77 to R85), SFENCE (R81, R434), HALT and THAW (R83, R84,
R419): O15, O17, O18 and O19. -/

namespace Sys2Proof.Laws

open Sys2Proof.Machine Sys2Proof.Claims

/-! ### The fields of tstatus (R407) -/

/-- The fields of a status word that is put together from its parts. -/
theorem fields_tstatus {pm : Nat} (hpm : pm < 4) (ie ch pp : Bool) :
    let v := w64 (pm + b2n ie * 8 + 16 + b2n ch * 32 + b2n pp * 64)
    flag v 3 = ie ∧ flag v 4 = true ∧ field v 0 2 = pm := by
  have hv : (w64 (pm + b2n ie * 8 + 16 + b2n ch * 32 + b2n pp * 64)).toNat =
      pm + b2n ie * 8 + 16 + b2n ch * 32 + b2n pp * 64 := by
    refine Nat.mod_eq_of_lt ?_
    cases ie <;> cases ch <;> cases pp <;> simp [b2n] <;> omega
  simp only [flag, field, BitVec.getLsbD, hv, Nat.testBit_eq_decide_div_mod_eq]
  generalize hb : b2n ch * 32 + b2n pp * 64 = x
  have hx : x % 32 = 0 := by omega
  cases ie <;> simp [b2n] at * <;> omega

/-! ### The hart that a turn is given to -/

/-- The hart that is resident under an id has the turn when it is given to that id. -/
theorem switchTo_of_hart? {s : State} {g : Hart} {id : Nat} (h : s.hart? id = some g) :
    ∃ t, s.switchTo id = some t ∧ t.h = g := by
  unfold State.hart? State.harts at h
  unfold State.switchTo
  rw [List.find?_cons] at h
  split at h
  · rename_i hid
    cases h
    exact ⟨s, if_pos (by simpa using hid), rfl⟩
  · rename_i hid
    rw [if_neg (by simpa using hid), h]
    exact ⟨_, rfl, rfl⟩

/-- What is done on a hart's turn depends on what it does to the state in which the hart has the turn. -/
theorem onHart_congr {s t : State} {id : Nat} {f g : State → State} (ht : s.switchTo id = some t) (hfg : f t = g t) :
    s.onHart id f = s.onHart id g := by
  rw [State.onHart_of_some ht, State.onHart_of_some ht, hfg]

/-! ### Span records (R315) and bindings (R83) -/

/-- A hart but for its span records. -/
def besideSpans (h : Hart) : Hart := { h with spans := [] }

theorem h_pushAll (s : State) (p : Span) (f : Nat → Frag) : (s.pushAll p f).h = s.h :=
  foldl_keeps State.h (f := fun t i => t.push _ _ _ _ (f i)) (fun _ _ => rfl) _ _

/-- Resolving the latest record changes nothing of the hart but its records. -/
theorem besideSpans_resolveLatest (s : State) : besideSpans s.resolveLatest.h = besideSpans s.h := by
  unfold State.resolveLatest
  split
  · simp only [State.pushSpan, h_pushAll]
    rfl
  · rfl

/-- Where no binding has writes to perform, every binding is closed. -/
theorem unbindAll_eq {h : Hart} (hb : ∀ b ∈ h.sleeves, b.write = false ∧ b.closing = false) :
    h.unbindAll = { h with sleeves := [] } := by
  unfold Hart.unbindAll
  rw [List.filterMap_eq_nil_iff.2 fun b hm => by simp [hb b hm]]

/-! ### Stores that other harts hold (R274, R434) -/

theorem dischargeOthers_eq_self {s : State} (h : ∀ g ∈ s.others, g.unconf = []) : s.dischargeOthers = s := by
  unfold State.dischargeOthers
  rw [List.filter_eq_nil_iff.2 fun g hg => by simp [h g hg]]
  rfl

theorem holdsStores_eq_false_iff {s : State} : s.holdsStores = false ↔ ∀ g ∈ s.others, g.unconf = [] := by
  simp [State.holdsStores]

/-- Whether a fence of a page and an ASID, or of all, reaches a translation; a G one where no ASID is named (R81, R434). -/
def fenced (page asid : Option Nat) (noAsid : Bool) (e : Tlb) : Bool :=
  page.all (fun p => e.vpn ≤ p && p < e.vpn + e.pages) && (if e.g then noAsid else asid.all (e.asid == ·))

theorem tlbs_sfence (m : Mmu) (page asid : Option Nat) (noAsid : Bool) :
    (m.sfence page asid noAsid).tlb = m.tlb.filter (fun e => !fenced page asid noAsid e) ∧
    (m.sfence page asid noAsid).tlb2 = m.tlb2.filter (fun e => !fenced page asid noAsid e) := by
  cases page <;> cases asid <;> exact ⟨rfl, rfl⟩

/-- An instruction that waits for the stores that other harts hold goes on only when there is none. -/
theorem no_stores_of_not_waiting (s : State) :
    let t := if s.holdsStores then s.stopWith (.wait .yoke) else s.finish
    t.h.status ≠ .wait .yoke → ∀ g ∈ t.others, g.unconf = [] := by
  intro t
  unfold t
  split
  · exact fun h => absurd rfl h
  · rename_i h
    exact fun _ => (holdsStores_eq_false_iff (s := s)).1 (by simpa using h)

/-- HALT outside M mode, once nothing holds it back (R83). -/
theorem execHalt_of_ready {s t : State} (hm : s.h.mode ≠ .m) (hy : (s.yokeWait fun _ => true) = .ok () t)
    (hcopies : t.h.copies = []) (hcolls : t.h.colls = []) (hb : ∀ b ∈ t.h.sleeves, b.write = false ∧ b.closing = false) :
    execHalt s = (({ t.resolveLatest with h := { t.resolveLatest.h with sleeves := [] } } : State).releaseRes.bind
      fun _ u => u.ungrant.traceStrip 32).done fun _ u =>
        { u.finish with h := { u.finish.h with inbox := ⟨[], []⟩ } }.nextWork := by
  have hr := besideSpans_resolveLatest t
  have hsl : t.resolveLatest.h.sleeves = t.h.sleeves := (congrArg Hart.sleeves hr :)
  have hcp : t.resolveLatest.h.copies = [] := (congrArg Hart.copies hr :).trans hcopies
  have hcl : t.resolveLatest.h.colls = [] := (congrArg Hart.colls hr :).trans hcolls
  unfold execHalt
  rw [if_neg hm, hy]
  dsimp only
  rw [unbindAll_eq (hsl ▸ hb), if_neg (by simp [Hart.handback, hcp, hcl])]

/-- What THAW does for the identifier of a resident hart of the module (R84, R416). -/
theorem thaw_hart {s : State} {g : Hart} (hg : s.hart? g.id = some g) (hid : g.id < 65536) (hl : s.link.module < 1024) :
    s.thaw (.ofNat 64 (s.link.module * 65536 + g.id)) =
      if s.h.mode = .m ∨ s.h.ctxid = g.ctxid then s.onHart g.id State.thawHart else s := by
  have hv : (BitVec.ofNat 64 (s.link.module * 65536 + g.id)).toNat = s.link.module * 65536 + g.id :=
    Nat.mod_eq_of_lt (by omega)
  have hkind : field (.ofNat 64 (s.link.module * 65536 + g.id)) 62 2 = 0 := by
    simp only [field, hv]; omega
  have hrest : field (.ofNat 64 (s.link.module * 65536 + g.id)) 0 62 = s.link.module * 65536 + g.id := by
    simp only [field, hv]; omega
  have hi : (s.link.module * 65536 + g.id) % 2 ^ 32 = s.link.module * 65536 + g.id := Nat.mod_eq_of_lt (by omega)
  have hlow : (s.link.module * 65536 + g.id) % 2 ^ 16 = g.id := by omega
  have hhigh : (s.link.module * 65536 + g.id) / 2 ^ 16 = s.link.module := by omega
  unfold State.thaw
  simp only [hkind, hrest, hi, hlow, hhigh, hg]
  rw [if_pos ⟨by omega, trivial⟩]
  simp

theorem thawHart_frozen {s : State} {f : FreezeInfo} (h : s.h.status = .frozen f) : s.thawHart =
    s.takeTrap { intr := false, code := 3, orig := 0, viol := true, tval := f.va } := by
  unfold State.thawHart; rw [h]

theorem thawHart_not_frozen {s : State} (h : ∀ f, s.h.status ≠ .frozen f) : s.thawHart = s := by
  unfold State.thawHart
  split
  · rename_i f hf; exact absurd hf (h f)
  · rfl

end Sys2Proof.Laws

namespace Sys2Proof.Claims

open Sys2Proof.Machine Sys2Proof.Laws

/-- Settles O15: what TRET takes from tstatus, tepc and the recorded window. -/
theorem trapReturn : Obligations.TrapReturn := by
  intro s hm st again
  have hpm : field st 0 2 < 4 := Nat.mod_lt _ (by decide)
  obtain ⟨hie, hpie, hmode⟩ := fields_tstatus hpm (flag st 4) (flag st 5) (flag st 6)
  refine ⟨{ s with h := s.h.tret }, if_neg hm, rfl, rfl, rfl, fun hM => ?_, hie, hpie, hmode, rfl, rfl, rfl,
    fun hno => ?_, fun hyes => ?_⟩
  · show s.h.modeOf _ = _
    unfold Hart.modeOf
    rw [hM]
    rfl
  · have hno : (flag s.h.trap.tstatus 5 && flag s.h.trap.tchain 63) = false := hno
    simp [Hart.tret, hno]
  · have hyes : (flag s.h.trap.tstatus 5 && flag s.h.trap.tchain 63) = true := hyes
    refine ⟨by simp [Hart.tret, hyes], by simp [Hart.tret, hyes], fun e he => ?_⟩
    simp [Hart.tret, hyes, he]

theorem systemCalls : SystemCalls := by
  intro s c
  refine ⟨fun h => ?_, fun h => ?_, fun h => ?_, rfl⟩ <;> simp only [exec_ecall, execEcall, h] <;> rfl

theorem waitsYieldsPrefixes : WaitsYieldsPrefixes := by
  intro s
  refine ⟨fun h => ?_, fun hp hi hh hl => ?_, ?_, fun v n p c w hw => ?_⟩
  · have hwake : s.h.wakes = true := by simpa [Hart.wakes, or_assoc] using h
    exact exists_retired (if_pos hwake)
  · have hsleep : s.h.wakes = false := by simp [Hart.wakes, hp, hi, hh, hl]
    exact if_neg (by simp [hsleep])
  · refine ⟨{ s.finish with h := { s.finish.h with yielded := s.readyMates } }, rfl, fun id => ?_, fun r => rfl, ?_⟩
    · show id ∈ s.readyMates ↔ _
      simp only [State.readyMates, List.mem_map, List.mem_filter, Bool.and_eq_true, beq_iff_eq]
      refine exists_congr fun g =>
        ⟨fun ⟨⟨hg, hc, hst⟩, hid⟩ => ⟨hg, hid, hc, ?_⟩, fun ⟨hg, hid, hc, hst⟩ => ⟨⟨hg, hc, ?_⟩, hid⟩⟩
      · split at hst
        · rename_i h; exact .inl h
        · rename_i w h; exact .inr ⟨w, h, hst⟩
        · cases hst
      · rcases hst with h | ⟨w, h, hw⟩ <;> simp [*]
    · have hy : s.finish.h.yielded = s.h.yielded := by
        rw [finish_eq]
        unfold left
        cases s.h.back <;> rfl
      simp only [← hy]
      exact retired_finish s
  · obtain rfl : pfxWord v n p c = w := by
      have hcode : encode (.pfx v n p c) = some (pfxWord v n p c) := by cases v <;> cases n <;> rfl
      exact Option.some.inj (hcode.symm.trans hw)
    exact ⟨_, rfl, rfl, rfl, by rw [← retired_eq_left]; rfl, rfl, rfl, rfl⟩

/-- Settles O17: the causes of ECALL and EBREAK; when WFI and YIELD retire; the word that PFX leaves. -/
theorem callsWaitsAndPrefixes : Obligations.CallsWaitsAndPrefixes := ⟨systemCalls, waitsYieldsPrefixes⟩

/-- Settles O18: SFENCE filters each TLB, and completes when no other hart holds a store. -/
theorem translationFence : Obligations.TranslationFence := by
  intro s a b hm page hit
  rw [exec_sfence, execSfence, if_neg hm]
  refine ⟨⟨_, rfl, no_stores_of_not_waiting _⟩, fun hno => ?_⟩
  · dsimp only
    rw [dischargeOthers_eq_self (by exact hno), if_neg (by simpa [State.holdsStores] using hno)]
    have hhit (e : Tlb) : fenced (if a = 0 then none else some page)
        (if b = 0 ∨ (s.x b).toNat ≥ 65536 then none else some (s.x b).toNat) (b == 0) e = hit e := by
      show (_ && _) = (_ && _)
      congr 1
      · by_cases ha : a = 0 <;> simp [ha]
      · by_cases hb : b = 0
        · simp [hb]
        · by_cases hx : 65536 ≤ (s.x b).toNat <;> simp [beq_eq_false_iff_ne.2 hb, hb, hx]
    obtain ⟨htlb, htlb2⟩ := tlbs_sfence s.mmu (if a = 0 then none else some page)
      (if b = 0 ∨ (s.x b).toNat ≥ 65536 then none else some (s.x b).toNat) (b == 0)
    refine ⟨_, rfl, fun e => ?_, fun e => ?_, rfl, fun _ => rfl, retired_finish _⟩
    · show e ∈ (s.mmu.sfence _ _ _).tlb ↔ _
      rw [htlb, List.mem_filter, Bool.not_eq_true', hhit]
    · show e ∈ (s.mmu.sfence _ _ _).tlb2 ↔ _
      rw [htlb2, List.mem_filter, Bool.not_eq_true', hhit]

/-- Settles O19: HALT in its order, and whom THAW releases. -/
theorem haltAndThaw : Obligations.HaltAndThaw := by
  intro s a
  refine ⟨fun hm => ⟨_, if_pos hm, rfl, rfl, rfl⟩, fun t hm hy hcopies hcolls hb => ?_, fun w t hm hy => ?_,
    fun g hm hg hid hl ha => ?_⟩
  · intro u
    rw [exec_halt, execHalt_of_ready hm hy hcopies hcolls hb]
    refine ⟨fun r q hr hq => ?_, fun w r hr => ?_, fun w r q hr hq => ?_⟩
    · rw [show State.releaseRes _ = _ from hr]
      show Res.done (r.ungrant.traceStrip 32) _ = _
      rw [hq]
      rfl
    · rw [show State.releaseRes _ = _ from hr]
      rfl
    · rw [show State.releaseRes _ = _ from hr]
      show Res.done (r.ungrant.traceStrip 32) _ = _
      rw [hq]
      rfl
  · rw [exec_halt, execHalt, if_neg hm, hy]
  · have hexec : exec (.thaw a) s = .next (s.thaw (s.x a)).finish := if_neg hm
    obtain ⟨t, ht, hth⟩ := switchTo_of_hart? hg
    intro own
    rw [hexec, ha, thaw_hart hg hid hl]
    refine ⟨fun f ho hf => ?_, fun ho hf => ?_, fun ho => ?_⟩
    · rw [if_pos ho]
      exact congrArg (fun u : State => Host.Outcome.next u.finish) (onHart_congr ht (thawHart_frozen (hth ▸ hf)))
    · rw [if_pos ho, onHart_congr ht (g := fun u => u) (thawHart_not_frozen (hth ▸ hf))]
    · rw [if_neg ho]

end Sys2Proof.Claims
end

section
/-! PROOF. LOAD and STORE in the local window (R58 to R60, R11, R140, R274): O8. -/

namespace Sys2Proof.Laws

open Sys2Proof.Machine Sys2Proof.Claims

/-! ### The members of LOAD and STORE -/

theorem eaM_eq (s : State) (a : Fin 32) (i : BitVec 11) : s.eaM a i = addrOf s a i := rfl

/-- Each LOAD member is the common operation with its size and extension. -/
theorem exec_loads_eq {s : State} {d a : Fin 32} {p : Policy} {i : BitVec 11} {m : Instr × Nat × Bool}
    (hm : m ∈ loads d a p i) : exec m.1 s = s.load d a p i m.2.1 m.2.2 := by
  simp only [loads, List.mem_cons, List.not_mem_nil, or_false] at hm
  rcases hm with rfl | rfl | rfl | rfl | rfl | rfl | rfl <;> rfl

/-- Each STORE member is the common operation with its size. -/
theorem exec_stores_eq {s : State} {d a : Fin 32} {p : Policy} {i : BitVec 11} {m : Instr × Nat}
    (hm : m ∈ stores d a p i) : exec m.1 s = s.store d a p i m.2 := by
  simp only [stores, List.mem_cons, List.not_mem_nil, or_false] at hm
  rcases hm with rfl | rfl | rfl | rfl <;> rfl

theorem size_of_loads {d a : Fin 32} {p : Policy} {i : BitVec 11} {m : Instr × Nat × Bool} (hm : m ∈ loads d a p i) :
    m.2.1 ∈ [1, 2, 4, 8] := by
  simp only [loads, List.mem_cons, List.not_mem_nil, or_false] at hm
  rcases hm with rfl | rfl | rfl | rfl | rfl | rfl | rfl <;> simp

theorem size_of_stores {d a : Fin 32} {p : Policy} {i : BitVec 11} {m : Instr × Nat} (hm : m ∈ stores d a p i) :
    m.2 ∈ [1, 2, 4, 8] := by
  simp only [stores, List.mem_cons, List.not_mem_nil, or_false] at hm
  rcases hm with rfl | rfl | rfl | rfl <;> simp

/-- The extension of a loaded number is the number that R59 says. -/
theorem extBytes_eq (signed : Bool) (n v : Nat) : extBytes signed n v = .ofInt 64 (valOf signed n v) := by
  cases signed
  · exact (BitVec.ofInt_natCast 64 v).symm
  · exact congrArg (BitVec.ofInt 64) (BitVec.toInt_ofNat v)

/-- A load that gives v retires with v extended in x d. -/
theorem exec_loads_of_ok {s t : State} {d a : Fin 32} {p : Policy} {i : BitVec 11} {m : Instr × Nat × Bool} {v : Nat}
    (hm : m ∈ loads d a p i) (h : s.scalarLoad (addrOf s a i) m.2.1 p = .ok v t) :
    exec m.1 s = .next (t.finishWr d (.ofInt 64 (valOf m.2.2 m.2.1 v))) := by
  rw [exec_loads_eq hm, State.load, eaM_eq, h, ← extBytes_eq]
  rfl

theorem exec_loads_of_stop {s t : State} {d a : Fin 32} {p : Policy} {i : BitVec 11} {m : Instr × Nat × Bool} {w : Stop}
    (hm : m ∈ loads d a p i) (h : s.scalarLoad (addrOf s a i) m.2.1 p = .stop w t) : exec m.1 s = .next (t.stopWith w) := by
  rw [exec_loads_eq hm, State.load, eaM_eq, h]
  rfl

theorem exec_stores_of_ok {s t : State} {d a : Fin 32} {p : Policy} {i : BitVec 11} {m : Instr × Nat} {reset : Bool}
    (hm : m ∈ stores d a p i) (h : s.scalarStore (addrOf s a i) m.2 p (s.x d) = .ok reset t) :
    exec m.1 s = .next (if reset then t else t.finish) := by
  rw [exec_stores_eq hm, State.store, eaM_eq, h]
  rfl

theorem exec_stores_of_stop {s t : State} {d a : Fin 32} {p : Policy} {i : BitVec 11} {m : Instr × Nat} {w : Stop}
    (hm : m ∈ stores d a p i) (h : s.scalarStore (addrOf s a i) m.2 p (s.x d) = .stop w t) :
    exec m.1 s = .next (t.stopWith w) := by
  rw [exec_stores_eq hm, State.store, eaM_eq, h]
  rfl

/-! ### The checks and gates of an access -/

theorem isLocal_iff {va : Nat} : isLocal va = true ↔ 0x7F0000000000 ≤ va ∧ va < 0x7F0100000000 := by
  rw [isLocal, Bool.and_eq_true, decide_eq_true_iff, decide_eq_true_iff]
  rfl

theorem isAperture_iff {va : Nat} : isAperture va = true ↔ 0x7F0100000000 ≤ va ∧ va < 0x7F0200000000 := by
  rw [isAperture, Bool.and_eq_true, decide_eq_true_iff, decide_eq_true_iff]
  rfl

/-- The checks of R58 let an aligned piece of the scratchpad through. -/
theorem locate_inWindow {s : State} {ea : Word} {n : Nat} (h : InWindow s ea n) (need : Need) (dev : Bool) (elem : Nat) :
    s.locate ea n true need dev elem = .ok (.scratch (windowOff ea)) s := by
  obtain ⟨hlo, hhi, hsize, hal⟩ := h
  have hoff : ea.toNat - localBase + n ≤ s.h.lc.scratch := hsize
  unfold State.locate
  rw [if_neg (by omega), if_pos (isLocal_iff.2 ⟨hlo, hhi⟩), if_neg (by omega), if_neg (by simp [hal])]
  rfl

theorem heldAt_eq_false {s : State} (h : NothingHeld s) (va : Nat) (l : Loc) (n : Nat) : s.h.heldAt va l n = false := by
  refine List.any_eq_false.2 fun u hu => ?_
  rw [h u hu]
  simp

/-- A load that no watermark covers passes the gate. -/
theorem wmGate_eq_ok {s : State} {last : Nat} {binds : List Nat}
    (h : ∀ n ∈ binds, ∀ w, s.wm? n = some w → ¬(w.base ≤ last ∧ last < w.limit)) : s.wmGate last binds = .ok s := by
  induction binds with
  | nil => rfl
  | cons n ns ih =>
    obtain ⟨hn, hns⟩ := List.forall_mem_cons.1 h
    unfold State.wmGate
    split
    · exact ih hns
    · rename_i w hw
      have := hn w hw
      rw [if_neg (by omega)]
      exact ih hns

/-- A load of an aligned piece of the scratchpad that nothing holds up. -/
theorem scalarLoad_inWindow {s : State} {ea : Word} {n : Nat} (p : Policy) (h : InWindow s ea n) (hh : NothingHeld s)
    (hw : Unwatched s (ea.toNat + n - 1)) : s.scalarLoad ea n p =
      if s.h.badPool.contains (1, windowOff ea / 8) then .stop (.trap (uncorrectable ea)) s
      else .ok (s.h.scratch.read (windowOff ea) n) (s.readPool 1 (windowOff ea) n) := by
  unfold State.scalarLoad
  rw [locate_inWindow h]
  simp only [Res.bind, heldAt_eq_false hh, Bool.false_eq_true, if_false, State.readLoc, State.readLocTo, wmGate_eq_ok hw]

theorem windowOff_mod {s : State} {ea : Word} {n : Nat} (hn : n ∈ [1, 2, 4, 8]) (h : InWindow s ea n) :
    windowOff ea % n = 0 := by
  obtain ⟨hlo, -, -, hal⟩ := h
  unfold windowOff
  simp only [List.mem_cons, List.not_mem_nil, or_false] at hn
  rcases hn with rfl | rfl | rfl | rfl <;> omega

theorem isAperture_inWindow {s : State} {ea : Word} {n : Nat} (h : InWindow s ea n) : isAperture ea.toNat = false := by
  obtain ⟨-, hhi, -, -⟩ := h
  rw [Bool.eq_false_iff, ne_eq, isAperture_iff]
  omega

/-! ### The scratchpad and the marks of its words -/

/-- Byte j of n bytes that are read. -/
theorem byteOf_read {m : Memory} {a n j : Nat} (hj : j < n) : byteOf (m.read a n) j = m.get (a + j) := by
  induction n generalizing a j with
  | zero => omega
  | succ n ih =>
    unfold Memory.read
    cases j with
    | zero =>
      have hb := (m.get a).isLt
      apply BitVec.eq_of_toNat_eq
      simp only [byteOf, pow_zero, Nat.div_one, BitVec.toNat_ofNat, Nat.add_zero]
      omega
    | succ j =>
      have hb := (m.get a).isLt
      have hdiv : ((m.get a).toNat + 256 * m.read (a + 1) n) / 256 ^ (j + 1) = m.read (a + 1) n / 256 ^ j := by
        rw [pow_succ', ← Nat.div_div_eq_div_mul]
        congr 1
        omega
      rw [show a + (j + 1) = a + 1 + j by omega, ← ih (by omega), byteOf, hdiv]
      rfl

/-- The byte b after n bytes are stored at a. -/
theorem get_write_byteOf (m : Memory) (a n v b : Nat) :
    (m.write a n v).get b = if a ≤ b ∧ b < a + n then byteOf v (b - a) else m.get b := by
  split
  · obtain ⟨j, rfl⟩ : ∃ j, b = a + j := ⟨b - a, by omega⟩
    rw [Memory.get_write (by omega), Nat.add_sub_cancel_left]
    rfl
  · exact Memory.get_write_other (by omega)

/-- An aligned piece lies in one word: a read of it reaches the marks of that word alone. -/
theorem touches_word_iff {off n : Nat} (hn : n ∈ [1, 2, 4, 8]) (hal : off % n = 0) (e : Nat × Nat) :
    (e.1 == 1 && decide (off < 8 * e.2 + 8) && decide (8 * e.2 < off + n)) = decide (e = (1, off / 8)) := by
  obtain ⟨k, w⟩ := e
  simp only [List.mem_cons, List.not_mem_nil, or_false] at hn
  rw [Bool.eq_iff_iff]
  simp only [Bool.and_eq_true, beq_iff_eq, decide_eq_true_eq, Prod.mk.injEq, and_assoc]
  refine and_congr_right fun _ => ?_
  rcases hn with rfl | rfl | rfl | rfl <;> omega

/-- A read of a word without a single-bit error changes nothing. -/
theorem readPool_of_not_mem {s : State} {off n : Nat} (hn : n ∈ [1, 2, 4, 8]) (hal : off % n = 0)
    (h : (1, off / 8) ∉ s.h.weakPool) : s.readPool 1 off n = s := by
  refine if_neg ?_
  simpa [touches_word_iff hn hal] using h

/-- A read corrects the single-bit error of its word. -/
theorem readPool_of_mem {s : State} {off n : Nat} (hn : n ∈ [1, 2, 4, 8]) (hal : off % n = 0)
    (h : (1, off / 8) ∈ s.h.weakPool) :
    (s.readPool 1 off n).h = { s.h with weakPool := s.h.weakPool.filter fun e => !decide (e = (1, off / 8)) } := by
  unfold State.readPool
  simp only [touches_word_iff hn hal]
  rw [if_pos (by simpa using h)]

theorem cleanPool_eq (h : Hart) (kind off n : Nat) :
    ∃ b w, h.cleanPool kind off n = { h with badPool := b, weakPool := w } := by
  unfold Hart.cleanPool
  split
  · exact ⟨h.badPool, h.weakPool, rfl⟩
  · exact ⟨_, _, rfl⟩

/-- Retiring neither reads nor writes the scratchpad and the marks of its words. -/
theorem left_withPool (h : Hart) (m : Memory) (b w : List (Nat × Nat)) (npc : Word) :
    left { h with scratch := m, badPool := b, weakPool := w } npc =
      { left h npc with scratch := m, badPool := b, weakPool := w } := by
  unfold left
  cases h.back <;> rfl

@[simp] theorem left_scratch (h : Hart) (npc : Word) : (left h npc).scratch = h.scratch := by
  unfold left
  cases h.back <;> rfl

@[simp] theorem left_weakPool (h : Hart) (npc : Word) : (left h npc).weakPool = h.weakPool := by
  unfold left
  cases h.back <;> rfl

/-- Retiring after a write of the scratchpad. -/
theorem retiredScratch_finish (s : State) (m : Memory) (b w : List (Nat × Nat)) :
    RetiredScratch s ({ s with h := { s.h with scratch := m, badPool := b, weakPool := w } } : State).finish := by
  unfold RetiredScratch
  rw [finish_eq]
  simp only [left_withPool, left_x]

end Sys2Proof.Laws

namespace Sys2Proof.Claims

open Sys2Proof.Machine Sys2Proof.Laws

theorem localLoad : LocalLoad := by
  intro s d a p i m hm ea off hin hheld hwm
  have hn := size_of_loads hm
  have hal : off % m.2.1 = 0 := windowOff_mod hn hin
  have hload := scalarLoad_inWindow p hin hheld hwm
  refine ⟨fun hgood => ?_, fun hbad => ?_⟩
  · rw [if_neg (by simpa using hgood)] at hload
    have hexec := exec_loads_of_ok hm hload
    refine ⟨s.h.scratch.read off m.2.1, fun j hj => byteOf_read hj, Memory.read_lt .., fun hw => ?_, fun hw => ?_⟩
    · rw [readPool_of_not_mem hn hal hw] at hexec
      exact gives_of_finishWr hexec rfl
    · have hh := readPool_of_mem hn hal hw
      obtain ⟨hx, ht, -⟩ := wroteX_finishWr (s.readPool 1 off m.2.1) d
        (.ofInt 64 (valOf m.2.2 m.2.1 (s.h.scratch.read off m.2.1)))
      refine ⟨_, hexec, fun r => ?_, ?_, fun e => ?_⟩
      · rw [hx r, State.x, State.x, hh]
        rfl
      · rw [ht]
        simp [hh]
      · rw [ht]
        simp [hh]
  · rw [if_pos (by simpa using hbad)] at hload
    exact exec_loads_of_stop hm hload

theorem localStore : LocalStore := by
  intro s d a p i m hm off hin
  have hstore : s.scalarStore (addrOf s a i) m.2 p (s.x d) =
      s.storeAt (.scratch off) (addrOf s a i) m.2 p (s.x d) := by
    unfold State.scalarStore
    rw [if_neg (by simp [isAperture_inWindow hin]), locate_inWindow hin]
    rfl
  refine ⟨fun ha => ?_, fun ha => ?_⟩
  · obtain ⟨b, w, hclean⟩ := cleanPool_eq s.h 1 off m.2
    have hdone : s.scalarStore (addrOf s a i) m.2 p (s.x d) = .ok false
        { s with h := { s.h with scratch := s.h.scratch.write off m.2 (s.x d).toNat, badPool := b, weakPool := w } } := by
      rw [hstore]
      simp only [State.storeAt, ha, Bool.false_eq_true, if_false, State.writeLoc, hclean, Res.bind]
    refine ⟨_, exec_stores_of_ok hm hdone, fun b => get_write_byteOf .., fun _ => rfl, fun _ => rfl,
      retiredScratch_finish ..⟩
  · have hdone : s.scalarStore (addrOf s a i) m.2 p (s.x d) = .ok false
        { s with h := s.h.hold ⟨addrOf s a i, none, m.2, p, s.x d⟩ } := by
      rw [hstore]
      simp only [State.storeAt, ha, if_true]
    exact ⟨_, exec_stores_of_ok hm hdone, fun _ => rfl, retired_finish _⟩

/-- Settles O8: a load and a store of the local window, byte by byte. -/
theorem localWindow : Obligations.LocalWindow := ⟨localLoad, localStore⟩

end Sys2Proof.Claims
end

section
/-! PROOF. The checks of a scalar address (R58) and the Sash apertures (R310): O9. -/

namespace Sys2Proof.Laws

open Sys2Proof.Machine Sys2Proof.Claims

/-- The LOAD and STORE members with their sizes and what they need of a page. -/
abbrev accesses (d a : Fin 32) (p : Policy) (i : BitVec 11) : List (Instr × Nat × Need) :=
  (loads d a p i).map (fun m => (m.1, m.2.1, Need.read)) ++ (stores d a p i).map (fun m => (m.1, m.2, Need.write))

/-- An access whose checks stop takes that stop, unless it is an SD.thru to an aperture. -/
theorem exec_access_of_stop {s t : State} {d a : Fin 32} {p : Policy} {i : BitVec 11} {m : Instr × Nat × Need} {w : Stop}
    (hm : m ∈ accesses d a p i) (hsash : ¬(isAperture (addrOf s a i).toNat = true ∧ p = .thru ∧ m.1 = .sd d a p i))
    (h : s.locate (addrOf s a i) m.2.1 true m.2.2 true 0 = .stop w t) : exec m.1 s = .next (t.stopWith w) := by
  rcases List.mem_append.1 hm with hm | hm
  · obtain ⟨l, hl, rfl⟩ := List.mem_map.1 hm
    refine exec_loads_of_stop hl ?_
    unfold State.scalarLoad
    rw [h]
    rfl
  · obtain ⟨l, hl, rfl⟩ := List.mem_map.1 hm
    have hsd : l.2 = 8 → l.1 = .sd d a p i := by
      simp only [stores, List.mem_cons, List.not_mem_nil, or_false] at hl
      rcases hl with rfl | rfl | rfl | rfl <;> simp
    refine exec_stores_of_stop hl ?_
    unfold State.scalarStore
    rw [if_neg fun ⟨hap, hn, hp⟩ => hsash ⟨hap, hp, hsd hn⟩, h]
    rfl

/-! ### The checks of R58 in their order -/

theorem locate_beyond {s : State} {ea : Word} {n : Nat} {need : Need} (h : 2 ^ 48 ≤ ea.toNat) :
    s.locate ea n true need true 0 = .stop (.trap (.sync 2 ea)) s := if_pos h

theorem locate_beyondScratch {s : State} {ea : Word} {n : Nat} {need : Need} (hlo : 0x7F0000000000 ≤ ea.toNat)
    (hhi : ea.toNat < 0x7F0100000000) (h : s.h.lc.scratch < windowOff ea + n) :
    s.locate ea n true need true 0 = .stop (.trap (.sync 3 ea)) s := by
  unfold State.locate
  rw [if_neg (by omega), if_pos (isLocal_iff.2 ⟨hlo, hhi⟩), if_pos (by exact h)]
  rfl

theorem locate_misalignedLocal {s : State} {ea : Word} {n : Nat} {need : Need} (hlo : 0x7F0000000000 ≤ ea.toNat)
    (hhi : ea.toNat < 0x7F0100000000) (h : windowOff ea + n ≤ s.h.lc.scratch) (hal : ea.toNat % n ≠ 0) :
    s.locate ea n true need true 0 = .stop (.trap (.sync 1 ea)) s := by
  unfold State.locate
  rw [if_neg (by omega), if_pos (isLocal_iff.2 ⟨hlo, hhi⟩), if_neg (by exact Nat.not_lt.2 h), if_pos (by simpa using hal)]
  rfl

theorem locate_aperture {s : State} {ea : Word} {n : Nat} {need : Need} (hlo : 0x7F0100000000 ≤ ea.toNat)
    (hhi : ea.toNat < 0x7F0200000000) : s.locate ea n true need true 0 = .stop (.trap (.sync 3 ea)) s := by
  have hl : ¬isLocal ea.toNat = true := by rw [isLocal_iff]; omega
  unfold State.locate
  rw [if_neg (by omega), if_neg hl, if_pos (isAperture_iff.2 ⟨hlo, hhi⟩)]
  rfl

/-- Outside the windows of a hart the translation decides. -/
theorem locate_outside {s : State} {ea : Word} {n : Nat} {need : Need} (hin : ea.toNat < 2 ^ 48)
    (hout : ¬(0x7F0000000000 ≤ ea.toNat ∧ ea.toNat < 0x7F0200000000)) : s.locate ea n true need true 0 =
      match s.translate s.h.who ea.toNat need true with
      | (.error e, t) => if ea.toNat % n != 0 && e != .window then .stop (misaligned ea) s else .stop (e.stop ea need 0) t
      | (.ok pa, t) =>
        if ea.toNat % n != 0 then (if isWindow pa then .stop (.trap (pagePermission ea)) t else .stop (misaligned ea) s)
        else .ok (.phys pa) t := by
  have hl : ¬isLocal ea.toNat = true := by rw [isLocal_iff]; omega
  have ha : ¬isAperture ea.toNat = true := by rw [isAperture_iff]; omega
  unfold State.locate
  rw [if_neg (by omega), if_neg hl, if_neg ha]
  rfl

/-- A misaligned access to memory or to a page that is not there is misaligned, and one to a device window is
page-permission (assumption 22). -/
theorem locate_misaligned {s t : State} {ea : Word} {n : Nat} {need : Need} {r : Except XFault Nat} (hin : ea.toNat < 2 ^ 48)
    (hout : ¬(0x7F0000000000 ≤ ea.toNat ∧ ea.toNat < 0x7F0200000000)) (hal : ea.toNat % n ≠ 0)
    (h : s.translate s.h.who ea.toNat need true = (r, t)) :
    ((r = .error .window ∨ ∃ pa, r = .ok pa ∧ isWindow pa = true) →
      s.locate ea n true need true 0 = .stop (.trap (.sync 3 ea)) t) ∧
    (¬(r = .error .window ∨ ∃ pa, r = .ok pa ∧ isWindow pa = true) →
      s.locate ea n true need true 0 = .stop (.trap (.sync 1 ea)) s) := by
  rw [locate_outside hin hout, h]
  cases r with
  | error e =>
    by_cases he : e = .window
    · subst he; simp [XFault.stop, pagePermission]
    · simp [he, hal, misaligned]
  | ok pa => cases hw : isWindow pa <;> simp [hal, hw, misaligned, pagePermission]

/-- An aligned access that the translation stops. -/
theorem locate_untranslated {s t : State} {ea : Word} {n : Nat} {need : Need} {e : XFault} (hin : ea.toNat < 2 ^ 48)
    (hout : ¬(0x7F0000000000 ≤ ea.toNat ∧ ea.toNat < 0x7F0200000000)) (hal : ea.toNat % n = 0)
    (h : s.translate s.h.who ea.toNat need true = (.error e, t)) :
    s.locate ea n true need true 0 = .stop (e.stop ea need 0) t := by
  rw [locate_outside hin hout, h]
  simp [hal]

/-! ### The Sash apertures (R310) -/

/-- Where the Sash of a cluster takes a mesh hart's store. -/
theorem sashTakes_iff (h : Hart) (va : Nat) : h.sashTakes va = true ↔ h.lc.kind = 1 ∧ h.lc.launch ≠ none ∧
    (va - 0x7F0100000000) / 4096 < 48 ∧ va % 8 = 0 ∧ (va - 0x7F0100000000) % 4096 ≤ 0x40 := by
  simp only [Hart.sashTakes, Bool.and_eq_true, beq_iff_eq, decide_eq_true_eq, Option.isSome_iff_ne_none, and_assoc]
  rfl

/-- An SD.thru to an aperture is the Sash's. -/
theorem exec_sd_aperture {s : State} {d a : Fin 32} {i : BitVec 11} (hap : isAperture (addrOf s a i).toNat = true)
    (ha : s.h.ahead = false) : exec (.sd d a .thru i) s =
      if s.h.sashTakes (addrOf s a i).toNat then (s.sashStore (addrOf s a i).toNat (s.x d)).done fun _ t => t.finish
      else .next (s.takeTrap (.sync 3 (addrOf s a i))) := by
  rw [exec_sd, execSd, State.store, eaM_eq, State.scalarStore, if_pos ⟨hap, rfl, rfl⟩]
  by_cases ht : s.h.sashTakes (addrOf s a i).toNat = true
  · rw [if_pos ht, if_pos ht, if_neg (by simp [ha])]
    cases s.sashStore (addrOf s a i).toNat (s.x d) <;> rfl
  · rw [if_neg ht, if_neg ht]
    rfl

/-- The hart with these bytes staged for the Sash of a cluster. -/
def putStage (h : Hart) (c : Nat) (m : Memory) : Hart :=
  { h with staging := ⟨c, m⟩ :: h.staging.filter fun e => e.cluster != c }

/-- A staging record put in its place is the one of its cluster, and the others stay. -/
theorem stage_putStage (h : Hart) (c k : Nat) (m : Memory) : (putStage h c m).stage k = if k = c then m else h.stage k := by
  unfold Hart.stage putStage
  by_cases hk : k = c
  · subst hk
    simp
  · rw [if_neg hk, List.find?_cons_of_neg (by simpa using Ne.symm hk), List.find?_filter]
    congr 2
    funext e
    by_cases he : e.cluster = k <;> simp [he, hk]

/-- A store below offset 0x40 of an aperture is staged. -/
theorem sashStore_stages {s : State} {va num off : Nat} (v : Word) (hn : (va - 0x7F0100000000) / 4096 = num)
    (ho : (va - 0x7F0100000000) % 4096 = off) (h : off < 0x40) :
    s.sashStore va v = .ok () { s with h := putStage s.h num ((s.h.stage num).write off 8 v.toNat) } := by
  simp only [State.sashStore, apertureBase, ho, hn, if_pos h]
  rfl

/-- What a notify store pushes. -/
def pushedRecord (s : State) (num : Nat) : Pushed :=
  { cluster := num, launch := s.h.lc.launch.getD 0, hart := s.h.lc.rank, mesh := s.h.lc.coords.headD 0
    words := (List.range 16).map fun i => (s.h.stage num).read (4 * i) 4 }

/-- The notify store pushes the record, or waits. -/
theorem sashStore_notify {s : State} {va num : Nat} (v : Word) (hn : (va - 0x7F0100000000) / 4096 = num)
    (ho : (va - 0x7F0100000000) % 4096 = 0x40) :
    s.sashStore va v = if 4 ≤ s.stagedBy s.h num then .stop (.wait (.sash num)) s
      else .ok () { s with gfx := { s.gfx with input := s.gfx.input ++ [pushedRecord s num] } } := by
  simp only [State.sashStore, apertureBase, ho, hn, lt_irrefl, if_false]
  rfl

theorem stage_left (h : Hart) (npc : Word) (c : Nat) : (left h npc).stage c = h.stage c := by
  unfold left
  cases h.back <;> rfl

@[simp] theorem pc_putStage (h : Hart) (c : Nat) (m : Memory) : (putStage h c m).pc = h.pc := rfl

/-- Retiring neither reads nor writes the staging records. -/
theorem left_putStage (h : Hart) (c : Nat) (m : Memory) (npc : Word) :
    left (putStage h c m) npc = { left h npc with staging := (putStage h c m).staging } := by
  unfold left putStage
  cases h.back <;> rfl

end Sys2Proof.Laws

namespace Sys2Proof.Claims

open Sys2Proof.Machine Sys2Proof.Laws

/-- Settles O9: the checks of R58 one by one, and what the Sash takes. -/
theorem addressChecks : Obligations.AddressChecks := by
  intro s d a p i m hm ea va outside num off takes
  have hstop {w : Stop} {t : State} (hsash : ¬(isAperture va = true ∧ p = .thru ∧ m.1 = .sd d a p i))
      (h : s.locate ea m.2.1 true m.2.2 true 0 = .stop w t) : exec m.1 s = .next (t.stopWith w) :=
    exec_access_of_stop hm hsash h
  have hplain (h : va < 0x7F0100000000 ∨ 0x7F0200000000 ≤ va) :
      ¬(isAperture va = true ∧ p = .thru ∧ m.1 = .sd d a p i) := fun ⟨hap, _⟩ => by
    rw [isAperture_iff] at hap
    omega
  refine ⟨fun h => hstop (hplain (by omega)) (locate_beyond h),
    fun ⟨hlo, hhi, h⟩ => hstop (hplain (.inl hhi)) (locate_beyondScratch hlo hhi h),
    fun ⟨hlo, hhi, h, hal⟩ => hstop (hplain (.inl hhi)) (locate_misalignedLocal hlo hhi h hal),
    fun ⟨hlo, hhi, h⟩ => hstop (fun ⟨_, hp, hi⟩ => h.elim (· hp) (· hi)) (locate_aperture hlo hhi),
    fun ⟨hin, hout⟩ hal r t ht => ?_, fun ⟨hin, hout⟩ hal e t ht => ?_, fun ⟨hlo, hhi⟩ hp hi ha => ?_⟩
  · have hpl := hplain (by omega)
    obtain ⟨hwin, hmem⟩ := locate_misaligned (n := m.2.1) hin hout hal ht
    exact ⟨fun h => hstop hpl (hwin h), fun h => hstop hpl (hmem h)⟩
  · rw [hstop (hplain (by omega)) (locate_untranslated hin hout hal ht)]
    cases e <;> rfl
  · subst hp
    have hexec := exec_sd_aperture (d := d) (isAperture_iff.2 ⟨hlo, hhi⟩) ha
    rw [hi, hexec]
    have htk : s.h.sashTakes va = true ↔ takes := sashTakes_iff s.h va
    refine ⟨fun h => if_neg (htk.not.2 h), fun h hoff => ?_, fun h hoff hroom => ?_, fun h hoff hfull => ?_⟩
    · rw [if_pos (htk.2 h)]
      rw [show s.sashStore va (s.x d) = _ from sashStore_stages (s.x d) (num := num) (off := off) rfl rfl hoff]
      refine ⟨_, rfl, fun k b => ?_, ?_⟩
      · simp only [finish_eq, stage_left, stage_putStage]
        by_cases hk : k = num
        · rw [if_pos hk, get_write_byteOf, hk]
          simp
        · simp [hk]
      · simp only [finish_eq, pc_putStage, left_putStage]
    · rw [if_pos (htk.2 h), show s.sashStore va (s.x d) = _ from sashStore_notify (s.x d) (num := num) rfl hoff,
        if_neg (Nat.not_le.2 hroom)]
      refine ⟨_, rfl, ⟨pushedRecord s num, rfl, rfl, rfl, rfl, rfl⟩, ?_⟩
      simp only [finish_eq]
    · rw [if_pos (htk.2 h), show s.sashStore va (s.x d) = _ from sashStore_notify (s.x d) (num := num) rfl hoff,
        if_pos hfull]
      rfl

end Sys2Proof.Claims
end

section
/-! PROOF. FENCE (R67, R68) and the CACHE operations (R69): O11. -/

namespace Sys2Proof.Laws

open Sys2Proof.Machine Sys2Proof.Claims

/-! ### FENCE -/

theorem scopeWide_eq (c : Scope) : scopeWide c = decide (c = .dev ∨ c = .sys) := by cases c <;> rfl

theorem dirVector_eq (t : Dir) : dirVector t = decide (t ≠ .sv) := by cases t <;> rfl

/-- FENCE in the terms of its operands: the release, the open Yoke operations' reads, the acquire. -/
theorem execFence_eq (l q : Bool) (c : Scope) (t : Dir) (s : State) : execFence l q c t s =
    (if l ∧ (c = .dev ∨ c = .sys) then s.releaseRes else .ok () s).done fun _ s =>
      let k := if l ∨ t ≠ .sv then { s with h := s.h.pinOps } else s
      (if q ∧ (c = .dev ∨ c = .sys) then k.acquire k.h.core else k).finish := by
  unfold execFence
  simp only [scopeWide_eq, dirVector_eq, Bool.and_eq_true, Bool.or_eq_true, decide_eq_true_eq]

/-- An acquire leaves no self-valid word in the core's L1. -/
theorem st_ne_v_acquire {s : State} {core : Nat} :
    ∀ e ∈ (s.acquire core).coh.l1, e.core = core → ∀ w ∈ e.words, w.st ≠ .v := by
  intro e he hc w hw
  obtain ⟨l, hl, rfl⟩ := List.mem_map.1 he
  by_cases h : l.core = core
  · simp only [h, if_true] at hw
    obtain ⟨v, -, rfl⟩ := List.mem_map.1 hw
    by_cases hv : v.st = .v <;> simp [hv]
  · simp only [h, if_false] at hc

theorem releaseRes_of_none {s : State} (h : s.releaseWait s.h.core = none) :
    s.releaseRes = .ok () (s.release s.h.core) := by
  unfold State.releaseRes; rw [h]

theorem releaseRes_of_some {s : State} {a : Nat} (h : s.releaseWait s.h.core = some a) :
    s.releaseRes = .stop (.wait (.word a)) s := by
  unfold State.releaseRes; rw [h]

/-! ### The checks of a CACHE operation -/

/-- The checks lead to the scratchpad only within the local window. -/
theorem locate_eq_scratch {s t : State} {ea : Word} {n : Nat} {al : Bool} {need : Need} {dev : Bool} {elem off : Nat}
    (h : s.locate ea n al need dev elem = .ok (.scratch off) t) : off < 2 ^ 32 := by
  unfold State.locate at h
  dsimp only at h
  split at h
  · cases h
  · split at h
    · rename_i hl
      have hl := isLocal_iff.1 hl
      have hb : localBase = 0x7F0000000000 := rfl
      split at h
      · cases h
      · split at h
        · cases h
        · injection h with h _
          injection h with h
          omega
    · split at h
      · cases h
      · split at h
        · split at h <;> cases h
        · split at h
          · split at h <;> cases h
          · cases h

theorem not_sameLine_iff {c l core line : Nat} : (!(c == core && l == line)) = true ↔ ¬(c = core ∧ l = line) := by
  simp only [Bool.not_eq_true', Bool.and_eq_false_iff, beq_eq_false_iff_ne, ne_eq, not_and_or]

/-- Below 2³³ an unlisted byte reads as zero. -/
theorem dflt_eq_zero {b : Nat} (h : b < 2 ^ 33) : Memory.dflt b = 0 := by
  refine if_neg ?_
  have : tableBase = 0x1FFFC000000 := rfl
  omega

/-- The block of 128 bytes that holds off is cleared. -/
theorem get_clear_block (m : Memory) {off : Nat} (h : off < 2 ^ 32) (b : Nat) :
    (m.clear (off / 128 * 128) 128).get b = if off / 128 = b / 128 then 0 else m.get b := by
  rw [Memory.get_clear]
  by_cases hb : off / 128 = b / 128
  · rw [if_pos (by omega), if_pos hb, dflt_eq_zero (by omega)]
  · rw [if_neg (by omega), if_neg hb]

theorem onLine_of_free {s : State} {pa : Nat} (f : State → Nat → State) (h : s.lineWait s.h.core (pa / 128) = none) :
    s.onLine (.phys pa) f = .ok () (f s (pa / 128)) := by
  unfold State.onLine; simp only [h]

theorem onLine_of_busy {s : State} {pa x : Nat} (f : State → Nat → State)
    (h : s.lineWait s.h.core (pa / 128) = some x) : s.onLine (.phys pa) f = .stop (.wait (.word x)) s := by
  unfold State.onLine; simp only [h]

/-- CINV and CWB are the same operation but for what they do to the line. -/
theorem exec_onLine_cases {s : State} {ea : Word} (f : State → Nat → State) {o : Out}
    (ho : o = ((s.locateLine ea .read).bind fun l t => t.onLine l f).done fun _ t => t.finish) :
    (∀ off t, s.locateLine ea .read = .ok (.scratch off) t → o = .next t.finish) ∧
    (∀ pa t, s.locateLine ea .read = .ok (.phys pa) t →
      (t.lineWait t.h.core (pa / 128) = none → o = .next (f t (pa / 128)).finish) ∧
      ∀ x, t.lineWait t.h.core (pa / 128) = some x → o = .next (t.stopWith (.wait (.word x)))) ∧
    ∀ e t, s.locateLine ea .read = .stop e t → o = .next (t.stopWith e) := by
  refine ⟨fun off t h => ?_, fun pa t h => ⟨fun hw => ?_, fun x hw => ?_⟩, fun e t h => ?_⟩ <;> rw [ho, h]
  · rfl
  · simp only [Res.bind, onLine_of_free f hw, Res.done]
  · simp only [Res.bind, onLine_of_busy f hw, Res.done]
  · rfl

end Sys2Proof.Laws

namespace Sys2Proof.Claims

open Sys2Proof.Machine Sys2Proof.Laws

theorem fences : Fences := by
  intro s l q c t wide
  have hwide : wide = true ↔ c = .dev ∨ c = .sys := decide_eq_true_iff
  simp only [exec_fence, execFence_eq, hwide]
  refine ⟨fun a hl ha => ?_, fun h => ?_⟩
  · rw [if_pos hl, releaseRes_of_some ha]
    rfl
  · have hrel : (if l = true ∧ (c = .dev ∨ c = .sys) then s.releaseRes else .ok () s) =
        .ok () (if l = true ∧ (c = .dev ∨ c = .sys) then s.release s.h.core else s) := by
      by_cases hl : l = true ∧ (c = .dev ∨ c = .sys)
      · rw [if_pos hl, if_pos hl, releaseRes_of_none (h.resolve_left (not_not.2 hl))]
      · rw [if_neg hl, if_neg hl]
    simp only [hrel, Res.done]
    refine ⟨_, rfl, fun _ => rfl, retired_finish _, fun hq => ?_⟩
    rw [if_pos hq]
    exact st_ne_v_acquire

theorem cacheOperations : CacheOperations := by
  intro s a i p w ea
  obtain ⟨hinvS, hinvP, hinvX⟩ := exec_onLine_cases (s := s) (ea := ea) (o := exec (.cinv a i) s)
    (fun u n => u.dropLine u.h.core n) rfl
  obtain ⟨hwbS, hwbP, hwbX⟩ := exec_onLine_cases (s := s) (ea := ea) (o := exec (.cwb a i) s)
    (fun u n => (lineWords n).foldl (fun u w => u.cwbWord u.h.core w) u) rfl
  refine ⟨fun off t => ⟨fun h => ⟨hinvS off t h, hwbS off t h, ?_⟩, fun h => ?_, fun h => ?_⟩,
    fun pa t => ⟨fun h => ?_, fun h => ?_, fun h hl => ⟨fun hi => ?_, fun x hi => ?_⟩⟩,
    fun e t => ⟨fun h => ⟨hinvX e t h, hwbX e t h, ?_⟩, fun h => ?_, fun h => ?_⟩⟩
  · rw [exec_pref, execPref, show s.locateLine (s.eaM a i) .read = _ from h]
  · rw [exec_cinvI, execCinvI, show s.locateLine (s.eaM a i) .exec = _ from h]
    rfl
  · obtain ⟨b, c, hclean⟩ := cleanPool_eq t.h 1 (off / 128 * 128) 128
    rw [exec_czero, execCzero, show s.locateLine (s.eaM a i) .write = _ from h]
    simp only [Res.bind, Res.done, hclean]
    exact ⟨_, rfl, retiredScratch_finish .., get_clear_block _ (locate_eq_scratch h)⟩
  · obtain ⟨hinvF, hinvW⟩ := hinvP pa t h
    obtain ⟨hwbF, hwbW⟩ := hwbP pa t h
    refine ⟨fun hw => ⟨hinvF hw, hwbF hw⟩, fun x hw => ⟨hinvW x hw, hwbW x hw⟩, fun x hl hx => ?_, fun hl hx => ?_⟩
    · rw [exec_pref, execPref, show s.locateLine (s.eaM a i) .read = _ from h]
      simp only [hl, hx, Bool.false_eq_true, if_false]
    · rw [exec_pref, execPref, show s.locateLine (s.eaM a i) .read = _ from h]
      simp only [hl, hx, Bool.false_eq_true, if_false]
      refine ⟨_, rfl, ?_⟩
      split
      · exact .inr rfl
      · exact .inl rfl
  · rw [exec_cinvI, execCinvI, show s.locateLine (s.eaM a i) .exec = _ from h]
    refine ⟨_, rfl, fun e he => ?_, fun e he hne => ?_⟩
    · exact not_sameLine_iff.1 (List.mem_filter.1 he).2
    · exact List.mem_filter.2 ⟨he, not_sameLine_iff.2 hne⟩
  · rw [exec_czero, execCzero, show s.locateLine (s.eaM a i) .write = _ from h]
    simp only [Res.bind, Res.done, hl, hi, Bool.false_eq_true, if_false]
  · rw [exec_czero, execCzero, show s.locateLine (s.eaM a i) .write = _ from h]
    simp only [Res.bind, Res.done, hl, hi, Bool.false_eq_true, if_false]
  · rw [exec_pref, execPref, show s.locateLine (s.eaM a i) .read = _ from h]
    cases e <;> rfl
  · rw [exec_cinvI, execCinvI, show s.locateLine (s.eaM a i) .exec = _ from h]
    rfl
  · rw [exec_czero, execCzero, show s.locateLine (s.eaM a i) .write = _ from h]
    rfl

/-- Settles O11: what a fence drains, drops and reads, and each CACHE operation place by place. -/
theorem fencesAndCaches : Obligations.FencesAndCaches := ⟨fences, cacheOperations⟩

end Sys2Proof.Claims
end

section
/-! PROOF. Why a load, a store and an atomic may change a word at rest (R58 to R60, R64 to R66, R87, R122): O7 and O10 fail.
A full slice set gives up a line, and the answers of that line that are on their way arrive. An answer for an address that
is not a multiple of 8 makes no word busy, and when it arrives the L1 takes it in the word that holds the address. -/

namespace Sys2Proof.Laws

open Sys2Proof.Machine Sys2Proof.Claims

/-- The address of line k of one set of one slice of die 0. -/
def wayAddr (k : Nat) : Nat := 0x3000000 * k

/-- The word of the set's least recently used line that core 5 owns. -/
def victimWord : Nat := wayAddr 16

/-- The copy of the victim word in core 5's L1. -/
def ownedCopy : L1Word := { st := .w, data := 0, dirty := 0, dval := 0, bad := false }

/-- The lead Mantle hart on turn, with a full set of a slice: core 5 owns a word of the least recently used line, each other
line has a shared word, and an answer to core 5 is on its way for an address within the owned word. -/
def strayAnswer : State :=
  { (State.reset) with
    others := []
    coh := { Coh.init with
      slices := (List.range 16).map fun k => wayAddr (k + 1) / 128
      seam := (victimWord, .o 5) :: (List.range 15).map fun k => (wayAddr (k + 1), .t [0] [])
      l1 := [{ core := 5, line := victimWord / 128, low := false, words := List.replicate 16 ownedCopy }]
      reps := [{ req := Req.of .ownership (some 5) (victimWord + 1), data := 1, bad := false }] } }

theorem l1_strayAnswer (c : Nat) :
    strayAnswer.l1 c victimWord = (if c = 5 then ownedCopy else L1Word.none) ∧ strayAnswer.l1 c 0 = L1Word.none := by
  by_cases hc : c = 5
  · subst hc
    exact ⟨rfl, rfl⟩
  · have hne : (5 == c) = false := by simpa using Ne.symm hc
    simp [State.l1, strayAnswer, hc, hne]

theorem length_words_strayAnswer : ∀ l ∈ strayAnswer.coh.l1, l.words.length = 16 := by
  intro l hl
  rw [List.mem_singleton.1 hl]
  rfl

theorem atRest_victimWord : AtRest strayAnswer victimWord := by
  refine ⟨by decide +kernel, by decide +kernel, fun c => ?_, fun l hl _ => length_words_strayAnswer l hl⟩
  have hseam : strayAnswer.seam victimWord = some (.o 5) := rfl
  rw [(l1_strayAnswer c).1, hseam]
  by_cases hc : c = 5
  · simp [hc, ownedCopy]
  · simp [hc, Ne.symm hc, L1Word.none]

theorem atRest_zero : AtRest strayAnswer 0 := by
  refine ⟨by decide +kernel, by decide +kernel, fun c => ?_, fun l hl _ => length_words_strayAnswer l hl⟩
  have hseam : strayAnswer.seam 0 = none := by decide +kernel
  rw [(l1_strayAnswer c).2, hseam]
  simp [L1Word.none]

/-- The lead Mantle hart reaches address 0 untranslated. -/
theorem locate_strayAnswer (need : Need) (dev : Bool) :
    strayAnswer.locate 0 8 true need dev 0 = .ok (.phys 0) strayAnswer := by
  cases dev <;> rfl

/-- Whether an instruction goes on to a state in which the home's byte of the victim word is the answer's. -/
def changesVictim (i : Instr) : Bool :=
  match exec i strayAnswer with
  | .next u => homeByte u victimWord 0 == 1
  | _ => false

/-- An instruction that changes the victim word does not keep the words at rest. -/
theorem not_othersKept {i : Instr} {u : State} (hi : changesVictim i = true) (hu : exec i strayAnswer = .next u) :
    ¬OthersKept strayAnswer u strayAnswer.h.core 0 := by
  intro h
  have hold : homeByte strayAnswer victimWord 0 = 0 := by decide +kernel
  have hdrained : drainedByte strayAnswer strayAnswer.h.core victimWord 0 = 0 := by decide +kernel
  have hnew : homeByte u victimWord 0 = 1 := by
    unfold changesVictim at hi
    rw [hu] at hi
    exact beq_iff_eq.1 hi
  have := h victimWord 0 (by decide) (by decide) (by decide) atRest_victimWord (by decide)
  rw [hold, hdrained, hnew] at this
  exact absurd this (by decide)

theorem changesVictim_ld : changesVictim (.ld 1 0 .thru 0) = true := by decide +kernel

theorem changesVictim_amoswap : changesVictim (.amoswap 1 0 0 0 false false true true) = true := by decide +kernel

end Sys2Proof.Laws

namespace Sys2Proof.Claims

open Sys2Proof.Machine Sys2Proof.Laws

/-- A .thru load of address 0 changes a word at rest of another line. -/
theorem not_memoryAccess : ¬MemoryAccess := by
  intro h
  obtain ⟨hload, -⟩ :=
    h strayAnswer 1 0 .thru 0 8 0 strayAnswer (by decide) (.inl (by decide)) (by decide +kernel) atRest_zero
  have hheld : NothingHeld strayAnswer := fun u hu => absurd hu List.not_mem_nil
  have hwm (last : Nat) : Unwatched strayAnswer last := fun n hn => absurd hn List.not_mem_nil
  obtain ⟨v, u, hu, -, -, -, -, -, hkept⟩ :=
    hload (.ld 1 0 .thru 0, 8, false) (by simp [loads]) rfl (locate_strayAnswer .read true) hheld (hwm _)
  exact not_othersKept changesVictim_ld hu hkept

/-- Refutes O7: a load may make an answer of another line arrive in a word at rest. -/
theorem not_loadsAndStores : ¬Obligations.LoadsAndStores := fun h => not_memoryAccess h.2.2

/-- Refutes O10: a far AMO may make an answer of another line arrive in a word at rest. -/
theorem not_atomics : ¬Obligations.Atomics := by
  intro h
  obtain ⟨-, -, -, -, hphys, -⟩ := h strayAnswer 1 0 0 0 false false true true
    (.amoswap 1 0 0 0 false false true true, .swap) (by simp [amos])
  obtain ⟨v, u, hu, -, -, -, -, -, hkept⟩ := hphys 0 strayAnswer (locate_strayAnswer .both false) rfl rfl
    (.inl (by decide)) (by decide) atRest_zero (by decide +kernel) fun n hn => absurd hn List.not_mem_nil
  exact not_othersKept changesVictim_amoswap hu hkept

end Sys2Proof.Claims
end

section
/-! PROOF. The events of a hart (R80, R112, R149, R168, R267, R275, R276, R282, R283, R310, R407, R409, R432, R433): O49. -/

namespace Sys2Proof.Laws

open Sys2Proof.Machine Sys2Proof.Claims

/-- An event that applies f with the hart on turn, where f does what P says. -/
theorem forHart_of {i : Instr} {s : State} {id : Nat} {f : State → State} {P : State → State → Prop}
    (h : exec i s = .next (s.onHart id f)) (hP : ∀ t, P t (f t)) : ForHart i s id P := by
  obtain ⟨hnone, hsome⟩ := forHart_of_onHart h
  exact ⟨hnone, fun t ht => by obtain ⟨u, rfl, hu⟩ := hsome t ht; exact ⟨_, hP t, hu⟩⟩

/-! ### Waits -/

/-- What ends a wait on a hart's own turn. -/
def unwait (p : Wait → Bool) (t : State) : State :=
  match t.h.status with
  | .wait w => if p w && t.clears t.h w then { t with h := t.h.goOn } else t
  | _ => t

theorem endWait_eq (s : State) (id : Nat) (p : Wait → Bool) : s.endWait id p = s.onHart id (unwait p) := rfl

/-- A wait of the kind ends when what it waits for has come. -/
theorem unwait_of_wait {p : Wait → Bool} {t : State} {w : Wait} (h : t.h.status = .wait w) (hp : p w = true) :
    unwait p t = if t.clears t.h w then goesOn t else t := by
  unfold unwait
  rw [h]
  simp only [hp, Bool.true_and]
  rfl

theorem unwait_of_other {p : Wait → Bool} {t : State} (h : ∀ w, t.h.status = .wait w → p w = false) : unwait p t = t := by
  unfold unwait
  split
  · rename_i w hw
    rw [if_neg (by simp [h w hw])]
  · rfl

theorem wakes_iff (h : Hart) : h.wakes = true ↔
    h.inbox.posted ≠ [] ∨ h.irqs ≠ [] ∨ h.lc.haltReq = true ∨ h.lc.preempt = true := by
  simp [Hart.wakes, or_assoc]

/-! ### The window before a stop (R276) -/

/-- Nothing has to come up before the window's oldest instruction stops. -/
theorem caughtUp_of_not_mustComeUp {h : Hart} (hm : ¬MustComeUp h) : h.caughtUp = true := by
  rw [Hart.caughtUp, Option.isNone_iff_eq_none, Hart.nextUp, List.find?_eq_none]
  intro k _ hk
  simp only [Bool.and_eq_true, decide_eq_true_eq] at hk
  obtain ⟨hlt, hlock⟩ := hk
  obtain ⟨j, rfl⟩ : ∃ j, k = j + 1 := ⟨k - 1, by omega⟩
  split at hlock
  · rename_i e he
    rw [← List.getElem?_tail] at he
    exact hm ⟨e, List.mem_of_getElem? he, hlock⟩
  · cases hlock

/-- An instruction that has to come up holds a stop back when nothing has come up yet. -/
theorem caughtUp_of_mustComeUp {h : Hart} (hm : MustComeUp h) (hc : h.chase = 0) : h.caughtUp = false := by
  obtain ⟨e, he, hlock⟩ := hm
  obtain ⟨j, hj⟩ := List.mem_iff_getElem?.1 he
  rw [List.getElem?_tail] at hj
  rw [Hart.caughtUp, Bool.eq_false_iff, ne_eq, Option.isNone_iff_eq_none, Hart.nextUp, List.find?_eq_none]
  intro hno
  refine hno (j + 1) (List.mem_range.2 (List.getElem?_eq_some_iff.1 hj).1) ?_
  simp [hj, hlock, hc]

theorem bringUp_of_chase {h : Hart} (hc : h.chase = 0) : h.bringUp = { h with status := .run, chase := 1, met := false } := by
  simp [Hart.bringUp, hc]

/-! ### Interrupts (R407, R409) -/

theorem takesIrq_iff (h : Hart) : h.takesIrq = true ↔ h.mode = .u ∨ (h.mode = .s ∧ flag h.trap.tstatus 3 = true) := by
  unfold Hart.takesIrq
  cases h.mode <;> simp

theorem atIrq_of {h : Hart} (hcap : h.cap = none) (hsk : h.skipping = false)
    (hst : h.status = .run ∨ ∃ w, h.status = .wait w ∧ w ≠ .handback ∧ w ≠ .meshlet) : h.atIrq = true := by
  unfold Hart.atIrq
  rw [hcap, hsk]
  rcases hst with hst | ⟨w, hst, hh, hm⟩
  · simp [hst]
  · rw [hst]
    split
    · rfl
    · rename_i h
      exact absurd (Status.wait.inj h) hh
    · rename_i h
      exact absurd (Status.wait.inj h) hm
    · rfl
    · rename_i h
      exact absurd rfl (h w)

theorem atIrq_of_skipping {h : Hart} (hsk : h.skipping = true) : h.atIrq = false := by
  simp [Hart.atIrq, hsk]

/-- The oldest pending interrupt where the hart takes one. -/
theorem takeIrq_of_taken {t : State} {code : Nat} {tval : Word} {rest : List (Nat × Word)}
    (hi : t.h.irqs = (code, tval) :: rest) (ht : t.h.takesIrq = true) (ha : t.h.atIrq = true) : t.takeIrq =
      if t.h.caughtUp then
        let v := if t.h.status = .wait .wfi then t.finish else t
        ({ v with h := { v.h.settle with irqs := rest, status := .run, chase := 0 } }).takeTrap
          { intr := true, code := code, orig := 0, viol := false, tval := tval }
      else { t with h := t.h.bringUp } := by
  unfold State.takeIrq
  rw [hi]
  simp only [ht, ha, Bool.and_self, if_true]

theorem takeIrq_of_not_taken {t : State} (h : t.h.irqs = [] ∨ t.h.takesIrq = false ∨ t.h.atIrq = false) : t.takeIrq = t := by
  unfold State.takeIrq
  split
  · rfl
  · rename_i hi
    rw [if_neg]
    rcases h with h | h | h
    · simp [h] at hi
    · simp [h]
    · simp [h]

/-! ### Vector instructions that start and go on (R267, R275) -/

theorem codeBytes_pos (c : Nat) : 0 < codeBytes c ∧ codeBytes c ≤ 8 := by
  unfold codeBytes
  split <;> decide

theorem groupSize_pos (s : State) (ew : Nat) : 0 < s.groupSize ew := by
  obtain ⟨hpos, hle⟩ := codeBytes_pos ew
  refine Nat.div_pos ?_ hpos
  unfold State.lanes
  split <;> omega

/-- An instruction that is not the oldest has a bound, which no older one has yet to pass. -/
theorem boundOf_eq_some {h : Hart} {g k b : Nat} (hb : h.boundOf g k = some b) {j : Nat} {e : ChainEntry} (hj : j < k)
    (he : h.window[j]? = some e) : b ≤ e.start := by
  have hmem : e ∈ h.window.take k := List.mem_iff_getElem?.2 ⟨j, by rw [List.getElem?_take_of_lt hj]; exact he⟩
  calc b ≤ e.start / g * g := (List.min?_eq_some_iff.1 hb).2 _ (List.mem_map.2 ⟨e, hmem, rfl⟩)
    _ ≤ e.start := Nat.div_mul_le_self ..

theorem boundOf_eq_none {h : Hart} {g k : Nat} (hb : h.boundOf g k = none) {e : ChainEntry} (he : h.window[k]? = some e) :
    k = 0 := by
  have hnil : (h.window.take k).map (fun e => e.start / g * g) = [] := List.min?_eq_none_iff.1 hb
  have hlen := (List.getElem?_eq_some_iff.1 he).1
  have hzero := congrArg List.length hnil
  rw [List.length_map, List.length_take, List.length_nil] at hzero
  omega

/-- A group of a started instruction is carried out only where every older one has completed it (R275). -/
theorem nextGroup_spec {t : State} {k n : Nat} (h : t.nextGroup = some (k, n)) :
    (∀ j e, j < k → t.h.window[j]? = some e → n ≤ e.start) ∧ ∃ e, t.h.window[k]? = some e ∧ e.start < n := by
  have hg := groupSize_pos t t.h.ew
  obtain ⟨l, -, hl⟩ := List.exists_of_findSome?_eq_some h
  dsimp only at hl
  generalize t.groupSize t.h.ew = g at *
  have hnext (e : ChainEntry) : e.start < (e.start / g + 1) * g := by
    have := Nat.div_add_mod e.start g
    have := Nat.mod_lt e.start hg
    rw [Nat.add_mul, Nat.one_mul, Nat.mul_comm (e.start / g)]
    omega
  split at hl
  · cases hl
  · rename_i e he
    split at hl
    · rename_i b hb
      split at hl
      · rename_i hc
        obtain ⟨hstart, -⟩ := hc
        simp only [Option.some.injEq, Prod.mk.injEq] at hl
        obtain ⟨rfl, rfl⟩ := hl
        exact ⟨fun j f hj hf => (Nat.min_le_left ..).trans (boundOf_eq_some hb hj hf), e, he, lt_min hstart (hnext e)⟩
      · cases hl
    · rename_i hb
      split at hl
      · simp only [Option.some.injEq, Prod.mk.injEq] at hl
        obtain ⟨rfl, rfl⟩ := hl
        refine ⟨fun j f hj _ => ?_, e, he, hnext e⟩
        have := boundOf_eq_none hb he
        omega
      · cases hl

theorem startOk_of_empty {t : State} {e : ChainEntry} (h : t.h.window = []) : t.startOk e = t.unitsFree e.word := by
  simp [State.startOk, h]

theorem startOk_of_full {t : State} {e : ChainEntry} (h : 3 ≤ t.h.window.length) : t.startOk e = false := by
  unfold State.startOk
  split
  · rename_i hw; simp [hw] at h
  · rename_i o os hw
    have : ¬os.length < 2 := by simp [hw] at h; omega
    simp [this]

/-! ### Debug stops (R276, R283) -/

/-- What no undone instruction has changed. -/
def stopView (h : Hart) : List ChainEntry × Strip := (h.window, h.strip)

theorem stopView_restore (us : List Unconf) (h : Hart) : stopView (us.foldr (fun u g => g.restore u) h) = stopView h := by
  induction us with
  | nil => rfl
  | cons u us ih => exact ih

theorem stopView_undo (h : Hart) (n : Nat) : stopView (h.undo n) = stopView h := by
  unfold Hart.undo
  split
  · rfl
  · refine Eq.trans ?_ (stopView_restore (h.unconf.filter (Unconf.goes n)) h)
    dsimp only
    split
    · rfl
    · split <;> rfl
    · rfl

/-- Undoing what is younger empties the queue. -/
theorem viq_undo (h : Hart) (n : Nat) : (h.undo n).viq = [] := by
  unfold Hart.undo
  split
  · rename_i hn
    simp only [Bool.and_eq_true, List.isEmpty_iff] at hn
    exact hn.2
  · rfl

theorem undo_of_nothing {h : Hart} (n : Nat) (hu : h.unconf = []) (hv : h.viq = []) : h.undo n = h := by
  simp [Hart.undo, hu, hv]

/-- What a stop records of the window (R412), or of a pair that it parts (R39). -/
theorem recordStop_spec (h : Hart) :
    stopView h.recordStop = stopView h ∧ h.recordStop.viq = h.viq ∧ h.recordStop.pc = h.pc ∧ h.recordStop.x = h.x ∧
    h.recordStop.vec.v = h.vec.v ∧
    (∀ e rest, h.window = e :: rest → h.recordStop.trap.tepc = e.pc ∧ h.recordStop.trap.tchain = tchainOf h.window ∧
      h.recordStop.vec.vstart = .ofNat 64 e.start) ∧
    (h.window = [] → h.recordStop.trap.tepc = if h.trap.pfxLive then h.pc else h.trap.tepc) := by
  unfold Hart.recordStop
  split
  · rename_i e es hw
    refine ⟨rfl, rfl, rfl, rfl, rfl, fun f rest hf => ?_, fun hn => ?_⟩
    · rw [hw] at hf
      cases hf
      exact ⟨rfl, rfl, rfl⟩
    · rw [hw] at hn
      cases hn
  · rename_i hw
    have hno : ∀ e rest, h.window ≠ e :: rest := by simp [hw]
    split
    · exact ⟨rfl, rfl, rfl, rfl, rfl, fun e rest he => absurd he (hno e rest), fun _ => rfl⟩
    · exact ⟨rfl, rfl, rfl, rfl, rfl, fun e rest he => absurd he (hno e rest), fun _ => rfl⟩

/-- The hart as the debugger halts it at once. -/
def halted (h : Hart) : Hart :=
  { h with strip := { h.strip with flags := h.strip.flags ||| 2 }, halting := true }

theorem debugStopped_stopNow (t : State) :
    DebugStopped t { t with h := (halted t.h).stopNow (.debugHalt false) } := by
  have hview : stopView (halted t.h).settle = stopView (halted t.h) := stopView_undo ..
  obtain ⟨hrec, hviq, hpc, hx, hv, hchain, hpair⟩ := recordStop_spec (halted t.h).settle
  have hwin : (halted t.h).settle.window = t.h.window := congrArg Prod.fst hview
  refine ⟨rfl, rfl, ?_, hviq.trans (viq_undo ..), ?_, fun e rest he => ?_, fun hu hq => ?_⟩
  · exact (congrArg Prod.fst hrec).trans hwin
  · exact congrArg (fun v => v.2.flags) (hrec.trans hview)
  · rw [hwin] at hchain
    exact hchain e rest he
  · have hsettle : (halted t.h).settle = halted t.h := undo_of_nothing _ hu hq
    refine ⟨hpc.trans (congrArg Hart.pc hsettle :), hx.trans (congrArg Hart.x hsettle :),
      hv.trans (congrArg (fun h : Hart => h.vec.v) hsettle :), fun hw => (hpair (hwin.trans hw)).trans ?_⟩
    rw [hsettle]
    rfl

/-- A debug halt of a running hart that passes no region and has met no trap. -/
theorem haltHere_of_run {h : Hart} (hs : h.status = .run) (hsk : h.skipping = false) (ht : h.trapMet = false) :
    h.haltHere = (halted h).stopAt (.debugHalt false) := by
  unfold Hart.haltHere halted
  simp only [hs, hsk, ht, Bool.or_self, Bool.false_eq_true, if_false]

theorem cancelToken_of_run {t : State} (hs : t.h.status = .run) : t.cancelToken = t := by
  unfold State.cancelToken
  rw [hs]

end Sys2Proof.Laws

namespace Sys2Proof.Claims

open Sys2Proof.Machine Sys2Proof.Laws

theorem loadDataReturn_spec (s : State) (id : Nat) : ForHart (.loadDataReturn id) s id fun t u =>
    (∀ a, t.h.status = .wait (.word a) → u = if t.wordBusy a then t else goesOn t) ∧
    ((∀ a, t.h.status ≠ .wait (.word a)) → u = t) := by
  refine forHart_of (f := unwait fun w => match w with | .word _ => true | _ => false) rfl fun t =>
    ⟨fun a ha => ?_, fun h => unwait_of_other fun w hw => ?_⟩
  · rw [unwait_of_wait ha rfl]
    cases hb : t.wordBusy a <;> simp [State.clears, hb]
  · split
    · exact absurd hw (h _)
    · rfl

theorem watermarkStallEnd_spec (s : State) (id : Nat) : ForHart (.watermarkStallEnd id) s id fun t u =>
    (∀ n last w, t.h.status = .wait (.watermark n last) → t.wm? n = some w →
      u = if last < w.base + w.value ∨ w.limit ≤ last then goesOn t else t) ∧
    ((∀ n last, t.h.status ≠ .wait (.watermark n last)) → u = t) := by
  refine forHart_of (f := unwait fun w => match w with | .watermark _ _ => true | _ => false) rfl fun t =>
    ⟨fun n last w hs hw => ?_, fun h => unwait_of_other fun w hw => ?_⟩
  · rw [unwait_of_wait hs rfl]
    simp [State.clears, hw]
  · split
    · exact absurd hw (h _ _)
    · rfl

theorem pteMovingReread_spec (s : State) (id : Nat) : ForHart (.pteMovingReread id) s id fun t u =>
    (∀ va, t.h.status = .wait (.moving va) → u = goesOn t) ∧ ((∀ va, t.h.status ≠ .wait (.moving va)) → u = t) := by
  refine forHart_of (f := unwait fun w => match w with | .moving _ => true | _ => false) rfl fun t =>
    ⟨fun va hs => ?_, fun h => unwait_of_other fun w hw => ?_⟩
  · rw [unwait_of_wait hs rfl]
    rfl
  · split
    · exact absurd hw (h _)
    · rfl

theorem wfiWake_spec (s : State) (id : Nat) : ForHart (.wfiWake id) s id fun t u =>
    (t.h.status = .wait .wfi →
      u = if t.h.inbox.posted ≠ [] ∨ t.h.irqs ≠ [] ∨ t.h.lc.haltReq = true ∨ t.h.lc.preempt = true then t.finish else t) ∧
    (t.h.status ≠ .wait .wfi → u = t) := by
  refine forHart_of (f := fun t => if t.h.status = .wait .wfi ∧ t.h.wakes then t.finish else t) rfl fun t =>
    ⟨fun hs => ?_, fun hs => if_neg fun h => hs h.1⟩
  simp only [hs, true_and, wakes_iff]

/-- When the oldest pending interrupt is taken, and when none is. -/
theorem interrupt_spec (s : State) (id : Nat) : ForHart (.interrupt id) s id fun t u =>
    (∀ code tval rest, t.h.irqs = (code, tval) :: rest →
      t.h.mode = .u ∨ (t.h.mode = .s ∧ flag t.h.trap.tstatus 3 = true) → t.h.cap = none → t.h.skipping = false →
      t.h.trapMet = false →
      (t.h.status = .run ∨ ∃ w, t.h.status = .wait w ∧ w ≠ .handback ∧ w ≠ .meshlet) →
      let v := if t.h.status = .wait .wfi then t.finish else t
      (¬MustComeUp t.h → u = ({ v with h := { v.h.settle with irqs := rest, status := .run, chase := 0 } }).takeTrap
        { intr := true, code := code, orig := 0, viol := false, tval := tval }) ∧
      (MustComeUp t.h → t.h.chase = 0 → u = { t with h := { t.h with status := .run, chase := 1, met := false } })) ∧
    (t.h.irqs = [] ∨ (t.h.mode = .s ∧ flag t.h.trap.tstatus 3 = false) ∨ t.h.mode = .m ∨ t.h.skipping = true ∨
      t.h.trapMet = true → u = t) := by
  refine forHart_of (f := fun t => if t.h.trapMet then t else t.takeIrq) rfl fun t => ⟨?_, fun h => ?_⟩
  · intro code tval rest hi hmode hcap hsk hmet hst
    simp only [hmet, Bool.false_eq_true, if_false]
    rw [takeIrq_of_taken hi ((takesIrq_iff t.h).2 hmode) (atIrq_of hcap hsk hst)]
    refine ⟨fun hm => if_pos (caughtUp_of_not_mustComeUp hm), fun hm hc => ?_⟩
    rw [if_neg (by simp [caughtUp_of_mustComeUp hm hc]), bringUp_of_chase hc]
  · by_cases hmet : t.h.trapMet = true
    · exact if_pos hmet
    · rw [if_neg hmet]
      refine takeIrq_of_not_taken ?_
      rcases h with h | ⟨hm, hf⟩ | hm | hsk | h
      · exact .inl h
      · exact .inr (.inl (by simp [Hart.takesIrq, hm, hf]))
      · exact .inr (.inl (by simp [Hart.takesIrq, hm]))
      · exact .inr (.inr (atIrq_of_skipping hsk))
      · exact absurd h hmet

theorem vectorStart_spec (s : State) (id : Nat) : ForHart (.vectorStart id) s id fun t u =>
    (∀ e rest, t.h.viq = e :: rest → t.h.cap = none → t.h.chase = 0 →
      u = (if shares e.word ∧ t.startOk e then
        { t with h := { t.h with
          viq := rest, window := t.h.window ++ [{ e with vcfg := t.h.vec.vcfg, vl := t.h.vec.vl }] } } else t) ∧
      (t.h.window = [] → t.startOk e = t.unitsFree e.word) ∧ (3 ≤ t.h.window.length → t.startOk e = false)) ∧
    (t.h.viq = [] → u = t) := by
  refine forHart_of rfl fun t => ⟨fun e rest hq hcap hc => ⟨?_, startOk_of_empty, startOk_of_full⟩, fun hq => ?_⟩
  · simp only [hq, hcap, hc, Hart.startHead, Option.isNone_none, beq_self_eq_true, Bool.true_and, Bool.and_eq_true]
  · simp only [hq]

theorem elementGroupComplete_spec (s : State) (id : Nat) : ForHart (.elementGroupComplete id) s id fun t u =>
    t.h.cap = none → t.h.chase = 0 →
      (∀ k n, t.nextGroup = some (k, n) →
        (∀ j e, j < k → t.h.window[j]? = some e → n ≤ e.start) ∧ (∃ e, t.h.window[k]? = some e ∧ e.start < n) ∧
        u = { t with h := t.h.startEntry k (some n), agenda := .hart id :: t.agenda }) ∧
      (t.nextGroup = none → u = t) := by
  refine forHart_of rfl fun t hcap hc => ⟨fun k n hn => ?_, fun hn => ?_⟩
  · obtain ⟨holder, hthis⟩ := nextGroup_spec hn
    refine ⟨holder, hthis, ?_⟩
    simp [hcap, hc, hn]
  · simp [hn]

theorem sashNotify_spec (s : State) (id c : Nat) : ForHart (.sashNotify id c) s id fun t u =>
    (∀ v, t.h.status = .wait (.sash c) → t.h.unconf = [] →
      t.sashStore (apertureBase + 4096 * c + 0x40) 0 = .ok () v → u = v.finish) ∧
    (∀ v, t.h.status = .wait (.sash c) → t.h.unconf ≠ [] → t.flushHeld 1 = .ok () v → u = goesOn v) ∧
    (t.h.status ≠ .wait (.sash c) → u = t) := by
  refine forHart_of rfl fun t => ⟨fun v hs hu hv => ?_, fun v hs hu hv => ?_, fun hs => if_neg hs⟩
  · simp only [hs, if_true, hu, List.isEmpty_nil, hv]
  · simp only [hs, if_true, List.isEmpty_iff, hu, if_false, hv, goesOn]

theorem pageWalk_spec (s : State) (id : Nat) (va : Word) : ForHart (.pageWalk id va) s id fun t u =>
    u = if t.h.mode = .m ∨ 2 ^ 48 ≤ va.toNat then t else (t.tlbFor t.h.who va.toNat).2 := forHart_of rfl fun _ => rfl

theorem debugStripStop_spec (s : State) (id : Nat) : ForHart (.debugStripStop id) s id fun t u =>
    (t.h.lc.haltReq = true → t.h.trap.haltHold = 0 → t.h.status = .run → t.h.window = [] → t.h.viq = [] →
      t.h.unconf = [] → t.h.instret = t.h.strip.ret → t.h.pc = t.h.strip.pc + 4 →
      u = { t with h := { t.h with status := .debugHalt false } }) ∧
    (t.h.lc.haltReq = false ∨ t.h.trap.haltHold ≠ 0 → u = t) := by
  refine forHart_of rfl fun t => ⟨fun hreq hhold hs hw hq hu hret hpc => if_pos ?_, fun h => if_neg ?_⟩
  · simp [Hart.haltDue, Hart.atBoundary, Hart.pending, hreq, hhold, hs, hw, hq, hu, hret, hpc]
  · rcases h with h | h <;> simp [Hart.haltDue, h]

theorem debugHaltTimeout_spec (s : State) (id : Nat) : ForHart (.debugHaltTimeout id) s id fun t u =>
    (t.h.lc.haltReq = true → t.h.status = .run → t.h.skipping = false → t.h.trapMet = false →
      (¬MustComeUp t.h → DebugStopped t u) ∧
      (MustComeUp t.h → t.h.chase = 0 → u.h.status = .run ∧ u.h.chase = 1 ∧ u.h.halting = true ∧
        u.h.window = t.h.window ∧ u.h.viq = t.h.viq ∧ u.h.pc = t.h.pc ∧ u.h.x = t.h.x)) ∧
    (t.h.lc.haltReq = false → u = t) := by
  refine forHart_of rfl fun t => ⟨fun hreq hs hsk hmet => ?_, fun h => if_neg (by simp [h])⟩
  simp only [hreq, if_true, haltHere_of_run hs hsk hmet, cancelToken_of_run hs]
  refine ⟨fun hm => ?_, fun hm hc => ?_⟩
  · have hup : (halted t.h).caughtUp = true := caughtUp_of_not_mustComeUp hm
    rw [Hart.stopAt, if_pos hup]
    exact debugStopped_stopNow t
  · have hup : (halted t.h).caughtUp = false := caughtUp_of_mustComeUp hm hc
    rw [Hart.stopAt, if_neg (by simp [hup]), bringUp_of_chase (h := halted t.h) hc]
    exact ⟨rfl, rfl, rfl, rfl, rfl, rfl, rfl⟩

theorem traceSampleTick_spec (s : State) (id : Nat) : ForHart (.traceSampleTick id) s id fun t u =>
    (∀ l, t.myLaunch = some l →
      u = if l.sample = 0 then t else match t.traceStrip 8 with | .ok _ v => v | .stop _ _ => t) ∧
    (t.myLaunch = none → u = t) := by
  refine forHart_of rfl fun t => ⟨fun l hl => ?_, fun hl => ?_⟩
  · simp only [hl] <;> rfl
  · simp only [hl]

theorem watchdogExpire_spec (s : State) (id : Nat) (g : Hart) (l : Nat) (hg : s.hart? id = some g)
    (hl : g.lc.launch = some l) (hs : g.status = .run) :
    exec (.watchdogExpire id) s = .next (if g.lc.wdog = 0 ∨ s.queuesRun = false then s else s.endLaunch l 7) := by
  have hcounts : g.wdogCounts = true := by simp [Hart.wdogCounts, hs]
  rw [exec_watchdogExpire, execWatchdogExpire, hg]
  simp only [hl, hcounts]
  by_cases hw : g.lc.wdog = 0
  · simp [hw]
  · cases hq : s.queuesRun <;> simp [hw]

/-- Settles O49: each event of a hart by what it does on that hart's turn. -/
theorem hartEvents : Obligations.HartEvents := fun s id =>
  ⟨loadDataReturn_spec s id, watermarkStallEnd_spec s id, pteMovingReread_spec s id, wfiWake_spec s id, interrupt_spec s id,
    vectorStart_spec s id, elementGroupComplete_spec s id, sashNotify_spec s id, pageWalk_spec s id, debugStripStop_spec s id,
    debugHaltTimeout_spec s id, traceSampleTick_spec s id, watchdogExpire_spec s id⟩

end Sys2Proof.Claims
end

section
/-! PROOF. The requests that a home serves (R87, R107, R124, R125, R127, R128, R134): O51. -/

namespace Sys2Proof.Laws

open Sys2Proof.Machine Sys2Proof.Claims

/-! ### The bytes of a merged word (R131) -/

theorem getLsbD_byteOnes {n j : Nat} (hj : j < 64) : (255#64 <<< (8 * n)).getLsbD j = decide (j / 8 = n) := by
  have hones (k : Nat) : Nat.testBit 255 k = decide (k < 8) := Nat.testBit_two_pow_sub_one 8 k
  rw [BitVec.getLsbD_shiftLeft, BitVec.getLsbD_ofNat, hones, Bool.eq_iff_iff]
  simp only [Bool.and_eq_true, Bool.not_eq_true', decide_eq_true_eq, decide_eq_false_iff_not]
  omega

/-- The bits that the first n bytes of a byte mask name. -/
theorem getLsbD_foldl_maskBits (m : BitVec 8) (n : Nat) {j : Nat} (hj : j < 64) :
    ((List.range n).foldl (fun (w : Word) k => if m.getLsbD k then w ||| (255#64 <<< (8 * k)) else w) 0).getLsbD j =
      (decide (j / 8 < n) && m.getLsbD (j / 8)) := by
  induction n with
  | zero => exact BitVec.getLsbD_zero
  | succ n ih =>
    have hlt : decide (j / 8 < n + 1) = (decide (j / 8 < n) || decide (j / 8 = n)) := by
      rw [← Bool.decide_or, decide_eq_decide]
      omega
    rw [List.range_succ, List.foldl_append, List.foldl_cons, List.foldl_nil, hlt]
    split
    next hm =>
      rw [BitVec.getLsbD_or, ih, getLsbD_byteOnes hj]
      by_cases hn : j / 8 = n <;> simp [hn, hm]
    next hm =>
      rw [ih]
      by_cases hn : j / 8 = n <;> simp [hn, hm]

theorem getLsbD_maskBits (m : BitVec 8) {j : Nat} (hj : j < 64) : (maskBits m).getLsbD j = m.getLsbD (j / 8) := by
  rw [maskBits, getLsbD_foldl_maskBits m 8 hj, decide_eq_true (by omega), Bool.true_and]

/-- A byte of a word, as the bits that its number selects. -/
theorem byteOf_toNat (v : Word) (i : Nat) : byteOf v.toNat i = (v >>> (8 * i)).truncate 8 := by
  apply BitVec.eq_of_toNat_eq
  rw [byteOf, BitVec.toNat_ofNat, BitVec.truncate_eq_setWidth, BitVec.toNat_setWidth, BitVec.toNat_ushiftRight,
    Nat.shiftRight_eq_div_pow, Nat.pow_mul]

theorem getLsbD_byteOf (v : Word) (i : Nat) {k : Nat} (hk : k < 8) : (byteOf v.toNat i).getLsbD k = v.getLsbD (8 * i + k) := by
  simp [byteOf_toNat, hk]

theorem byteOf_mergeBytes (old v : Word) (m : BitVec 8) {i : Nat} (hi : i < 8) :
    byteOf (mergeBytes old m v).toNat i = if m.getLsbD i then byteOf v.toNat i else byteOf old.toNat i := by
  apply BitVec.eq_of_getLsbD_eq
  intro k hk
  have hbit : 8 * i + k < 64 := by omega
  have hbyte : (8 * i + k) / 8 = i := by omega
  rw [getLsbD_byteOf _ _ hk, mergeBytes, BitVec.getLsbD_or, BitVec.getLsbD_and, BitVec.getLsbD_and, BitVec.getLsbD_not,
    getLsbD_maskBits m hbit, hbyte]
  cases m.getLsbD i <;> simp [hbit, getLsbD_byteOf _ _ hk]

/-- A byte of the word of memory is that byte of memory. -/
theorem byteOf_memWord (s : State) (a : Nat) {i : Nat} (hi : i < 8) : byteOf (s.memWord a).toNat i = s.mem.get (a + i) := by
  have hlt : s.mem.read a 8 < 2 ^ 64 := Memory.read_lt s.mem a 8
  rw [State.memWord, w64, BitVec.toNat_ofNat, Nat.mod_eq_of_lt hlt, byteOf_read hi]

/-! ### A word at its home -/

theorem seam_setSeam_same (s : State) (a : Nat) (x : Option Seam) : (s.setSeam a x).seam a = x := by
  have hrest : (s.coh.seam.filter fun e => e.1 != a).find? (fun e => e.1 == a) = none := by simp
  cases x <;> simp only [State.seam, State.setSeam, List.find?_append, hrest] <;> simp

theorem seam_setSeam_other (s : State) {a b : Nat} (x : Option Seam) (h : b ≠ a) : (s.setSeam a x).seam b = s.seam b := by
  have hrest : (s.coh.seam.filter fun e => e.1 != a).find? (fun e => e.1 == b) = s.coh.seam.find? (fun e => e.1 == b) := by
    rw [List.find?_filter]
    congr 1
    funext e
    by_cases he : e.1 = b <;> simp [he, h]
  cases x <;> simp [State.seam, State.setSeam, List.find?_append, hrest, Ne.symm h]

@[simp] theorem seam_mergeHome (s : State) (a b : Nat) (m : BitVec 8) (v : Word) : (s.mergeHome a m v).seam b = s.seam b := by
  unfold State.mergeHome
  split
  · rfl
  · split <;> rfl

/-- At a word that is not uncorrectable, a write of some bytes and one of all eight merge alike (R131). -/
theorem mem_mergeHome {s : State} {a : Nat} (m : BitVec 8) (v : Word) (hbad : s.isBad a = false) (b : Nat) :
    (s.mergeHome a m v).mem.get b =
      if a ≤ b ∧ b < a + 8 then (if m.getLsbD (b - a) then byteOf v.toNat (b - a) else s.mem.get b) else s.mem.get b := by
  unfold State.mergeHome
  split
  next hm =>
    subst hm
    rw [State.putHome, State.setBad_mem, State.setMem, get_write_byteOf]
    split
    next hb =>
      have hall : (255 : BitVec 8).getLsbD (b - a) = true := by
        rw [show (255 : BitVec 8) = BitVec.allOnes 8 from rfl, BitVec.getLsbD_allOnes, decide_eq_true (by omega)]
      rw [if_pos hall]
    next => rfl
  next hm =>
    rw [hbad, if_neg Bool.false_ne_true, State.setMem, get_write_byteOf]
    split
    next hb =>
      have hi : b - a < 8 := by omega
      rw [byteOf_mergeBytes _ _ _ hi, byteOf_memWord s a hi, Nat.add_sub_cancel' hb.1]
    next => rfl

/-! ### What the home answers at a word in U (R128) -/

theorem isStale_of_seam_none {s : State} {r : Req} (h : s.seam r.addr = none) : s.isStale r = false := by
  simp only [State.isStale, h]

/-- The home's answer is the word that stands in memory, not uncorrectable; it leaves the word in x and nothing else of
memory or of the homes changes. -/
def AnswersWord (s : State) (a : Nat) (x : Option Seam) (r : Ans) : Prop :=
  r.data = s.memWord a ∧ r.bad = false ∧ r.s.seam a = x ∧ r.s.mem = s.mem ∧ ∀ b, b ≠ a → r.s.seam b = s.seam b

/-- The state in which a read of a kind leaves a word that was in U (R128). -/
def leftByRead (home : Nat) : ReqKind → Option Nat → Option Seam
  | .trkLoad, some c => tOnly home c
  | .ownership, some c => some (.o c)
  | _, _ => none

theorem answersWord_of_seam_none {s : State} {a : Nat} (hu : s.seam a = none) (hbad : s.isBad a = false) :
    AnswersWord s a none (s.answer a) := ⟨rfl, hbad, hu, rfl, fun _ _ => rfl⟩

theorem answersWord_setSeam {s : State} {a : Nat} (x : Option Seam) (hbad : s.isBad a = false) :
    AnswersWord s a x ((s.setSeam a x).answer a) :=
  ⟨rfl, hbad, seam_setSeam_same s a x, rfl, fun _ hb => seam_setSeam_other s x hb⟩

/-- A read of a word in U is answered with memory's word. -/
theorem serveRead_answersWord {s : State} {a : Nat} (kind : ReqKind) (core : Option Nat) (hu : s.seam a = none)
    (hbad : s.isBad a = false) :
    AnswersWord s a (leftByRead (s.homeDie a) kind core) (s.serveRead (Req.of kind core a)) := by
  rw [State.serveRead, isStale_of_seam_none hu, if_neg Bool.false_ne_true]
  simp only [Req.of, hu]
  split
  next c => exact answersWord_setSeam _ hbad
  next c => exact answersWord_setSeam _ hbad
  next hload hown =>
    have hleft : leftByRead (s.homeDie a) kind core = none := by
      unfold leftByRead
      split
      next c => exact (hload c rfl rfl).elim
      next c => exact (hown c rfl rfl).elim
      next => rfl
    rw [hleft]
    exact answersWord_of_seam_none hu hbad

/-- A write to a word in U merges its bytes; a tracked store leaves the word shared by its core alone. -/
theorem serveWrite_of_seam_none {s : State} {r : Req} {c : Nat} (hu : s.seam r.addr = none) (hb : r.bad = false)
    (hc : r.core = some c) : (s.serveWrite r).s =
      if r.kind = .trkStore then (s.mergeHome r.addr r.mask r.data).setSeam r.addr (tOnly (s.homeDie r.addr) c)
      else s.mergeHome r.addr r.mask r.data := by
  rw [State.serveWrite, isStale_of_seam_none hu, if_neg Bool.false_ne_true]
  simp only [hu, hb, hc, Bool.false_eq_true, if_false]
  cases r.kind <;> rfl

/-! ### Requests on their way (R87, R124, R125) -/

theorem request_of_room {s : State} {kind : ReqKind} {core addr : Nat} {sts : List L1St}
    (hh : homed (s.evWord addr) = true) (hst : (s.l1 core (s.evWord addr)).st ∈ sts)
    (hroom : s.installWait core (s.evWord addr) = none) :
    let t := s.touchLine core (s.evWord addr) false
    s.request kind core addr sts true = .next ((if kind = .selfFill then t else t.drainWord core (s.evWord addr)).arrive
      (Req.of kind (some core) (s.evWord addr))) := by
  simp [State.request, hh, hst, hroom]

theorem request_of_installWait {s : State} {core addr x : Nat} (kind : ReqKind) (sts : List L1St)
    (hwait : s.installWait core (s.evWord addr) = some x) : s.request kind core addr sts true = .next s := by
  simp [State.request, hwait]

theorem execHomeTrkStore_of_room {s : State} {core addr : Nat} (m : BitVec 8) (v : Word)
    (hh : homed (s.evWord addr) = true) (hst : (s.l1 core (s.evWord addr)).st ≠ .w)
    (hroom : s.installWait core (s.evWord addr) = none) :
    execHomeTrkStore core addr m v s = .next (((s.touchLine core (s.evWord addr) false).drainWord core (s.evWord addr)).arrive
      { Req.of .trkStore (some core) (s.evWord addr) with mask := m, data := v }) := by
  simp [execHomeTrkStore, hh, hst, hroom]

theorem execHomeTrkStore_of_installWait {s : State} {core addr x : Nat} (m : BitVec 8) (v : Word)
    (hwait : s.installWait core (s.evWord addr) = some x) : execHomeTrkStore core addr m v s = .next s := by
  simp [execHomeTrkStore, hwait]

/-- A line after `State.setL1`. -/
def putWord (core a : Nat) (w : L1Word) (l : L1Line) : L1Line :=
  if l.core = core ∧ l.line = a / 128 then { l with words := l.words.set (a / 8 % 16) w } else l

@[simp] theorem putWord_core (core a : Nat) (w : L1Word) (l : L1Line) : (putWord core a w l).core = l.core := by
  unfold putWord
  split <;> rfl

@[simp] theorem putWord_line (core a : Nat) (w : L1Word) (l : L1Line) : (putWord core a w l).line = l.line := by
  unfold putWord
  split <;> rfl

theorem setL1_coh_l1 (s : State) (core a : Nat) (w : L1Word) : (s.setL1 core a w).coh.l1 = s.coh.l1.map (putWord core a w) := rfl

theorem find?_map_putWord (ls : List L1Line) (core a : Nat) (w : L1Word) :
    (ls.map (putWord core a w)).find? (fun l => l.core == core && l.line == a / 128) =
      (ls.find? fun l => l.core == core && l.line == a / 128).map (putWord core a w) := by
  rw [List.find?_map]
  congr 2
  funext l
  simp

/-- A word put in a line that the L1 holds is read back. -/
theorem l1_setL1_same {s : State} {core a : Nat} (w : L1Word) (h : s.l1 core a ≠ L1Word.none) :
    (s.setL1 core a w).l1 core a = w := by
  unfold State.l1 at h ⊢
  rw [setL1_coh_l1, find?_map_putWord]
  cases hl : s.coh.l1.find? fun l => l.core == core && l.line == a / 128 with
  | none => simp [hl] at h
  | some l =>
    have hmine : l.core = core ∧ l.line = a / 128 := by simpa using List.find?_some hl
    have hlen : a / 8 % 16 < l.words.length := by
      by_contra hge
      simp [hl, List.getElem?_eq_none (Nat.le_of_not_lt hge)] at h
    simp [putWord, hmine, hlen]

/-- What a drain leaves of a word: in V and K its dirty bytes stay as clean bytes of the copy (R125). -/
def drainedWord (w : L1Word) : L1Word :=
  { w with data := if w.st = .i then w.data else w.view, dirty := 0, dval := 0 }

theorem execHomeDrain_of_dirty {s : State} {core addr : Nat} (hh : homed (s.evWord addr) = true)
    (hd : (s.l1 core (s.evWord addr)).dirty ≠ 0) (hb : (s.l1 core (s.evWord addr)).bad = false) :
    execHomeDrain core addr s =
      .next ((s.setL1 core (s.evWord addr) (drainedWord (s.l1 core (s.evWord addr)))).arrive
        { Req.of .drain (some core) (s.evWord addr) with
          mask := (s.l1 core (s.evWord addr)).dirty, data := (s.l1 core (s.evWord addr)).dval }) := by
  have hdirty : ((s.l1 core (s.evWord addr)).dirty != 0) = true := bne_iff_ne.2 hd
  simp only [execHomeDrain, drainedWord, hh, hdirty, hb, Bool.and_self, if_true, Bool.false_eq_true, if_false]

/-- The states from which a word can become owned. -/
theorem mem_of_ne_w {st : L1St} (h : st ≠ .w) : st ∈ [L1St.i, .v, .k] := by
  cases st with
  | i | v | k => simp
  | w => exact absurd rfl h

end Sys2Proof.Laws

namespace Sys2Proof.Claims

open Sys2Proof.Machine Sys2Proof.Laws

theorem installs_spec (s : State) (core addr : Nat) (m : BitVec 8) (v : Word) :
    let a := s.evWord addr
    let st := (s.l1 core a).st
    let t := s.touchLine core a false
    homed a = true → s.installWait core a = none →
      (st = .i → exec (.homeSelfFill core addr) s = .next (t.arrive (Req.of .selfFill (some core) a))) ∧
      (st = .i ∨ st = .v → exec (.homeTrkLoad core addr) s = .next ((t.drainWord core a).arrive (Req.of .trkLoad (some core) a))) ∧
      (st ≠ .w → exec (.homeOwnership core addr) s = .next ((t.drainWord core a).arrive (Req.of .ownership (some core) a))) ∧
      (st ≠ .w → exec (.homeTrkStore core addr m v) s = .next ((t.drainWord core a).arrive
        { Req.of .trkStore (some core) a with mask := m, data := v })) := by
  intro a st t hh hroom
  refine ⟨fun hi => ?_, fun hiv => ?_, fun hw => ?_, fun hw => ?_⟩
  · exact request_of_room hh (List.mem_singleton.2 hi) hroom
  · exact request_of_room hh (by simpa using hiv) hroom
  · exact request_of_room hh (mem_of_ne_w hw) hroom
  · exact execHomeTrkStore_of_room m v hh hw hroom

theorem installWait_spec (s : State) (core addr : Nat) (m : BitVec 8) (v : Word) (x : Nat)
    (hwait : s.installWait core (s.evWord addr) = some x) :
    ∀ i ∈ [Instr.homeSelfFill core addr, .homeTrkLoad core addr, .homeOwnership core addr, .homeTrkStore core addr m v],
      exec i s = .next s := by
  simp only [List.forall_mem_cons, List.not_mem_nil, false_imp_iff, implies_true, and_true]
  exact ⟨request_of_installWait .selfFill _ hwait, request_of_installWait .trkLoad _ hwait,
    request_of_installWait .ownership _ hwait, execHomeTrkStore_of_installWait m v hwait⟩

/-- The .thru requests go to the home after the drain and, of an owned word, the write-back; without a requester at once. -/
theorem thru_spec (s : State) (core addr : Nat) (m : BitVec 8) (v : Word) :
    let a := s.evWord addr
    let t := (s.drainWord core a).unown core a
    let store (c : Option Nat) : Req := { Req.of .thruStore c a with mask := m, data := v }
    homed a = true →
      exec (.homeThruLoad (some core) addr) s = .next (t.arrive (Req.of .thruLoad (some core) a)) ∧
      exec (.homeThruLoad none addr) s = .next (s.arrive (Req.of .thruLoad none a)) ∧
      exec (.homeThruStore (some core) addr m v) s = .next (t.arrive (store (some core))) ∧
      exec (.homeThruStore none addr m v) s = .next (s.arrive (store none)) := by
  intro a t store hh
  exact ⟨if_pos hh, if_pos hh, if_pos hh, if_pos hh⟩

theorem drain_spec (s : State) (core addr : Nat) :
    let a := s.evWord addr
    let w := s.l1 core a
    homed a = true →
      (w.dirty ≠ 0 → w.bad = false → ∃ u, exec (.homeDrain core addr) s = .next (u.arrive
        { Req.of .drain (some core) a with mask := w.dirty, data := w.dval }) ∧
          u = s.setL1 core a (u.l1 core a) ∧ (u.l1 core a).dirty = 0 ∧ (u.l1 core a).st = w.st) ∧
      (w.dirty = 0 → exec (.homeDrain core addr) s = .next s) := by
  intro a w hh
  refine ⟨fun hd hb => ?_, fun hd => ?_⟩
  · have hheld : w ≠ L1Word.none := fun h => hd (by rw [h]; rfl)
    have hread : (s.setL1 core a (drainedWord w)).l1 core a = drainedWord w := l1_setL1_same _ hheld
    refine ⟨s.setL1 core a (drainedWord w), execHomeDrain_of_dirty hh hd hb, ?_⟩
    rw [hread]
    exact ⟨rfl, rfl, rfl⟩
  · exact if_neg (by simp [show (s.l1 core (s.evWord addr)).dirty = 0 from hd])

theorem farOperation_spec (s : State) (core addr : Nat) (op : Fin 10) (w : Bool) (b c : Word) :
    let pa := s.normPa addr
    homed pa = true → pa % (if w then 8 else 4) = 0 → ∃ r, r.kind = .far ∧ r.core = some core ∧ r.addr = pa / 8 * 8 ∧
      r.size = (if w then 8 else 4) ∧ r.off = pa % 8 ∧ r.b = b ∧ r.cmp = c ∧
      exec (.homeFarOperation core addr op w b c) s =
        .next (((s.drainWord core (pa / 8 * 8)).dropSelf core (pa / 8 * 8)).arrive r) := by
  intro pa hh hal
  refine ⟨_, rfl, rfl, rfl, rfl, rfl, rfl, rfl, if_pos ?_⟩
  rw [Bool.and_eq_true, beq_iff_eq]
  exact ⟨hh, hal⟩

/-- A request for a word whose granule moves is held by its granule's entry; at a busy word it is queued. -/
theorem arrive_spec (s : State) (r : Req) :
    (s.moving r.addr = true → (s.arrive r).mem = s.mem ∧ (s.arrive r).coh.seam = s.coh.seam) ∧
    (s.moving r.addr = false → s.wordBusy r.addr = true →
      s.arrive r = { s with coh := { s.coh with reqs := s.coh.reqs ++ [r] } }) := by
  refine ⟨fun hm => ?_, fun hm hb => ?_⟩
  · rw [State.arrive, if_pos hm]
    exact ⟨rfl, rfl⟩
  · rw [State.arrive, hm, if_neg Bool.false_ne_true, if_pos hb]

theorem tOnly_eq (home core : Nat) :
    tOnly home core = some (if coreDie core = home then .t [core] [] else .t [] [coreDie core]) := by
  unfold tOnly
  split <;> rfl

/-- What a write of the kinds of R128 leaves of a word in U and of the bytes around it. -/
theorem serveWrite_spec (s : State) (core a : Nat) (m : BitVec 8) (v : Word) (k : ReqKind)
    (hu : s.seam a = none) (hbad : s.isBad a = false) :
    let r := s.serveWrite { Req.of k (some core) a with mask := m, data := v }
    (∀ i < 8, r.s.mem.get (a + i) = if m.getLsbD i then (v >>> (8 * i)).truncate 8 else s.mem.get (a + i)) ∧
    (∀ b, ¬(a ≤ b ∧ b < a + 8) → r.s.mem.get b = s.mem.get b) ∧
    r.s.seam a = if k = .trkStore then tOnly (s.homeDie a) core else none := by
  intro r
  have hr : r.s = if k = .trkStore then (s.mergeHome a m v).setSeam a (tOnly (s.homeDie a) core) else s.mergeHome a m v :=
    serveWrite_of_seam_none (r := { Req.of k (some core) a with mask := m, data := v }) hu rfl rfl
  have hmem : r.s.mem = (s.mergeHome a m v).mem := by
    rw [hr]
    split <;> rfl
  refine ⟨fun i hi => ?_, fun b hb => ?_, ?_⟩
  · rw [hmem, mem_mergeHome m v hbad, if_pos ⟨by omega, by omega⟩, Nat.add_sub_cancel_left, byteOf_toNat]
  · rw [hmem, mem_mergeHome m v hbad, if_neg hb]
  · rw [hr]
    split
    · exact seam_setSeam_same ..
    · rw [seam_mergeHome, hu]

/-- Settles O51: the requests on their way to the home, where they wait, and what a word in U becomes. -/
theorem homeRequests : Obligations.HomeRequests := by
  intro s core addr m v a st t write
  refine ⟨fun hh => ?_, farOperation_spec s core addr, fun hw => ⟨if_pos hw, if_pos hw⟩, fun hk hd => if_pos ⟨hk, hd⟩,
    arrive_spec s, fun hu hbad => ?_⟩
  · obtain ⟨hthruLoad, hload, hthruStore, hstore⟩ := thru_spec s core addr m v hh
    obtain ⟨hdrain, hclean⟩ := drain_spec s core addr hh
    exact ⟨installs_spec s core addr m v hh, installWait_spec s core addr m v, hthruLoad, hload, hthruStore, hstore,
      hdrain, hclean⟩
  · intro d only row
    have honly : only = tOnly (s.homeDie a) core := (tOnly_eq _ _).symm
    have hread (k : ReqKind) : row k (leftByRead (s.homeDie a) k (some core)) := serveRead_answersWord k (some core) hu hbad
    rw [honly]
    exact ⟨hread .selfFill, hread .thruLoad, hread .trkLoad, hread .ownership,
      fun k _ => serveWrite_spec s core a m v k hu hbad⟩

end Sys2Proof.Claims
end

section
/-! PROOF. The messages of the homes and the migration of a granule (R100, R125, R127, R133, R134, R137, R182). -/

namespace Sys2Proof.Laws

open Sys2Proof.Machine Sys2Proof.Claims

/-! ### What a message leaves of an L1's word (R125) -/

theorem inv_st_of_k {w : L1Word} (h : w.st = .k) : w.inv.st = .i := by simp only [L1Word.inv, h]

theorem inv_of_v {w : L1Word} (h : w.st = .v) : w.inv = w := by simp only [L1Word.inv, h]

theorem upd_of_k {w : L1Word} (h : w.st = .k) (v : Word) : w.upd v = { w with data := v } := by simp only [L1Word.upd, h]

theorem upd_of_ne_k {w : L1Word} (h : w.st ≠ .k) (v : Word) : w.upd v = w := by
  unfold L1Word.upd
  split
  next hk => exact absurd hk h
  next => rfl

/-! ### The events that deliver a message (R125, R127) -/

section
variable {s : State} {core addr : Nat} {m : L1Msg}

theorem execL1Invalidation_of_inv (hm : s.l1Msg core (s.evWord addr) = some m) (hk : m.kind = .inv) :
    execL1Invalidation core addr s =
      .next ((s.dropMsg m).setL1 core (s.evWord addr) (s.l1 core (s.evWord addr)).inv) := by
  simp only [execL1Invalidation, hm, hk, if_true]

theorem execL1Update_of_upd {v : Word} (hm : s.l1Msg core (s.evWord addr) = some m) (hk : m.kind = .upd v) :
    execL1Update core addr s =
      .next ((s.dropMsg m).setL1 core (s.evWord addr) ((s.l1 core (s.evWord addr)).upd v)) := by
  simp only [execL1Update, hm, hk]

theorem execL1Recall_of_recall (hm : s.l1Msg core (s.evWord addr) = some m) (hk : m.kind = .recall) :
    execL1Recall core addr s = .next (if (s.l1 core (s.evWord addr)).st = .w then (s.dropMsg m).recall (s.evWord addr)
      else s.dropMsg m) := by
  simp only [execL1Recall, hm, hk, if_true]
  rfl

theorem execL1Fetch_of_fetch {x : Txn} (hm : s.l1Msg core (s.evWord addr) = some m) (hk : m.kind = .fetch)
    (hx : s.coh.txns.find? (fun t => t.req.addr == s.evWord addr) = some x) :
    let ans := (s.dropMsg m).serve x.req
    execL1Fetch core addr s = .next { ans.s with coh := { ans.s.coh with txns := ans.s.coh.txns.map fun y =>
      if y = x then { y with req := { y.req with data := ans.data } } else y } } := by
  simp only [execL1Fetch, hm, hx, hk, if_true]

/-- Without a message for the word the events that deliver one change nothing (assumption 14). -/
theorem execL1_of_no_message (hm : s.l1Msg core (s.evWord addr) = none) :
    execL1Invalidation core addr s = .next s ∧ execL1Update core addr s = .next s ∧
      execL1Recall core addr s = .next s ∧ execL1Fetch core addr s = .next s := by
  refine ⟨?_, ?_, ?_, ?_⟩
  · simp only [execL1Invalidation, hm]
  · simp only [execL1Update, hm]
  · simp only [execL1Recall, hm]
  · simp only [execL1Fetch, hm]

end

/-! ### The acknowledgements of a transaction (R127) -/

/-- The cores for which an acknowledgement of a core counts at the home of a word: on the home die the core itself, else
every core of its die. -/
def sameAck (s : State) (core a k : Nat) : Bool :=
  if coreDie core = s.homeDie a then k == core else coreDie k == coreDie core

section
variable {s : State} {core addr : Nat} {x : Txn}

/-- An acknowledgement for which no message is left takes its cores off the transaction, and the last one completes it. -/
theorem execHomeAcknowledgement_of_delivered
    (hx : s.coh.txns.find? (fun t => t.req.addr == s.evWord addr) = some x) (hc : core ∈ x.left)
    (hm : ∀ m ∈ s.coh.msgs, ¬(m.addr = s.evWord addr ∧ sameAck s core (s.evWord addr) m.core = true)) :
    let x' := { x with left := x.left.filter fun k => !sameAck s core (s.evWord addr) k }
    let t := { s with coh := { s.coh with txns := s.coh.txns.map fun y => if y = x then x' else y } }
    execHomeAcknowledgement core addr s = .next (if x'.left = [] then t.completeTxn x' else t) := by
  have hguard : (!x.left.contains core ||
      s.coh.msgs.any fun m => m.addr == s.evWord addr && sameAck s core (s.evWord addr) m.core) = false := by
    simpa [hc] using hm
  unfold execHomeAcknowledgement
  simp only [hx]
  rw [if_neg (by rw [Bool.not_eq_true]; exact hguard), apply_ite Host.Outcome.next]
  simp only [List.isEmpty_iff]
  rfl

/-- While a message to one of its cores is on its way, a die's acknowledgement is not complete. -/
theorem execHomeAcknowledgement_of_pending
    (hx : s.coh.txns.find? (fun t => t.req.addr == s.evWord addr) = some x)
    (hm : ∃ m ∈ s.coh.msgs, m.addr = s.evWord addr ∧ sameAck s core (s.evWord addr) m.core = true) :
    execHomeAcknowledgement core addr s = .next s := by
  have hany : (s.coh.msgs.any fun m => m.addr == s.evWord addr && sameAck s core (s.evWord addr) m.core) = true := by
    simpa using hm
  unfold execHomeAcknowledgement
  simp only [hx]
  exact if_pos (by rw [Bool.or_eq_true]; exact .inr hany)

end

/-! ### The entries of moving granules (R134) -/

/-- A granule's entry that another of the same granule replaces is found in its place. -/
theorem find?_map_replace {hs : List HomeEnt} {gran : Nat} {e f : HomeEnt}
    (he : hs.find? (fun k => k.gran == gran) = some e) (hf : f.gran = e.gran) :
    (hs.map fun k => if k = e then f else k).find? (fun k => k.gran == gran) = some f := by
  have hcomp : ((fun k : HomeEnt => k.gran == gran) ∘ fun k => if k = e then f else k) = fun k => k.gran == gran := by
    funext k
    by_cases hk : k = e <;> simp [hk, hf]
  rw [List.find?_map, hcomp, he]
  simp

/-- A map that keeps each entry's granule and die keeps the die that is found for a granule. -/
theorem die_find?_map {g : HomeEnt → HomeEnt} (hgran : ∀ e, (g e).gran = e.gran) (hdie : ∀ e, (g e).die = e.die)
    (hs : List HomeEnt) (gran : Nat) :
    ((hs.map g).find? fun e => e.gran == gran).map (fun e => e.die) =
      (hs.find? fun e => e.gran == gran).map fun e => e.die := by
  have hcomp : ((fun e : HomeEnt => e.gran == gran) ∘ g) = fun e => e.gran == gran := by
    funext e
    simp [hgran]
  have hdies : (fun e : HomeEnt => e.die) ∘ g = fun e => e.die := funext hdie
  rw [List.find?_map, hcomp, Option.map_map, hdies]

theorem all_lookupDies_iff (acks : List Nat) : (lookupDies.all fun d => acks.contains d) = true ↔ ∀ d < 9, d ∈ acks := by
  simp [lookupDies]

/-- The state after a die has replaced its home-lookup entry of a moving granule and acknowledged it (R134 step 3). -/
def entryUpdated (s : State) (gran die : Nat) (e : HomeEnt) : State :=
  let t := s.setTable gran e.dest true
  { t with coh := { t.coh with
    homes := t.coh.homes.map fun k => if k = e then { e with acks := e.acks ++ [die] } else k
    lookup := t.coh.lookup.map fun k => if k.die = die ∧ k.gran = gran then { k with home := e.dest } else k } }

/-- The state in which the queue of a granule that has moved is served (R134 steps 4 and 5). -/
def moveDone (s : State) (gran : Nat) (e : HomeEnt) : State :=
  let f : HomeEnt := { e with die := e.dest, moving := false, acks := [], held := [], fresh := 2 }
  let t := s.setTable gran e.dest false
  { t with coh := { t.coh with homes := t.coh.homes.map fun k => if k = e then f else k } }

section
variable {s : State} {gran die : Nat} {e : HomeEnt}

theorem execMigrationEntryUpdate_of_moving (he : s.coh.home? gran = some e) (hm : e.moving = true) (hd : die < 9)
    (hack : die ∉ e.acks) (hquiet : ∀ t ∈ s.coh.txns, t.req.addr / 65536 ≠ gran) :
    execMigrationEntryUpdate gran die s = .next (entryUpdated s gran die e) := by
  have hguard : (e.moving && lookupDies.contains die && !e.acks.contains die &&
      !s.coh.txns.any fun t => t.req.addr / 65536 == gran) = true := by
    simpa [lookupDies, hm, hd, hack] using hquiet
  simp only [execMigrationEntryUpdate, he]
  exact if_pos hguard

theorem execMigrationForwardComplete_of_all (he : s.coh.home? gran = some e) (hm : e.moving = true)
    (hall : ∀ d < 9, d ∈ e.acks) :
    execMigrationForwardComplete gran s = .next (e.held.foldl State.arrive (moveDone s gran e)) := by
  have hguard : (e.moving && lookupDies.all fun d => e.acks.contains d) = true := by
    rw [hm, (all_lookupDies_iff e.acks).mpr hall, Bool.and_self]
  simp only [execMigrationForwardComplete, he]
  exact if_pos hguard

theorem execMigrationForwardComplete_of_missing (he : s.coh.home? gran = some e) (hmiss : ∃ d < 9, d ∉ e.acks) :
    execMigrationForwardComplete gran s = .next s := by
  have hall : (lookupDies.all fun d => e.acks.contains d) = false := by
    rw [← Bool.not_eq_true, all_lookupDies_iff]
    simpa using hmiss
  simp only [execMigrationForwardComplete, he, hall, Bool.and_false, Bool.false_eq_true, if_false]

end

end Sys2Proof.Laws

namespace Sys2Proof.Claims

open Sys2Proof.Machine Sys2Proof.Laws

theorem messages_spec (s : State) (core addr : Nat) (m : L1Msg) :
    let a := s.evWord addr
    let w := s.l1 core a
    let t := { s with coh := { s.coh with msgs := s.coh.msgs.erase m } }
    s.l1Msg core a = some m →
      (m.kind = .inv → exec (.l1Invalidation core addr) s = .next (t.setL1 core a w.inv) ∧
        (w.st = .k → w.inv.st = .i) ∧ (w.st = .v → w.inv.st = .v)) ∧
      (∀ v, m.kind = .upd v → exec (.l1Update core addr) s = .next (t.setL1 core a (w.upd v)) ∧
        (w.st = .k → (w.upd v).data = v ∧ (w.upd v).st = .k) ∧ (w.st ≠ .k → w.upd v = w)) ∧
      (m.kind = .recall → exec (.l1Recall core addr) s = .next (if w.st = .w then t.recall a else t)) ∧
      (m.kind = .fetch → ∀ x, s.coh.txns.find? (fun t => t.req.addr == a) = some x →
        ∃ u, exec (.l1Fetch core addr) s = .next u ∧ u.mem = (t.serve x.req).s.mem ∧ u.coh.l1 = (t.serve x.req).s.coh.l1 ∧
          u.coh.txns = (t.serve x.req).s.coh.txns.map fun y =>
            if y = x then { y with req := { y.req with data := (t.serve x.req).data } } else y) := by
  intro a w t hm
  refine ⟨fun hk => ⟨execL1Invalidation_of_inv hm hk, inv_st_of_k, fun hv => ?_⟩,
    fun v hk => ⟨execL1Update_of_upd hm hk, fun hst => ?_, fun hst => upd_of_ne_k hst v⟩,
    execL1Recall_of_recall hm, fun hk x hx => ⟨_, execL1Fetch_of_fetch hm hk hx, rfl, rfl, rfl⟩⟩
  · rw [inv_of_v hv, hv]
  · rw [upd_of_k hst]
    exact ⟨rfl, hst⟩

theorem noMessage_spec (s : State) (core addr : Nat) (hm : s.l1Msg core (s.evWord addr) = none) :
    ∀ i ∈ [Instr.l1Invalidation core addr, .l1Update core addr, .l1Recall core addr, .l1Fetch core addr],
      exec i s = .next s := by
  simpa using execL1_of_no_message hm

theorem coreAckReceive_spec (s : State) (core addr : Nat) (r : Reply)
    (hr : s.coh.reps.find? (fun r => r.req.core == some core && r.req.addr == s.evWord addr) = some r) :
    exec (.coreAckReceive core addr) s = .next ((s.accept r).serveWaiting (s.evWord addr)) := by
  simp only [exec_coreAckReceive, execCoreAckReceive, hr]

theorem selfDrainTimeout_spec (s : State) (core addr : Nat) (hb : s.wordBusy (s.evWord addr) = false) :
    exec (.selfDrainTimeout core addr) s = .next (s.drainWord core (s.evWord addr)) :=
  if_neg (by rw [hb]; exact Bool.false_ne_true)

/-- The master entry and the die's own cached entries name the new home, and the die has acknowledged. -/
theorem migrationEntryUpdate_spec (s : State) (gran die : Nat) (e : HomeEnt) (he : s.coh.home? gran = some e)
    (hm : e.moving = true) (hd : die < 9) (hack : die ∉ e.acks) (hquiet : ∀ t ∈ s.coh.txns, t.req.addr / 65536 ≠ gran) :
    ∃ t, exec (.migrationEntryUpdate gran die) s = .next t ∧
      t = { s with mem := s.mem.set (0x1FFFC000000 + gran) (.ofNat 8 (e.dest + 128)),
                   coh := { s.coh with homes := t.coh.homes, lookup := t.coh.lookup } } ∧
      (∀ k ∈ t.coh.lookup, k.die = die → k.gran = gran → k.home = e.dest) ∧
      ∃ f, t.coh.home? gran = some f ∧ f.die = e.die ∧ f.moving = true ∧ f.held = e.held ∧
        ∀ d, d ∈ f.acks ↔ d ∈ e.acks ∨ d = die := by
  refine ⟨entryUpdated s gran die e, execMigrationEntryUpdate_of_moving he hm hd hack hquiet, rfl, fun k hk hdie hgran => ?_,
    _, find?_map_replace he rfl, rfl, hm, rfl, fun d => by simp⟩
  obtain ⟨j, -, rfl⟩ := List.mem_map.1 hk
  by_cases hj : j.die = die ∧ j.gran = gran
  · rw [if_pos hj]
  · rw [if_neg hj] at hdie hgran
    exact absurd ⟨hdie, hgran⟩ hj

theorem migrationForwardComplete_spec (s : State) (gran : Nat) (e : HomeEnt) (he : s.coh.home? gran = some e)
    (hm : e.moving = true) :
    ((∀ d < 9, d ∈ e.acks) → ∃ t, exec (.migrationForwardComplete gran) s = .next (e.held.foldl State.arrive t) ∧
      t.mem = s.mem.set (0x1FFFC000000 + gran) (.ofNat 8 e.dest) ∧
      ∃ f, t.coh.home? gran = some f ∧ f.die = e.dest ∧ f.moving = false ∧ f.held = []) ∧
    ((∃ d < 9, d ∉ e.acks) → exec (.migrationForwardComplete gran) s = .next s) :=
  ⟨fun hall => ⟨moveDone s gran e, execMigrationForwardComplete_of_all he hm hall, rfl, _, find?_map_replace he rfl, rfl,
    rfl, rfl⟩, execMigrationForwardComplete_of_missing he⟩

theorem epochRollover_spec (s : State) : ∃ t, exec .epochRollover s = .next t ∧
    t.pow.timebase = s.pow.timebase + 2250000 ∧ t.coh.wcount = [] ∧ t.coh.pcount = [] ∧ t.mem = s.mem ∧
    t.coh.l1 = s.coh.l1 ∧ t.coh.seam = s.coh.seam ∧
    ∀ p, (t.coh.home? p).map (fun e => e.die) = (s.coh.home? p).map fun e => e.die :=
  ⟨_, rfl, rfl, rfl, rfl, rfl, rfl, rfl,
    die_find?_map (g := fun e => { e with fresh := e.fresh - 1 }) (fun _ => rfl) (fun _ => rfl) s.coh.homes⟩

/-- Settles O52: each message as R125 gives it, the acknowledgements of R127 and the steps of a migration (R134). -/
theorem homeMessages : Obligations.HomeMessages := by
  intro s core addr gran die a w
  refine ⟨fun m => messages_spec s core addr m, noMessage_spec s core addr,
    fun x hx hc => ⟨execHomeAcknowledgement_of_delivered hx hc, execHomeAcknowledgement_of_pending hx⟩,
    coreAckReceive_spec s core addr, selfDrainTimeout_spec s core addr, fun e he hm => ?_, epochRollover_spec s⟩
  exact ⟨migrationEntryUpdate_spec s gran die e he hm, migrationForwardComplete_spec s gran e he hm⟩

end Sys2Proof.Claims
end

section
/-! PROOF. Why the marking of a host page's leaves may change one of them (R138, R434): O58 fails in `PageMigration`. The
write of one leaf makes a full slice set give up the line of another, and the answers of that line that are on their way
arrive; one for an address that is not a multiple of 8 makes no word busy, and the owner's L1 takes it in the leaf. -/

namespace Sys2Proof.Laws

open Sys2Proof.Machine Sys2Proof.Claims

/-- The host page that moves, and the device page that it moves to. -/
def hostPage : Nat := 0x4000000000000
def devicePage : Nat := 0x50000

/-- The leaf of the host page, with every right and not in transit (R429). -/
def hostLeaf : Nat := hostPage + 0xFD

/-- `strayAnswer` with page tables for the hart on turn: one path of pointers to a table that points to those at address 0
and at the victim word. The first word of each of the two is a leaf of the host page: the one stands in memory, the other is
the copy that core 5 owns. -/
def strayLeaf : State :=
  { strayAnswer with
    h := { strayAnswer.h with sptbase := 0x10 }
    mem := ((((Memory.write [] 0 8 hostLeaf).write 0x10000 8 0x11001).write 0x11000 8 0x12001).write 0x12000 8 1).write
      0x12008 8 (victimWord + 1)
    coh := { strayAnswer.coh with
      l1 := [{ core := 5, line := victimWord / 128, low := false
               words := List.replicate 16 { ownedCopy with data := w64 hostLeaf } }] } }

theorem dischargeAll_strayLeaf : strayLeaf.dischargeAll = strayLeaf := rfl

theorem leaves_strayLeaf : strayLeaf.leaves (hostPage / 4096) 1 = [(0, 0), (victimWord, 0)] := by decide +kernel

/-- Both leaves map the one 4 KiB page. -/
theorem leafSize_strayLeaf : [(0, 0), (victimWord, 0)].foldl (fun n (l : Nat × Nat) => max n (512 ^ l.2)) 1 = 1 := rfl

theorem leafWords_strayLeaf : ([(0, 0), (victimWord, 0)].map fun (l : Nat × Nat) => l.1).eraseDups = [0, victimWord] := by
  decide +kernel

theorem homeView_strayLeaf : strayLeaf.homeView victimWord = w64 hostLeaf := by decide +kernel

/-- Whether the event that marks the leaves leaves the stray answer's word in the victim leaf. -/
def marksStrayAnswer (o : Out) : Bool :=
  match o with
  | .next t => t.homeView victimWord == 3
  | _ => false

theorem exec_strayLeaf : marksStrayAnswer (exec (.hostPageMigration hostPage devicePage) strayLeaf) = true := by
  decide +kernel

end Sys2Proof.Laws

namespace Sys2Proof.Claims

open Sys2Proof.Machine Sys2Proof.Laws

/-- The leaf that core 5 owns is not marked: the answer's word is. -/
theorem not_pageMigration : ¬PageMigration := by
  intro h
  have hs := h strayLeaf hostPage devicePage
  simp only [dischargeAll_strayLeaf, leaves_strayLeaf, leafSize_strayLeaf, Nat.div_one, Nat.mul_one,
    leafWords_strayLeaf] at hs
  obtain ⟨-, -, hmark, -⟩ := hs
  obtain ⟨t, ht, -, hmarked⟩ := hmark ⟨rfl, rfl, by decide +kernel, by decide +kernel, by decide +kernel⟩
    ⟨victimWord, by decide, by decide +kernel⟩
  have hview : t.homeView victimWord = w64 hostLeaf ||| 2 := by
    rw [hmarked victimWord (by decide) rfl, homeView_strayLeaf]
  have hstray : t.homeView victimWord = 3 := by
    have hm := exec_strayLeaf
    rw [ht] at hm
    exact beq_iff_eq.1 hm
  exact absurd (hview.symm.trans hstray) (by decide)

/-- Refutes O58: in a page migration the marking of one leaf may make an answer of another line arrive in a second leaf. -/
theorem not_hostAndLink : ¬Obligations.HostAndLink := fun ⟨_, hmove, _⟩ => not_pageMigration hmove

end Sys2Proof.Claims
end

section
/-! PROOF. What the requests at the homes leave as it is: the firmware block and the agenda (R121 to R137, R142). -/

namespace Sys2Proof.Laws

open Sys2Proof.Machine

/-- t has the firmware block and the agenda of s. -/
@[simp] abbrev KeepsBlock (s t : State) : Prop := t.fw = s.fw ∧ t.agenda = s.agenda

theorem keepsBlock_foldl {α : Type} {f : State → α → State} (h : ∀ s x, KeepsBlock s (f s x)) (l : List α) (s : State) :
    KeepsBlock s (l.foldl f s) :=
  ⟨foldl_keeps State.fw (fun t x => (h t x).1) l s, foldl_keeps State.agenda (fun t x => (h t x).2) l s⟩

theorem keepsBlock_ite {c : Prop} [Decidable c] {s t u : State} (ht : KeepsBlock s t) (hu : KeepsBlock s u) :
    KeepsBlock s (if c then t else u) := by
  split
  · exact ht
  · exact hu

/-! ### Words in the L1s and at the homes -/

@[simp] theorem keepsBlock_correct (s : State) (b : Bool) (core a : Nat) : KeepsBlock s (s.correct b core a) := by
  unfold State.correct
  exact keepsBlock_ite ⟨rfl, rfl⟩ ⟨rfl, rfl⟩

@[simp] theorem keepsBlock_correctL1 (s : State) (core a : Nat) : KeepsBlock s (s.correctL1 core a) := by
  unfold State.correctL1
  split
  · exact keepsBlock_correct s true core a
  · exact ⟨rfl, rfl⟩

@[simp] theorem keepsBlock_fillL1 (s : State) (core a : Nat) (w : L1Word) : KeepsBlock s (s.fillL1 core a w) := ⟨rfl, rfl⟩

@[simp] theorem keepsBlock_mergeHome (s : State) (a : Nat) (m : BitVec 8) (v : Word) : KeepsBlock s (s.mergeHome a m v) := by
  unfold State.mergeHome
  split
  · exact ⟨rfl, rfl⟩
  · split <;> exact ⟨rfl, rfl⟩

@[simp] theorem keepsBlock_recall (s : State) (a : Nat) : KeepsBlock s (s.recall a) := by
  unfold State.recall
  split <;> simp

@[simp] theorem keepsBlock_invalidate (s : State) (a : Nat) (c : Option Nat) : KeepsBlock s (s.invalidate a c) := by
  unfold State.invalidate
  split <;> exact ⟨rfl, rfl⟩

@[simp] theorem keepsBlock_toU (s : State) (a : Nat) : KeepsBlock s (s.toU a) := by simp [State.toU]

@[simp] theorem keepsBlock_accept (s : State) (r : Reply) : KeepsBlock s (s.accept r) := by
  unfold State.accept
  split
  · exact ⟨rfl, rfl⟩
  · dsimp only
    split
    case h_3 => exact ⟨rfl, rfl⟩
    case h_6 => exact ⟨rfl, rfl⟩
    all_goals split <;> exact ⟨rfl, rfl⟩

@[simp] theorem keepsBlock_foldl_toU (l : List Nat) (s : State) : KeepsBlock s (l.foldl State.toU s) :=
  keepsBlock_foldl keepsBlock_toU l s

@[simp] theorem keepsBlock_foldl_accept (l : List Reply) (s : State) : KeepsBlock s (l.foldl State.accept s) :=
  keepsBlock_foldl keepsBlock_accept l s

/-! ### What a request does on its way to its home -/

@[simp] theorem keepsBlock_touchSlice (s : State) (a : Nat) : KeepsBlock s (s.touchSlice a) := by
  unfold State.touchSlice
  dsimp only
  split
  · split
    · exact ⟨rfl, rfl⟩
    · split
      · exact ⟨rfl, rfl⟩
      · split
        · exact ⟨rfl, rfl⟩
        · split <;> simp
  · exact ⟨rfl, rfl⟩

@[simp] theorem keepsBlock_takeHostLine (s : State) (a : Nat) : KeepsBlock s (s.takeHostLine a) := by
  unfold State.takeHostLine
  split <;> exact ⟨rfl, rfl⟩

@[simp] theorem keepsBlock_countHost (s : State) (a : Nat) : KeepsBlock s (s.countHost a) := by
  unfold State.countHost
  exact keepsBlock_ite (keepsBlock_ite ⟨rfl, rfl⟩ ⟨rfl, rfl⟩) ⟨rfl, rfl⟩

@[simp] theorem keepsBlock_sendFlit (s : State) (a : Nat) : KeepsBlock s (s.sendFlit a) := by
  unfold State.sendFlit
  split
  · split <;> exact ⟨rfl, rfl⟩
  · exact ⟨rfl, rfl⟩

@[simp] theorem keepsBlock_portRoom (s : State) (r : Req) : KeepsBlock s (s.portRoom r) := by
  unfold State.portRoom
  split
  · split
    · dsimp only
      split
      · split
        · exact keepsBlock_recall ..
        · exact ⟨rfl, rfl⟩
      · exact ⟨rfl, rfl⟩
    · exact ⟨rfl, rfl⟩
  · exact ⟨rfl, rfl⟩

@[simp] theorem keepsBlock_noteLookup (s : State) (r : Req) : KeepsBlock s (s.noteLookup r) := by
  unfold State.noteLookup
  split
  · dsimp only
    split <;> exact ⟨rfl, rfl⟩
  · exact ⟨rfl, rfl⟩

@[simp] theorem keepsBlock_reach (s : State) (r : Req) : KeepsBlock s (s.reach r) := by
  unfold State.reach
  dsimp only
  split <;> simp

/-! ### What the home answers (R128) -/

@[simp] theorem keepsBlock_detect (s : State) (a : Nat) : KeepsBlock s (s.detect a) := by
  unfold State.detect
  dsimp only
  split <;> exact ⟨rfl, rfl⟩

@[simp] theorem keepsBlock_countWrite (s : State) (c : Option Nat) (a : Nat) : KeepsBlock s (s.countWrite c a) := by
  unfold State.countWrite
  split
  · dsimp only
    split
    · split <;> exact ⟨rfl, rfl⟩
    · exact ⟨rfl, rfl⟩
  · exact ⟨rfl, rfl⟩

@[simp] theorem keepsBlock_answer (s : State) (a : Nat) : KeepsBlock s (s.answer a).s := ⟨rfl, rfl⟩

@[simp] theorem keepsBlock_serveLost (s : State) (r : Req) : KeepsBlock s (s.serveLost r).s := by
  unfold State.serveLost
  split <;> exact ⟨rfl, rfl⟩

@[simp] theorem keepsBlock_serveRead (s : State) (r : Req) : KeepsBlock s (s.serveRead r).s := by
  unfold State.serveRead
  dsimp only
  split
  · exact ⟨rfl, rfl⟩
  · split <;> split <;> simp

@[simp] theorem keepsBlock_serveWrite (s : State) (r : Req) : KeepsBlock s (s.serveWrite r).s := by
  have hmerge (t : State) :
      KeepsBlock t (if r.bad then t.putHome r.addr r.data true else t.mergeHome r.addr r.mask r.data) := by
    split <;> simp
  unfold State.serveWrite
  dsimp only
  split
  · exact ⟨rfl, rfl⟩
  · split <;> dsimp only [State.answer] <;> split <;> simp [hmerge]

@[simp] theorem keepsBlock_serveFar (s : State) (r : Req) : KeepsBlock s (s.serveFar r).s := by
  unfold State.serveFar
  dsimp only
  split <;> split <;> simp

@[simp] theorem keepsBlock_serveEvict (s : State) (r : Req) : KeepsBlock s (s.serveEvict r).s := by
  unfold State.serveEvict
  dsimp only
  split
  · exact ⟨rfl, rfl⟩
  · split <;> exact ⟨rfl, rfl⟩
  · split <;> exact ⟨rfl, rfl⟩
  · exact ⟨rfl, rfl⟩

/-- The counts and the report that follow an answer. -/
theorem keepsBlock_counted {s : State} {x : Ans} (h : KeepsBlock s x.s) (c : Option Nat) (a : Nat) :
    let t := if x.bad then x.s.detect a else x.s
    KeepsBlock s (if x.wrote then t.countWrite c a else t) := by
  have ht : KeepsBlock s (if x.bad then x.s.detect a else x.s) := keepsBlock_ite (by simpa using h) h
  exact keepsBlock_ite (by simpa using ht) ht

@[simp] theorem keepsBlock_serve (s : State) (r : Req) : KeepsBlock s (s.serve r).s := by
  unfold State.serve
  split
  · exact keepsBlock_serveLost s r
  · refine keepsBlock_counted ?_ r.core r.addr
    split <;> simp

/-! ### Requests that wait (R127, R134) -/

@[simp] theorem keepsBlock_sendReply (s : State) (r : Req) (d : Word) (b : Bool) : KeepsBlock s (s.sendReply r d b) := by
  unfold State.sendReply
  split <;> exact ⟨rfl, rfl⟩

@[simp] theorem keepsBlock_serveReply (s : State) (r : Req) : KeepsBlock s (s.serveReply r) := by simp [State.serveReply]

@[simp] theorem keepsBlock_openTxn (s : State) (r : Req) (cs : List Nat) (k : L1MsgKind) : KeepsBlock s (s.openTxn r cs k) :=
  ⟨rfl, rfl⟩

@[simp] theorem keepsBlock_takeReq (s : State) (r : Req) : KeepsBlock s (s.takeReq r) := by
  unfold State.takeReq
  dsimp only
  split
  · exact ⟨rfl, rfl⟩
  · split
    · exact keepsBlock_serveReply s r
    · exact keepsBlock_serveReply s r
    · split
      · split <;> simp
      case h_6 => exact keepsBlock_serveReply s r
      all_goals split <;> simp
    · split <;> simp

@[simp] theorem keepsBlock_holdReq (s : State) (r : Req) : KeepsBlock s (s.holdReq r) := ⟨rfl, rfl⟩

@[simp] theorem keepsBlock_arrive (s : State) (r : Req) : KeepsBlock s (s.arrive r) := by
  unfold State.arrive
  split
  · exact ⟨rfl, rfl⟩
  · split
    · exact ⟨rfl, rfl⟩
    · exact keepsBlock_takeReq s r

@[simp] theorem keepsBlock_serveWaiting (s : State) (a : Nat) : KeepsBlock s (s.serveWaiting a) :=
  keepsBlock_foldl keepsBlock_arrive _ _

@[simp] theorem keepsBlock_completeTxn (s : State) (t : Txn) : KeepsBlock s (s.completeTxn t) := by
  unfold State.completeTxn
  dsimp only
  split
  · simp
  · split <;> simp

@[simp] theorem keepsBlock_snoopWord (s : State) (a : Nat) : KeepsBlock s (s.snoopWord a) := by simp [State.snoopWord]

@[simp] theorem keepsBlock_afterSnoop (s : State) (b : Bool) (t : Txn) : KeepsBlock s (s.afterSnoop b t) := by
  unfold State.afterSnoop
  split <;> simp

/-! ### The write-back before D3hot (R122, R182) -/

@[simp] theorem keepsBlock_settleCoh (s : State) (n : Nat) : KeepsBlock s (s.settleCoh n) := by
  induction n generalizing s with
  | zero => exact ⟨rfl, rfl⟩
  | succ n ih =>
    unfold State.settleCoh
    split <;> simp [ih]

@[simp] theorem keepsBlock_serveHeld (s : State) : KeepsBlock s s.serveHeld :=
  keepsBlock_foldl (fun t r => keepsBlock_serve t r) _ _

@[simp] theorem keepsBlock_writeBack (s : State) : KeepsBlock s s.writeBack := by simp [State.writeBack]

end Sys2Proof.Laws
end

section
/-! PROOF. A word that comes to U keeps its value, and so do the words apart from it (R122, R127). -/

namespace Sys2Proof.Laws

open Sys2Proof.Machine Sys2Proof.Claims

/-- The words at a and b have no byte in common. -/
def Apart (a b : Nat) : Prop := b + 8 ≤ a ∨ a + 8 ≤ b

/-! ### What stands in the L1s -/

/-- Words apart from each other do not stand in one place of one line. -/
theorem Apart.place_ne {a b : Nat} (h : Apart a b) (hl : a / 128 = b / 128) : b / 8 % 16 ≠ a / 8 % 16 := by
  unfold Apart at h
  omega

/-- A map of lines that keeps each line's core and line, and its word of a, keeps what every core's L1 holds of a. -/
theorem l1_map {s : State} {g : L1Line → L1Line} {a : Nat} (hcore : ∀ l, (g l).core = l.core)
    (hline : ∀ l, (g l).line = l.line)
    (hword : ∀ l, l.line = a / 128 → (g l).words.getD (a / 8 % 16) L1Word.none = l.words.getD (a / 8 % 16) L1Word.none)
    (c : Nat) : State.l1 { s with coh := { s.coh with l1 := s.coh.l1.map g } } c a = s.l1 c a := by
  have hcomp : ((fun l : L1Line => l.core == c && l.line == a / 128) ∘ g) = fun l => l.core == c && l.line == a / 128 := by
    funext l
    simp [hcore, hline]
  unfold State.l1
  dsimp only
  rw [List.find?_map, hcomp]
  cases hf : s.coh.l1.find? fun l => l.core == c && l.line == a / 128 with
  | none => rfl
  | some l =>
    have hl := List.find?_some hf
    simp only [Bool.and_eq_true, beq_iff_eq] at hl
    exact hword l hl.2

theorem l1_setL1_apart {a b : Nat} (h : Apart a b) (s : State) (core : Nat) (w : L1Word) (c : Nat) :
    (s.setL1 core b w).l1 c a = s.l1 c a := by
  refine l1_map (g := putWord core b w) (putWord_core core b w) (putWord_line core b w) (fun l hl => ?_) c
  unfold putWord
  split
  next hb => simp [List.getElem?_set_ne (h.place_ne (hl.symm.trans hb.2))]
  next => rfl

theorem l1_toSharers_apart {a b : Nat} (h : Apart a b) (s : State) (cs ds : List Nat) (k : Option Nat)
    (f : L1Word → L1Word) (c : Nat) : (s.toSharers b cs ds k f).l1 c a = s.l1 c a := by
  refine l1_map (fun l => ?_) (fun l => ?_) (fun l hl => ?_) c
  · split <;> rfl
  · split <;> rfl
  · split
    next hb => simp [h.place_ne (hl.symm.trans hb.1)]
    next => rfl

/-! ### What is to be read of a word -/

/-- What is to be read of a word: its Seam state, memory's word, and what stands of it in every core's L1. -/
def wordView (a : Nat) (s : State) : Option Seam × Word × (Nat → L1Word) := (s.seam a, s.memWord a, fun c => s.l1 c a)

theorem seam_of_wordView {s t : State} {a : Nat} (h : wordView a t = wordView a s) : t.seam a = s.seam a := congrArg (·.1) h

theorem homeView_of_wordView {s t : State} {a : Nat} (h : wordView a t = wordView a s) : t.homeView a = s.homeView a := by
  simp only [wordView, Prod.mk.injEq] at h
  obtain ⟨hs, hm, hl⟩ := h
  simp only [State.homeView, hs, hm, funext_iff.1 hl]

theorem wordView_correct (a : Nat) (s : State) (b : Bool) (core k : Nat) : wordView a (s.correct b core k) = wordView a s := by
  unfold State.correct
  exact (apply_ite (wordView a) ..).trans (ite_self _)

theorem wordView_correctL1 (a : Nat) (s : State) (core k : Nat) : wordView a (s.correctL1 core k) = wordView a s := by
  unfold State.correctL1
  split
  · exact wordView_correct a s true core k
  · rfl

section
variable {a b : Nat} (h : Apart a b) (s : State)
include h

theorem wordView_setL1 (core : Nat) (w : L1Word) : wordView a (s.setL1 core b w) = wordView a s := by
  have hl := funext (l1_setL1_apart h s core w)
  simp only [wordView, hl]
  rfl

theorem wordView_toSharers (cs ds : List Nat) (k : Option Nat) (f : L1Word → L1Word) :
    wordView a (s.toSharers b cs ds k f) = wordView a s := by
  have hl := funext (l1_toSharers_apart h s cs ds k f)
  simp only [wordView, hl]
  rfl

theorem wordView_setSeam (x : Option Seam) : wordView a (s.setSeam b x) = wordView a s := by
  have hne : a ≠ b := by
    unfold Apart at h
    omega
  simp only [wordView, seam_setSeam_other s x hne]
  rfl

theorem wordView_putHome (v : Word) (bad : Bool) : wordView a (s.putHome b v bad) = wordView a s := by
  have hm : (s.putHome b v bad).memWord a = s.memWord a := congrArg w64 (Memory.read_write_other h.symm)
  simp only [wordView, hm]
  rfl

theorem wordView_invalidate (c : Option Nat) : wordView a (s.invalidate b c) = wordView a s := by
  unfold State.invalidate
  split
  · exact wordView_toSharers h s _ _ c L1Word.inv
  · rfl

theorem wordView_recall : wordView a (s.recall b) = wordView a s := by
  unfold State.recall
  split
  next c _ => rw [wordView_setSeam h, wordView_setL1 h, wordView_putHome h, wordView_correctL1]
  next => rw [wordView_setSeam h, wordView_putHome h]
  next => rfl

/-- A word that comes to U leaves the words apart from it. -/
theorem wordView_toU : wordView a (s.toU b) = wordView a s := by
  rw [State.toU, wordView_setSeam h, wordView_recall h, wordView_invalidate h]

end

/-! ### A word that comes to U -/

theorem seam_toU_same (s : State) (a : Nat) : (s.toU a).seam a = none := seam_setSeam_same _ a none

theorem homeView_of_seam_none {s : State} {a : Nat} (h : s.seam a = none) : s.homeView a = s.memWord a := by
  simp only [State.homeView, h]

theorem homeView_invalidate (s : State) (a : Nat) (c : Option Nat) : (s.invalidate a c).homeView a = s.homeView a := by
  unfold State.invalidate
  split
  next cs ds hs =>
    have ht : (s.toSharers a cs ds c L1Word.inv).seam a = some (.t cs ds) := hs
    simp only [State.homeView, hs, ht]
    rfl
  next => rfl

theorem memWord_putHome_same (s : State) (a : Nat) (v : Word) (bad : Bool) : (s.putHome a v bad).memWord a = v := by
  have hr : (s.mem.write a 8 v.toNat).read a 8 = v.toNat % 256 ^ 8 := Memory.read_write_same ..
  have hlt : v.toNat < 256 ^ 8 := v.isLt
  rw [Nat.mod_eq_of_lt hlt] at hr
  exact (congrArg w64 hr).trans (by simp [w64])

theorem memWord_setSeam (s : State) (a b : Nat) (x : Option Seam) : (s.setSeam a x).memWord b = s.memWord b := rfl

theorem memWord_setL1 (s : State) (core a b : Nat) (w : L1Word) : (s.setL1 core a w).memWord b = s.memWord b := rfl

/-- A recall brings into memory what the home has of the word. -/
theorem memWord_recall (s : State) (a : Nat) : (s.recall a).memWord a = s.homeView a := by
  unfold State.recall State.homeView
  split
  next c hs =>
    have hl : (s.correctL1 c a).l1 c a = s.l1 c a := congrFun (congrArg (·.2.2) (wordView_correctL1 a s c a)) c
    rw [memWord_setSeam, memWord_setL1, memWord_putHome_same, hl]
  next p d hs => rw [memWord_setSeam, memWord_putHome_same]
  next ho hp => rfl

theorem memWord_toU_same (s : State) (a : Nat) : (s.toU a).memWord a = s.homeView a :=
  (memWord_recall _ a).trans (homeView_invalidate s a none)

/-- Words that come to U one after the other, each of them a or apart from a, leave in memory what the home had of a. -/
theorem memWord_foldl_toU {a : Nat} (l : List Nat) (hl : ∀ b ∈ l, b = a ∨ Apart a b) (s : State)
    (hs : s.seam a = none ∨ a ∈ l) : (l.foldl State.toU s).memWord a = s.homeView a := by
  induction l generalizing s with
  | nil => exact (homeView_of_seam_none (by simpa using hs)).symm
  | cons b l ih =>
    have hrest : ∀ k ∈ l, k = a ∨ Apart a k := fun k hk => hl k (.tail _ hk)
    rw [List.foldl_cons]
    rcases hl b (.head _) with rfl | hb
    · have hu := seam_toU_same s b
      rw [ih hrest _ (.inl hu), homeView_of_seam_none hu, memWord_toU_same]
    · have hv := wordView_toU hb s
      have hne : a ≠ b := by
        unfold Apart at hb
        omega
      have hs' : (s.toU b).seam a = none ∨ a ∈ l := by
        rw [seam_of_wordView hv]
        exact hs.imp_right fun h => (List.mem_cons.1 h).resolve_left hne
      rw [ih hrest _ hs', homeView_of_wordView hv]

/-! ### The write-back before D3hot (R122, R182) -/

/-- With nothing in flight the write-back brings the words to U whose state is not U. -/
theorem memWord_writeBack {s : State} (ht : s.coh.txns = []) (hr : s.coh.reps = []) (hh : ∀ e ∈ s.coh.homes, e.held = [])
    {a : Nat} (ha : ∀ e ∈ s.coh.seam, e.1 = a ∨ Apart a e.1) : s.writeBack.memWord a = s.homeView a := by
  have hsettle (n : Nat) : s.settleCoh n = s := by
    cases n with
    | zero => rfl
    | succ n => simp only [State.settleCoh, ht, hr]
  have hheld : (s.coh.homes.flatMap fun e => e.held) = [] := by simpa using hh
  unfold State.writeBack State.serveHeld
  simp only [hsettle, hheld, List.foldl_nil]
  refine memWord_foldl_toU _ (fun b hb => ?_) _ ?_
  · obtain ⟨e, he, rfl⟩ := List.mem_map.1 hb
    exact ha e he
  · by_cases h : a ∈ s.coh.seam.map fun e => e.1
    · exact .inr h
    · refine .inl ?_
      have hf : s.coh.seam.find? (fun e => e.1 == a) = none :=
        List.find?_eq_none.2 fun e he hk => h (List.mem_map.2 ⟨e, he, beq_iff_eq.1 hk⟩)
      simp only [State.seam, hf, Option.map_none]

end Sys2Proof.Laws
end

section
/-! PROOF. Reset, power, errors and management (R140, R172 to R184): what each event leaves, and O59. -/

namespace Sys2Proof.Laws

open Sys2Proof.Machine Sys2Proof.Claims

/-! ### Measurements and boot (R172, R175, R178) -/

/-- What is kept in module flash and in the fuses, and the power state's registers. -/
def flashView (s : State) : (Memory × Memory) × (Nat × Nat) × Nat × Power :=
  ((s.fw.flash0, s.fw.flash1), (s.fw.svnMin, s.fw.revoke), s.fw.bootSlot, s.pow)

theorem extendPlain_eq (s : State) (i ev : Nat) (d : BitVec 384) : s.extendPlain i ev d =
    let t := s.extendPlain i ev d
    { s with fw := { s.fw with meas := t.fw.meas, log := t.fw.log, logStop := t.fw.logStop } } := by
  unfold State.extendPlain State.extendMeas
  dsimp only
  split <;> rfl

/-- While the log has room, a register is extended by the digest and the log grows by one entry. -/
theorem extendPlain_of_room {s : State} (hs : s.fw.logStop = false) (hl : s.fw.log.length < 4096) (i ev : Nat)
    (d : BitVec 384) : (s.extendPlain i ev d).fw.log.length = s.fw.log.length + 1 ∧
      (s.extendPlain i ev d).fw.meas = s.fw.meas.set i (sha384 (digestBytes (s.fw.meas.getD i 0) ++ digestBytes d)) := by
  unfold State.extendPlain State.extendMeas
  dsimp only
  rw [if_neg (by simpa [hs] using hl)]
  exact ⟨List.length_append, rfl⟩

theorem flashView_extendMeas (s : State) (i ev slot : Nat) (v : BitVec 32) (d : BitVec 384) :
    flashView (s.extendMeas i ev slot v d) = flashView s := by
  unfold State.extendMeas
  dsimp only
  split <;> rfl

theorem flashView_bootSlot (s : State) (slot ev : Nat) (v : BitVec 32) : flashView (s.bootSlot slot ev v) = flashView s := by
  unfold State.bootSlot Fw.setSlot
  refine (flashView_extendMeas _ 2 ev slot v _).trans ?_
  split <;> rfl

theorem flashView_bootMantles (s : State) : flashView s.bootMantles = flashView s := by
  unfold State.bootMantles
  dsimp only
  split
  · exact flashView_bootSlot ..
  · split
    · exact flashView_bootSlot ..
    · rfl

theorem fw_powerGood (s : State) : s.powerGood.fw = s.fw.kept := rfl

theorem flashH_kept (f : Fw) : f.kept.flashH = f.flashH := rfl

theorem lenH_kept (f : Fw) : f.kept.lenH = f.lenH := rfl

theorem execPackageReset_of_fail {s : State} {c : Nat} (h : checkImage s.fw.kept s.fw.flashH s.fw.lenH 1 = .fail c) :
    execPackageReset s = .next { s.powerGood with fw := { s.powerGood.fw with dead := true } } := by
  unfold execPackageReset
  dsimp only
  rw [fw_powerGood, flashH_kept, lenH_kept, h]

/-- Once the host-die firmware has passed, the reset boots the Mantles from what flash and fuses hold. -/
theorem execPackageReset_of_pass {s : State} {v : BitVec 32} (h : checkImage s.fw.kept s.fw.flashH s.fw.lenH 1 = .pass v) :
    ∃ t, execPackageReset s = .next t ∧ flashView t = flashView s.powerGood := by
  unfold execPackageReset
  dsimp only
  rw [fw_powerGood, flashH_kept, lenH_kept, h]
  refine ⟨_, rfl, ?_⟩
  unfold State.extendPlain
  rw [flashView_bootMantles, flashView_extendMeas, flashView_extendMeas]

/-- Harts that lost power have ended. -/
theorem ended_of_mem_off {hs : List Hart} {h : Hart}
    (hh : h ∈ { (Hart.mantleInit 0) with status := .ended } :: hs.map fun g => { g with status := .ended }) :
    h.status = .ended := by
  rcases List.mem_cons.1 hh with rfl | hh
  · rfl
  · obtain ⟨g, -, rfl⟩ := List.mem_map.1 hh
    rfl

theorem ended_powerGood (s : State) : ∀ h ∈ s.powerGood.harts, h.status = .ended := fun _ => ended_of_mem_off

theorem ended_diesOff (s : State) : ∀ h ∈ s.diesOff.harts, h.status = .ended := fun _ => ended_of_mem_off

/-! ### Power states (R182, R183) -/

theorem execD3hotEntry_of_active {s : State} (h : s.pow.state = .active) : execD3hotEntry s =
    .next { s.writeBack.diesOff with pow := { s.writeBack.diesOff.pow with state := .d3hot } } := if_pos h

theorem hostDie_of_ofHostDie {i : Instr} (h : ofHostDie i = true) : HostDie i := by
  cases i
  case packageReset => exact .inl (List.mem_of_getElem? (i := 0) rfl)
  case powerLoss => exact .inl (List.mem_of_getElem? (i := 1) rfl)
  case configurationRequest => exact .inl (List.mem_of_getElem? (i := 2) rfl)
  case getVersion => exact .inl (List.mem_of_getElem? (i := 3) rfl)
  case getCapabilities => exact .inl (List.mem_of_getElem? (i := 4) rfl)
  case negotiateAlgorithms => exact .inl (List.mem_of_getElem? (i := 5) rfl)
  case getDigests => exact .inl (List.mem_of_getElem? (i := 6) rfl)
  case getMeasurements => exact .inl (List.mem_of_getElem? (i := 7) rfl)
  case epochRollover => exact .inl (List.mem_of_getElem? (i := 8) rfl)
  case pldmSensorRead n => exact .inr (.inl ⟨n, .inl rfl⟩)
  case challenge n => exact .inr (.inl ⟨n, .inr (.inl rfl)⟩)
  case spdmVendorSignature n => exact .inr (.inl ⟨n, .inr (.inr rfl)⟩)
  case getCertificate n m => exact .inr (.inr (.inl ⟨n, m, .inl rfl⟩))
  case raiseSvnRevoke n m => exact .inr (.inr (.inl ⟨n, m, .inr rfl⟩))
  case setPowerCap n d => exact .inr (.inr (.inr ⟨n, d, rfl⟩))
  all_goals exact absurd h Bool.false_ne_true

theorem ofHostDie_of_hostDie {i : Instr} (h : HostDie i) : ofHostDie i = true := by
  unfold HostDie at h
  simp only [List.mem_cons, List.not_mem_nil, or_false] at h
  rcases h with (rfl | rfl | rfl | rfl | rfl | rfl | rfl | rfl | rfl) | ⟨n, rfl | rfl | rfl⟩ | ⟨n, m, rfl | rfl⟩ | ⟨n, d, rfl⟩
  all_goals rfl

theorem allows_hot_iff (i : Instr) : PState.hot.allows i = true ↔ HostDie i := ⟨hostDie_of_ofHostDie, ofHostDie_of_hostDie⟩

theorem allows_d3hot_iff (i : Instr) :
    PState.d3hot.allows i = true ↔ HostDie i ∨ i = .d3hotExit ∨ i = .thermalShutdown := by
  unfold PState.allows
  dsimp only
  rw [Bool.or_eq_true]
  refine or_congr ⟨hostDie_of_ofHostDie, ofHostDie_of_hostDie⟩ ⟨fun h => ?_, ?_⟩
  · split at h
    · exact .inl rfl
    · exact .inr rfl
    · cases h
  · rintro (rfl | rfl) <;> rfl

theorem allows_off {i : Instr} (h : i ≠ .packageReset) : PState.off.allows i = false := by
  unfold PState.allows
  dsimp only
  split
  · exact absurd rfl h
  · rfl

/-- An event that the power state allows is carried out. -/
theorem happens_of_allows {s : State} {i : Instr} {rest : List Turn} (ha : s.agenda = .event i :: rest)
    (h : s.pow.state.allows i = true) : Happens s := by
  intro j r hj u hu
  obtain ⟨⟨⟩, rfl⟩ := List.cons.inj (ha.symm.trans hj)
  exact step_event (t := { s with agenda := rest }) (by simp only [State.nextAct, ha, h, if_true]) hu

/-- An event that the power state does not allow passes. -/
theorem step_of_not_allows {s : State} {i : Instr} {rest : List Turn} (ha : s.agenda = .event i :: rest)
    (h : s.pow.state.allows i = false) : step s = .next ({ s with agenda := rest } : State).stepEnd :=
  step_idle (by simp only [State.nextAct, ha, h, Bool.false_eq_true, if_false])

/-- With the compute dies off the other turns pass, but for a fence table's digest. -/
theorem step_of_turn {s : State} {x : Turn} {rest : List Turn} (hs : s.pow.state ≠ .active) (ha : s.agenda = x :: rest)
    (hi : ∀ i, x ≠ .event i) (hd : ∀ d, x ≠ .fenceDigest d) : step s = .next ({ s with agenda := rest } : State).stepEnd := by
  refine step_idle ?_
  cases x with
  | event i => exact absurd rfl (hi i)
  | fenceDigest d => exact absurd rfl (hd d)
  | _ => simp only [State.nextAct, ha, hs, if_false]

theorem step_of_fenceDigest {s : State} {d : BitVec 384} {rest : List Turn} (ha : s.agenda = .fenceDigest d :: rest)
    (hs : s.pow.state ≠ .off) : step s = .next (({ s with agenda := rest } : State).extendPlain 3 4 d).stepEnd :=
  step_idle (by simp only [State.nextAct, ha, hs, if_false, State.fenceDigest])

theorem passes_of_step {s : State} {x : Turn} {rest : List Turn} (ha : s.agenda = x :: rest)
    (h : step s = .next ({ s with agenda := rest } : State).stepEnd) : Passes s := by
  intro y r hy
  obtain ⟨rfl, rfl⟩ := List.cons.inj (ha.symm.trans hy)
  exact h

/-! ### Throttling (R183) -/

theorem getD_modify {α : Type} {l : List α} {k : Nat} (h : k < l.length) (i : Nat) (f : α → α) (d : α) :
    (l.modify i f).getD k d = if k = i then f (l.getD k d) else l.getD k d := by
  by_cases hk : k = i
  · subst hk
    simp [h]
  · simp [hk, Ne.symm hk]

/-- What one cause demands of one die changes, and nothing else of the demands. -/
theorem demand_setDemand (p : Power) (die cause : Nat) (f : Nat → Nat) :
    (p.setDemand die cause f).demand.length = p.demand.length ∧ ∀ k < p.demand.length, ∀ c,
      ((p.setDemand die cause f).demand.getD k []).length = (p.demand.getD k []).length ∧
      (c < (p.demand.getD k []).length → ((p.setDemand die cause f).demand.getD k []).getD c 0 =
        if k = die ∧ c = cause then f ((p.demand.getD k []).getD c 0) else (p.demand.getD k []).getD c 0) := by
  refine ⟨List.length_modify .., fun k hk c => ?_⟩
  rw [Power.setDemand, getD_modify hk]
  split
  next hd => exact ⟨List.length_modify .., fun hc => by rw [getD_modify hc]; simp [hd]⟩
  next hd => exact ⟨rfl, fun _ => by simp [hd]⟩

theorem foldl_max_set {l : List Nat} (hlen : l.length = 3) (hle : ∀ v ∈ l, v ≤ 14) : (l.set 2 14).foldl max 0 = 14 := by
  obtain ⟨x, y, z, rfl⟩ := List.length_eq_three.1 hlen
  have hx := hle x (by simp)
  have hy := hle y (by simp)
  simp [hx, hy]

/-! ### SPDM (R179) -/

section
variable {s : State} (req : List Nat) (code alg n : Nat) (body : List Nat)

theorem spdm_of_dead (hd : s.fw.dead = true) : s.spdm req code body = s := if_pos hd

theorem spdmSigned_of_dead (hd : s.fw.dead = true) : s.spdmSigned code alg n = s := if_pos hd

theorem spdm_of_alive (hd : s.fw.dead = false) : s.spdm req code body = { s with fw := { s.fw with
    spdmOut := s.fw.spdmOut ++ [0x13 :: code :: body]
    spdmIn := (if code = 0x04 then [] else s.fw.spdmIn) ++ [req, 0x13 :: code :: body] } } :=
  if_neg (Bool.eq_false_iff.1 hd)

theorem spdmSigned_of_alive (hd : s.fw.dead = false) : s.spdmSigned code alg n = { s with fw := { s.fw with
    spdmOut := s.fw.spdmOut ++ [0x13 :: code :: Config.spdmSign alg (s.fw.transcript n)] } } :=
  if_neg (Bool.eq_false_iff.1 hd)

end

/-! ### Sensors (R184) -/

/-- A mask whose bits say which of the first n numbers satisfy p. -/
theorem testBit_foldl_mask (p : Nat → Prop) [DecidablePred p] (n : Nat) :
    let v := (List.range n).foldl (fun m c => if p c then m + 2 ^ c else m) 0
    v < 2 ^ n ∧ ∀ c < n, v.testBit c = true ↔ p c := by
  induction n with
  | zero => simp
  | succ n ih =>
    simp only [List.range_succ, List.foldl_append, List.foldl_cons, List.foldl_nil]
    obtain ⟨hlt, hbit⟩ := ih
    generalize (List.range n).foldl (fun m c => if p c then m + 2 ^ c else m) 0 = v at *
    have hn : v.testBit n = false := Nat.testBit_lt_two_pow hlt
    split
    next hp =>
      refine ⟨by rw [pow_succ]; omega, fun c hc => ?_⟩
      rw [Nat.add_comm]
      rcases Nat.lt_succ_iff_lt_or_eq.1 hc with hc | rfl
      · rw [Nat.testBit_two_pow_add_gt hc, hbit c hc]
      · rw [Nat.testBit_two_pow_add_eq, hn]
        simp [hp]
    next hp =>
      refine ⟨hlt.trans (Nat.pow_lt_pow_right (by decide) n.lt_succ_self), fun c hc => ?_⟩
      rcases Nat.lt_succ_iff_lt_or_eq.1 hc with hc | rfl
      · exact hbit c hc
      · simp [hn, hp]

theorem countOf_filter_same (l : List (Nat × Nat)) (n : Nat) : countOf (l.filter fun e => e.1 != n) n = 0 := by
  have h : (l.filter fun e => e.1 != n).find? (fun e => e.1 == n) = none := by simp
  simp only [countOf, h]

theorem countOf_filter_other (l : List (Nat × Nat)) {n k : Nat} (h : k ≠ n) :
    countOf (l.filter fun e => e.1 != n) k = countOf l k := by
  have hf : (l.filter fun e => e.1 != n).find? (fun e => e.1 == k) = l.find? fun e => e.1 == k := by
    rw [List.find?_filter]
    congr 1
    funext e
    by_cases he : e.1 = k <;> simp [he, h]
  simp only [countOf, hf]

/-! ### Memory errors (R140) -/

/-- t differs from s in which words hold a single-bit error alone. -/
def OnlyMarks (s t : State) : Prop :=
  t.mem = s.mem ∧ t.pow = s.pow ∧ t.coh = { s.coh with weak := t.coh.weak } ∧
    t.h = { s.h with weakPool := t.h.weakPool } ∧ t.others.length = s.others.length ∧
    ∀ p ∈ s.others.zip t.others, p.2 = { p.1 with weakPool := p.2.weakPool }

theorem onlyMarks_weak (s : State) (w : List (Nat × Nat × Nat)) : OnlyMarks s { s with coh := { s.coh with weak := w } } := by
  refine ⟨rfl, rfl, rfl, rfl, rfl, fun p hp => ?_⟩
  have hzip : s.others.zip s.others = s.others.map fun g => (g, g) := by
    simpa using List.zip_map' (f := id) (g := id) (l := s.others)
  obtain ⟨g, -, rfl⟩ := List.mem_map.1 (hzip ▸ hp)
  rfl

theorem onlyMarks_refl (s : State) : OnlyMarks s s := onlyMarks_weak s s.coh.weak

theorem onlyMarks_mapHarts (s : State) {f : Hart → Hart} (hf : ∀ g, f g = { g with weakPool := (f g).weakPool }) :
    OnlyMarks s (s.mapHarts f) := by
  refine ⟨rfl, rfl, rfl, hf s.h, List.length_map .., fun p hp => ?_⟩
  have hzip : s.others.zip (s.others.map f) = s.others.map fun g => (g, f g) := by
    simpa using List.zip_map' (f := id) (g := f) (l := s.others)
  obtain ⟨g, -, rfl⟩ := List.mem_map.1 (hzip ▸ hp)
  exact hf g

theorem onlyMarks_l1Error (s : State) (core a : Nat) : OnlyMarks s (s.l1Error core a false) := by
  unfold State.l1Error
  dsimp only
  split
  · exact onlyMarks_refl s
  · exact onlyMarks_weak s _

theorem onlyMarks_homeError (s : State) (store a : Nat) : OnlyMarks s (s.homeError store a false) := by
  unfold State.homeError
  split
  · exact onlyMarks_refl s
  · exact onlyMarks_weak s _

/-- A single-bit error changes no value and no count. -/
theorem execBitError_single (s : State) (store core addr : Nat) :
    ∃ t, execBitError store core addr false s = .next t ∧ OnlyMarks s t := by
  unfold execBitError
  dsimp only
  split
  · exact ⟨_, rfl, onlyMarks_l1Error ..⟩
  · exact ⟨_, rfl, onlyMarks_homeError ..⟩
  · exact ⟨_, rfl, onlyMarks_homeError ..⟩
  · refine ⟨_, rfl, onlyMarks_mapHarts s fun g => ?_⟩
    split <;> rfl
  · exact ⟨_, rfl, onlyMarks_refl s⟩

section
variable {s : State} {store a : Nat}

theorem homeError_of_there (hp : placeOf a = .lpddr) (h : s.coh.slices.contains (a / 128) = (store == 1)) :
    s.homeError store a true = (s.countBad store 0 a).setBad a true := by
  unfold State.homeError
  rw [if_neg (by simpa [hp] using h), if_pos rfl]

theorem homeError_of_not_there (h : s.coh.slices.contains (a / 128) ≠ (store == 1)) : s.homeError store a true = s :=
  if_pos (.inr h)

end

theorem isBad_setBad_true (s : State) (a : Nat) : (s.setBad a true).isBad a = true := by simp [State.isBad, State.setBad]

end Sys2Proof.Laws

namespace Sys2Proof.Claims

open Sys2Proof.Machine Sys2Proof.Laws

/-! ### Reset and power states (R172, R175, R182, R183) -/

theorem packageReset_spec (s : State) : ∃ t, exec .packageReset s = .next t ∧ t.fw.flash0 = s.fw.flash0 ∧
    t.fw.flash1 = s.fw.flash1 ∧ t.fw.svnMin = s.fw.svnMin ∧ t.fw.revoke = s.fw.revoke ∧ t.fw.bootSlot = s.fw.bootSlot ∧
    t.pow.state = .active ∧ (∀ c, checkImage s.fw.kept s.fw.flashH s.fw.lenH 1 = .fail c →
      t.fw.dead = true ∧ ∀ h ∈ t.harts, h.status = .ended) := by
  rw [exec_packageReset]
  cases hv : checkImage s.fw.kept s.fw.flashH s.fw.lenH 1 with
  | fail c =>
    exact ⟨_, execPackageReset_of_fail hv, rfl, rfl, rfl, rfl, rfl, rfl, fun _ _ => ⟨rfl, ended_powerGood s⟩⟩
  | pass v =>
    obtain ⟨t, ht, hflash⟩ := execPackageReset_of_pass hv
    simp only [flashView, Prod.mk.injEq] at hflash
    obtain ⟨⟨hf0, hf1⟩, ⟨hsvn, hrev⟩, hslot, hpow⟩ := hflash
    exact ⟨t, ht, hf0, hf1, hsvn, hrev, hslot, congrArg Power.state hpow, fun c hc => by cases hc⟩

theorem d3hotEntry_spec (s : State) (hs : s.pow.state = .active) : ∃ t, exec .d3hotEntry s = .next t ∧
    t.pow.state = .d3hot ∧ t.coh.l1 = [] ∧ t.coh.seam = [] ∧ t.fw = s.fw ∧ (∀ h ∈ t.harts, h.status = .ended) ∧
    t.agenda = s.agenda ∧ (s.coh.txns = [] → s.coh.reps = [] → (∀ e ∈ s.coh.homes, e.held = []) → ∀ a,
      (∀ e ∈ s.coh.seam, e.1 = a ∨ e.1 + 8 ≤ a ∨ a + 8 ≤ e.1) → t.memWord a = s.homeView a) := by
  obtain ⟨hfw, hagenda⟩ := keepsBlock_writeBack s
  have hmem (ht : s.coh.txns = []) (hr : s.coh.reps = []) (hh : ∀ e ∈ s.coh.homes, e.held = []) (a : Nat)
      (ha : ∀ e ∈ s.coh.seam, e.1 = a ∨ Apart a e.1) : s.writeBack.memWord a = s.homeView a :=
    memWord_writeBack ht hr hh ha
  rw [exec_d3hotEntry, execD3hotEntry_of_active hs]
  generalize s.writeBack = w at *
  exact ⟨_, rfl, rfl, rfl, rfl, hfw, ended_diesOff w, hagenda, hmem⟩

/-- With the compute dies off the step carries out what the host die does, and in D3hot besides the return and a thermal
shutdown. -/
theorem diesOff_spec (s : State) (hs : s.pow.state = .hot ∨ s.pow.state = .d3hot) :
    let may (i : Instr) : Prop := HostDie i ∨ (s.pow.state = .d3hot ∧ (i = .d3hotExit ∨ i = .thermalShutdown))
    (s.agenda = [] → step s = .next s.stepEnd) ∧
      (∀ i rest, s.agenda = .event i :: rest → (may i → Happens s) ∧ (¬may i → Passes s)) ∧
      (∀ x rest, s.agenda = x :: rest → (∀ i, x ≠ .event i) → (∀ d, x ≠ .fenceDigest d) → Passes s) := by
  intro may
  have hmay (i : Instr) : s.pow.state.allows i = true ↔ may i := by
    rcases hs with hs | hs
    · simp [may, hs, allows_hot_iff]
    · simp [may, hs, allows_d3hot_iff]
  refine ⟨fun ha => step_idle ?_, fun i rest ha => ⟨fun h => happens_of_allows ha ((hmay i).2 h), fun h => ?_⟩,
    fun x rest ha hi hd => passes_of_step ha (step_of_turn ?_ ha hi hd)⟩
  · rcases hs with hs | hs <;> simp only [State.nextAct, ha, hs]
  · exact passes_of_step ha (step_of_not_allows ha (Bool.eq_false_iff.2 (mt (hmay i).1 h)))
  · rcases hs with hs | hs <;> simp [hs]

/-! ### Throttling, the power cap and the fuses (R174, R178, R183) -/

theorem overcurrentThrottle_spec (s : State) : ∃ t, exec .overcurrentThrottle s = .next t ∧
    t = { s with pow := { s.pow with demand := t.pow.demand } } ∧
    ((∀ l ∈ s.pow.demand, l.length = 3 ∧ ∀ v ∈ l, v ≤ 14) → ∀ k < s.pow.demand.length, t.pow.level k = 14) := by
  refine ⟨_, rfl, rfl, fun hl k hk => ?_⟩
  obtain ⟨hlen, hle⟩ := hl _ (List.getElem_mem hk)
  have hget : (s.pow.demand.map fun l => l.set 2 14).getD k [] = s.pow.demand[k].set 2 14 := by simp [hk]
  rw [Power.level, hget]
  exact foldl_max_set hlen hle

theorem setPowerCap_spec (s : State) (n : Nat) (g : BitVec 384) (hlo : 2000 ≤ n) (hhi : n ≤ 5400) :
    ∃ t, exec (.setPowerCap n g) s = .next t ∧ t.pow = { s.pow with cap := n } ∧
      (s.fw.logStop = false → s.fw.log.length < 4096 → t.fw.log.length = s.fw.log.length + 1 ∧
        t.fw.meas = s.fw.meas.set 3 (sha384 (digestBytes (s.fw.meas.getD 3 0) ++ digestBytes g))) := by
  refine ⟨_, if_pos ⟨hlo, hhi⟩, ?_, fun hstop hlen => extendPlain_of_room (s := { s with pow := { s.pow with cap := n } }) hstop hlen 3 4 g⟩
  rw [extendPlain_eq]

theorem fenceDigest_spec (s : State) (g : BitVec 384) (rest : List Turn) (ha : s.agenda = .fenceDigest g :: rest)
    (hs : s.pow.state ≠ .off) (hstop : s.fw.logStop = false) (hlen : s.fw.log.length < 4096) :
    ∃ t : State, step s = .next t.stepEnd ∧ t.pow = s.pow ∧ t.h = s.h ∧ t.mem = s.mem ∧
      t.fw.log.length = s.fw.log.length + 1 ∧
      t.fw.meas = s.fw.meas.set 3 (sha384 (digestBytes (s.fw.meas.getD 3 0) ++ digestBytes g)) := by
  refine ⟨_, step_of_fenceDigest ha hs, ?_, ?_, ?_, extendPlain_of_room (s := { s with agenda := rest }) hstop hlen 3 4 g⟩
  all_goals rw [extendPlain_eq]

theorem raiseSvnRevoke_spec (s : State) (n m : Nat) : ∃ t, exec (.raiseSvnRevoke n m) s = .next t ∧
    t.fw.svnMin = max s.fw.svnMin n ∧ t.fw.revoke = s.fw.revoke ||| m % 256 ∧ t.pow = s.pow ∧ t.h = s.h ∧
    t.mem = s.mem := by
  rw [exec_raiseSvnRevoke]
  unfold execRaiseSvnRevoke
  dsimp only
  split
  next hfw => exact ⟨s, rfl, (congrArg Fw.svnMin hfw).symm, (congrArg Fw.revoke hfw).symm, rfl, rfl, rfl⟩
  next =>
    refine ⟨_, rfl, ?_⟩
    rw [extendPlain_eq]
    exact ⟨rfl, rfl, rfl, rfl, rfl⟩

/-! ### SPDM (R179) -/

theorem spdm_dead {s : State} (hd : s.fw.dead = true) (n : Nat) : ∀ off len, ∀ i ∈ [Instr.getVersion, .negotiateAlgorithms,
    .getMeasurements, .getCapabilities, .getDigests, .getCertificate off len, .challenge n, .spdmVendorSignature n],
    exec i s = .next s := by
  intro off len
  have hanswer (req : List Nat) (code : Nat) (body : List Nat) : Host.Outcome.next (s.spdm req code body) = (.next s : Out) :=
    congrArg _ (spdm_of_dead req code body hd)
  have hsign (code alg : Nat) : Host.Outcome.next (s.spdmSigned code alg n) = (.next s : Out) :=
    congrArg _ (spdmSigned_of_dead code alg n hd)
  simp only [List.forall_mem_cons]
  exact ⟨hanswer .., hanswer .., hanswer .., hanswer .., hanswer .., hanswer .., hsign .., hsign .., by simp⟩

/-! ### Sensors (R184) -/

theorem pldmSensorRead_reading (s : State) {n : Nat} (hn : n < 18) : exec (.pldmSensorRead n) s =
    .next (({ s with tick := s.tick + 1 } : State).answerHost 0 (w64 (Config.sensor n s.tick))) := if_pos hn

theorem pldmSensorRead_level (s : State) {n : Nat} (hn : n < 8) :
    exec (.pldmSensorRead (18 + n)) s = .next (s.answerHost 0 (w64 (s.pow.level n))) := by
  rw [exec_pldmSensorRead, execPldmSensorRead, if_neg (by omega), if_pos (by omega), Nat.add_sub_cancel_left]

theorem pldmSensorRead_causes (s : State) {n : Nat} (hn : n < 8) :
    exec (.pldmSensorRead (26 + n)) s = .next (s.answerHost 0 (w64 (s.pow.causes n))) := by
  rw [exec_pldmSensorRead, execPldmSensorRead, if_neg (by omega), if_neg (by omega), if_pos (by omega),
    Nat.add_sub_cancel_left]

theorem pldmSensorRead_corrected (s : State) {n : Nat} (hn : n < 52) : exec (.pldmSensorRead (34 + n)) s =
    .next { s.answerHost 0 (w64 (countOf s.pow.corr n)) with
      pow := { s.pow with corr := s.pow.corr.filter fun e => e.1 != n } } := by
  rw [exec_pldmSensorRead, execPldmSensorRead, if_neg (by omega), if_neg (by omega), if_neg (by omega),
    if_pos (by omega), Nat.add_sub_cancel_left]

theorem pldmSensorRead_uncorrectable (s : State) {n : Nat} (hn : n < 52) : exec (.pldmSensorRead (86 + n)) s =
    .next { s.answerHost 0 (w64 (countOf s.pow.uncorr n)) with
      pow := { s.pow with uncorr := s.pow.uncorr.filter fun e => e.1 != n } } := by
  rw [exec_pldmSensorRead, execPldmSensorRead, if_neg (by omega), if_neg (by omega), if_neg (by omega),
    if_neg (by omega), if_pos (by omega), Nat.add_sub_cancel_left]

theorem causes_spec (p : Power) (n : Nat) : ∀ c < 3, (p.causes n).testBit c = true ↔
    (p.demand.getD n []).getD c 0 = (p.demand.getD n []).foldl max 0 ∧ 0 < (p.demand.getD n []).foldl max 0 := by
  obtain ⟨-, hbit⟩ := testBit_foldl_mask (fun c => (p.demand.getD n []).getD c 0 = p.level n ∧ 0 < p.level n) 3
  exact hbit

/-! ### Memory errors (R140) -/

/-- An error of two bits at its home: in the slice that holds the line, or in LPDDR-6 while no slice does. -/
theorem bitError_double (s : State) (store core addr : Nat) :
    let a := wordAddr (s.normPa addr)
    let there : Prop := (store = 1 ∧ a / 128 ∈ s.coh.slices) ∨ (store = 3 ∧ a / 128 ∉ s.coh.slices)
    placeOf a = .lpddr → store = 1 ∨ store = 3 →
      (there → ∃ t, exec (.bitError store core addr true) s = .next t ∧ t.isBad a = true ∧ t.mem = s.mem ∧ t.h = s.h) ∧
      (¬there → exec (.bitError store core addr true) s = .next s) := by
  intro a there hp hstore
  have hexec : exec (.bitError store core addr true) s = .next (s.homeError store a true) := by
    rcases hstore with rfl | rfl <;> rfl
  have hthere : there ↔ s.coh.slices.contains (a / 128) = (store == 1) := by
    rcases hstore with rfl | rfl <;> simp [there]
  rw [hexec, hthere]
  refine ⟨fun h => ⟨_, rfl, ?_⟩, fun h => congrArg _ (homeError_of_not_there h)⟩
  rw [homeError_of_there hp h]
  exact ⟨isBad_setBad_true _ a, rfl, rfl⟩

/-- Settles O59, an event at a time: what a package reset and a change of power state leave, what each power state lets
happen, and what the management engine's events read and write. -/
theorem powerAndManagement : Obligations.PowerAndManagement := by
  intro s die n m store core addr g spdm blocks answered demands
  have hanswer (hd : s.fw.dead = false) (req : List Nat) (code : Nat) (body : List Nat) :
      Host.Outcome.next (s.spdm req code body) = (.next (spdm req code body) : Out) :=
    congrArg _ (spdm_of_alive req code body hd)
  refine ⟨packageReset_spec s, d3hotEntry_spec s, fun h => if_neg h, fun h => if_pos h, fun h => if_neg h,
    ⟨_, rfl, rfl, rfl, rfl⟩, ⟨_, rfl, rfl, rfl, ended_diesOff s, ?downPorts⟩, ?offIdle, ?offEvent, diesOff_spec s,
    ⟨_, _, Nat.mod_lt _ (by decide), rfl, rfl, demand_setDemand ..⟩,
    ⟨_, _, Nat.mod_lt _ (by decide), rfl, rfl, demand_setDemand ..⟩, overcurrentThrottle_spec s, setPowerCap_spec s n g,
    fun h => if_neg (by omega), fenceDigest_spec s g, raiseSvnRevoke_spec s n m, fun hd => spdm_dead hd n,
    fun hd => ⟨hanswer hd .., hanswer hd .., hanswer hd .., _, hanswer hd ..⟩,
    fun hd => ⟨certChain, hanswer hd .., fun _ _ => hanswer hd ..⟩,
    fun hd => ⟨congrArg _ (spdmSigned_of_alive 0x03 0 n hd), congrArg _ (spdmSigned_of_alive 0x7E 1 n hd)⟩,
    fun hn => ⟨_, pldmSensorRead_reading s hn⟩,
    fun hn => ⟨pldmSensorRead_level s hn, _, pldmSensorRead_causes s hn, causes_spec s.pow n⟩,
    fun hn => ⟨⟨_, pldmSensorRead_corrected s hn, rfl, countOf_filter_same .., fun _ hk => countOf_filter_other _ hk⟩,
      _, pldmSensorRead_uncorrectable s hn, rfl, countOf_filter_same .., fun _ hk => countOf_filter_other _ hk⟩,
    execBitError_single s store core addr, bitError_double s store core addr⟩
  case downPorts =>
    intro p hp
    obtain ⟨q, -, rfl⟩ := List.mem_map.1 hp
    rfl
  case offIdle =>
    intro hs ha
    simp only [step, State.nextAct, ha, hs]
  case offEvent =>
    intro i rest hs ha hi
    exact step_of_not_allows ha (by rw [hs, allows_off (hi _ rfl)])

end Sys2Proof.Claims
end

section
/-! PROOF. The firmware block and the heartbeats (R142 to R149, R171): O53. -/

namespace Sys2Proof.Laws

open Sys2Proof.Machine Sys2Proof.Claims

/-! ### Queues that resume (R149) -/

section
variable {α : Type} (g : State → α) (hq : ∀ s k, g (s.setQueue k) = g s)
  (hr : ∀ (s : State) errs irqs, g { s with host := { s.host with errs := errs, irqs := irqs } } = g s)
include hq hr

theorem stopFor_keeps (s : State) (q code : Nat) (tag : Option (BitVec 32)) : g (s.stopFor q code tag) = g s := by
  unfold State.stopFor
  split
  · rfl
  · split
    · rfl
    · dsimp only
      split <;> exact (hr (s.setQueue _) _ _).trans (hq ..)

theorem applyNotify_keeps (s : State) (q n : Nat) : g (s.applyNotify q n) = g s := by
  unfold State.applyNotify
  split
  · rfl
  · split
    · rfl
    · split
      · exact hq ..
      · exact stopFor_keeps g hq hr ..

/-- Queues that resume change queues' records, the errors reported and the interrupts raised, and nothing else. -/
theorem resumeQueues_keeps (s : State) : g s.resumeQueues = g s := by
  unfold State.resumeQueues
  split
  · refine foldl_keeps g (fun t k => ?_) _ _
    rw [foldl_keeps g fun u n => applyNotify_keeps g hq hr u _ n]
    split
    · exact hq ..
    · rfl
  · rfl

end

/-- What the firmware block and the heartbeats speak of beside the queues. -/
def blockView (s : State) : Fw × Memory × List Hart × List Nat := (s.fw, s.mem, s.harts, s.host.mail)

theorem blockView_resumeQueues (s : State) : blockView s.resumeQueues = blockView s :=
  resumeQueues_keeps blockView (fun _ _ => rfl) (fun _ _ _ => rfl) s

/-! ### Resets of the Mantles (R148) -/

theorem mantleRestarted_mantleReset {h : Hart} (hm : h.isMantle = true) (pc : Word) (req : Bool) :
    MantleRestarted h (h.mantleReset pc req) pc := by
  rw [Hart.mantleReset, if_pos hm]
  exact ⟨rfl, fun r => Vector.getElem_replicate r.isLt, rfl, rfl, rfl, rfl, rfl, rfl, rfl, rfl, rfl⟩

theorem mantleReset_of_compute {h : Hart} (hm : h.isMantle = false) (pc : Word) (req : Bool) : h.mantleReset pc req = h :=
  if_neg (Bool.eq_false_iff.1 hm)

theorem snd_of_mem_zip_map {α β : Type} {f : α → β} {l : List α} {p : α × β} (hp : p ∈ l.zip (l.map f)) : p.2 = f p.1 := by
  have hzip : l.zip (l.map f) = l.map fun a => (a, f a) := by simpa using List.zip_map' (f := id) (g := f) (l := l)
  obtain ⟨a, -, rfl⟩ := List.mem_map.1 (hzip ▸ hp)
  rfl

/-- A reset of the Mantles of a machine with the harts and the memory of s. -/
theorem restarted_resetMantles {s t : State} (hh : t.h = s.h) (ho : t.others = s.others) (hm : t.mem = s.mem) (n : Nat) :
    Restarted s (t.resetMantles n) n := by
  unfold Restarted State.resetMantles
  dsimp only [State.mapHarts, State.harts]
  rw [hh, ho, hm]
  refine ⟨List.length_map .., fun p hp => ?_⟩
  rw [snd_of_mem_zip_map (f := fun h => Hart.mantleReset h _ _) hp]
  exact ⟨fun h => mantleRestarted_mantleReset h .., fun h => mantleReset_of_compute h ..⟩

/-- A Mantle hart ends, a compute hart goes on. -/
def mantleEnded (h : Hart) : Hart := if h.isMantle then { h with status := .ended } else h

theorem status_mantleEnded {h : Hart} (hm : (mantleEnded h).isMantle = true) : (mantleEnded h).status = .ended := by
  unfold mantleEnded at *
  split at hm
  next hh => rw [if_pos hh]
  next hh => exact absurd hm hh

/-- A window that expires once the Mantles have rolled back ends them all. -/
theorem blockView_windowExpire_again {s : State} (ha : s.fw.arm = true) (hs : s.fw.state ≠ 4) : blockView s.windowExpire =
    ({ s.fw with arm := false, state := 0x85 }, s.mem, s.harts.map mantleEnded, s.host.mail ++ [145]) := by
  rw [State.windowExpire, if_neg (by simp [ha]), if_neg hs]
  exact blockView_resumeQueues _

/-! ### Measurement 2 and its log (R147, R178) -/

theorem extendMeas_eq (s : State) (i ev slot : Nat) (v : BitVec 32) (d : BitVec 384) : s.extendMeas i ev slot v d =
    let t := s.extendMeas i ev slot v d
    { s with fw := { s.fw with meas := t.fw.meas, log := t.fw.log, logStop := t.fw.logStop } } := by
  unfold State.extendMeas
  dsimp only
  split <;> rfl

/-- While the log has room, the register is extended and the log grows by the entry. -/
theorem extendMeas_of_room {s : State} (hs : s.fw.logStop = false) (hl : s.fw.log.length < 4096) (i ev slot : Nat)
    (v : BitVec 32) (d : BitVec 384) : s.extendMeas i ev slot v d = { s with fw := { s.fw with
      meas := s.fw.meas.set i (sha384 (digestBytes (s.fw.meas.getD i 0) ++ digestBytes d))
      log := s.fw.log ++ [⟨s.fw.log.length, ev, slot, i, v, d⟩] } } := by
  unfold State.extendMeas
  dsimp only
  rw [if_neg (by simpa [hs] using hl)]

/-! ### Installing (R145, R146) -/

theorem takesInstall_iff (f : Fw) :
    f.takesInstall = true ↔ f.state ∈ [0, 2, 3, 5, 0x81, 0x82] ∨ (f.state = 6 ∧ f.arm = false) := by
  have hmem : f.state ∈ [0, 5, 0x81, 0x82, 2, 3] ↔ f.state ∈ [0, 2, 3, 5, 0x81, 0x82] := by
    simp only [List.mem_cons, List.not_mem_nil, or_false]
    omega
  simp only [Fw.takesInstall, Bool.or_eq_true, List.contains_iff_mem, hmem, Bool.and_eq_true, beq_iff_eq, Bool.not_eq_true']

theorem code_of_checkImage_fail {f : Fw} {img : Memory} {len kind c : Nat} (h : checkImage f img len kind = .fail c) :
    c ∈ [0x81, 0x82] := by
  unfold checkImage at h
  dsimp only at h
  split at h
  · simp [← ImageVerdict.fail.inj h]
  · split at h
    · simp [← ImageVerdict.fail.inj h]
    · cases h

theorem keepsBlock_homeRead (s : State) (a : Nat) : KeepsBlock s (s.homeRead a).s := keepsBlock_serve ..

theorem keepsBlock_homeWrite (s : State) (a : Nat) (m : BitVec 8) (v : Word) : KeepsBlock s (s.homeWrite a m v) :=
  keepsBlock_serve ..

theorem keepsBlock_readPhysWords (n : Nat) (s : State) (pa : Nat) : KeepsBlock s (s.readPhysWords pa n).2 := by
  induction n generalizing s pa with
  | zero => exact ⟨rfl, rfl⟩
  | succ n ih =>
    have hrest (p : Nat) : KeepsBlock s ((s.homeRead p).s.readPhysWords (p + 8) n).2 := by
      obtain ⟨hf, ha⟩ := ih (s.homeRead p).s (p + 8)
      obtain ⟨hf', ha'⟩ := keepsBlock_homeRead s p
      exact ⟨hf.trans hf', ha.trans ha'⟩
    unfold State.readPhysWords
    dsimp only
    split
    · exact ⟨rfl, rfl⟩
    split
    · exact ⟨rfl, rfl⟩
    split
    · exact ⟨rfl, rfl⟩
    split
    · exact keepsBlock_homeRead ..
    split
    next h => simpa only [h] using hrest (s.normPa pa)
    next h => simpa only [h] using hrest (s.normPa pa)

/-- The running slot and the measurements. -/
def slotView (s : State) : Nat × List (BitVec 384) := (s.fw.slot, s.fw.meas)

theorem slotView_copyImage {src slot n i : Nat} {s t : State} (h : s.copyImage src slot n i = some t) :
    slotView t = slotView s := by
  induction n generalizing s i with
  | zero => exact congrArg slotView (Option.some.inj h).symm
  | succ n ih =>
    unfold State.copyImage at h
    split at h
    next v u hread =>
      have hu : u.fw = s.fw := by simpa [hread] using (keepsBlock_readPhysWords 1 s (src + 8 * i)).1
      have hw := (keepsBlock_homeWrite u (mirrorBase slot + 8 * i) 255 v).1
      rw [ih h]
      dsimp only [slotView]
      split <;> rw [hw, hu]
    next => cases h

/-- t is s after an install has ended in a state code, with ver set for VERIFIED alone. -/
def Installed (s t : State) : Prop :=
  t.fw.busy = false ∧ t.fw.state ∈ [2, 0x81, 0x82] ∧ (t.fw.ver = true ↔ t.fw.state = 2) ∧ slotView t = slotView s

theorem slotView_setSlot (s : State) (slot : Nat) (v : BitVec 32) (len : Nat) :
    ((s.fw.setSlot slot v len).slot, (s.fw.setSlot slot v len).meas) = slotView s := by
  unfold Fw.setSlot
  split <;> rfl

/-- An install that fails, with the bytes that t holds. -/
theorem installed_failed {s t : State} (ht : slotView t = slotView s) {code : Nat} (hc : code ∈ [0x81, 0x82])
    (slot len : Nat) :
    Installed s { t with fw := { (t.fw.setSlot slot 0 len) with ver := false, state := code, busy := false, cmd := 0 } } := by
  have hne : code ≠ 2 := by
    rintro rfl
    simp at hc
  exact ⟨rfl, .tail _ hc, iff_of_false Bool.false_ne_true hne, (slotView_setSlot t slot 0 len).trans ht⟩

theorem installed_installDone {s : State} (hb : s.installBusy = false) : Installed s s.installDone := by
  unfold State.installDone
  rw [if_neg (Bool.eq_false_iff.1 hb)]
  dsimp only
  split
  · exact installed_failed rfl (by simp) ..
  split
  · exact installed_failed rfl (by simp) ..
  next t hcopy =>
    have ht := slotView_copyImage hcopy
    split
    next code hcode => exact installed_failed ht (code_of_checkImage_fail hcode) ..
    next v _ => exact ⟨rfl, .head _, iff_of_true rfl rfl, (slotView_setSlot t _ v _).trans ht⟩

end Sys2Proof.Laws

namespace Sys2Proof.Claims

open Sys2Proof.Machine Sys2Proof.Laws

section
variable (s : State)

/-! ### Heartbeats and quiescing (R143, R145, R149, R171) -/

theorem mhbeatWrite_spec {n : Nat} (v : Word) (hn : n < 48) : ForHart (.mhbeatWrite n v) s (mantleOf n) fun t u =>
    u = t.writeBeat v ∧ u.h.mant.mhbeat = v ∧ u.h.mant.beaten = (t.h.mant.beaten || v != 0) ∧ u.h.x = t.h.x := by
  refine forHart_of (f := fun t => t.writeBeat v) (congrArg _ (if_pos hn)) fun t => ?_
  have hh := congrArg (·.1) (hartView_writeBeat t v)
  dsimp only [hartView] at hh
  rw [hh]
  exact ⟨rfl, rfl, rfl, rfl⟩

theorem mantleSilentReport_spec {n : Nat} (hn : n < 48) (hs : n ∉ s.pow.silent) :
    exec (.mantleSilentReport n) s = .next { s with
      pow := { s.pow with silent := s.pow.silent ++ [n] }, host := { s.host with mail := s.host.mail ++ [171] } } :=
  if_pos ⟨hn, by simpa using hs⟩

theorem mantleSilentReport_again {n : Nat} (hs : n ∈ s.pow.silent) : exec (.mantleSilentReport n) s = .next s :=
  if_neg (by simp [hs])

theorem fwquiResume_spec : ∃ t, exec .fwquiResume s = .next t ∧ t.fw = { s.fw with req := false } ∧ t.mem = s.mem ∧
    ∀ h ∈ t.harts, h.mant.stopped = false := by
  have hv : blockView s.unquiesce = _ := blockView_resumeQueues _
  simp only [blockView, Prod.mk.injEq, State.mapHarts_harts] at hv
  obtain ⟨hfw, hmem, hharts, -⟩ := hv
  refine ⟨_, rfl, hfw, hmem, fun h hh => ?_⟩
  obtain ⟨g, -, rfl⟩ := List.mem_map.1 (hharts ▸ hh)
  rfl

theorem mantlePacketBoundaryStop_spec {n : Nat} (hr : s.fw.req = true) (hn : n < 48) :
    ∃ t, exec (.mantlePacketBoundaryStop n) s = .next t ∧ t = { s with h := t.h, others := t.others } ∧
      t.harts = s.harts.map fun h => if h.id = mantleOf n then { h with mant := { h.mant with stopped := true } } else h :=
  ⟨_, if_pos (by simp [hr, hn]), rfl, rfl⟩

/-! ### Commands (R145 to R147) -/

theorem fwcmdInstall_accepted (hb : s.fw.busy = false)
    (hs : s.fw.state ∈ [0, 2, 3, 5, 0x81, 0x82] ∨ (s.fw.state = 6 ∧ s.fw.arm = false)) :
    exec .fwcmdInstall s = .next { s with fw := { s.fw with busy := true, cmd := 1 } } :=
  congrArg _ (if_pos (by simp [hb, (takesInstall_iff _).2 hs]))

theorem fwcmdInstall_ignored
    (h : s.fw.busy = true ∨ ¬(s.fw.state ∈ [0, 2, 3, 5, 0x81, 0x82] ∨ (s.fw.state = 6 ∧ s.fw.arm = false))) :
    exec .fwcmdInstall s = .next s.cmdIgnored := by
  rw [← takesInstall_iff] at h
  exact congrArg _ (if_neg (by rcases h with h | h <;> simp [h]))

theorem fwcmdMeasure_accepted (hb : s.fw.busy = false) (hs : s.fw.state = 2) :
    exec .fwcmdMeasure s = .next { s with fw := { s.fw with busy := true, cmd := 2 } } :=
  congrArg _ (if_pos (by simp [hb, hs]))

theorem fwcmdMeasure_ignored (h : s.fw.busy = true ∨ s.fw.state ≠ 2) : exec .fwcmdMeasure s = .next s.cmdIgnored :=
  congrArg _ (if_neg (by rcases h with h | h <;> simp [h]))

theorem fwcmdIgnored_spec {v : Word} (hv : v.toNat ∉ [1, 2, 3]) : exec (.fwcmdIgnored v) s = .next s.cmdIgnored := by
  rw [exec_fwcmdIgnored, execFwcmdIgnored]
  split
  · exact absurd (by simp [*]) hv
  · exact absurd (by simp [*]) hv
  · exact absurd (by simp [*]) hv
  · rfl

theorem installComplete_busy (hb : s.fw.busy = true) (hc : s.fw.cmd = 1) (hw : s.installBusy = true) :
    exec .installComplete s = .next s := by
  rw [exec_installComplete, execInstallComplete, if_pos (by simp [hb, hc]), State.installDone, if_pos hw]

theorem installComplete_spec (hb : s.fw.busy = true) (hc : s.fw.cmd = 1) (hw : s.installBusy = false) :
    ∃ t, exec .installComplete s = .next t ∧ t.fw.busy = false ∧ t.fw.state ∈ [2, 0x81, 0x82] ∧
      (t.fw.ver = true ↔ t.fw.state = 2) ∧ t.fw.slot = s.fw.slot ∧ t.fw.meas = s.fw.meas := by
  obtain ⟨hbusy, hstate, hver, hslot⟩ := installed_installDone hw
  exact ⟨s.installDone, congrArg _ (if_pos (by simp [hb, hc])), hbusy, hstate, hver, congrArg (·.1) hslot, congrArg (·.2) hslot⟩

theorem measureComplete_spec (hb : s.fw.busy = true) (hc : s.fw.cmd = 2) :
    ∃ t, exec .measureComplete s = .next t ∧ t.fw.busy = false ∧ t.fw.state = 3 ∧ t.mem = s.mem ∧ t.h = s.h ∧
      (s.fw.logStop = false → s.fw.log.length < 4096 → ∃ e : LogEnt, t.fw.log = s.fw.log ++ [e] ∧
        e.index = s.fw.log.length ∧ e.event = 1 ∧ e.slot = 1 - s.fw.slot ∧ e.reg = 2 ∧
        e.digest = sha384 (s.fw.image (1 - s.fw.slot)) ∧
        t.fw.meas = s.fw.meas.set 2 (sha384 (digestBytes (s.fw.meas.getD 2 0) ++ digestBytes e.digest))) := by
  have hexec : exec .measureComplete s = .next s.measureDone := congrArg _ (if_pos (by simp [hb, hc]))
  refine ⟨_, hexec, rfl, rfl, ?_, ?_, fun hs hl => ?_⟩
  · rw [State.measureDone, extendMeas_eq]
  · rw [State.measureDone, extendMeas_eq]
  · rw [State.measureDone, extendMeas_of_room hs hl]
    exact ⟨_, rfl, rfl, rfl, rfl, rfl, rfl, rfl⟩

/-! ### The switch and the heartbeat window (R145, R148) -/

theorem fwcmdSwitch_accepted (h : s.fw.busy = false ∧ s.fw.state = 3 ∧ s.quiesced = true) :
    ∃ t, exec .fwcmdSwitch s = .next t ∧
      t.fw = { s.fw with slot := 1 - s.fw.slot, ver := false, rb := false, arm := true, state := 4 } ∧
      Restarted s t (1 - s.fw.slot) ∧ t.mem = s.mem := by
  obtain ⟨hb, hs, hq⟩ := h
  exact ⟨s.switchSlot, congrArg _ (if_pos (by simp [hb, hs, hq])), rfl, restarted_resetMantles rfl rfl rfl _, rfl⟩

theorem fwcmdSwitch_ignored (h : ¬(s.fw.busy = false ∧ s.fw.state = 3 ∧ s.quiesced = true)) :
    exec .fwcmdSwitch s = .next s.cmdIgnored :=
  congrArg _ (if_neg (by simpa [and_assoc] using h))

theorem heartbeatWindowExpire_closed (h : s.fw.arm = false) : exec .heartbeatWindowExpire s = .next s :=
  congrArg _ (if_pos (by simp [h]))

/-- A window that expires from ARMED rolls back to the other slot. -/
theorem heartbeatWindowExpire_armed (ha : s.fw.arm = true) (hs : s.fw.state = 4) :
    ∃ t, exec .heartbeatWindowExpire s = .next t ∧ t.fw.state = 6 ∧ t.fw.rb = true ∧ t.fw.arm = true ∧
      t.fw.slot = 1 - s.fw.slot ∧ Restarted s t (1 - s.fw.slot) := by
  rw [exec_heartbeatWindowExpire, execHeartbeatWindowExpire, State.windowExpire, if_neg (by simp [ha]), if_pos hs]
  dsimp only
  rw [extendMeas_eq]
  exact ⟨_, rfl, rfl, rfl, rfl, rfl, restarted_resetMantles rfl rfl rfl _⟩

/-- A window that expires from another state ends every Mantle. -/
theorem heartbeatWindowExpire_again (ha : s.fw.arm = true) (hs : s.fw.state ≠ 4) :
    ∃ t, exec .heartbeatWindowExpire s = .next t ∧ t.fw.state = 0x85 ∧ t.fw.arm = false ∧
      t.host.mail = s.host.mail ++ [145] ∧ ∀ h ∈ t.harts, h.isMantle = true → h.status = .ended := by
  have hv := blockView_windowExpire_again ha hs
  simp only [blockView, Prod.mk.injEq] at hv
  obtain ⟨hfw, -, hharts, hmail⟩ := hv
  refine ⟨_, rfl, congrArg Fw.state hfw, congrArg Fw.arm hfw, hmail, fun h hh hm => ?_⟩
  obtain ⟨g, -, rfl⟩ := List.mem_map.1 (hharts ▸ hh)
  exact status_mantleEnded hm

end

/-- Settles O53, an event at a time: the heartbeats, what FWQUI does, the commands and their completion, and the window. -/
theorem firmwareBlock : Obligations.FirmwareBlock := fun s _ v =>
  ⟨mhbeatWrite_spec s v, mantleSilentReport_spec s, mantleSilentReport_again s, rfl, fwquiResume_spec s,
    mantlePacketBoundaryStop_spec s, fwcmdInstall_accepted s, fwcmdInstall_ignored s, fwcmdMeasure_accepted s,
    fwcmdMeasure_ignored s, fwcmdSwitch_accepted s, fwcmdSwitch_ignored s, fwcmdIgnored_spec s, rfl, installComplete_busy s,
    installComplete_spec s, measureComplete_spec s, heartbeatWindowExpire_closed s, heartbeatWindowExpire_armed s,
    heartbeatWindowExpire_again s⟩

end Sys2Proof.Claims
end

section
/-! PROOF. Taking a trap (R170, R408 to R410, R436): O14. -/

namespace Sys2Proof.Laws

open Sys2Proof.Machine Sys2Proof.Claims

/-! ### The fields of tstatus and tcause at a trap (R406, R407) -/

/-- The fields of the status word that a trap leaves: IE is 0 and PIE holds the IE before it. -/
theorem fields_entryStatus {pm : Nat} (hpm : pm < 4) (ie ch pp : Bool) :
    let v := w64 (pm + b2n ie * 16 + b2n ch * 32 + b2n pp * 64)
    field v 0 2 = pm ∧ flag v 3 = false ∧ flag v 4 = ie ∧ flag v 5 = ch ∧ flag v 6 = pp := by
  have hv : (w64 (pm + b2n ie * 16 + b2n ch * 32 + b2n pp * 64)).toNat = pm + b2n ie * 16 + b2n ch * 32 + b2n pp * 64 := by
    refine Nat.mod_eq_of_lt ?_
    cases ie <;> cases ch <;> cases pp <;> simp [b2n] <;> omega
  simp only [flag, field, BitVec.getLsbD, hv, Nat.testBit_eq_decide_div_mod_eq]
  cases ie <;> cases ch <;> cases pp <;> simp [b2n] <;> omega

theorem code_lt (md : Mode) : md.code < 4 := by cases md <;> decide

theorem cause_eq (t : TrapInfo) : t.cause = .ofNat 64 ((if t.intr then 2 ^ 63 else 0) + (if t.viol then 2 ^ 16 else 0) +
    t.orig % 256 * 256 + t.code % 256) := by
  cases hi : t.intr <;> cases hv : t.viol <;> simp [TrapInfo.cause, w64, b2n, hi, hv]

/-! ### Entering the handler (R408) -/

theorem entered_enter (h : Hart) (t : TrapInfo) : Entered h t (h.enter t) := by
  obtain ⟨hpm, hie, hpie, hch, hpp⟩ := fields_entryStatus (code_lt h.mode) (flag h.trap.tstatus 3) (!h.window.isEmpty) h.trap.pfxLive
  refine ⟨?_, cause_eq t, rfl, ?_, hie, hpie, hch, hpp, rfl, rfl, rfl, rfl, fun hw => ?_, fun e rest hw => ?_, rfl, rfl, ?_⟩
  · unfold Hart.stopPc Hart.enter
    cases h.pending <;> rfl
  · rw [show field (h.enter t).trap.tstatus 0 2 = h.mode.code from hpm]
    cases h.mode <;> rfl
  · simp [Hart.enter, Hart.pending, hw]
  · simp [Hart.enter, Hart.pending, hw, w64]
  · simp

/-! ### Who takes a trap (R149, R170, R410) -/

section
variable {s : State} {t : TrapInfo}

/-- The handler is entered where no handler of the same cause is still to retire its first instruction. -/
theorem deliver_of_enters (h : s.h.lc.launch = none ∨ s.h.trap.fresh ≠ some t.key) :
    s.deliver t = { s with h := s.h.enter t } := by
  unfold State.deliver
  split
  · rename_i l hl
    exact if_neg (h.resolve_left (by simp [hl]))
  · rfl

/-- A second trap of a cause ends the launch, once the queues run. -/
theorem deliver_of_fresh {l : Nat} (hl : s.h.lc.launch = some l) (hf : s.h.trap.fresh = some t.key) :
    s.deliver t = if s.queuesRun then s.endLaunch l 8 else s := by
  simp [State.deliver, hl, hf]

theorem takeTrap_of_claim_zero (h : s.h.claim t = 0) : s.takeTrap t = s.deliver t := by
  simp [State.takeTrap, h]

end

end Sys2Proof.Laws

namespace Sys2Proof.Claims

open Sys2Proof.Machine Sys2Proof.Laws

/-- A trap that the host does not claim enters the handler, with a record for the host or without. -/
theorem handlerEntered (s : State) (t : TrapInfo) (hc : s.h.claim t ≠ 1)
    (hf : s.h.lc.launch = none ∨ s.h.trap.fresh ≠ some t.key) :
    Entered s.h t (s.takeTrap t).h ∧ (∀ a, (s.takeTrap t).mem.get a = s.mem.get a) ∧
      (s.takeTrap t).others = s.others ∧ (s.takeTrap t).h.trap.fresh = some t.key := by
  rcases s.takeTrap_cases t with ⟨h1, -⟩ | ⟨-, h⟩ | ⟨-, -, h⟩
  · exact absurd h1 hc
  · rw [h, deliver_of_enters (s := s.addRecord t 3) hf]
    exact ⟨entered_enter s.h t, fun _ => rfl, rfl, rfl⟩
  · rw [h, deliver_of_enters hf]
    exact ⟨entered_enter s.h t, fun _ => rfl, rfl, rfl⟩

theorem hostClaims (s : State) (t : TrapInfo) (hc : s.h.claim t = 1) :
    ∃ r : FaultRec, r.tval = t.tval ∧ r.code = t.code ∧ r.kind = 1 ∧ r.tepc = s.h.stopPc ∧
      (s.takeTrap t).host.recs = s.host.recs ++ [r] ∧ (s.takeTrap t).h.status = .hostFault r.token t ∧
      (s.takeTrap t).h.x = s.h.x ∧ (s.takeTrap t).h.pc = s.h.pc ∧ (s.takeTrap t).mem = s.mem := by
  simp only [State.takeTrap, hc]
  exact ⟨_, rfl, rfl, rfl, rfl, rfl, rfl, rfl, rfl, rfl⟩

theorem trapTaken : TrapTaken := by
  refine fun s t => ⟨handlerEntered s t, fun l h0 hl hf => ?_, hostClaims s t⟩
  rw [takeTrap_of_claim_zero h0, deliver_of_fresh hl hf]
  by_cases hr : s.fw.req = true ∨ s.fw.arm = true
  · rw [if_pos hr, State.queuesRun_eq_false.mpr hr, if_neg (by simp)]
  · have hrun : s.queuesRun = true := by simpa [← State.queuesRun_eq_false] using hr
    rw [if_neg hr, hrun, if_pos rfl]

theorem trapClaims : TrapClaims := by
  refine fun h t _ => ⟨fun hm hi => ?_, fun hm hi => ?_, fun hm => ?_, fun hm => ?_⟩
  · simp [Hart.claim, field, hm, hi]
  · simp [Hart.claim, field, hm, hi]
  · simp [Hart.claim, field, hm]
  · simp [Hart.claim, hm]

/-- Settles O14: what a trap saves, where the hart goes on, and who takes it. -/
theorem trapEntry : Obligations.TrapEntry := ⟨trapTaken, trapClaims⟩

end Sys2Proof.Claims
end

section
/-! PROOF. The watermarks (R167, R383, R384): O21. -/

namespace Sys2Proof.Laws

open Sys2Proof.Machine Sys2Proof.Claims

/-! ### The list of watermarks (R167) -/

/-- A watermark put into the list is found under its number, and the others are found as before. -/
theorem find?_putWm (w : Wm) (n : Nat) (ws : List Wm) :
    (putWm w ws).find? (fun v => v.num == n) = if w.num = n then some w else ws.find? fun v => v.num == n := by
  induction ws with
  | nil => by_cases h : w.num = n <;> simp [putWm, h]
  | cons v vs ih =>
    by_cases h : w.num = n
    · subst h
      rw [if_pos rfl] at ih ⊢
      unfold putWm
      split
      · simp
      · split
        · simp
        · rw [List.find?_cons_of_neg (by simpa using Ne.symm ‹¬w.num = v.num›), ih]
    · rw [if_neg h] at ih ⊢
      unfold putWm
      split
      · simp [h]
      · split
        · simp [h, ← ‹w.num = v.num›]
        · rw [List.find?_cons, List.find?_cons, ih]

theorem wm?_setWm (s : State) (w : Wm) (n : Nat) : (s.setWm w).wm? n = if w.num = n then some w else s.wm? n :=
  find?_putWm w n s.sched.wms

theorem num_of_wm? {s : State} {n : Nat} {w : Wm} (h : s.wm? n = some w) : w.num = n := by
  simpa using List.find?_some h

/-- A watermark taken out of the list is found no more, and the others are found as before. -/
theorem find?_filter_num (ws : List Wm) (n m : Nat) : (ws.filter fun w => w.num != n).find? (fun w => w.num == m) =
    if m = n then none else ws.find? fun w => w.num == m := by
  rw [List.find?_filter]
  by_cases h : m = n
  · simp [h]
  · rw [if_neg h]
    congr 1
    funext w
    by_cases hw : w.num = m <;> simp [hw, h]

theorem publish_of_wm? {s : State} {n : Nat} {w : Wm} (h : s.wm? n = some w) (v : Nat) :
    s.publish n v = s.setWm (w.publish v) := by simp [State.publish, h]

/-! ### WMBIND (R383) -/

section
variable {s : State} {a b : Fin 32}

theorem execWmbind_release (hm : s.h.mode = .s) (hb : s.x b = 0) : execWmbind a b s = .next
    { s with sched := { s.sched with wms := s.sched.wms.filter fun w => w.num != (s.x a).toNat } }.finish :=
  if_pos ⟨hm, hb⟩

theorem execWmbind_denied (hr : ¬(s.h.mode = .s ∧ s.x b = 0))
    (h : 4096 ≤ (s.x a).toNat ∨ s.wmForeign (s.x a).toNat = true) :
    execWmbind a b s = .next (s.takeTrap (.sync 3 (s.x a))) := by
  unfold execWmbind
  rw [if_neg hr, if_pos h]
  rfl

theorem execWmbind_misaligned (hr : ¬(s.h.mode = .s ∧ s.x b = 0))
    (h : ¬(4096 ≤ (s.x a).toNat ∨ s.wmForeign (s.x a).toNat = true)) (hal : (s.x b).toNat % 8 ≠ 0) :
    execWmbind a b s = .next (s.takeTrap (.sync 1 (s.x b))) := by
  unfold execWmbind
  rw [if_neg hr, if_neg h, if_pos hal]
  rfl

/-- WMBIND past its checks binds what the record's two words say, unless the limit lies below the base. -/
theorem execWmbind_bound (hr : ¬(s.h.mode = .s ∧ s.x b = 0))
    (h : ¬(4096 ≤ (s.x a).toNat ∨ s.wmForeign (s.x a).toNat = true)) (hal : (s.x b).toNat % 8 = 0) :
    execWmbind a b s = Res.done ((s.scalarLoad (s.x b) 8 .thru).bind fun base t =>
      (t.scalarLoad (s.x b + 8) 8 .thru).bind fun limit u =>
        if limit < base then .stop (.trap (pagePermission (s.x a))) u else .ok (base, limit) u) fun bl t =>
      (t.setWm { num := (s.x a).toNat, base := bl.1, limit := bl.2, value := 0, owner := t.h.asid }).finish := by
  unfold execWmbind
  rw [if_neg hr, if_neg h, if_neg (by simpa using hal)]
  rfl

/-! ### WMPUB and WMREAD (R384) -/

theorem wmMine_of_owner {n : Nat} {w : Wm} (hn : n < 4096) (hw : s.wm? n = some w) (ho : w.owner = s.h.asid) :
    s.wmMine n = true := by simp [State.wmMine, hn, hw, ho]

theorem wmMine_of_denied {n : Nat} (h : 4096 ≤ n ∨ s.wmForeign n = true ∨ s.wm? n = none) : s.wmMine n = false := by
  rcases h with h | h | h
  · simp [State.wmMine, Nat.not_lt.mpr h]
  · cases hw : s.wm? n with
    | none => simp [State.wmForeign, hw] at h
    | some w => simp [State.wmForeign, State.wmMine, hw] at h ⊢; exact fun _ => h
  · simp [State.wmMine, h]

end

end Sys2Proof.Laws

namespace Sys2Proof.Claims

open Sys2Proof.Machine Sys2Proof.Laws

section
variable (s : State) (d a b : Fin 32)

theorem wmbind_releases (hm : s.h.mode = .s) (hb : s.x b = 0) : ∃ t, exec (.wmbind a b) s = .next t ∧
    t.wm? (s.x a).toNat = none ∧ (∀ m, m ≠ (s.x a).toNat → t.wm? m = s.wm? m) ∧ t.h.x = s.h.x ∧ t.mem = s.mem := by
  refine ⟨_, execWmbind_release hm hb, ?_, fun m hm => ?_, rfl, rfl⟩
  · exact (find?_filter_num s.sched.wms _ _).trans (if_pos rfl)
  · exact (find?_filter_num s.sched.wms _ m).trans (if_neg hm)

/-- The record's two words decide what WMBIND past its checks does. -/
theorem wmbind_binds (hr : ¬(s.h.mode = .s ∧ s.x b = 0))
    (hp : ¬(4096 ≤ (s.x a).toNat ∨ s.wmForeign (s.x a).toNat = true)) (hal : (s.x b).toNat % 8 = 0) :
    (∀ e t, s.scalarLoad (s.x b) 8 .thru = .stop e t → exec (.wmbind a b) s = .next (t.stopWith e)) ∧
    (∀ base t limit u, s.scalarLoad (s.x b) 8 .thru = .ok base t → t.scalarLoad (s.x b + 8) 8 .thru = .ok limit u →
      (limit < base → exec (.wmbind a b) s = .next (u.takeTrap (.sync 3 (s.x a)))) ∧
      (base ≤ limit → ∃ v, exec (.wmbind a b) s = .next v ∧
        v.wm? (s.x a).toNat = some { num := (s.x a).toNat, base := base, limit := limit, value := 0, owner := u.h.asid } ∧
        v.h.x = u.h.x ∧ v.mem = u.mem)) := by
  rw [exec_wmbind, execWmbind_bound hr hp hal]
  refine ⟨fun e t h => ?_, fun base t limit u h1 h2 => ?_⟩
  · rw [h]
    rfl
  · rw [h1]
    simp only [Res.bind, h2]
    refine ⟨fun hl => ?_, fun hl => ?_⟩
    · rw [if_pos hl]
      rfl
    · rw [if_neg (Nat.not_lt.mpr hl)]
      exact ⟨_, rfl, (wm?_setWm u _ _).trans (if_pos rfl), rfl, rfl⟩

theorem wmpub_publishes (hmine : s.wmMine (s.x a).toNat = true) :
    let k : State := { s with h := s.h.pinOps }
    (∀ t, k.releaseRes = .ok () t → exec (.wmpub a b) s = .next (t.publish (s.x a).toNat (t.x b).toNat).finish) ∧
    (∀ e t, k.releaseRes = .stop e t → exec (.wmpub a b) s = .next (t.stopWith e)) :=
  ⟨fun t h => by simp [execWmpub, hmine, h], fun e t h => by simp [execWmpub, hmine, h]⟩

theorem wmread_reads {w : Wm} (hmine : s.wmMine (s.x a).toNat = true) (hw : s.wm? (s.x a).toNat = some w) :
    Gives (.wmread d a) s d (.ofNat 64 w.value) :=
  gives_of_finishWr (v := w64 w.value) (by simp [execWmread, hmine, hw]) rfl

theorem wm_denied (hmine : s.wmMine (s.x a).toNat = false) : exec (.wmpub a b) s = .next (s.takeTrap (.sync 3 (s.x a))) ∧
    exec (.wmread d a) s = .next (s.takeTrap (.sync 3 (s.x a))) := by
  simp [execWmpub, execWmread, hmine, State.trap, pagePermission]

end

theorem watermarkMembers : WatermarkMembers := by
  intro s d a b n asid foreign deny
  have hforeign : foreign = s.wmForeign n := rfl
  refine ⟨wmbind_releases s a b, fun hr h => ?_, fun hn hf hr => ?_, fun w hn hw ho => ?_, fun h => ?_⟩
  · exact execWmbind_denied hr h
  · have hr : ¬(s.h.mode = .s ∧ s.x b = 0) := by tauto
    have hp : ¬(4096 ≤ n ∨ s.wmForeign n = true) := by rw [← hforeign, hf]; simpa using hn
    exact ⟨execWmbind_misaligned hr hp, wmbind_binds s a b hr hp⟩
  · have hmine : s.wmMine n = true := wmMine_of_owner hn hw ho
    obtain ⟨hok, hstop⟩ := wmpub_publishes s a b hmine
    exact ⟨hok, hstop, wmread_reads s d a hmine hw⟩
  · exact wm_denied s d a b (wmMine_of_denied h)

theorem publishRaises : PublishRaises := by
  intro s n v w hw
  have hnum : (w.publish v).num = n := (num_of_wm? hw :)
  rw [publish_of_wm? hw]
  refine ⟨⟨w.publish v, ?_, rfl, rfl, rfl, rfl⟩, fun m hm => ?_⟩
  · rw [wm?_setWm, if_pos hnum]
  · rw [wm?_setWm, if_neg (by rw [hnum]; exact hm.symm)]

/-- Settles O21: the watermark members by the order of their checks, and a publish by the list of watermarks. -/
theorem watermarks : Obligations.Watermarks := ⟨watermarkMembers, publishRaises⟩

end Sys2Proof.Claims
end

section
/-! PROOF. What requests at the homes leave as it is beside the firmware block: every register of every hart, the scheduler,
the Yokes and the draws (R121 to R137). -/

namespace Sys2Proof.Laws

open Sys2Proof.Machine

/-- The machine but for what requests at the homes change: memory, caches and homes, and what the host, the links and the
power logic count. -/
def offHomes (s : State) : State :=
  { s with mem := State.reset.mem, coh := State.reset.coh, host := State.reset.host, link := State.reset.link,
           pow := State.reset.pow }

theorem h_of_offHomes {s t : State} (h : offHomes t = offHomes s) : t.h = s.h := (congrArg State.h h :)

theorem others_of_offHomes {s t : State} (h : offHomes t = offHomes s) : t.others = s.others := (congrArg State.others h :)

theorem sched_of_offHomes {s t : State} (h : offHomes t = offHomes s) : t.sched = s.sched := (congrArg State.sched h :)

theorem offHomes_ite {c : Prop} [Decidable c] {s t u : State} (ht : offHomes t = offHomes s) (hu : offHomes u = offHomes s) :
    offHomes (if c then t else u) = offHomes s := by
  split
  · exact ht
  · exact hu

/-! ### Words in the L1s and at the homes -/

@[simp] theorem offHomes_setL1 (s : State) (core a : Nat) (w : L1Word) : offHomes (s.setL1 core a w) = offHomes s := rfl

@[simp] theorem offHomes_setSeam (s : State) (a : Nat) (x : Option Seam) : offHomes (s.setSeam a x) = offHomes s := rfl

@[simp] theorem offHomes_putHome (s : State) (a : Nat) (v : Word) (b : Bool) : offHomes (s.putHome a v b) = offHomes s := rfl

@[simp] theorem offHomes_setMem (s : State) (a : Nat) (v : Word) : offHomes (s.setMem a v) = offHomes s := rfl

@[simp] theorem offHomes_setBad (s : State) (a : Nat) (b : Bool) : offHomes (s.setBad a b) = offHomes s := rfl

@[simp] theorem offHomes_toSharers (s : State) (a : Nat) (cs ds : List Nat) (c : Option Nat) (f : L1Word → L1Word) :
    offHomes (s.toSharers a cs ds c f) = offHomes s := rfl

@[simp] theorem offHomes_correct (s : State) (b : Bool) (core a : Nat) : offHomes (s.correct b core a) = offHomes s := by
  unfold State.correct
  exact offHomes_ite rfl rfl

@[simp] theorem offHomes_correctL1 (s : State) (core a : Nat) : offHomes (s.correctL1 core a) = offHomes s := by
  unfold State.correctL1
  split
  · exact offHomes_correct s true core a
  · rfl

@[simp] theorem offHomes_mergeHome (s : State) (a : Nat) (m : BitVec 8) (v : Word) :
    offHomes (s.mergeHome a m v) = offHomes s := by
  unfold State.mergeHome
  split
  · rfl
  · split <;> rfl

@[simp] theorem offHomes_recall (s : State) (a : Nat) : offHomes (s.recall a) = offHomes s := by
  unfold State.recall
  split <;> simp

@[simp] theorem offHomes_invalidate (s : State) (a : Nat) (c : Option Nat) : offHomes (s.invalidate a c) = offHomes s := by
  unfold State.invalidate
  split <;> rfl

@[simp] theorem offHomes_toU (s : State) (a : Nat) : offHomes (s.toU a) = offHomes s := by simp [State.toU]

@[simp] theorem offHomes_accept (s : State) (r : Reply) : offHomes (s.accept r) = offHomes s := by
  unfold State.accept
  split
  · rfl
  · dsimp only
    split
    case h_3 => rfl
    case h_6 => rfl
    all_goals split <;> rfl

/-! ### What a request does on its way to its home -/

@[simp] theorem offHomes_touchSlice (s : State) (a : Nat) : offHomes (s.touchSlice a) = offHomes s := by
  have hvictim (v : Nat) : offHomes ((lineWords v).foldl State.toU
      ((s.coh.reps.filter fun r => r.req.addr / 128 == v).foldl State.accept s)) = offHomes s := by
    rw [foldl_keeps offHomes offHomes_toU, foldl_keeps offHomes offHomes_accept]
  unfold State.touchSlice
  dsimp only
  split
  · split
    · rfl
    · split
      · rfl
      · split
        · rfl
        · split
          · rename_i v _
            have ht := hvictim v
            generalize (lineWords v).foldl State.toU _ = t at ht ⊢
            exact ht
          · rfl
  · rfl

@[simp] theorem offHomes_takeHostLine (s : State) (a : Nat) : offHomes (s.takeHostLine a) = offHomes s := by
  unfold State.takeHostLine
  split <;> rfl

@[simp] theorem offHomes_countHost (s : State) (a : Nat) : offHomes (s.countHost a) = offHomes s := by
  unfold State.countHost
  exact offHomes_ite (offHomes_ite rfl rfl) rfl

@[simp] theorem offHomes_sendFlit (s : State) (a : Nat) : offHomes (s.sendFlit a) = offHomes s := by
  unfold State.sendFlit
  split
  · split <;> rfl
  · rfl

@[simp] theorem offHomes_portRoom (s : State) (r : Req) : offHomes (s.portRoom r) = offHomes s := by
  unfold State.portRoom
  split
  · split
    · dsimp only
      split
      · split
        · exact offHomes_recall ..
        · rfl
      · rfl
    · rfl
  · rfl

@[simp] theorem offHomes_noteLookup (s : State) (r : Req) : offHomes (s.noteLookup r) = offHomes s := by
  unfold State.noteLookup
  split
  · dsimp only
    split <;> rfl
  · rfl

@[simp] theorem offHomes_reach (s : State) (r : Req) : offHomes (s.reach r) = offHomes s := by
  unfold State.reach
  dsimp only
  split <;> simp

/-! ### What the home answers (R128) -/

@[simp] theorem offHomes_answer (s : State) (a : Nat) : offHomes (s.answer a).s = offHomes s := rfl

@[simp] theorem offHomes_detect (s : State) (a : Nat) : offHomes (s.detect a) = offHomes s := by
  unfold State.detect
  dsimp only
  split <;> rfl

@[simp] theorem offHomes_countWrite (s : State) (c : Option Nat) (a : Nat) : offHomes (s.countWrite c a) = offHomes s := by
  unfold State.countWrite
  split
  · dsimp only
    split
    · split <;> rfl
    · rfl
  · rfl

@[simp] theorem offHomes_serveLost (s : State) (r : Req) : offHomes (s.serveLost r).s = offHomes s := by
  unfold State.serveLost
  split <;> rfl

@[simp] theorem offHomes_serveRead (s : State) (r : Req) : offHomes (s.serveRead r).s = offHomes s := by
  unfold State.serveRead
  dsimp only
  split
  · rfl
  · split <;> split <;> simp

@[simp] theorem offHomes_serveWrite (s : State) (r : Req) : offHomes (s.serveWrite r).s = offHomes s := by
  have hmerge (t : State) : offHomes (if r.bad then t.putHome r.addr r.data true else t.mergeHome r.addr r.mask r.data) =
      offHomes t := by split <;> simp
  unfold State.serveWrite
  dsimp only
  split
  · rfl
  · split <;> dsimp only [State.answer] <;> split <;> simp [hmerge]

@[simp] theorem offHomes_serveFar (s : State) (r : Req) : offHomes (s.serveFar r).s = offHomes s := by
  unfold State.serveFar
  dsimp only
  split <;> split <;> simp

@[simp] theorem offHomes_serveEvict (s : State) (r : Req) : offHomes (s.serveEvict r).s = offHomes s := by
  unfold State.serveEvict
  dsimp only
  split
  · rfl
  · split <;> rfl
  · split <;> rfl
  · rfl

@[simp] theorem offHomes_serve (s : State) (r : Req) : offHomes (s.serve r).s = offHomes s := by
  have hcounted {x : Ans} (hx : offHomes x.s = offHomes s) :
      offHomes (let t := if x.bad then x.s.detect r.addr else x.s
        if x.wrote then t.countWrite r.core r.addr else t) = offHomes s := by
    dsimp only
    split <;> split <;> simp [hx]
  unfold State.serve
  split
  · exact offHomes_serveLost s r
  · refine hcounted ?_
    split <;> simp

@[simp] theorem offHomes_homeWrite (s : State) (a : Nat) (m : BitVec 8) (v : Word) :
    offHomes (s.homeWrite a m v) = offHomes s := offHomes_serve ..

/-! ### A release (R68) -/

@[simp] theorem offHomes_send (s : State) (r : Req) : offHomes (s.send r) = offHomes s := by
  unfold State.send
  split
  · rfl
  · split
    · rfl
    · exact offHomes_serve s r

@[simp] theorem offHomes_drainWord (s : State) (core a : Nat) : offHomes (s.drainWord core a) = offHomes s := by
  unfold State.drainWord
  dsimp only
  split
  · rfl
  · split <;> simp

@[simp] theorem offHomes_release (s : State) (core : Nat) : offHomes (s.release core) = offHomes s :=
  foldl_keeps offHomes (fun t a => offHomes_drainWord t core a) _ _

end Sys2Proof.Laws
end

section
/-! PROOF. The host services faults (R149, R169, R405, R436): O50. -/

namespace Sys2Proof.Laws

open Sys2Proof.Machine Sys2Proof.Claims

/-- Words written to host memory change no hart. -/
theorem offHomes_hostWrites (vs : List Word) (s : State) (pa : Nat) : offHomes (s.hostWrites pa vs) = offHomes s := by
  induction vs generalizing s pa with
  | nil => rfl
  | cons v vs ih => exact (ih _ _).trans (offHomes_homeWrite ..)

/-! ### A record for the host (R436) -/

section
variable {s : State} {r : FaultRec} {rest : List FaultRec}

/-- The ring has room for a record, no word of whose entry is busy. -/
def EntryFree (s : State) : Prop :=
  s.host.fqtail - s.host.fqhead.toNat < s.host.fqEntries ∧
  s.rangeBusy (hostPa (s.host.fqbase.toNat + 32 * (s.host.fqtail % s.host.fqEntries))) 32 = none

theorem execFaultRecordWrite_of_free (hr : s.host.recs = r :: rest) (h : EntryFree s) : execFaultRecordWrite s =
    .next (let t := s.hostWrites (hostPa (s.host.fqbase.toNat + 32 * (s.host.fqtail % s.host.fqEntries))) r.words
      { t with host := { t.host with recs := rest, fqtail := s.host.fqtail + 1 } }) := by
  unfold execFaultRecordWrite
  rw [hr]
  exact if_pos ⟨h.1, by rw [h.2]; rfl⟩

theorem execFaultRecordWrite_of_not_free (h : s.host.recs = [] ∨ ¬EntryFree s) : execFaultRecordWrite s = .next s := by
  unfold execFaultRecordWrite
  split
  · rfl
  · rename_i hr
    refine if_neg fun hc => h.resolve_left (by simp [hr]) ⟨hc.1, ?_⟩
    simpa using hc.2

end

/-! ### The host's answers (R149, R436) -/

section
variable {s : State} {token : Nat}

theorem respond_of_none (h : s.waiter token = none) (f : TrapInfo → State → State) : s.respond token f = s := by
  simp [State.respond, h]

theorem respond_of_some {id : Nat} {i : TrapInfo} (h : s.waiter token = some (id, i)) (f : TrapInfo → State → State) :
    s.respond token f = (s.dropTimer token).onHart id (f i) := by simp [State.respond, h]

/-- No answer is held that ends no launch, and none while the queues run. -/
theorem holdsEnd_eq_false (ends : Hart → TrapInfo → Bool)
    (h : s.queuesRun = true ∨ s.waiter token = none ∨
      ∃ id i g, s.waiter token = some (id, i) ∧ s.hart? id = some g ∧ ends g i = false) : s.holdsEnd token ends = false := by
  rcases h with h | h | ⟨id, i, g, hw, hg, he⟩
  · simp [State.holdsEnd, h]
  · simp [State.holdsEnd, h]
  · simp [State.holdsEnd, hw, hg, he]

/-- An answer that ends a launch is held while the queues are stopped. -/
theorem holdsEnd_eq_true {ends : Hart → TrapInfo → Bool} {id : Nat} {i : TrapInfo} {g : Hart} (hr : s.queuesRun = false)
    (hw : s.waiter token = some (id, i)) (hg : s.hart? id = some g) (he : ends g i = true) :
    s.holdsEnd token ends = true := by simp [State.holdsEnd, hr, hw, hg, he]

theorem frespSupervisor_of_not_held (h : s.holdsEnd token Hart.endsBy = false) :
    s.frespSupervisor token = s.respond token fun i u => u.deliver i := by simp [State.frespSupervisor, h]

theorem frespEnd_of_not_held (h : (s.holdsEnd token fun _ _ => true) = false) :
    s.frespEnd token = s.respond token fun _ u => u.faultEnd := by simp [State.frespEnd, h]

end

end Sys2Proof.Laws

namespace Sys2Proof.Claims

open Sys2Proof.Machine Sys2Proof.Laws

section
variable {s : State} {token id : Nat} {i : TrapInfo}

theorem faultRecordWrite_spec {r : FaultRec} {rest : List FaultRec} (hr : s.host.recs = r :: rest) (h : EntryFree s) :
    ∃ t, exec .faultRecordWrite s = .next t ∧ t.host.recs = rest ∧ t.host.fqtail = s.host.fqtail + 1 ∧ t.h = s.h ∧
      t.others = s.others ∧ t.mem =
        (s.hostWrites (hostPa (s.host.fqbase.toNat + 32 * (s.host.fqtail % s.host.fqEntries))) r.words).mem := by
  have hoff := offHomes_hostWrites r.words s (hostPa (s.host.fqbase.toNat + 32 * (s.host.fqtail % s.host.fqEntries)))
  exact ⟨_, execFaultRecordWrite_of_free hr h, rfl, rfl, h_of_offHomes hoff, others_of_offHomes hoff, rfl⟩

/-- A token that no hart waits under has no effect. -/
theorem answers_of_no_waiter (h : s.waiter token = none) :
    exec (.frespReplay token) s = .next s ∧ exec (.frespToSupervisor token) s = .next s ∧
    exec (.frespEndLaunch token) s = .next s ∧ exec (.faultServiceTimeout token) s = .next s := by
  have hheld (ends) : s.holdsEnd token ends = false := holdsEnd_eq_false ends (.inr (.inl h))
  refine ⟨congrArg _ (respond_of_none h _), ?_, ?_, ?_⟩
  · rw [exec_frespToSupervisor, execFrespToSupervisor, frespSupervisor_of_not_held (hheld _), respond_of_none h]
  · rw [exec_frespEndLaunch, execFrespEndLaunch, frespEnd_of_not_held (hheld _), respond_of_none h]
  · rw [exec_faultServiceTimeout, execFaultServiceTimeout, respond_of_none h]
    exact ite_self _

theorem frespReplay_spec (h : s.waiter token = some (id, i)) :
    exec (.frespReplay token) s = .next ((s.dropTimer token).onHart id goesOn) := congrArg _ (respond_of_some h _)

theorem frespToSupervisor_spec (h : s.waiter token = some (id, i)) (hheld : s.holdsEnd token Hart.endsBy = false) :
    exec (.frespToSupervisor token) s = .next ((s.dropTimer token).onHart id fun u => u.deliver i) := by
  rw [exec_frespToSupervisor, execFrespToSupervisor, frespSupervisor_of_not_held hheld, respond_of_some h]

theorem frespEndLaunch_spec (h : s.waiter token = some (id, i)) (hr : s.queuesRun = true) :
    exec (.frespEndLaunch token) s = .next ((s.dropTimer token).onHart id State.faultEnd) := by
  rw [exec_frespEndLaunch, execFrespEndLaunch, frespEnd_of_not_held (holdsEnd_eq_false _ (.inl hr)), respond_of_some h]

/-- While the Mantles run no queue, an answer waits where it ends a launch, and only there. -/
theorem answers_while_stopped (h : s.waiter token = some (id, i)) (hr : s.queuesRun = false) {g : Hart}
    (hg : s.hart? id = some g) :
    exec (.frespEndLaunch token) s = .next (s.holdResp token 2) ∧
    (g.lc.launch ≠ none → g.trap.fresh = some i.key → exec (.frespToSupervisor token) s = .next (s.holdResp token 1)) ∧
    (g.trap.fresh ≠ some i.key →
      exec (.frespToSupervisor token) s = .next ((s.dropTimer token).onHart id fun u => u.deliver i)) := by
  refine ⟨congrArg _ (if_pos (holdsEnd_eq_true hr h hg rfl)), fun hl hf => congrArg _ (if_pos ?_), fun hf => ?_⟩
  · exact holdsEnd_eq_true hr h hg (by simp [Hart.endsBy, Option.isSome_iff_ne_none, hl, hf])
  · exact frespToSupervisor_spec h (holdsEnd_eq_false _ (.inr (.inr ⟨id, i, g, h, hg, by simp [Hart.endsBy, hf]⟩)))

theorem faultServiceTimeout_armed (h : s.fw.arm = true) : exec (.faultServiceTimeout token) s = .next s :=
  if_pos (by simp [h])

theorem faultServiceTimeout_spec (h : s.waiter token = some (id, i)) (ha : s.fw.arm = false) (hr : s.queuesRun = true)
    (ht : token ∈ s.host.timers) : exec (.faultServiceTimeout token) s = .next ((s.dropTimer token).onHart id fun u =>
      if u.h.claim i.timeout = 1 then u.faultEnd else u.takeTrap i.timeout) := by
  rw [exec_faultServiceTimeout, execFaultServiceTimeout, respond_of_some h, if_neg]
  simp [ha, ht, holdsEnd_eq_false _ (.inl hr)]

end

/-- Settles O50: the oldest record by the room in the ring, and each answer by the hart that waits under its token. -/
theorem hostFaultService : Obligations.HostFaultService := by
  intro s room entry
  refine ⟨fun r rest hr => ⟨fun hroom hbusy => faultRecordWrite_spec hr ⟨hroom, hbusy⟩, fun h => ?_⟩, fun hr => ?_,
    fun token => answers_of_no_waiter, fun token id i h => ⟨frespReplay_spec h, fun hr => ⟨?_, frespEndLaunch_spec h hr⟩,
      fun hr g => answers_while_stopped h hr, faultServiceTimeout_armed, faultServiceTimeout_spec h⟩⟩
  · exact execFaultRecordWrite_of_not_free (.inr fun hf => h.elim (· hf.1) (· hf.2))
  · exact execFaultRecordWrite_of_not_free (.inl hr)
  · exact frespToSupervisor_spec h (holdsEnd_eq_false _ (.inl hr))

end Sys2Proof.Claims
end

section
/-! PROOF. What the packets of a queue do, and what completes them (R154 to R158, R161, R281 to R283, R307, R316): O54. -/

namespace Sys2Proof.Laws

open Sys2Proof.Machine Sys2Proof.Claims

/-! ### Taking a packet (R154, R155) -/

theorem queueIdle_iff (s : State) (k : Queue) :
    s.queueIdle k = true ↔ k.waits = [] ∧ ∀ l ∈ s.sched.launches, l.q ≠ k.num := by
  simp [State.queueIdle]

/-- A packet that a queue takes is given to its kind, which may hold it back. -/
theorem takePacket_of_takes {s t : State} {q n : Nat} {k : Queue} {ws : List Word} (h : Takes s q n k ws t)
    (body : Queue → List Word → State → Option State) : s.takePacket q n body = (body k ws t).getD s := by
  obtain ⟨hq, hmay, ⟨u, hu, rfl⟩, hok, hkind, hord⟩ := h
  have hidle : ¬(flag (ws.getD 0 0) 8 && !s.queueIdle k) = true := by
    simpa using fun hf => (queueIdle_iff s k).mpr (hord hf)
  unfold State.takePacket
  simp only [hq, hu]
  rw [if_neg (by simp [hmay]), if_neg (by rw [hok]; decide), if_neg (not_not.mpr hkind), if_neg hidle]
  rfl

/-- The bytes of a packet that have to be zero. -/
theorem all_zero {ws : List Word} (h : ∀ w ∈ ws, w = 0) : (ws.all (· == 0)) = true := by simpa using h

section
variable {s u : State} {k : Queue} {ws : List Word} {ctxid part : Nat}

/-! ### LAUNCH (R156) -/

theorem takeLaunch_of_bits (h : launchOk ws = false) : s.takeLaunch ctxid part k ws = some (s.stopQueue k.num 1) := by
  simp [State.takeLaunch, h]

theorem takeLaunch_of_misaligned (h : launchOk ws = true) (hal : (ws.getD 1 0).toNat % 64 ≠ 0) :
    s.takeLaunch ctxid part k ws = some (s.stopQueue k.num 2) := by
  unfold State.takeLaunch
  dsimp only
  rw [if_neg (by simp [h]), if_pos hal]

/-- A legal LAUNCH without a done watermark adds the launch of its descriptor. -/
theorem takeLaunch_of_legal {kd : List Word} {kn : Kernel} (h : launchOk ws = true) (hal : (ws.getD 1 0).toNat % 64 = 0)
    (hf : s.fetchWords k.who (ws.getD 1 0).toNat 8 = (.ok kd, u)) (hk : kernelOf kd = some kn) (hn : kn.harts ≤ 3072)
    (hl : u.tooLarge kn.asks = false) (hb : ∀ n ∈ bindList (ws.getD 3 0), u.wmOk k n = true)
    (hd : flag (ws.getD 4 0) 15 = false) :
    s.takeLaunch ctxid part k ws = some (u.addLaunch { u.newLaunch k (ws.getD 0 0) ctxid part kd kn.harts with
      args := ws.getD 2 0, binds := bindList (ws.getD 3 0), done := none, wdog := field (ws.getD 6 0) 0 32 }) := by
  have hnamed : (bindList (ws.getD 3 0) ++ []).all (u.wmOk k) = true := by simpa using hb
  unfold State.takeLaunch
  simp only [hf, hk, hd, Bool.false_eq_true, if_false]
  rw [if_neg (by simp [h]), if_neg (not_not.mpr hal), if_neg (by simp [hl, hn]), if_neg (by rw [hnamed]; decide)]

/-! ### WAIT and SIGNAL (R157) -/

theorem wmOk_iff {n : Nat} : s.wmOk k n = true ↔ ∃ w, s.wm? n = some w ∧ w.owner = k.asid := by
  unfold State.wmOk
  cases s.wm? n <;> simp

theorem field_low {v : Word} {n : Nat} (h : v.toNat < 2 ^ n) : field v 0 n = v.toNat := by
  simpa [field] using Nat.mod_eq_of_lt h

theorem takeWait_of_refused (hz : ∀ w ∈ ws.drop 3, w = 0) (hn : (ws.getD 1 0).toNat < 2 ^ 16)
    (h : 4096 ≤ (ws.getD 1 0).toNat ∨ s.wmOk k (ws.getD 1 0).toNat = false) : s.takeWait k ws = s.stopQueue k.num 4 := by
  unfold State.takeWait
  simp only [all_zero hz, field_low hn]
  rw [if_neg (by simpa using hn), if_pos h]

/-- A WAIT that names a watermark of its space is over, or joins the queue's waits. -/
theorem takeWait_of_legal {w : Wm} (hz : ∀ w ∈ ws.drop 3, w = 0) (hn : (ws.getD 1 0).toNat < 4096)
    (hw : s.wm? (ws.getD 1 0).toNat = some w) (ho : w.owner = k.asid) {j : Queue} (hj : s.queue? k.num = some j) :
    s.takeWait k ws = s.setQueue (if (ws.getD 2 0).toNat ≤ w.value then { j with waited := true }
      else { j with waits := j.waits ++ [((ws.getD 1 0).toNat, (ws.getD 2 0).toNat, k.head)] }) := by
  have hlt : (ws.getD 1 0).toNat < 2 ^ 16 := by omega
  have hok : s.wmOk k (ws.getD 1 0).toNat = true := wmOk_iff.mpr ⟨w, hw, ho⟩
  unfold State.takeWait
  simp only [all_zero hz, field_low hlt, hok, State.reached, hw, State.noteWaited, hj, decide_eq_true_eq]
  rw [if_neg (by simpa using hlt), if_neg (by simpa using hn)]
  split <;> rfl

theorem takeSignal_of_legal (hr : field (ws.getD 1 0) 17 15 = 0) (hz : ∀ w ∈ ws.drop 3, w = 0)
    (hn : field (ws.getD 1 0) 0 16 < 4096) (hok : s.wmOk k (field (ws.getD 1 0) 0 16) = true) :
    s.takeSignal k ws = (let t := s.publish (field (ws.getD 1 0) 0 16) (ws.getD 2 0).toNat
      if flag (ws.getD 1 0) 16 = true ∧ field (ws.getD 1 0) 32 32 < 1024 then t.raise (field (ws.getD 1 0) 32 32) else t) := by
  unfold State.takeSignal
  simp only [all_zero hz, hr, hok, Bool.and_eq_true, decide_eq_true_eq]
  rw [if_neg (by simp), if_neg (by simpa using hn)]

/-! ### DRAW (R307, R308) -/

theorem takeDraw_of_bits (h : drawPacketOk ws = false) : s.takeDraw ctxid part k ws = some (s.stopQueue k.num 2) := by
  simp [State.takeDraw, h]

/-- A legal DRAW of a hierarchical depth that is not loaded adds its launch and its draw. -/
theorem takeDraw_of_legal {md pd td : List Word} {v w : State} {mk pk : Kernel} {d : Draw} (h : drawPacketOk ws = true)
    (hfr : s.engFrozen engHem (ctxid % 2 ^ 32) = false) (hm : s.fetchWords k.who (ws.getD 1 0).toNat 8 = (.ok md, u))
    (hp : u.fetchWords k.who (ws.getD 2 0).toNat 8 = (.ok pd, v)) (ht : v.fetchWords k.who (ws.getD 5 0).toNat 8 = (.ok td, w))
    (hmk : kernelOf md = some mk) (hpk : kernelOf pd = some pk)
    (hd : drawFields ws td k pk.early (w.newLaunch k (ws.getD 0 0) ctxid part (md ++ pd) 0) = some d)
    (hmesh : mk.kind = 1) (hpixel : pk.kind = 2) (hms : mk.scratch ≠ 0) (hps : pk.scratch ≠ 0)
    (hc : ∀ e ∈ w.gfx.draws, e.colour ≠ d.colour) (hl : w.tooLarge (drawAsks mk pk d.mharts d.pharts) = false)
    (hload : d.loadH = false) :
    s.takeDraw ctxid part k ws = some
      (let t := w.addLaunch { w.newLaunch k (ws.getD 0 0) ctxid part (md ++ pd) 0 with
        draw := true, harts := d.mharts + 48 * d.pharts }
       { t with gfx := { t.gfx with draws := t.gfx.draws ++ [d] } }) := by
  unfold State.takeDraw
  simp only [hm, hp, ht, hmk, hpk, hd, State.loadHiz, hload, Bool.false_eq_true, false_and, if_false]
  rw [if_neg (by simp [h]), if_neg (by rw [hfr]; decide), if_neg (by simp [hmesh, hpixel, hms, hps]), if_neg (by simpa using hc),
    if_neg (by simp [hl])]

end

/-! ### What completes a WAIT, a launch and a draw (R156 to R158, R316) -/

section
variable {s : State}

theorem launchDone_of_halted {l : Nat} {j : Launch} (hj : s.launch? l = some j) (hl : j.left = 0) (hp : j.phase = .resident)
    (hd : j.draw = false) : s.launchDone l =
      (match j.done with | some d => s.publish d.1 d.2 | none => s).dropLaunch j := by
  unfold State.launchDone
  rw [hj]
  exact if_pos ⟨hl, hp, hd⟩

theorem launchDone_of_not_halted {l : Nat} {j : Launch} (hj : s.launch? l = some j)
    (h : j.left ≠ 0 ∨ j.phase ≠ .resident) : s.launchDone l = s := by
  unfold State.launchDone
  rw [hj]
  exact if_neg fun ⟨hl, hp, _⟩ => h.elim (· hl) (· hp)

theorem drawDone_of_busy {l : Nat} {d : Draw} (hd : s.draw? l = some d) (h : s.drawIdle d = false) : s.drawDone l = s := by
  simp [State.drawDone, hd, h]

/-- A draw without tiles and without a recorded depth to write back is gone. -/
theorem drawDone_of_idle {l : Nat} {d : Draw} (hd : s.draw? l = some d) (h : s.drawIdle d = true) (hz : d.hiz = 0)
    (ht : ∀ t ∈ s.gfx.tiles, t.launch ≠ l) : s.drawDone l = match (s.dropDraw l).launch? l with
      | some j => (s.dropDraw l).dropLaunch j
      | none => s.dropDraw l := by
  have hheld : (s.gfx.tiles.filter fun t => t.launch == l) = [] := by simpa using ht
  unfold State.drawDone
  simp only [hd, h, hheld, State.eachHem, State.writeHiz, hz, Res.bind, State.hemDone, if_true] <;> rfl

end

/-! ### DEBUG (R158, R282) -/

section
variable {s t : State} {q n c : Nat} {a b : Word} {k : Queue}

theorem inReach_iff : s.inReach k c = true ↔
    ∃ l ∈ s.sched.launches, l.ctxid = c ∧ l.space.toNat / 2 ^ 48 = k.space.toNat / 2 ^ 48 := by
  have hasid (v : Word) : sptAsid v = v.toNat / 2 ^ 48 := Nat.mod_eq_of_lt (by omega)
  simp [State.inReach, Queue.asid, hasid]

/-- A legal DEBUG packet for a context in reach is given to its operation, which may have to wait. -/
theorem takeDebug_of_takesDebug (h : TakesDebug s q n c a b k t) (f : Queue → Nat → Word → Word → State → Option State) :
    s.takeDebug q n f = (f k c a b t).getD s := by
  obtain ⟨ws, htakes, rfl, hlt, rfl, rfl, rfl, hz, hok, hreach⟩ := h
  unfold State.takeDebug
  rw [takePacket_of_takes htakes]
  simp only [all_zero hz, hok, inReach_iff.mpr hreach]
  rw [if_neg (by simpa using hlt), if_neg (by simp), if_neg (by simp)]

theorem mapContext_eq (s : State) (c : Nat) (f : Hart → Hart) : s.mapContext c f = onContext s c f := by
  simp only [State.mapContext, State.mapHarts, onContext, Bool.not_eq_true']

end

end Sys2Proof.Laws

namespace Sys2Proof.Claims

open Sys2Proof.Machine Sys2Proof.Laws

section
variable {s t : State} {q ctxid part : Nat} {k : Queue} {ws : List Word}

theorem launch_of_takes (h : Takes s q 1 k ws t) : exec (.launch q ctxid part) s =
    .next ((t.takeLaunch ctxid part k ws).getD s) := congrArg _ (takePacket_of_takes h _)

theorem launch_spec (h : Takes s q 1 k ws t) :
    (∀ kd u kn, launchOk ws = true → (ws.getD 1 0).toNat % 64 = 0 → t.fetchWords k.who (ws.getD 1 0).toNat 8 = (.ok kd, u) →
      kernelOf kd = some kn → kn.harts ≤ 3072 → u.tooLarge kn.asks = false →
      (∀ n ∈ bindList (ws.getD 3 0), u.wmOk k n = true) → flag (ws.getD 4 0) 15 = false →
      ∃ v l, exec (.launch q ctxid part) s = .next v ∧ v.sched.launches = u.sched.launches ++ [l] ∧ l.q = k.num ∧
        l.phase = .waiting ∧ l.kdesc = kd ∧ l.harts = kn.harts ∧ l.left = 0 ∧ l.args = ws.getD 2 0 ∧
        l.tag = (ws.getD 0 0).extractLsb' 32 32 ∧ l.base = min (field (ws.getD 0 0) 16 8) k.ceiling ∧ l.done = none ∧
        v.mem = u.mem) ∧
    (launchOk ws = false → exec (.launch q ctxid part) s = .next (t.stopQueue k.num 1)) ∧
    (launchOk ws = true → (ws.getD 1 0).toNat % 64 ≠ 0 → exec (.launch q ctxid part) s = .next (t.stopQueue k.num 2)) := by
  rw [launch_of_takes h]
  refine ⟨fun kd u kn hok hal hf hk hn hl hb hd => ?_, fun hok => ?_, fun hok hal => ?_⟩
  · rw [takeLaunch_of_legal hok hal hf hk hn hl hb hd]
    exact ⟨_, _, rfl, rfl, rfl, rfl, rfl, rfl, rfl, rfl, rfl, rfl, rfl, rfl⟩
  · rw [takeLaunch_of_bits hok]
    rfl
  · rw [takeLaunch_of_misaligned hok hal]
    rfl

theorem wait_of_takes (h : Takes s q 2 k ws t) : exec (.wait q) s = .next (t.takeWait k ws) :=
  congrArg _ (takePacket_of_takes h _)

theorem wait_spec (h : Takes s q 2 k ws t) (hn : (ws.getD 1 0).toNat < 4096) (hz : ∀ w ∈ ws.drop 3, w = 0) :
    (∀ w, t.wm? (ws.getD 1 0).toNat = some w → w.owner = k.asid →
      ((ws.getD 2 0).toNat ≤ w.value → ∀ j, t.queue? k.num = some j →
        exec (.wait q) s = .next (t.setQueue { j with waited := true })) ∧
      (w.value < (ws.getD 2 0).toNat → ∀ j, t.queue? k.num = some j → exec (.wait q) s = .next (t.setQueue
        { j with waits := j.waits ++ [((ws.getD 1 0).toNat, (ws.getD 2 0).toNat, k.head)] }))) ∧
    (t.wmOk k (ws.getD 1 0).toNat = false → exec (.wait q) s = .next (t.stopQueue k.num 4)) := by
  rw [wait_of_takes h]
  refine ⟨fun w hw ho => ⟨fun hv j hj => ?_, fun hv j hj => ?_⟩, fun hok => ?_⟩
  · rw [takeWait_of_legal hz hn hw ho hj, if_pos hv]
  · rw [takeWait_of_legal hz hn hw ho hj, if_neg (Nat.not_le.mpr hv)]
  · rw [takeWait_of_refused hz (by omega) (.inr hok)]

theorem wait_beyond (h : Takes s q 2 k ws t) (hlo : 4096 ≤ (ws.getD 1 0).toNat) (hhi : (ws.getD 1 0).toNat < 2 ^ 16)
    (hz : ∀ w ∈ ws.drop 3, w = 0) : exec (.wait q) s = .next (t.stopQueue k.num 4) := by
  rw [wait_of_takes h, takeWait_of_refused hz hhi (.inl hlo)]

theorem signal_spec (h : Takes s q 3 k ws t) (hr : field (ws.getD 1 0) 17 15 = 0) (hz : ∀ w ∈ ws.drop 3, w = 0)
    (hn : field (ws.getD 1 0) 0 16 < 4096) (hok : t.wmOk k (field (ws.getD 1 0) 0 16) = true) :
    let u := t.publish (field (ws.getD 1 0) 0 16) (ws.getD 2 0).toNat
    exec (.signal q) s = .next (if flag (ws.getD 1 0) 16 = true ∧ field (ws.getD 1 0) 32 32 < 1024 then
      { u with host := { u.host with irqs := field (ws.getD 1 0) 32 32 :: u.host.irqs } } else u) := by
  have hs : exec (.signal q) s = .next (t.takeSignal k ws) := congrArg _ (takePacket_of_takes h _)
  rw [hs, takeSignal_of_legal hr hz hn hok]
  rfl

/-- The WAITs whose watermark has reached their value are over, and the launches after them acquire. -/
theorem waitComplete_spec (hk : s.queue? q = some k) :
    let open' (e : Nat × Nat × Nat) : Bool := match s.wm? e.1 with
      | some w => decide (w.value < e.2.1)
      | none => true
    let done := k.waits.filter fun e => !open' e
    let acquired := (done.flatMap fun e => s.coresAfter q e.2.2).eraseDups.foldl State.acquire s
    exec (.waitComplete q) s = .next (acquired.setQueue { k with
      waits := k.waits.filter open', waited := k.waited || !done.isEmpty }) := by
  intro open' done acquired
  have hopen : open' = fun e => !s.reached e := by
    funext e
    unfold open' State.reached
    cases s.wm? e.1 with
    | none => rfl
    | some w => exact (decide_eq_decide.mpr Nat.not_le.symm).trans decide_not
  have hdone : done = k.waits.filter s.reached := by simp [done, hopen]
  have hany : k.waits.any s.reached = !done.isEmpty := by
    rw [hdone, Bool.eq_iff_iff]
    simp
  rw [exec_waitComplete, execWaitComplete, State.waitsDone, hk, ← hany, hopen]
  simp only [acquired, hdone]

theorem draw_of_takes (h : Takes s q 4 k ws t) : exec (.draw q ctxid part) s =
    .next ((t.takeDraw ctxid part k ws).getD s) := congrArg _ (takePacket_of_takes h _)

end

theorem commandPackets : CommandPackets := by
  intro s t q ctxid part k ws g
  refine ⟨launch_spec, fun l j hj hl hp hd => congrArg _ (launchDone_of_halted hj hl hp hd),
    fun l j hj h => congrArg _ (launchDone_of_not_halted hj h), wait_spec, wait_beyond, waitComplete_spec, signal_spec,
    fun h => ⟨fun hbad => ?_, ?_⟩, fun l d hd h => congrArg _ (drawDone_of_busy hd h),
    fun l d hd h hz ht => congrArg _ (drawDone_of_idle hd h hz ht)⟩
  · rw [draw_of_takes h, takeDraw_of_bits hbad]
    rfl
  · intro hok hfr md u pd v td w mk pk hm hp ht hmk hpk l d hd hmesh hpixel hms hps hc hl hload
    rw [draw_of_takes h, takeDraw_of_legal hok hfr hm hp ht hmk hpk hd hmesh hpixel hms hps hc hl hload]
    exact ⟨_, rfl, rfl, rfl⟩

section
variable {s t : State} {q c : Nat} {a b : Word} {k : Queue}

/-- A halt is asked of the harts and the launches of the context. -/
theorem debugHalt_spec (h : TakesDebug s q 1 c a b k t) : exec (.debugHalt q) s =
    .next (onLaunches (onContext t c fun h => { h with lc := { h.lc with haltReq := true } }) c fun l =>
      { l with haltReq := true }) := by
  rw [exec_debugHalt, execDebugHalt, takeDebug_of_takesDebug h, mapContext_eq]
  rfl

theorem debugInspect_spec (h : TakesDebug s q 2 c a b k t) :
    let hs := (t.residents ++ t.sched.saved).filter fun h => h.ctxid == c && (h.halted || h.isFrozen)
    let recs := (hs.foldl (fun l h => insertRank h l) []).flatMap (t.contextRecord 1)
    exec (.debugInspect q) s = .next (match t.spaceWrite k a.toNat recs with
      | .ok u => u
      | .error e => if e.waits then s else t.stopQueue k.num 6) := by
  intro hs recs
  rw [exec_debugInspect, execDebugInspect, takeDebug_of_takesDebug h]
  unfold State.inspect
  dsimp only
  cases t.spaceWrite k a.toNat recs with
  | ok u => rfl
  | error e => exact congrArg Host.Outcome.next (apply_ite (Option.getD · s) (e.waits = true) none (some _))

theorem debugResume_spec (h : TakesDebug s q 3 c a b k t) : exec (.debugResume q) s =
    .next (onLaunches (onContext t c Hart.resume) c fun l => { l with haltReq := false }) := by
  rw [exec_debugResume, execDebugResume, takeDebug_of_takesDebug h, mapContext_eq]
  rfl

theorem traceOn_spec (h : TakesDebug s q 4 c a b k t) :
    let on (u : State) : State := onLaunches u c fun l =>
      { l with trace := some { base := a.toNat, lg := b.toNat, space := k.space, user := k.user } }
    exec (.traceOn q) s = .next (match t.spaceWrite k a.toNat [0, 0] with
      | .ok u => on u
      | .error e => if e.waits then s else on t) := by
  intro on
  rw [exec_traceOn, execTraceOn, takeDebug_of_takesDebug h]
  dsimp only
  cases t.spaceWrite k a.toNat [0, 0] with
  | ok u => rfl
  | error e => exact congrArg Host.Outcome.next (apply_ite (Option.getD · s) (e.waits = true) none (some _))

/-- A halt of a context that is not in reach stops the queue. -/
theorem debugHalt_out_of_reach {ws : List Word} (h : Takes s q 5 k ws t) (hop : field (ws.getD 1 0) 32 32 = 1)
    (hlt : (ws.getD 1 0).toNat < 2 ^ 40) (hz : ∀ w ∈ ws.drop 3, w = 0)
    (hfar : ∀ l ∈ t.sched.launches, l.ctxid = field (ws.getD 1 0) 0 32 →
      l.space.toNat / 2 ^ 48 ≠ k.space.toNat / 2 ^ 48) : exec (.debugHalt q) s = .next (t.stopQueue q 9) := by
  have hz4 : ∀ w ∈ ws.drop 4, w = 0 := fun w hw => hz w (List.drop_subset_drop_left ws (by decide) hw)
  have hb : ws.getD 3 0 = 0 := by
    cases hw : ws[3]? with
    | none => simp [hw]
    | some w =>
      have := hz w (List.mem_of_getElem? (i := 0) (by simpa using hw))
      simp [hw, this]
  have hout : t.inReach k (field (ws.getD 1 0) 0 32) = false := by
    rw [Bool.eq_false_iff, ne_eq, inReach_iff]
    rintro ⟨l, hl, hc, hs⟩
    exact hfar l hl hc hs
  rw [exec_debugHalt, execDebugHalt, State.takeDebug, takePacket_of_takes h]
  simp only [all_zero hz4, hop, hb, hout, debugArgsOk]
  rw [if_neg (by simpa using hlt), if_neg (by simp), if_pos (by simp)]
  rfl

end

theorem debugPackets : DebugPackets := by
  intro s t q c a b k
  refine ⟨debugHalt_spec, debugInspect_spec, debugResume_spec, traceOn_spec, fun h => ?_, fun h => ?_, fun h => ?_,
    fun h => ?_, fun ws => debugHalt_out_of_reach⟩
  · exact congrArg _ (takeDebug_of_takesDebug h _)
  · exact congrArg _ (takeDebug_of_takesDebug h _)
  · exact congrArg _ (takeDebug_of_takesDebug h _)
  · exact congrArg _ (takeDebug_of_takesDebug h _)

/-- Settles O54: a packet that a queue takes does what its kind says of the packet's words. -/
theorem packets : Obligations.Packets := ⟨commandPackets, debugPackets⟩

end Sys2Proof.Claims
end

section
/-! PROOF. The decisions of the Mantles and the saving of launches that have stopped (R161 to R168, R272, R420 to R425):
O55. -/

namespace Sys2Proof.Laws

open Sys2Proof.Machine Sys2Proof.Claims

/-! ### Which launch comes next (R165) -/

theorem oldest_eq_none {ls : List Launch} (h : oldest ls = none) : ls = [] := by
  cases ls with
  | nil => rfl
  | cons k ks =>
    unfold oldest at h
    split at h
    · split at h <;> cases h
    · cases h

/-- The oldest of a list stands in it, and none of it has a lower number. -/
theorem oldest_spec {ls : List Launch} {l : Launch} (h : oldest ls = some l) : l ∈ ls ∧ ∀ j ∈ ls, l.num ≤ j.num := by
  induction ls generalizing l with
  | nil => cases h
  | cons k ks ih =>
    unfold oldest at h
    rw [List.forall_mem_cons]
    split at h
    · rename_i m hm
      obtain ⟨hmem, hmin⟩ := ih hm
      split at h
      · rename_i hlt
        cases h
        exact ⟨.tail _ hmem, hlt.le, hmin⟩
      · rename_i hlt
        cases h
        exact ⟨.head _, le_rfl, fun j hj => (Nat.not_lt.mp hlt).trans (hmin j hj)⟩
    · rename_i hno
      cases h
      simp [oldest_eq_none hno]

/-- A fold that keeps the lesser number answers one of the list, or what it began with. -/
theorem foldl_least (qs : List Nat) (m : Option Nat) {q : Nat}
    (h : qs.foldl (fun m q => some (match m with | some n => min n q | none => q)) m = some q) : q ∈ qs ∨ m = some q := by
  induction qs generalizing m with
  | nil => exact .inr h
  | cons p ps ih =>
    rcases ih _ h with hq | hq
    · exact .inl (.tail _ hq)
    · cases m with
      | none => cases hq; exact .inl (.head _)
      | some n =>
        simp only [Option.some.injEq] at hq
        rcases Nat.le_total n p with hnp | hnp
        · rw [Nat.min_eq_left hnp] at hq; exact .inr (by rw [hq])
        · rw [Nat.min_eq_right hnp] at hq; exact .inl (by rw [hq]; exact .head _)

theorem mem_of_nextQueue {qs : List Nat} {last : Option Nat} {q : Nat} (h : nextQueue qs last = some q) : q ∈ qs := by
  have hleast {l : List Nat} {p : Nat}
      (hp : l.foldl (fun m q => some (match m with | some n => min n q | none => q)) none = some p) : p ∈ l :=
    (foldl_least l none hp).resolve_right (by simp)
  unfold nextQueue at h
  dsimp only at h
  split at h
  · exact hleast h
  · split at h
    · rename_i hp
      cases h
      exact List.mem_of_mem_filter (hleast hp)
    · exact hleast h

theorem eff_le_topLevel {s : State} {l : Launch} (h : l ∈ s.waiting) : l.eff ≤ s.topLevel := by
  have hmono (ls : List Launch) (n : Nat) : n ≤ ls.foldl (fun m l => max m l.eff) n ∧
      ∀ l ∈ ls, l.eff ≤ ls.foldl (fun m l => max m l.eff) n := by
    induction ls generalizing n with
    | nil => simp
    | cons k ks ih =>
      obtain ⟨hn, hks⟩ := ih (max n k.eff)
      refine ⟨(Nat.le_max_left ..).trans hn, fun l hl => ?_⟩
      rcases List.mem_cons.mp hl with rfl | hl
      · exact (Nat.le_max_right ..).trans hn
      · exact hks l hl
  exact (hmono s.waiting 0).2 l h

theorem mem_waiting {s : State} {l : Launch} : l ∈ s.waiting ↔ l ∈ s.sched.launches ∧ l.phase = .waiting := by
  simp [State.waiting]

/-- The launch chosen is the oldest that waits of its queue, of which one waits at the highest level. -/
theorem chosen_spec {s : State} {w : Launch} (h : s.chosen = some w) : w ∈ s.waiting ∧
    (∀ j ∈ s.waiting, j.q = w.q → w.num ≤ j.num) ∧ ∃ k ∈ s.waiting, k.q = w.q ∧ k.eff = s.topLevel := by
  unfold State.chosen at h
  dsimp only at h
  split at h
  · cases h
  · rename_i q hq
    obtain ⟨k, hk, hkq⟩ := List.mem_map.mp (mem_of_nextQueue hq)
    obtain ⟨hkw, hke⟩ := List.mem_filter.mp hk
    obtain ⟨hw, hmin⟩ := oldest_spec h
    obtain ⟨hww, hwq⟩ := List.mem_filter.mp hw
    have hwq : w.q = q := by simpa using hwq
    exact ⟨hww, fun j hj hjq => hmin j (List.mem_filter.mpr ⟨hj, by simp [hjq, hwq]⟩), k, hkw, hkq.trans hwq.symm, by simpa using hke⟩

/-! ### Victims (R165, R272, R414) -/

theorem mem_laneVictims {s : State} {v : Launch} : v ∈ s.laneVictims ↔ v ∈ s.sched.launches ∧ v.phase = .resident ∧
    (∃ h ∈ s.residents, h.lc.launch = some v.num ∧ ∃ e ∈ s.sched.lanes, e.1 = h.core ∧ e.2.2.2 = true) ∧
    ∀ h ∈ s.residents, h.lc.launch = some v.num → h.isFrozen = false := by
  simp [State.laneVictims, State.hartsOf, and_assoc]

theorem mayPreempt_iff {s : State} {w v : Launch} : s.mayPreempt w v = true ↔ MayYield s w v := by
  simp [State.mayPreempt, MayYield, and_assoc]

theorem mem_insertVictim {v u : Launch} {us : List Launch} : u ∈ insertVictim v us ↔ u = v ∨ u ∈ us := by
  induction us with
  | nil => simp [insertVictim]
  | cons k ks ih =>
    unfold insertVictim
    split
    · simp
    · simp [ih, or_left_comm]

/-- A victim put into a list in order leaves it in order. -/
theorem inOrder_insertVictim {v : Launch} {us : List Launch} (h : InOrder us) : InOrder (insertVictim v us) := by
  induction us with
  | nil => simp [insertVictim, InOrder]
  | cons k ks ih =>
    obtain ⟨hk, hks⟩ := List.pairwise_cons.mp h
    unfold insertVictim
    split
    · rename_i hv
      refine List.pairwise_cons.mpr ⟨fun u hu => ?_, h⟩
      rcases List.mem_cons.mp hu with rfl | hu
      · omega
      · have := hk u hu; omega
    · rename_i hv
      refine List.pairwise_cons.mpr ⟨fun u hu => ?_, ih hks⟩
      rcases mem_insertVictim.mp hu with rfl | hu
      · omega
      · exact hk u hu

/-- The launches that may be asked to stop, in the order of R165. -/
def victimOrder (ls : List Launch) : List Launch := ls.foldl (fun us v => insertVictim v us) []

theorem victimOrder_spec (ls : List Launch) : InOrder (victimOrder ls) ∧ ∀ v, v ∈ victimOrder ls ↔ v ∈ ls := by
  have hfold (us : List Launch) (h : InOrder us) : InOrder (ls.foldl (fun us v => insertVictim v us) us) ∧
      ∀ v, v ∈ ls.foldl (fun us v => insertVictim v us) us ↔ v ∈ ls ∨ v ∈ us := by
    induction ls generalizing us with
    | nil => exact ⟨h, by simp⟩
    | cons k ks ih =>
      obtain ⟨hin, hmem⟩ := ih (insertVictim k us) (inOrder_insertVictim h)
      exact ⟨hin, fun v => by simp [hmem, mem_insertVictim, or_assoc, or_left_comm]⟩
  simpa [victimOrder] using hfold [] .nil

section
variable {s : State} {w : Launch}

/-- Victims are taken until the launch fits without them. -/
theorem victims_of_fits {vs : List Launch} {off : List Nat} {n : Nat} (h0 : 0 < n) (hn : n ≤ vs.length)
    (hfit : (s.planLaunch w (((vs.take n).map fun v => v.num).reverse ++ off)).isSome = true)
    (hmin : ∀ m, 0 < m → m < n → s.planLaunch w (((vs.take m).map fun v => v.num).reverse ++ off) = none) :
    s.victims w off vs = some (((vs.take n).map fun v => v.num).reverse ++ off) := by
  induction vs generalizing off n with
  | nil => simp at hn; omega
  | cons v vs ih =>
    have hcons (m : Nat) : (((v :: vs).take (m + 1)).map fun v => v.num).reverse ++ off =
        ((vs.take m).map fun v => v.num).reverse ++ v.num :: off := by simp
    obtain ⟨n, rfl⟩ : ∃ m, n = m + 1 := ⟨n - 1, by omega⟩
    rw [hcons] at hfit ⊢
    unfold State.victims
    rcases Nat.eq_zero_or_pos n with rfl | hpos
    · exact if_pos hfit
    · have hone : s.planLaunch w (v.num :: off) = none := by simpa using hmin 1 (by omega) (by omega)
      dsimp only
      rw [if_neg (by simp [hone])]
      exact ih hpos (by simpa using hn) hfit fun m hm hlt => (hcons m) ▸ hmin (m + 1) (by omega) (by omega)

/-- Where the launch does not fit however many of them are off, there are no victims. -/
theorem victims_of_never {vs : List Launch} {off : List Nat}
    (h : ∀ n, 0 < n → n ≤ vs.length → s.planLaunch w (((vs.take n).map fun v => v.num).reverse ++ off) = none) :
    s.victims w off vs = none := by
  induction vs generalizing off with
  | nil => rfl
  | cons v vs ih =>
    have hone : s.planLaunch w (v.num :: off) = none := by simpa using h 1 (by omega) (by simp)
    unfold State.victims
    dsimp only
    rw [if_neg (by simp [hone])]
    exact ih fun n hn hle => by simpa using h (n + 1) (by omega) (by simpa using hle)

end

/-! ### A decision (R149, R165) -/

/-- The state once the launches on a core whose new lane map waits are asked to stop (R272). -/
def laneStopped (s : State) : State := s.laneVictims.foldl (fun t v => t.preemptLaunch v.num) s

section
variable {s : State} {w : Launch}

theorem decision_stopped (h : s.queuesRun = false) : s.decision = s := by simp [State.decision, h]

theorem decision_of_none (hr : s.queuesRun = true) (hc : (laneStopped s).chosen = none) : s.decision = laneStopped s := by
  unfold laneStopped at *
  simp [State.decision, hr, hc]

theorem decision_of_fits {p : List (Ask × Nat)} (hr : s.queuesRun = true) (hc : (laneStopped s).chosen = some w)
    (hp : (laneStopped s).planLaunch w [] = some p) : s.decision = (laneStopped s).place w p := by
  unfold laneStopped at *
  simp [State.decision, hr, hc, hp]

/-- The launches on their way off make room. -/
theorem decision_of_room (hr : s.queuesRun = true) (hc : (laneStopped s).chosen = some w)
    (hp : (laneStopped s).planLaunch w [] = none)
    (hroom : ((laneStopped s).planLaunch w (laneStopped s).stopping).isSome = true) : s.decision = laneStopped s := by
  unfold laneStopped at *
  simp [State.decision, hr, hc, hp, hroom]

section
variable (hr : s.queuesRun = true) (hc : (laneStopped s).chosen = some w) (hp : (laneStopped s).planLaunch w [] = none)
  (hroom : (laneStopped s).planLaunch w (laneStopped s).stopping = none)
include hr hc hp hroom

theorem decision_of_no_victims (hv : (laneStopped s).victims w (laneStopped s).stopping
    (victimOrder ((laneStopped s).sched.launches.filter ((laneStopped s).mayPreempt w))) = none) : s.decision = laneStopped s := by
  unfold laneStopped victimOrder at *
  simp [State.decision, hr, hc, hp, hroom, hv]

/-- The victims that are not on their way off already are asked to stop. -/
theorem decision_of_victims {ls : List Nat} (hv : (laneStopped s).victims w (laneStopped s).stopping
    (victimOrder ((laneStopped s).sched.launches.filter ((laneStopped s).mayPreempt w))) = some ls) :
    s.decision =
      (ls.filter fun l => !(laneStopped s).stopping.contains l).foldl State.preemptLaunch (laneStopped s) := by
  unfold laneStopped victimOrder at *
  simp [State.decision, hr, hc, hp, hroom, hv]

end

end

/-! ### A launch that is asked to stop (R166, R420) -/

/-- A launch's record put in the place of the one of its number is found there. -/
theorem launch?_setLaunch {s : State} {l : Nat} {k j : Launch} (h : s.launch? l = some k) (hn : j.num = k.num) :
    (s.setLaunch j).launch? l = some j := by
  have hnums : ((fun i : Launch => i.num == l) ∘ fun i => if i.num = j.num then j else i) = fun i => i.num == l := by
    funext i
    by_cases hi : i.num = j.num <;> simp [hi]
  unfold State.launch? at h
  unfold State.launch? State.setLaunch
  rw [List.find?_map, hnums, h, Option.map_some, if_pos hn.symm]

theorem lc_undo (h : Hart) (n : Nat) : (h.undo n).lc = h.lc := by
  have hrestore (us : List Unconf) : (us.foldr (fun u g => g.restore u) h).lc = h.lc := by
    induction us with
    | nil => rfl
    | cons u us ih => exact ih
  unfold Hart.undo
  split
  · rfl
  · refine Eq.trans ?_ (hrestore (h.unconf.filter (Unconf.goes n)))
    dsimp only
    split
    · rfl
    · split <;> rfl
    · rfl

theorem lc_recordStop (h : Hart) : h.recordStop.lc = h.lc := by
  unfold Hart.recordStop
  split
  · rfl
  · split <;> rfl

theorem lc_stopNow (h : Hart) (st : Status) : (h.stopNow st).lc = h.lc := (lc_recordStop _).trans (lc_undo h _)

theorem lc_stopAt (h : Hart) (st : Status) : (h.stopAt st).lc = h.lc := by
  unfold Hart.stopAt
  split
  · exact lc_stopNow h st
  · rfl

/-- A hart once it is asked to stop. -/
def asked (h : Hart) : Hart :=
  { h with lc := { h.lc with preempt := true }, strip := { h.strip with flags := h.strip.flags ||| 2 } }

theorem preempt_asks (h : Hart) : h.preempt.lc.preempt = true := by
  unfold Hart.preempt
  dsimp only
  split
  · rfl
  · split <;> simp [lc_stopAt, lc_stopNow]

/-- A running hart with an empty window stops at once. -/
theorem preempt_of_run {h : Hart} (hs : h.status = .run) (hsk : h.skipping = false) (ht : h.trapMet = false)
    (hw : h.window = []) : h.preempt = (asked h).stopNow (.stopped false false false) := by
  have hup : (asked h).caughtUp = true := caughtUp_of_not_mustComeUp (h := asked h) (by simp [MustComeUp, asked, hw])
  have hsk' : (asked h).skipping = false := hsk
  have ht' : (asked h).trapMet = false := ht
  unfold Hart.preempt
  simp only [asked, hs] at hsk' ht' hup ⊢
  simp only [hsk', ht', Bool.or_self, Bool.false_eq_true, if_false]
  exact if_pos hup

theorem harts_preemptLaunch (s : State) (l : Nat) :
    (s.preemptLaunch l).harts = s.harts.map fun h => if h.lc.launch = some l then h.preempt else h := by
  unfold State.preemptLaunch State.stopLaunch
  dsimp only
  split <;> rfl

theorem launch?_preemptLaunch {s : State} {l : Nat} {k : Launch} (h : s.launch? l = some k) :
    (s.preemptLaunch l).launch? l = some { k with phase := .stopping, ends := none } := by
  unfold State.preemptLaunch State.stopLaunch
  dsimp only
  split
  · rename_i j hj
    have hkj : s.launch? l = some j := hj
    rw [h] at hkj
    cases hkj
    exact launch?_setLaunch hj rfl
  · rename_i hj
    have hno : s.launch? l = none := hj
    rw [h] at hno
    cases hno

/-! ### Levels (R164) -/

theorem execLevelAging_of_waiting {s : State} {l : Nat} {k : Launch} (h : s.launch? l = some k) (hp : k.phase = .waiting) :
    execLevelAging l s = .next (s.setLaunch { k with
      eff := if k.eff < (s.queue? k.q).elim k.eff Queue.ceiling then k.eff + 1 else k.eff }) := by
  unfold execLevelAging
  rw [h]
  simp only [hp, if_true]
  cases s.queue? k.q <;> rfl

/-! ### Saving (R168, R420 to R425) -/

section
variable {s : State} {l : Nat} {k : Launch}

/-- A launch that is being ended ends once its harts are quiet. -/
theorem contextSave_of_ending {code : Nat} (hk : s.launch? l = some k) (he : k.ends = some code) : s.contextSave l =
    if ((s.settleLaunch l).hartsOf l).all Hart.quiet then (s.settleLaunch l).finishEnd k code else s.settleLaunch l := by
  simp [State.contextSave, hk, he]

theorem contextSave_of_not_stopped (hk : s.launch? l = some k) (he : k.ends = none)
    (h : ¬(k.phase = .stopping ∧ (s.hartsOf l).all Hart.hasStopped = true)) : s.contextSave l = s := by
  unfold State.contextSave
  rw [hk]
  dsimp only
  rw [he]
  exact if_neg h

/-- The cores of a launch's harts release and the harts leave their slots. -/
def offSlots (u : State) (l : Nat) : State :=
  (((u.hartsOf l).foldl (fun t h => t.release h.core) u).releaseYokes l).freeSlots l

theorem sched_offSlots (u : State) (l : Nat) : (offSlots u l).sched = u.sched :=
  (sched_of_offHomes (foldl_keeps offHomes (fun t (h : Hart) => offHomes_release t h.core) (u.hartsOf l) u) :)

/-- Once every hart has stopped, its confirmed stores are performed, and the records are written where nothing waits. -/
theorem contextSave_of_stopped (hk : s.launch? l = some k) (he : k.ends = none) (hp : k.phase = .stopping)
    (hs : (s.hartsOf l).all Hart.hasStopped = true) : s.contextSave l =
      let u := s.settleLaunch l
      let v := offSlots u l
      if (u.hartsOf l).any fun h => !h.unconf.isEmpty || (u.releaseWait h.core).isSome then u
      else State.setLaunch { v with sched := { v.sched with
          saved := v.sched.saved ++ (u.hartsOf l).map u.record
          records := v.sched.records ++ u.recordsOf l (u.hartsOf l) } }
        { k with phase := if k.left = 0 then .resident else .waiting, eff := k.base } := by
  unfold State.contextSave
  rw [hk]
  dsimp only
  rw [he]
  exact if_pos ⟨hp, hs⟩

end

end Sys2Proof.Laws

namespace Sys2Proof.Claims

open Sys2Proof.Machine Sys2Proof.Laws

theorem mantleDecision_eq {s t : State} (h : s.decision = t) : exec .mantleDecision s = .next t :=
  congrArg Host.Outcome.next h

/-- The state once a tick is counted for every resident launch. -/
def ticked (s : State) : State :=
  { s with sched := { s.sched with launches := s.sched.launches.map fun j =>
      if j.phase = .resident then { j with ticks := j.ticks + 1 } else j } }

theorem schedulerTick_eq (s : State) : exec .schedulerTick s = exec .mantleDecision (ticked s) := rfl

theorem decisions_held {s : State} (h : s.fw.req = true ∨ s.fw.arm = true) :
    exec .mantleDecision s = .next s ∧ exec .schedulerTick s = .next (ticked s) :=
  ⟨mantleDecision_eq (decision_stopped (State.queuesRun_eq_false.mpr h)),
    mantleDecision_eq (decision_stopped (s := ticked s) (State.queuesRun_eq_false.mpr h))⟩

/-- Where the launch does not fit as the cores stand, the launches on their way off make room, or victims in the order of
R165 do. -/
theorem decision_without_room {s : State} {w : Launch} (hr : s.queuesRun = true) (hc : (laneStopped s).chosen = some w)
    (hp : (laneStopped s).planLaunch w [] = none) :
    (((laneStopped s).planLaunch w (laneStopped s).stopping).isSome = true →
      exec .mantleDecision s = .next (laneStopped s)) ∧
    ((laneStopped s).planLaunch w (laneStopped s).stopping = none → ∃ vs : List Launch, InOrder vs ∧
      (∀ v, v ∈ vs ↔ v ∈ (laneStopped s).sched.launches ∧ MayYield (laneStopped s) w v) ∧
      (∀ n, 0 < n → n ≤ vs.length → ((laneStopped s).planLaunch w (offWith (laneStopped s) vs n)).isSome = true →
        (∀ m, 0 < m → m < n → (laneStopped s).planLaunch w (offWith (laneStopped s) vs m) = none) →
        exec .mantleDecision s = .next ((((vs.take n).map fun v => v.num).reverse.filter fun j =>
          !(laneStopped s).stopping.contains j).foldl State.preemptLaunch (laneStopped s))) ∧
      ((∀ n, 0 < n → n ≤ vs.length → (laneStopped s).planLaunch w (offWith (laneStopped s) vs n) = none) →
        exec .mantleDecision s = .next (laneStopped s))) := by
  refine ⟨fun hroom => mantleDecision_eq (decision_of_room hr hc hp hroom), fun hroom => ?_⟩
  obtain ⟨hin, hmem⟩ := victimOrder_spec ((laneStopped s).sched.launches.filter ((laneStopped s).mayPreempt w))
  refine ⟨_, hin, fun v => ?_, fun n h0 hn hfit hmin => mantleDecision_eq ?_,
    fun hno => mantleDecision_eq ?_⟩
  · rw [hmem, List.mem_filter, mayPreempt_iff]
  · have hoff : ((laneStopped s).stopping.filter fun j => !(laneStopped s).stopping.contains j) = [] := by
      simp [List.filter_eq_nil_iff]
    rw [decision_of_victims hr hc hp hroom (victims_of_fits h0 hn hfit hmin), List.filter_append, hoff, List.append_nil]
  · exact decision_of_no_victims hr hc hp hroom (victims_of_never hno)

theorem preempt_spec (h : Hart) : h.preempt.lc.preempt = true ∧
    (h.status = .run → h.skipping = false → h.trapMet = false → h.window = [] →
      h.preempt.status = .stopped false false false ∧
      (h.viq = [] → h.unconf = [] → h.preempt.pc = h.pc ∧ h.preempt.x = h.x)) := by
  refine ⟨preempt_asks h, fun hs hsk ht hw => ?_⟩
  rw [preempt_of_run hs hsk ht hw]
  refine ⟨rfl, fun hq hu => ?_⟩
  have hsettle : (asked h).settle = asked h := undo_of_nothing _ hu hq
  obtain ⟨-, -, hpc, hx, -⟩ := recordStop_spec (asked h).settle
  exact ⟨hpc.trans (congrArg Hart.pc hsettle :), hx.trans (congrArg Hart.x hsettle :)⟩

theorem chosen_waits {s : State} {w : Launch} (h : s.chosen = some w) : w ∈ s.sched.launches ∧ w.phase = .waiting ∧
    (∀ j ∈ s.sched.launches, j.phase = .waiting → j.q = w.q → w.num ≤ j.num) ∧
    ∃ k ∈ s.sched.launches, k.phase = .waiting ∧ k.q = w.q ∧
      ∀ j ∈ s.sched.launches, j.phase = .waiting → j.eff ≤ k.eff := by
  obtain ⟨hw, hmin, k, hk, hq, htop⟩ := chosen_spec h
  obtain ⟨hwl, hwp⟩ := mem_waiting.mp hw
  obtain ⟨hkl, hkp⟩ := mem_waiting.mp hk
  refine ⟨hwl, hwp, fun j hj hp => hmin j (mem_waiting.mpr ⟨hj, hp⟩), k, hkl, hkp, hq, fun j hj hp => ?_⟩
  rw [htop]
  exact eff_le_topLevel (mem_waiting.mpr ⟨hj, hp⟩)

theorem levelAging_waiting {s : State} {l : Nat} {k : Launch} (h : s.launch? l = some k) (hp : k.phase = .waiting) :
    (∀ q, s.queue? k.q = some q → exec (.levelAging l) s =
      .next (s.setLaunch { k with eff := if k.eff < q.ceiling then k.eff + 1 else k.eff })) ∧
    (s.queue? k.q = none → exec (.levelAging l) s = .next (s.setLaunch k)) := by
  rw [exec_levelAging, execLevelAging_of_waiting h hp]
  refine ⟨fun q hq => ?_, fun hq => ?_⟩
  · rw [hq]
    rfl
  · rw [hq, Option.elim_none, if_neg (Nat.lt_irrefl _)]

theorem decisions : Decisions := by
  intro s l held ticked u
  have hrun (h : ¬held) : s.queuesRun = true := (Bool.not_eq_false _).mp (mt State.queuesRun_eq_false.mp h)
  refine ⟨decisions_held, fun v => mem_laneVictims, fun h hc => mantleDecision_eq (decision_of_none (hrun h) hc),
    fun w p h hc hp => mantleDecision_eq (decision_of_fits (hrun h) hc hp), fun w h hc hp => decision_without_room (hrun h) hc hp,
    fun k hk => ⟨launch?_preemptLaunch hk, harts_preemptLaunch s l⟩, preempt_spec, fun w => chosen_waits, schedulerTick_eq s,
    fun k => levelAging_waiting, fun k hk hp => ?_, fun hk => ?_⟩
  · simp [execLevelAging, hk, hp]
  · simp [execLevelAging, hk]

/-- A launch all of whose harts have stopped is saved, once no store and no release of theirs has to wait. -/
theorem contextSave_saves {s : State} {l : Nat} {k : Launch} (hk : s.launch? l = some k) (he : k.ends = none)
    (hp : k.phase = .stopping) (hs : (s.hartsOf l).all Hart.hasStopped = true) :
    let u := s.settleLaunch l
    let waits : Prop := ∃ h ∈ u.hartsOf l, h.unconf ≠ [] ∨ (u.releaseWait h.core).isSome = true
    (waits → exec (.contextSave l) s = .next u) ∧
    (¬waits → ∃ t, exec (.contextSave l) s = .next t ∧
      t.sched.saved = u.sched.saved ++ (u.hartsOf l).map u.record ∧
      t.sched.records = u.sched.records ++ u.recordsOf l (u.hartsOf l) ∧
      (u.launch? l ≠ none → ∃ j, t.launch? l = some j ∧ j.phase = (if k.left = 0 then .resident else .waiting) ∧
        j.eff = k.base ∧ j.base = k.base)) := by
  intro u waits
  have hwaits : ((u.hartsOf l).any fun h => !h.unconf.isEmpty || (u.releaseWait h.core).isSome) = true ↔ waits := by
    simp [waits]
  rw [exec_contextSave, execContextSave, contextSave_of_stopped hk he hp hs]
  refine ⟨fun h => congrArg _ (if_pos (hwaits.mpr h)), fun h => ⟨_, congrArg _ (if_neg (mt hwaits.mp h)), ?_, ?_, fun hl => ?_⟩⟩
  · exact congrArg (fun d : Sched => d.saved ++ (u.hartsOf l).map u.record) (sched_offSlots u l)
  · exact congrArg (fun d : Sched => d.records ++ u.recordsOf l (u.hartsOf l)) (sched_offSlots u l)
  · obtain ⟨j, hj⟩ := Option.ne_none_iff_exists'.mp hl
    have hnum : k.num = j.num := by
      have hkn : k.num = l := by simpa using List.find?_some hk
      have hjn : j.num = l := by simpa using List.find?_some hj
      rw [hkn, hjn]
    refine ⟨_, launch?_setLaunch (k := j) ?_ hnum, rfl, rfl, rfl⟩
    exact (congrArg (fun d : Sched => d.launches.find? fun i : Launch => i.num == l) (sched_offSlots u l)).trans hj

theorem saving : Saving := by
  refine fun s l => ⟨fun hk => ?_, fun k hk => ⟨fun code he => ?_, fun he hp => ?_, fun he hs => ?_, fun he hp hs => ?_⟩⟩
  · simp [execContextSave, State.contextSave, hk]
  · rw [exec_contextSave, execContextSave, contextSave_of_ending hk he]
    exact ⟨fun h => congrArg _ (if_pos (List.all_eq_true.mpr h)), fun ⟨h, hm, hq⟩ =>
      congrArg _ (if_neg fun hall => by simp [List.all_eq_true.mp hall h hm] at hq)⟩
  · exact congrArg _ (contextSave_of_not_stopped hk he fun h => hp h.1)
  · obtain ⟨h, hm, hno⟩ := hs
    exact congrArg _ (contextSave_of_not_stopped hk he fun ha => by simp [List.all_eq_true.mp ha.2 h hm] at hno)
  · exact contextSave_saves hk he hp (List.all_eq_true.mpr hs)

/-- Settles O55: a decision by the launch chosen and the victims in order, and a saving by the harts of the launch. -/
theorem scheduling : Obligations.Scheduling := ⟨decisions, saving⟩

end Sys2Proof.Claims
end

section
/-! PROOF. Exact numbers as reals, their rounding to a multiple of a power of two, and the number that the mode picks (R194). -/

namespace Sys2Proof.Machine

open Sys2Proof.Claims

/-! ### Exact numbers as reals -/

/-- The factor of a sign. -/
def signUnit (neg : Bool) : ℤ := if neg then -1 else 1

/-- An exact number stands for v: δ is what its sticky bit leaves open. -/
def Ex.Holds (x : Ex) (v : ℝ) : Prop :=
  ∃ δ : ℝ, 0 ≤ δ ∧ δ < 1 ∧ (δ = 0 ↔ x.st = false) ∧ v = signUnit x.neg * ((x.m + δ) * 2 ^ x.e)

theorem abs_signUnit (neg : Bool) : |(signUnit neg : ℝ)| = 1 := by
  cases neg <;> simp [signUnit]

/-- The number of an exact number without a sticky bit. -/
def Ex.val (x : Ex) : ℚ := signUnit x.neg * (x.m * 2 ^ x.e)

theorem Ex.holds_val {x : Ex} (hst : x.st = false) : x.Holds (x.val : ℝ) := by
  refine ⟨0, le_rfl, one_pos, iff_of_true rfl hst, ?_⟩
  rw [Ex.val]
  push_cast
  rw [add_zero]

theorem Ex.Holds.abs_eq {x : Ex} {v : ℝ} (h : x.Holds v) :
    ∃ δ : ℝ, 0 ≤ δ ∧ δ < 1 ∧ (δ = 0 ↔ x.st = false) ∧ |v| = (x.m + δ) * 2 ^ x.e := by
  obtain ⟨δ, h0, h1, hδ, rfl⟩ := h
  refine ⟨δ, h0, h1, hδ, ?_⟩
  rw [abs_mul, abs_signUnit, one_mul, abs_of_nonneg (by positivity)]

theorem Ex.Holds.eq_sign_mul_abs {x : Ex} {v : ℝ} (h : x.Holds v) : v = signUnit x.neg * |v| := by
  obtain ⟨δ, h0, h1, hδ, rfl⟩ := h
  rw [abs_mul, abs_signUnit, one_mul, abs_of_nonneg (by positivity)]

theorem Ex.Holds.abs_pos {x : Ex} {v : ℝ} (h : x.Holds v) (hm : x.m ≠ 0) : 0 < |v| := by
  obtain ⟨δ, h0, -, -, hv⟩ := h.abs_eq
  have : (0 : ℝ) < x.m := by positivity
  rw [hv]
  positivity

theorem Ex.Holds.neg_iff {x : Ex} {v : ℝ} (h : x.Holds v) (hm : x.m ≠ 0) : x.neg = true ↔ v < 0 := by
  have hp := h.abs_pos hm
  rw [h.eq_sign_mul_abs]
  cases x.neg <;> simp [signUnit, hp, hp.le]

/-- The logarithm of an exact number bounds it. -/
theorem Ex.Holds.log_bounds {x : Ex} {v : ℝ} (h : x.Holds v) (hm : x.m ≠ 0) :
    (2 : ℝ) ^ x.log ≤ |v| ∧ |v| < 2 ^ (x.log + 1) := by
  obtain ⟨δ, h0, h1, -, hv⟩ := h.abs_eq
  have hlo : (2 : ℝ) ^ (Nat.log2 x.m : ℤ) ≤ x.m := by exact_mod_cast Nat.log2_self_le hm
  have hhi : (x.m : ℝ) + 1 ≤ 2 ^ ((Nat.log2 x.m : ℤ) + 1) := by exact_mod_cast Nat.lt_log2_self
  have he : (0 : ℝ) < 2 ^ x.e := by positivity
  rw [hv, Ex.log, add_assoc, zpow_add₀ two_ne_zero, zpow_add₀ two_ne_zero, mul_comm]
  exact ⟨by gcongr; linarith, by rw [mul_comm]; gcongr; linarith⟩

/-! ### Rounding a magnitude to an integer (R194) -/

/-- Whether a magnitude of n + f units, 0 ≤ f < 1, rounds up to n + 1 (R194). -/
def Rnd.RoundsUp (k : Rnd) (neg : Bool) (n : ℕ) (f : ℝ) : Prop :=
  match k.mode with
  | 0 => 1 / 2 < f ∨ f = 1 / 2 ∧ n % 2 = 1
  | 1 => False
  | 2 => neg = true ∧ f ≠ 0
  | 3 => neg = false ∧ f ≠ 0
  | 4 => 1 / 2 ≤ f
  | _ => if neg then f ≠ 0 ∧ 2 ^ 25 - (k.draw : ℝ) ≤ 2 ^ 25 * f else (k.draw : ℝ) < 2 ^ 25 * f

/-- The magnitude a is n + f units of 2^q, and r is what it rounds to, with whether it is inexact. -/
structure RoundsTo (k : Rnd) (neg : Bool) (a : ℝ) (q : ℤ) (n : ℕ) (f : ℝ) (r : ℕ × Bool) : Prop where
  nonneg : 0 ≤ f
  lt_one : f < 1
  split : a = (n + f) * 2 ^ q
  result : k.RoundsUp neg n f ∧ r.1 = n + 1 ∨ ¬k.RoundsUp neg n f ∧ r.1 = n
  inexact : r.2 = true ↔ f ≠ 0

/-- An exact magnitude stays as it is. -/
theorem Rnd.not_roundsUp_zero (k : Rnd) (neg : Bool) (n : ℕ) : ¬k.RoundsUp neg n 0 := by
  unfold Rnd.RoundsUp
  split <;> cases neg <;> norm_num

section
variable {st : Bool} {δ : ℝ} (r : ℕ) (h0 : 0 ≤ δ) (h1 : δ < 1) (hδ : δ = 0 ↔ st = false)

include h0 h1 in
theorem natCast_le_add_iff (a : ℕ) : (a : ℝ) ≤ r + δ ↔ a ≤ r := by
  constructor
  · intro h
    exact Nat.lt_succ_iff.mp (by exact_mod_cast h.trans_lt (add_lt_add_right h1 _))
  · intro h
    have : (a : ℝ) ≤ r := by exact_mod_cast h
    linarith

include h0 h1 hδ

theorem natCast_lt_add_iff (a : ℕ) : (a : ℝ) < r + δ ↔ a < r ∨ st = true ∧ a = r := by
  constructor
  · intro h
    refine ((natCast_le_add_iff r h0 h1 a).mp h.le).lt_or_eq.imp_right fun he => ⟨?_, he⟩
    rw [← Bool.not_eq_false, ← hδ]
    rintro rfl
    simp [he] at h
  · rintro (h | ⟨hst, rfl⟩)
    · have : (a : ℝ) < r := by exact_mod_cast h
      linarith
    · have : δ ≠ 0 := by simp [hδ, hst]
      linarith [h0.lt_of_ne' this]

/-- A remainder of d bits against a multiple of 2^-j, where no sticky bit stands among the first j bits. -/
theorem remainder_compare (a : ℕ) {d j : ℕ} (hs : st = true → j ≤ d) :
    ((a : ℝ) < 2 ^ j * ((r + δ) / 2 ^ d) ↔ a * 2 ^ d < r * 2 ^ j ∨ st = true ∧ a * 2 ^ d = r * 2 ^ j) ∧
    ((a : ℝ) ≤ 2 ^ j * ((r + δ) / 2 ^ d) ↔ a * 2 ^ d ≤ r * 2 ^ j) := by
  cases st with
  | false =>
    obtain rfl := hδ.mpr rfl
    have he : (2 : ℝ) ^ j * ((r + 0) / 2 ^ d) = (r * 2 ^ j) / 2 ^ d := by ring
    rw [he, lt_div_iff₀ (by positivity), le_div_iff₀ (by positivity)]
    norm_cast
    simp
  | true =>
    obtain ⟨i, rfl⟩ := Nat.exists_eq_add_of_le (hs rfl)
    have he : (2 : ℝ) ^ j * ((r + δ) / 2 ^ (j + i)) = (r + δ) / 2 ^ i := by rw [pow_add]; field_simp
    have hm : a * 2 ^ (j + i) = a * 2 ^ i * 2 ^ j := by ring
    have hlt := natCast_lt_add_iff r h0 h1 hδ (a * 2 ^ i)
    have hle := natCast_le_add_iff r h0 h1 (a * 2 ^ i)
    push_cast at hlt hle
    rw [he, lt_div_iff₀ (by positivity), le_div_iff₀ (by positivity), hm, hlt, hle,
      Nat.mul_lt_mul_right (by positivity), Nat.mul_le_mul_right_iff (by positivity), Nat.mul_left_inj (by positivity)]
    exact ⟨Iff.rfl, Iff.rfl⟩

theorem remainder_ne_zero_iff (d : ℕ) : (r + δ) / 2 ^ d ≠ 0 ↔ (r != 0 || st) = true := by
  have h := natCast_lt_add_iff r h0 h1 hδ 0
  rw [Nat.cast_zero] at h
  rw [div_ne_zero_iff, and_iff_left (by positivity), ne_comm, ← (by positivity : 0 ≤ r + δ).lt_iff_ne, h]
  cases st
  · simp [Nat.pos_iff_ne_zero]
  · simp [Nat.eq_zero_or_pos, or_comm, eq_comm (a := 0)]

/-- A remainder of d ≥ 1 bits against one half. -/
theorem remainder_half {d H : ℕ} (hH : 2 ^ d = 2 * H) (hd : 1 ≤ d) :
    (1 / 2 < (r + δ) / 2 ^ d ↔ H < r ∨ st = true ∧ H = r) ∧ (1 / 2 ≤ (r + δ) / 2 ^ d ↔ H ≤ r) := by
  obtain ⟨hlt, hle⟩ := remainder_compare r h0 h1 hδ 1 (d := d) (j := 1) fun _ => hd
  rw [Nat.cast_one, pow_one, ← div_lt_iff₀' two_pos] at hlt
  rw [Nat.cast_one, pow_one, ← div_le_iff₀' two_pos] at hle
  rw [hlt, hle, one_mul, hH, pow_one, Nat.mul_comm 2 H, Nat.mul_lt_mul_right two_pos, Nat.mul_le_mul_right_iff two_pos,
    Nat.mul_left_inj two_ne_zero]
  exact ⟨Iff.rfl, Iff.rfl⟩

/-- The test of the model on a remainder of d ≥ 1 bits, with a sticky bit only behind 25 bits or more. -/
theorem Rnd.up_iff {k : Rnd} (hk : k.draw < 2 ^ 25) {neg : Bool} {n d : ℕ} (hd : 1 ≤ d) (hs : st = true → 25 ≤ d) :
    k.up neg st n r d = true ↔ k.RoundsUp neg n ((r + δ) / 2 ^ d) := by
  obtain ⟨mode, draw⟩ := k
  obtain ⟨H, hH⟩ : 2 ∣ 2 ^ d := dvd_pow_self 2 (by omega)
  obtain ⟨hlt, hle⟩ := remainder_half r h0 h1 hδ hH hd
  have hdraw := (remainder_compare r h0 h1 hδ draw hs).1
  have hdraw' := (remainder_compare r h0 h1 hδ (2 ^ 25 - draw) hs).2
  have hne := remainder_ne_zero_iff r h0 h1 hδ d
  rw [Nat.cast_sub hk.le, Nat.cast_pow, Nat.cast_two] at hdraw'
  have hH' : 2 ^ d / 2 = H := by omega
  have hd0 : (d != 0) = true := by simpa using Nat.ne_of_gt hd
  generalize (r + δ) / 2 ^ d = f at *
  unfold Rnd.up Rnd.RoundsUp
  match mode with
  | 0 =>
    have heq : f = 1 / 2 ↔ r = H ∧ st = false := by
      rw [eq_comm, eq_iff_le_not_lt, hlt, hle]
      cases st <;> simp <;> omega
    simp only [hH', hd0, hlt, heq]
    cases st
    · simp
    · simp; omega
  | 1 => simp
  | 2 => simp only [Bool.and_eq_true, ← hne]
  | 3 => simp only [Bool.and_eq_true, ← hne, Bool.not_eq_true']
  | 4 => simp only [hH', hd0, hle, Bool.and_true, decide_eq_true_eq]
  | _ + 5 =>
    cases neg
    · simp only [hdraw, Bool.or_eq_true, Bool.and_eq_true, decide_eq_true_eq, beq_iff_eq, Bool.false_eq_true, if_false]
    · simp only [hdraw', ← hne, Bool.and_eq_true, decide_eq_true_eq, if_true]

end

/-- `Ex.roundAt` rounds the number that it is given, whose sticky bit stands at least 25 bits below the unit. -/
theorem Ex.Holds.roundsTo {x : Ex} {v : ℝ} (hx : x.Holds v) {k : Rnd} (hk : k.draw < 2 ^ 25) {q : ℤ}
    (hs : x.st = true → x.e + 25 ≤ q) : ∃ n f, RoundsTo k x.neg |v| q n f (x.roundAt k q) := by
  obtain ⟨δ, h0, h1, hδ, hv⟩ := hx.abs_eq
  unfold Ex.roundAt
  split
  case isTrue hq =>
    have hst : x.st = false := by
      rw [← Bool.not_eq_true]
      intro h
      linarith [hs h]
    refine ⟨x.m * 2 ^ (x.e - q).toNat, 0, le_rfl, one_pos, ?_, .inr ⟨Rnd.not_roundsUp_zero _ _ _, rfl⟩, by simp [hst]⟩
    rw [hv, hδ.mpr hst]
    push_cast
    rw [← zpow_natCast, Int.toNat_of_nonneg (by omega), add_zero, add_zero, mul_assoc, ← zpow_add₀ two_ne_zero]
    congr 2
    omega
  case isFalse hq =>
    generalize hd : (q - x.e).toNat = d
    have hde : q = d + x.e := by omega
    have hup := Rnd.up_iff (x.m % 2 ^ d) h0 h1 hδ hk (neg := x.neg) (n := x.m / 2 ^ d) (by omega : 1 ≤ d) fun h => by
      have := hs h
      omega
    have hr : ((x.m % 2 ^ d : ℕ) : ℝ) + 1 ≤ 2 ^ d := by exact_mod_cast Nat.mod_lt x.m (by positivity)
    refine ⟨x.m / 2 ^ d, ((x.m % 2 ^ d : ℕ) + δ) / 2 ^ d, by positivity, ?_, ?_, ?_, ?_⟩
    · rw [div_lt_one (by positivity)]
      linarith
    · have hm : (x.m : ℝ) = (x.m / 2 ^ d : ℕ) * 2 ^ d + (x.m % 2 ^ d : ℕ) := by
        exact_mod_cast (Nat.div_add_mod' x.m (2 ^ d)).symm
      rw [hv, hde, zpow_add₀ two_ne_zero, zpow_natCast]
      conv_lhs => rw [hm]
      field_simp
      ring
    · rw [← hup]
      cases hb : k.up x.neg x.st (x.m / 2 ^ d) (x.m % 2 ^ d) d <;> simp [b2n, hb]
    · exact (remainder_ne_zero_iff _ h0 h1 hδ d).symm

/-! ### The number that the mode picks (R194) -/

namespace RoundsTo
variable {k : Rnd} {neg : Bool} {a : ℝ} {q : ℤ} {n : ℕ} {f : ℝ} {r : ℕ × Bool} (h : RoundsTo k neg a q n f r)
include h

theorem result_mem : r.1 = n ∨ r.1 = n + 1 := h.result.symm.imp And.right And.right

theorem mul_le : n * (2 : ℝ) ^ q ≤ a := by
  rw [h.split]
  gcongr
  linarith [h.nonneg]

theorem lt_mul : a < (n + 1) * (2 : ℝ) ^ q := by
  rw [h.split]
  gcongr
  linarith [h.lt_one]

/-- A magnitude is what it rounds to exactly where nothing is left of it. -/
theorem exact_iff : (r.1 : ℝ) * 2 ^ q = a ↔ f = 0 := by
  have hq : (2 : ℝ) ^ q ≠ 0 := by positivity
  rw [h.split, mul_left_inj' hq]
  obtain ⟨hup, hr⟩ | ⟨-, hr⟩ := h.result
  · have hf : f ≠ 0 := by
      rintro rfl
      exact Rnd.not_roundsUp_zero _ _ _ hup
    have := h.lt_one
    rw [hr, Nat.cast_add, Nat.cast_one, add_right_inj]
    exact ⟨fun h1 => by linarith, fun h0 => absurd h0 hf⟩
  · rw [hr, left_eq_add]

theorem inexact_iff : r.2 = true ↔ (r.1 : ℝ) * 2 ^ q ≠ a := by rw [h.inexact, ne_eq, ne_eq, h.exact_iff]

omit h in
/-- With the sign, what a number rounds to is another number exactly where it is inexact. -/
theorem ne_iff {v : ℝ} (h : RoundsTo k neg |v| q n f r) (hv : v = signUnit neg * |v|) :
    (((signUnit neg * r.1 : ℤ) * 2 ^ q : ℚ) : ℝ) ≠ v ↔ r.2 = true := by
  rw [h.inexact_iff, hv, abs_mul, abs_signUnit, abs_abs, one_mul]
  cases neg <;> simp [signUnit]

end RoundsTo

/-- How the mode of k picks at g of the way from the multiple l of a unit to the next: the upper one exactly when up. -/
structure Rnd.Picks (k : Rnd) (neg : Bool) (l : ℤ) (g : ℝ) (up : Prop) : Prop where
  nearest : k.mode = 0 ∨ k.mode = 4 → (g < 1 / 2 → ¬up) ∧ (1 / 2 < g → up)
  tieEven : k.mode = 0 → g = 1 / 2 → (up ↔ ¬Even l)
  tieAway : k.mode = 4 → g = 1 / 2 → (up ↔ neg = false)
  toZero : k.mode = 1 → (up ↔ neg = true)
  toBottom : k.mode = 2 → ¬up
  toTop : k.mode = 3 → up
  random : k.mode = 5 → (up ↔ (k.draw : ℝ) < 2 ^ 25 * g)

theorem Rnd.picks_pos (k : Rnd) (n : ℕ) {f : ℝ} (hf : 0 < f) : k.Picks false n f (k.RoundsUp false n f) := by
  obtain ⟨mode, draw⟩ := k
  constructor
  · rintro (rfl | rfl)
    · exact ⟨fun h hu => by rcases hu with hu | hu <;> linarith, .inl⟩
    · exact ⟨fun h hu => (h.trans_le hu).false, le_of_lt⟩
  · rintro rfl h
    simp [Rnd.RoundsUp, h, Nat.odd_iff]
  · rintro rfl h
    simp [Rnd.RoundsUp, h]
  · rintro rfl
    simp [Rnd.RoundsUp]
  · rintro rfl
    simp [Rnd.RoundsUp]
  · rintro rfl
    simp [Rnd.RoundsUp, hf.ne']
  · rintro rfl
    simp [Rnd.RoundsUp]

theorem Rnd.picks_neg (k : Rnd) (n : ℕ) {f : ℝ} (hf : 0 < f) : k.Picks true (-(n + 1)) (1 - f) (¬k.RoundsUp true n f) := by
  obtain ⟨mode, draw⟩ := k
  constructor
  · rintro (rfl | rfl)
    · exact ⟨fun h hu => hu (.inl (by linarith)), fun h hu => by rcases hu with hu | hu <;> linarith⟩
    · exact ⟨fun h hu => hu (by simp only [Rnd.RoundsUp]; linarith), fun h hu => by simp only [Rnd.RoundsUp] at hu; linarith⟩
  · rintro rfl h
    have hf2 : f = 1 / 2 := by linarith
    have hn : Even (-(n + 1) : ℤ) ↔ ¬Even n := by rw [even_neg, Int.even_add_one, Int.even_coe_nat]
    rw [hn, not_not, Nat.even_iff]
    simp [Rnd.RoundsUp, hf2]
  · rintro rfl h
    have hf2 : f = 1 / 2 := by linarith
    simp [Rnd.RoundsUp, hf2]
  · rintro rfl
    simp [Rnd.RoundsUp]
  · rintro rfl
    simp [Rnd.RoundsUp, hf.ne']
  · rintro rfl
    simp [Rnd.RoundsUp]
  · rintro rfl
    simp only [Rnd.RoundsUp, if_true, hf.ne', ne_eq, not_false_eq_true, true_and, not_le]
    constructor <;> intro <;> linarith

/-- A number is what it rounds to. -/
theorem rounded_self {number : ℚ → Prop} {y : ℚ} (hy : number y) (k : Rnd) : Rounded number k y y := by
  refine ⟨hy, fun z _ hz => (by exact_mod_cast hz.symm), fun lo hi _ _ hlo hhi hadj => ?_⟩
  have hlo' : lo < y := by exact_mod_cast hlo
  have hhi' : y < hi := by exact_mod_cast hhi
  rcases hadj y hy with h | h
  · exact absurd h hlo'.not_ge
  · exact absurd h hhi'.not_ge

/-- Neighbours of a number between two neighbours are these two. -/
theorem neighbours_eq {number : ℚ → Prop} {a b lo hi : ℚ} {v : ℝ} (ha : number a) (hb : number b)
    (hgap : ∀ z, number z → z ≤ a ∨ b ≤ z) (hav : (a : ℝ) < v) (hvb : v < (b : ℝ)) (hlo : number lo) (hhi : number hi)
    (hlov : (lo : ℝ) < v) (hvhi : v < (hi : ℝ)) (hadj : ∀ z, number z → z ≤ lo ∨ hi ≤ z) : lo = a ∧ hi = b := by
  have hlob : lo < b := by exact_mod_cast hlov.trans hvb
  have hahi : a < hi := by exact_mod_cast hav.trans hvhi
  exact ⟨le_antisymm ((hgap lo hlo).resolve_right hlob.not_ge) ((hadj a ha).resolve_right hahi.not_ge),
    le_antisymm ((hadj b hb).resolve_left hlob.not_ge) ((hgap hi hhi).resolve_left hahi.not_ge)⟩

/-- What lies between the neighbouring numbers l and l + 1 units rounds to the one that is picked. -/
theorem rounded_of_picks {number : ℚ → Prop} {u : ℚ} (hu : 0 < u) {l : ℤ} (hl : number (l * u))
    (hl' : number ((l + 1 : ℤ) * u)) (hgap : ∀ z, number z → z ≤ l * u ∨ (l + 1 : ℤ) * u ≤ z) {k : Rnd} {up : Prop}
    {b : Bool} {g v : ℝ} (hg : 0 < g) (hg' : g < 1) (hv : v = (l + g) * u) (hneg : b = true ↔ v < 0)
    (hk : k.Picks b l g up) {y : ℚ} (hy : up ∧ y = (l + 1 : ℤ) * u ∨ ¬up ∧ y = l * u) : Rounded number k v y := by
  have huR : (0 : ℝ) < u := by exact_mod_cast hu
  have hlR : ((l * u : ℚ) : ℝ) = l * u := by push_cast; rfl
  have hlR' : (((l + 1 : ℤ) * u : ℚ) : ℝ) = (l + 1) * u := by push_cast; rfl
  have hbelow : ((l * u : ℚ) : ℝ) < v := by
    rw [hlR, hv]
    gcongr
    linarith
  have habove : v < (((l + 1 : ℤ) * u : ℚ) : ℝ) := by
    rw [hlR', hv]
    gcongr
  refine ⟨by obtain ⟨-, rfl⟩ | ⟨-, rfl⟩ := hy <;> assumption, fun z hz hzv => ?_, fun lo hi hlo hhi hlov hvhi hadj => ?_⟩
  · subst hzv
    rcases hgap z hz with h | h
    · exact absurd h (by exact_mod_cast hbelow.not_ge)
    · exact absurd h (by exact_mod_cast habove.not_ge)
  · obtain ⟨rfl, rfl⟩ := neighbours_eq hl hl' hgap hbelow habove hlo hhi hlov hvhi hadj
    have hunit : ((l + 1 : ℤ) * u - l * u : ℚ) = u := by push_cast; ring
    have hlt : 2 * v < l * u + (l + 1) * u → g < 1 / 2 := fun h => by nlinarith
    have hgt : l * u + (l + 1) * u < 2 * v → 1 / 2 < g := fun h => by nlinarith
    have heq : 2 * v = l * u + (l + 1) * u → g = 1 / 2 := fun h => by
      have : (2 * g - 1) * (u : ℝ) = 0 := by linarith
      linarith [(mul_eq_zero.mp this).resolve_right huR.ne']
    have hrnd : (k.draw : ℝ) * ((l + 1) * u - l * u) < 2 ^ 25 * (v - l * u) ↔ (k.draw : ℝ) < 2 ^ 25 * g := by
      rw [hv, ← sub_mul, ← sub_mul, add_sub_cancel_left, add_sub_cancel_left, one_mul, ← mul_assoc,
        mul_lt_mul_iff_left₀ huR]
    have hup : up → y = (l + 1 : ℤ) * u := fun h => (hy.resolve_right fun h' => h'.1 h).2
    have hdown : ¬up → y = l * u := fun h => (hy.resolve_left fun h' => h h'.1).2
    have hpos : 0 < v → b = false := fun h => by rw [← Bool.not_eq_true, hneg]; exact h.not_gt
    rw [hlR, hlR', hunit]
    refine ⟨hy.symm.imp And.right And.right, fun hm => ⟨fun h => hdown ((hk.nearest hm).1 (hlt h)),
      fun h => hup ((hk.nearest hm).2 (hgt h))⟩, fun hm h => ?_, fun hm h => ?_, fun hm => ?_,
      fun hm => hdown (hk.toBottom hm), fun hm => hup (hk.toTop hm), fun hm => ?_⟩
    · have ht := hk.tieEven hm (heq h)
      by_cases he : Even l
      · obtain ⟨m, hm⟩ := id he
        exact ⟨m, by rw [hdown (ht.not.mpr (not_not.mpr he)), hm]; push_cast; ring⟩
      · obtain ⟨m, hm⟩ := Int.not_even_iff_odd.mp he
        exact ⟨m + 1, by rw [hup (ht.mpr he), hm]; push_cast; ring⟩
    · have ht := hk.tieAway hm (heq h)
      exact ⟨fun h => hup (ht.mpr (hpos h)), fun h => hdown (by rw [ht, hneg.mpr h]; decide)⟩
    · have ht := hk.toZero hm
      exact ⟨fun h => hdown (by rw [ht, hpos h]; decide), fun h => hup (ht.mpr (hneg.mpr h))⟩
    · rw [← not_lt, hrnd, ← hk.random hm]
      exact ⟨hup, hdown⟩

/-- The multiples of 2^q up to n + 1 are numbers, and between n and n + 1 of them there is no magnitude of a number. -/
structure NumbersAround (number : ℚ → Prop) (q : ℤ) (n : ℕ) : Prop where
  units : ∀ l : ℤ, |l| ≤ n + 1 → number (l * 2 ^ q)
  gap : ∀ z, number z → |z| ≤ n * 2 ^ q ∨ (n + 1) * 2 ^ q ≤ |z|

namespace NumbersAround
variable {number : ℚ → Prop} {q : ℤ} {n : ℕ} (hn : NumbersAround number q n)
include hn

theorem gap_pos {z : ℚ} (hz : number z) : z ≤ (n : ℤ) * 2 ^ q ∨ (n + 1 : ℤ) * 2 ^ q ≤ z := by
  have hu : (0 : ℚ) < 2 ^ q := by positivity
  push_cast
  obtain h | h := hn.gap z hz
  · exact .inl ((le_abs_self z).trans h)
  · obtain h | h := le_abs.mp h
    · exact .inr h
    · exact .inl (by nlinarith)

theorem gap_neg {z : ℚ} (hz : number z) :
    z ≤ (-(n + 1) : ℤ) * 2 ^ q ∨ (-(n + 1) + 1 : ℤ) * 2 ^ q ≤ z := by
  have hu : (0 : ℚ) < 2 ^ q := by positivity
  push_cast
  obtain h | h := hn.gap z hz
  · exact .inr (by linarith [(abs_le.mp h).1])
  · obtain h | h := le_abs.mp h
    · exact .inr (by nlinarith)
    · exact .inl (by linarith)

end NumbersAround

/-- The magnitude that `Ex.roundAt` answers is, with the sign, the number that the mode picks. -/
theorem RoundsTo.rounded {k : Rnd} {neg : Bool} {v : ℝ} {q : ℤ} {n : ℕ} {f : ℝ} {r : ℕ × Bool}
    (h : RoundsTo k neg |v| q n f r) (hv : v = signUnit neg * |v|) (hneg : neg = true ↔ v < 0)
    {number : ℚ → Prop} (hn : NumbersAround number q n) : Rounded number k v ((signUnit neg * r.1 : ℤ) * 2 ^ q) := by
  have hu : (0 : ℚ) < 2 ^ q := by positivity
  rcases h.nonneg.eq_or_lt with hf | hf
  · have hr : (((signUnit neg * r.1 : ℤ) * 2 ^ q : ℚ) : ℝ) = v := by
      rw [hv, ← h.exact_iff.mpr hf.symm]
      push_cast
      ring
    have hle : |signUnit neg * (r.1 : ℤ)| ≤ n + 1 := by
      have := h.result_mem
      cases neg <;> simp [signUnit] <;> omega
    have := rounded_self (hn.units _ hle) k
    rwa [hr] at this
  · have hsplit := h.split
    cases neg with
    | false =>
      have hvp : |v| = v := by simpa [signUnit] using hv.symm
      refine rounded_of_picks hu (l := n) (hn.units _ (by simp)) (hn.units _ (by rw [abs_of_nonneg (by omega)]))
        (fun z => hn.gap_pos) hf h.lt_one (by rw [← hvp, hsplit]; push_cast; rfl) hneg (k.picks_pos n hf)
        (h.result.imp (And.imp_right ?_) (And.imp_right ?_))
      all_goals
        intro hr
        simp [hr, signUnit]
    | true =>
      have hvn : v = -|v| := by simpa [signUnit] using hv
      refine rounded_of_picks hu (l := -(n + 1)) (hn.units _ (by rw [abs_neg, abs_of_nonneg (by omega)]))
        (hn.units _ (by simp)) (fun z => hn.gap_neg) (by linarith [h.lt_one]) (by linarith)
        (by rw [hvn, hsplit]; push_cast; ring) hneg (k.picks_neg n hf)
        (h.result.symm.imp (And.imp_right ?_) (And.imp not_not.mpr ?_))
      all_goals
        intro hr
        simp [hr, signUnit]

end Sys2Proof.Machine
end

section
/-! PROOF. Patterns of a format as numbers, and what a finite pattern decodes to (R187). -/

namespace Sys2Proof.Machine

open Sys2Proof.Claims

/-! ### Patterns as numbers (R187) -/

/-- The exponent of the smallest unit of a format. -/
def FFmt.low (f : FFmt) : ℤ := 1 - f.bias - f.fbits

/-- The number of a magnitude: its fraction in units of its exponent. -/
def FFmt.magValue (f : FFmt) (mag : ℕ) : ℚ :=
  (if mag / 2 ^ f.fbits = 0 then (mag % 2 ^ f.fbits : ℕ) else 2 ^ f.fbits + (mag % 2 ^ f.fbits : ℕ)) *
    2 ^ (f.low + (max (mag / 2 ^ f.fbits) 1 : ℕ) - 1)

/-- N units of exponent j: a subnormal number, or one whose leading bit counts one exponent up. -/
theorem FFmt.magValue_units (f : FFmt) {j N : ℕ} (hN : N ≤ 2 ^ (f.fbits + 1)) (hj : j = 0 ∨ 2 ^ f.fbits ≤ N) :
    f.magValue (j * 2 ^ f.fbits + N) = N * 2 ^ (f.low + j) := by
  have hP : 0 < 2 ^ f.fbits := by positivity
  rw [pow_succ] at hN
  unfold FFmt.magValue
  rw [Nat.mul_add_mod_self_right, Nat.add_comm, Nat.add_mul_div_right _ _ hP]
  rcases lt_or_ge N (2 ^ f.fbits) with hlt | hge
  · obtain rfl := hj.resolve_right hlt.not_ge
    simp [Nat.div_eq_of_lt hlt, Nat.mod_eq_of_lt hlt]
  · obtain ⟨r, rfl⟩ := Nat.exists_eq_add_of_le hge
    rcases (show r ≤ 2 ^ f.fbits by omega).lt_or_eq with hr | rfl
    · rw [Nat.add_mod_left, Nat.mod_eq_of_lt hr, Nat.add_div_left _ hP, Nat.div_eq_of_lt hr, if_neg (by omega)]
      push_cast
      congr 2
      rw [max_eq_left (by omega)]
      ring
    · rw [← Nat.two_mul, Nat.mul_mod_left, Nat.mul_div_cancel _ hP, if_neg (by omega)]
      push_cast
      rw [max_eq_left (by linarith), show f.low + (2 + (j : ℤ)) - 1 = f.low + j + 1 by ring, zpow_add_one₀ two_ne_zero]
      ring

/-- A larger magnitude is a larger number. -/
theorem FFmt.magValue_strictMono (f : FFmt) : StrictMono f.magValue := by
  refine strictMono_nat_of_lt_succ fun mag => ?_
  have hP : 0 < 2 ^ f.fbits := by positivity
  have hlt := Nat.mod_lt mag hP
  obtain ⟨j, N, hj, hN, rfl⟩ : ∃ j N, (j = 0 ∨ 2 ^ f.fbits ≤ N) ∧ N < 2 ^ (f.fbits + 1) ∧ mag = j * 2 ^ f.fbits + N := by
    rcases Nat.eq_zero_or_pos (mag / 2 ^ f.fbits) with h0 | h0
    · have := (Nat.div_eq_zero_iff_lt hP).mp h0
      exact ⟨0, mag, .inl rfl, by rw [pow_succ]; omega, by simp⟩
    · refine ⟨mag / 2 ^ f.fbits - 1, 2 ^ f.fbits + mag % 2 ^ f.fbits, .inr (by omega), by rw [pow_succ]; omega, ?_⟩
      rw [← Nat.add_assoc, ← Nat.succ_mul, Nat.succ_eq_add_one, Nat.sub_add_cancel h0, Nat.div_add_mod']
  rw [Nat.add_assoc, f.magValue_units hN.le hj, f.magValue_units hN (hj.imp_right fun h => h.trans N.le_succ)]
  gcongr
  exact N.lt_succ_self

/-- The number of a pattern is that of its magnitude, with its sign. -/
theorem FFmt.valueOf_eq (f : FFmt) (p : ℕ) :
    valueOf f.ebits f.fbits p = signUnit (f.sign p) * f.magValue (p % 2 ^ f.magBits) := by
  have hmod : p % 2 ^ f.magBits % 2 ^ f.fbits = p % 2 ^ f.fbits :=
    Nat.mod_mod_of_dvd _ (pow_dvd_pow 2 (Nat.le_add_left _ _))
  have hexp (x : ℕ) : f.low + (x : ℤ) - 1 = x - (2 ^ (f.ebits - 1) - 1 + f.fbits : ℕ) := by
    simp only [FFmt.low, FFmt.bias]
    push_cast
    ring
  unfold valueOf FFmt.magValue
  rw [hmod, hexp, show f.ebits + f.fbits = f.magBits from rfl, FFmt.sign]
  simp only
  rw [← mul_assoc, Nat.cast_ite, Nat.cast_add (2 ^ f.fbits), Nat.cast_pow, Nat.cast_two]
  congr 1
  cases p.testBit f.magBits
  · simp [signUnit]
  · rw [signUnit, if_pos rfl, if_pos rfl, Int.cast_neg, Int.cast_one, neg_one_mul]

/-- A magnitude with a sign has that sign, that magnitude, and no bit above. -/
theorem FFmt.sign_signed (f : FFmt) (neg : Bool) {mag : ℕ} (h : mag < 2 ^ f.magBits) : f.sign (f.signed neg mag) = neg := by
  unfold FFmt.sign FFmt.signed
  rw [Nat.testBit_eq_decide_div_mod_eq, Nat.add_comm, Nat.add_mul_div_right _ _ (by positivity), Nat.div_eq_of_lt h]
  cases neg <;> rfl

theorem FFmt.signed_mod (f : FFmt) (neg : Bool) {mag : ℕ} (h : mag < 2 ^ f.magBits) :
    f.signed neg mag % 2 ^ f.magBits = mag := by
  rw [FFmt.signed, Nat.mul_add_mod_self_right, Nat.mod_eq_of_lt h]

theorem FFmt.signed_lt (f : FFmt) (neg : Bool) {mag : ℕ} (h : mag < 2 ^ f.magBits) :
    f.signed neg mag < 2 ^ (f.magBits + 1) := by
  rw [FFmt.signed, pow_succ]
  cases neg <;> simp [b2n] <;> omega

theorem FFmt.valueOf_signed (f : FFmt) (neg : Bool) {mag : ℕ} (h : mag < 2 ^ f.magBits) :
    valueOf f.ebits f.fbits (f.signed neg mag) = signUnit neg * f.magValue mag := by
  rw [f.valueOf_eq, f.sign_signed neg h, f.signed_mod neg h]

/-- A finite pattern decodes to its sign, its fraction with the leading bit, and its exponent. -/
theorem FFmt.decode_of_finite {f : FFmt} {p : ℕ} (hf : f.kind = .ieee) (hp : IsFinite f.ebits f.fbits p) :
    let mag := p % 2 ^ f.magBits
    f.decode p = .num ⟨f.sign p,
      if mag / 2 ^ f.fbits = 0 then mag % 2 ^ f.fbits else 2 ^ f.fbits + mag % 2 ^ f.fbits,
      f.low + (max (mag / 2 ^ f.fbits) 1 : ℕ) - 1, false⟩ := by
  have hex : p % 2 ^ f.magBits / 2 ^ f.fbits < 2 ^ f.ebits - 1 := by
    rw [Nat.div_lt_iff_lt_mul (by positivity)]
    exact hp
  unfold FFmt.decode
  simp only [hf, hex.ne, and_false, if_false, reduceCtorEq, false_and, FFmt.low]
  generalize p % 2 ^ f.magBits / 2 ^ f.fbits = ex
  split
  · congr 2
    omega
  · congr 2
    omega

/-- A finite pattern decodes to the number that it stands for. -/
theorem FFmt.decode_holds {f : FFmt} {p : ℕ} (hf : f.kind = .ieee) (hp : IsFinite f.ebits f.fbits p) :
    ∃ x : Ex, f.decode p = .num x ∧ x.st = false ∧ valueOf f.ebits f.fbits p = x.val := by
  refine ⟨_, f.decode_of_finite hf hp, rfl, ?_⟩
  rw [f.valueOf_eq, FFmt.magValue, Ex.val]

end Sys2Proof.Machine
end

section
/-! PROOF. Rounding a number into a format: what it delivers and the flags it sets (R194, R223). -/

namespace Sys2Proof.Machine

open Sys2Proof.Claims

/-! ### Rounding into a format (R194, R223) -/

/-- The unit at which a format rounds x: its precision below the leading bit of x, and never below its smallest unit. -/
def FFmt.unitOf (f : FFmt) (x : Ex) : ℤ := max (x.log - f.fbits) f.low

theorem FFmt.low_eq (f : FFmt) : f.low = 2 - 2 ^ (f.ebits - 1) - (f.fbits : ℤ) := by
  have : 1 ≤ 2 ^ (f.ebits - 1) := Nat.one_le_two_pow
  rw [FFmt.low, FFmt.bias]
  push_cast [this]
  ring

theorem FFmt.low_le_unitOf (f : FFmt) (x : Ex) : f.low ≤ f.unitOf x := le_max_right _ _

theorem FFmt.log_sub_le_unitOf (f : FFmt) (x : Ex) : x.log - f.fbits ≤ f.unitOf x := le_max_left _ _

theorem FFmt.unitOf_of_low_lt {f : FFmt} {x : Ex} (h : f.low < f.unitOf x) : f.unitOf x = x.log - f.fbits :=
  max_eq_left ((lt_max_iff.mp h).resolve_right (lt_irrefl _)).le

/-- Around n units, the numbers of a format are the multiples of the unit where n has the format's precision. -/
theorem FFmt.numbersAround (f : FFmt) {q : ℤ} {n : ℕ} (hq : f.low ≤ q) (hn : n < 2 ^ (f.fbits + 1))
    (hn' : f.low < q → 2 ^ f.fbits ≤ n) : NumbersAround (IsNumber f.ebits f.fbits) q n := by
  have hlow := f.low_eq
  refine ⟨fun l hl => ⟨l, q, hl.trans (by exact_mod_cast hn), hlow ▸ hq, rfl⟩, ?_⟩
  rintro _ ⟨m, e, hm, he, rfl⟩
  rw [← hlow] at he
  have hu : (0 : ℚ) < 2 ^ q := by positivity
  rcases le_or_gt q e with hqe | hqe
  · have hz : (m : ℚ) * 2 ^ e = (m * 2 ^ (e - q).toNat : ℤ) * 2 ^ q := by
      push_cast
      rw [mul_assoc, ← zpow_natCast, Int.toNat_of_nonneg (by omega), ← zpow_add₀ two_ne_zero, sub_add_cancel]
    rw [hz, abs_mul, abs_of_pos hu, mul_le_mul_iff_left₀ hu, mul_le_mul_iff_left₀ hu]
    rcases le_or_gt (|m * 2 ^ (e - q).toNat|) (n : ℤ) with h | h
    · exact .inl (by exact_mod_cast h)
    · exact .inr (by exact_mod_cast h)
  · refine .inl ?_
    rw [abs_mul, abs_of_pos (by positivity : (0 : ℚ) < 2 ^ e)]
    calc (|(m : ℚ)| * 2 ^ e) ≤ 2 ^ (f.fbits + 1) * 2 ^ (q - 1) := by
          gcongr
          · exact_mod_cast hm
          · norm_num
          · omega
      _ = 2 ^ f.fbits * 2 ^ q := by rw [pow_succ, zpow_sub_one₀ two_ne_zero]; ring
      _ ≤ n * 2 ^ q := by
        gcongr
        exact_mod_cast hn' (by omega)

/-- Rounded at its unit, a number keeps the format's precision. -/
theorem FFmt.units_bounds (f : FFmt) {x : Ex} {v : ℝ} (hx : x.Holds v) (hm : x.m ≠ 0) {k : Rnd} {neg : Bool} {n : ℕ} {g : ℝ}
    {r : ℕ × Bool} (h : RoundsTo k neg |v| (f.unitOf x) n g r) :
    n < 2 ^ (f.fbits + 1) ∧ (f.unitOf x = x.log - f.fbits → 2 ^ f.fbits ≤ n) := by
  obtain ⟨hlo, hhi⟩ := hx.log_bounds hm
  have hu : (0 : ℝ) < 2 ^ f.unitOf x := by positivity
  constructor
  · have hle : (2 : ℝ) ^ (x.log + 1) ≤ 2 ^ (f.fbits + 1) * 2 ^ f.unitOf x := by
      rw [← zpow_natCast, ← zpow_add₀ two_ne_zero]
      refine zpow_le_zpow_right₀ one_le_two ?_
      have := f.log_sub_le_unitOf x
      push_cast
      omega
    have := lt_of_mul_lt_mul_right ((h.mul_le.trans_lt hhi).trans_le hle) hu.le
    exact_mod_cast this
  · intro hunit
    have hle : (2 : ℝ) ^ x.log = 2 ^ f.fbits * 2 ^ f.unitOf x := by
      rw [← zpow_natCast, ← zpow_add₀ two_ne_zero, hunit]
      congr 1
      omega
    have := lt_of_mul_lt_mul_right ((hle.symm.le.trans hlo).trans_lt h.lt_mul) hu.le
    exact Nat.lt_succ_iff.mp (by exact_mod_cast this)

/-- What rounds up does so too in units of twice the size, where it stands nearer to the upper neighbour. -/
theorem Rnd.RoundsUp.half {k : Rnd} {neg : Bool} {m : ℕ} {g : ℝ} (h : k.RoundsUp neg m g) (hg : 0 ≤ g) (hg' : g < 1) (n : ℕ) :
    k.RoundsUp neg n ((1 + g) / 2) := by
  obtain ⟨mode, draw⟩ := k
  have hne : (1 + g) / 2 ≠ 0 := by positivity
  unfold Rnd.RoundsUp at h ⊢
  match mode with
  | 0 => exact .inl (by rcases h with h | ⟨h, -⟩ <;> linarith)
  | 1 => exact h
  | 2 => exact ⟨h.1, hne⟩
  | 3 => exact ⟨h.1, hne⟩
  | 4 => exact (by linarith : 1 / 2 ≤ (1 + g) / 2)
  | _ + 5 =>
    cases neg
    · simp only [Bool.false_eq_true, if_false] at h ⊢
      linarith
    · simp only [if_true] at h ⊢
      exact ⟨hne, by linarith [h.2]⟩

/-- What rounds up to the precision of the smallest normal number at a finer unit does so at the unit above. -/
theorem RoundsTo.up_of_finer {k : Rnd} {neg : Bool} {a : ℝ} {q : ℤ} {P n n' : ℕ} {g g' : ℝ} {r r' : ℕ × Bool}
    (h' : RoundsTo k neg a q n' g' r') (h : RoundsTo k neg a (q + 1) n g r) (hn' : n' < 2 * P) (hr' : r'.1 = 2 * P) :
    r.1 = P := by
  have hup : k.RoundsUp neg n' g' ∧ n' + 1 = 2 * P := by
    obtain ⟨hup, hr⟩ | ⟨-, hr⟩ := h'.result
    · exact ⟨hup, by omega⟩
    · omega
  obtain ⟨hup, hn'⟩ := hup
  have hq : (2 : ℝ) ^ q ≠ 0 := by positivity
  have hsum : (n' : ℝ) + g' = 2 * (n + g) := by
    have := h'.split.symm.trans h.split
    rw [zpow_add_one₀ two_ne_zero] at this
    exact mul_right_cancel₀ hq (by linarith)
  have hn'R : (n' : ℝ) + 1 = 2 * P := by exact_mod_cast hn'
  have hn : n + 1 = P := by
    have h1 : n < P := by
      have : (n : ℝ) < P := by linarith [h.nonneg, h'.lt_one]
      exact_mod_cast this
    have h2 : P < n + 2 := by
      have : (P : ℝ) < n + 2 := by linarith [h.lt_one, h'.nonneg]
      exact_mod_cast this
    omega
  have hnR : (n : ℝ) + 1 = P := by exact_mod_cast hn
  have hg : g = (1 + g') / 2 := by linarith
  obtain ⟨-, hr⟩ | ⟨hno, -⟩ := h.result
  · omega
  · exact absurd (hg ▸ hup.half h'.nonneg h'.lt_one n) hno

/-- A format to which results are delivered: its largest finite magnitude, and what an overflow delivers (R187, R194). -/
structure FFmt.Target (f : FFmt) (sat : Bool) : Prop where
  one_le : 2 ^ f.fbits ≤ f.maxMag
  max_lt : f.maxMag < 2 ^ f.magBits
  top : f.magValue f.maxMag = if sat then 448 else (2 ^ (f.fbits + 1) - 1) * 2 ^ ((2 ^ (f.ebits - 1) - 1 : ℕ) - f.fbits : ℤ)
  overflow : ∀ (k : Rnd) (neg : Bool), f.over k neg = if sat then 0x7E else
    if k.mode = 1 ∨ (k.mode = 2 ∧ neg = false) ∨ (k.mode = 3 ∧ neg = true) then f.infMag - 1 else f.infMag
  overflow_lt : ∀ (k : Rnd) (neg : Bool), f.over k neg < 2 ^ f.magBits

/-- The smallest normal number is not past the largest finite one. -/
theorem FFmt.Target.tiny_le_top {f : FFmt} {sat : Bool} (hf : f.Target sat) : (2 : ℚ) ^ (2 - 2 ^ (f.ebits - 1) : ℤ) ≤
    if sat then 448 else (2 ^ (f.fbits + 1) - 1) * 2 ^ ((2 ^ (f.ebits - 1) - 1 : ℕ) - f.fbits : ℤ) := by
  have h := f.magValue_strictMono.monotone hf.one_le
  have hone := f.magValue_units (j := 0) (N := 2 ^ f.fbits) (Nat.pow_le_pow_right two_pos (Nat.le_succ _)) (.inl rfl)
  rw [zero_mul, zero_add] at hone
  rw [hone, hf.top, f.low_eq] at h
  refine le_of_eq_of_le ?_ h
  push_cast
  rw [← zpow_natCast, ← zpow_add₀ two_ne_zero]
  congr 1
  ring

/-- The magnitude that stands for r units of x. -/
def FFmt.magOf (f : FFmt) (x : Ex) (r : ℕ) : ℕ := (f.unitOf x - f.low).toNat * 2 ^ f.fbits + r

/-- Whether x is below the smallest normal number, and stays so when it is rounded to the format's precision (R223). -/
def FFmt.isTiny (f : FFmt) (k : Rnd) (x : Ex) : Bool :=
  decide (x.log < f.low + f.fbits) &&
    !(x.log == f.low + f.fbits - 1 && (x.roundAt k (x.log - f.fbits)).1 == 2 ^ (f.fbits + 1))

/-- What a nonzero number delivers: an overflow, or the magnitude of its units. -/
theorem FFmt.round_of_ne (f : FFmt) (k : Rnd) {x : Ex} (hm : x.m ≠ 0) : f.round k x =
    let r := x.roundAt k (f.unitOf x)
    if f.maxMag < f.magOf x r.1 then ⟨f.signed x.neg (f.over k x.neg), 5⟩
    else ⟨f.signed x.neg (f.magOf x r.1), if r.2 then (if f.isTiny k x then 3 else 1) else 0⟩ := by
  have hlow : (1 : ℤ) - f.bias = f.low + f.fbits := by rw [FFmt.low]; ring
  rw [FFmt.round, if_neg hm, hlow]
  dsimp only
  rw [add_sub_cancel_right]
  rfl

/-- The flags of a number within the range: NX where it is inexact, and UF where it is tiny too (R223). -/
theorem roundFlags_testBit (inexact tiny : Bool) : let flags := if inexact then (if tiny then 3 else 1) else 0
    flags < 8 ∧ flags.testBit 0 = inexact ∧ flags.testBit 1 = (inexact && tiny) ∧ flags.testBit 2 = false := by
  cases inexact <;> cases tiny <;> decide

section
variable (f : FFmt) {k : Rnd} {x : Ex} {v : ℝ} {n : ℕ} {g : ℝ} {r : ℕ × Bool} (hx : x.Holds v) (hm : x.m ≠ 0)
  (h : RoundsTo k x.neg |v| (f.unitOf x) n g r)
include hx hm h

/-- The magnitude of r units stands for r units. -/
theorem FFmt.magValue_magOf : f.magValue (f.magOf x r.1) = r.1 * 2 ^ f.unitOf x := by
  obtain ⟨hn, hn'⟩ := f.units_bounds hx hm h
  have hle := f.low_le_unitOf x
  have hr := h.result_mem
  rw [FFmt.magOf, f.magValue_units (by omega)]
  · congr 2
    omega
  · rcases hle.eq_or_lt with hq | hq
    · exact .inl (by omega)
    · exact .inr ((hn' (FFmt.unitOf_of_low_lt hq)).trans (by omega))

omit h in
/-- A tiny number is below the smallest normal number. -/
theorem FFmt.lt_of_isTiny (ht : f.isTiny k x = true) : |v| < 2 ^ (f.low + f.fbits) := by
  rw [FFmt.isTiny, Bool.and_eq_true, decide_eq_true_eq] at ht
  exact (hx.log_bounds hm).2.trans_le (zpow_le_zpow_right₀ one_le_two (by omega))

/-- A number that rounds to one below the smallest normal number is tiny. -/
theorem FFmt.isTiny_of_lt (hk : k.draw < 2 ^ 25) (hs : x.st = true → x.e + 25 ≤ x.log - f.fbits)
    (hlt : (r.1 : ℝ) * 2 ^ f.unitOf x < 2 ^ (f.low + f.fbits)) : f.isTiny k x = true := by
  obtain ⟨-, hn'⟩ := f.units_bounds hx hm h
  have hr := h.result_mem
  have hlog : x.log < f.low + f.fbits := by
    by_contra hge
    have hunit : f.unitOf x = x.log - f.fbits := max_eq_left (by omega)
    refine absurd hlt (not_lt.mpr ?_)
    calc (2 : ℝ) ^ (f.low + f.fbits) ≤ 2 ^ ((f.fbits : ℤ) + f.unitOf x) := zpow_le_zpow_right₀ one_le_two (by omega)
      _ = (2 ^ f.fbits : ℕ) * 2 ^ f.unitOf x := by rw [zpow_add₀ two_ne_zero]; push_cast; rfl
      _ ≤ r.1 * 2 ^ f.unitOf x := by
        gcongr
        have := hn' hunit
        omega
  rw [FFmt.isTiny, decide_eq_true hlog, Bool.true_and, Bool.not_eq_true', ← Bool.not_eq_true, Bool.and_eq_true,
    beq_iff_eq, beq_iff_eq]
  rintro ⟨hl, hr'⟩
  have hunit : f.unitOf x = x.log - f.fbits + 1 := by
    rw [FFmt.unitOf, max_eq_right (by omega)]
    omega
  obtain ⟨n', g', h'⟩ := hx.roundsTo hk hs
  have hn2 : n' < 2 * 2 ^ f.fbits := by
    have hlt := h'.mul_le.trans_lt (hx.log_bounds hm).2
    rw [show x.log + 1 = ((f.fbits : ℤ) + 1) + (x.log - f.fbits) by ring, zpow_add₀ two_ne_zero] at hlt
    have := lt_of_mul_lt_mul_right hlt (by positivity)
    rw [← pow_succ']
    exact_mod_cast this
  rw [hunit] at h hlt
  rw [h'.up_of_finer h hn2 (by rw [hr', pow_succ'])] at hlt
  refine absurd hlt (not_lt.mpr (le_of_eq ?_))
  rw [show x.log - f.fbits + 1 = f.low by omega, zpow_add₀ two_ne_zero, mul_comm]
  push_cast
  rfl

end

/-- Rounding a nonzero number into a format delivers it: the proof reads the rounding off its units. -/
theorem FFmt.round_delivers {f : FFmt} {sat : Bool} (hf : f.Target sat) {k : Rnd} (hk : k.draw < 2 ^ 25) {x : Ex} {v : ℝ}
    (hx : x.Holds v) (hm : x.m ≠ 0) (hs : x.st = true → x.e + 25 ≤ x.log - f.fbits) :
    Delivers f.ebits f.fbits sat k v (f.round k x) := by
  obtain ⟨n, g, h⟩ := hx.roundsTo hk fun hst => (hs hst).trans (f.log_sub_le_unitOf x)
  obtain ⟨hn, hn'⟩ := f.units_bounds hx hm h
  have hneg := hx.neg_iff hm
  have hval := f.magValue_magOf hx hm h
  have hround := h.rounded hx.eq_sign_mul_abs hneg
    (f.numbersAround (f.low_le_unitOf x) hn fun hq => hn' (FFmt.unitOf_of_low_lt hq))
  have htiny := f.isTiny_of_lt hx hm h hk hs
  have htiny' : f.isTiny k x = true → |v| < 2 ^ (f.low + f.fbits) := f.lt_of_isTiny hx hm
  have hmono := f.magValue_strictMono.lt_iff_lt (a := f.maxMag) (b := f.magOf x (x.roundAt k (f.unitOf x)).1)
  rw [f.round_of_ne k hm]
  generalize x.roundAt k (f.unitOf x) = r at *
  rw [hval, hf.top] at hmono
  have habs : |((signUnit x.neg * r.1 : ℤ) * 2 ^ f.unitOf x : ℚ)| = r.1 * 2 ^ f.unitOf x := by
    cases x.neg <;> simp [signUnit, abs_mul]
  have hlow : f.low + (f.fbits : ℤ) = 2 - 2 ^ (f.ebits - 1) := by rw [f.low_eq]; ring
  rw [hlow] at htiny htiny'
  refine ⟨_, hround, ?_⟩
  rw [habs, h.ne_iff hx.eq_sign_mul_abs]
  by_cases hov : f.maxMag < f.magOf x r.1
  · have hlt := hmono.mpr hov
    rw [if_pos hov]
    refine ⟨(Bool.eq_iff_iff.mp (f.sign_signed _ (hf.overflow_lt k _))).trans hneg, f.signed_lt _ (hf.overflow_lt k _),
      (by decide : 5 < 8), iff_of_true (by decide : Nat.testBit 5 0 = true) (.inr hlt),
      iff_of_true (by decide : Nat.testBit 5 2 = true) hlt, fun h5 => absurd h5 (by decide : ¬Nat.testBit 5 1 = true),
      fun _ hy => absurd (hy.trans_le hf.tiny_le_top) hlt.not_gt, fun hle => absurd hle hlt.not_ge, fun _ => ?_⟩
    change f.signed _ _ % 2 ^ f.magBits = if sat then 0x7E else if k.mode = 1 ∨ (k.mode = 2 ∧ f.sign _ = false) ∨
      (k.mode = 3 ∧ f.sign _ = true) then f.infMag - 1 else f.infMag
    rw [f.signed_mod _ (hf.overflow_lt k _), f.sign_signed _ (hf.overflow_lt k _), hf.overflow]
  · have hlt := hmono.not.mpr hov
    have hmag := (not_lt.mp hov).trans_lt hf.max_lt
    rw [if_neg hov]
    obtain ⟨hlt8, hNX, hUF, hOF⟩ := roundFlags_testBit r.2 (f.isTiny k x)
    refine ⟨(Bool.eq_iff_iff.mp (f.sign_signed _ hmag)).trans hneg, f.signed_lt _ hmag, hlt8,
      (Bool.eq_iff_iff.mp hNX).trans (or_iff_left hlt).symm, iff_of_false (Bool.eq_false_iff.mp hOF) hlt, fun hb => ?_,
      fun hr hy => ?_, fun _ => ?_, fun h => absurd h hlt⟩
    · obtain ⟨hr, ht⟩ := Bool.and_eq_true_iff.mp (hUF.symm.trans hb)
      exact ⟨hr, by push_cast; exact htiny' ht⟩
    · refine hUF.trans (Bool.and_eq_true_iff.mpr ⟨hr, htiny ?_⟩)
      have hyR := (Rat.cast_lt (K := ℝ)).mpr hy
      push_cast at hyR
      exact hyR
    · change valueOf f.ebits f.fbits (f.signed _ _) = _
      rw [f.valueOf_signed _ hmag, hval]
      push_cast
      ring

end Sys2Proof.Machine
end

section
/-! PROOF. The exact sums, products, quotients and square roots of the model as reals (R226). -/

namespace Sys2Proof.Machine

open Sys2Proof.Claims

/-! ### Exact values -/

theorem signUnit_ne_zero (neg : Bool) : signUnit neg ≠ 0 := by
  cases neg <;> simp [signUnit]

theorem Ex.val_eq_zero_iff {x : Ex} : x.val = 0 ↔ x.m = 0 := by
  have hu : (2 : ℚ) ^ x.e ≠ 0 := by positivity
  simp [Ex.val, signUnit_ne_zero, hu]

theorem Ex.val_negate (x : Ex) : ({ x with neg := !x.neg } : Ex).val = -x.val := by
  unfold Ex.val
  cases x.neg <;> simp [signUnit]

theorem signUnit_bne (a b : Bool) : signUnit (a != b) = signUnit a * signUnit b := by
  cases a <;> cases b <;> rfl

theorem signUnit_natAbs (v : ℤ) : signUnit (decide (v < 0)) * (v.natAbs : ℤ) = v := by
  rcases lt_or_ge v 0 with h | h
  · rw [decide_eq_true h, signUnit, if_pos rfl]
    omega
  · rw [decide_eq_false h.not_gt, signUnit, if_neg Bool.false_ne_true]
    omega

theorem Ex.val_ofInt (v e : ℤ) : (⟨decide (v < 0), v.natAbs, e, false⟩ : Ex).val = v * 2 ^ e := by
  have h := congrArg (Int.cast : ℤ → ℚ) (signUnit_natAbs v)
  rw [Int.cast_mul, Int.cast_natCast] at h
  rw [Ex.val, ← mul_assoc, h]

/-- A number in units of 2^e0 at or below its own. -/
theorem Ex.scaled_mul (x : Ex) {e0 : ℤ} (h : e0 ≤ x.e) : (x.scaled e0 : ℚ) * 2 ^ e0 = x.val := by
  have hpow : (2 : ℚ) ^ (x.e - e0).toNat * 2 ^ e0 = 2 ^ x.e := by
    rw [← zpow_natCast, Int.toNat_of_nonneg (by omega), ← zpow_add₀ two_ne_zero, sub_add_cancel]
  unfold Ex.scaled Ex.val
  cases x.neg <;> simp [signUnit, mul_assoc, hpow]

theorem Ex.st_add (k : Rnd) (x y : Ex) : (x.add k y).st = false := by
  unfold Ex.add
  dsimp only
  split <;> rfl

theorem Ex.val_add (k : Rnd) (x y : Ex) : (x.add k y).val = x.val + y.val := by
  rw [← x.scaled_mul (min_le_left x.e y.e), ← y.scaled_mul (min_le_right x.e y.e), ← add_mul, ← Int.cast_add]
  unfold Ex.add
  dsimp only
  split
  case isTrue h => simp [h, Ex.val]
  case isFalse h => exact Ex.val_ofInt _ _

theorem Ex.val_mul (x y : Ex) : (⟨x.neg != y.neg, x.m * y.m, x.e + y.e, false⟩ : Ex).val = x.val * y.val := by
  rw [Ex.val, signUnit_bne, zpow_add₀ two_ne_zero, Ex.val, Ex.val]
  push_cast
  ring

/-- The quotient is exact but for its sticky bit, and is taken to 199 bits or more. -/
theorem Ex.holds_div {x y : Ex} (hx : x.m ≠ 0) (hy : y.m ≠ 0) : (x.div y).Holds ((x.val / y.val : ℚ) : ℝ) ∧
    2 ^ 199 ≤ (x.div y).m := by
  generalize hK : 200 + Nat.log2 y.m = K
  have hdiv : x.div y = ⟨x.neg != y.neg, x.m * 2 ^ K / y.m, x.e - y.e - K, x.m * 2 ^ K % y.m != 0⟩ := by
    rw [← hK]
    rfl
  have hym : (y.m : ℝ) ≠ 0 := Nat.cast_ne_zero.mpr hy
  rw [hdiv]
  refine ⟨⟨(x.m * 2 ^ K % y.m : ℕ) / (y.m : ℝ), by positivity, ?_, ?_, ?_⟩, ?_⟩
  · rw [div_lt_one (by positivity)]
    exact_mod_cast Nat.mod_lt _ (Nat.pos_of_ne_zero hy)
  · simp [hym, bne]
  · have hn : ((x.m * 2 ^ K / y.m : ℕ) : ℝ) + (x.m * 2 ^ K % y.m : ℕ) / (y.m : ℝ) = x.m * 2 ^ K / y.m := by
      rw [eq_div_iff hym, add_mul, div_mul_cancel₀ _ hym]
      exact_mod_cast Nat.div_add_mod' _ _
    have hs : (signUnit y.neg : ℝ)⁻¹ = signUnit y.neg := by cases y.neg <;> simp [signUnit]
    rw [hn, signUnit_bne, Ex.val, Ex.val, zpow_sub₀ two_ne_zero, zpow_sub₀ two_ne_zero, zpow_natCast]
    push_cast
    rw [mul_div_mul_comm, div_eq_mul_inv (signUnit x.neg : ℝ), hs]
    field_simp
  · rw [Nat.le_div_iff_mul_le (Nat.pos_of_ne_zero hy)]
    have hlog : y.m < 2 ^ (Nat.log2 y.m + 1) := Nat.lt_log2_self
    calc 2 ^ 199 * y.m ≤ 2 ^ 199 * 2 ^ (Nat.log2 y.m + 1) := by gcongr
      _ = 1 * 2 ^ K := by rw [← pow_add, one_mul, ← hK]; congr 1; omega
      _ ≤ x.m * 2 ^ K := by gcongr; exact Nat.one_le_iff_ne_zero.mpr hx

/-- The square root bit by bit: r is right above bit b, and b more bits are found. -/
theorem isqrtFrom_spec (n : ℕ) : ∀ b r, r * r ≤ n → n < (r + 2 ^ b) * (r + 2 ^ b) →
    isqrtFrom n b r * isqrtFrom n b r ≤ n ∧ n < (isqrtFrom n b r + 1) * (isqrtFrom n b r + 1)
  | 0, r, h, h' => ⟨h, h'⟩
  | b + 1, r, h, h' => by
    rw [isqrtFrom]
    split
    case isTrue hle =>
      exact isqrtFrom_spec n b _ hle (by rw [add_assoc, ← two_mul, ← pow_succ']; exact h')
    case isFalse hle => exact isqrtFrom_spec n b r h (not_le.mp hle)

theorem isqrt_eq_sqrt (n : ℕ) : isqrt n = n.sqrt := by
  have hn : n < (0 + 2 ^ (n.log2 / 2 + 1)) * (0 + 2 ^ (n.log2 / 2 + 1)) := by
    rw [zero_add, ← pow_add]
    exact Nat.lt_log2_self.trans_le (Nat.pow_le_pow_right two_pos (by omega))
  obtain ⟨hle, hlt⟩ := isqrtFrom_spec n (n.log2 / 2 + 1) 0 (Nat.zero_le _) hn
  exact (Nat.eq_sqrt.mpr ⟨hle, hlt⟩)

theorem pow_le_isqrt {a b m : ℕ} (hab : a + a ≤ b) (h : 2 ^ b ≤ m) : 2 ^ a ≤ isqrt m := by
  rw [isqrt_eq_sqrt, Nat.le_sqrt, ← pow_add]
  exact (Nat.pow_le_pow_right two_pos hab).trans h

/-- The integer square root of m is that of m · 2^(2c) but for its sticky bit. -/
theorem Ex.holds_isqrt (m : ℕ) (c : ℤ) :
    (⟨false, isqrt m, c, isqrt m * isqrt m != m⟩ : Ex).Holds (Real.sqrt (m * 2 ^ (2 * c))) := by
  rw [isqrt_eq_sqrt]
  have hle : (m.sqrt : ℝ) ≤ Real.sqrt m := Real.nat_sqrt_le_real_sqrt
  refine ⟨Real.sqrt m - m.sqrt, sub_nonneg.mpr hle, ?_, ?_, ?_⟩
  · linarith [Real.real_sqrt_lt_nat_sqrt_succ (a := m)]
  · rw [sub_eq_zero, Real.sqrt_eq_iff_mul_self_eq (by positivity) (by positivity), bne_eq_false_iff_eq, ← Nat.cast_mul,
      Nat.cast_inj, eq_comm]
  · rw [Real.sqrt_mul (by positivity), zpow_mul', zpow_ofNat, Real.sqrt_sq (by positivity)]
    simp [signUnit]

/-- The square root of a positive number, taken to 200 bits or more. -/
theorem FV.sqrt_num {x : Ex} (hm : x.m ≠ 0) (hneg : x.neg = false) : ∃ y : Ex, (FV.num x).sqrt = (.num y, 0) ∧
    y.Holds (Real.sqrt (x.val : ℝ)) ∧ 2 ^ 199 ≤ y.m := by
  obtain ⟨m, c, hsqrt, hmc, hle⟩ : ∃ (m : ℕ) (c : ℤ),
      (FV.num x).sqrt = (.num ⟨false, isqrt m, c, isqrt m * isqrt m != m⟩, 0) ∧ (x.m : ℝ) * 2 ^ x.e = m * 2 ^ (2 * c) ∧
      2 ^ 400 ≤ m := by
    have hscale (m : ℕ) (e : ℤ) (he : e % 2 = 0) : (m : ℝ) * 2 ^ e = (m * 2 ^ 400 : ℕ) * 2 ^ (2 * ((e - 400) / 2)) := by
      have he' : e = 400 + 2 * ((e - 400) / 2) := by omega
      conv_lhs => rw [he', zpow_add₀ two_ne_zero, ← mul_assoc, zpow_ofNat]
      rw [Nat.cast_mul, Nat.cast_pow, Nat.cast_two]
    by_cases hodd : x.e % 2 = 1
    · refine ⟨2 * x.m * 2 ^ 400, (x.e - 1 - 400) / 2, ?_, ?_, ?_⟩
      · simp only [FV.sqrt, hm, hneg, hodd, if_true, if_false, Bool.false_eq_true]
      · rw [← hscale _ _ (by omega), zpow_sub_one₀ two_ne_zero]
        push_cast
        ring
      · exact Nat.le_mul_of_pos_left _ (Nat.mul_pos two_pos (Nat.pos_of_ne_zero hm))
    · exact ⟨x.m * 2 ^ 400, (x.e - 400) / 2, by simp only [FV.sqrt, hm, hneg, hodd, if_false, Bool.false_eq_true],
        hscale _ _ (by omega), Nat.le_mul_of_pos_left _ (Nat.pos_of_ne_zero hm)⟩
  refine ⟨_, hsqrt, ?_, ?_⟩
  · have hval : (x.val : ℝ) = m * 2 ^ (2 * c) := by
      rw [← hmc, Ex.val, hneg]
      simp [signUnit]
    rw [hval]
    exact Ex.holds_isqrt m c
  · exact pow_le_isqrt (by norm_num) hle

end Sys2Proof.Machine
end

section
/-! PROOF. The formats that results are delivered in (R187, R194). -/

namespace Sys2Proof.Machine

open Sys2Proof.Claims

/-! ### The formats that results go to -/

section
variable {f : FFmt} (hk : f.kind = .ieee)
include hk

theorem FFmt.maxMag_of_ieee : f.maxMag = f.infMag - 1 := by
  rw [FFmt.maxMag, hk, FFmt.infMag]

theorem FFmt.over_of_ieee (k : Rnd) (neg : Bool) : f.over k neg =
    if k.mode = 1 ∨ (k.mode = 2 ∧ neg = false) ∨ (k.mode = 3 ∧ neg = true) then f.infMag - 1 else f.infMag := by
  obtain ⟨mode, draw⟩ := k
  rw [FFmt.over, hk, f.maxMag_of_ieee hk]
  match mode with
  | 0 | 1 | _ + 4 => simp
  | 2 | 3 => cases neg <;> simp

/-- The largest finite magnitude: a full fraction in the last exponent below that of infinity. -/
theorem FFmt.maxMag_units {B : ℕ} (hB : 2 ^ f.ebits = 2 * B) (hB2 : 2 ≤ B) :
    f.maxMag = (2 * B - 3) * 2 ^ f.fbits + (2 * 2 ^ f.fbits - 1) := by
  obtain ⟨A, rfl⟩ := Nat.exists_eq_add_of_le' hB2
  have hP := Nat.two_pow_pos f.fbits
  rw [f.maxMag_of_ieee hk, FFmt.infMag, hB, show 2 * (A + 2) - 1 = 2 * A + 1 + 2 by omega,
    show 2 * (A + 2) - 3 = 2 * A + 1 by omega, add_mul (2 * A + 1) 2]
  omega

/-- The formats with infinities end at their largest finite number, and overflow by the mode. -/
theorem FFmt.target_of_ieee (he : 2 ≤ f.ebits) : f.Target false := by
  obtain ⟨B, hB⟩ : ∃ B, 2 ^ (f.ebits - 1) = B := ⟨_, rfl⟩
  have hB2 : 2 ≤ B := hB ▸ Nat.le_self_pow (by omega) 2
  have heB : 2 ^ f.ebits = 2 * B := by rw [← hB, ← pow_succ', Nat.sub_add_cancel (by omega)]
  have hP := Nat.two_pow_pos f.fbits
  have hinf : f.infMag < 2 ^ f.magBits := by
    rw [FFmt.infMag, FFmt.magBits, pow_add]
    exact Nat.mul_lt_mul_of_pos_right (Nat.sub_lt (by omega) one_pos) hP
  have hmax := f.maxMag_units hk heB hB2
  refine ⟨?_, ?_, ?_, f.over_of_ieee hk, fun k neg => ?_⟩
  · rw [hmax]
    omega
  · rw [f.maxMag_of_ieee hk]
    exact (Nat.sub_le _ _).trans_lt hinf
  · rw [hmax, f.magValue_units (by rw [pow_succ']; omega) (.inr (by omega)), if_neg Bool.false_ne_true, f.low_eq, hB,
      Nat.cast_sub (by omega), Nat.cast_sub (by omega), Nat.cast_sub (by omega), pow_succ']
    push_cast
    congr 2
    have hBZ : (2 : ℤ) ^ (f.ebits - 1) = B := by exact_mod_cast hB
    rw [hBZ]
    ring
  · rw [f.over_of_ieee hk]
    split <;> omega

end

/-- E4M3 ends at 448, and saturates. -/
theorem fmtE4M3_target : fmtE4M3.Target true := by
  have hover (k : Rnd) (neg : Bool) : fmtE4M3.over k neg = 0x7E := rfl
  refine ⟨by decide, by decide, ?_, hover, fun k neg => ?_⟩
  · norm_num [FFmt.magValue, FFmt.maxMag, fmtE4M3, FFmt.low, FFmt.bias]
  · rw [hover]
    decide

end Sys2Proof.Machine
end

section
/-! PROOF. The floating-point members on finite operands: the exact value rounded once (R225 to R227). -/

namespace Sys2Proof.Machine

open Sys2Proof.Claims

/-! ### One result, rounded once -/

/-- r is what the number v gives in a format: a delivered number, or a zero without a flag. -/
def FFmt.Gives (f : FFmt) (sat : Bool) (k : Rnd) (v : ℝ) (r : FR) : Prop :=
  (v ≠ 0 → Delivers f.ebits f.fbits sat k v r) ∧ (v = 0 → r.bits % 2 ^ f.magBits = 0 ∧ r.flags = 0)

section
variable {f : FFmt} {sat : Bool} (hf : f.Target sat) {k : Rnd} (hk : k.draw < 2 ^ 25) {x : Ex}
include hf hk

theorem FFmt.gives_val (hst : x.st = false) : f.Gives sat k (x.val : ℚ) (f.round k x) := by
  refine ⟨fun hv => ?_, fun hv => ?_⟩
  · have hm : x.m ≠ 0 := fun h => hv (by rw [Ex.val_eq_zero_iff.mpr h, Rat.cast_zero])
    exact FFmt.round_delivers hf hk (Ex.holds_val hst) hm fun h => by simp [hst] at h
  · have hm : x.m = 0 := Ex.val_eq_zero_iff.mp (by exact_mod_cast hv)
    rw [FFmt.round, if_pos hm]
    exact ⟨f.signed_mod _ (by positivity), rfl⟩

/-- A number taken to 199 bits has its sticky bit far below the unit of every format. -/
theorem FFmt.gives_of_long {v : ℝ} (hx : x.Holds v) (hm : 2 ^ 199 ≤ x.m) (hfb : f.fbits ≤ 52) :
    f.Gives sat k v (f.round k x) := by
  have hm0 : x.m ≠ 0 := fun h => by simp [h] at hm
  have hlog : 199 ≤ Nat.log2 x.m := (Nat.le_log2 hm0).mpr hm
  refine ⟨fun _ => FFmt.round_delivers hf hk hx hm0 fun _ => ?_, fun hv => ?_⟩
  · rw [Ex.log]
    omega
  · exact absurd hv (abs_pos.mp (hx.abs_pos hm0))

end

/-! ### The members on finite operands (R226) -/

/-- A number, its sign inverted or not. -/
def Ex.flip (n : Bool) (x : Ex) : Ex := if n then { x with neg := !x.neg } else x

theorem Ex.val_flip (n : Bool) (x : Ex) : (x.flip n).val = if n then -x.val else x.val := by
  cases n
  · rfl
  · exact x.val_negate

/-- The exact product of two numbers. -/
def Ex.times (x y : Ex) : Ex := ⟨x.neg != y.neg, x.m * y.m, x.e + y.e, false⟩

theorem FFmt.deliver_num (f : FFmt) (k : Rnd) (x : Ex) : f.deliver k (.num x) 0 = f.round k x := by
  simp [FFmt.deliver]

@[simp] theorem FV.isSig_num (x : Ex) : (FV.num x).isSig = false := rfl

@[simp] theorem FV.add_num (k : Rnd) (x y : Ex) : FV.add k (.num x) (.num y) = (.num (x.add k y), 0) := rfl

@[simp] theorem FV.mul_num (x y : Ex) : (FV.num x).mul (.num y) = (.num (x.times y), 0) := rfl

@[simp] theorem FV.negate_num (x : Ex) : (FV.num x).negate = .num (x.flip true) := rfl

theorem FV.div_num {x y : Ex} (hy : y.m ≠ 0) :
    (FV.num x).div (.num y) = (.num (if x.m = 0 then ⟨x.neg != y.neg, 0, 0, false⟩ else x.div y), 0) := by
  rw [FV.div, if_neg hy]
  split <;> rfl

section
variable {f : FFmt} {p q c : ℕ} {x y z : Ex} (hp : f.decode p = .num x) (hq : f.decode q = .num y) (hc : f.decode c = .num z)
include hp

theorem FFmt.sqrt_of_num {y : Ex} (hs : (FV.num x).sqrt = (.num y, 0)) (k : Rnd) : f.sqrt k p = f.round k y := by
  simp [FFmt.sqrt, hp, hs, nvSig, FFmt.deliver_num]

include hq

theorem FFmt.add_of_num (k : Rnd) : f.add k p q = f.round k (x.add k y) := by
  simp [FFmt.add, hp, hq, nvSig, FFmt.deliver_num]

theorem FFmt.sub_of_num (k : Rnd) : f.sub k p q = f.round k (x.add k (y.flip true)) := by
  simp [FFmt.sub, hp, hq, nvSig, FFmt.deliver_num]

theorem FFmt.mul_of_num (k : Rnd) : f.mul k p q = f.round k (x.times y) := by
  simp [FFmt.mul, hp, hq, nvSig, FFmt.deliver_num]

theorem FFmt.div_of_num (hy : y.m ≠ 0) (k : Rnd) : f.div k p q =
    f.round k (if x.m = 0 then ⟨x.neg != y.neg, 0, 0, false⟩ else x.div y) := by
  simp [FFmt.div, hp, hq, nvSig, FFmt.deliver_num, FV.div_num hy]

include hc in
theorem FFmt.fma_of_num (n1 n2 : Bool) (k : Rnd) :
    f.fma k n1 n2 p q c = f.round k (((x.times y).flip n1).add k (z.flip n2)) := by
  cases n1 <;> cases n2 <;> simp [FFmt.fma, hp, hq, hc, nvSig, FFmt.deliver_num, Ex.flip]

end

/-- A quotient of numbers is the exact one, rounded once. -/
theorem FFmt.gives_div {f : FFmt} {sat : Bool} (hf : f.Target sat) {k : Rnd} (hk : k.draw < 2 ^ 25) (hfb : f.fbits ≤ 52)
    {p q : ℕ} {x y : Ex} (hp : f.decode p = .num x) (hq : f.decode q = .num y) (hy : y.val ≠ 0) :
    f.Gives sat k ((x.val / y.val : ℚ) : ℝ) (f.div k p q) := by
  have hym : y.m ≠ 0 := Ex.val_eq_zero_iff.not.mp hy
  rw [FFmt.div_of_num hp hq hym]
  split
  case isTrue hx =>
    rw [Ex.val_eq_zero_iff.mpr hx, zero_div, ← Ex.val_eq_zero_iff (x := ⟨x.neg != y.neg, 0, 0, false⟩) |>.mpr rfl]
    exact FFmt.gives_val hf hk rfl
  case isFalse hx =>
    obtain ⟨hdiv, hlong⟩ := Ex.holds_div hx hym
    exact FFmt.gives_of_long hf hk hdiv hlong hfb

/-- A square root of a number that is not negative is the exact one, rounded once. -/
theorem FFmt.gives_sqrt {f : FFmt} {sat : Bool} (hf : f.Target sat) {k : Rnd} (hk : k.draw < 2 ^ 25) (hfb : f.fbits ≤ 52)
    {p : ℕ} {x : Ex} (hp : f.decode p = .num x) (hst : x.st = false) (hx : 0 ≤ x.val) :
    f.Gives sat k (Real.sqrt (x.val : ℝ)) (f.sqrt k p) := by
  by_cases hm : x.m = 0
  · have hs : (FV.num x).sqrt = (.num x, 0) := if_pos hm
    rw [FFmt.sqrt_of_num hp hs, Ex.val_eq_zero_iff.mpr hm, Rat.cast_zero, Real.sqrt_zero, ← Rat.cast_zero,
      ← Ex.val_eq_zero_iff.mpr hm]
    exact FFmt.gives_val hf hk hst
  · have hneg : x.neg = false := by
      rw [← Bool.not_eq_true, (Ex.holds_val hst).neg_iff hm]
      exact_mod_cast hx.not_gt
    obtain ⟨y, hs, hy, hlong⟩ := FV.sqrt_num hm hneg
    rw [FFmt.sqrt_of_num hp hs]
    exact FFmt.gives_of_long hf hk hy hlong hfb

end Sys2Proof.Machine

namespace Sys2Proof.Claims

open Sys2Proof.Machine

/-- The formats of a vector element, each with its widths. -/
theorem elementFormats : ∀ e ∈ [(fmt16, 5, 10), (fmtBf16, 8, 7), (fmt32, 8, 23), (fmt64, 11, 52)],
    e.1.kind = .ieee ∧ 2 ≤ e.1.ebits ∧ e.1.fbits ≤ 52 ∧ e.2.1 = e.1.ebits ∧ e.2.2 = e.1.fbits := by
  decide

theorem floatRounds : FloatRounds := by
  intro e he k p q c n1 n2 f v res _ hk hfin
  obtain ⟨hkind, heb, hfb, h1, h2⟩ := elementFormats e he
  obtain ⟨f, eb, fb⟩ := e
  dsimp only at *
  subst h1 h2
  have hf := FFmt.target_of_ieee hkind heb
  obtain ⟨x, hp, hxs, hxv⟩ := FFmt.decode_holds hkind (hfin p (by simp))
  obtain ⟨y, hq, hys, hyv⟩ := FFmt.decode_holds hkind (hfin q (by simp))
  obtain ⟨z, hc, hzs, hzv⟩ := FFmt.decode_holds hkind (hfin c (by simp))
  change v p = x.val at hxv
  change v q = y.val at hyv
  change v c = z.val at hzv
  rw [hxv, hyv, hzv]
  refine ⟨?_, fun hy => FFmt.gives_div hf hk hfb hp hq hy, fun hx => FFmt.gives_sqrt hf hk hfb hp hxs hx⟩
  have hgives {w : Ex} {o : FR} (hw : w.st = false) (ho : o = f.round k w) {u : ℚ} (hu : u = w.val) :
      f.Gives false k u o := by
    rw [ho, hu]
    exact FFmt.gives_val hf hk hw
  simp only [List.forall_mem_cons]
  refine ⟨hgives (Ex.st_add ..) (FFmt.add_of_num hp hq k) (Ex.val_add ..).symm,
    hgives (Ex.st_add ..) (FFmt.sub_of_num hp hq k) ?_, hgives rfl (FFmt.mul_of_num hp hq k) (Ex.val_mul ..).symm,
    hgives (Ex.st_add ..) (FFmt.fma_of_num hp hq hc n1 n2 k) ?_, by simp⟩
  · rw [Ex.val_add, Ex.val_flip, if_pos rfl, sub_eq_add_neg]
  · rw [Ex.val_add, Ex.val_flip, Ex.val_flip, Ex.times, Ex.val_mul]

end Sys2Proof.Claims
end

section
/-! PROOF. The floating-point members on NaNs, and the sign operations (R226, R228, R229). -/

namespace Sys2Proof.Machine

open Sys2Proof.Claims

/-! ### NaNs and signs (R226, R228, R229) -/

theorem FV.add_nan {a b : FV} (h : a.isNan = true ∨ b.isNan = true) (k : Rnd) : FV.add k a b = (.nan false, 0) := by
  cases a <;> cases b <;> simp_all [FV.add, FV.isNan]

theorem FV.mul_nan {a b : FV} (h : a.isNan = true ∨ b.isNan = true) : a.mul b = (.nan false, 0) := by
  cases a <;> cases b <;> simp_all [FV.mul, FV.isNan]

theorem FV.div_nan {a b : FV} (h : a.isNan = true ∨ b.isNan = true) : a.div b = (.nan false, 0) := by
  cases a <;> cases b <;> simp_all [FV.div, FV.isNan]

@[simp] theorem FV.isNan_negate (a : FV) : a.negate.isNan = a.isNan := by
  cases a <;> rfl

/-- The canonical NaN is delivered with the flags of the member, among them NV for a signalling operand. -/
theorem FFmt.deliver_nan (f : FFmt) (k : Rnd) (sig : Bool) (n : ℕ) (vs : List FV) :
    (f.deliver k (.nan sig) (n ||| nvSig vs)).bits = f.nan ∧
      ((∃ v ∈ vs, v.isSig = true) → (f.deliver k (.nan sig) (n ||| nvSig vs)).flags.testBit 4 = true) := by
  refine ⟨rfl, fun h => ?_⟩
  have hnv : nvSig vs = 16 := if_pos (List.any_eq_true.mpr h)
  simp only [FFmt.deliver, hnv, Nat.testBit_or, show Nat.testBit 16 4 = true by decide, Bool.or_true]

section
variable {f : FFmt} {k : Rnd} {p q c : ℕ}

/-- A sum, difference, product, quotient or fused result of a NaN and any operand is the canonical NaN. -/
theorem FFmt.nan_of_isNan (h : (f.decode p).isNan = true ∨ (f.decode q).isNan = true) (n1 n2 : Bool) :
    ∀ o ∈ [f.add k p q, f.sub k p q, f.mul k p q, f.div k p q, f.fma k n1 n2 p q c], o.bits = f.nan ∧
      ((f.decode p).isSig = true ∨ (f.decode q).isSig = true → o.flags.testBit 4 = true) := by
  have hsub : (f.decode p).isNan = true ∨ (f.decode q).negate.isNan = true := by rwa [FV.isNan_negate]
  have hfma (b : FV) : FV.add k (if n1 then FV.negate (.nan false) else .nan false) b = (.nan false, 0) :=
    FV.add_nan (.inl (by cases n1 <;> rfl)) k
  have hsig (vs : List FV) (hvs : f.decode p ∈ vs ∧ f.decode q ∈ vs)
      (hs : (f.decode p).isSig = true ∨ (f.decode q).isSig = true) : ∃ v ∈ vs, v.isSig = true :=
    hs.elim (fun hs => ⟨_, hvs.1, hs⟩) fun hs => ⟨_, hvs.2, hs⟩
  simp only [List.forall_mem_cons, FFmt.add, FFmt.sub, FFmt.mul, FFmt.div, FFmt.fma, FV.add_nan h, FV.add_nan hsub,
    FV.mul_nan h, FV.div_nan h, hfma]
  have htwo := f.deliver_nan k false 0 [f.decode p, f.decode q]
  have hthree := f.deliver_nan k false (0 ||| 0) [f.decode p, f.decode q, f.decode c]
  have htwo' := And.imp_right (fun hn hs => hn (hsig _ (by simp) hs)) htwo
  exact ⟨htwo', htwo', htwo', htwo', And.imp_right (fun hn hs => hn (hsig _ (by simp) hs)) hthree, by simp⟩

/-- A fused result of a NaN addend is the canonical NaN, whatever the product. -/
theorem FFmt.fma_nan_addend (h : (f.decode c).isNan = true) (n1 n2 : Bool) : (f.fma k n1 n2 p q c).bits = f.nan ∧
    ((f.decode c).isSig = true → (f.fma k n1 n2 p q c).flags.testBit 4 = true) := by
  have hc : (if n2 then (f.decode c).negate else f.decode c).isNan = true := by
    cases n2 <;> simpa using h
  simp only [FFmt.fma, FV.add_nan (.inr hc)]
  exact (f.deliver_nan k false _ _).imp_right fun hn hs => hn ⟨f.decode c, by simp, hs⟩

end

/-- A sign operation on a number gives its magnitude bits with the sign. -/
theorem FFmt.withSign_of_number {f : FFmt} {p : ℕ} (h : (f.decode p).isNan = false) (neg : Bool) :
    f.withSign neg p = ⟨f.signed neg (p % 2 ^ f.magBits), 0⟩ := by
  rw [FFmt.withSign, h, if_neg Bool.false_ne_true]

theorem FFmt.withSign_of_nan {f : FFmt} {p : ℕ} (h : (f.decode p).isNan = true) (neg : Bool) :
    f.withSign neg p = ⟨f.nan, 0⟩ := by
  rw [FFmt.withSign, h, if_pos rfl]

/-- Below the sign, a magnitude with a sign has the bits of the magnitude. -/
theorem FFmt.testBit_signed_mod (f : FFmt) (neg : Bool) (p : ℕ) {i : ℕ} (hi : i < f.magBits) :
    (f.signed neg (p % 2 ^ f.magBits)).testBit i = p.testBit i := by
  have h := congrArg (Nat.testBit · i) (f.signed_mod neg (Nat.mod_lt p (Nat.two_pow_pos f.magBits)))
  simpa [Nat.testBit_mod_two_pow, hi] using h

end Sys2Proof.Machine

namespace Sys2Proof.Claims

open Sys2Proof.Machine

theorem floatNans : FloatNans := by
  intro f _ r p q c neg hi n1 n2
  refine ⟨fun h => FFmt.nan_of_isNan h n1 n2, fun h => FFmt.fma_nan_addend h n1 n2, fun hp hq => ?_, fun hp hq => ?_,
    fun hp hq => ?_, ?_, fun hp => ?_, fun hp => ?_⟩
  · simp [FFmt.minmax, hp, hq]
  · simp [FFmt.minmax, hp, hq]
  · simp [FFmt.minmax, hp, hq]
  · unfold FFmt.withSign
    split <;> rfl
  · rw [FFmt.withSign_of_nan hp]
  · rw [FFmt.withSign_of_number hp]
    exact ⟨f.sign_signed neg (Nat.mod_lt _ (Nat.two_pow_pos _)), fun i => f.testBit_signed_mod neg p⟩

/-- Settles O25: the rounding of the exact value that each member decodes to, and the cases of a NaN operand. -/
theorem floatNansAndSigns : Obligations.FloatNansAndSigns := ⟨floatRounds, floatNans⟩

end Sys2Proof.Claims
end

section
/-! PROOF. One conversion of VCVT: numbers to a format and to an integer, integers, and NaNs (R194, R234). -/

namespace Sys2Proof.Machine

open Sys2Proof.Claims

/-! ### A number as an integer -/

/-- The integers, as the numbers that a rounding to an integer picks from. -/
def IsInteger (z : ℚ) : Prop := ∃ n : ℤ, z = n

theorem integersAround (n : ℕ) : NumbersAround IsInteger 0 n := by
  refine ⟨fun l _ => ⟨l, by simp⟩, ?_⟩
  rintro _ ⟨m, rfl⟩
  rcases le_or_gt |m| (n : ℤ) with h | h
  · exact .inl (by rw [zpow_zero, mul_one]; exact_mod_cast h)
  · exact .inr (by rw [zpow_zero, mul_one]; exact_mod_cast h)

theorem Ex.toInt_fst (x : Ex) (k : Rnd) : (x.toInt k).1 = signUnit x.neg * (x.roundAt k 0).1 := by
  unfold Ex.toInt signUnit
  cases x.neg <;> simp

section
variable {x : Ex} (hst : x.st = false) {k : Rnd} (hk : k.draw < 2 ^ 25)
include hst hk

/-- A number rounds to the integer that the mode picks, inexactly unless it is that integer. -/
theorem Ex.toInt_rounded (hm : x.m ≠ 0) : Rounded IsInteger k (x.val : ℚ) (x.toInt k).1 ∧
    b2n (x.toInt k).2 = if ((x.toInt k).1 : ℚ) = x.val then 0 else 1 := by
  have hx := Ex.holds_val hst
  obtain ⟨n, g, h⟩ := hx.roundsTo hk (q := 0) fun hs => by simp [hst] at hs
  have hround := h.rounded hx.eq_sign_mul_abs (hx.neg_iff hm) (integersAround n)
  have hne := h.ne_iff hx.eq_sign_mul_abs
  rw [zpow_zero, mul_one, ← x.toInt_fst] at hround hne
  rw [Rat.cast_injective.ne_iff] at hne
  refine ⟨hround, ?_⟩
  change b2n (x.roundAt k 0).2 = _
  simp only [b2n, ← hne, ne_eq, ite_not]

theorem Ex.toInt_zero (hm : x.m = 0) : x.toInt k = (0, false) := by
  have hx := Ex.holds_val hst
  obtain ⟨n, g, h⟩ := hx.roundsTo hk (q := 0) fun hs => by simp [hst] at hs
  rw [Ex.val_eq_zero_iff.mpr hm, Rat.cast_zero, abs_zero] at h
  have hg : g = 0 := by
    have := h.split
    rw [zpow_zero, mul_one] at this
    linarith [h.nonneg, (n.cast_nonneg : (0 : ℝ) ≤ n)]
  have hr : (x.roundAt k 0).1 = 0 := by
    have := h.exact_iff.mpr hg
    rw [zpow_zero, mul_one] at this
    exact_mod_cast this
  have hr' : (x.roundAt k 0).2 = false := by
    rw [← Bool.not_eq_true, h.inexact, not_not, hg]
  ext
  · rw [x.toInt_fst, hr]
    simp
  · exact hr'

end

/-! ### Integer patterns (R186, R234) -/

theorem cast_patOf (w : ℕ) (v : ℤ) : (patOf w v : ℤ) = v % 2 ^ w := Int.toNat_of_nonneg (Int.emod_nonneg _ (by positivity))

/-- The two's complement number of a pattern. -/
theorem signedOf_eq_bmod {w : ℕ} (hw : 1 ≤ w) (p : ℕ) : signedOf w p = ((p % 2 ^ w : ℕ) : ℤ).bmod (2 ^ w) := by
  obtain ⟨w, rfl⟩ := Nat.exists_eq_add_of_le' hw
  have hlt := Nat.mod_lt p (Nat.two_pow_pos (w + 1))
  have hpow : (2 : ℤ) ^ (w + 1) = (2 ^ w * 2 : ℕ) := by push_cast; ring
  unfold signedOf Int.bmod
  rw [← Int.natCast_emod, Nat.mod_mod, Nat.add_sub_cancel, hpow]
  rw [pow_succ] at hlt ⊢
  dsimp only
  split
  · rw [if_pos (by omega)]
  · rw [if_neg (by omega)]

theorem clampInt_eq_self_iff {lo hi : ℤ} (h : lo ≤ hi) (v : ℤ) : max lo (min hi v) = v ↔ lo ≤ v ∧ v ≤ hi := by
  omega

end Sys2Proof.Machine
end

section
/-! PROOF. VCVT: what one conversion delivers by the kinds of its source and destination (R194, R231 to R234). -/

namespace Sys2Proof.Machine

open Sys2Proof.Claims

/-! ### One conversion by its kinds (R234) -/

section
variable {a b : ℕ} {f g : FFmt} (k : Rnd) (us : Bool) (p : ℕ)

theorem convert_float_float (ha : codeFmt a = some f) (hb : codeFmt b = some g) :
    convert k a us b p = floatToFloat k g (f.decode p) := by
  simp only [convert, ha, hb]

theorem convert_float_int (ha : codeFmt a = some f) (hb : codeFmt b = none) :
    convert k a us b p = floatToInt k (codeSigned b) (8 * codeBytes b) (f.decode p) := by
  simp only [convert, ha, hb]

theorem convert_int_float (ha : codeFmt a = none) (hb : codeFmt b = some g) : convert k a us b p =
    let v := intOf (codeSigned a && !us) (8 * codeBytes a) p
    g.round k ⟨decide (v < 0), v.natAbs, 0, false⟩ := by
  simp only [convert, ha, hb]

theorem convert_int_int (ha : codeFmt a = none) (hb : codeFmt b = none) : convert k a us b p =
    ⟨patOf (8 * codeBytes b) (clampInt (codeSigned b) (8 * codeBytes b) (intOf (codeSigned a && !us) (8 * codeBytes a) p)),
      0⟩ := by
  simp only [convert, ha, hb]

end

/-- A number to an integer type: the integer that it rounds to, or the end of the range with NV. -/
theorem floatToInt_num (k : Rnd) (sgn : Bool) (w : ℕ) (x : Ex) : floatToInt k sgn w (.num x) =
    ⟨patOf w (clampInt sgn w (x.toInt k).1),
      if clampInt sgn w (x.toInt k).1 = (x.toInt k).1 then b2n (x.toInt k).2 else 16⟩ := by
  unfold floatToInt
  dsimp only
  split <;> rfl

theorem FV.eq_nan_of_isNan {v : FV} (h : v.isNan = true) : v = .nan v.isSig := by
  cases v <;> simp_all [FV.isNan, FV.isSig]

end Sys2Proof.Machine

namespace Sys2Proof.Claims

open Sys2Proof.Machine

/-! ### The type codes of R26 -/

theorem floatCodes_source : ∀ e ∈ floatCodes, ∃ f, codeFmt e.1 = some f ∧ f.kind = .ieee ∧ 2 ≤ f.ebits ∧
    e.2.1 = f.ebits ∧ e.2.2 = f.fbits := by
  simp only [floatCodes, List.forall_mem_cons]
  exact ⟨⟨_, rfl, by decide⟩, ⟨_, rfl, by decide⟩, ⟨_, rfl, by decide⟩, ⟨_, rfl, by decide⟩, ⟨_, rfl, by decide⟩, by simp⟩

theorem floatCodes_target : ∀ d ∈ floatCodes ++ [(8, 4, 3)], ∃ g, codeFmt d.1 = some g ∧ g.Target (d.1 == 8) ∧
    d.2.1 = g.ebits ∧ d.2.2 = g.fbits := by
  intro d hd
  rcases List.mem_append.mp hd with hd | hd
  · obtain ⟨g, hg, hk, he, h1, h2⟩ := floatCodes_source d hd
    have h8 : (d.1 == 8) = false := (by decide : ∀ d ∈ floatCodes, (d.1 == 8) = false) d hd
    exact ⟨g, hg, h8 ▸ FFmt.target_of_ieee hk he, h1, h2⟩
  · obtain rfl := List.mem_singleton.mp hd
    exact ⟨_, rfl, fmtE4M3_target, rfl, rfl⟩

/-- An integer code is of no format; its width, and the ends of its range around zero. -/
theorem intCodes_spec : ∀ i ∈ intCodes, codeFmt i.1 = none ∧ 8 * codeBytes i.1 = i.2.1 ∧ 1 ≤ i.2.1 ∧
    (i.1 < 4 → codeSigned i.1 = true) ∧ i.2.2.1 ≤ 0 ∧ 0 ≤ i.2.2.2 ∧
    i.2.2.1 = (if codeSigned i.1 then -(2 ^ (i.2.1 - 1)) else 0) ∧
    i.2.2.2 = (if codeSigned i.1 then 2 ^ (i.2.1 - 1) - 1 else 2 ^ i.2.1 - 1) := by
  decide

theorem intCodes_clamp {i : ℕ × ℕ × ℤ × ℤ} (hi : i ∈ intCodes) (v : ℤ) :
    clampInt (codeSigned i.1) (8 * codeBytes i.1) v = max i.2.2.1 (min i.2.2.2 v) := by
  obtain ⟨-, hw, -, -, -, -, hlo, hhi⟩ := intCodes_spec i hi
  rw [hw, hlo, hhi, clampInt]
  split <;> rw [min_comm]

/-! ### What one conversion delivers (R234) -/

section
variable {k : Rnd} (hk : k.draw < 2 ^ 25) (us : Bool) {p : ℕ} {e d : ℕ × ℕ × ℕ} (hd : d ∈ floatCodes ++ [(8, 4, 3)])
  {i : ℕ × ℕ × ℤ × ℤ} (hi : i ∈ intCodes)

include hk hd in
/-- A finite number becomes the number of the destination's format that the mode picks. -/
theorem convert_number_gives (he : e ∈ floatCodes) (hp : IsFinite e.2.1 e.2.2 p) :
    ∃ g : FFmt, d.2.1 = g.ebits ∧ d.2.2 = g.fbits ∧
      g.Gives (d.1 == 8) k (valueOf e.2.1 e.2.2 p : ℚ) (convert k e.1 us d.1 p) := by
  obtain ⟨f, hf, hkind, -, h1, h2⟩ := floatCodes_source e he
  obtain ⟨g, hg, htarget, hw⟩ := floatCodes_target d hd
  rw [h1, h2] at hp
  obtain ⟨x, hx, hst, hval⟩ := FFmt.decode_holds hkind hp
  refine ⟨g, hw.1, hw.2, ?_⟩
  rw [h1, h2, hval, convert_float_float k us p hf hg, hx]
  exact FFmt.gives_val htarget hk hst

include hi in
/-- A finite number becomes the integer that the mode picks, or the end of the range. -/
theorem convert_number_integer (he : e ∈ floatCodes) (hp : IsFinite e.2.1 e.2.2 p) :
    ∃ x : Ex, x.st = false ∧ valueOf e.2.1 e.2.2 p = x.val ∧ convert k e.1 us i.1 p =
      ⟨patOf i.2.1 (max i.2.2.1 (min i.2.2.2 (x.toInt k).1)),
        if i.2.2.1 ≤ (x.toInt k).1 ∧ (x.toInt k).1 ≤ i.2.2.2 then b2n (x.toInt k).2 else 16⟩ := by
  obtain ⟨f, hf, hkind, -, h1, h2⟩ := floatCodes_source e he
  obtain ⟨hnone, hw, -, -, hlo, hhi, -, -⟩ := intCodes_spec i hi
  rw [h1, h2] at hp
  obtain ⟨x, hx, hst, hval⟩ := FFmt.decode_holds hkind hp
  refine ⟨x, hst, by rw [h1, h2, hval], ?_⟩
  rw [convert_float_int k us p hf hnone, hx, floatToInt_num, intCodes_clamp hi, hw]
  simp only [clampInt_eq_self_iff (hlo.trans hhi)]

/-- The integer of a source element under an integer code below 4, read unsigned or not (R231). -/
theorem intOf_source (he : i ∈ intCodes) (h4 : i.1 < 4) : intOf (codeSigned i.1 && !us) (8 * codeBytes i.1) p =
    if us then ((p % 2 ^ i.2.1 : ℕ) : ℤ) else ((p % 2 ^ i.2.1 : ℕ) : ℤ).bmod (2 ^ i.2.1) := by
  obtain ⟨-, hw, hpos, hsgn, -⟩ := intCodes_spec i he
  rw [hsgn h4, hw, ← signedOf_eq_bmod hpos]
  cases us <;> rfl

include hk hd in
/-- An integer becomes the number of the destination's format that the mode picks. -/
theorem convert_integer_gives {j : ℕ × ℕ × ℤ × ℤ} (hj : j ∈ intCodes) {n : ℤ}
    (hn : intOf (codeSigned j.1 && !us) (8 * codeBytes j.1) p = n) : ∃ g : FFmt, d.2.1 = g.ebits ∧ d.2.2 = g.fbits ∧
      g.Gives (d.1 == 8) k (n : ℝ) (convert k j.1 us d.1 p) := by
  obtain ⟨hnone, -⟩ := intCodes_spec j hj
  obtain ⟨g, hg, htarget, hw⟩ := floatCodes_target d hd
  have hval := Ex.val_ofInt n 0
  rw [zpow_zero, mul_one] at hval
  have hgives := FFmt.gives_val htarget hk (x := ⟨decide (n < 0), n.natAbs, 0, false⟩) rfl
  rw [hval, Rat.cast_intCast] at hgives
  refine ⟨g, hw.1, hw.2, ?_⟩
  rw [convert_int_float k us p hnone hg, hn]
  exact hgives

end

theorem conversionRounds : ConversionRounds := by
  intro k p us _ hk d hd i hi
  refine ⟨fun e he hp hv => ?_, fun e he hp hv => ?_, fun e he h4 => ?_, fun e he f g hf hg hnan => ?_⟩
  · obtain ⟨g, h1, h2, hgives, -⟩ := convert_number_gives hk us hd he hp
    obtain ⟨x, hst, hval, hconv⟩ := convert_number_integer us hi he hp
    rw [← h1, ← h2] at hgives
    refine ⟨hgives (by exact_mod_cast hv), (x.toInt k).1, ?_⟩
    rw [hval] at hv ⊢
    obtain ⟨hround, hNX⟩ := Ex.toInt_rounded hst hk (Ex.val_eq_zero_iff.not.mp hv)
    rw [hconv, hNX]
    exact ⟨hround, cast_patOf _ _, rfl⟩
  · obtain ⟨g, h1, h2, -, hzero⟩ := convert_number_gives hk us hd he hp
    obtain ⟨x, hst, hval, hconv⟩ := convert_number_integer us hi he hp
    obtain ⟨-, -, -, -, hlo, hhi, -, -⟩ := intCodes_spec i hi
    have hm : x.m = 0 := Ex.val_eq_zero_iff.mp (hval.symm.trans hv)
    refine ⟨?_, ?_⟩
    · rw [hconv, Ex.toInt_zero hst hk hm, if_pos ⟨hlo, hhi⟩, min_eq_right hhi, max_eq_right hlo]
      simp [patOf, b2n]
    · rw [h1, h2]
      exact hzero (by exact_mod_cast hv)
  · obtain ⟨hnone, -⟩ := intCodes_spec e he
    obtain ⟨hnone', hw, -⟩ := intCodes_spec i hi
    intro n
    have hn : intOf (codeSigned e.1 && !us) (8 * codeBytes e.1) p = n := intOf_source us he h4
    obtain ⟨g, h1, h2, hgives, -⟩ := convert_integer_gives hk us hd he hn
    rw [← h1, ← h2] at hgives
    refine ⟨fun hn0 => hgives (by exact_mod_cast hn0), ?_⟩
    rw [convert_int_int k us p hnone hnone', intCodes_clamp hi, hw, hn]
    exact ⟨cast_patOf _ _, rfl⟩
  · obtain ⟨hnone, -⟩ := intCodes_spec i hi
    rw [convert_float_float k us p hf hg, convert_float_int k us p hf hnone, FV.eq_nan_of_isNan hnan]
    exact ⟨rfl, rfl, rfl⟩

end Sys2Proof.Claims
end

section
/-! PROOF. VCVT as a vector instruction: when it is legal, what stops it, and the elements that it writes (R231 to R234). -/

namespace Sys2Proof.Claims

open Sys2Proof.Machine

/-- Whatever begins as every vector instruction does runs as the statements say, with its own part behind the operands. -/
theorem runs_of_vbegin {i : Instr} {s : State} {u : VUse} {body : State → State} (h : exec i s = s.vbegin u body) :
    Runs i s u body := by
  have hopen : (s.h.isMantle = false ∧ flag s.h.trap.tchain 63 = false ∧ u.ok = true) ↔
      (s.h.vectorOk && u.ok) = true := by
    simp [Hart.vectorOk, and_assoc]
  unfold Runs
  rw [hopen, h]
  refine ⟨fun hno => ?_, fun ho hb => ?_, fun ho hb => ⟨fun w t hr => ?_, fun r hr => ⟨fun t hc => ?_, fun w t hc => ?_⟩⟩⟩
  · simp [State.vbegin, hno]
  · simp [State.vbegin, ho, hb]
  · simp [State.vbegin, ho, hb, hr]
  · simp [State.vbegin, ho, hb, hr, hc]
  · simp [State.vbegin, ho, hb, hr, hc]

theorem conversions : Conversions := by
  intro s d a x k u c
  refine runs_of_vbegin ?_
  rw [exec_vcvt, execVcvt]
  refine congrArg (s.vbegin _) (funext fun t => ?_)
  simp only [List.map_map, List.foldl_map]
  rfl

/-- Settles O27: VCVT element by element, and one conversion by the exact value of its source. -/
theorem vectorConversion : Obligations.VectorConversion := ⟨conversions, conversionRounds⟩

end Sys2Proof.Claims
end

section
/-! PROOF. The elements of the vector registers (R204, R205, R421): O32. -/

namespace Sys2Proof.Laws

open Sys2Proof.Machine

/-- An element's bytes lie within the granted bytes of its register. -/
theorem elem_end_le {vrb eb i : Nat} (hpos : 0 < vrb / eb) : i % (vrb / eb) * eb + eb ≤ vrb :=
  calc i % (vrb / eb) * eb + eb = (i % (vrb / eb) + 1) * eb := by rw [Nat.succ_mul]
    _ ≤ vrb / eb * eb := Nat.mul_le_mul_right _ (Nat.mod_lt i hpos)
    _ ≤ vrb := Nat.div_mul_le_self ..

/-- The register that an element lies in. -/
theorem elemAddr_div {vrb eb : Nat} (heb : 0 < eb) (hle : eb ≤ vrb) (hmax : vrb ≤ 4096) (b i : Nat) :
    elemAddr vrb eb b i / 4096 = b + i / (vrb / eb) := by
  have hend := elem_end_le (i := i) (Nat.div_pos hle heb)
  simp only [elemAddr]
  omega

/-- The byte of its register at which an element begins. -/
theorem elemAddr_mod {vrb eb : Nat} (heb : 0 < eb) (hle : eb ≤ vrb) (hmax : vrb ≤ 4096) (b i : Nat) :
    elemAddr vrb eb b i % 4096 = i % (vrb / eb) * eb := by
  have hend := elem_end_le (i := i) (Nat.div_pos hle heb)
  simp only [elemAddr]
  omega

/-- Two elements of a group stand at two places. -/
theorem elemAddr_inj {vrb eb : Nat} (heb : 0 < eb) (hle : eb ≤ vrb) (hmax : vrb ≤ 4096) {b i j : Nat}
    (h : elemAddr vrb eb b j = elemAddr vrb eb b i) : j = i := by
  have hreg : j / (vrb / eb) = i / (vrb / eb) := by
    have := congrArg (· / 4096) h
    simp only [elemAddr_div heb hle hmax] at this
    omega
  have hpos : j % (vrb / eb) = i % (vrb / eb) := by
    have := congrArg (· % 4096) h
    simp only [elemAddr_mod heb hle hmax] at this
    exact Nat.eq_of_mul_eq_mul_right heb this
  rw [← Nat.div_add_mod j (vrb / eb), hreg, hpos, Nat.div_add_mod]

/-- An element stands at a multiple of its size. -/
theorem dvd_elemAddr {eb : Nat} (heb : eb ∣ 4096) (vrb b i : Nat) : eb ∣ elemAddr vrb eb b i :=
  Nat.dvd_add (heb.mul_right _) (Nat.dvd_mul_left ..)

/-- Two places of elements of one size share no byte. -/
theorem elemAddr_apart {eb : Nat} (heb : eb ∣ 4096) {vrb b c i j : Nat}
    (h : elemAddr vrb eb c j ≠ elemAddr vrb eb b i) :
    elemAddr vrb eb c j + eb ≤ elemAddr vrb eb b i ∨ elemAddr vrb eb b i + eb ≤ elemAddr vrb eb c j := by
  obtain ⟨m, hm⟩ := dvd_elemAddr heb vrb c j
  obtain ⟨n, hn⟩ := dvd_elemAddr heb vrb b i
  rw [hm, hn] at h ⊢
  rcases lt_trichotomy m n with hlt | rfl | hlt
  · exact .inl (Nat.mul_le_mul_left eb hlt)
  · exact absurd rfl h
  · exact .inr (Nat.mul_le_mul_left eb hlt)

end Sys2Proof.Laws

namespace Sys2Proof.Claims

open Sys2Proof.Machine Sys2Proof.Laws

/-- Settles O32: elements stand at multiples of their size, which divides the 4,096 bytes between two registers. -/
theorem elementsAreSeparate : Obligations.ElementsAreSeparate := by
  intro m vrb eb b i v heb hle hmax
  have hdvd : eb ∣ 4096 ∧ 0 < eb := by
    fin_cases heb <;> decide
  obtain ⟨hdvd, hpos⟩ := hdvd
  exact ⟨Memory.read_write_same .., fun j hj hn => hj (elemAddr_inj hpos hle hmax hn),
    fun c j hn => Memory.read_write_other (elemAddr_apart hdvd hn), elemAddr_div hpos hle hmax b i⟩

end Sys2Proof.Claims
end

section
/-! PROOF. VSETL and its strip (R203, R280, R281): O22. -/

namespace Sys2Proof.Laws

open Sys2Proof.Machine Sys2Proof.Claims

/-- Undoing puts x registers, instret and the state of a PFX back, and moves the scalar half and what it has issued (R274,
R276). -/
theorem exists_restore_eq (us : List Unconf) (h : Hart) : ∃ xs c tr,
    us.foldr (fun u g => g.restore u) h = { h with x := xs, instret := c, trap := tr } := by
  induction us with
  | nil => exact ⟨h.x, h.instret, h.trap, rfl⟩
  | cons u us ih =>
    obtain ⟨xs, c, tr, he⟩ := ih
    rw [List.foldr_cons, he]
    exact ⟨_, _, _, rfl⟩

theorem exists_undo_eq (h : Hart) (n : Nat) : ∃ xs c tr pc q rg us,
    h.undo n = { h with x := xs, instret := c, trap := tr, pc := pc, viq := q, region := rg, unconf := us } := by
  obtain ⟨xs, c, tr, he⟩ := exists_restore_eq (h.unconf.filter (Unconf.goes n)) h
  unfold Hart.undo
  split
  · exact ⟨h.x, h.instret, h.trap, h.pc, h.viq, h.region, h.unconf, rfl⟩
  · dsimp only
    rw [he]
    split
    · exact ⟨_, _, _, _, _, _, _, rfl⟩
    · split <;> exact ⟨_, _, _, _, _, _, _, rfl⟩
    · exact ⟨_, _, _, _, _, _, _, rfl⟩

/-- A stop behind a VSETL that the scalar half has passed undoes what is younger, and no vector state (R283). -/
theorem stopAfter_vec (h : Hart) : h.stopAfter.vec = h.vec ∧ h.stopAfter.stripord = h.stripord := by
  unfold Hart.stopAfter
  split
  · obtain ⟨_, _, _, _, _, _, _, he⟩ := exists_undo_eq h 1
    rw [he]
    exact ⟨rfl, rfl⟩
  · exact ⟨rfl, rfl⟩

theorem stopAfter_of_oldest {h : Hart} (hb : h.back = none) : h.stopAfter = h := by
  simp [Hart.stopAfter, hb]

/-- What the end of a VSETL and the strip boundary behind it leave (R208, R283). -/
theorem boundary_vdone (s : State) :
    s.vdone.boundary.h.vec = { s.h.vec with vstart := 0 } ∧ s.vdone.boundary.h.stripord = s.h.stripord ∧
      (∀ q, s.vdone.boundary.x q = s.x q) ∧ s.vdone.boundary.h.pc = s.h.back.getD (s.h.pc + 4) := by
  unfold State.boundary
  split <;> exact ⟨rfl, rfl, fun _ => rfl, rfl⟩

/-- What a strip that has opened leaves of the hart's vector length, its start and its ordinal. -/
theorem nextStrip_ok {s r : State} {n : Nat} (h : s.nextStrip n = .ok () r) :
    r.h.vec.vl = .ofNat 64 n ∧ r.h.stripord = s.h.stripord + 1 := by
  unfold State.nextStrip at h
  dsimp only at h
  generalize s.traceStrip _ = tr at h
  cases tr with
  | stop w t => cases h
  | ok _ t =>
    simp only [Res.bind] at h
    cases h
    split <;> exact ⟨rfl, rfl⟩

/-- Without a trace ring a strip opens at once and changes the strip, vl, vstart and the requests to halt alone. -/
theorem nextStrip_untraced {s : State} {n : Nat} (h : ∀ l, s.myLaunch = some l → l.trace = none) :
    ∃ r, s.nextStrip n = .ok () r ∧ r.h.back = s.h.back ∧ r.h.pc = s.h.pc ∧ r.h.x = s.h.x ∧ r.mem = s.mem ∧
      r.h.vec.v = s.h.vec.v ∧ r.h.vec.k = s.h.vec.k ∧ r.h.vec.e = s.h.vec.e ∧ r.h.vec.stack = s.h.vec.stack := by
  have htrace (f : Nat) : s.traceStrip f = .ok () s := by
    unfold State.traceStrip
    split
    · rename_i l hl
      rw [h l hl]
    · rfl
  unfold State.nextStrip
  simp only [htrace, Res.bind]
  refine ⟨_, rfl, ?_⟩
  split <;> exact ⟨rfl, rfl, rfl, rfl, rfl, rfl, rfl, rfl⟩

/-- The hart h with the grant of n elements in x d, where the scalar half has not written it before (R273). -/
def wroteGrant (h : Hart) (d : Fin 32) (n : Nat) : Hart := if h.back.isSome then h else h.set d (.ofNat 64 n)

theorem wroteGrant_of_oldest {h : Hart} (hb : h.back = none) (d : Fin 32) (n : Nat) :
    wroteGrant h d n = h.set d (.ofNat 64 n) := by
  simp [wroteGrant, hb]

theorem exists_wroteGrant_eq (h : Hart) (d : Fin 32) (n : Nat) : ∃ xs, wroteGrant h d n = { h with x := xs } := by
  unfold wroteGrant
  split
  · exact ⟨h.x, rfl⟩
  · exact exists_set_eq h d _

/-- The hart h with the type and group size of a VSETL (R201). -/
def withVcfg (h : Hart) (c : Nat) : Hart := { h with vec := { h.vec with vcfg := .ofNat 64 c } }

/-- The hart h of an opened strip with its vcfg and the grant, stopped behind its VSETL if a debug halt is due (R283). -/
def afterGrant (h : Hart) (d : Fin 32) (n c : Nat) : Hart :=
  let g := wroteGrant (withVcfg h c) d n
  if g.haltDue then g.stopAfter else g

theorem afterGrant_vec (h : Hart) (d : Fin 32) (n c : Nat) :
    (afterGrant h d n c).vec = { h.vec with vcfg := .ofNat 64 c } ∧ (afterGrant h d n c).stripord = h.stripord := by
  obtain ⟨xs, hx⟩ := exists_wroteGrant_eq (withVcfg h c) d n
  unfold afterGrant
  rw [hx]
  dsimp only
  split
  · exact stopAfter_vec _
  · exact ⟨rfl, rfl⟩

theorem afterGrant_of_oldest {h : Hart} (hb : h.back = none) (d : Fin 32) (n c : Nat) :
    ∃ g : Hart, afterGrant h d n c = g.set d (.ofNat 64 n) ∧ g.x = h.x ∧ g.pc = h.pc ∧ g.back = none := by
  refine ⟨withVcfg h c, ?_, rfl, rfl, hb⟩
  obtain ⟨xs, hx⟩ := exists_set_eq (withVcfg h c) d (.ofNat 64 n)
  have hstop : ((withVcfg h c).set d (.ofNat 64 n)).stopAfter = (withVcfg h c).set d (.ofNat 64 n) :=
    stopAfter_of_oldest (by rw [hx]; exact hb)
  unfold afterGrant
  rw [wroteGrant_of_oldest (show (withVcfg h c).back = none from hb)]
  dsimp only
  rw [hstop, ite_self]

/-- VSETL opens the strip of n elements, or stops at its record with x d written. -/
theorem exec_vsetl_of_ok {s r : State} {d a : Fin 32} {g : Fin 4} {e : Fin 8} {n : Nat} (hv : s.h.vectorOk = true)
    (hn : s.h.granted (s.h.xa a) e g = n) (h : s.nextStrip n = .ok () r) :
    ∃ u : State, u.h = afterGrant r.h d n (g.val * 8 + e.val) ∧ exec (.vsetl d a g e) s = .next u.vdone.boundary := by
  refine ⟨{ r with h := afterGrant r.h d n (g.val * 8 + e.val) }, rfl, ?_⟩
  rw [exec_vsetl, execVsetl, if_pos hv]
  simp only [hn, h]
  rfl

theorem exec_vsetl_of_stop {s r : State} {d a : Fin 32} {g : Fin 4} {e : Fin 8} {n : Nat} {w : Stop}
    (hv : s.h.vectorOk = true) (hn : s.h.granted (s.h.xa a) e g = n) (h : s.nextStrip n = .stop w r) :
    exec (.vsetl d a g e) s = .next ({ r with h := wroteGrant r.h d n }.vstop 0 w) := by
  rw [exec_vsetl, execVsetl, if_pos hv]
  simp only [hn, h]
  rfl

end Sys2Proof.Laws

namespace Sys2Proof.Claims

open Sys2Proof.Machine Sys2Proof.Laws

/-- Settles O22: an opened strip gives vl, vstart and the ordinal, and behind it VSETL writes vcfg and x d. -/
theorem setVectorLength : Obligations.SetVectorLength := by
  intro s d a g e n
  have hn : s.h.granted (s.h.xa a) e g = n := rfl
  clear_value n
  refine ⟨fun hv r hr => ?_, nextStrip_untraced, fun hv w r hr hb => ?_, fun hv => ?_⟩
  · obtain ⟨u, hu, hexec⟩ := exec_vsetl_of_ok (d := d) hv hn hr
    obtain ⟨hvl, hord⟩ := nextStrip_ok hr
    obtain ⟨hvec, hstrip⟩ := afterGrant_vec r.h d n (g.val * 8 + e.val)
    obtain ⟨hdone, hdord, hdx, hdpc⟩ := boundary_vdone u
    rw [hu, hvec] at hdone
    rw [hu, hstrip, hord] at hdord
    refine ⟨_, hexec, ?_⟩
    rw [hdone]
    refine ⟨hvl, rfl, rfl, hdord, fun hb => ⟨fun q => ?_, ?_⟩, rfl, rfl, rfl, rfl⟩ <;>
      obtain ⟨f, hf, hx, hpc, hback⟩ := afterGrant_of_oldest hb d n (g.val * 8 + e.val)
    · rw [hdx q, State.x, hu, hf, Hart.get_set, State.x, Hart.get, Hart.get, hx]
    · obtain ⟨xs, hxs⟩ := exists_set_eq f d (.ofNat 64 n)
      rw [hdpc, hu, hf, hxs]
      simp only [hback, hpc, Option.getD_none]
  · rw [exec_vsetl_of_stop hv hn hr, wroteGrant_of_oldest hb]
  · rw [exec_vsetl, execVsetl, if_neg (by simp [hv])]

end Sys2Proof.Claims
end

section
/-! PROOF. What a vector instruction leaves besides its result (R207, R208, R37): O33. -/

namespace Sys2Proof.Laws

open Sys2Proof.Machine Sys2Proof.Claims

/-! ### The end of a vector instruction (R208) -/

/-- The hart but for what a vector instruction may write: x registers, the vector state apart from its configuration, and the
marks of errors in the pool. -/
def offResult (h : Hart) : Hart :=
  { h with
    x := .replicate 32 0, badPool := [], weakPool := []
    vec := { h.vec with v := [], k := .replicate 8 0, e := 0, stack := [], kc := .replicate 8 0, vstart := 0, vflags := 0,
                        ext := [] } }

/-- A vector instruction that has changed its result alone has ended as the statements say. -/
theorem ended_vdone {s t : State} (h : offResult t.h = offResult s.h) : Ended s.h t.vdone.h := by
  have hr : offResult t.vdone.h = offResult (s.h.retired (s.h.pc + 4)) := congrArg (fun g => g.retired (g.pc + 4)) h
  rw [Ended, ← retired_eq_left]
  exact ⟨(congrArg Hart.pc hr :), (congrArg Hart.instret hr :), rfl, rfl, (congrArg Hart.window hr :),
    (congrArg Hart.unconf hr :), rfl, rfl, rfl, (congrArg Hart.viq hr :), (congrArg Hart.mode hr :),
    (congrArg Hart.scratch hr :), (congrArg Hart.acc hr :), (congrArg (·.vec.vl) hr :), (congrArg (·.vec.vcfg) hr :),
    (congrArg (·.trap.tepc) hr :), (congrArg (·.trap.tstatus) hr :), (congrArg (·.trap.tcause) hr :)⟩

/-! ### Writing elements (R204, R37) -/

/-- The hart but for the bytes of its vector registers, their extents and the marks of errors in the pool. -/
def offRegs (h : Hart) : Hart := { h with badPool := [], weakPool := [], vec := { h.vec with v := [], ext := [] } }

theorem offResult_of_offRegs {h g : Hart} (e : offRegs g = offRegs h) : offResult g = offResult h := (congrArg offResult e :)

@[simp] theorem offRegs_putOne (h : Hart) (d ew lgrp i x : Nat) : offRegs (h.putOne d ew lgrp i x) = offRegs h := by
  unfold Hart.putOne
  split
  · obtain ⟨b, w, he⟩ := cleanPool_eq h 0 (elemAddr h.vrb 8 d i) 8
    rw [he]
    rfl
  · rfl

@[simp] theorem offRegs_putElem (h : Hart) (d ew lgrp i x cpy : Nat) :
    offRegs (h.putElem d ew lgrp i x cpy) = offRegs h := by
  unfold Hart.putElem
  dsimp only
  split <;> simp

@[simp] theorem offRegs_putAll (h : Hart) (d ew lgrp : Nat) (xs : List (Nat × Nat)) :
    offRegs (h.putAll d ew lgrp xs) = offRegs h := by
  unfold Hart.putAll
  exact foldl_keeps offRegs (f := fun g (e : Nat × Nat) => g.putElem d ew lgrp e.1 e.2 h.vcpy)
    (fun g e => offRegs_putElem g d ew lgrp e.1 e.2 h.vcpy) xs h

theorem vrb_of_offRegs {h g : Hart} (e : offRegs g = offRegs h) : g.vrb = h.vrb := (congrArg Hart.vrb e :)

/-- Whether byte a is one of the eb bytes of element i of the group at c. -/
def InElem (vrb eb c i a : Nat) : Prop := elemAddr vrb eb c i ≤ a ∧ a < elemAddr vrb eb c i + eb

theorem get_putOne_other {h : Hart} {d ew i a : Nat} (lgrp x : Nat) (ha : ¬InElem h.vrb (codeBytes ew) d i a) :
    (h.putOne d ew lgrp i x).vec.v.get a = h.vec.v.get a := by
  have hb : a < elemAddr h.vrb (codeBytes ew) d i ∨ elemAddr h.vrb (codeBytes ew) d i + codeBytes ew ≤ a := by
    unfold InElem at ha
    omega
  unfold Hart.putOne
  split
  · obtain ⟨b, w, he⟩ := cleanPool_eq h 0 (elemAddr h.vrb 8 d i) 8
    rw [he]
    exact Memory.get_write_other hb
  · exact Memory.get_write_other hb

/-- The groups that a result is written to: the destination's and the copy's (R37). -/
def targets (d cpy : Nat) : List Nat := if cpy = 0 then [d] else [d, cpy]

theorem get_putElem_other {h : Hart} {d ew i cpy a : Nat} (lgrp x : Nat)
    (ha : ∀ c ∈ targets d cpy, ¬InElem h.vrb (codeBytes ew) c i a) :
    (h.putElem d ew lgrp i x cpy).vec.v.get a = h.vec.v.get a := by
  have hd := get_putOne_other (ew := ew) lgrp x (ha d (by unfold targets; split <;> simp))
  unfold Hart.putElem
  dsimp only
  split
  · exact hd
  · rename_i hc
    rw [get_putOne_other, hd]
    rw [vrb_of_offRegs (offRegs_putOne h d ew lgrp i x)]
    exact ha cpy (by simp [targets, hc])

/-- A byte outside the listed elements of the destination and the copy keeps its value. -/
theorem get_putAll_other {h : Hart} {d ew a : Nat} (lgrp : Nat) {xs : List (Nat × Nat)}
    (ha : ∀ e ∈ xs, ∀ c ∈ targets d h.vcpy, ¬InElem h.vrb (codeBytes ew) c e.1 a) :
    (h.putAll d ew lgrp xs).vec.v.get a = h.vec.v.get a := by
  unfold Hart.putAll
  dsimp only
  generalize h.vcpy = cpy at ha ⊢
  induction xs generalizing h with
  | nil => rfl
  | cons e xs ih =>
    have hvrb := vrb_of_offRegs (offRegs_putElem h d ew lgrp e.1 e.2 cpy)
    rw [List.foldl_cons, ih (by rw [hvrb]; exact fun f hf => ha f (.tail _ hf)),
      get_putElem_other lgrp e.2 (ha e (.head _))]

/-! ### An element-wise instruction without bound registers -/

theorem vend_of_unlimited {s : State} (h : s.h.lim = none) (f : State → State) : s.vend f = (f s).vdone := by
  simp [State.vend, h]

theorem appendTo_unbound {s : State} {r : Nat} (ew : Nat) (h : s.h.bound r = none) : s.appendTo r ew = s := by
  simp [State.appendTo, h]

theorem appends_unbound {s : State} {d : Nat} (ew : Nat) (hd : s.h.bound d = none)
    (hc : s.h.vcpy = 0 ∨ s.h.bound s.h.vcpy = none) : s.appends d ew = s := by
  unfold State.appends
  rw [appendTo_unbound ew hd]
  dsimp only
  split
  · rfl
  · rename_i hne
    exact appendTo_unbound ew (hc.resolve_left fun h0 => hne (.inl h0))

theorem lt_vl_of_active {h : Hart} {k : Fin 8} {i : Nat} (ha : h.active k i = true) : i < h.vl := by
  simp only [Hart.active, Bool.and_eq_true, decide_eq_true_eq] at ha
  exact ha.1.1.1

/-- The elements that an element-wise instruction writes under the patterns of f. -/
def elemsOf (h : Hart) (k : Fin 8) (f : Nat → Nat × Nat) : List (Nat × Nat) := (h.elems k).map fun i => (i, (f i).1)

/-- The hart h with more flags in vflags (R223). -/
def gathers (h : Hart) (flags : Word) : Hart := { h with vec := { h.vec with vflags := h.vec.vflags ||| flags } }

theorem elementWise_unbound {t : State} {d : Fin 32} (k : Fin 8) (f : Nat → Nat × Nat) (hl : t.h.lim = none)
    (hd : t.h.bound d = none) (hc : t.h.vcpy = 0 ∨ t.h.bound t.h.vcpy = none) :
    ∃ flags, elementWise t d k f = { t with h := gathers (t.h.putAll d t.h.ew t.h.lgrp (elemsOf t.h k f)) flags }.vdone := by
  let flags : Word := .ofNat 64 ((t.h.elems k).foldl (fun n i => n ||| (f i).2) 0)
  let g := gathers (t.h.putAll d t.h.ew t.h.lgrp (elemsOf t.h k f)) flags
  have hregs : offRegs (t.h.putAll d t.h.ew t.h.lgrp (elemsOf t.h k f)) = offRegs t.h := offRegs_putAll ..
  have hlim : g.lim = none := (congrArg Hart.lim hregs :).trans hl
  have hbound (r : Nat) : g.bound r = t.h.bound r := (congrArg (Hart.bound · r) hregs :)
  have hcpy : g.vcpy = t.h.vcpy := (congrArg Hart.vcpy hregs :)
  have hrun : elementWise t d k f = ({ t with h := g } : State).vend fun u => u.appends d u.h.ew := rfl
  refine ⟨flags, ?_⟩
  rw [hrun, vend_of_unlimited hlim, appends_unbound _ ((hbound d).trans hd) (by rwa [hcpy, hbound])]

end Sys2Proof.Laws

namespace Sys2Proof.Claims

open Sys2Proof.Machine Sys2Proof.Laws

/-- Settles O33: its elements and their copies are all that the instruction writes of the registers, and its end is R208's. -/
theorem elementWiseFrame : Obligations.ElementWiseFrame := by
  intro t d k f hl hd hc u
  obtain ⟨flags, hu⟩ : ∃ flags, u = _ := elementWise_unbound k f hl hd hc
  clear_value u
  have hregs := offRegs_putAll t.h d t.h.ew t.h.lgrp (elemsOf t.h k f)
  have hbytes (a : Nat) := get_putAll_other (h := t.h) (d := d) (ew := t.h.ew) (a := a) t.h.lgrp (xs := elemsOf t.h k f)
  generalize t.h.putAll d t.h.ew t.h.lgrp (elemsOf t.h k f) = g at hu hregs hbytes
  subst hu
  refine ⟨ended_vdone (offResult_of_offRegs hregs :), rfl, (congrArg Hart.x hregs :), (congrArg (·.vec.k) hregs :),
    (congrArg (·.vec.e) hregs :), rfl, rfl, fun a ha => hbytes a fun e hmem c hcm => ?_⟩
  obtain ⟨i, hi, rfl⟩ := List.mem_map.1 hmem
  obtain ⟨hrange, hact⟩ := List.mem_filter.1 hi
  exact ha i (lt_vl_of_active hact) (List.mem_range'_1.1 hrange).1 hact c hcm

end Sys2Proof.Claims
end

section
/-! PROOF. The instructions on mask registers (R208, R218 to R220): O28. -/

namespace Sys2Proof.Laws

open Sys2Proof.Machine Sys2Proof.Claims

/-! ### What reading the sources changes (R140) -/

/-- The machine but for the single-bit errors of the hart's pool and the count of those corrected. -/
def offMarks (s : State) : State := { s with h := { s.h with weakPool := [] }, pow := State.reset.pow }

@[simp] theorem offMarks_readPool (s : State) (kind off n : Nat) : offMarks (s.readPool kind off n) = offMarks s := by
  unfold State.readPool
  dsimp only
  split <;> rfl

@[simp] theorem offMarks_readUse (s : State) (u : VUse) : offMarks (s.readUse u) = offMarks s := by
  have hread (es : List Nat) (off : Nat → Nat) (n : Nat) (t : State) :
      offMarks (es.foldl (fun t i => t.readPool 0 (off i) n) t) = offMarks t :=
    foldl_keeps offMarks (fun t i => offMarks_readPool t 0 (off i) n) es t
  unfold State.readUse
  split
  · rfl
  · dsimp only
    have hreads := foldl_keeps offMarks (f := fun (t : State) (r : Nat × Nat) =>
      (s.h.readElems u r.2).foldl (fun t i => t.readPool 0 (elemAddr s.h.vrb r.2 r.1 i) r.2) t)
      (fun t r => hread _ _ _ t) u.reads s
    have honly (t : State) := foldl_keeps offMarks (f := fun (t : State) (r : Nat × Nat × Nat) =>
      t.readPool 0 (elemAddr s.h.vrb r.2.1 r.1 r.2.2) r.2.1) (fun t r => offMarks_readPool ..) u.only t
    have hmasks (t : State) := foldl_keeps offMarks (f := fun (t : State) (k : Nat) =>
      if k = 0 then t else t.readPool 3 (8 * k) 8) (fun t k => by split <;> simp) u.masks t
    split
    · rw [offMarks_readPool, hmasks, honly, hreads]
    · rw [hmasks, honly, hreads]

/-- The hart h with other single-bit errors in its pool. -/
def marked (h : Hart) (w : List (Nat × Nat)) : Hart := { h with weakPool := w }

/-- Reading the sources corrects errors of the pool and changes nothing else of the hart, nor memory. -/
theorem readUse_h (s : State) (u : VUse) : (s.readUse u).h = marked s.h (s.readUse u).h.weakPool :=
  (congrArg (fun t : State => marked t.h (s.readUse u).h.weakPool) (offMarks_readUse s u) :)

theorem readUse_mem (s : State) (u : VUse) : (s.readUse u).mem = s.mem := (congrArg State.mem (offMarks_readUse s u) :)

/-- A vector instruction that names no vector register runs its own part unless it is illegal or a source is uncorrectable. -/
theorem vbegin_of_good {s : State} {u : VUse} (body : State → State) (hv : s.h.vectorOk = true) (hok : u.ok = true)
    (hb : s.h.badUse u = false) (hs : u.srcs = []) (hd : u.dsts = []) :
    s.vbegin u body = .next (body (s.readUse u)) := by
  have hcons (t : State) : t.consume [] = .ok () t := State.consume_unbound t [] rfl
  simp [State.vbegin, hv, hok, hb, hs, hd, State.rooms, hcons]

theorem vbegin_of_illegal {s : State} {u : VUse} (body : State → State) (h : s.h.vectorOk = false ∨ u.ok = false) :
    s.vbegin u body = .next s.illegal := by
  rcases h with h | h <;> simp [State.vbegin, h]

/-! ### The bits of a mask (R200) -/

theorem testBit_foldl_or (p : Nat × Bool → Bool) (xs : List (Nat × Bool)) (n j : Nat) :
    (xs.foldl (fun n e => if p e then n ||| 2 ^ e.1 else n) n).testBit j =
      (n.testBit j || xs.any fun e => p e && decide (e.1 = j)) := by
  induction xs generalizing n with
  | nil => simp
  | cons e xs ih =>
    rw [List.foldl_cons, ih, List.any_cons]
    cases p e
    · simp
    · simp [Nat.testBit_or, Nat.testBit_two_pow, Bool.or_assoc]

/-- A mask with listed bits replaced: a bit that is not listed stays, and one that is listed is set if the list says so. -/
theorem getLsbD_maskPut (m : Mask) (xs : List (Nat × Bool)) {j : Nat} (hj : j < 32768) :
    (maskPut m xs).getLsbD j =
      ((m.getLsbD j && !xs.any fun e => decide (e.1 = j)) || xs.any fun e => e.2 && decide (e.1 = j)) := by
  have hall := testBit_foldl_or (fun _ => true) xs 0 j
  have hon := testBit_foldl_or (fun e => e.2) xs 0 j
  simp only [if_true, Bool.true_and, Nat.zero_testBit, Bool.false_or] at hall hon
  simp only [maskPut, BitVec.getLsbD_or, BitVec.getLsbD_and, BitVec.getLsbD_not, BitVec.getLsbD_ofNat, hj, decide_true,
    Bool.true_and, hall, hon]

/-- Writing a bit for each listed element: those elements get theirs, and the others keep what they had. -/
theorem getLsbD_maskPut_map (m : Mask) (es : List Nat) (f : Nat → Bool) {j : Nat} (hj : j < 32768) :
    (maskPut m (es.map fun i => (i, f i))).getLsbD j = if j ∈ es then f j else m.getLsbD j := by
  have hlisted : (es.any fun i => decide (i = j)) = decide (j ∈ es) := by
    rw [Bool.eq_iff_iff]
    simp
  have hset : (es.any fun i => f i && decide (i = j)) = (decide (j ∈ es) && f j) := by
    rw [Bool.eq_iff_iff]
    simp only [List.any_eq_true, Bool.and_eq_true, decide_eq_true_eq]
    exact ⟨fun ⟨i, hi, hf, e⟩ => e ▸ ⟨hi, hf⟩, fun ⟨hi, hf⟩ => ⟨j, hi, hf, rfl⟩⟩
  rw [getLsbD_maskPut m _ hj]
  simp only [List.any_map, Function.comp_def, hlisted, hset]
  split <;> simp [*]

theorem writeK_same (h : Hart) (d : Fin 8) (xs : List (Nat × Bool)) : (h.writeK d xs).vec.k[d] = maskPut h.vec.k[d] xs := by
  simp [Hart.writeK]

theorem writeK_other (h : Hart) {d m : Fin 8} (xs : List (Nat × Bool)) (hm : m ≠ d) :
    (h.writeK d xs).vec.k[m] = h.vec.k[m] := by
  have : d.val ≠ m.val := fun e => hm (Fin.ext e.symm)
  simp [Hart.writeK, this]

theorem mem_actives {h : Hart} {k : Fin 8} {i : Nat} : i ∈ h.actives k ↔ h.active k i = true := by
  rw [Hart.actives, List.mem_filter, List.mem_range, and_iff_right_iff_imp]
  exact lt_vl_of_active

/-! ### The members (R219, R220) -/

/-- The lowest active set bit is what the model searches (R219). -/
theorem kfirst_eq {h : Hart} {a k : Fin 8} {f : Nat} (hf : IsFirst h a k f) : h.kfirst a k = f := by
  obtain ⟨hle, hset, hlow⟩ := hf
  have hnone (j : Nat) (hj : j < f) : (!decide (h.active k j = true ∧ h.kbit a j = true)) = true := by
    simpa [imp_iff_not_or] using hlow j hj
  rw [Hart.kfirst, Hart.actives, List.find?_filter]
  rcases hle.lt_or_eq with hlt | rfl
  · rw [List.find?_range_eq_some.2 ⟨by simpa using hset hlt, List.mem_range.2 hlt, hnone⟩]
    rfl
  · rw [List.find?_range_eq_none.2 hnone]
    rfl

theorem vkMask_eq (s : State) (d k : Fin 8) (ms : List (Fin 8)) (F : Hart → Nat → Bool) :
    s.vkMask d ms k F = s.vbegin (maskUse (d != 0) (k :: ms)) fun t =>
      { t with h := t.h.writeK d ((t.h.actives k).map fun i => (i, F t.h i)) }.vdone := rfl

/-- A member that computes a bit for each active element (R219). -/
theorem vkMask_spec {s : State} {d k : Fin 8} {ms : List (Fin 8)} {F : Hart → Nat → Bool} {g : Nat → Bool} {i : Instr}
    (hi : exec i s = s.vkMask d ms k F) (hF : ∀ w i, F (marked s.h w) i = g i) :
    (s.h.vectorOk = true → d ≠ 0 → s.h.badUse (maskUse (d != 0) (k :: ms)) = false →
      ∃ t, exec i s = .next t ∧ Ended s.h t.h ∧ t.h.x = s.h.x ∧ t.h.vec.v = s.h.vec.v ∧ t.mem = s.mem ∧
        (∀ m, m ≠ d → t.h.vec.k[m] = s.h.vec.k[m]) ∧
        ∀ i < 32768, (t.h.vec.k[d]).getLsbD i = if s.h.active k i then g i else (s.h.vec.k[d]).getLsbD i) ∧
    (s.h.vectorOk = false ∨ d = 0 → exec i s = .next s.illegal) := by
  rw [hi, vkMask_eq]
  refine ⟨fun hv hd hb => ?_, fun h => vbegin_of_illegal _ (h.imp_right fun h0 => by simp [maskUse, h0])⟩
  have hh := readUse_h s (maskUse (d != 0) (k :: ms))
  have hm := readUse_mem s (maskUse (d != 0) (k :: ms))
  rw [vbegin_of_good _ hv (by simpa [maskUse] using hd) hb rfl rfl]
  generalize s.readUse (maskUse (d != 0) (k :: ms)) = t at hh hm ⊢
  rw [hh]
  refine ⟨_, rfl, ended_vdone rfl, rfl, rfl, hm, fun m hm => writeK_other _ _ hm, fun j hj => ?_⟩
  refine (congrArg (·.getLsbD j) (writeK_same _ d _)).trans ?_
  rw [getLsbD_maskPut_map _ _ _ hj, hF]
  exact if_congr mem_actives rfl rfl

/-- A member that writes a number to x d (R220). -/
theorem vkCount_spec {s : State} {d : Fin 32} {a k : Fin 8} {F : Hart → Word} {v : Word} {i : Instr}
    (hi : exec i s = s.vk true [a, k] fun t => { t with h := t.h.set d (F t.h) }.vdone) (hF : ∀ w, F (marked s.h w) = v)
    (hv : s.h.vectorOk = true) (hb : s.h.badUse (maskUse true [a, k]) = false) :
    ∃ t, exec i s = .next t ∧ Ended s.h t.h ∧ t.h.vec.v = s.h.vec.v ∧ t.h.vec.k = s.h.vec.k ∧ t.mem = s.mem ∧
      ∀ r, t.x r = if r = 0 then 0 else if r = d then v else s.x r := by
  have hh := readUse_h s (maskUse true [a, k])
  have hm := readUse_mem s (maskUse true [a, k])
  have hrun := vbegin_of_good (fun t => { t with h := t.h.set d (F t.h) }.vdone) hv rfl hb rfl rfl
  generalize s.readUse (maskUse true [a, k]) = t at hh hm hrun
  rw [hh, hF] at hrun
  have hx (r : Fin 32) := Hart.get_set (marked s.h t.h.weakPool) d r v
  obtain ⟨xs, hset⟩ := exists_set_eq (marked s.h t.h.weakPool) d v
  rw [hset] at hrun hx
  exact ⟨_, hi.trans hrun, ended_vdone rfl, rfl, rfl, hm, hx⟩

end Sys2Proof.Laws

namespace Sys2Proof.Claims

open Sys2Proof.Machine Sys2Proof.Laws

theorem maskMembers : MaskMembers := by
  intro s d a b k f hf
  have hfirst (w : List (Nat × Nat)) : (marked s.h w).kfirst a k = f := kfirst_eq hf
  simp only [List.forall_mem_cons]
  refine ⟨vkMask_spec (exec_kand ..) fun w i => rfl, vkMask_spec (exec_kor ..) fun w i => rfl,
    vkMask_spec (exec_kxor ..) fun w i => ?_, vkMask_spec (exec_kandn ..) fun w i => rfl,
    vkMask_spec (exec_knot ..) fun w i => rfl, vkMask_spec (exec_kmov ..) fun w i => rfl,
    vkMask_spec (exec_kset ..) fun w i => rfl, vkMask_spec (exec_kclr ..) fun w i => rfl,
    vkMask_spec (exec_ksbf ..) fun w i => ?_, vkMask_spec (exec_ksif ..) fun w i => ?_,
    vkMask_spec (exec_ksof ..) fun w i => ?_, by simp⟩
  · exact congrFun₂ Bool.bne_eq_xor _ _
  · rw [hfirst w]
  · rw [hfirst w]
  · rw [hfirst w]
    rfl

theorem maskCounts : MaskCounts := by
  intro s d a k f hf hv hb
  have hfirst (w : List (Nat × Nat)) : (marked s.h w).kfirst a k = f := kfirst_eq hf
  simp only [List.forall_mem_cons]
  refine ⟨vkCount_spec (F := fun h => w64 ((h.actives k).filter fun i => h.kbit a i).length) (exec_kpopc ..) (fun w => ?_) hv hb,
    vkCount_spec (F := fun h => if h.kfirst a k = h.vl then BitVec.allOnes 64 else w64 (h.kfirst a k)) (exec_kfirst ..)
      (fun w => ?_) hv hb, by simp⟩
  · show w64 (((s.h.actives k).filter fun i => s.h.kbit a i).length) = _
    rw [Hart.actives, List.filter_filter]
    simp only [Bool.and_comm]
    rfl
  · rw [hfirst w]
    rfl

/-- Settles O28: each member's bits, and the numbers of KPOPC and KFIRST, by the lowest active set bit. -/
theorem maskRegisters : Obligations.MaskRegisters := ⟨maskMembers, maskCounts⟩

end Sys2Proof.Claims
end

section
/-! PROOF. The comparisons of vector elements (R216, R217): O26. -/

namespace Sys2Proof.Laws

open Sys2Proof.Machine Sys2Proof.Claims

/-! ### Patterns as numbers (R186) -/

theorem ewBits_pos (h : Hart) : 1 ≤ h.ewBits := Nat.mul_pos (by decide) (codeBytes_pos h.ew).1

/-- The signed number of a pattern, as the statements name it and as the model does. -/
theorem signedOf_eq_sg {w : Nat} (hw : 1 ≤ w) (p : Nat) : signedOf w p = sg w p := by
  rw [signedOf_eq_bmod hw, sg, Int.natCast_emod, Nat.cast_pow, Nat.cast_ofNat]
  exact_mod_cast Int.emod_bmod (p : Int) (2 ^ w)

/-! ### Comparisons (R216) -/

/-- Element i of the second operand: of a group, or x b (R216). -/
theorem bElem_cmpB (s t : State) (b : Fin 32) (z : Bool) (i : Nat) :
    t.h.bElem (s.cmpB b z) i = if z then (s.h.xb b).toNat % 2 ^ t.h.ewBits else t.h.velem b i := by
  cases z <;> rfl

theorem vcmp_eq (s : State) (d : Fin 8) (a b : Fin 32) (k : Fin 8) (z isF : Bool) (p : Hart → Nat → Nat → Bool × Nat) :
    s.vcmp d a (s.cmpB b z) k isF p = s.vbegin (cmpUse s isF d a b k z) fun t =>
      compared t d k fun i => p t.h (t.h.velem a i) (t.h.bElem (s.cmpB b z) i) := by
  have hregs : a.val :: (s.cmpB b z).regs = if z then [a.val] else [a.val, b.val] := by cases z <;> rfl
  unfold State.vcmp
  rw [hregs]
  refine congrArg (s.vbegin _) (funext fun t => ?_)
  simp only [List.map_map, List.foldl_map, compared]
  rfl

theorem runs_vcmpInt {i : Instr} {s : State} {d : Fin 8} {a b : Fin 32} {k : Fin 8} {z : Bool} {p f : Nat → Nat → Nat → Bool}
    (hi : exec i s = s.vcmpInt d a b k z p) (hp : ∀ w m n, 1 ≤ w → p w m n = f w m n) :
    Runs i s (cmpUse s false d a b k z) fun t => compared t d k fun i =>
      (f t.h.ewBits (t.h.velem a i) (if z then (s.h.xb b).toNat % 2 ^ t.h.ewBits else t.h.velem b i), 0) := by
  refine runs_of_vbegin ?_
  rw [hi, State.vcmpInt, vcmp_eq]
  simp only [bElem_cmpB, hp _ _ _ (ewBits_pos _)]

theorem runs_vcmpFlt {i : Instr} {s : State} {d : Fin 8} {a b : Fin 32} {k : Fin 8} {z any : Bool} {p : FV → FV → Bool}
    (hi : exec i s = s.vcmpFlt d a b k z any p) :
    Runs i s (cmpUse s true d a b k z) fun t => compared t d k fun i =>
      let v := t.h.fmt.decode (t.h.velem a i)
      let w := t.h.fmt.decode (if z then (s.h.xb b).toNat % 2 ^ t.h.ewBits else t.h.velem b i)
      (p v w, if (if any then v.isNan || w.isNan else v.isSig || w.isSig) then 16 else 0) := by
  refine runs_of_vbegin ?_
  rw [hi, State.vcmpFlt, vcmp_eq]
  cases any <;> simp [bElem_cmpB, nvSig]

/-- The predicates of R217 are those of the model. -/
theorem exec_vsMembers (s : State) (d : Fin 8) (a b : Fin 32) (x y : Bool) (k : Fin 8) (z : Bool) :
    ∀ p ∈ vsMembers d a b x y k z, ∃ P, exec p.1 s = s.vcmpInt d a b k z P ∧ ∀ w m n, 1 ≤ w → P w m n = p.2 w m n := by
  simp only [vsMembers, List.forall_mem_cons]
  refine ⟨⟨_, exec_vseq .., fun w m n hw => rfl⟩, ⟨_, exec_vsne .., fun w m n hw => ?_⟩, ⟨_, exec_vslt .., fun w m n hw => ?_⟩,
    ⟨_, exec_vsltu .., fun w m n hw => rfl⟩, ⟨_, exec_vsle .., fun w m n hw => ?_⟩, ⟨_, exec_vsleu .., fun w m n hw => rfl⟩,
    ⟨_, exec_vsgt .., fun w m n hw => ?_⟩, ⟨_, exec_vsgtu .., fun w m n hw => rfl⟩, by simp⟩
  · exact (decide_not).symm
  all_goals simp only [signedOf_eq_sg hw, gt_iff_lt]

theorem exec_vfcMembers (s : State) (d : Fin 8) (a b : Fin 32) (x y : Bool) (k : Fin 8) (z : Bool) :
    ∀ p ∈ vfcMembers d a b x y k z, exec p.1 s = s.vcmpFlt d a b k z p.2.1 p.2.2 := by
  simp only [vfcMembers, List.forall_mem_cons]
  exact ⟨exec_vfeq .., exec_vfne .., exec_vflt .., exec_vfle .., exec_vfunord .., by simp⟩

end Sys2Proof.Laws

namespace Sys2Proof.Claims

open Sys2Proof.Machine Sys2Proof.Laws

/-- Settles O26: each member is the comparison of its predicate. -/
theorem vectorCompares : Obligations.VectorCompares := by
  intro s d a b x y k z q
  refine ⟨fun p hp => ?_, fun p hp => runs_vcmpFlt (exec_vfcMembers s d a b x y k z p hp)⟩
  obtain ⟨P, hexec, hP⟩ := exec_vsMembers s d a b x y k z p hp
  exact runs_vcmpInt hexec hP

end Sys2Proof.Claims
end

section
/-! PROOF. Integer arithmetic on the patterns of vector elements (R52, R186, R214). -/

namespace Sys2Proof.Laws

open Sys2Proof.Machine Sys2Proof.Claims

/-! ### Patterns and numbers -/

theorem cast_pat (w : Nat) (n : Int) : (pat w n : Int) = n % 2 ^ w := cast_patOf w n

theorem pat_natCast (w p : Nat) : pat w p = p % 2 ^ w := by
  have := cast_pat w p
  exact_mod_cast this

theorem pat_of_lt {w p : Nat} (hp : p < 2 ^ w) : pat w p = p := by rw [pat_natCast, Nat.mod_eq_of_lt hp]

theorem pat_congr {w : Nat} {m n : Int} (h : m % 2 ^ w = n % 2 ^ w) : pat w m = pat w n := by rw [pat, pat, h]

/-- A pattern is that of its signed number. -/
theorem pat_sg {w p : Nat} (hp : p < 2 ^ w) : pat w (sg w p) = p := by
  have h : sg w p % ((2 ^ w : Nat) : Int) = p % ((2 ^ w : Nat) : Int) := Int.bmod_emod
  rw [pat_congr (n := p) (by exact_mod_cast h), pat_of_lt hp]

theorem toNat_ofInt_eq_pat (w : Nat) (n : Int) : (BitVec.ofInt w n).toNat = pat w n := by
  rw [BitVec.toNat_ofInt, pat]
  push_cast
  rfl

theorem toInt_ofNat_eq_sg (w p : Nat) : (BitVec.ofNat w p).toInt = sg w p := by
  rw [BitVec.toInt_ofNat', sg]

theorem toNat_ofNat_of_lt {w p : Nat} (hp : p < 2 ^ w) : (BitVec.ofNat w p).toNat = p := by
  rw [BitVec.toNat_ofNat, Nat.mod_eq_of_lt hp]

/-- The signed number of a pattern lies in its range. -/
theorem sg_bounds {w : Nat} (hw : 1 ≤ w) (p : Nat) : -(2 : Int) ^ (w - 1) ≤ sg w p ∧ sg w p < 2 ^ (w - 1) := by
  have hpos : 0 < 2 ^ w := Nat.two_pow_pos w
  have hlo : -(((2 ^ w : Nat) : Int) / 2) ≤ sg w p := Int.le_bmod hpos
  have hhi : sg w p < (((2 ^ w : Nat) : Int) + 1) / 2 := Int.bmod_lt hpos
  obtain ⟨v, rfl⟩ := Nat.exists_eq_add_of_le' hw
  rw [pow_succ] at hlo hhi
  have : (2 : Int) ^ v = (2 ^ v : Nat) := by push_cast; rfl
  rw [Nat.add_sub_cancel, this]
  omega

theorem sg_eq_zero_iff {w p : Nat} (hp : p < 2 ^ w) : sg w p = 0 ↔ p = 0 := by
  refine ⟨fun h => ?_, fun h => by rw [h]; exact Int.zero_bmod⟩
  rw [← pat_sg hp, h]
  simp [pat]

/-! ### The functions of R214 -/

section
variable {w a s : Nat}

theorem vAdd_eq (w a s : Nat) : vAdd w a s = pat w (a + s) := by
  rw [← Nat.cast_add, pat_natCast, vAdd]

theorem vSub_eq (hs : s < 2 ^ w) : vSub w a s = pat w (a - s) := by
  have h : ((a + 2 ^ w - s : Nat) : Int) = (a - s) + 2 ^ w := by
    push_cast [Nat.cast_sub (show s ≤ a + 2 ^ w by omega)]
    ring
  rw [vSub, ← pat_natCast, h]
  exact pat_congr (Int.add_emod_right ..)

theorem vAndn_eq (hs : s < 2 ^ w) : vAndn w a s = a &&& (s ^^^ (2 ^ w - 1)) := by
  have h : 2 ^ w - 1 - s = s ^^^ (2 ^ w - 1) := by
    refine Nat.eq_of_testBit_eq fun i => ?_
    rw [show 2 ^ w - 1 - s = 2 ^ w - (s + 1) by omega, Nat.testBit_two_pow_sub_succ hs, Nat.testBit_xor,
      Nat.testBit_two_pow_sub_one]
    by_cases hi : i < w
    · simp [hi]
    · rw [Nat.testBit_lt_two_pow (lt_of_lt_of_le hs (Nat.pow_le_pow_right (by decide) (not_lt.1 hi)))]
      simp [hi]
  rw [vAndn, h]

theorem vSll_eq (w a s : Nat) : vSll w a s = pat w (a * 2 ^ (s % w)) := by
  rw [vSll, ← pat_natCast]
  push_cast
  rfl

theorem vSra_eq (hw : 1 ≤ w) : vSra w a s = pat w (sg w a / 2 ^ (s % w)) := by
  rw [vSra, signedOf_eq_sg hw]
  rfl

theorem vMin_eq (hw : 1 ≤ w) (ha : a < 2 ^ w) (hs : s < 2 ^ w) : vMin w a s = pat w (min (sg w a) (sg w s)) := by
  rw [vMin, signedOf_eq_sg hw, signedOf_eq_sg hw]
  split
  · rw [min_eq_right (by omega), pat_sg hs]
  · rw [min_eq_left (by omega), pat_sg ha]

theorem vMax_eq (hw : 1 ≤ w) (ha : a < 2 ^ w) (hs : s < 2 ^ w) : vMax w a s = pat w (max (sg w a) (sg w s)) := by
  rw [vMax, signedOf_eq_sg hw, signedOf_eq_sg hw]
  split
  · rw [max_eq_right (by omega), pat_sg hs]
  · rw [max_eq_left (by omega), pat_sg ha]

theorem vMul_eq (w a s : Nat) : vMul w a s = pat w (a * s) := by
  rw [← Nat.cast_mul, pat_natCast, vMul]

theorem vMulh_eq (hw : 1 ≤ w) : vMulh w a s = pat w (sg w a * sg w s / 2 ^ w) := by
  rw [vMulh, signedOf_eq_sg hw, signedOf_eq_sg hw]
  rfl

theorem vDiv_eq (hs : s < 2 ^ w) : vDiv w a s = pat w (if s = 0 then -1 else (sg w a).tdiv (sg w s)) := by
  rw [vDiv, divS_eq, toNat_ofInt_eq_pat, toInt_ofNat_eq_sg, toInt_ofNat_eq_sg]
  simp only [sg_eq_zero_iff hs]

theorem vRem_eq (ha : a < 2 ^ w) (hs : s < 2 ^ w) :
    vRem w a s = pat w (if s = 0 then (a : Int) else (sg w a).tmod (sg w s)) := by
  rw [vRem, remS_eq, toNat_ofInt_eq_pat, toInt_ofNat_eq_sg, toInt_ofNat_eq_sg]
  simp only [sg_eq_zero_iff hs]
  split
  · rw [pat_sg ha, pat_of_lt ha]
  · rfl

theorem vDivu_eq (ha : a < 2 ^ w) (hs : s < 2 ^ w) : vDivu w a s = if s = 0 then 2 ^ w - 1 else a / s := by
  rw [vDivu, divU_eq, toNat_ofInt_eq_pat, toNat_ofNat_of_lt ha, toNat_ofNat_of_lt hs]
  simp only [Int.natCast_eq_zero]
  split
  · rw [← toNat_ofInt_eq_pat, BitVec.ofInt_neg, BitVec.ofInt_ofNat, BitVec.neg_one_eq_allOnes, BitVec.toNat_allOnes]
  · exact pat_of_lt (lt_of_le_of_lt (Nat.div_le_self ..) ha)

theorem vRemu_eq (ha : a < 2 ^ w) (hs : s < 2 ^ w) : vRemu w a s = if s = 0 then a else a % s := by
  rw [vRemu, remU_eq, toNat_ofInt_eq_pat, toNat_ofNat_of_lt ha, toNat_ofNat_of_lt hs]
  simp only [Int.natCast_eq_zero]
  split
  · exact pat_of_lt ha
  · exact pat_of_lt (lt_of_le_of_lt (Nat.mod_le ..) ha)

theorem clampInt_eq_clamp (w : Nat) (n : Int) : clampInt true w n = clamp w n := by
  rw [clampInt, if_pos rfl, min_comm, clamp]

theorem vSadd_eq (hw : 1 ≤ w) : vSadd w a s = pat w (clamp w (sg w a + sg w s)) := by
  rw [vSadd, signedOf_eq_sg hw, signedOf_eq_sg hw, clampInt_eq_clamp]
  rfl

theorem vSsub_eq (hw : 1 ≤ w) : vSsub w a s = pat w (clamp w (sg w a - sg w s)) := by
  rw [vSsub, signedOf_eq_sg hw, signedOf_eq_sg hw, clampInt_eq_clamp]
  rfl

theorem vAbsd_eq (hw : 1 ≤ w) : vAbsd w a s = (sg w a - sg w s).natAbs := by
  obtain ⟨v, rfl⟩ := Nat.exists_eq_add_of_le' hw
  have ha := sg_bounds hw a
  have hs := sg_bounds hw s
  have hpow : (2 : Int) ^ v = (2 ^ v : Nat) := by push_cast; rfl
  rw [Nat.add_sub_cancel, hpow] at ha hs
  rw [vAbsd, signedOf_eq_sg hw, signedOf_eq_sg hw, Nat.mod_eq_of_lt]
  rw [pow_succ]
  omega

end

/-! ### Counts of bits (R214) -/

/-- A number is a multiple of 2^n just where its bits below n are zero. -/
theorem two_pow_dvd_iff (n v : Nat) : 2 ^ n ∣ v ↔ ∀ j < n, v.testBit j = false := by
  rw [Nat.dvd_iff_mod_eq_zero]
  refine ⟨fun h j hj => ?_, fun h => Nat.eq_of_testBit_eq fun j => ?_⟩
  · have := Nat.testBit_mod_two_pow v n j
    rw [h, Nat.zero_testBit] at this
    simpa [hj] using this.symm
  · rw [Nat.testBit_mod_two_pow, Nat.zero_testBit]
    by_cases hj : j < n <;> simp [hj, h]

theorem clzNat_spec (w v : Nat) (hv : v < 2 ^ w) :
    clzNat w v ≤ w ∧ v < 2 ^ (w - clzNat w v) ∧ if v = 0 then clzNat w v = w else 2 ^ (w - clzNat w v) ≤ 2 * v := by
  unfold clzNat
  split
  · rename_i h0
    simp [h0]
  · rename_i h0
    have hlog := (Nat.log2_lt h0).mpr hv
    rw [show w - (w - 1 - v.log2) = v.log2 + 1 by omega]
    refine ⟨by omega, Nat.lt_log2_self, ?_⟩
    rw [pow_succ, mul_comm]
    exact Nat.mul_le_mul_left 2 (Nat.log2_self_le h0)

theorem ctzNat_spec (w v : Nat) (hv : v < 2 ^ w) :
    ctzNat w v ≤ w ∧ 2 ^ ctzNat w v ∣ v ∧ (v ≠ 0 → ¬2 ^ (ctzNat w v + 1) ∣ v) ∧ (v = 0 → ctzNat w v = w) := by
  obtain ⟨-, hle, hlow, hone⟩ := ctzFrom_spec v w 0
  rw [Nat.zero_add] at hle hone
  change ctzNat w v ≤ w at hle
  have hdvd : 2 ^ ctzNat w v ∣ v := (two_pow_dvd_iff ..).2 fun j hj => hlow j (Nat.zero_le j) hj
  refine ⟨hle, hdvd, fun h0 hn => ?_, fun h0 => ?_⟩
  · have hlt : ctzNat w v < w := by
      refine lt_of_le_of_ne hle fun he => h0 ?_
      rw [he] at hdvd
      exact Nat.eq_zero_of_dvd_of_lt hdvd hv
    have hbit : v.testBit (ctzNat w v) = true := hone hlt
    rw [(two_pow_dvd_iff ..).1 hn _ (Nat.lt_succ_self _)] at hbit
    cases hbit
  · refine le_antisymm hle (not_lt.1 fun hlt => ?_)
    have hbit : v.testBit (ctzNat w v) = true := hone hlt
    rw [h0, Nat.zero_testBit] at hbit
    cases hbit

end Sys2Proof.Laws
end

section
/-! PROOF. The integer members with vector and scalar second operands (R213 to R215): O23. -/

namespace Sys2Proof.Laws

open Sys2Proof.Machine Sys2Proof.Claims

/-! ### Element-wise members (R207) -/

/-- An element-wise instruction whose patterns and flags are those of f runs as `elementWise` says. -/
theorem runs_vmap {i : Instr} {s : State} {u : VUse} {d : Fin 32} {k : Fin 8} {F : Hart → Nat → FR}
    {f : State → Nat → Nat × Nat} (hi : exec i s = s.vmap u d k F) (hF : ∀ t j, F t.h j = ⟨(f t j).1, (f t j).2⟩) :
    Runs i s u fun t => elementWise t d k (f t) := by
  refine runs_of_vbegin (hi.trans ?_)
  unfold State.vmap
  refine congrArg (s.vbegin _) (funext fun t => ?_)
  simp only [List.map_map, List.foldl_map, Function.comp_def, hF, Fin.ofNat_val_eq_self]
  rfl

/-- Two functions of the width and the operands that agree on patterns of that width. -/
def AgreeOnPatterns (F f : Nat → Nat → Nat → Nat) : Prop :=
  ∀ w a s, 1 ≤ w → a < 2 ^ w → s < 2 ^ w → F w a s = f w a s

theorem velem_lt (h : Hart) (b i : Nat) : h.velem b i < 2 ^ h.ewBits := by
  rw [Hart.ewBits, pow_mul]
  exact Memory.read_lt ..

theorem bElem_lt (h : Hart) (b : VB) (i : Nat) : h.bElem b i < 2 ^ h.ewBits := by
  cases b with
  | vec r => exact velem_lt h r i
  | sca v => exact Nat.mod_lt _ (Nat.two_pow_pos _)
  | no => exact Nat.two_pow_pos _

/-- A member of two operands, with a vector or a scalar as the second. -/
theorem runs_vint {i : Instr} {s : State} {d a : Fin 32} {b : VB} {k : Fin 8} {F f : Nat → Nat → Nat → Nat}
    (hi : exec i s = s.vint d a b k F) (hF : AgreeOnPatterns F f) :
    Runs i s (s.h.use (decide (s.h.ew < 4)) d (a.val :: b.regs) k false) fun t =>
      elementWise t d k fun j => (f t.h.ewBits (t.h.velem a j) (t.h.bElem b j), 0) :=
  runs_vmap hi fun t j => by rw [hF _ _ _ (ewBits_pos _) (velem_lt ..) (bElem_lt ..)]

/-- The model's functions of R214, in the order of its table. -/
def viFunctions : List (Nat → Nat → Nat → Nat) :=
  [vAdd, vSub, vAnd, vOr, vXor, vAndn, vSll, vSrl, vSra, vMin, vMax, vMinu, vMaxu, vMul, vMulh, vMulhu, vDiv, vDivu, vRem,
   vRemu, vSadd, vSaddu, vSsub, vSsubu, vAbsd]

theorem viFunctions_agree : List.Forall₂ AgreeOnPatterns viFunctions viTable := by
  unfold viFunctions viTable
  exact .cons (fun w a s _ _ _ => vAdd_eq w a s) <| .cons (fun w a s _ _ hs => vSub_eq hs) <|
    .cons (fun _ _ _ _ _ _ => rfl) <| .cons (fun _ _ _ _ _ _ => rfl) <| .cons (fun _ _ _ _ _ _ => rfl) <|
    .cons (fun w a s _ _ hs => vAndn_eq hs) <| .cons (fun w a s _ _ _ => vSll_eq w a s) <|
    .cons (fun _ _ _ _ _ _ => rfl) <| .cons (fun w a s hw _ _ => vSra_eq hw) <|
    .cons (fun w a s hw ha hs => vMin_eq hw ha hs) <| .cons (fun w a s hw ha hs => vMax_eq hw ha hs) <|
    .cons (fun _ _ _ _ _ _ => rfl) <| .cons (fun _ _ _ _ _ _ => rfl) <| .cons (fun w a s _ _ _ => vMul_eq w a s) <|
    .cons (fun w a s hw _ _ => vMulh_eq hw) <| .cons (fun _ _ _ _ _ _ => rfl) <| .cons (fun w a s _ _ hs => vDiv_eq hs) <|
    .cons (fun w a s _ ha hs => vDivu_eq ha hs) <| .cons (fun w a s _ ha hs => vRem_eq ha hs) <|
    .cons (fun w a s _ ha hs => vRemu_eq ha hs) <| .cons (fun w a s hw _ _ => vSadd_eq hw) <|
    .cons (fun _ _ _ _ _ _ => rfl) <| .cons (fun w a s hw _ _ => vSsub_eq hw) <| .cons (fun _ _ _ _ _ _ => rfl) <|
    .cons (fun w a s hw _ _ => vAbsd_eq hw) .nil

theorem exec_viMembers (s : State) (d a b : Fin 32) (x y : Bool) (k : Fin 8) :
    List.Forall₂ (fun i F => exec i s = s.vint d a (.vec b) k F) (viMembers d a b x y k) viFunctions := by
  simp only [viMembers, viFunctions, List.forall₂_cons, List.forall₂_nil_left_iff]
  exact ⟨exec_vadd .., exec_vsub .., exec_vand .., exec_vor .., exec_vxor .., exec_vandn .., exec_vsll .., exec_vsrl ..,
    exec_vsra .., exec_vmin .., exec_vmax .., exec_vminu .., exec_vmaxu .., exec_vmul .., exec_vmulh .., exec_vmulhu ..,
    exec_vdiv .., exec_vdivu .., exec_vrem .., exec_vremu .., exec_vsadd .., exec_vsaddu .., exec_vssub .., exec_vssubu ..,
    exec_vabsd .., trivial⟩

theorem exec_vixMembers (s : State) (d a b : Fin 32) (x : Bool) (k : Fin 8) :
    List.Forall₂ (fun i F => exec i s = s.vint d a (.sca (s.h.xb b)) k F) (vixMembers d a b x k) viFunctions := by
  simp only [vixMembers, viFunctions, List.forall₂_cons, List.forall₂_nil_left_iff]
  exact ⟨exec_vaddX .., exec_vsubX .., exec_vandX .., exec_vorX .., exec_vxorX .., exec_vandnX .., exec_vsllX ..,
    exec_vsrlX .., exec_vsraX .., exec_vminX .., exec_vmaxX .., exec_vminuX .., exec_vmaxuX .., exec_vmulX ..,
    exec_vmulhX .., exec_vmulhuX .., exec_vdivX .., exec_vdivuX .., exec_vremX .., exec_vremuX .., exec_vsaddX ..,
    exec_vsadduX .., exec_vssubX .., exec_vssubuX .., exec_vabsdX .., trivial⟩

/-- Members that compute the functions of one list, where those agree with the functions of another. -/
theorem exec_of_agree {s : State} {d a : Fin 32} {b : VB} {k : Fin 8} {is : List Instr} {Fs fs : List (Nat → Nat → Nat → Nat)}
    (hF : List.Forall₂ AgreeOnPatterns Fs fs) (hi : List.Forall₂ (fun i F => exec i s = s.vint d a b k F) is Fs) :
    List.Forall₂ (fun i f => ∃ F, exec i s = s.vint d a b k F ∧ AgreeOnPatterns F f) is fs := by
  induction hF generalizing is with
  | nil => cases hi with | nil => exact .nil
  | cons hF _ ih => cases hi with | cons hi his => exact .cons ⟨_, hi, hF⟩ (ih his)

/-- Each of a list of members runs with the function of R214's table at its place. -/
theorem runs_of_members {s : State} {d a : Fin 32} {b : VB} {k : Fin 8} {is : List Instr}
    (hi : List.Forall₂ (fun i F => exec i s = s.vint d a b k F) is viFunctions) :
    ∀ p ∈ is.zip viTable, Runs p.1 s (s.h.use (decide (s.h.ew < 4)) d (a.val :: b.regs) k false) fun t =>
      elementWise t d k fun j => (p.2 t.h.ewBits (t.h.velem a j) (t.h.bElem b j), 0) := by
  intro p hp
  obtain ⟨F, hexec, hF⟩ := (List.forall₂_iff_zip.1 (exec_of_agree viFunctions_agree hi)).2 hp
  exact runs_vint hexec hF

/-- VMACC with either second operand (R214). -/
theorem runs_vmacc {i : Instr} {s : State} {d a : Fin 32} {b : VB} {k : Fin 8} (hi : exec i s = s.vmaccOp d a b k) :
    Runs i s (s.h.use (decide (s.h.ew < 4)) d (a.val :: b.regs) k true) fun t =>
      elementWise t d k fun j => (pat t.h.ewBits (t.h.velem d j + t.h.velem a j * t.h.bElem b j), 0) := by
  refine runs_vmap hi fun t j => ?_
  rw [vAdd, vMul, Nat.add_mod_mod, ← pat_natCast]
  push_cast
  rfl

/-- VMV with either operand (R214). -/
theorem runs_vmove {i : Instr} {s : State} {d : Fin 32} {b : VB} {k : Fin 8} (hi : exec i s = s.vmove d b k) :
    Runs i s (s.h.use true d b.regs k false) fun t => elementWise t d k fun j => (t.h.bElem b j, 0) :=
  runs_vmap hi fun _ _ => rfl

/-- A member of one operand (R214). -/
theorem runs_vint1 {i : Instr} {s : State} {d a : Fin 32} {k : Fin 8} {F : Nat → Nat → Nat}
    (hi : exec i s = s.vint1 d a k F) :
    Runs i s (s.h.use (decide (s.h.ew < 4)) d [a.val] k false) fun t =>
      elementWise t d k fun j => (F t.h.ewBits (t.h.velem a j), 0) :=
  runs_vmap hi fun _ _ => rfl

end Sys2Proof.Laws

namespace Sys2Proof.Claims

open Sys2Proof.Machine Sys2Proof.Laws

theorem vectorIntegersFirst : VectorIntegersFirst := fun s d a b x y k =>
  ⟨runs_of_members (exec_viMembers s d a b x y k), runs_of_members (exec_vixMembers s d a b x k)⟩

theorem vectorIntegersMore : VectorIntegersMore := by
  intro s d a b x y k
  refine ⟨runs_vmacc (exec_vmacc ..), runs_vmacc (exec_vmaccX ..), runs_vmove (exec_vmv ..), runs_vmove (exec_vmvX ..),
    ⟨clzNat, ctzNat, clzNat_spec, ctzNat_spec, runs_vint1 (exec_vclz ..), runs_vint1 (exec_vctz ..)⟩, ?_⟩
  simp only [← popNat_eq]
  exact runs_vint1 (exec_vpopc ..)

/-- Settles O23: the model's function of each member agrees on patterns with that of R214's table. -/
theorem vectorIntegers : Obligations.VectorIntegers := ⟨vectorIntegersFirst, vectorIntegersMore⟩

end Sys2Proof.Claims
end
